-- ==== Sys2Proof/Word.lean ====
section
/-! DEFINITION. The word types of the block: 32-bit registers (01_architecture.md, Registers and fields) and bytes. -/

namespace Sys2Proof

/-- A register word (00_scope.md: registers are 32 bits wide). -/
abbrev Word := BitVec 32

/-- One byte of internal memory. -/
abbrev Byte := BitVec 8

end Sys2Proof
end

