-- ==== Sys2Proof/Types.lean ====
section
/-! DEFINITION. The kinds of values that commands carry and that the state holds: names of the spec's states, records and
payloads. -/

namespace Sys2Proof

/-- Who makes a register access: the SPI pins, a register-access command of Eznel, or the management processor's own
firmware (R31, R192, R300). -/
inductive Master where
  | spi | eznel | mgmt
  deriving DecidableEq, Repr

/-- Station states in the order of the codes of R76. -/
inductive StnState where
  | disabled | ready | deadBusStart | synchronising | running | limiting | rideThrough | openLoopV | stopping | tripped
  deriving DecidableEq, Repr

/-- Start phases in the order of GFM_START_STATUS.PHASE (03_sharing_black_start.md). -/
inductive StartPhase where
  | none | deadCheck | ramp | rampHold | busCheck | energise | matching | window | busGap
  deriving DecidableEq, Repr

/-- A vector in the rotor's dq frame, or in the αβ frame. -/
structure Vec2 where
  d : Rat
  q : Rat
  deriving DecidableEq, Repr

/-- Three phase quantities. -/
structure Abc where
  a : Rat
  b : Rat
  c : Rat
  deriving DecidableEq, Repr

/-- A signal that a block reads or writes, and a word of a loop's state layout (R135, R148; log row 20): a quantity of the
station's core, the filter state of a harmonic channel, a loop variable of the station by its number, or a state of its
own loop. -/
inductive Var where
  | theta | omega | omegaF | pGov | isoInt | emf | vInt | pMeas | qMeas | pF | qF | hEff | mpEff | dz | rvEff | xvEff | vdc
  | vD | vQ | iD | iQ | vRefD | vRefQ | iRawD | iRawQ | iRefD | iRefQ | vConvD | vConvQ
  | hch (c : Nat) (quad : Bool)
  | lvar (i : Nat)
  | loc (j : Nat)
  deriving DecidableEq, Repr

/-- One input word of an input scaling block: it adds gain × (word − offset) to its variable; the word is a signed integer,
or FP32 (R141, R202, R255; log row 21). -/
structure InScale where
  slot : Nat
  fp : Bool
  offset : Rat
  gain : Rat
  dst : Var
  deriving DecidableEq, Repr

/-- Three signals, one a phase. -/
structure Var3 where
  a : Var
  b : Var
  c : Var
  deriving DecidableEq, Repr

/-- Two signals, one an axis. -/
structure Var2 where
  d : Var
  q : Var
  deriving DecidableEq, Repr

/-- What a vector limiter clamps to: the reference clamp of R110 and R120, a constant of the image, or a signal. -/
inductive LimitSrc where
  | refClamp
  | const (x : Rat)
  | sig (v : Var)
  deriving DecidableEq, Repr

/-- A library block of R141 with its connections. `voltageLoop` is block 12 of R50 with its feed-forward terms and its
reference clamp, `currentLoop` block 13 with its decoupling terms, `modulate` block 14 with the flux bias and the compare
write; the generic forms of the same library blocks stand after them. -/
inductive Block where
  | inputScaling (ins : List InScale)
  | envelope | governor | excitation | damping | power | speed | angle
  | abcDq (v i : Var3) (dc : Var)
  | curLimit | virtImp
  | harmonic (c : Nat)
  | voltageLoop (uMin uMax : Rat)
  | currentLoop (i dst : Var2) (uMin uMax : Rat)
  | modulate (src : Var2) (hbs : List Nat)
  | syncAngle (v : Var3)
  | clarke (src : Var3) (dst : Var2)
  | park (src dst : Var2)
  | abcDqOf (src : Var3) (dst : Var2)
  | dqAbc (src : Var2) (dst : Var3)
  | feedForward (dst : Var2)
  | decouple (i dst : Var2)
  | piScalar (err ff dst : Var) (uMin uMax : Rat)
  | piDq (ref meas ff dst : Var2) (uMin uMax : Rat)
  | vecLimit (lim : LimitSrc) (src dst : Var2)
  | fluxBias (ph : Var3)
  | modulation (src : Var3) (dc : Var) (dst : Var3)
  | compareWrite (src : List (Nat × Var))
  | powerClamp (src dst : Var)
  | scalarClamp (src dst : Var) (lo hi : Rat)
  | rateLimit (src dst : Var) (step : Rat)
  | lowPass (src dst : Var) (tau : Rat)
  | resonant (src dst : Var) (order : Nat)
  | position (slot : Nat) (dstP dstW : Var)
  | friction (p w ref dst : Var) (wfz : Rat)
  | snapList (src : List Var)
  deriving DecidableEq, Repr

/-- One row of an image's loop table (R130, R135). -/
structure LoopDesc where
  station : Nat
  rate : Nat
  phase : Nat
  priv : Bool
  hash : Word
  /-- Byte offset of the loop's state words in data memory, and what each word holds. -/
  stateOfs : Nat
  layout : List Var
  gslot : Nat
  gtab : Bool
  kp : Word
  ki : Word
  emin : Word
  emax : Word
  blocks : List Block
  /-- Set-point words that a privileged loop reads from loops that are not privileged (R150). -/
  setPoints : List Var
  deriving DecidableEq, Repr

/-- What an image holds behind its header: the loop table and the constants (R128, R135). -/
structure ImageBody where
  loops : List LoopDesc
  consts : List Word
  deriving DecidableEq, Repr

/-- A Trestle image (R135): its header fields and its body. -/
structure Image where
  id : Word
  stations : BitVec 4
  progBytes : Nat
  copyBytes : List Nat
  cost : List Nat
  body : ImageBody
  deriving DecidableEq, Repr

/-- What an IEEE 1588 message says of itself, as far as R310 sorts it: the MAC and transport it came by, its domain,
source port, sequence number and message interval, and of a Sync whether a Follow_Up comes behind it. -/
structure PtpHdr where
  mac : Nat
  transport : Nat
  domain : Nat
  source : Nat
  seq : Nat
  interval : Int
  twoStep : Bool
  deriving DecidableEq, Repr

/-- A peer of Eznel (R374): the SPI host, the I²C host, a CAN node number on one controller, an IP address and UDP port
behind one of the two independent MACs (R385). -/
inductive Peer where
  | spi | i2c
  | can (ctrl node : Nat)
  | udp (mac : Nat) (v6 : Bool) (addr port : Nat)
  deriving DecidableEq, Repr

/-- The level of an I/O bank, as its VSEL ball selects it: tied to VSS 1.8 V, tied to the bank's supply 3.3 V (R471). -/
inductive BankLevel where
  | v1_8 | v3_3
  deriving DecidableEq, Repr, Inhabited

/-- A unit that commands act on, one command after another (R370). -/
inductive EzUnit where
  | station (n : Nat) | engine (e : Nat) | gainSlot (g : Nat) | port (q : Nat) | cvu (u : Nat) | time | otp | iface (k : Nat)
  deriving DecidableEq, Repr

/-- A sample of a Chest stream: it comes after so many 64-byte bursts of the stream's staging buffer have drained, or it is
missing because its snapshot record was dropped (R261, R274). -/
inductive ChestInput where
  | sample (drained : Nat)
  | missing
  deriving DecidableEq, Repr

/-- An edge of a capture input: its direction, and for how many samples the new level holds (R307). -/
structure CapEdge where
  rising : Bool
  held : Nat
  deriving DecidableEq, Repr

/-- The staging buffer of a stream drains by so many 64-byte bursts (R274). -/
structure StreamDrain where
  stream : Fin 32
  bursts : Nat
  deriving DecidableEq, Repr

/-- A cell as a device end receives it (R231, R232, R240): its start symbol (0 SOF, 1 SOC, 2 SOR), header, payload and CRC,
whether it ended with ABT or was cut short. `hopCount` names, of a retry copy, the cell that it repeats. -/
structure RingCell where
  start : Nat
  header : BitVec 16
  payload : List Byte
  crc : BitVec 16
  abt : Bool
  cut : Bool
  hopCount : BitVec 4
  deriving DecidableEq, Repr

/-- A cell as an end sends it (R231, R232). -/
structure TxCell where
  header : BitVec 16
  payload : List Byte
  crc : BitVec 16
  deriving DecidableEq, Repr

/-- A frame of an end: the fields of its header cell, the payloads of its data cells, and the reserve behind its EOF in
symbols (R233). `fin` is END: 0 the A-end, 1 the B-end. -/
structure RingFrame where
  op : Nat
  node : Nat := 0
  count : Nat := 0
  port : Nat
  fin : Nat := 0
  tag : Nat := 0
  arg : Word := 0
  data : List (List Byte) := []
  reserve : Nat
  /-- A frame of the port's sweep, not of a command. -/
  sweep : Bool := false
  deriving DecidableEq, Repr

/-- What an end of a port sends (R229, R233, R240, R247): `copy` is a cell behind SOR, `loop` what a looping end passes on. -/
inductive RingMsg where
  | nak (count : Nat)
  | copy (c : TxCell)
  | lnk (w : BitVec 16)
  | brk (w : BitVec 16)
  | frame (f : RingFrame)
  | loop (c : RingCell)
  deriving DecidableEq, Repr

/-- One ID cell of an ENUM that returned: UID and POINTS (R234, R236). -/
structure IdCell where
  uid : Word
  points : Nat
  deriving DecidableEq, Repr

/-- What a Bureau request changes (R405). -/
inductive BureauChange where
  | enrol (operator commissioning image : List Byte) (records : List (Nat × Word))
  | settings (records : List (Nat × Word))
  | grant (bits : Word)
  | svn (firmware settle trestle : Nat)
  | key (role : Nat) (pubkey : List Byte)
  | debug
  | restore (version : Nat) (records : List (Nat × Word)) (operatorSig commissioningSig : List Byte)
  deriving DecidableEq, Repr

/-- A certificate as AUTH_RESPONSE reads it (R402): its key, the level in its unit name, its validity period in seconds
of local time, the bytes signed and the issuer's signature. -/
structure Cert where
  pubkey : List Byte
  level : Option Nat
  notBefore : Nat
  notAfter : Nat
  body : List Byte
  issuer : List Byte
  sig : List Byte
  deriving DecidableEq, Repr

/-- What a received Sundlink packet says in its header, apart from TYPE and LEN, and whether its CRC-32C held (R454). -/
structure SlkHdr where
  source : Nat
  dest : Nat
  seq : Nat
  tag : Nat
  crcOk : Bool
  deriving DecidableEq, Repr

/-- A Sundlink packet as a port sends it (R454). -/
structure SlkPacket where
  typ : Nat
  source : Nat
  dest : Nat
  seq : Nat
  tag : Nat
  payload : List Byte
  deriving DecidableEq, Repr

/-- How an access ends: it reaches its register or memory, or it hits an unlisted window, an ungranted one, a gated one, a
region closed to its master, or an aperture outside memory (R7, R26, R31, R39 to R41). -/
inductive Access where
  | reached | unlisted | ungranted | gated | denied | aperture
  deriving DecidableEq, Repr

/-- Work that a job does (R372, R377). -/
inductive JobKind where
  | image (i : Image)
  | reload (engine : Nat)
  | fwStage (ofs len : Nat)
  | distribute (kind mask ofs len : Nat)
  | recover (target actions kind ofs len : Nat) (nonce : List Byte) (report : Nat)
  deriving DecidableEq, Repr

end Sys2Proof
end

