-- ==== Sys2Proof/Syntax.lean ====
section
/-! DEFINITION. The commands of the block, one constructor for each row of the operation table (spec/opcode_table.json).
The docstring names the row and its rule; operands are what the outside world decides: data written, levels, codes and
measured values. -/

namespace Sys2Proof

inductive Instr where
  /-- REGISTER_WRITE (R17). A write to a register that has no row of its own is applied field by field, each field under its own timing class. -/
  | registerWrite (m : Master) (addr : BitVec 24) (w : Word) (late : Bool)
  /-- SPI_READ_INCREMENTING (R42). An SPI frame with command 0b00 reads 1 to 64 words at incrementing addresses and returns the status word, the data and a CRC-8. -/
  | spiReadIncrementing (count : Fin 64) (addr : BitVec 24) (crc : Byte) (notReady : BitVec 64) (clocked : Nat)
  /-- SPI_WRITE_INCREMENTING (R43). An SPI frame with command 0b01 is checked at CS rising and then writes its words at incrementing addresses, or is discarded whole. -/
  | spiWriteIncrementing (count : Fin 64) (addr : BitVec 24) (data : List Byte) (crc : Byte) (late : BitVec 64)
  /-- SPI_READ_FIXED (R42). An SPI frame with command 0b10 reads FIFO data registers at one fixed address. -/
  | spiReadFixed (count : Fin 64) (addr : BitVec 24) (crc : Byte) (notReady : BitVec 64) (clocked : Nat)
  /-- SPI_WRITE_FIXED (R43). An SPI frame with command 0b11 writes FIFO data registers at one fixed address. -/
  | spiWriteFixed (count : Fin 64) (addr : BitVec 24) (data : List Byte) (crc : Byte) (late : BitVec 64)
  /-- STATION_PERIOD_BOUNDARY (R27). At a station period boundary a committed envelope takes effect, armed shadows transfer and the period count advances. -/
  | stationPeriodBoundary (n : Fin 4)
  /-- TRIGGER_COMPARE_MATCH (R174). A trigger compare matches its tick count and writes SEQ_GO of the converters routed to it. -/
  | triggerCompareMatch (n : Fin 4) (t : Fin 8)
  /-- ENGINE_STATION_START (R132). The engine starts a station's loops once the station's input list is complete. -/
  | engineStationStart (n : Fin 4)
  /-- LOOP_COMPLETE (R131). A loop's last block finishes and the loop commits its outputs and state. -/
  | loopComplete (n : Fin 4) (k : Fin 64) (cycles standby : Nat)
  /-- STATE_COPY_ACK (R318). The standby acknowledges a state copy, or the copy counts as lost. -/
  | stateCopyAck (n : Fin 4) (intact upset : Bool)
  /-- SNAPSHOT_RECORD_WRITTEN (R36). The snapshot record is written to the GFM registers and the SRAM ring, or it is dropped. -/
  | snapshotRecordWritten (n : Fin 4) (accepted : Bool)
  /-- EXECUTION_DEADLINE (R154). At the execution deadline the engine abandons unfinished loops of the station and records an overrun. -/
  | executionDeadline (n : Fin 4)
  /-- GFM_ENV_SEQ_WRITE (R32). A write of a changed GFM_ENV_SEQ commits the three envelope values as one set, subject to the checks of R33. -/
  | gfmEnvSeqWrite (n : Fin 4) (seq : Word) (late : Bool)
  /-- ENV_FALLBACK (R34). ENV_AGE exceeds 200 ms and the station falls back to the OTP envelope at its next boundary. -/
  | envFallback (n : Fin 4)
  /-- GFM_SNAP0_READ (R35). A read of GFM_SNAP[0] latches the other snapshot words into a read copy. -/
  | gfmSnap0Read (n : Fin 4)
  /-- GFM_RUN_REQUEST (R78). A write of GFM_CTRL.RUN_REQ = 1 makes a run request, or sets START_REFUSED in DISABLED. -/
  | gfmRunRequest (n : Fin 4) (w : Word)
  /-- GFM_STOP_REQUEST (R78). A write of RUN_REQ = 0 requests a stop served by STOPPING or abandons a start. -/
  | gfmStopRequest (n : Fin 4) (w : Word)
  /-- GFM_RESET_REQUEST (R78). A write of RESET_REQ = 1 moves a TRIPPED station with no latched faults to READY or DISABLED. -/
  | gfmResetRequest (n : Fin 4) (w : Word)
  /-- GFM_PAR_WRITE (R64). A GFM_PAR write is rounded to resolution, range-checked and then stored or refused. -/
  | gfmParWrite (n : Fin 4) (i : BitVec 8) (w : Word) (late : Bool)
  /-- STOP_TIMEOUT (R488). T_STOP + 1.0 s after entry to STOPPING the stop is complete and the station enters READY. -/
  | stopTimeout (n : Fin 4)
  /-- DEAD_BUS_CONFIRMED (R88). The bus has stayed below V_DEAD for T_DEAD, and at the next boundary the enables go high and the ramp starts. -/
  | deadBusConfirmed (n : Fin 4)
  /-- DEAD_BUS_LIVE_TIMEOUT (R88). The bus is not confirmed dead within 10 × T_DEAD and the start ends with BUS_LIVE. -/
  | deadBusLiveTimeout (n : Fin 4)
  /-- HOLD_TIMEOUT (R90). The total hold time of a start exceeds T_HOLD_MAX and the start ends with HOLD_TIMEOUT. -/
  | holdTimeout (n : Fin 4)
  /-- BIAS_DECAY_END (R91). The flux bias reaches zero 0.1 s after entry to RUNNING. -/
  | biasDecayEnd (n : Fin 4)
  /-- BUS_LIVE_CONFIRMED (R99). The bus has been live and in band for T_LIVE and the synchronising start enters ENERGISE. -/
  | busLiveConfirmed (n : Fin 4)
  /-- SYNC_WINDOW_HELD (R99). The angle, frequency and voltage windows have held for T_WIN and the station enters WINDOW with SYNC_OK = 1. -/
  | syncWindowHeld (n : Fin 4)
  /-- BREAKER_INPUT_CHANGE (R100). A change of the breaker contact input closes the synchronising start into RUNNING or ends a start with BRK_OPEN. -/
  | breakerInputChange (n : Fin 4) (closed : Bool)
  /-- BUS_GAP_TIMEOUT (R102). The bus does not return within T_BUS_GAP and the start ends with BUS_LOST. -/
  | busGapTimeout (n : Fin 4)
  /-- SYNC_TIMEOUT (R103). A start still synchronising T_SYNC_MAX after entry ends with SYNC_TIMEOUT. -/
  | syncTimeout (n : Fin 4)
  /-- LIMIT_WINDOW_CROSSING (R112). A watched leg current crosses ±3.5 pu and the hardware limiter forces the half-bridge for the rest of the carrier period. -/
  | limitWindowCrossing (n : Fin 4) (c : Fin 6) (code : BitVec 12)
  /-- HWLIM_PERSIST (R114). The limiter has forced in HWL_CYCLES consecutive carrier periods and the station trips. -/
  | hwlimPersist (n : Fin 4)
  /-- CEIL_OVL (R108). LIM_TIME exceeds T_FC and the ceiling falls to min(FC_BUDGET, I_OVL). -/
  | ceilOvl (n : Fin 4)
  /-- CLEAR_CONFIRMED (R116). The clearing condition has held for T_CLR and the station leaves RIDE_THROUGH or LIMITING. -/
  | clearConfirmed (n : Fin 4)
  /-- RT_CURVE_TRIP (R117). The voltage stays below the ride-through curve for a cycle, or T_RT1 passes in RIDE_THROUGH, and the station trips. -/
  | rtCurveTrip (n : Fin 4)
  /-- V_WINDOW_TRIP (R118). The cycle-mean voltage stays outside a window for its allowed time and the station trips with V_WINDOW. -/
  | vWindowTrip (n : Fin 4)
  /-- F_WINDOW_TRIP (R118). The rotor speed leaves a frequency window for its allowed time and the station trips with F_WINDOW. -/
  | fWindowTrip (n : Fin 4)
  /-- TRS_IMAGE_WRITE (R134). The Eznel job writes a staged image into the shadow bank after its checks. -/
  | trsImageWrite (i : Fin 32) (ofs len : Nat) (hash : List Byte) (body : ImageBody)
  /-- TRS_IMAGE_WRITE_DONE (R134). The image job ends and the shadow bank becomes valid or keeps its content. -/
  | trsImageWriteDone (j : Fin 4)
  /-- SWAP_REQ (R136). A write of TRS_BANK.SWAP_REQ requests a bank swap, or it is refused with a reason code. -/
  | swapReq (e : Fin 2)
  /-- TRS_TABLE_WRITE (R145). The Eznel command writes one whole gain-table slot that no running loop selects. -/
  | trsTableWrite (i : Fin 32) (g ofs len : Nat) (hash : List Byte)
  /-- TRS_COMP_WRITE (R147). The Eznel command writes compensation-table entries while the station runs. -/
  | trsCompWrite (i : Fin 32) (n first ofs len : Nat) (hash : List Byte)
  /-- TRS_DMEM_WRITE (R148). The Eznel command writes loop-state words of idle stations into both engines. -/
  | trsDmemWrite (i : Fin 32)
  /-- TRS_DMEM_DATA_READ (R128). A read of TRS_DMEM_DATA returns the data-memory word and advances the address. -/
  | trsDmemDataRead (e : Fin 2)
  /-- TRS_EXEC_MAX_READ (R153). A read of TRS_EXEC_MAX returns the latest finish and clears it. -/
  | trsExecMaxRead (e : Fin 2) (n : Fin 4)
  /-- TRS_IN_CFG_WRITE (R161). A changing write of an input-list entry of an idle station restarts its loss state. -/
  | trsInCfgWrite (i : Fin 256) (w : Word)
  /-- INPUT_FROZEN (R158). A NOISY input delivers the same value N_FREEZE times and counts as lost. -/
  | inputFrozen (n : Fin 4) (k : Fin 64)
  /-- INPUT_RESTORED (R161). A lost input has 64 good samples with a change and is restored. -/
  | inputRestored (n : Fin 4) (k : Fin 64)
  /-- OLV_TIMEOUT (R160). The station has been in OPEN_LOOP_V longer than T_OLV and trips. -/
  | olvTimeout (n : Fin 4)
  /-- UPDATE_ARM (R179). A write of PWM_TB_CTRL.UPDATE_ARM arms the shadows for transfer at the next boundary. -/
  | updateArm (n : Fin 4) (late : Bool)
  /-- TB_HOLD_SET (R170). A write of TB_HOLD = 1 stops the timebase at its next carrier start. -/
  | tbHoldSet (n : Fin 4)
  /-- TB_HOLD_CLEAR (R170). A write of TB_HOLD = 0 restarts the timebase at k = 0 within one tick. -/
  | tbHoldClear (n : Fin 4)
  /-- PULSE_EDGE (R172). The carrier passes a compare and the pulse signal of a half-bridge changes level. -/
  | pulseEdge (n : Fin 4) (k : Fin 12)
  /-- COMMUTATION_EVENT (R176). A level change on a mask capture input selects a new mask index. -/
  | commutationEvent (n : Fin 4) (cap : Fin 16) (level : Bool)
  /-- COMMUTATION_HELD_EXPIRY (R176). A held commutation event takes effect FILT ticks after the previous accepted event. -/
  | commutationHeldExpiry (n : Fin 4)
  /-- FILTER_EDGE_OUT (R184). An edge leaves the pulse-width filter W_MIN after it entered, or is removed with its successor. -/
  | filterEdgeOut (n : Fin 4) (k : Fin 12)
  /-- DEAD_TIME_END (R186). The dead time ends and the pending switch turns on, starting blanking. -/
  | deadTimeEnd (n : Fin 4) (k : Fin 12)
  /-- BLANKING_END (R188). A blanking interval ends, and a GF still asserted latches as GF_BLANK_END. -/
  | blankingEnd (n : Fin 4) (k : Fin 12)
  /-- GF_ASSERT (R188). A GF assertion on two samples outside blanking latches the half-bridge fault. -/
  | gfAssert (n : Fin 4) (k : Fin 12) (level : Bool)
  /-- TRIP_WINDOW_CROSSING (R188). A comparator crosses a trip threshold and latches its half-bridge within 150 ns. -/
  | tripWindowCrossing (n : Fin 4) (c : Fin 6) (code : BitVec 12)
  /-- LATCH_ENABLE_REMOVAL (R190). 1.0 µs after the first latch the gate block removes the enables of the station's other half-bridges. -/
  | latchEnableRemoval (n : Fin 4)
  /-- PWM_HB_EN_WRITE (R191). A write of PWM_HB_EN changes enable requests and clears a latch at a rising write after a 10 µs toggle. -/
  | pwmHbEnWrite (n : Fin 4) (w : Word)
  /-- GATE_TEST_WRITE (R194). A write of GATE_TEST drives GH or GL directly, or is refused. -/
  | gateTestWrite (n : Fin 4) (w : Word)
  /-- GATE_TEST_END (R194). The direct drive ends after WIDTH × 10 ns. -/
  | gateTestEnd (n : Fin 4) (k : Fin 12)
  /-- ADC_GO_WRITE (R204). A write of ADC_GO.SEQ_GO starts a sequence on each named enabled converter. -/
  | adcGoWrite (w : Word)
  /-- ADC_CONVERSION_DONE (R200). A conversion delivers its corrected result to ADC_RES and the input buffers. -/
  | adcConversionDone (k : Fin 16) (raw : BitVec 16)
  /-- PLS_STALE (R211). An enabled pair's last check is over 1 ms old and STALE is reported as a disagreement. -/
  | plsStale (p : Fin 8)
  /-- URG_GO (R207). A write of URG_GO starts one urgent conversion on an idle converter, or is dropped. -/
  | urgGo (k : Fin 16) (w : Word)
  /-- URGENT_CONVERSION_DONE (R207). An urgent conversion delivers its result to ADC_URG_RES with VALID = 1. -/
  | urgentConversionDone (k : Fin 16) (raw : BitVec 16)
  /-- CAL_START (R212). A write of ADC_CAL_CTRL.START requests calibration of a converter, or is refused. -/
  | calStart (k : Fin 16)
  /-- COVER_BEGIN (R213). At the first cycle with neither converter running, the partner covers the converter. -/
  | coverBegin (p : Fin 8)
  /-- CAL_REFERENCE_DONE (R214). The 768 µs of reference conversions end and the converter converts PLSp for verification. -/
  | calReferenceDone (coefs : List (Int × Int)) (raw : BitVec 16)
  /-- CAL_VERIFY_STALE (R215). No partner plausibility result arrives within 1 ms and the calibration fails with STALE. -/
  | calVerifyStale
  /-- END_COVER (R215). A write of END_COVER ends a held cover at the end of the partner's next merged sequence. -/
  | endCover
  /-- SDM_OUTPUT (R219). A sinc filter output completes and is written to SDM_RES and the input buffers. -/
  | sdmOutput (c : Fin 48) (bits : List Bool)
  /-- SDM_ALIGN_WAIT (R220). A channel has waited 1 ms for its alignment boundary and sets ALIGN_WAIT. -/
  | sdmAlignWait (c : Fin 48)
  /-- SDM_NO_TRANSITION (R218). A channel shows no transition for 64 modulator clocks and its input counts as lost. -/
  | sdmNoTransition (c : Fin 48)
  /-- SDM_SHORT_FILTER_FORCE (R222). A short filter crosses its limit and forces the watched half-bridge's pulse signal. -/
  | sdmShortFilterForce (c : Fin 48) (bits : List Bool)
  /-- CAPTURE_EDGE (R307). An edge on a capture input is stamped into its FIFO and routed to the trigger matrix. -/
  | captureEdge (c : Fin 16) (edge : CapEdge)
  /-- RX_LOCK (R228). A ring receiver locks after 16 valid commas, inverting an inverted pair. -/
  | rxLock (q : Fin 64) (e : Fin 2) (inverted : Bool)
  /-- RX_LOS (R228). A ring receiver declares loss of signal and its end wraps. -/
  | rxLos (q : Fin 64) (e : Fin 2)
  /-- CELL_RECEIVED (R232). A device end receives a cell and accepts it into the Shelf or reply path, or kills and NAKs it. -/
  | cellReceived (q : Fin 64) (e : Fin 2) (c : RingCell) (room : Bool)
  /-- NAK_RECEIVED (R240). A device end receives a NAK and resends the cell from its retry buffer behind SOR. -/
  | nakReceived (q : Fin 64) (e : Fin 2) (count : BitVec 4)
  /-- HOP_RETRY_GIVEUP (R240). A hop gives up after the third bad copy or 40 µs and the cell is lost. -/
  | hopRetryGiveup (q : Fin 64) (e : Fin 2)
  /-- LNK_RECEIVED (R230). A device end consumes an LNK message and checks it for echo. -/
  | lnkReceived (q : Fin 64) (e : Fin 2) (w : BitVec 16)
  /-- LNK_SEND (R230). Every 100 µs a device end sends LNK on each of its outputs. -/
  | lnkSend (q : Fin 64)
  /-- ALM_RECEIVED (R244). Both copies of an ALM arrive and the alarm is recorded, counted and logged. -/
  | almReceived (q : Fin 64) (c1 c2 : BitVec 16)
  /-- BRK_RECEIVED (R247). Both copies of a BRK arrive and the port becomes OPEN or SEGMENTED. -/
  | brkReceived (q : Fin 64) (e : Fin 2) (c1 c2 : BitVec 16)
  /-- ENUM_RETURN (R237). An ENUM frame returns and the port becomes CLOSED, OPEN or CROSSED. -/
  | enumReturn (q : Fin 64) (sent : Fin 2) (port : Fin 64) (e : Fin 2) (ids : List IdCell)
  /-- ENUM_ABSENT (R237). No ENUM returns within 2 ms with no receiver locked and the port is ABSENT. -/
  | enumAbsent (q : Fin 64)
  /-- DISCOVERY_RETRY (R237). An ABSENT port retries discovery every 1 s. -/
  | discoveryRetry (q : Fin 64)
  /-- NODE_STALE (R242). A node's stale timer passes STALE_T and the node and its Shelf entries are marked stale. -/
  | nodeStale (q : Fin 64) (l : Fin 512)
  /-- SWEEP_START (R250). A port sweep starts SWEEP_T after the previous one, with any due UNWRAP, ENUM and SNAP. -/
  | sweepStart (q : Fin 64)
  /-- SWEEP_END (R253). A sweep ends, unwritten entries age and lost cells are counted. -/
  | sweepEnd (q : Fin 64)
  /-- COMMAND_NO_REPLY (R260). No status cell arrives within 2 ms and the ring command ends with NO_REPLY. -/
  | commandNoReply (q : Fin 64)
  /-- AQR_CMD_GO (R250). A write of AQR_CMD_CTRL.GO queues a ring command. -/
  | aqrCmdGo (q : Fin 64)
  /-- AQR_REDISCOVER (R237). A write of AQR_CTRL.REDISCOVER schedules UNWRAP and ENUM and clears CROSSED looping. -/
  | aqrRediscover (q : Fin 64)
  /-- AQR_SWEEP_NOW (R250). A write of AQR_CTRL.SWEEP_NOW starts a sweep at once when none runs. -/
  | aqrSweepNow (q : Fin 64)
  /-- DEVICE_END_LINK_UP (R249). A wrapped device end's dead-side receiver has been locked without ECHO for 10 ms and shows LINK_UP. -/
  | deviceEndLinkUp (q : Fin 64) (e : Fin 2)
  /-- END_SHORT (R247). A device-end driver has been current-limited for 1 µs and turns off. -/
  | endShort (q : Fin 64) (e : Fin 2)
  /-- END_SHORT_RETRY (R247). A shorted driver is retried every 100 ms. -/
  | endShortRetry (q : Fin 64) (e : Fin 2) (still : Bool)
  /-- SHF_CLR_ALL (R253). A write of SHF_CTRL.CLR_ALL clears MIN and MAX of every entry at its next update. -/
  | shfClrAll
  /-- SHF_CLR_RING (R253). A write of SHF_CTRL.CLR_RING clears MIN and MAX of one port's entries at their next update. -/
  | shfClrRing (q : Fin 64)
  /-- SHF_AGG0_READ (R254). A read of SHF_AGG word 0 latches words 1 to 8. -/
  | shfAgg0Read (q : Fin 64)
  /-- SHELF_INIT_DONE (R253). The Shelf has been initialised after reset and INIT_DONE is set. -/
  | shelfInitDone
  /-- ENVELOPE_COMPUTE (R256). Every 10 ms firmware computes each station's envelope from the aggregates and commits it or withholds the commit. -/
  | envelopeCompute
  /-- CHS_ARM (R266). A write of CHS_CTRL.ARM in IDLE or DONE checks the configuration and arms segment 0. -/
  | chsArm
  /-- CHS_STOP (R273). A write of CHS_CTRL.STOP ends the run and the state becomes DONE. -/
  | chsStop
  /-- CHS_FORCE (R267). A write of CHS_CTRL.FORCE fires a software trigger. -/
  | chsForce
  /-- CHEST_SAMPLE (R261). A stream source produces a sample that enters the stream's reduction and staging buffer. -/
  | chestSample (k : Fin 32) (how : ChestInput)
  /-- CHEST_GAP_END (R274). The staging buffer drains to 64 free words and the gap ends. -/
  | chestGapEnd (drain : StreamDrain)
  /-- POST_TIMEOUT (R270). POST_TMO milliseconds pass after the trigger and the segment ends with POST_TIMEOUT. -/
  | postTimeout
  /-- DMA_START (R285). A write of CH_CTRL.START fetches the descriptor at CH_DESC and enters RUN. -/
  | dmaStart (n : Fin 16)
  /-- DMA_STOP_REQ (R286). A write of CH_CTRL.STOP_REQ in RUN enters STOPPING. -/
  | dmaStopReq (n : Fin 16)
  /-- DMA_CLEAR_HALT (R290). A write of DMA_CTRL.CLEAR_HALT moves halted channels to STOPPED. -/
  | dmaClearHalt
  /-- DESCRIPTOR_FETCH_DONE (R283). A fetched descriptor is checked and started, or the channel enters DESC_ERR. -/
  | descriptorFetchDone (n : Fin 16)
  /-- READ_BURST_RETURN (R287). A read burst returns and its data is written and fed to a bound check-value unit. -/
  | readBurstReturn (n : Fin 16)
  /-- WRITE_RESPONSE (R284). A write of a descriptor returns a good response. -/
  | writeResponse (n : Fin 16)
  /-- ERROR_RESPONSE (R288). A read or write error response halts every channel. -/
  | errorResponse (kind : Fin 3) (n : Fin 16) (lastBeat : Bool) (addr : Word)
  /-- CVU_DATA8 (R292). A write of CVU_DATA8 feeds one byte to a check-value unit. -/
  | cvuData8 (u : Fin 8) (w : Word)
  /-- CVU_DATA16 (R292). A write of CVU_DATA16 feeds two bytes to a check-value unit. -/
  | cvuData16 (u : Fin 8) (w : Word)
  /-- CVU_DATA32 (R292). A write of CVU_DATA32 feeds four bytes to a check-value unit. -/
  | cvuData32 (u : Fin 8) (w : Word)
  /-- CVU_FEED_DONE (R292). A unit finishes processing a feed and starts the next held feed. -/
  | cvuFeedDone (u : Fin 8)
  /-- CVU_LOAD_INIT (R291). A write of CVU_CTRL.LOAD_INIT sets the running value to INIT. -/
  | cvuLoadInit (u : Fin 8)
  /-- CVU_HI_WRITE (R293). A write of a HI register writes both halves of a 64-bit CVU quantity. -/
  | cvuHiWrite (u : Fin 8) (k : Fin 3) (hi : Word)
  /-- CVU_LO_READ (R293). A read of a LO register latches the HI half. -/
  | cvuLoRead (u : Fin 8) (k : Fin 4)
  /-- TIM_NS_READ (R299). A read of TIM_NS latches the seconds registers. -/
  | timNsRead
  /-- TIM_STEP_HI_WRITE (R303). A write of TIM_STEP_HI commits a step, or refuses it against the window W. -/
  | timStepHiWrite (hi : Word)
  /-- TIM_STEP_APPLY (R303). A committed step is applied at the end of the next tick. -/
  | timStepApply
  /-- TIM_CLR_EST (R306). A write of TIM_CTRL.CLR_EST clears TIME_ESTIMATED. -/
  | timClrEst
  /-- TIM_CAP_LO_READ (R308). A read of TIM_CAP_LO removes the oldest stamp and latches HI and INFO. -/
  | timCapLoRead (c : Fin 16)
  /-- PTP_SYNC_RECEIVED (R312). Firmware stamps a received Sync message. -/
  | ptpSyncReceived (h : PtpHdr)
  /-- PTP_FOLLOW_UP_RECEIVED (R312). A Follow_Up completes an offset measurement and firmware slews or steps the clock. -/
  | ptpFollowUpReceived (h : PtpHdr) (t1 : Int)
  /-- PTP_ANNOUNCE_RECEIVED (R310). An Announce message is run through the best master clock algorithm. -/
  | ptpAnnounceReceived (h : PtpHdr) (dataset : List Nat)
  /-- PTP_DELAY_RESP_RECEIVED (R312). A Delay_Resp completes the path-delay measurement and ends listen-only fallback. -/
  | ptpDelayRespReceived (h : PtpHdr) (t4 : Int)
  /-- PTP_DELAY_REQ_SEND (R312). Firmware sends a Delay_Req at its interval, or every 16 s in fallback. -/
  | ptpDelayReqSend (seq : Nat)
  /-- PTP_LISTEN_FALLBACK (R312). Eight consecutive Delay_Req get no response and firmware falls back to listen-only. -/
  | ptpListenFallback
  /-- PTP_ANNOUNCE_TIMEOUT (R312). No Announce arrives within the receipt timeout and PTP_STATE becomes HOLDOVER. -/
  | ptpAnnounceTimeout
  /-- TIME_SET (R304). The Eznel command writes an absolute local time and clears UNSET. -/
  | timeSet (i : Fin 32) (secs : BitVec 48) (ns : Word)
  /-- TIME_STEP (R303). The Eznel command steps the local clock subject to the window W. -/
  | timeStep (i : Fin 32) (d : BitVec 64)
  /-- TIME_GET (R304). The Eznel command returns the local time. -/
  | timeGet (i : Fin 32)
  /-- BEAT_SLOT (R325). At each 5 µs beat slot the beats of both engines are checked on both paths. -/
  | beatSlot (linkA linkB toggleA toggleB : Bool)
  /-- SWITCHOVER_COMPLETE (R330). The switch-over completes and the standby takes the ACTIVE role. -/
  | switchoverComplete (took : Nat)
  /-- BOTH_ENGINES_SILENT (R329). Neither engine toggles its beat line for 20 µs and Lowboy removes every station. -/
  | bothEnginesSilent
  /-- ENGINE_INTERNAL_ERROR (R316). An engine detects an internal error and stops silent. -/
  | engineInternalError (e : Fin 2) (cause : Fin 4)
  /-- PRIV_RESULT_CLASSIFY (R322). At the deadline plus 40 ns the privileged result is classed Normal, Overrun or Silent and substituted when Silent. -/
  | privResultClassify (n : Fin 4) (standby : Bool) (cycles : Nat)
  /-- PRIV_RESULT_COMPARE (R321). Both engines' privileged CRCs are present and compared. -/
  | privResultCompare (n : Fin 4) (k : Fin 64) (upset : Word × Word)
  /-- RED_RELOAD (R334). The Eznel job reloads a failed engine and brings it to SYNCING. -/
  | redReload (i : Fin 32)
  /-- RED_RELOAD_DONE (R334). The reload completes its program, table and state transfer. -/
  | redReloadDone
  /-- RED_EXCHANGE (R332). The Eznel command exchanges the roles of two healthy engines. -/
  | redExchange (i : Fin 32)
  /-- SIN_LEVEL_CHANGE (R342). A safety input contact changes level. -/
  | sinLevelChange (x : Fin 8) (trackB closed : Bool)
  /-- SIN_DEMAND_VALID (R343). A contact has read open for SIN_FILT and the pair's demand becomes valid. -/
  | sinDemandValid (x : Fin 8)
  /-- SIN_DEMAND_END (R343). Both contacts have read closed for SIN_FILT with no discrepancy and the demand ends. -/
  | sinDemandEnd (x : Fin 8)
  /-- SIN_DISCREPANCY (R344). One contact has not followed the other within T_DISC and a discrepancy latches. -/
  | sinDiscrepancy (x : Fin 8)
  /-- SOUT_TEST_DUE (R346). TEST_P has passed and Settle drives a high SOUT low for a test pulse, or defers it. -/
  | soutTestDue (k : Fin 8)
  /-- SOUT_TEST_END (R346). The test pulse ends after TEST_W and SRB must read low. -/
  | soutTestEnd (k : Fin 8) (srb : Bool)
  /-- SRB_READBACK_CHECK (R346). 1 ms after the output returns or changes, SRB is checked against SOUT. -/
  | srbReadbackCheck (k : Fin 8) (srb : Bool)
  /-- POST_RELEASE_TEST (R348). An output is tested 50 ms after it is re-energised at release. -/
  | postReleaseTest (k : Fin 8)
  /-- HIGHBOY_TICK (R349). Every 250 µs Highboy evaluates stops and cross-checks and may demand a held removal. -/
  | highboyTick (speeds : List Rat)
  /-- SETTLE_SNAPSHOT_RECEIVED (R352). A snapshot record reaches Settle and is checked for CHECK and SEQ advance. -/
  | settleSnapshotReceived (n : Fin 4) (words : List Word)
  /-- SETTLE_SILENT (R339). Settle's beat line has not toggled for 500 µs and Lowboy removes every station. -/
  | settleSilent
  /-- RC_FREQUENCY_CHECK (R354). Every 1 ms Settle checks Lowboy's RC against PLL-B. -/
  | rcFrequencyCheck (ok : Bool)
  /-- SETTLE_CRC_CHECK (R354). Every 1 s Settle checks the CRC of its ROM and OTP image. -/
  | settleCrcCheck (ok : Bool)
  /-- SETTLE_LOCKSTEP_FAULT (R355). A lockstep mismatch or uncorrectable ECC error stops Settle until reset. -/
  | settleLockstepFault
  /-- COVER_TOO_LONG (R357). A calibration cover lasting more than 10 s is treated as a failed pair. -/
  | coverTooLong
  /-- SAF_SS1_REQ (R350). A write of SAF_REQ.SS1_REQ starts a safe stop. -/
  | safSs1Req (mask : BitVec 4)
  /-- SAF_STO_REQ (R339). A write of SAF_REQ.STO_REQ makes a held removal with cause REQUEST. -/
  | safStoReq (mask : BitVec 4)
  /-- SAF_RELEASE (R358). A write of SAF_REQ.RELEASE asks Settle to end held removals, runs the path test and drives the SOUTs high. -/
  | safRelease (mask : BitVec 4) (pathOk : Bool)
  /-- RELEASE_READBACK (R358). The SRBs read high within 1 ms and the permits return, or the release fails. -/
  | releaseReadback (srb : BitVec 8)
  /-- MBX_CLAIM_READ (R367). A read of MBX_CLAIM claims the lowest FREE pigeonhole. -/
  | mbxClaimRead
  /-- MBX_DOORBELL_WRITE (R367). A write of MBX_DOORBELL posts a claimed pigeonhole. -/
  | mbxDoorbellWrite (i : Fin 32)
  /-- MBX_FREE_WRITE (R367). A write of MBX_FREE returns DONE pigeonholes to FREE. -/
  | mbxFreeWrite (w : Word)
  /-- CLAIM_EXPIRY (R368). A claimed slot not posted within 1 s returns to FREE. -/
  | claimExpiry (i : Fin 32)
  /-- COMMAND_START (R370). A posted command starts when an execution place is free, after its header checks. -/
  | commandStart (units : List EzUnit)
  /-- COMMAND_TIMEOUT (R371). A command reaches its 100 ms bound and returns TIMEOUT. -/
  | commandTimeout (i : Fin 32)
  /-- JOB_END (R372). A job ends and MBX_JOB_DONE is set. -/
  | jobEnd (j : Fin 4)
  /-- JOB_HOLD_EXPIRY (R372). 60 s after its end an unread job is released. -/
  | jobHoldExpiry (j : Fin 4)
  /-- UDP_DATAGRAM (R386). A UDP datagram carrying an Eznel message is received, replayed or dropped. -/
  | udpDatagram (e : Fin 2) (v6 plain : Bool) (addr port dport : Nat) (msg : List Byte)
  /-- CAN_FD_SEGMENT (R387). A CAN FD segment of an Eznel message is received. -/
  | canFdSegment (c : Fin 4) (ident : BitVec 29) (fd : Bool) (data : List Byte)
  /-- CAN_SEGMENT_TIMEOUT (R387). More than 50 ms pass between two segments and the message is discarded. -/
  | canSegmentTimeout (c : Fin 4) (p : Fin 64)
  /-- I2C_WRITE_TRANSACTION (R388). An I²C write transaction carries one whole Eznel request. -/
  | i2cWriteTransaction (bs : List Byte)
  /-- I2C_READ_TRANSACTION (R388). An I²C read transaction returns the state byte and any ready response. -/
  | i2cReadTransaction (n : Nat)
  /-- MODBUS_READ (R389). A Modbus/TCP read of function 0x03 or 0x04 returns registers of the read view. -/
  | modbusRead (p : Peer) (fc : Byte) (r n : Nat)
  /-- MODBUS_CONNECT (R385). A TCP connection to port 502 is accepted, or reset when four are open. -/
  | modbusConnect
  /-- SESSION_TIMEOUT (R375). A raised session falls back to its default after 900 s without a request. -/
  | sessionTimeout (p : Peer)
  /-- ETH_LINK_CHANGE (R385). The PHY reports link up or down, and sessions on a lost link fall back. -/
  | ethLinkChange (e : Fin 2) (up : Bool)
  /-- ECHO (R377). The Eznel command returns its payload unchanged. -/
  | echo (i : Fin 32)
  /-- DEV_INFO (R377). The Eznel command returns identity, stepping, grants and firmware version. -/
  | devInfo (i : Fin 32)
  /-- AUTH_CHALLENGE (R402). The Eznel command returns a nonce valid for 60 s. -/
  | authChallenge (i : Fin 32)
  /-- AUTH_RESPONSE (R402). The Eznel command checks a certificate and signature and raises the session level. -/
  | authResponse (i : Fin 32) (c : Cert)
  /-- JOB_STATUS (R373). The Eznel command returns a job's state, progress and final status. -/
  | jobStatus (i : Fin 32)
  /-- JOB_CANCEL (R373). The Eznel command stops a cancellable job at its next safe point. -/
  | jobCancel (i : Fin 32)
  /-- STAGE_WRITE (R378). The Eznel command writes up to 1,000 bytes into the staging area. -/
  | stageWrite (i : Fin 32) (ofs : Nat) (data : List Byte)
  /-- STAGE_READ (R378). The Eznel command reads bytes from the staging area. -/
  | stageRead (i : Fin 32) (ofs len : Nat)
  /-- REG_READ (R376). The Eznel command reads registers within the SPI limits. -/
  | regRead (i : Fin 32) (addr n : Nat)
  /-- REG_WRITE (R376). The Eznel command writes registers field by field within the SPI limits. -/
  | regWrite (i : Fin 32) (addr : Nat) (ws : List Word) (late : Bool)
  /-- MEM_READ (R376). The Eznel command reads internal memory within the SPI limits. -/
  | memRead (i : Fin 32) (addr n : Nat)
  /-- PARAM_READ (R381). The Eznel command returns parameter values. -/
  | paramRead (i : Fin 32)
  /-- PARAM_WRITE (R381). The Eznel command writes 1 to 126 parameters, all or none. -/
  | paramWrite (i : Fin 32) (late : Bool)
  /-- PARAM_INFO (R380). The Eznel command returns a parameter's type, range, resolution, default, class and level. -/
  | paramInfo (i : Fin 32) (p : Nat)
  /-- RING_CMD (R377). The Eznel command queues a ring command and returns its result. -/
  | ringCmd (i : Fin 32) (q : Fin 64) (op : Fin 32) (node : Fin 512) (count : Fin 64) (arg : Word) (cells : Nat) (data : List Word)
  /-- SHELF_READ (R377). The Eznel command returns up to 126 Shelf entries of one node. -/
  | shelfRead (i : Fin 32) (q : Fin 64) (l : Fin 512) (first n : Nat)
  /-- RING_SET_UID (R377). The Eznel command writes FIRST_UID and LAST_UID of a port. -/
  | ringSetUid (i : Fin 32) (q : Fin 64) (first last : Word)
  /-- BUREAU_STAGE (R406). The Eznel command stages a signed Bureau request and returns its handle, nonce and digest. -/
  | bureauStage (i : Fin 32) (c : BureauChange) (sig : List Byte)
  /-- BUREAU_COUNTERSIGN (R406). The Eznel command verifies the countersignature, has Settle check the result and starts programming. -/
  | bureauCountersign (i : Fin 32) (supplyOk : Bool)
  /-- BUREAU_ABORT (R407). The Eznel command ends a pending Bureau request without effect. -/
  | bureauAbort (i : Fin 32)
  /-- BUREAU_EXPIRY (R407). 600 s after staging a pending Bureau request ends without effect. -/
  | bureauExpiry
  /-- BUREAU_PROGRAM_DONE (R409). A generation is sealed or an overlay counted and BUREAU_DONE is set. -/
  | bureauProgramDone
  /-- FW_STAGE (R397). The Eznel job checks a staged firmware image and writes it into the slot not running. -/
  | fwStage (i : Fin 32) (ofs len : Nat) (hash : List Byte)
  /-- FW_STAGE_DONE (R397). The firmware staging job ends after its read-back comparison. -/
  | fwStageDone (j : Fin 4) (readback : List Byte)
  /-- FW_ACTIVATE (R397). FW_ACTIVATE with ACTION 0 makes the staged slot preferred in trial and restarts the management processor. -/
  | fwActivate (i : Fin 32)
  /-- FW_CONFIRM (R397). FW_ACTIVATE with ACTION 1 clears TRIAL. -/
  | fwConfirm (i : Fin 32)
  /-- FW_REVERT (R397). FW_ACTIVATE with ACTION 2 makes the other slot preferred and restarts. -/
  | fwRevert (i : Fin 32)
  /-- ATTEST (R401). The Eznel command returns a signed attestation report over a nonce. -/
  | attest (i : Fin 32)
  /-- CERT_READ (R400). The Eznel command returns the identity certificate. -/
  | certRead (i : Fin 32)
  /-- PWR_STATE_RUN (R434). PWR_STATE with target RUN returns the device from STANDBY within 10 µs. -/
  | pwrStateRun (i : Fin 32)
  /-- PWR_STATE_STANDBY (R435). PWR_STATE with target STANDBY gates the conversion, control and pulse islands. -/
  | pwrStateStandby (i : Fin 32)
  /-- PWR_STATE_RETAIN (R436). PWR_STATE with target RETAIN starts the entry sequence, or is refused. -/
  | pwrStateRetain (i : Fin 32)
  /-- PWR_BANK_ACK (R442). The Eznel command clears BANK_FAIL bits so run requests are accepted again. -/
  | pwrBankAck (i : Fin 32)
  /-- SLK_DISTRIBUTE (R462). The Eznel job sends a staged image to each target device in turn. -/
  | slkDistribute (i : Fin 32) (kind mask ofs len : Nat) (hash : List Byte)
  /-- SLK_DISTRIBUTE_TIMEOUT (R462). The distribute job ends 120 s after its start. -/
  | slkDistributeTimeout (j : Fin 4)
  /-- SLK_RECOVER (R463). The Eznel job runs the selected peer actions on one target device in bit order. -/
  | slkRecover (i : Fin 32) (target actions kind ofs len : Nat) (hash nonce : List Byte) (report : Nat)
  /-- SLK_RECOVER_WAIT_TIMEOUT (R463). The port does not become UP within 1 s after a restart and the recover job ends. -/
  | slkRecoverWaitTimeout (j : Fin 4)
  /-- SEC_DBG_REQ (R415). A write of SEC_DBG.REQ issues an unlock nonce. -/
  | secDbgReq
  /-- SEC_DBG_DATA_WRITE (R415). Writes of SEC_DBG_DATA deliver the unlock signature, which unlocks the debug port or is refused. -/
  | secDbgDataWrite (ws : List Word)
  /-- SEC_DBG_CLOSE (R415). A write of SEC_DBG.CLOSE returns UNLOCKED to LOCKED. -/
  | secDbgClose
  /-- MGMT_WATCHDOG_EXPIRY (R445). Firmware does not serve its watchdog for 1 s and the management island restarts. -/
  | mgmtWatchdogExpiry
  /-- PLL_LOST (R424). A PLL fails two consecutive monitor windows and is declared lost. -/
  | pllLost (p : Fin 2)
  /-- ISLAND_SWITCHOVER_DONE (R425). The islands resume on the twin PLL after the management multiplier locks. -/
  | islandSwitchoverDone (took : Nat)
  /-- PLL_RESTART_ATTEMPT (R426). A lost PLL is restarted by its own logic every 1 ms. -/
  | pllRestartAttempt (p : Fin 2)
  /-- DIG_LOCK_CHANGE (R422). A PLL's digital lock sets after 256 good cycles or clears at an error beyond ±4 ns. -/
  | digLockChange (p : Fin 2) (on : Bool)
  /-- ANALOG_LOCK_CHANGE (R422). The lock pin comparator sets or clears ANALOG_LOCK. -/
  | analogLockChange (p : Fin 2) (on : Bool)
  /-- TWIN_READY (R423). A PLL has held ANALOG_LOCK for 5 ms with DIG_LOCK and becomes TWIN_READY. -/
  | twinReady (p : Fin 2)
  /-- REFERENCE_LOST (R428). The XIN reference is lost and both PLLs coast. -/
  | referenceLost
  /-- REFERENCE_RETURNED (R429). The reference has returned within tolerance and phase build-out starts. -/
  | referenceReturned (good : Bool)
  /-- BUILDOUT_DONE (R429). Phase build-out completes and the charge pumps are re-enabled. -/
  | buildoutDone (steps : Nat)
  /-- REF_BAD_RECHECK (R430). A bad returned reference is checked again every 1 ms. -/
  | refBadRecheck (good : Bool)
  /-- CLK_PHASE_STEP_WRITE (R421). A write of CLK_PHASE_STEP requests signed fine steps of a PLL. -/
  | clkPhaseStepWrite (p : Fin 2) (steps : BitVec 13)
  /-- PHASE_STEP_MADE (R421). The stepper makes one fine step per 16 reference cycles while steps are pending. -/
  | phaseStepMade (p : Fin 2)
  /-- AVS_VOLTAGE_REQUEST (R432). The sequencer writes a VCORE target over AVSBus. -/
  | avsVoltageRequest
  /-- AVS_STATUS_POLL (R432). Every 10 µs the sequencer sends Read Status until VDone and then reads the voltage back. -/
  | avsStatusPoll (crcOk vdone : Bool) (vread : BitVec 16)
  /-- AVS_REQUEST_FAILED (R433). A voltage request does not succeed within 2 ms and the old target is written again. -/
  | avsRequestFailed
  /-- RETAIN_ENTRY_DONE (R437). VDone at 0.55 V completes entry to RETAIN. -/
  | retainEntryDone
  /-- WAKE_EVENT (R438). A wake source is detected in RETAIN, or latched during entry. -/
  | wakeEvent (src : Fin 4) (q : Fin 64)
  /-- WAKE_COMPLETE (R439). The wake sequence completes and the islands are released into RUN. -/
  | wakeComplete (fails : BitVec 16)
  /-- WAKE_REGULATOR_RETRY (R443). A regulator that failed during wake is asked again every 10 ms. -/
  | wakeRegulatorRetry
  /-- POWER_ON_RESET (R445). VSUP rises through 2.6 V and the device resets. -/
  | powerOnReset
  /-- BROWN_OUT (R445). VSUP stays below 2.5 V for 1 µs and the device resets. -/
  | brownOut
  /-- PORST_N_ASSERT (R445). PORST_N is low for at least 1 µs and the device resets. -/
  | porstNAssert
  /-- CORE_UNDERVOLTAGE (R445). VCORE is below 0.60 V for 10 µs outside RETAIN and a voltage request, and the device resets. -/
  | coreUndervoltage
  /-- RESET_END (R445). 100 µs after the last reset source ends the device reset ends and the boot sequence starts. -/
  | resetEnd (bid : BitVec 2) (wired : BitVec 3) (vread : Option (BitVec 16))
  /-- BOOT_IMAGE_CHECK_DONE (R396). The boot ROM finishes checking a slot and starts Settle and the management processor, tries the other slot, or starts the ROM monitor. -/
  | bootImageCheckDone
  /-- SETTLE_BOOT_DONE (R448). Settle completes its boot tests and the Lowboy path test and sets SETTLE_OK. -/
  | settleBootDone (testsOk pathOk : Bool)
  /-- BOOT_VCORE_RETRY (R449). A failed VCORE read-back at boot is retried every 10 ms. -/
  | bootVcoreRetry (vread : Option (BitVec 16))
  /-- SLK_HELLO (R456). A received HELLO makes a training port UP, or MISWIRED when it comes from the wrong position. -/
  | slkHello (p : Fin 3) (h : SlkHdr)
  /-- SLK_ACK (R455). A received ACK confirms a packet sent. -/
  | slkAck (p : Fin 3) (h : SlkHdr) (q : Byte)
  /-- SLK_NAK (R455). A received NAK makes the sender repeat the packet. -/
  | slkNak (p : Fin 3) (h : SlkHdr) (q : Byte)
  /-- SLK_BEAT (R456). A received BEAT keeps the port UP. -/
  | slkBeat (p : Fin 3) (h : SlkHdr)
  /-- SLK_DATA (R461). A received DATA packet writes image data into the staging area. -/
  | slkData (p : Fin 3) (h : SlkHdr) (ofs : Nat) (data : List Byte)
  /-- SLK_DATA_END (R461). A received DATA_END has the target check and stage the firmware or Trestle image. -/
  | slkDataEnd (p : Fin 3) (h : SlkHdr) (kind len : Nat) (hash readback : List Byte) (body : ImageBody)
  /-- SLK_RESULT (R462). A received RESULT records a target's status code in SLK_PORT.RESULT. -/
  | slkResult (p : Fin 3) (h : SlkHdr) (status : Byte)
  /-- SLK_XCHK (R464). A received cross-check sample is paired with a local result and compared. -/
  | slkXchk (p : Fin 3) (h : SlkHdr) (i : Fin 8) (tick : Nat) (v : Int)
  /-- SLK_ALIGN_PACKET (R460). A received ALIGN packet gives a follower φ_M and triggers its phase step or error check. -/
  | slkAlignPacket (p : Fin 3) (h : SlkHdr) (phiM : Fin 64) (pulse : Nat)
  /-- SLK_ATTEST_REQ (R461). A received ATTEST_REQ is answered with the report of R401. -/
  | slkAttestReq (p : Fin 3) (h : SlkHdr) (nonce : List Byte)
  /-- SLK_ATTEST_REP (R463). A received attestation report is written to the staging area. -/
  | slkAttestRep (p : Fin 3) (h : SlkHdr) (report : List Byte)
  /-- SLK_MGMT_RESTART (R461). A received MGMT_RESTART restarts the management island unless one was accepted in the last 10 s. -/
  | slkMgmtRestart (p : Fin 3) (h : SlkHdr)
  /-- SLK_FULL_RESET (R461). A received FULL_RESET resets the device while every station's enables are low. -/
  | slkFullReset (p : Fin 3) (h : SlkHdr)
  /-- SLK_MONITOR_ACTIVATE (R461). A received MONITOR_ACTIVATE runs FW_ACTIVATE ACTION 0 on a device in the ROM monitor. -/
  | slkMonitorActivate (p : Fin 3) (h : SlkHdr)
  /-- SLK_UNKNOWN_PACKET (R454). A packet of unknown TYPE is discarded and counted. -/
  | slkUnknownPacket (p : Fin 3) (h : SlkHdr)
  /-- SLK_ACK_TIMEOUT (R455). No ACK within 5 µs repeats the packet, and an exhausted budget fails the operation and retrains the port. -/
  | slkAckTimeout (p : Fin 3) (q : Byte)
  /-- SLK_HELLO_SEND (R456). A training port sends HELLO every 1 ms. -/
  | slkHelloSend (p : Fin 3)
  /-- SLK_BEAT_SEND (R456). An UP port sends BEAT every 100 µs. -/
  | slkBeatSend (p : Fin 3)
  /-- SLK_LINK_TIMEOUT (R456). A port with no packet for 1 ms falls to TRAINING. -/
  | slkLinkTimeout (p : Fin 3)
  /-- SLK_ALIGN_GO (R459). A write of SLK_ALIGN.GO at position 0 sends the measure pulse and ALIGN. -/
  | slkAlignGo
  /-- SYNC_EDGE (R457). A SYNC edge is sampled and its phase φ measured on each PLL. -/
  | syncEdge (phiA phiB : Fin 64)
  /-- ALIGN_START_PULSE (R459). 1 ms after GO position 0 sends the start pulse. -/
  | alignStartPulse
  /-- ALIGN_TB_RELEASE (R459). 1,024 ticks after the start edge every device releases TB_HOLD of its named stations. -/
  | alignTbRelease
  /-- ALIGN_CHECK_PULSE (R460). Every 10 ms after alignment position 0 sends a check pulse. -/
  | alignCheckPulse
  /-- XCHK_UNPAIRED (R464). A cross-check result with no partner within 10 ms counts as unpaired. -/
  | xchkUnpaired (i : Fin 8)
  /-- JTAG_INSTRUCTION_LOAD (R466). A test instruction is loaded, or BYPASS is loaded when a station is not idle and held. -/
  | jtagInstructionLoad (code : Byte)
  /-- TAP_RESET (R466). A TAP reset leaves the stations held until a release. -/
  | tapReset
  /-- SEN_CHANGE (R78). A level change of the SENn input: SENn low moves a running station to STOPPING, or abandons a start into READY or STOPPING. -/
  | senChange (n : Fin 4) (level : Bool)
  /-- SRB_LEVEL_CHANGE (R346). A readback input SRBk changes level on its own outside a test, and after 1 ms without following SOUTk the output is marked faulty. -/
  | srbLevelChange (k : Fin 8) (level : Bool)
  /-- AGG_STALE_TIMEOUT (R254). No sweep of a port has completed within 3 × SWEEP_T, so AGG_STALE becomes 1 and the port's aggregate inputs count as lost. -/
  | aggStaleTimeout (q : Fin 64)
  /-- WRAP_SILENCE_END (R246). The 10 µs of silence on a dead hop after a wrap end, and the device end sends IDLE, LNK and BRK on it again. -/
  | wrapSilenceEnd (q : Fin 64) (e : Fin 2)
  /-- MGMT_FIRMWARE_READY (R448). The management firmware completes its start: Eznel answers, SYS_BOOT_T is recorded and ports with EN = 1 start discovery. -/
  | mgmtFirmwareReady
  /-- LOWBOY_OSCILLATOR_STOP (R338). Lowboy's oscillator or logic stops, the permit lapses and the enables of every station fall within 2 µs. -/
  | lowboyOscillatorStop
  /-- TIM_AON_LO_READ (R305). A read of TIM_AON_LO latches TIM_AON_HI for the following read. -/
  | timAonLoRead
  /-- OTP_READ_DATA_READ (R391). A read of OTP_READ_DATA returns the OTP word at READ_ADDR and advances WORD, wrapping within the row. -/
  | otpReadDataRead
  /-- MODBUS_DISCONNECT (R385). A Modbus/TCP connection closes, freeing one of the four connections. -/
  | modbusDisconnect
  /-- ICMP_ARP_ND_FRAME (R385). An ICMP echo, ARP or neighbour-discovery frame arrives on a MAC and the device answers it. -/
  | icmpArpNdFrame (e : Fin 2) (kind : Fin 3) (v6 own : Bool) (addr : Nat) (data : List Byte)
  deriving DecidableEq, Repr

end Sys2Proof
end

