-- ==== Sys2Proof/Decode.lean ====
section
/-! DEFINITION. The commands that words of the operation table spell. The table gives no row any bits: commands are
register accesses, frames, datagrams and events, which arrive as their own constructors. -/

namespace Sys2Proof

/-- No row of the table gives bits, so no word spells a command. -/
def decodeTableWord (_nbits _w : Nat) : Option Instr := none

end Sys2Proof
end

