-- ==== Sys2Proof/Config.lean ====
section
/-! DEFINITION. What the spec leaves open: values and functions without a body. Nothing can evaluate them, so a claim
about the machine holds whatever they are (assumption log rows 3, 4 and 5). -/

namespace Sys2Proof.Config

/-- Square root of a non-negative number. The spec gives no precision for it (05_trestle.md R141). -/
opaque sqrt : Rat → Rat

/-- Sine of an angle counted in turns. -/
opaque sinTurn : Rat → Rat

/-- Cosine of an angle counted in turns. -/
opaque cosTurn : Rat → Rat

/-- Angle in turns of the vector (x, y), first argument y. -/
opaque atan2Turn : Rat → Rat → Rat

/-- The ratio of a circle's circumference to its radius, as the device holds it. -/
opaque twoPi : Rat

/-- The compare word a modulation demand gives for a period (R60 and R141 do not state its rounding). -/
opaque compareOf : Rat → Nat → Word

/-- The largest modulation demand of the linear range; the argument is 1 for the up-down carrier (R60). -/
opaque linearRange : Bool → Rat

/-- Output of the resonant filter block: order, gain input and the two states (R141 states no law). -/
opaque resonator : Nat → Rat → Rat → Rat → Rat × Rat × Rat

/-- Position and speed of the position block from its input word and state (R141 states no law). -/
opaque positionSpeed : Word → Rat → Rat × Rat

/-- The word that a capture entry of an input list shows after an edge, from the level and the stamp of the edge: the
manual gives such an entry its latest value and no coding for it (R155). -/
opaque captureWord : Bool → Nat → Word

/-- The word of an internal value by its index and the reading counter: the manual names no internal value (R155, R255). -/
opaque internalWord : Nat → Nat → Word

/-- The levels that the board ties the balls VSELA and VSELB to (R471). -/
opaque vsel : Fin 2 → BankLevel

/-- A value the spec calls open, by the reading counter of the state. -/
opaque freeWord : Nat → Word

/-- A fresh random nonce of the security unit, by the reading counter (R402, R406, R415). -/
opaque nonce : Nat → List Byte

/-- SHA-384 (FIPS 180-4) of a byte string. -/
opaque sha384 : List Byte → List Byte

/-- ECDSA over brainpoolP384r1 (FIPS 186-5): public key hash, digest, signature. -/
opaque ecdsaVerify : List Byte → List Byte → List Byte → Bool

/-- The attestation signature over a report, made with the device's identity key (R401). -/
opaque attestSign : List Byte → List Byte

/-- Word `i` of the factory row (`true`) or of the key row, from what the row holds: the manual gives their contents, not
their layout (R391). -/
opaque otpRowWord : Bool → List Byte → List (Nat × List Byte) → BitVec 8 → Nat → Word

/-- The bytes of a Bureau request that are signed: the manual gives no layout (R406). -/
opaque bureauBytes : Sys2Proof.BureauChange → List Byte

/-- The TYPE 2 image inside a TYPE 1 package: the manual gives no offset (R393). -/
opaque settleImage : List Byte → List Byte

end Sys2Proof.Config
end

