-- ==== Sys2Proof/Machine/Bits.lean ====
section
/-! DEFINITION. Bit fields, byte order and the checksums the spec names: the CRC-8 of the SPI frame (R42), the CRC-16 of
ring cells (R236) and CRC-32C (R36, R364). -/

namespace Sys2Proof.Machine

/-- Bits `lo` to `lo + w − 1` of a word, as a number. -/
def bits (v : Word) (lo w : Nat) : Nat := v.toNat / 2 ^ lo % 2 ^ w

/-- One bit of a word. -/
def bit (v : Word) (i : Nat) : Bool := v.toNat.testBit i

/-- A word with bits `lo` to `lo + w − 1` replaced. -/
def putBits (v : Word) (lo w n : Nat) : Word :=
  BitVec.ofNat 32 (v.toNat - bits v lo w * 2 ^ lo + n % 2 ^ w * 2 ^ lo)

/-- A word with one bit replaced. -/
def putBit (v : Word) (i : Nat) (b : Bool) : Word := putBits v i 1 b.toNat

/-- A field read as a signed number of its own width. -/
def signedOf (w n : Nat) : Int := if 2 * (n % 2 ^ w) < 2 ^ w then (n % 2 ^ w : Nat) else (n % 2 ^ w : Nat) - (2 ^ w : Nat)

/-- The bit pattern of a signed number in `w` bits. -/
def unsignedOf (w : Nat) (i : Int) : Nat := (i % (2 ^ w : Nat)).toNat

/-- Byte `i` of a word, byte 0 least significant (R36). -/
def byteOf (v : Word) (i : Nat) : Byte := BitVec.ofNat 8 (v.toNat / 2 ^ (8 * i))

/-- The four bytes of a word, least significant first (R36). -/
def leBytes (v : Word) : List Byte := [byteOf v 0, byteOf v 1, byteOf v 2, byteOf v 3]

/-- The four bytes of a word, most significant first (R42: the SPI frame is sent most significant bit first). -/
def beBytes (v : Word) : List Byte := [byteOf v 3, byteOf v 2, byteOf v 1, byteOf v 0]

/-- The `n` low bytes of a number, least significant first. -/
def leBytesN (n v : Nat) : List Byte := (List.range n).map (fun i => BitVec.ofNat 8 (v / 2 ^ (8 * i)))

/-- The number a list of bytes stands for, least significant first. -/
def leNat : List Byte → Nat
  | [] => 0
  | b :: t => b.toNat + 256 * leNat t

/-- Eight steps of a CRC register of `w` bits that shifts toward its most significant bit. -/
def crcShift (w poly : Nat) : Nat → Nat → Nat
  | 0, c => c
  | k + 1, c =>
    crcShift w poly k (if c.testBit (w - 1) then (2 * c % 2 ^ w) ^^^ poly else 2 * c % 2 ^ w)

/-- One byte into a CRC register that is not reflected. -/
def crcByte (w poly c : Nat) (b : Byte) : Nat := crcShift w poly 8 (c ^^^ (b.toNat * 2 ^ (w - 8)))

/-- The CRC-8 of the SPI frame: polynomial 0x2F, initial value 0xFF (R42). -/
def crc8 (bs : List Byte) : Byte := BitVec.ofNat 8 (bs.foldl (crcByte 8 0x2F) 0xFF)

/-- The CRC-16 of a ring cell: polynomial 0x755B, initial value 0xFFFF (08_battery_rings.md). -/
def crc16 (bs : List Byte) : BitVec 16 := BitVec.ofNat 16 (bs.foldl (crcByte 16 0x755B) 0xFFFF)

/-- Eight steps of a reflected CRC-32C register. -/
def crcShiftR : Nat → Nat → Nat
  | 0, c => c
  | k + 1, c => crcShiftR k (if c.testBit 0 then (c / 2) ^^^ 0x82F63B78 else c / 2)

/-- CRC-32C over bytes: polynomial 0x1EDC6F41 reflected, initial value and final inversion all ones (log row 7). -/
def crc32c (bs : List Byte) : Word :=
  BitVec.ofNat 32 ((bs.foldl (fun c b => crcShiftR 8 (c ^^^ b.toNat)) 0xFFFFFFFF) ^^^ 0xFFFFFFFF)

end Sys2Proof.Machine
end

