-- ==== Sys2Proof/Machine/Num.lean ====
section
/-! DEFINITION. The number formats of the registers: IEEE 754 FP32 and binary16, their rounding, and exact numbers.
Quantities inside the control blocks are exact rationals; only what a register or a record shows is rounded
(assumption log row 6). -/

namespace Sys2Proof.Machine

/-- The sign, exponent and fraction fields of an FP32 word. -/
def f32Exp (w : Word) : Nat := w.toNat / 2 ^ 23 % 256
def f32Frac (w : Word) : Nat := w.toNat % 2 ^ 23
def f32Neg (w : Word) : Bool := decide (2 ^ 31 ≤ w.toNat)

/-- Neither a NaN nor an infinity. -/
def f32Finite (w : Word) : Bool := decide (f32Exp w ≠ 255)

def f32IsNaN (w : Word) : Bool := decide (f32Exp w = 255 ∧ f32Frac w ≠ 0)

/-- Two to an integer power. -/
def pow2 (e : Int) : Rat := if 0 ≤ e then ((2 ^ e.toNat : Nat) : Rat) else mkRat 1 (2 ^ (-e).toNat)

/-- The number a finite FP32 word stands for (0 for a NaN or an infinity, which every reader refuses first). -/
def f32ToRat (w : Word) : Rat :=
  let e : Nat := f32Exp w
  let m : Nat := f32Frac w
  let a : Rat :=
    if e = 255 then 0
    else if e = 0 then (m : Rat) * pow2 (-149)
    else ((m + 2 ^ 23 : Nat) : Rat) * pow2 ((e : Int) - 150)
  if f32Neg w then -a else a

/-- Nearest integer of n / d, halves to even. -/
def divEven (n d : Nat) : Nat :=
  let q := n / d
  let r := n % d
  if 2 * r < d then q else if d < 2 * r then q + 1 else if q % 2 = 0 then q else q + 1

/-- The FP32 word nearest a number, halves to even (log row 6); beyond the range, infinity. -/
def f32OfRat (q : Rat) : Word :=
  let n := q.num.natAbs
  let d := q.den
  if n = 0 then 0 else
  let k : Int := (Nat.log2 n : Int) - (Nat.log2 d : Int)
  let ge : Bool := if 0 ≤ k then decide (d * 2 ^ k.toNat ≤ n) else decide (d ≤ n * 2 ^ (-k).toNat)
  let e : Int := max (if ge then k else k - 1) (-126)
  let s : Int := 23 - e
  let r : Nat := if 0 ≤ s then divEven (n * 2 ^ s.toNat) d else divEven n (d * 2 ^ (-s).toNat)
  let bits : Nat := if r < 2 ^ 23 then r else (e + 126).toNat * 2 ^ 23 + r
  let mag : Nat := if 0x7F800000 ≤ bits then 0x7F800000 else bits
  BitVec.ofNat 32 (if q.num < 0 then mag + 2 ^ 31 else mag)

/-- Nearest integer, halves away from zero (R63, R201). -/
def roundAway (q : Rat) : Int :=
  let n := q.num.natAbs
  let r : Nat := (2 * n + q.den) / (2 * q.den)
  if q.num < 0 then -(r : Int) else (r : Int)

/-- The largest integer not above a number. -/
def floorRat (q : Rat) : Int := q.num / (q.den : Int)

/-- The smallest integer not below a number. -/
def ceilRat (q : Rat) : Int := -(floorRat (-q))

/-- Remainder of a number of turns: the fraction part, from 0 up to 1. -/
def fracTurn (q : Rat) : Rat := q - (floorRat q : Rat)

def ratClamp (lo hi x : Rat) : Rat := if x < lo then lo else if hi < x then hi else x

def ratAbs (x : Rat) : Rat := if x < 0 then -x else x

def ratMax (x y : Rat) : Rat := if x < y then y else x

def ratMin (x y : Rat) : Rat := if x < y then x else y

/-- The number a binary16 value stands for, and whether it is finite (R144, R146). -/
def halfFinite (h : BitVec 16) : Bool := decide (h.toNat / 2 ^ 10 % 32 ≠ 31)

def halfToRat (h : BitVec 16) : Rat :=
  let e : Nat := h.toNat / 2 ^ 10 % 32
  let m : Nat := h.toNat % 2 ^ 10
  let a : Rat := if e = 0 then (m : Rat) * pow2 (-24) else ((m + 2 ^ 10 : Nat) : Rat) * pow2 ((e : Int) - 25)
  if 2 ^ 15 ≤ h.toNat then -a else a

end Sys2Proof.Machine
end

