-- ==== Sys2Proof/Machine/Regs.lean ====
section
/-! DEFINITION. The address of every register and the place of every field, from the register tables of the chapters.
A name is REGISTER or REGISTER_FIELD as the spec spells it; the arguments are the numbers of the window, unit and word. -/

namespace Sys2Proof.Machine

/-- A field: the SPI address of its register, its lowest bit and its width. -/
structure Fld where
  addr : Nat
  lo : Nat
  w : Nat
  deriving DecidableEq, Repr

/-- SYS_GRANT, 00_scope.md. -/
def SYS_GRANT : Nat := 0x8
def SYS_GRANT_MACHINE : Fld := ⟨SYS_GRANT, 10, 1⟩
def SYS_GRANT_HARMONIC : Fld := ⟨SYS_GRANT, 9, 1⟩
def SYS_GRANT_SUNDLINK : Fld := ⟨SYS_GRANT, 8, 1⟩
def SYS_GRANT_CHEST : Fld := ⟨SYS_GRANT, 7, 1⟩
def SYS_GRANT_RINGS_48_63 : Fld := ⟨SYS_GRANT, 6, 1⟩
def SYS_GRANT_RINGS_32_47 : Fld := ⟨SYS_GRANT, 5, 1⟩
def SYS_GRANT_RINGS_16_31 : Fld := ⟨SYS_GRANT, 4, 1⟩
def SYS_GRANT_ENGINE_B : Fld := ⟨SYS_GRANT, 3, 1⟩
def SYS_GRANT_STATION3 : Fld := ⟨SYS_GRANT, 2, 1⟩
def SYS_GRANT_STATION2 : Fld := ⟨SYS_GRANT, 1, 1⟩
def SYS_GRANT_STATION1 : Fld := ⟨SYS_GRANT, 0, 1⟩

/-- SYS_DEVID, 00_scope.md. -/
def SYS_DEVID : Nat := 0x0
def SYS_DEVID_DEVID : Fld := ⟨SYS_DEVID, 0, 32⟩

/-- GFM_ENV_PDIS, 01_architecture.md. -/
def GFM_ENV_PDIS (i : Nat) : Nat := 0x140000 + i * 0x10000
def GFM_ENV_PDIS_VALUE (i : Nat) : Fld := ⟨GFM_ENV_PDIS i, 0, 32⟩

/-- GFM_ENV_PCHG, 01_architecture.md. -/
def GFM_ENV_PCHG (i : Nat) : Nat := 0x140004 + i * 0x10000
def GFM_ENV_PCHG_VALUE (i : Nat) : Fld := ⟨GFM_ENV_PCHG i, 0, 32⟩

/-- GFM_ENV_ERES, 01_architecture.md. -/
def GFM_ENV_ERES (i : Nat) : Nat := 0x140008 + i * 0x10000
def GFM_ENV_ERES_VALUE (i : Nat) : Fld := ⟨GFM_ENV_ERES i, 0, 32⟩

/-- GFM_ENV_SEQ, 01_architecture.md. -/
def GFM_ENV_SEQ (i : Nat) : Nat := 0x14000C + i * 0x10000
def GFM_ENV_SEQ_SEQ (i : Nat) : Fld := ⟨GFM_ENV_SEQ i, 0, 32⟩

/-- GFM_ENV_STATUS, 01_architecture.md. -/
def GFM_ENV_STATUS (i : Nat) : Nat := 0x140010 + i * 0x10000
def GFM_ENV_STATUS_ENV_REJECT (i : Nat) : Fld := ⟨GFM_ENV_STATUS i, 24, 8⟩
def GFM_ENV_STATUS_ENV_FALLBACK (i : Nat) : Fld := ⟨GFM_ENV_STATUS i, 17, 1⟩
def GFM_ENV_STATUS_ENV_AGE (i : Nat) : Fld := ⟨GFM_ENV_STATUS i, 0, 16⟩

/-- GFM_SNAP_DROP, 01_architecture.md. -/
def GFM_SNAP_DROP (i : Nat) : Nat := 0x140180 + i * 0x10000
def GFM_SNAP_DROP_DROP (i : Nat) : Fld := ⟨GFM_SNAP_DROP i, 0, 16⟩

/-- SYS_STEPPING, 01_architecture.md. -/
def SYS_STEPPING : Nat := 0x4
def SYS_STEPPING_LETTER : Fld := ⟨SYS_STEPPING, 8, 8⟩
def SYS_STEPPING_DIGIT : Fld := ⟨SYS_STEPPING, 0, 8⟩

/-- SYS_STATUS, 01_architecture.md. -/
def SYS_STATUS : Nat := 0xC
def SYS_STATUS_SPI_CRC : Fld := ⟨SYS_STATUS, 3, 1⟩
def SYS_STATUS_APERTURE_ERR : Fld := ⟨SYS_STATUS, 2, 1⟩
def SYS_STATUS_ADDR_ERR : Fld := ⟨SYS_STATUS, 1, 1⟩
def SYS_STATUS_GRANT_MISS : Fld := ⟨SYS_STATUS, 0, 1⟩

/-- SYS_APERTURE, 01_architecture.md. -/
def SYS_APERTURE : Nat := 0x10
def SYS_APERTURE_BASE : Fld := ⟨SYS_APERTURE, 23, 9⟩

/-- GFM_SNAP, 01_architecture.md. -/
def GFM_SNAP (i j : Nat) : Nat := 0x140100 + i * 0x10000 + j * 0x4
def GFM_SNAP_WORD (i j : Nat) : Fld := ⟨GFM_SNAP i j, 0, 32⟩

/-- GFM_ENV_OTP_PDIS, 02_grid_forming_core.md. -/
def GFM_ENV_OTP_PDIS (i : Nat) : Nat := 0x140014 + i * 0x10000
def GFM_ENV_OTP_PDIS_VALUE (i : Nat) : Fld := ⟨GFM_ENV_OTP_PDIS i, 0, 32⟩

/-- GFM_ENV_OTP_PCHG, 02_grid_forming_core.md. -/
def GFM_ENV_OTP_PCHG (i : Nat) : Nat := 0x140018 + i * 0x10000
def GFM_ENV_OTP_PCHG_VALUE (i : Nat) : Fld := ⟨GFM_ENV_OTP_PCHG i, 0, 32⟩

/-- GFM_ENV_OTP_ERES, 02_grid_forming_core.md. -/
def GFM_ENV_OTP_ERES (i : Nat) : Nat := 0x14001C + i * 0x10000
def GFM_ENV_OTP_ERES_VALUE (i : Nat) : Fld := ⟨GFM_ENV_OTP_ERES i, 0, 32⟩

/-- GFM_CTRL, 02_grid_forming_core.md. -/
def GFM_CTRL (i : Nat) : Nat := 0x140020 + i * 0x10000
def GFM_CTRL_RESET_REQ (i : Nat) : Fld := ⟨GFM_CTRL i, 12, 1⟩
def GFM_CTRL_TYPE (i : Nat) : Fld := ⟨GFM_CTRL i, 8, 2⟩
def GFM_CTRL_START_MODE (i : Nat) : Fld := ⟨GFM_CTRL i, 4, 3⟩
def GFM_CTRL_RUN_REQ (i : Nat) : Fld := ⟨GFM_CTRL i, 0, 1⟩

/-- GFM_STATE, 02_grid_forming_core.md. -/
def GFM_STATE (i : Nat) : Nat := 0x140024 + i * 0x10000
def GFM_STATE_PREV_STATE (i : Nat) : Fld := ⟨GFM_STATE i, 8, 8⟩
def GFM_STATE_STATE (i : Nat) : Fld := ⟨GFM_STATE i, 0, 8⟩

/-- GFM_CORE_FLAGS, 02_grid_forming_core.md. -/
def GFM_CORE_FLAGS (i : Nat) : Nat := 0x140028 + i * 0x10000
def GFM_CORE_FLAGS_START_REFUSED (i : Nat) : Fld := ⟨GFM_CORE_FLAGS i, 13, 1⟩
def GFM_CORE_FLAGS_PARAM_REJECTED (i : Nat) : Fld := ⟨GFM_CORE_FLAGS i, 12, 1⟩
def GFM_CORE_FLAGS_EMF_CLAMP (i : Nat) : Fld := ⟨GFM_CORE_FLAGS i, 11, 1⟩
def GFM_CORE_FLAGS_GOV_CLAMP (i : Nat) : Fld := ⟨GFM_CORE_FLAGS i, 10, 1⟩
def GFM_CORE_FLAGS_FREQ_CLAMP (i : Nat) : Fld := ⟨GFM_CORE_FLAGS i, 9, 1⟩
def GFM_CORE_FLAGS_FC_FLOOR (i : Nat) : Fld := ⟨GFM_CORE_FLAGS i, 8, 1⟩
def GFM_CORE_FLAGS_H_FLOOR (i : Nat) : Fld := ⟨GFM_CORE_FLAGS i, 7, 1⟩
def GFM_CORE_FLAGS_FC_REDUCED (i : Nat) : Fld := ⟨GFM_CORE_FLAGS i, 6, 1⟩
def GFM_CORE_FLAGS_MP_RAISED (i : Nat) : Fld := ⟨GFM_CORE_FLAGS i, 5, 1⟩
def GFM_CORE_FLAGS_H_REDUCED (i : Nat) : Fld := ⟨GFM_CORE_FLAGS i, 4, 1⟩
def GFM_CORE_FLAGS_WRITE_REFUSED (i : Nat) : Fld := ⟨GFM_CORE_FLAGS i, 1, 1⟩
def GFM_CORE_FLAGS_LATE_WRITE (i : Nat) : Fld := ⟨GFM_CORE_FLAGS i, 0, 1⟩

/-- GFM_CORE_CNT0, 02_grid_forming_core.md. -/
def GFM_CORE_CNT0 (i : Nat) : Nat := 0x14002C + i * 0x10000
def GFM_CORE_CNT0_GOV_CLAMP_CNT (i : Nat) : Fld := ⟨GFM_CORE_CNT0 i, 16, 16⟩
def GFM_CORE_CNT0_FREQ_CLAMP_CNT (i : Nat) : Fld := ⟨GFM_CORE_CNT0 i, 0, 16⟩

/-- GFM_CORE_CNT1, 02_grid_forming_core.md. -/
def GFM_CORE_CNT1 (i : Nat) : Nat := 0x140030 + i * 0x10000
def GFM_CORE_CNT1_EMF_CLAMP_CNT (i : Nat) : Fld := ⟨GFM_CORE_CNT1 i, 16, 16⟩
def GFM_CORE_CNT1_PARAM_REJECT_CNT (i : Nat) : Fld := ⟨GFM_CORE_CNT1 i, 0, 16⟩

/-- GFM_MP_EFF, 02_grid_forming_core.md. -/
def GFM_MP_EFF (i : Nat) : Nat := 0x140034 + i * 0x10000
def GFM_MP_EFF_VALUE (i : Nat) : Fld := ⟨GFM_MP_EFF i, 0, 32⟩

/-- GFM_HCH_CFG, 03_sharing_black_start.md. -/
def GFM_HCH_CFG (i j : Nat) : Nat := 0x140060 + i * 0x10000 + j * 0x4
def GFM_HCH_CFG_ACTIVE (i j : Nat) : Fld := ⟨GFM_HCH_CFG i j, 16, 1⟩
def GFM_HCH_CFG_REFUSE (i j : Nat) : Fld := ⟨GFM_HCH_CFG i j, 12, 4⟩
def GFM_HCH_CFG_ORDER (i j : Nat) : Fld := ⟨GFM_HCH_CFG i j, 2, 6⟩
def GFM_HCH_CFG_SEQ (i j : Nat) : Fld := ⟨GFM_HCH_CFG i j, 1, 1⟩
def GFM_HCH_CFG_EN (i j : Nat) : Fld := ⟨GFM_HCH_CFG i j, 0, 1⟩

/-- GFM_HCH_IH, 03_sharing_black_start.md. -/
def GFM_HCH_IH (i j : Nat) : Nat := 0x140090 + i * 0x10000 + j * 0x4
def GFM_HCH_IH_VALUE (i j : Nat) : Fld := ⟨GFM_HCH_IH i j, 0, 32⟩

/-- GFM_HCH_VH, 03_sharing_black_start.md. -/
def GFM_HCH_VH (i j : Nat) : Nat := 0x1400C0 + i * 0x10000 + j * 0x4
def GFM_HCH_VH_VALUE (i j : Nat) : Fld := ⟨GFM_HCH_VH i j, 0, 32⟩

/-- GFM_SYNC_DANG, 03_sharing_black_start.md. -/
def GFM_SYNC_DANG (i : Nat) : Nat := 0x140050 + i * 0x10000
def GFM_SYNC_DANG_VALUE (i : Nat) : Fld := ⟨GFM_SYNC_DANG i, 0, 32⟩

/-- GFM_SYNC_DFREQ, 03_sharing_black_start.md. -/
def GFM_SYNC_DFREQ (i : Nat) : Nat := 0x140054 + i * 0x10000
def GFM_SYNC_DFREQ_VALUE (i : Nat) : Fld := ⟨GFM_SYNC_DFREQ i, 0, 32⟩

/-- GFM_SYNC_DVOLT, 03_sharing_black_start.md. -/
def GFM_SYNC_DVOLT (i : Nat) : Nat := 0x140058 + i * 0x10000
def GFM_SYNC_DVOLT_VALUE (i : Nat) : Fld := ⟨GFM_SYNC_DVOLT i, 0, 32⟩

/-- GFM_START_STATUS, 03_sharing_black_start.md. -/
def GFM_START_STATUS (i : Nat) : Nat := 0x140040 + i * 0x10000
def GFM_START_STATUS_FAIL_REASON (i : Nat) : Fld := ⟨GFM_START_STATUS i, 16, 8⟩
def GFM_START_STATUS_PHASE (i : Nat) : Fld := ⟨GFM_START_STATUS i, 8, 4⟩
def GFM_START_STATUS_BRK (i : Nat) : Fld := ⟨GFM_START_STATUS i, 2, 1⟩
def GFM_START_STATUS_BUS_LIVE (i : Nat) : Fld := ⟨GFM_START_STATUS i, 1, 1⟩
def GFM_START_STATUS_SYNC_OK (i : Nat) : Fld := ⟨GFM_START_STATUS i, 0, 1⟩

/-- GFM_SBS_FLAGS, 03_sharing_black_start.md. -/
def GFM_SBS_FLAGS (i : Nat) : Nat := 0x140044 + i * 0x10000
def GFM_SBS_FLAGS_START_FAIL (i : Nat) : Fld := ⟨GFM_SBS_FLAGS i, 9, 1⟩
def GFM_SBS_FLAGS_SHORE_FSET (i : Nat) : Fld := ⟨GFM_SBS_FLAGS i, 8, 1⟩
def GFM_SBS_FLAGS_CLOSED_OUT_OF_WINDOW (i : Nat) : Fld := ⟨GFM_SBS_FLAGS i, 7, 1⟩
def GFM_SBS_FLAGS_BUS_LOST (i : Nat) : Fld := ⟨GFM_SBS_FLAGS i, 6, 1⟩
def GFM_SBS_FLAGS_SYNC_WINDOW (i : Nat) : Fld := ⟨GFM_SBS_FLAGS i, 5, 1⟩
def GFM_SBS_FLAGS_SLEW_CLAMP (i : Nat) : Fld := ⟨GFM_SBS_FLAGS i, 4, 1⟩
def GFM_SBS_FLAGS_BIAS_CLAMP (i : Nat) : Fld := ⟨GFM_SBS_FLAGS i, 3, 1⟩
def GFM_SBS_FLAGS_RAMP_HOLD (i : Nat) : Fld := ⟨GFM_SBS_FLAGS i, 2, 1⟩
def GFM_SBS_FLAGS_HCH_VLIM (i : Nat) : Fld := ⟨GFM_SBS_FLAGS i, 1, 1⟩
def GFM_SBS_FLAGS_HCH_REFUSED (i : Nat) : Fld := ⟨GFM_SBS_FLAGS i, 0, 1⟩

/-- GFM_SBS_CNT0, 03_sharing_black_start.md. -/
def GFM_SBS_CNT0 (i : Nat) : Nat := 0x140048 + i * 0x10000
def GFM_SBS_CNT0_HCH_VLIM_CNT (i : Nat) : Fld := ⟨GFM_SBS_CNT0 i, 16, 16⟩
def GFM_SBS_CNT0_SLEW_CLAMP_CNT (i : Nat) : Fld := ⟨GFM_SBS_CNT0 i, 0, 16⟩

/-- GFM_SBS_CNT1, 03_sharing_black_start.md. -/
def GFM_SBS_CNT1 (i : Nat) : Nat := 0x14004C + i * 0x10000
def GFM_SBS_CNT1_RAMP_HOLD_CNT (i : Nat) : Fld := ⟨GFM_SBS_CNT1 i, 16, 16⟩
def GFM_SBS_CNT1_SYNC_REACQ_CNT (i : Nat) : Fld := ⟨GFM_SBS_CNT1 i, 0, 16⟩

/-- GFM_FRT_STATUS, 04_fault_ride_through.md. -/
def GFM_FRT_STATUS (i : Nat) : Nat := 0x140038 + i * 0x10000
def GFM_FRT_STATUS_LIM_TIME (i : Nat) : Fld := ⟨GFM_FRT_STATUS i, 16, 16⟩
def GFM_FRT_STATUS_CEIL_AT_OVL (i : Nat) : Fld := ⟨GFM_FRT_STATUS i, 4, 1⟩
def GFM_FRT_STATUS_HWLIM_ACTIVE (i : Nat) : Fld := ⟨GFM_FRT_STATUS i, 3, 1⟩
def GFM_FRT_STATUS_CLAMP_ACTIVE (i : Nat) : Fld := ⟨GFM_FRT_STATUS i, 2, 1⟩
def GFM_FRT_STATUS_RT_ACTIVE (i : Nat) : Fld := ⟨GFM_FRT_STATUS i, 1, 1⟩
def GFM_FRT_STATUS_DZ_ACTIVE (i : Nat) : Fld := ⟨GFM_FRT_STATUS i, 0, 1⟩

/-- GFM_FRT_FLAGS, 04_fault_ride_through.md. -/
def GFM_FRT_FLAGS (i : Nat) : Nat := 0x14003C + i * 0x10000
def GFM_FRT_FLAGS_CLEARED (i : Nat) : Fld := ⟨GFM_FRT_FLAGS i, 6, 1⟩
def GFM_FRT_FLAGS_BUDGET_CUT (i : Nat) : Fld := ⟨GFM_FRT_FLAGS i, 5, 1⟩
def GFM_FRT_FLAGS_CEIL_OVL (i : Nat) : Fld := ⟨GFM_FRT_FLAGS i, 4, 1⟩
def GFM_FRT_FLAGS_REF_CLAMP (i : Nat) : Fld := ⟨GFM_FRT_FLAGS i, 3, 1⟩
def GFM_FRT_FLAGS_HWLIM (i : Nat) : Fld := ⟨GFM_FRT_FLAGS i, 2, 1⟩
def GFM_FRT_FLAGS_RT_ENTERED (i : Nat) : Fld := ⟨GFM_FRT_FLAGS i, 1, 1⟩
def GFM_FRT_FLAGS_LIMITED (i : Nat) : Fld := ⟨GFM_FRT_FLAGS i, 0, 1⟩

/-- GFM_TRIP_CAUSE, 04_fault_ride_through.md. -/
def GFM_TRIP_CAUSE (i : Nat) : Nat := 0x1400F0 + i * 0x10000
def GFM_TRIP_CAUSE_ALL (i : Nat) : Fld := ⟨GFM_TRIP_CAUSE i, 16, 11⟩
def GFM_TRIP_CAUSE_FIRST (i : Nat) : Fld := ⟨GFM_TRIP_CAUSE i, 0, 8⟩

/-- GFM_FRT_CNT0, 04_fault_ride_through.md. -/
def GFM_FRT_CNT0 (i : Nat) : Nat := 0x1400F4 + i * 0x10000
def GFM_FRT_CNT0_HWLIM_CNT (i : Nat) : Fld := ⟨GFM_FRT_CNT0 i, 16, 16⟩
def GFM_FRT_CNT0_LIM_EPISODE_CNT (i : Nat) : Fld := ⟨GFM_FRT_CNT0 i, 0, 16⟩

/-- GFM_FRT_CNT1, 04_fault_ride_through.md. -/
def GFM_FRT_CNT1 (i : Nat) : Nat := 0x1400F8 + i * 0x10000
def GFM_FRT_CNT1_RT_EPISODE_CNT (i : Nat) : Fld := ⟨GFM_FRT_CNT1 i, 16, 16⟩
def GFM_FRT_CNT1_REF_CLAMP_CNT (i : Nat) : Fld := ⟨GFM_FRT_CNT1 i, 0, 16⟩

/-- GFM_I_CEIL, 04_fault_ride_through.md. -/
def GFM_I_CEIL (i : Nat) : Nat := 0x1400FC + i * 0x10000
def GFM_I_CEIL_VALUE (i : Nat) : Fld := ⟨GFM_I_CEIL i, 0, 32⟩

/-- TRS_STATUS, 05_trestle.md. -/
def TRS_STATUS (i : Nat) : Nat := 0x120000 + i * 0x10000
def TRS_STATUS_SWAP_PENDING (i : Nat) : Fld := ⟨TRS_STATUS i, 20, 4⟩
def TRS_STATUS_BANK_ACTIVE (i : Nat) : Fld := ⟨TRS_STATUS i, 16, 1⟩
def TRS_STATUS_SHD_VALID (i : Nat) : Fld := ⟨TRS_STATUS i, 1, 1⟩
def TRS_STATUS_ROLE (i : Nat) : Fld := ⟨TRS_STATUS i, 0, 1⟩

/-- TRS_BANK, 05_trestle.md. -/
def TRS_BANK : Nat := 0x120004
def TRS_BANK_SWAP_REFUSE_REASON : Fld := ⟨TRS_BANK, 12, 4⟩
def TRS_BANK_SWAP_REQ : Fld := ⟨TRS_BANK, 0, 1⟩

/-- TRS_IMAGE_ACT, 05_trestle.md. -/
def TRS_IMAGE_ACT (i : Nat) : Nat := 0x120008 + i * 0x10000
def TRS_IMAGE_ACT_IMAGE_ID (i : Nat) : Fld := ⟨TRS_IMAGE_ACT i, 0, 32⟩

/-- TRS_IMAGE_SHD, 05_trestle.md. -/
def TRS_IMAGE_SHD (i : Nat) : Nat := 0x12000C + i * 0x10000
def TRS_IMAGE_SHD_IMAGE_ID (i : Nat) : Fld := ⟨TRS_IMAGE_SHD i, 0, 32⟩

/-- TRS_FLAGS, 05_trestle.md. -/
def TRS_FLAGS (i : Nat) : Nat := 0x120010 + i * 0x10000
def TRS_FLAGS_OVERMOD (i : Nat) : Fld := ⟨TRS_FLAGS i, 13, 1⟩
def TRS_FLAGS_FB_RESTORED (i : Nat) : Fld := ⟨TRS_FLAGS i, 12, 1⟩
def TRS_FLAGS_FB_LOST_OTHER (i : Nat) : Fld := ⟨TRS_FLAGS i, 11, 1⟩
def TRS_FLAGS_FB_LOST_POSITION (i : Nat) : Fld := ⟨TRS_FLAGS i, 10, 1⟩
def TRS_FLAGS_FB_LOST_VOLTAGE (i : Nat) : Fld := ⟨TRS_FLAGS i, 9, 1⟩
def TRS_FLAGS_FB_LOST_CURRENT (i : Nat) : Fld := ⟨TRS_FLAGS i, 8, 1⟩
def TRS_FLAGS_INPUT_LATE (i : Nat) : Fld := ⟨TRS_FLAGS i, 7, 1⟩
def TRS_FLAGS_OVERRUN (i : Nat) : Fld := ⟨TRS_FLAGS i, 6, 1⟩
def TRS_FLAGS_GAIN_REJECTED (i : Nat) : Fld := ⟨TRS_FLAGS i, 5, 1⟩
def TRS_FLAGS_PEND_DISCARD (i : Nat) : Fld := ⟨TRS_FLAGS i, 4, 1⟩
def TRS_FLAGS_STATE_RESET (i : Nat) : Fld := ⟨TRS_FLAGS i, 3, 1⟩
def TRS_FLAGS_SWAP_REFUSED (i : Nat) : Fld := ⟨TRS_FLAGS i, 2, 1⟩
def TRS_FLAGS_WRITE_REFUSED (i : Nat) : Fld := ⟨TRS_FLAGS i, 1, 1⟩
def TRS_FLAGS_LATE_WRITE (i : Nat) : Fld := ⟨TRS_FLAGS i, 0, 1⟩

/-- TRS_DEADLINE, 05_trestle.md. -/
def TRS_DEADLINE (i j : Nat) : Nat := 0x120020 + i * 0x10000 + j * 0x4
def TRS_DEADLINE_NS (i j : Nat) : Fld := ⟨TRS_DEADLINE i j, 0, 32⟩

/-- TRS_EXEC_MAX, 05_trestle.md. -/
def TRS_EXEC_MAX (i j : Nat) : Nat := 0x120030 + i * 0x10000 + j * 0x4
def TRS_EXEC_MAX_NS (i j : Nat) : Fld := ⟨TRS_EXEC_MAX i j, 0, 32⟩

/-- TRS_CNT, 05_trestle.md. -/
def TRS_CNT (i j : Nat) : Nat := 0x120040 + i * 0x10000 + j * 0x4
def TRS_CNT_OVERMOD_CNT (i j : Nat) : Fld := ⟨TRS_CNT i j, 16, 16⟩
def TRS_CNT_OVERRUN_CNT (i j : Nat) : Fld := ⟨TRS_CNT i j, 0, 16⟩

/-- TRS_OVR_STAT, 05_trestle.md. -/
def TRS_OVR_STAT (i j : Nat) : Nat := 0x120050 + i * 0x10000 + j * 0x4
def TRS_OVR_STAT_INPUT_LATE_CNT (i j : Nat) : Fld := ⟨TRS_OVR_STAT i j, 16, 8⟩
def TRS_OVR_STAT_FIRST_LOOP (i j : Nat) : Fld := ⟨TRS_OVR_STAT i j, 8, 6⟩
def TRS_OVR_STAT_CONSEC (i j : Nat) : Fld := ⟨TRS_OVR_STAT i j, 0, 2⟩

/-- TRS_COST, 05_trestle.md. -/
def TRS_COST (i j : Nat) : Nat := 0x120060 + i * 0x10000 + j * 0x4
def TRS_COST_COPY_BYTES (i j : Nat) : Fld := ⟨TRS_COST i j, 16, 11⟩
def TRS_COST_CYCLES (i j : Nat) : Fld := ⟨TRS_COST i j, 0, 16⟩

/-- TRS_DMEM_ADDR, 05_trestle.md. -/
def TRS_DMEM_ADDR (i : Nat) : Nat := 0x120080 + i * 0x10000
def TRS_DMEM_ADDR_ADDR (i : Nat) : Fld := ⟨TRS_DMEM_ADDR i, 2, 16⟩

/-- TRS_DMEM_DATA, 05_trestle.md. -/
def TRS_DMEM_DATA (i : Nat) : Nat := 0x120084 + i * 0x10000
def TRS_DMEM_DATA_DATA (i : Nat) : Fld := ⟨TRS_DMEM_DATA i, 0, 32⟩

/-- TRS_LOOP_CFG, 05_trestle.md. -/
def TRS_LOOP_CFG (i : Nat) : Nat := 0x120100 + i * 0x4
def TRS_LOOP_CFG_GSLOT (i : Nat) : Fld := ⟨TRS_LOOP_CFG i, 26, 6⟩
def TRS_LOOP_CFG_GTAB (i : Nat) : Fld := ⟨TRS_LOOP_CFG i, 25, 1⟩
def TRS_LOOP_CFG_PRIV (i : Nat) : Fld := ⟨TRS_LOOP_CFG i, 24, 1⟩
def TRS_LOOP_CFG_RATE (i : Nat) : Fld := ⟨TRS_LOOP_CFG i, 14, 10⟩
def TRS_LOOP_CFG_PHASE (i : Nat) : Fld := ⟨TRS_LOOP_CFG i, 4, 10⟩
def TRS_LOOP_CFG_STATION (i : Nat) : Fld := ⟨TRS_LOOP_CFG i, 2, 2⟩
def TRS_LOOP_CFG_VALID (i : Nat) : Fld := ⟨TRS_LOOP_CFG i, 0, 1⟩

/-- TRS_LOOP_KP, 05_trestle.md. -/
def TRS_LOOP_KP (i : Nat) : Nat := 0x120200 + i * 0x4
def TRS_LOOP_KP_VALUE (i : Nat) : Fld := ⟨TRS_LOOP_KP i, 0, 32⟩

/-- TRS_LOOP_KI, 05_trestle.md. -/
def TRS_LOOP_KI (i : Nat) : Nat := 0x120300 + i * 0x4
def TRS_LOOP_KI_VALUE (i : Nat) : Fld := ⟨TRS_LOOP_KI i, 0, 32⟩

/-- TRS_LOOP_EMIN, 05_trestle.md. -/
def TRS_LOOP_EMIN (i : Nat) : Nat := 0x120400 + i * 0x4
def TRS_LOOP_EMIN_VALUE (i : Nat) : Fld := ⟨TRS_LOOP_EMIN i, 0, 32⟩

/-- TRS_LOOP_EMAX, 05_trestle.md. -/
def TRS_LOOP_EMAX (i : Nat) : Nat := 0x120500 + i * 0x4
def TRS_LOOP_EMAX_VALUE (i : Nat) : Fld := ⟨TRS_LOOP_EMAX i, 0, 32⟩

/-- TRS_IN_CFG, 05_trestle.md. -/
def TRS_IN_CFG (i : Nat) : Nat := 0x120800 + i * 0x4
def TRS_IN_CFG_N_FREEZE (i : Nat) : Fld := ⟨TRS_IN_CFG i, 21, 11⟩
def TRS_IN_CFG_NOISY (i : Nat) : Fld := ⟨TRS_IN_CFG i, 20, 1⟩
def TRS_IN_CFG_CLASS (i : Nat) : Fld := ⟨TRS_IN_CFG i, 18, 2⟩
def TRS_IN_CFG_SRC_TYPE (i : Nat) : Fld := ⟨TRS_IN_CFG i, 16, 2⟩
def TRS_IN_CFG_ROLE (i : Nat) : Fld := ⟨TRS_IN_CFG i, 13, 3⟩
def TRS_IN_CFG_EN (i : Nat) : Fld := ⟨TRS_IN_CFG i, 10, 1⟩
def TRS_IN_CFG_SRC_INDEX (i : Nat) : Fld := ⟨TRS_IN_CFG i, 0, 10⟩

/-- TRS_FB_LOST, 05_trestle.md. -/
def TRS_FB_LOST (i j k : Nat) : Nat := 0x120C00 + i * 0x10000 + j * 0x8 + k * 0x4
def TRS_FB_LOST_LOST (i j k : Nat) : Fld := ⟨TRS_FB_LOST i j k, 0, 32⟩

/-- PWM_TB_CFG, 06_pwm_gate.md. -/
def PWM_TB_CFG (i : Nat) : Nat := 0x80000 + i * 0x10000
def PWM_TB_CFG_BPC (i : Nat) : Fld := ⟨PWM_TB_CFG i, 10, 6⟩
def PWM_TB_CFG_OVR_MODE (i : Nat) : Fld := ⟨PWM_TB_CFG i, 4, 2⟩
def PWM_TB_CFG_UPD_MODE (i : Nat) : Fld := ⟨PWM_TB_CFG i, 1, 1⟩
def PWM_TB_CFG_MODE (i : Nat) : Fld := ⟨PWM_TB_CFG i, 0, 1⟩

/-- PWM_TB_CTRL, 06_pwm_gate.md. -/
def PWM_TB_CTRL (i : Nat) : Nat := 0x80004 + i * 0x10000
def PWM_TB_CTRL_UPDATE_ARM (i : Nat) : Fld := ⟨PWM_TB_CTRL i, 1, 1⟩
def PWM_TB_CTRL_TB_HOLD (i : Nat) : Fld := ⟨PWM_TB_CTRL i, 0, 1⟩

/-- PWM_PRD, 06_pwm_gate.md. -/
def PWM_PRD (i : Nat) : Nat := 0x80008 + i * 0x10000
def PWM_PRD_PRD (i : Nat) : Fld := ⟨PWM_PRD i, 0, 32⟩

/-- PWM_PRD_ACT, 06_pwm_gate.md. -/
def PWM_PRD_ACT (i : Nat) : Nat := 0x8000C + i * 0x10000
def PWM_PRD_ACT_PRD (i : Nat) : Fld := ⟨PWM_PRD_ACT i, 0, 32⟩

/-- PWM_TB_CNT, 06_pwm_gate.md. -/
def PWM_TB_CNT (i : Nat) : Nat := 0x80010 + i * 0x10000
def PWM_TB_CNT_DIR (i : Nat) : Fld := ⟨PWM_TB_CNT i, 31, 1⟩
def PWM_TB_CNT_C (i : Nat) : Fld := ⟨PWM_TB_CNT i, 0, 31⟩

/-- PWM_STATUS, 06_pwm_gate.md. -/
def PWM_STATUS (i : Nat) : Nat := 0x80014 + i * 0x10000
def PWM_STATUS_MASK_IDX (i : Nat) : Fld := ⟨PWM_STATUS i, 4, 3⟩
def PWM_STATUS_PRD_PENDING (i : Nat) : Fld := ⟨PWM_STATUS i, 3, 1⟩
def PWM_STATUS_ARMED (i : Nat) : Fld := ⟨PWM_STATUS i, 1, 1⟩
def PWM_STATUS_TB_RUN (i : Nat) : Fld := ⟨PWM_STATUS i, 0, 1⟩

/-- PWM_FLAGS, 06_pwm_gate.md. -/
def PWM_FLAGS (i : Nat) : Nat := 0x80018 + i * 0x10000
def PWM_FLAGS_NO_ARM (i : Nat) : Fld := ⟨PWM_FLAGS i, 4, 1⟩
def PWM_FLAGS_VALUE_REFUSED (i : Nat) : Fld := ⟨PWM_FLAGS i, 3, 1⟩
def PWM_FLAGS_SPLIT_UPDATE (i : Nat) : Fld := ⟨PWM_FLAGS i, 2, 1⟩
def PWM_FLAGS_WRITE_REFUSED (i : Nat) : Fld := ⟨PWM_FLAGS i, 1, 1⟩
def PWM_FLAGS_LATE_WRITE (i : Nat) : Fld := ⟨PWM_FLAGS i, 0, 1⟩

/-- PWM_CNT, 06_pwm_gate.md. -/
def PWM_CNT (i : Nat) : Nat := 0x8001C + i * 0x10000
def PWM_CNT_SPLIT_CNT (i : Nat) : Fld := ⟨PWM_CNT i, 16, 16⟩
def PWM_CNT_NO_ARM_CNT (i : Nat) : Fld := ⟨PWM_CNT i, 0, 16⟩

/-- PWM_SET_OFS, 06_pwm_gate.md. -/
def PWM_SET_OFS (i j : Nat) : Nat := 0x80020 + i * 0x10000 + j * 0x4
def PWM_SET_OFS_VALUE (i j : Nat) : Fld := ⟨PWM_SET_OFS i j, 0, 32⟩

/-- PWM_CMPA, 06_pwm_gate.md. -/
def PWM_CMPA (i j : Nat) : Nat := 0x80080 + i * 0x10000 + j * 0x4
def PWM_CMPA_VALUE (i j : Nat) : Fld := ⟨PWM_CMPA i j, 0, 32⟩

/-- PWM_CMPB, 06_pwm_gate.md. -/
def PWM_CMPB (i j : Nat) : Nat := 0x800C0 + i * 0x10000 + j * 0x4
def PWM_CMPB_VALUE (i j : Nat) : Fld := ⟨PWM_CMPB i j, 0, 32⟩

/-- PWM_HB_EN, 06_pwm_gate.md. -/
def PWM_HB_EN (i : Nat) : Nat := 0x80030 + i * 0x10000
def PWM_HB_EN_EN (i : Nat) : Fld := ⟨PWM_HB_EN i, 0, 12⟩

/-- PWM_OVR, 06_pwm_gate.md. -/
def PWM_OVR (i : Nat) : Nat := 0x80034 + i * 0x10000
def PWM_OVR_INV (i : Nat) : Fld := ⟨PWM_OVR i, 16, 12⟩
def PWM_OVR_SWAP (i : Nat) : Fld := ⟨PWM_OVR i, 0, 6⟩

/-- PWM_MASK_SRC, 06_pwm_gate.md. -/
def PWM_MASK_SRC (i : Nat) : Nat := 0x80038 + i * 0x10000
def PWM_MASK_SRC_SRC_EN (i : Nat) : Fld := ⟨PWM_MASK_SRC i, 31, 1⟩
def PWM_MASK_SRC_SW_IDX (i : Nat) : Fld := ⟨PWM_MASK_SRC i, 28, 3⟩
def PWM_MASK_SRC_FILT (i : Nat) : Fld := ⟨PWM_MASK_SRC i, 12, 16⟩
def PWM_MASK_SRC_CAP_C (i : Nat) : Fld := ⟨PWM_MASK_SRC i, 8, 4⟩
def PWM_MASK_SRC_CAP_B (i : Nat) : Fld := ⟨PWM_MASK_SRC i, 4, 4⟩
def PWM_MASK_SRC_CAP_A (i : Nat) : Fld := ⟨PWM_MASK_SRC i, 0, 4⟩

/-- PWM_TRG, 06_pwm_gate.md. -/
def PWM_TRG (i j : Nat) : Nat := 0x80040 + i * 0x10000 + j * 0x4
def PWM_TRG_EN (i j : Nat) : Fld := ⟨PWM_TRG i j, 31, 1⟩
def PWM_TRG_CS_ONLY (i j : Nat) : Fld := ⟨PWM_TRG i j, 30, 1⟩
def PWM_TRG_VALUE (i j : Nat) : Fld := ⟨PWM_TRG i j, 0, 16⟩

/-- PWM_HB_CFG, 06_pwm_gate.md. -/
def PWM_HB_CFG (i j : Nat) : Nat := 0x80100 + i * 0x10000 + j * 0x4
def PWM_HB_CFG_SET (i j : Nat) : Fld := ⟨PWM_HB_CFG i j, 0, 2⟩

/-- PWM_MASK, 06_pwm_gate.md. -/
def PWM_MASK (i j : Nat) : Nat := 0x80140 + i * 0x10000 + j * 0x4
def PWM_MASK_ACT (i j : Nat) : Fld := ⟨PWM_MASK i j, 0, 24⟩

/-- GATE_OTP, 06_pwm_gate.md. -/
def GATE_OTP (i : Nat) : Nat := 0xC0000 + i * 0x10000
def GATE_OTP_BLANK (i : Nat) : Fld := ⟨GATE_OTP i, 23, 9⟩
def GATE_OTP_DT (i : Nat) : Fld := ⟨GATE_OTP i, 12, 9⟩
def GATE_OTP_MINP (i : Nat) : Fld := ⟨GATE_OTP i, 0, 8⟩

/-- GATE_LATCH, 06_pwm_gate.md. -/
def GATE_LATCH (i : Nat) : Nat := 0xC0004 + i * 0x10000
def GATE_LATCH_LATCHED (i : Nat) : Fld := ⟨GATE_LATCH i, 0, 12⟩

/-- GATE_LCAUSE, 06_pwm_gate.md. -/
def GATE_LCAUSE (i : Nat) : Nat := 0xC000C + i * 0x10000
def GATE_LCAUSE_CAUSE (i : Nat) : Fld := ⟨GATE_LCAUSE i, 0, 24⟩

/-- GATE_STATUS, 06_pwm_gate.md. -/
def GATE_STATUS (i : Nat) : Nat := 0xC001C + i * 0x10000
def GATE_STATUS_GF_LEVEL (i : Nat) : Fld := ⟨GATE_STATUS i, 16, 12⟩
def GATE_STATUS_E_EFF (i : Nat) : Fld := ⟨GATE_STATUS i, 0, 12⟩

/-- GATE_TRIP, 06_pwm_gate.md. -/
def GATE_TRIP (i : Nat) : Nat := 0xC0008 + i * 0x10000
def GATE_TRIP_VALID (i : Nat) : Fld := ⟨GATE_TRIP i, 6, 1⟩
def GATE_TRIP_FIRST_CAUSE (i : Nat) : Fld := ⟨GATE_TRIP i, 4, 2⟩
def GATE_TRIP_FIRST_HB (i : Nat) : Fld := ⟨GATE_TRIP i, 0, 4⟩

/-- GATE_FLAGS, 06_pwm_gate.md. -/
def GATE_FLAGS (i : Nat) : Nat := 0xC0010 + i * 0x10000
def GATE_FLAGS_GAP_RMV (i : Nat) : Fld := ⟨GATE_FLAGS i, 6, 1⟩
def GATE_FLAGS_PULSE_RMV (i : Nat) : Fld := ⟨GATE_FLAGS i, 5, 1⟩
def GATE_FLAGS_GF_BLANKED (i : Nat) : Fld := ⟨GATE_FLAGS i, 4, 1⟩
def GATE_FLAGS_BOTH_ON_REFUSED (i : Nat) : Fld := ⟨GATE_FLAGS i, 3, 1⟩
def GATE_FLAGS_CLR_BLOCKED (i : Nat) : Fld := ⟨GATE_FLAGS i, 2, 1⟩
def GATE_FLAGS_CLR_EARLY (i : Nat) : Fld := ⟨GATE_FLAGS i, 1, 1⟩
def GATE_FLAGS_WRITE_REFUSED (i : Nat) : Fld := ⟨GATE_FLAGS i, 0, 1⟩

/-- GATE_TEST, 06_pwm_gate.md. -/
def GATE_TEST (i : Nat) : Nat := 0xC0014 + i * 0x10000
def GATE_TEST_WIDTH (i : Nat) : Fld := ⟨GATE_TEST i, 16, 16⟩
def GATE_TEST_GL (i : Nat) : Fld := ⟨GATE_TEST i, 5, 1⟩
def GATE_TEST_GH (i : Nat) : Fld := ⟨GATE_TEST i, 4, 1⟩
def GATE_TEST_HB (i : Nat) : Fld := ⟨GATE_TEST i, 0, 4⟩

/-- GATE_CNT, 06_pwm_gate.md. -/
def GATE_CNT (i : Nat) : Nat := 0xC0018 + i * 0x10000
def GATE_CNT_LATCH_CNT (i : Nat) : Fld := ⟨GATE_CNT i, 16, 16⟩
def GATE_CNT_GF_BLANKED_CNT (i : Nat) : Fld := ⟨GATE_CNT i, 0, 16⟩

/-- GATE_RMV, 06_pwm_gate.md. -/
def GATE_RMV (i j : Nat) : Nat := 0xC0040 + i * 0x10000 + j * 0x4
def GATE_RMV_GAP_RMV (i j : Nat) : Fld := ⟨GATE_RMV i j, 16, 16⟩
def GATE_RMV_PULSE_RMV (i j : Nat) : Fld := ⟨GATE_RMV i j, 0, 16⟩

/-- GATE_WCMP_CFG, 06_pwm_gate.md. -/
def GATE_WCMP_CFG (i j : Nat) : Nat := 0xC0080 + i * 0x10000 + j * 0x4
def GATE_WCMP_CFG_EN (i j : Nat) : Fld := ⟨GATE_WCMP_CFG i j, 4, 1⟩
def GATE_WCMP_CFG_HB (i j : Nat) : Fld := ⟨GATE_WCMP_CFG i j, 0, 4⟩

/-- GATE_WCMP_LIM, 06_pwm_gate.md. -/
def GATE_WCMP_LIM (i j : Nat) : Nat := 0xC00A0 + i * 0x10000 + j * 0x4
def GATE_WCMP_LIM_HI (i j : Nat) : Fld := ⟨GATE_WCMP_LIM i j, 16, 12⟩
def GATE_WCMP_LIM_LO (i j : Nat) : Fld := ⟨GATE_WCMP_LIM i j, 0, 12⟩

/-- GATE_WCMP_TRIP, 06_pwm_gate.md. -/
def GATE_WCMP_TRIP (i j : Nat) : Nat := 0xC00C0 + i * 0x10000 + j * 0x4
def GATE_WCMP_TRIP_HI (i j : Nat) : Fld := ⟨GATE_WCMP_TRIP i j, 16, 12⟩
def GATE_WCMP_TRIP_LO (i j : Nat) : Fld := ⟨GATE_WCMP_TRIP i j, 0, 12⟩

/-- ADC_SEQ, 07_conversion.md. -/
def ADC_SEQ (i j : Nat) : Nat := 0x100000 + i * 0x40 + j * 0x4
def ADC_SEQ_GAIN (i j : Nat) : Fld := ⟨ADC_SEQ i j, 16, 3⟩
def ADC_SEQ_SAMP (i j : Nat) : Fld := ⟨ADC_SEQ i j, 8, 8⟩
def ADC_SEQ_INPUT (i j : Nat) : Fld := ⟨ADC_SEQ i j, 0, 4⟩

/-- ADC_CFG, 07_conversion.md. -/
def ADC_CFG (i : Nat) : Nat := 0x100400 + i * 0x4
def ADC_CFG_EN (i : Nat) : Fld := ⟨ADC_CFG i, 31, 1⟩
def ADC_CFG_LEN (i : Nat) : Fld := ⟨ADC_CFG i, 0, 5⟩

/-- ADC_GO, 07_conversion.md. -/
def ADC_GO : Nat := 0x100480
def ADC_GO_SEQ_GO : Fld := ⟨ADC_GO, 0, 16⟩

/-- ADC_PLS_CFG, 07_conversion.md. -/
def ADC_PLS_CFG (i : Nat) : Nat := 0x100680 + i * 0x4
def ADC_PLS_CFG_EN (i : Nat) : Fld := ⟨ADC_PLS_CFG i, 31, 1⟩
def ADC_PLS_CFG_SAMP (i : Nat) : Fld := ⟨ADC_PLS_CFG i, 16, 8⟩

/-- ADC_TRGMAP_PWM, 07_conversion.md. -/
def ADC_TRGMAP_PWM (i : Nat) : Nat := 0x100500 + i * 0x4
def ADC_TRGMAP_PWM_TRG (i : Nat) : Fld := ⟨ADC_TRGMAP_PWM i, 0, 32⟩

/-- ADC_TRGMAP_CAP, 07_conversion.md. -/
def ADC_TRGMAP_CAP (i : Nat) : Nat := 0x100540 + i * 0x4
def ADC_TRGMAP_CAP_EDGE (i : Nat) : Fld := ⟨ADC_TRGMAP_CAP i, 0, 32⟩

/-- ADC_URG, 07_conversion.md. -/
def ADC_URG (i : Nat) : Nat := 0x100580 + i * 0x4
def ADC_URG_URG_GO (i : Nat) : Fld := ⟨ADC_URG i, 31, 1⟩
def ADC_URG_GAIN (i : Nat) : Fld := ⟨ADC_URG i, 16, 3⟩
def ADC_URG_SAMP (i : Nat) : Fld := ⟨ADC_URG i, 8, 8⟩
def ADC_URG_INPUT (i : Nat) : Fld := ⟨ADC_URG i, 0, 4⟩

/-- ADC_URG_RES, 07_conversion.md. -/
def ADC_URG_RES (i : Nat) : Nat := 0x1005C0 + i * 0x4
def ADC_URG_RES_VALID (i : Nat) : Fld := ⟨ADC_URG_RES i, 31, 1⟩
def ADC_URG_RES_SAT (i : Nat) : Fld := ⟨ADC_URG_RES i, 16, 1⟩
def ADC_URG_RES_VALUE (i : Nat) : Fld := ⟨ADC_URG_RES i, 0, 16⟩

/-- ADC_RES, 07_conversion.md. -/
def ADC_RES (i j : Nat) : Nat := 0x100C00 + i * 0x40 + j * 0x4
def ADC_RES_TAG (i j : Nat) : Fld := ⟨ADC_RES i j, 24, 8⟩
def ADC_RES_SAT (i j : Nat) : Fld := ⟨ADC_RES i j, 16, 1⟩
def ADC_RES_VALUE (i j : Nat) : Fld := ⟨ADC_RES i j, 0, 16⟩

/-- ADC_STATUS, 07_conversion.md. -/
def ADC_STATUS : Nat := 0x100600
def ADC_STATUS_COVERED : Fld := ⟨ADC_STATUS, 16, 16⟩
def ADC_STATUS_BUSY : Fld := ⟨ADC_STATUS, 0, 16⟩

/-- ADC_FLAGS, 07_conversion.md. -/
def ADC_FLAGS : Nat := 0x100604
def ADC_FLAGS_CAL_REFUSED : Fld := ⟨ADC_FLAGS, 10, 1⟩
def ADC_FLAGS_CAL_FAIL : Fld := ⟨ADC_FLAGS, 9, 1⟩
def ADC_FLAGS_CAL_DONE : Fld := ⟨ADC_FLAGS, 8, 1⟩
def ADC_FLAGS_PLS_STALE : Fld := ⟨ADC_FLAGS, 7, 1⟩
def ADC_FLAGS_PLS_DISAGREE : Fld := ⟨ADC_FLAGS, 6, 1⟩
def ADC_FLAGS_SAT : Fld := ⟨ADC_FLAGS, 5, 1⟩
def ADC_FLAGS_URG_DROP : Fld := ⟨ADC_FLAGS, 4, 1⟩
def ADC_FLAGS_GO_OVERLAP : Fld := ⟨ADC_FLAGS, 3, 1⟩
def ADC_FLAGS_VALUE_REFUSED : Fld := ⟨ADC_FLAGS, 2, 1⟩
def ADC_FLAGS_WRITE_REFUSED : Fld := ⟨ADC_FLAGS, 1, 1⟩
def ADC_FLAGS_LATE_WRITE : Fld := ⟨ADC_FLAGS, 0, 1⟩

/-- ADC_CNT, 07_conversion.md. -/
def ADC_CNT (i : Nat) : Nat := 0x100640 + i * 0x4
def ADC_CNT_GO_OVERLAP_CNT (i : Nat) : Fld := ⟨ADC_CNT i, 16, 16⟩
def ADC_CNT_URG_DROP_CNT (i : Nat) : Fld := ⟨ADC_CNT i, 0, 16⟩

/-- ADC_PLS_STAT, 07_conversion.md. -/
def ADC_PLS_STAT (i : Nat) : Nat := 0x1006A0 + i * 0x4
def ADC_PLS_STAT_DIS_CNT (i : Nat) : Fld := ⟨ADC_PLS_STAT i, 16, 16⟩
def ADC_PLS_STAT_CONSEC (i : Nat) : Fld := ⟨ADC_PLS_STAT i, 8, 8⟩
def ADC_PLS_STAT_FAILED (i : Nat) : Fld := ⟨ADC_PLS_STAT i, 1, 1⟩
def ADC_PLS_STAT_SUSPENDED (i : Nat) : Fld := ⟨ADC_PLS_STAT i, 0, 1⟩

/-- ADC_PLS_OTP0, 07_conversion.md. -/
def ADC_PLS_OTP0 : Nat := 0x1006C0
def ADC_PLS_OTP0_PLS_LIMIT : Fld := ⟨ADC_PLS_OTP0, 24, 8⟩
def ADC_PLS_OTP0_TOL : Fld := ⟨ADC_PLS_OTP0, 0, 12⟩

/-- ADC_PLS_OTP1, 07_conversion.md. -/
def ADC_PLS_OTP1 : Nat := 0x1006C4
def ADC_PLS_OTP1_PLS_HI : Fld := ⟨ADC_PLS_OTP1, 16, 16⟩
def ADC_PLS_OTP1_PLS_LO : Fld := ⟨ADC_PLS_OTP1, 0, 16⟩

/-- ADC_CAL_CTRL, 07_conversion.md. -/
def ADC_CAL_CTRL : Nat := 0x1006E0
def ADC_CAL_CTRL_START : Fld := ⟨ADC_CAL_CTRL, 31, 1⟩
def ADC_CAL_CTRL_END_COVER : Fld := ⟨ADC_CAL_CTRL, 30, 1⟩
def ADC_CAL_CTRL_TARGET : Fld := ⟨ADC_CAL_CTRL, 16, 4⟩
def ADC_CAL_CTRL_REFUSE : Fld := ⟨ADC_CAL_CTRL, 8, 4⟩
def ADC_CAL_CTRL_FAIL : Fld := ⟨ADC_CAL_CTRL, 4, 4⟩
def ADC_CAL_CTRL_STATE : Fld := ⟨ADC_CAL_CTRL, 0, 3⟩

/-- ADC_CAL, 07_conversion.md. -/
def ADC_CAL (i j : Nat) : Nat := 0x100800 + i * 0x20 + j * 0x4
def ADC_CAL_GCORR (i j : Nat) : Fld := ⟨ADC_CAL i j, 16, 16⟩
def ADC_CAL_OFS (i j : Nat) : Fld := ⟨ADC_CAL i j, 0, 16⟩

/-- SDM_CLK, 07_conversion.md. -/
def SDM_CLK (i : Nat) : Nat := 0x110000 + i * 0x4
def SDM_CLK_EN (i : Nat) : Fld := ⟨SDM_CLK i, 31, 1⟩
def SDM_CLK_DIV (i : Nat) : Fld := ⟨SDM_CLK i, 0, 8⟩

/-- SDM_CFG, 07_conversion.md. -/
def SDM_CFG (i : Nat) : Nat := 0x110100 + i * 0x4
def SDM_CFG_EN (i : Nat) : Fld := ⟨SDM_CFG i, 31, 1⟩
def SDM_CFG_ALIGN_EN (i : Nat) : Fld := ⟨SDM_CFG i, 30, 1⟩
def SDM_CFG_ALIGN_STN (i : Nat) : Fld := ⟨SDM_CFG i, 28, 2⟩
def SDM_CFG_CLK (i : Nat) : Fld := ⟨SDM_CFG i, 24, 3⟩
def SDM_CFG_DLY (i : Nat) : Fld := ⟨SDM_CFG i, 16, 4⟩
def SDM_CFG_ORDER (i : Nat) : Fld := ⟨SDM_CFG i, 12, 3⟩
def SDM_CFG_DEC (i : Nat) : Fld := ⟨SDM_CFG i, 0, 11⟩

/-- SDM_SF_CFG, 07_conversion.md. -/
def SDM_SF_CFG (i : Nat) : Nat := 0x110200 + i * 0x4
def SDM_SF_CFG_EN (i : Nat) : Fld := ⟨SDM_SF_CFG i, 31, 1⟩
def SDM_SF_CFG_STATION (i : Nat) : Fld := ⟨SDM_SF_CFG i, 20, 2⟩
def SDM_SF_CFG_HB (i : Nat) : Fld := ⟨SDM_SF_CFG i, 16, 4⟩
def SDM_SF_CFG_SR (i : Nat) : Fld := ⟨SDM_SF_CFG i, 0, 6⟩

/-- SDM_SF_LIM, 07_conversion.md. -/
def SDM_SF_LIM (i : Nat) : Nat := 0x110300 + i * 0x4
def SDM_SF_LIM_HI (i : Nat) : Fld := ⟨SDM_SF_LIM i, 16, 16⟩
def SDM_SF_LIM_LO (i : Nat) : Fld := ⟨SDM_SF_LIM i, 0, 16⟩

/-- SDM_RES, 07_conversion.md. -/
def SDM_RES (i : Nat) : Nat := 0x110400 + i * 0x4
def SDM_RES_VALUE (i : Nat) : Fld := ⟨SDM_RES i, 0, 32⟩

/-- SDM_SETTLED, 07_conversion.md. -/
def SDM_SETTLED (i : Nat) : Nat := 0x110600 + i * 0x4
def SDM_SETTLED_SETTLED (i : Nat) : Fld := ⟨SDM_SETTLED i, 0, 32⟩

/-- SDM_NOTRANS, 07_conversion.md. -/
def SDM_NOTRANS (i : Nat) : Nat := 0x110608 + i * 0x4
def SDM_NOTRANS_NOTRANS (i : Nat) : Fld := ⟨SDM_NOTRANS i, 0, 32⟩

/-- SDM_FLAGS, 07_conversion.md. -/
def SDM_FLAGS : Nat := 0x110610
def SDM_FLAGS_ALIGN_WAIT : Fld := ⟨SDM_FLAGS, 4, 1⟩
def SDM_FLAGS_SF_LIMIT : Fld := ⟨SDM_FLAGS, 3, 1⟩
def SDM_FLAGS_NO_TRANSITION : Fld := ⟨SDM_FLAGS, 2, 1⟩
def SDM_FLAGS_VALUE_REFUSED : Fld := ⟨SDM_FLAGS, 1, 1⟩
def SDM_FLAGS_WRITE_REFUSED : Fld := ⟨SDM_FLAGS, 0, 1⟩

/-- AQR_CFG, 08_battery_rings.md. -/
def AQR_CFG (i j : Nat) : Nat := 0x200000 + i * 0x10000 + j * 0x1000
def AQR_CFG_EN (i j : Nat) : Fld := ⟨AQR_CFG i j, 31, 1⟩
def AQR_CFG_PROFILE (i j : Nat) : Fld := ⟨AQR_CFG i j, 26, 2⟩
def AQR_CFG_NODES (i j : Nat) : Fld := ⟨AQR_CFG i j, 16, 10⟩

/-- AQR_CTRL, 08_battery_rings.md. -/
def AQR_CTRL (i j : Nat) : Nat := 0x200004 + i * 0x10000 + j * 0x1000
def AQR_CTRL_REDISCOVER (i j : Nat) : Fld := ⟨AQR_CTRL i j, 1, 1⟩
def AQR_CTRL_SWEEP_NOW (i j : Nat) : Fld := ⟨AQR_CTRL i j, 0, 1⟩

/-- AQR_STALE_T, 08_battery_rings.md. -/
def AQR_STALE_T (i j : Nat) : Nat := 0x200020 + i * 0x10000 + j * 0x1000
def AQR_STALE_T_STALE_T (i j : Nat) : Fld := ⟨AQR_STALE_T i j, 0, 13⟩

/-- AQR_SWEEP, 08_battery_rings.md. -/
def AQR_SWEEP (i j : Nat) : Nat := 0x20001C + i * 0x10000 + j * 0x1000
def AQR_SWEEP_SWEEP_T (i j : Nat) : Fld := ⟨AQR_SWEEP i j, 22, 10⟩
def AQR_SWEEP_NPF (i j : Nat) : Fld := ⟨AQR_SWEEP i j, 15, 7⟩
def AQR_SWEEP_RES_EXTRA (i j : Nat) : Fld := ⟨AQR_SWEEP i j, 9, 6⟩
def AQR_SWEEP_SNAP_LEAD (i j : Nat) : Fld := ⟨AQR_SWEEP i j, 2, 7⟩
def AQR_SWEEP_SNAP_EN (i j : Nat) : Fld := ⟨AQR_SWEEP i j, 1, 1⟩

/-- AQR_STATE, 08_battery_rings.md. -/
def AQR_STATE (i j : Nat) : Nat := 0x200008 + i * 0x10000 + j * 0x1000
def AQR_STATE_FOUND (i j : Nat) : Fld := ⟨AQR_STATE i j, 16, 10⟩
def AQR_STATE_CROSS_PORT (i j : Nat) : Fld := ⟨AQR_STATE i j, 9, 6⟩
def AQR_STATE_SWEEPING (i j : Nat) : Fld := ⟨AQR_STATE i j, 8, 1⟩
def AQR_STATE_B_LOOP (i j : Nat) : Fld := ⟨AQR_STATE i j, 7, 1⟩
def AQR_STATE_B_POL_INV (i j : Nat) : Fld := ⟨AQR_STATE i j, 6, 1⟩
def AQR_STATE_A_POL_INV (i j : Nat) : Fld := ⟨AQR_STATE i j, 5, 1⟩
def AQR_STATE_NODES_UNKNOWN (i j : Nat) : Fld := ⟨AQR_STATE i j, 4, 1⟩
def AQR_STATE_SWAPPED (i j : Nat) : Fld := ⟨AQR_STATE i j, 3, 1⟩
def AQR_STATE_STATE (i j : Nat) : Fld := ⟨AQR_STATE i j, 0, 3⟩

/-- AQR_FLAGS, 08_battery_rings.md. -/
def AQR_FLAGS (i j : Nat) : Nat := 0x20000C + i * 0x10000 + j * 0x1000
def AQR_FLAGS_DUP_CELL (i j : Nat) : Fld := ⟨AQR_FLAGS i j, 16, 1⟩
def AQR_FLAGS_RESERVE_SHORT (i j : Nat) : Fld := ⟨AQR_FLAGS i j, 15, 1⟩
def AQR_FLAGS_END_SHORT (i j : Nat) : Fld := ⟨AQR_FLAGS i j, 14, 1⟩
def AQR_FLAGS_SWEEP_LATE (i j : Nat) : Fld := ⟨AQR_FLAGS i j, 13, 1⟩
def AQR_FLAGS_ALARM (i j : Nat) : Fld := ⟨AQR_FLAGS i j, 12, 1⟩
def AQR_FLAGS_CELL_LOST (i j : Nat) : Fld := ⟨AQR_FLAGS i j, 11, 1⟩
def AQR_FLAGS_NODE_STALE (i j : Nat) : Fld := ⟨AQR_FLAGS i j, 10, 1⟩
def AQR_FLAGS_NODE_REPLACED (i j : Nat) : Fld := ⟨AQR_FLAGS i j, 9, 1⟩
def AQR_FLAGS_COUNT_CHANGED (i j : Nat) : Fld := ⟨AQR_FLAGS i j, 8, 1⟩
def AQR_FLAGS_HEALED (i j : Nat) : Fld := ⟨AQR_FLAGS i j, 7, 1⟩
def AQR_FLAGS_SWAPPED_SEEN (i j : Nat) : Fld := ⟨AQR_FLAGS i j, 6, 1⟩
def AQR_FLAGS_CROSSED (i j : Nat) : Fld := ⟨AQR_FLAGS i j, 5, 1⟩
def AQR_FLAGS_SEGMENTED (i j : Nat) : Fld := ⟨AQR_FLAGS i j, 4, 1⟩
def AQR_FLAGS_RING_OPEN (i j : Nat) : Fld := ⟨AQR_FLAGS i j, 3, 1⟩
def AQR_FLAGS_VALUE_REFUSED (i j : Nat) : Fld := ⟨AQR_FLAGS i j, 2, 1⟩
def AQR_FLAGS_WRITE_REFUSED (i j : Nat) : Fld := ⟨AQR_FLAGS i j, 1, 1⟩
def AQR_FLAGS_LATE_WRITE (i j : Nat) : Fld := ⟨AQR_FLAGS i j, 0, 1⟩

/-- AQR_CNT0, 08_battery_rings.md. -/
def AQR_CNT0 (i j : Nat) : Nat := 0x200010 + i * 0x10000 + j * 0x1000
def AQR_CNT0_RETRY_CNT (i j : Nat) : Fld := ⟨AQR_CNT0 i j, 16, 16⟩
def AQR_CNT0_KILLED_CNT (i j : Nat) : Fld := ⟨AQR_CNT0 i j, 0, 16⟩

/-- AQR_CNT1, 08_battery_rings.md. -/
def AQR_CNT1 (i j : Nat) : Nat := 0x200014 + i * 0x10000 + j * 0x1000
def AQR_CNT1_CELL_LOST_CNT (i j : Nat) : Fld := ⟨AQR_CNT1 i j, 16, 16⟩
def AQR_CNT1_STALE_CNT (i j : Nat) : Fld := ⟨AQR_CNT1 i j, 0, 16⟩

/-- AQR_CNT2, 08_battery_rings.md. -/
def AQR_CNT2 (i j : Nat) : Nat := 0x200018 + i * 0x10000 + j * 0x1000
def AQR_CNT2_SWEEP_LATE_CNT (i j : Nat) : Fld := ⟨AQR_CNT2 i j, 16, 16⟩
def AQR_CNT2_ALARM_CNT (i j : Nat) : Fld := ⟨AQR_CNT2 i j, 0, 16⟩

/-- AQR_SWEEP_STAT, 08_battery_rings.md. -/
def AQR_SWEEP_STAT (i j : Nat) : Nat := 0x200024 + i * 0x10000 + j * 0x1000
def AQR_SWEEP_STAT_SWEEP_COUNT (i j : Nat) : Fld := ⟨AQR_SWEEP_STAT i j, 16, 16⟩
def AQR_SWEEP_STAT_LAST_T (i j : Nat) : Fld := ⟨AQR_SWEEP_STAT i j, 0, 16⟩

/-- AQR_BREAK, 08_battery_rings.md. -/
def AQR_BREAK (i j : Nat) : Nat := 0x200028 + i * 0x10000 + j * 0x1000
def AQR_BREAK_BREAK_A (i j : Nat) : Fld := ⟨AQR_BREAK i j, 16, 10⟩
def AQR_BREAK_BREAK_B (i j : Nat) : Fld := ⟨AQR_BREAK i j, 0, 10⟩

/-- AQR_ALARM, 08_battery_rings.md. -/
def AQR_ALARM (i j : Nat) : Nat := 0x20002C + i * 0x10000 + j * 0x1000
def AQR_ALARM_VALID (i j : Nat) : Fld := ⟨AQR_ALARM i j, 31, 1⟩
def AQR_ALARM_NODE (i j : Nat) : Fld := ⟨AQR_ALARM i j, 16, 9⟩
def AQR_ALARM_CODE (i j : Nat) : Fld := ⟨AQR_ALARM i j, 0, 7⟩

/-- AQR_FIRST_UID, 08_battery_rings.md. -/
def AQR_FIRST_UID (i j : Nat) : Nat := 0x200030 + i * 0x10000 + j * 0x1000
def AQR_FIRST_UID_UID (i j : Nat) : Fld := ⟨AQR_FIRST_UID i j, 0, 32⟩

/-- AQR_LAST_UID, 08_battery_rings.md. -/
def AQR_LAST_UID (i j : Nat) : Nat := 0x200034 + i * 0x10000 + j * 0x1000
def AQR_LAST_UID_UID (i j : Nat) : Fld := ⟨AQR_LAST_UID i j, 0, 32⟩

/-- AQR_ROSTER, 08_battery_rings.md. -/
def AQR_ROSTER (i j k : Nat) : Nat := 0x200800 + i * 0x10000 + j * 0x1000 + k * 0x4
def AQR_ROSTER_UID (i j k : Nat) : Fld := ⟨AQR_ROSTER i j k, 0, 32⟩

/-- AQR_CMD_HDR, 08_battery_rings.md. -/
def AQR_CMD_HDR (i j : Nat) : Nat := 0x200040 + i * 0x10000 + j * 0x1000
def AQR_CMD_HDR_OP (i j : Nat) : Fld := ⟨AQR_CMD_HDR i j, 24, 5⟩
def AQR_CMD_HDR_NODE (i j : Nat) : Fld := ⟨AQR_CMD_HDR i j, 15, 9⟩
def AQR_CMD_HDR_COUNT (i j : Nat) : Fld := ⟨AQR_CMD_HDR i j, 8, 6⟩

/-- AQR_CMD_ARG, 08_battery_rings.md. -/
def AQR_CMD_ARG (i j : Nat) : Nat := 0x200044 + i * 0x10000 + j * 0x1000
def AQR_CMD_ARG_ARG (i j : Nat) : Fld := ⟨AQR_CMD_ARG i j, 0, 32⟩

/-- AQR_CMD_CTRL, 08_battery_rings.md. -/
def AQR_CMD_CTRL (i j : Nat) : Nat := 0x200048 + i * 0x10000 + j * 0x1000
def AQR_CMD_CTRL_NDATA (i j : Nat) : Fld := ⟨AQR_CMD_CTRL i j, 8, 5⟩
def AQR_CMD_CTRL_GO (i j : Nat) : Fld := ⟨AQR_CMD_CTRL i j, 0, 1⟩

/-- AQR_CMD_RES, 08_battery_rings.md. -/
def AQR_CMD_RES (i j : Nat) : Nat := 0x20004C + i * 0x10000 + j * 0x1000
def AQR_CMD_RES_DONE (i j : Nat) : Fld := ⟨AQR_CMD_RES i j, 31, 1⟩
def AQR_CMD_RES_RESULT (i j : Nat) : Fld := ⟨AQR_CMD_RES i j, 28, 3⟩
def AQR_CMD_RES_NODE_RESULT (i j : Nat) : Fld := ⟨AQR_CMD_RES i j, 0, 8⟩

/-- AQR_CMD_DATA, 08_battery_rings.md. -/
def AQR_CMD_DATA (i j k : Nat) : Nat := 0x200080 + i * 0x10000 + j * 0x1000 + k * 0x4
def AQR_CMD_DATA_DATA (i j k : Nat) : Fld := ⟨AQR_CMD_DATA i j k, 0, 32⟩

/-- AQR_NODE_STALE, 08_battery_rings.md. -/
def AQR_NODE_STALE (i j k : Nat) : Nat := 0x200100 + i * 0x10000 + j * 0x1000 + k * 0x4
def AQR_NODE_STALE_NODE (i j k : Nat) : Fld := ⟨AQR_NODE_STALE i j k, 0, 32⟩

/-- AQR_NODE_PRESENT, 08_battery_rings.md. -/
def AQR_NODE_PRESENT (i j k : Nat) : Nat := 0x200140 + i * 0x10000 + j * 0x1000 + k * 0x4
def AQR_NODE_PRESENT_NODE (i j k : Nat) : Fld := ⟨AQR_NODE_PRESENT i j k, 0, 32⟩

/-- SHF_CTRL, 08_battery_rings.md. -/
def SHF_CTRL : Nat := 0x1F0000
def SHF_CTRL_CLR_ALL : Fld := ⟨SHF_CTRL, 31, 1⟩
def SHF_CTRL_CLR_RING : Fld := ⟨SHF_CTRL, 30, 1⟩
def SHF_CTRL_RING : Fld := ⟨SHF_CTRL, 0, 6⟩

/-- SHF_STATUS, 08_battery_rings.md. -/
def SHF_STATUS : Nat := 0x1F0004
def SHF_STATUS_INIT_DONE : Fld := ⟨SHF_STATUS, 0, 1⟩

/-- SHF_FLAGS, 08_battery_rings.md. -/
def SHF_FLAGS : Nat := 0x1F0008
def SHF_FLAGS_LATE_WRITE : Fld := ⟨SHF_FLAGS, 1, 1⟩
def SHF_FLAGS_DROP : Fld := ⟨SHF_FLAGS, 0, 1⟩

/-- SHF_DROP_CNT, 08_battery_rings.md. -/
def SHF_DROP_CNT : Nat := 0x1F000C
def SHF_DROP_CNT_SHF_DROP_CNT : Fld := ⟨SHF_DROP_CNT, 0, 16⟩

/-- SHF_AGG0, 08_battery_rings.md. -/
def SHF_AGG0 (i : Nat) : Nat := 0x1F1000 + i * 0x40
def SHF_AGG0_VMIN (i : Nat) : Fld := ⟨SHF_AGG0 i, 16, 16⟩
def SHF_AGG0_VMAX (i : Nat) : Fld := ⟨SHF_AGG0 i, 0, 16⟩

/-- SHF_AGG1, 08_battery_rings.md. -/
def SHF_AGG1 (i : Nat) : Nat := 0x1F1004 + i * 0x40
def SHF_AGG1_TMIN (i : Nat) : Fld := ⟨SHF_AGG1 i, 16, 16⟩
def SHF_AGG1_TMAX (i : Nat) : Fld := ⟨SHF_AGG1 i, 0, 16⟩

/-- SHF_AGG2, 08_battery_rings.md. -/
def SHF_AGG2 (i : Nat) : Nat := 0x1F1008 + i * 0x40
def SHF_AGG2_NODE (i : Nat) : Fld := ⟨SHF_AGG2 i, 16, 9⟩
def SHF_AGG2_POINT (i : Nat) : Fld := ⟨SHF_AGG2 i, 0, 8⟩

/-- SHF_AGG3, 08_battery_rings.md. -/
def SHF_AGG3 (i : Nat) : Nat := 0x1F100C + i * 0x40
def SHF_AGG3_NODE (i : Nat) : Fld := ⟨SHF_AGG3 i, 16, 9⟩
def SHF_AGG3_POINT (i : Nat) : Fld := ⟨SHF_AGG3 i, 0, 8⟩

/-- SHF_AGG4, 08_battery_rings.md. -/
def SHF_AGG4 (i : Nat) : Nat := 0x1F1010 + i * 0x40
def SHF_AGG4_NODE (i : Nat) : Fld := ⟨SHF_AGG4 i, 16, 9⟩
def SHF_AGG4_POINT (i : Nat) : Fld := ⟨SHF_AGG4 i, 0, 8⟩

/-- SHF_AGG5, 08_battery_rings.md. -/
def SHF_AGG5 (i : Nat) : Nat := 0x1F1014 + i * 0x40
def SHF_AGG5_NODE (i : Nat) : Fld := ⟨SHF_AGG5 i, 16, 9⟩
def SHF_AGG5_POINT (i : Nat) : Fld := ⟨SHF_AGG5 i, 0, 8⟩

/-- SHF_AGG6, 08_battery_rings.md. -/
def SHF_AGG6 (i : Nat) : Nat := 0x1F1018 + i * 0x40
def SHF_AGG6_VSUM (i : Nat) : Fld := ⟨SHF_AGG6 i, 0, 32⟩

/-- SHF_AGG7, 08_battery_rings.md. -/
def SHF_AGG7 (i : Nat) : Nat := 0x1F101C + i * 0x40
def SHF_AGG7_SWEEP (i : Nat) : Fld := ⟨SHF_AGG7 i, 24, 8⟩
def SHF_AGG7_AGG_STALE (i : Nat) : Fld := ⟨SHF_AGG7 i, 23, 1⟩
def SHF_AGG7_N_CELL (i : Nat) : Fld := ⟨SHF_AGG7 i, 0, 17⟩

/-- SHF_AGG8, 08_battery_rings.md. -/
def SHF_AGG8 (i : Nat) : Nat := 0x1F1020 + i * 0x40
def SHF_AGG8_N_STALE (i : Nat) : Fld := ⟨SHF_AGG8 i, 0, 17⟩
def SHF_AGG8_N_MISSED (i : Nat) : Fld := ⟨SHF_AGG8 i, 17, 15⟩

/-- SHF_PCLASS, 08_battery_rings.md. -/
def SHF_PCLASS (i j : Nat) : Nat := 0x1F2000 + i * 0x40 + j * 0x4
def SHF_PCLASS_CLASS (i j : Nat) : Fld := ⟨SHF_PCLASS i j, 0, 32⟩

/-- CHS_CTRL, 09_chest.md. -/
def CHS_CTRL : Nat := 0x1D0000
def CHS_CTRL_FORCE : Fld := ⟨CHS_CTRL, 2, 1⟩
def CHS_CTRL_STOP : Fld := ⟨CHS_CTRL, 1, 1⟩
def CHS_CTRL_ARM : Fld := ⟨CHS_CTRL, 0, 1⟩

/-- CHS_CFG, 09_chest.md. -/
def CHS_CFG : Nat := 0x1D0004
def CHS_CFG_POST_TMO : Fld := ⟨CHS_CFG, 16, 16⟩
def CHS_CFG_EVLOG_EN : Fld := ⟨CHS_CFG, 2, 1⟩
def CHS_CFG_PRE_WAIT : Fld := ⟨CHS_CFG, 1, 1⟩
def CHS_CFG_MODE : Fld := ⟨CHS_CFG, 0, 1⟩

/-- CHS_STATUS, 09_chest.md. -/
def CHS_STATUS : Nat := 0x1D0008
def CHS_STATUS_SEG : Fld := ⟨CHS_STATUS, 16, 16⟩
def CHS_STATUS_ARM_REFUSE : Fld := ⟨CHS_STATUS, 12, 4⟩
def CHS_STATUS_STATE : Fld := ⟨CHS_STATUS, 0, 3⟩

/-- CHS_FLAGS, 09_chest.md. -/
def CHS_FLAGS : Nat := 0x1D000C
def CHS_FLAGS_EVLOG_WRAP : Fld := ⟨CHS_FLAGS, 10, 1⟩
def CHS_FLAGS_POST_TIMEOUT : Fld := ⟨CHS_FLAGS, 9, 1⟩
def CHS_FLAGS_PRE_SHORT : Fld := ⟨CHS_FLAGS, 8, 1⟩
def CHS_FLAGS_TRG_MISSED : Fld := ⟨CHS_FLAGS, 7, 1⟩
def CHS_FLAGS_GAP_OVF : Fld := ⟨CHS_FLAGS, 6, 1⟩
def CHS_FLAGS_GAP : Fld := ⟨CHS_FLAGS, 5, 1⟩
def CHS_FLAGS_RUN_DONE : Fld := ⟨CHS_FLAGS, 4, 1⟩
def CHS_FLAGS_SEG_DONE : Fld := ⟨CHS_FLAGS, 3, 1⟩
def CHS_FLAGS_ARM_REFUSED : Fld := ⟨CHS_FLAGS, 2, 1⟩
def CHS_FLAGS_WRITE_REFUSED : Fld := ⟨CHS_FLAGS, 1, 1⟩
def CHS_FLAGS_LATE_WRITE : Fld := ⟨CHS_FLAGS, 0, 1⟩

/-- CHS_CNT0, 09_chest.md. -/
def CHS_CNT0 : Nat := 0x1D0010
def CHS_CNT0_TRG_BUSY_CNT : Fld := ⟨CHS_CNT0, 16, 16⟩
def CHS_CNT0_TRG_REARM_CNT : Fld := ⟨CHS_CNT0, 0, 16⟩

/-- CHS_CNT1, 09_chest.md. -/
def CHS_CNT1 : Nat := 0x1D0014
def CHS_CNT1_GAP_CNT : Fld := ⟨CHS_CNT1, 16, 16⟩
def CHS_CNT1_SEG_DONE_CNT : Fld := ⟨CHS_CNT1, 0, 16⟩

/-- CHS_AREA, 09_chest.md. -/
def CHS_AREA : Nat := 0x1D0018
def CHS_AREA_REC_SIZE : Fld := ⟨CHS_AREA, 16, 11⟩
def CHS_AREA_REC_BASE : Fld := ⟨CHS_AREA, 0, 11⟩

/-- CHS_SEG_LEN, 09_chest.md. -/
def CHS_SEG_LEN : Nat := 0x1D001C
def CHS_SEG_LEN_SEG_LEN : Fld := ⟨CHS_SEG_LEN, 0, 25⟩

/-- CHS_PRE, 09_chest.md. -/
def CHS_PRE : Nat := 0x1D0020
def CHS_PRE_PRE : Fld := ⟨CHS_PRE, 0, 24⟩

/-- CHS_SEGS, 09_chest.md. -/
def CHS_SEGS : Nat := 0x1D0024
def CHS_SEGS_SEGS_M1 : Fld := ⟨CHS_SEGS, 0, 16⟩

/-- CHS_SLOT, 09_chest.md. -/
def CHS_SLOT : Nat := 0x1D0028
def CHS_SLOT_SLOT : Fld := ⟨CHS_SLOT, 0, 32⟩

/-- CHS_TRG, 09_chest.md. -/
def CHS_TRG (i : Nat) : Nat := 0x1D0040 + i * 0x4
def CHS_TRG_EN (i : Nat) : Fld := ⟨CHS_TRG i, 31, 1⟩
def CHS_TRG_TYPE (i : Nat) : Fld := ⟨CHS_TRG i, 28, 3⟩
def CHS_TRG_EDGE (i : Nat) : Fld := ⟨CHS_TRG i, 26, 2⟩
def CHS_TRG_SEL (i : Nat) : Fld := ⟨CHS_TRG i, 0, 7⟩

/-- CHS_TRG_LEVEL, 09_chest.md. -/
def CHS_TRG_LEVEL (i : Nat) : Nat := 0x1D0060 + i * 0x4
def CHS_TRG_LEVEL_LEVEL (i : Nat) : Fld := ⟨CHS_TRG_LEVEL i, 0, 32⟩

/-- CHS_TRG_AUX, 09_chest.md. -/
def CHS_TRG_AUX (i : Nat) : Nat := 0x1D0080 + i * 0x4
def CHS_TRG_AUX_AUX (i : Nat) : Fld := ⟨CHS_TRG_AUX i, 0, 32⟩

/-- CHS_STR_CFG, 09_chest.md. -/
def CHS_STR_CFG (i : Nat) : Nat := 0x1D0100 + i * 0x4
def CHS_STR_CFG_EN (i : Nat) : Fld := ⟨CHS_STR_CFG i, 31, 1⟩
def CHS_STR_CFG_SRC_TYPE (i : Nat) : Fld := ⟨CHS_STR_CFG i, 29, 2⟩
def CHS_STR_CFG_SRC_INDEX (i : Nat) : Fld := ⟨CHS_STR_CFG i, 16, 10⟩
def CHS_STR_CFG_REDUCE (i : Nat) : Fld := ⟨CHS_STR_CFG i, 0, 16⟩

/-- DMA_CTRL, 10_dma_check_values.md. -/
def DMA_CTRL : Nat := 0x1B0000
def DMA_CTRL_CLEAR_HALT : Fld := ⟨DMA_CTRL, 0, 1⟩

/-- DMA_STATUS, 10_dma_check_values.md. -/
def DMA_STATUS : Nat := 0x1B0004
def DMA_STATUS_BUSY : Fld := ⟨DMA_STATUS, 16, 16⟩
def DMA_STATUS_OUTSTANDING : Fld := ⟨DMA_STATUS, 8, 6⟩
def DMA_STATUS_HALTED : Fld := ⟨DMA_STATUS, 0, 1⟩

/-- DMA_ERR, 10_dma_check_values.md. -/
def DMA_ERR : Nat := 0x1B000C
def DMA_ERR_CODE : Fld := ⟨DMA_ERR, 28, 4⟩
def DMA_ERR_CH_VALID : Fld := ⟨DMA_ERR, 4, 1⟩
def DMA_ERR_CH : Fld := ⟨DMA_ERR, 0, 4⟩

/-- DMA_ERR_ADDR, 10_dma_check_values.md. -/
def DMA_ERR_ADDR : Nat := 0x1B0010
def DMA_ERR_ADDR_ADDR : Fld := ⟨DMA_ERR_ADDR, 0, 32⟩

/-- DMA_FLAGS, 10_dma_check_values.md. -/
def DMA_FLAGS : Nat := 0x1B0008
def DMA_FLAGS_BURST_STALL : Fld := ⟨DMA_FLAGS, 3, 1⟩
def DMA_FLAGS_DESC_ERR : Fld := ⟨DMA_FLAGS, 2, 1⟩
def DMA_FLAGS_HALT : Fld := ⟨DMA_FLAGS, 1, 1⟩
def DMA_FLAGS_WRITE_REFUSED : Fld := ⟨DMA_FLAGS, 0, 1⟩

/-- DMA_CNT, 10_dma_check_values.md. -/
def DMA_CNT : Nat := 0x1B0014
def DMA_CNT_BURST_STALL_CNT : Fld := ⟨DMA_CNT, 16, 16⟩
def DMA_CNT_DESC_ERR_CNT : Fld := ⟨DMA_CNT, 0, 16⟩

/-- DMA_DONE, 10_dma_check_values.md. -/
def DMA_DONE : Nat := 0x1B0018
def DMA_DONE_DONE : Fld := ⟨DMA_DONE, 0, 16⟩

/-- CH_DESC, 10_dma_check_values.md. -/
def CH_DESC (i : Nat) : Nat := 0x1B0100 + i * 0x10
def CH_DESC_ADDR (i : Nat) : Fld := ⟨CH_DESC i, 6, 26⟩

/-- CH_CTRL, 10_dma_check_values.md. -/
def CH_CTRL (i : Nat) : Nat := 0x1B0104 + i * 0x10
def CH_CTRL_STOP_REQ (i : Nat) : Fld := ⟨CH_CTRL i, 1, 1⟩
def CH_CTRL_START (i : Nat) : Fld := ⟨CH_CTRL i, 0, 1⟩

/-- CH_STATUS, 10_dma_check_values.md. -/
def CH_STATUS (i : Nat) : Nat := 0x1B0108 + i * 0x10
def CH_STATUS_DERR (i : Nat) : Fld := ⟨CH_STATUS i, 8, 4⟩
def CH_STATUS_CVU_WAIT (i : Nat) : Fld := ⟨CH_STATUS i, 7, 1⟩
def CH_STATUS_STATE (i : Nat) : Fld := ⟨CH_STATUS i, 0, 3⟩

/-- CH_DONE_CNT, 10_dma_check_values.md. -/
def CH_DONE_CNT (i : Nat) : Nat := 0x1B010C + i * 0x10
def CH_DONE_CNT_CH_DONE_CNT (i : Nat) : Fld := ⟨CH_DONE_CNT i, 0, 16⟩

/-- CVU_CFG, 10_dma_check_values.md. -/
def CVU_CFG (i : Nat) : Nat := 0x1C0000 + i * 0x40
def CVU_CFG_BOUND (i : Nat) : Fld := ⟨CVU_CFG i, 21, 1⟩
def CVU_CFG_BOUND_CH (i : Nat) : Fld := ⟨CVU_CFG i, 17, 4⟩
def CVU_CFG_BUSY (i : Nat) : Fld := ⟨CVU_CFG i, 16, 1⟩
def CVU_CFG_MODE (i : Nat) : Fld := ⟨CVU_CFG i, 12, 1⟩
def CVU_CFG_FINV (i : Nat) : Fld := ⟨CVU_CFG i, 10, 1⟩
def CVU_CFG_REFOUT (i : Nat) : Fld := ⟨CVU_CFG i, 9, 1⟩
def CVU_CFG_REFIN (i : Nat) : Fld := ⟨CVU_CFG i, 8, 1⟩
def CVU_CFG_WIDTH (i : Nat) : Fld := ⟨CVU_CFG i, 0, 6⟩

/-- CVU_CTRL, 10_dma_check_values.md. -/
def CVU_CTRL (i : Nat) : Nat := 0x1C0004 + i * 0x40
def CVU_CTRL_LOAD_INIT (i : Nat) : Fld := ⟨CVU_CTRL i, 0, 1⟩

/-- CVU_POLY_LO, 10_dma_check_values.md. -/
def CVU_POLY_LO (i : Nat) : Nat := 0x1C0008 + i * 0x40
def CVU_POLY_LO_VALUE (i : Nat) : Fld := ⟨CVU_POLY_LO i, 0, 32⟩

/-- CVU_POLY_HI, 10_dma_check_values.md. -/
def CVU_POLY_HI (i : Nat) : Nat := 0x1C000C + i * 0x40
def CVU_POLY_HI_VALUE (i : Nat) : Fld := ⟨CVU_POLY_HI i, 0, 32⟩

/-- CVU_INIT_LO, 10_dma_check_values.md. -/
def CVU_INIT_LO (i : Nat) : Nat := 0x1C0010 + i * 0x40
def CVU_INIT_LO_VALUE (i : Nat) : Fld := ⟨CVU_INIT_LO i, 0, 32⟩

/-- CVU_INIT_HI, 10_dma_check_values.md. -/
def CVU_INIT_HI (i : Nat) : Nat := 0x1C0014 + i * 0x40
def CVU_INIT_HI_VALUE (i : Nat) : Fld := ⟨CVU_INIT_HI i, 0, 32⟩

/-- CVU_VALUE_LO, 10_dma_check_values.md. -/
def CVU_VALUE_LO (i : Nat) : Nat := 0x1C0018 + i * 0x40
def CVU_VALUE_LO_VALUE (i : Nat) : Fld := ⟨CVU_VALUE_LO i, 0, 32⟩

/-- CVU_VALUE_HI, 10_dma_check_values.md. -/
def CVU_VALUE_HI (i : Nat) : Nat := 0x1C001C + i * 0x40
def CVU_VALUE_HI_VALUE (i : Nat) : Fld := ⟨CVU_VALUE_HI i, 0, 32⟩

/-- CVU_RESULT_LO, 10_dma_check_values.md. -/
def CVU_RESULT_LO (i : Nat) : Nat := 0x1C0020 + i * 0x40
def CVU_RESULT_LO_VALUE (i : Nat) : Fld := ⟨CVU_RESULT_LO i, 0, 32⟩

/-- CVU_RESULT_HI, 10_dma_check_values.md. -/
def CVU_RESULT_HI (i : Nat) : Nat := 0x1C0024 + i * 0x40
def CVU_RESULT_HI_VALUE (i : Nat) : Fld := ⟨CVU_RESULT_HI i, 0, 32⟩

/-- CVU_DATA8, 10_dma_check_values.md. -/
def CVU_DATA8 (i : Nat) : Nat := 0x1C0028 + i * 0x40
def CVU_DATA8_VALUE (i : Nat) : Fld := ⟨CVU_DATA8 i, 0, 32⟩

/-- CVU_DATA16, 10_dma_check_values.md. -/
def CVU_DATA16 (i : Nat) : Nat := 0x1C002C + i * 0x40
def CVU_DATA16_VALUE (i : Nat) : Fld := ⟨CVU_DATA16 i, 0, 32⟩

/-- CVU_DATA32, 10_dma_check_values.md. -/
def CVU_DATA32 (i : Nat) : Nat := 0x1C0030 + i * 0x40
def CVU_DATA32_VALUE (i : Nat) : Fld := ⟨CVU_DATA32 i, 0, 32⟩

/-- CVU_FLAGS, 10_dma_check_values.md. -/
def CVU_FLAGS : Nat := 0x1C0400
def CVU_FLAGS_REFUSED_UNIT : Fld := ⟨CVU_FLAGS, 8, 8⟩
def CVU_FLAGS_WRITE_REFUSED : Fld := ⟨CVU_FLAGS, 0, 1⟩

/-- TIM_NS, 11_time.md. -/
def TIM_NS : Nat := 0x70000
def TIM_NS_NS : Fld := ⟨TIM_NS, 0, 30⟩

/-- TIM_S_LO, 11_time.md. -/
def TIM_S_LO : Nat := 0x70004
def TIM_S_LO_S : Fld := ⟨TIM_S_LO, 0, 32⟩

/-- TIM_S_HI, 11_time.md. -/
def TIM_S_HI : Nat := 0x70008
def TIM_S_HI_S : Fld := ⟨TIM_S_HI, 0, 16⟩

/-- TIM_FREE, 11_time.md. -/
def TIM_FREE : Nat := 0x7000C
def TIM_FREE_FREE : Fld := ⟨TIM_FREE, 0, 32⟩

/-- TIM_INCR, 11_time.md. -/
def TIM_INCR : Nat := 0x70010
def TIM_INCR_INCR : Fld := ⟨TIM_INCR, 0, 32⟩

/-- TIM_STEP_LO, 11_time.md. -/
def TIM_STEP_LO : Nat := 0x70014
def TIM_STEP_LO_STEP : Fld := ⟨TIM_STEP_LO, 0, 32⟩

/-- TIM_STEP_HI, 11_time.md. -/
def TIM_STEP_HI : Nat := 0x70018
def TIM_STEP_HI_STEP : Fld := ⟨TIM_STEP_HI, 0, 32⟩

/-- TIM_EST_WIN, 11_time.md. -/
def TIM_EST_WIN : Nat := 0x7001C
def TIM_EST_WIN_W : Fld := ⟨TIM_EST_WIN, 0, 32⟩

/-- TIM_AON_LO, 11_time.md. -/
def TIM_AON_LO : Nat := 0x70034
def TIM_AON_LO_AON : Fld := ⟨TIM_AON_LO, 0, 32⟩

/-- TIM_AON_HI, 11_time.md. -/
def TIM_AON_HI : Nat := 0x70038
def TIM_AON_HI_AON : Fld := ⟨TIM_AON_HI, 0, 16⟩

/-- TIM_LAST_SLEEP, 11_time.md. -/
def TIM_LAST_SLEEP : Nat := 0x7003C
def TIM_LAST_SLEEP_N : Fld := ⟨TIM_LAST_SLEEP, 0, 32⟩

/-- TIM_CTRL, 11_time.md. -/
def TIM_CTRL : Nat := 0x70020
def TIM_CTRL_CLR_EST : Fld := ⟨TIM_CTRL, 0, 1⟩

/-- TIM_STATUS, 11_time.md. -/
def TIM_STATUS : Nat := 0x70024
def TIM_STATUS_STEP_PENDING : Fld := ⟨TIM_STATUS, 2, 1⟩
def TIM_STATUS_UNSET : Fld := ⟨TIM_STATUS, 1, 1⟩
def TIM_STATUS_TIME_ESTIMATED : Fld := ⟨TIM_STATUS, 0, 1⟩

/-- TIM_FLAGS, 11_time.md. -/
def TIM_FLAGS : Nat := 0x70028
def TIM_FLAGS_CAP_OVF : Fld := ⟨TIM_FLAGS, 6, 1⟩
def TIM_FLAGS_CLK_SWITCH : Fld := ⟨TIM_FLAGS, 5, 1⟩
def TIM_FLAGS_WAKE_ADDED : Fld := ⟨TIM_FLAGS, 4, 1⟩
def TIM_FLAGS_STEP_DONE : Fld := ⟨TIM_FLAGS, 3, 1⟩
def TIM_FLAGS_STEP_REFUSED : Fld := ⟨TIM_FLAGS, 2, 1⟩
def TIM_FLAGS_INCR_REFUSED : Fld := ⟨TIM_FLAGS, 1, 1⟩
def TIM_FLAGS_WRITE_REFUSED : Fld := ⟨TIM_FLAGS, 0, 1⟩

/-- TIM_CNT0, 11_time.md. -/
def TIM_CNT0 : Nat := 0x7002C
def TIM_CNT0_STEP_CNT : Fld := ⟨TIM_CNT0, 16, 16⟩
def TIM_CNT0_STEP_REFUSED_CNT : Fld := ⟨TIM_CNT0, 0, 16⟩

/-- TIM_CNT1, 11_time.md. -/
def TIM_CNT1 : Nat := 0x70030
def TIM_CNT1_CAP_OVF_CNT : Fld := ⟨TIM_CNT1, 16, 16⟩
def TIM_CNT1_CLK_SWITCH_CNT : Fld := ⟨TIM_CNT1, 0, 16⟩

/-- TIM_CAP_CFG, 11_time.md. -/
def TIM_CAP_CFG (i : Nat) : Nat := 0x70040 + i * 0x4
def TIM_CAP_CFG_FILT (i : Nat) : Fld := ⟨TIM_CAP_CFG i, 2, 8⟩
def TIM_CAP_CFG_EDGE (i : Nat) : Fld := ⟨TIM_CAP_CFG i, 0, 2⟩

/-- TIM_CAP_LO, 11_time.md. -/
def TIM_CAP_LO (i : Nat) : Nat := 0x70080 + i * 0x10
def TIM_CAP_LO_STAMP (i : Nat) : Fld := ⟨TIM_CAP_LO i, 0, 32⟩

/-- TIM_CAP_HI, 11_time.md. -/
def TIM_CAP_HI (i : Nat) : Nat := 0x70084 + i * 0x10
def TIM_CAP_HI_STAMP (i : Nat) : Fld := ⟨TIM_CAP_HI i, 0, 32⟩

/-- TIM_CAP_INFO, 11_time.md. -/
def TIM_CAP_INFO (i : Nat) : Nat := 0x70088 + i * 0x10
def TIM_CAP_INFO_VALID (i : Nat) : Fld := ⟨TIM_CAP_INFO i, 8, 1⟩
def TIM_CAP_INFO_RISING (i : Nat) : Fld := ⟨TIM_CAP_INFO i, 0, 1⟩

/-- TIM_CAP_STATUS, 11_time.md. -/
def TIM_CAP_STATUS : Nat := 0x70200
def TIM_CAP_STATUS_CAP_OVF : Fld := ⟨TIM_CAP_STATUS, 16, 16⟩
def TIM_CAP_STATUS_NONEMPTY : Fld := ⟨TIM_CAP_STATUS, 0, 16⟩

/-- RED_STATUS, 12_redundancy.md. -/
def RED_STATUS : Nat := 0x180000
def RED_STATUS_TOGGLE_PATH : Fld := ⟨RED_STATUS, 13, 1⟩
def RED_STATUS_LINK_PATH : Fld := ⟨RED_STATUS, 12, 1⟩
def RED_STATUS_ACTIVE : Fld := ⟨RED_STATUS, 8, 1⟩
def RED_STATUS_B_STATE : Fld := ⟨RED_STATUS, 4, 3⟩
def RED_STATUS_A_STATE : Fld := ⟨RED_STATUS, 0, 3⟩

/-- RED_CTRL, 12_redundancy.md. -/
def RED_CTRL : Nat := 0x180004
def RED_CTRL_EXCHANGE : Fld := ⟨RED_CTRL, 1, 1⟩
def RED_CTRL_RELOAD : Fld := ⟨RED_CTRL, 0, 1⟩

/-- RED_LAST, 12_redundancy.md. -/
def RED_LAST : Nat := 0x180018
def RED_LAST_SWITCH : Fld := ⟨RED_LAST, 20, 12⟩
def RED_LAST_DETECT : Fld := ⟨RED_LAST, 8, 12⟩
def RED_LAST_CAUSE : Fld := ⟨RED_LAST, 1, 2⟩
def RED_LAST_ENGINE : Fld := ⟨RED_LAST, 0, 1⟩

/-- RED_FLAGS, 12_redundancy.md. -/
def RED_FLAGS : Nat := 0x180008
def RED_FLAGS_EXCHANGED : Fld := ⟨RED_FLAGS, 10, 1⟩
def RED_FLAGS_BOTH_SILENT : Fld := ⟨RED_FLAGS, 9, 1⟩
def RED_FLAGS_FAILOVER_TRIP : Fld := ⟨RED_FLAGS, 8, 1⟩
def RED_FLAGS_RESYNC_DONE : Fld := ⟨RED_FLAGS, 7, 1⟩
def RED_FLAGS_COPY_LOST : Fld := ⟨RED_FLAGS, 6, 1⟩
def RED_FLAGS_DISAGREE : Fld := ⟨RED_FLAGS, 5, 1⟩
def RED_FLAGS_SUBSTITUTED : Fld := ⟨RED_FLAGS, 4, 1⟩
def RED_FLAGS_STANDBY_LOST : Fld := ⟨RED_FLAGS, 3, 1⟩
def RED_FLAGS_FAILOVER : Fld := ⟨RED_FLAGS, 2, 1⟩
def RED_FLAGS_PATH_FAULT : Fld := ⟨RED_FLAGS, 1, 1⟩
def RED_FLAGS_WRITE_REFUSED : Fld := ⟨RED_FLAGS, 0, 1⟩

/-- RED_CNT0, 12_redundancy.md. -/
def RED_CNT0 : Nat := 0x18000C
def RED_CNT0_FAILOVER_CNT : Fld := ⟨RED_CNT0, 16, 16⟩
def RED_CNT0_PATH_FAULT_CNT : Fld := ⟨RED_CNT0, 0, 16⟩

/-- RED_CNT1, 12_redundancy.md. -/
def RED_CNT1 : Nat := 0x180010
def RED_CNT1_DISAGREE_CNT : Fld := ⟨RED_CNT1, 16, 16⟩
def RED_CNT1_SUBST_CNT : Fld := ⟨RED_CNT1, 0, 16⟩

/-- RED_CNT2, 12_redundancy.md. -/
def RED_CNT2 : Nat := 0x180014
def RED_CNT2_COPY_LOST_CNT : Fld := ⟨RED_CNT2, 16, 16⟩
def RED_CNT2_EXCHANGE_CNT : Fld := ⟨RED_CNT2, 0, 16⟩

/-- RED_STN, 12_redundancy.md. -/
def RED_STN (i : Nat) : Nat := 0x180020 + i * 0x4
def RED_STN_SYNC (i : Nat) : Fld := ⟨RED_STN i, 31, 1⟩
def RED_STN_SUBST (i : Nat) : Fld := ⟨RED_STN i, 30, 1⟩
def RED_STN_DIS_CONSEC (i : Nat) : Fld := ⟨RED_STN i, 28, 2⟩
def RED_STN_AGREE (i : Nat) : Fld := ⟨RED_STN i, 16, 10⟩
def RED_STN_SILENT_CNT (i : Nat) : Fld := ⟨RED_STN i, 0, 16⟩

/-- RED_ENG_ERR, 12_redundancy.md. -/
def RED_ENG_ERR (i : Nat) : Nat := 0x180030 + i * 0x4
def RED_ENG_ERR_VALID (i : Nat) : Fld := ⟨RED_ENG_ERR i, 31, 1⟩
def RED_ENG_ERR_CAUSE (i : Nat) : Fld := ⟨RED_ENG_ERR i, 0, 3⟩

/-- SAF_STATUS, 13_safety.md. -/
def SAF_STATUS : Nat := 0x190000
def SAF_STATUS_SETTLE_OK : Fld := ⟨SAF_STATUS, 15, 1⟩
def SAF_STATUS_RC_OK : Fld := ⟨SAF_STATUS, 14, 1⟩
def SAF_STATUS_LB_PERMIT : Fld := ⟨SAF_STATUS, 8, 4⟩
def SAF_STATUS_HELD : Fld := ⟨SAF_STATUS, 4, 4⟩
def SAF_STATUS_SAFE_STOP : Fld := ⟨SAF_STATUS, 0, 4⟩

/-- SAF_REQ, 13_safety.md. -/
def SAF_REQ : Nat := 0x190004
def SAF_REQ_SS1_REQ : Fld := ⟨SAF_REQ, 8, 4⟩
def SAF_REQ_STO_REQ : Fld := ⟨SAF_REQ, 4, 4⟩
def SAF_REQ_RELEASE : Fld := ⟨SAF_REQ, 0, 4⟩

/-- SAF_SIN, 13_safety.md. -/
def SAF_SIN : Nat := 0x190014
def SAF_SIN_DISC : Fld := ⟨SAF_SIN, 24, 8⟩
def SAF_SIN_DEMAND : Fld := ⟨SAF_SIN, 16, 8⟩
def SAF_SIN_B : Fld := ⟨SAF_SIN, 8, 8⟩
def SAF_SIN_A : Fld := ⟨SAF_SIN, 0, 8⟩

/-- SAF_SOUT, 13_safety.md. -/
def SAF_SOUT : Nat := 0x190018
def SAF_SOUT_FAULT : Fld := ⟨SAF_SOUT, 24, 8⟩
def SAF_SOUT_TESTING : Fld := ⟨SAF_SOUT, 16, 8⟩
def SAF_SOUT_SRB : Fld := ⟨SAF_SOUT, 8, 8⟩
def SAF_SOUT_LEVEL : Fld := ⟨SAF_SOUT, 0, 8⟩

/-- SAF_LB, 13_safety.md. -/
def SAF_LB : Nat := 0x19001C
def SAF_LB_SETTLE_SILENT : Fld := ⟨SAF_LB, 10, 1⟩
def SAF_LB_BOTH_SILENT : Fld := ⟨SAF_LB, 9, 1⟩
def SAF_LB_PLL_LOST : Fld := ⟨SAF_LB, 8, 1⟩
def SAF_LB_REMOVE : Fld := ⟨SAF_LB, 0, 4⟩

/-- SAF_STN, 13_safety.md. -/
def SAF_STN (i : Nat) : Nat := 0x190020 + i * 0x4
def SAF_STN_CAUSE (i : Nat) : Fld := ⟨SAF_STN i, 24, 8⟩
def SAF_STN_PENDING_SET (i : Nat) : Fld := ⟨SAF_STN i, 17, 1⟩
def SAF_STN_LB_REMOVED (i : Nat) : Fld := ⟨SAF_STN i, 16, 1⟩
def SAF_STN_STATE (i : Nat) : Fld := ⟨SAF_STN i, 0, 3⟩

/-- SAF_FLAGS, 13_safety.md. -/
def SAF_FLAGS : Nat := 0x190008
def SAF_FLAGS_RC_FAULT : Fld := ⟨SAF_FLAGS, 10, 1⟩
def SAF_FLAGS_PAIR_FAILED : Fld := ⟨SAF_FLAGS, 9, 1⟩
def SAF_FLAGS_HB_STO : Fld := ⟨SAF_FLAGS, 8, 1⟩
def SAF_FLAGS_TEST_ABORTED : Fld := ⟨SAF_FLAGS, 7, 1⟩
def SAF_FLAGS_SOUT_FAULT : Fld := ⟨SAF_FLAGS, 6, 1⟩
def SAF_FLAGS_DISCREPANCY : Fld := ⟨SAF_FLAGS, 5, 1⟩
def SAF_FLAGS_RELEASE_REFUSED : Fld := ⟨SAF_FLAGS, 4, 1⟩
def SAF_FLAGS_RESET_HELD : Fld := ⟨SAF_FLAGS, 3, 1⟩
def SAF_FLAGS_RUN_HELD : Fld := ⟨SAF_FLAGS, 2, 1⟩
def SAF_FLAGS_BOTH_ON : Fld := ⟨SAF_FLAGS, 1, 1⟩

/-- SAF_CNT0, 13_safety.md. -/
def SAF_CNT0 : Nat := 0x19000C
def SAF_CNT0_DISC_CNT : Fld := ⟨SAF_CNT0, 16, 16⟩
def SAF_CNT0_TEST_ABORT_CNT : Fld := ⟨SAF_CNT0, 0, 16⟩

/-- SAF_CNT1, 13_safety.md. -/
def SAF_CNT1 : Nat := 0x190010
def SAF_CNT1_SOUT_FAULT_CNT : Fld := ⟨SAF_CNT1, 16, 16⟩
def SAF_CNT1_HB_STO_CNT : Fld := ⟨SAF_CNT1, 0, 16⟩

/-- SAF_HB_VAL, 13_safety.md. -/
def SAF_HB_VAL (i : Nat) : Nat := 0x190030 + i * 0x4
def SAF_HB_VAL_VALUE (i : Nat) : Fld := ⟨SAF_HB_VAL i, 0, 32⟩

/-- SAF_HB_LIM, 13_safety.md. -/
def SAF_HB_LIM (i : Nat) : Nat := 0x190040 + i * 0x4
def SAF_HB_LIM_VALUE (i : Nat) : Fld := ⟨SAF_HB_LIM i, 0, 32⟩

/-- SAF_PAR, 13_safety.md. -/
def SAF_PAR (i j : Nat) : Nat := 0x190100 + i * 0x40 + j * 0x4
def SAF_PAR_VALUE (i j : Nat) : Fld := ⟨SAF_PAR i j, 0, 32⟩

/-- SAF_TIM0, 13_safety.md. -/
def SAF_TIM0 : Nat := 0x190050
def SAF_TIM0_SIN_FILT : Fld := ⟨SAF_TIM0, 22, 10⟩
def SAF_TIM0_T_DISC : Fld := ⟨SAF_TIM0, 13, 9⟩

/-- SAF_TIM1, 13_safety.md. -/
def SAF_TIM1 : Nat := 0x190054
def SAF_TIM1_TEST_P : Fld := ⟨SAF_TIM1, 24, 8⟩
def SAF_TIM1_TEST_W : Fld := ⟨SAF_TIM1, 16, 8⟩

/-- SAF_SIN_MAP, 13_safety.md. -/
def SAF_SIN_MAP (i : Nat) : Nat := 0x190060 + i * 0x4
def SAF_SIN_MAP_FUNC (i : Nat) : Fld := ⟨SAF_SIN_MAP i, 4, 2⟩
def SAF_SIN_MAP_STN (i : Nat) : Fld := ⟨SAF_SIN_MAP i, 0, 4⟩

/-- SAF_SOUT_MAP, 13_safety.md. -/
def SAF_SOUT_MAP (i : Nat) : Nat := 0x190080 + i * 0x4
def SAF_SOUT_MAP_STN (i : Nat) : Fld := ⟨SAF_SOUT_MAP i, 0, 4⟩

/-- MBX_CLAIM, 14_eznel_host.md. -/
def MBX_CLAIM : Nat := 0x1A8000
def MBX_CLAIM_VALID : Fld := ⟨MBX_CLAIM, 31, 1⟩
def MBX_CLAIM_SLOT : Fld := ⟨MBX_CLAIM, 0, 5⟩

/-- MBX_DOORBELL, 14_eznel_host.md. -/
def MBX_DOORBELL : Nat := 0x1A8004
def MBX_DOORBELL_SLOT : Fld := ⟨MBX_DOORBELL, 0, 5⟩

/-- MBX_STATE, 14_eznel_host.md. -/
def MBX_STATE (i : Nat) : Nat := 0x1A8008 + i * 0x4
def MBX_STATE_STATE (i : Nat) : Fld := ⟨MBX_STATE i, 0, 32⟩

/-- MBX_DONE, 14_eznel_host.md. -/
def MBX_DONE : Nat := 0x1A8010
def MBX_DONE_DONE : Fld := ⟨MBX_DONE, 0, 32⟩

/-- MBX_FREE, 14_eznel_host.md. -/
def MBX_FREE : Nat := 0x1A8014
def MBX_FREE_FREE : Fld := ⟨MBX_FREE, 0, 32⟩

/-- MBX_JOB_DONE, 14_eznel_host.md. -/
def MBX_JOB_DONE : Nat := 0x1A8018
def MBX_JOB_DONE_JOB_DONE : Fld := ⟨MBX_JOB_DONE, 0, 4⟩

/-- MBX_FLAGS, 14_eznel_host.md. -/
def MBX_FLAGS : Nat := 0x1A801C
def MBX_FLAGS_NET_DROP : Fld := ⟨MBX_FLAGS, 4, 1⟩
def MBX_FLAGS_CLAIM_EXPIRED : Fld := ⟨MBX_FLAGS, 3, 1⟩
def MBX_FLAGS_DOORBELL_REFUSED : Fld := ⟨MBX_FLAGS, 2, 1⟩
def MBX_FLAGS_JOB_LIMIT : Fld := ⟨MBX_FLAGS, 1, 1⟩
def MBX_FLAGS_NO_SLOT : Fld := ⟨MBX_FLAGS, 0, 1⟩

/-- MBX_CNT0, 14_eznel_host.md. -/
def MBX_CNT0 : Nat := 0x1A8020
def MBX_CNT0_NO_SLOT_CNT : Fld := ⟨MBX_CNT0, 16, 16⟩
def MBX_CNT0_JOB_LIMIT_CNT : Fld := ⟨MBX_CNT0, 0, 16⟩

/-- MBX_CNT1, 14_eznel_host.md. -/
def MBX_CNT1 : Nat := 0x1A8024
def MBX_CNT1_NET_DROP_CNT : Fld := ⟨MBX_CNT1, 16, 16⟩
def MBX_CNT1_CLAIM_EXP_CNT : Fld := ⟨MBX_CNT1, 0, 16⟩

/-- IRQ_SUMMARY, 14_eznel_host.md. -/
def IRQ_SUMMARY : Nat := 0x40000
def IRQ_SUMMARY_BLOCK : Fld := ⟨IRQ_SUMMARY, 0, 32⟩

/-- IRQ_EN, 14_eznel_host.md. -/
def IRQ_EN : Nat := 0x40004
def IRQ_EN_EN : Fld := ⟨IRQ_EN, 0, 32⟩

/-- IRQ_CAUSE, 14_eznel_host.md. -/
def IRQ_CAUSE (i : Nat) : Nat := 0x40100 + i * 0x4
def IRQ_CAUSE_LEAF (i : Nat) : Fld := ⟨IRQ_CAUSE i, 0, 32⟩

/-- OTP_STATUS, 15_security_update.md. -/
def OTP_STATUS : Nat := 0x50000
def OTP_STATUS_ENROLLED : Fld := ⟨OTP_STATUS, 31, 1⟩
def OTP_STATUS_APPLY_PENDING : Fld := ⟨OTP_STATUS, 30, 1⟩
def OTP_STATUS_OVL_VALID : Fld := ⟨OTP_STATUS, 29, 1⟩
def OTP_STATUS_OVL_COUNT : Fld := ⟨OTP_STATUS, 16, 8⟩
def OTP_STATUS_SEALED : Fld := ⟨OTP_STATUS, 4, 4⟩
def OTP_STATUS_GEN : Fld := ⟨OTP_STATUS, 0, 2⟩

/-- OTP_BUREAU, 15_security_update.md. -/
def OTP_BUREAU : Nat := 0x50004
def OTP_BUREAU_STATE : Fld := ⟨OTP_BUREAU, 28, 4⟩
def OTP_BUREAU_KIND : Fld := ⟨OTP_BUREAU, 24, 4⟩
def OTP_BUREAU_TARGET : Fld := ⟨OTP_BUREAU, 16, 8⟩
def OTP_BUREAU_REMAIN : Fld := ⟨OTP_BUREAU, 0, 10⟩

/-- OTP_CNT, 15_security_update.md. -/
def OTP_CNT : Nat := 0x5000C
def OTP_CNT_BUREAU_CNT : Fld := ⟨OTP_CNT, 16, 16⟩
def OTP_CNT_BAD_CSIGN_CNT : Fld := ⟨OTP_CNT, 0, 16⟩

/-- OTP_AUTH_DEF, 15_security_update.md. -/
def OTP_AUTH_DEF : Nat := 0x50010
def OTP_AUTH_DEF_I2C : Fld := ⟨OTP_AUTH_DEF, 6, 2⟩
def OTP_AUTH_DEF_ETH : Fld := ⟨OTP_AUTH_DEF, 4, 2⟩
def OTP_AUTH_DEF_CAN : Fld := ⟨OTP_AUTH_DEF, 2, 2⟩
def OTP_AUTH_DEF_SPI : Fld := ⟨OTP_AUTH_DEF, 0, 2⟩

/-- OTP_READ_ADDR, 15_security_update.md. -/
def OTP_READ_ADDR : Nat := 0x50020
def OTP_READ_ADDR_ROW : Fld := ⟨OTP_READ_ADDR, 16, 3⟩
def OTP_READ_ADDR_WORD : Fld := ⟨OTP_READ_ADDR, 2, 11⟩

/-- OTP_READ_DATA, 15_security_update.md. -/
def OTP_READ_DATA : Nat := 0x50024
def OTP_READ_DATA_DATA : Fld := ⟨OTP_READ_DATA, 0, 32⟩

/-- OTP_FLAGS, 15_security_update.md. -/
def OTP_FLAGS : Nat := 0x50008
def OTP_FLAGS_OTP_EXHAUSTED : Fld := ⟨OTP_FLAGS, 6, 1⟩
def OTP_FLAGS_OVL_MISSING : Fld := ⟨OTP_FLAGS, 5, 1⟩
def OTP_FLAGS_GEN_CORRUPT : Fld := ⟨OTP_FLAGS, 4, 1⟩
def OTP_FLAGS_GEN_ABANDONED : Fld := ⟨OTP_FLAGS, 3, 1⟩
def OTP_FLAGS_BUREAU_REFUSED : Fld := ⟨OTP_FLAGS, 2, 1⟩
def OTP_FLAGS_BUREAU_EXPIRED : Fld := ⟨OTP_FLAGS, 1, 1⟩
def OTP_FLAGS_BUREAU_DONE : Fld := ⟨OTP_FLAGS, 0, 1⟩

/-- SEC_BOOT, 15_security_update.md. -/
def SEC_BOOT : Nat := 0x60000
def SEC_BOOT_TRIAL : Fld := ⟨SEC_BOOT, 4, 1⟩
def SEC_BOOT_MONITOR : Fld := ⟨SEC_BOOT, 3, 1⟩
def SEC_BOOT_FALLBACK : Fld := ⟨SEC_BOOT, 2, 1⟩
def SEC_BOOT_SETTLE_VERIFIED : Fld := ⟨SEC_BOOT, 1, 1⟩
def SEC_BOOT_SLOT : Fld := ⟨SEC_BOOT, 0, 1⟩

/-- SEC_FW_A, 15_security_update.md. -/
def SEC_FW_A : Nat := 0x60008
def SEC_FW_A_VERSION : Fld := ⟨SEC_FW_A, 0, 32⟩

/-- SEC_FW_B, 15_security_update.md. -/
def SEC_FW_B : Nat := 0x6000C
def SEC_FW_B_VERSION : Fld := ⟨SEC_FW_B, 0, 32⟩

/-- SEC_SVN, 15_security_update.md. -/
def SEC_SVN : Nat := 0x60010
def SEC_SVN_TRESTLE : Fld := ⟨SEC_SVN, 16, 6⟩
def SEC_SVN_SETTLE : Fld := ⟨SEC_SVN, 8, 6⟩
def SEC_SVN_FIRMWARE : Fld := ⟨SEC_SVN, 0, 6⟩

/-- SEC_DBG, 15_security_update.md. -/
def SEC_DBG : Nat := 0x60020
def SEC_DBG_STATE : Fld := ⟨SEC_DBG, 8, 2⟩
def SEC_DBG_CLOSE : Fld := ⟨SEC_DBG, 1, 1⟩
def SEC_DBG_REQ : Fld := ⟨SEC_DBG, 0, 1⟩

/-- SEC_DBG_DATA, 15_security_update.md. -/
def SEC_DBG_DATA : Nat := 0x60024
def SEC_DBG_DATA_DATA : Fld := ⟨SEC_DBG_DATA, 0, 32⟩

/-- SEC_FLAGS, 15_security_update.md. -/
def SEC_FLAGS : Nat := 0x60004
def SEC_FLAGS_DBG_REFUSED : Fld := ⟨SEC_FLAGS, 3, 1⟩
def SEC_FLAGS_CERT_TIME_UNCHECKED : Fld := ⟨SEC_FLAGS, 2, 1⟩
def SEC_FLAGS_TRIAL_REVERTED : Fld := ⟨SEC_FLAGS, 1, 1⟩
def SEC_FLAGS_IMAGE_REFUSED : Fld := ⟨SEC_FLAGS, 0, 1⟩

/-- CLK_STATUS, 16_clocks_power.md. -/
def CLK_STATUS : Nat := 0x10000
def CLK_STATUS_SRC_B : Fld := ⟨CLK_STATUS, 16, 7⟩
def CLK_STATUS_A_BUILDOUT : Fld := ⟨CLK_STATUS, 5, 1⟩
def CLK_STATUS_B_BUILDOUT : Fld := ⟨CLK_STATUS, 13, 1⟩
def CLK_STATUS_A_COASTING : Fld := ⟨CLK_STATUS, 4, 1⟩
def CLK_STATUS_B_COASTING : Fld := ⟨CLK_STATUS, 12, 1⟩
def CLK_STATUS_A_TWIN_READY : Fld := ⟨CLK_STATUS, 3, 1⟩
def CLK_STATUS_B_TWIN_READY : Fld := ⟨CLK_STATUS, 11, 1⟩
def CLK_STATUS_A_ANALOG_LOCK : Fld := ⟨CLK_STATUS, 2, 1⟩
def CLK_STATUS_B_ANALOG_LOCK : Fld := ⟨CLK_STATUS, 10, 1⟩
def CLK_STATUS_A_DIG_LOCK : Fld := ⟨CLK_STATUS, 1, 1⟩
def CLK_STATUS_B_DIG_LOCK : Fld := ⟨CLK_STATUS, 9, 1⟩
def CLK_STATUS_A_PRESENT : Fld := ⟨CLK_STATUS, 0, 1⟩
def CLK_STATUS_B_PRESENT : Fld := ⟨CLK_STATUS, 8, 1⟩

/-- CLK_FLAGS, 16_clocks_power.md. -/
def CLK_FLAGS : Nat := 0x10004
def CLK_FLAGS_REF_BAD : Fld := ⟨CLK_FLAGS, 8, 1⟩
def CLK_FLAGS_REF_RETURNED : Fld := ⟨CLK_FLAGS, 7, 1⟩
def CLK_FLAGS_REF_LOST : Fld := ⟨CLK_FLAGS, 6, 1⟩
def CLK_FLAGS_LOCK_PIN_FALL : Fld := ⟨CLK_FLAGS, 5, 1⟩
def CLK_FLAGS_BOTH_LOST : Fld := ⟨CLK_FLAGS, 4, 1⟩
def CLK_FLAGS_SWITCHED : Fld := ⟨CLK_FLAGS, 3, 1⟩
def CLK_FLAGS_PLLB_LOST : Fld := ⟨CLK_FLAGS, 2, 1⟩
def CLK_FLAGS_PLLA_LOST : Fld := ⟨CLK_FLAGS, 1, 1⟩

/-- CLK_CNT, 16_clocks_power.md. -/
def CLK_CNT : Nat := 0x10008
def CLK_CNT_SWITCH_CNT : Fld := ⟨CLK_CNT, 16, 16⟩
def CLK_CNT_REF_LOSS_CNT : Fld := ⟨CLK_CNT, 0, 16⟩

/-- CLK_LAST, 16_clocks_power.md. -/
def CLK_LAST : Nat := 0x1000C
def CLK_LAST_LOST : Fld := ⟨CLK_LAST, 16, 16⟩
def CLK_LAST_BUILDOUT : Fld := ⟨CLK_LAST, 0, 10⟩

/-- CLK_PHASE_STEP, 16_clocks_power.md. -/
def CLK_PHASE_STEP (i : Nat) : Nat := 0x10010 + i * 0x4
def CLK_PHASE_STEP_PENDING (i : Nat) : Fld := ⟨CLK_PHASE_STEP i, 16, 13⟩
def CLK_PHASE_STEP_STEPS (i : Nat) : Fld := ⟨CLK_PHASE_STEP i, 0, 13⟩

/-- PWR_STATUS, 16_clocks_power.md. -/
def PWR_STATUS : Nat := 0x20000
def PWR_STATUS_BANK_FAIL : Fld := ⟨PWR_STATUS, 16, 16⟩
def PWR_STATUS_STATE : Fld := ⟨PWR_STATUS, 0, 2⟩

/-- PWR_FLAGS, 16_clocks_power.md. -/
def PWR_FLAGS : Nat := 0x20004
def PWR_FLAGS_RUN_BLOCKED : Fld := ⟨PWR_FLAGS, 4, 1⟩
def PWR_FLAGS_BANK_FAILED : Fld := ⟨PWR_FLAGS, 3, 1⟩
def PWR_FLAGS_WAKE_DURING_ENTRY : Fld := ⟨PWR_FLAGS, 2, 1⟩
def PWR_FLAGS_RETAIN_ABORTED : Fld := ⟨PWR_FLAGS, 1, 1⟩
def PWR_FLAGS_WOKE : Fld := ⟨PWR_FLAGS, 0, 1⟩

/-- PWR_WAKE_EN, 16_clocks_power.md. -/
def PWR_WAKE_EN : Nat := 0x20008
def PWR_WAKE_EN_TIMER : Fld := ⟨PWR_WAKE_EN, 2, 1⟩
def PWR_WAKE_EN_RING : Fld := ⟨PWR_WAKE_EN, 1, 1⟩
def PWR_WAKE_EN_I2C : Fld := ⟨PWR_WAKE_EN, 0, 1⟩

/-- PWR_WAKE_SRC, 16_clocks_power.md. -/
def PWR_WAKE_SRC : Nat := 0x2000C
def PWR_WAKE_SRC_PORT : Fld := ⟨PWR_WAKE_SRC, 20, 6⟩
def PWR_WAKE_SRC_SIN : Fld := ⟨PWR_WAKE_SRC, 3, 1⟩
def PWR_WAKE_SRC_I2C : Fld := ⟨PWR_WAKE_SRC, 2, 1⟩
def PWR_WAKE_SRC_RING : Fld := ⟨PWR_WAKE_SRC, 1, 1⟩
def PWR_WAKE_SRC_TIMER : Fld := ⟨PWR_WAKE_SRC, 0, 1⟩

/-- PWR_WAKE_CMP_LO, 16_clocks_power.md. -/
def PWR_WAKE_CMP_LO : Nat := 0x20010
def PWR_WAKE_CMP_LO_CMP : Fld := ⟨PWR_WAKE_CMP_LO, 0, 32⟩

/-- PWR_WAKE_CMP_HI, 16_clocks_power.md. -/
def PWR_WAKE_CMP_HI : Nat := 0x20014
def PWR_WAKE_CMP_HI_CMP : Fld := ⟨PWR_WAKE_CMP_HI, 0, 16⟩

/-- PWR_CNT, 16_clocks_power.md. -/
def PWR_CNT : Nat := 0x20018
def PWR_CNT_RETAIN_CNT : Fld := ⟨PWR_CNT, 16, 16⟩
def PWR_CNT_BANK_FAIL_CNT : Fld := ⟨PWR_CNT, 0, 16⟩

/-- PMB_STATUS, 16_clocks_power.md. -/
def PMB_STATUS : Nat := 0x30000
def PMB_STATUS_V_RUN : Fld := ⟨PMB_STATUS, 16, 16⟩
def PMB_STATUS_TARGET : Fld := ⟨PMB_STATUS, 0, 16⟩

/-- PMB_FLAGS, 16_clocks_power.md. -/
def PMB_FLAGS : Nat := 0x30004
def PMB_FLAGS_FRAME_ERR : Fld := ⟨PMB_FLAGS, 2, 1⟩
def PMB_FLAGS_REG_VOUT_ERR : Fld := ⟨PMB_FLAGS, 1, 1⟩
def PMB_FLAGS_REG_NO_ACK : Fld := ⟨PMB_FLAGS, 0, 1⟩

/-- PMB_VREAD, 16_clocks_power.md. -/
def PMB_VREAD : Nat := 0x30008
def PMB_VREAD_VOUT : Fld := ⟨PMB_VREAD, 0, 16⟩

/-- PMB_CNT, 16_clocks_power.md. -/
def PMB_CNT : Nat := 0x3000C
def PMB_CNT_REQ_CNT : Fld := ⟨PMB_CNT, 16, 16⟩
def PMB_CNT_NO_ACK_CNT : Fld := ⟨PMB_CNT, 0, 16⟩

/-- PMB_LAST, 16_clocks_power.md. -/
def PMB_LAST : Nat := 0x30010
def PMB_LAST_T_DONE : Fld := ⟨PMB_LAST, 0, 16⟩

/-- SYS_RST_CAUSE, 17_startup_multidevice.md. -/
def SYS_RST_CAUSE : Nat := 0x14
def SYS_RST_CAUSE_WDOG_CNT : Fld := ⟨SYS_RST_CAUSE, 16, 6⟩
def SYS_RST_CAUSE_CAUSE : Fld := ⟨SYS_RST_CAUSE, 0, 6⟩

/-- SYS_OTP_CHECK, 17_startup_multidevice.md. -/
def SYS_OTP_CHECK : Nat := 0x18
def SYS_OTP_CHECK_CHECK0 : Fld := ⟨SYS_OTP_CHECK, 0, 6⟩
def SYS_OTP_CHECK_CHECK1 : Fld := ⟨SYS_OTP_CHECK, 8, 6⟩
def SYS_OTP_CHECK_CHECK2 : Fld := ⟨SYS_OTP_CHECK, 16, 6⟩
def SYS_OTP_CHECK_CHECK3 : Fld := ⟨SYS_OTP_CHECK, 24, 6⟩

/-- SYS_BOOT_T, 17_startup_multidevice.md. -/
def SYS_BOOT_T : Nat := 0x1C
def SYS_BOOT_T_MS : Fld := ⟨SYS_BOOT_T, 0, 16⟩

/-- SYS_POS, 17_startup_multidevice.md. -/
def SYS_POS : Nat := 0x20
def SYS_POS_POS : Fld := ⟨SYS_POS, 0, 2⟩

/-- SLK_STATUS, 17_startup_multidevice.md. -/
def SLK_STATUS : Nat := 0x1E0000
def SLK_STATUS_ALIGNED : Fld := ⟨SLK_STATUS, 8, 1⟩
def SLK_STATUS_UP : Fld := ⟨SLK_STATUS, 0, 3⟩

/-- SLK_PORT, 17_startup_multidevice.md. -/
def SLK_PORT (i : Nat) : Nat := 0x1E0010 + i * 0x4
def SLK_PORT_RESULT (i : Nat) : Fld := ⟨SLK_PORT i, 16, 8⟩
def SLK_PORT_PEER (i : Nat) : Fld := ⟨SLK_PORT i, 8, 2⟩
def SLK_PORT_STATE (i : Nat) : Fld := ⟨SLK_PORT i, 0, 3⟩

/-- SLK_ALIGN, 17_startup_multidevice.md. -/
def SLK_ALIGN : Nat := 0x1E0020
def SLK_ALIGN_GO : Fld := ⟨SLK_ALIGN, 31, 1⟩
def SLK_ALIGN_ARMED : Fld := ⟨SLK_ALIGN, 16, 1⟩
def SLK_ALIGN_SYNC_DLY : Fld := ⟨SLK_ALIGN, 8, 6⟩
def SLK_ALIGN_STN : Fld := ⟨SLK_ALIGN, 0, 4⟩

/-- SLK_ALIGN_STAT, 17_startup_multidevice.md. -/
def SLK_ALIGN_STAT : Nat := 0x1E0024
def SLK_ALIGN_STAT_ERR : Fld := ⟨SLK_ALIGN_STAT, 8, 24⟩
def SLK_ALIGN_STAT_PHI : Fld := ⟨SLK_ALIGN_STAT, 0, 6⟩

/-- SLK_FLAGS, 17_startup_multidevice.md. -/
def SLK_FLAGS : Nat := 0x1E0004
def SLK_FLAGS_SCAN_REFUSED : Fld := ⟨SLK_FLAGS, 8, 1⟩
def SLK_FLAGS_RESTART_REFUSED : Fld := ⟨SLK_FLAGS, 7, 1⟩
def SLK_FLAGS_XCHK_MISMATCH : Fld := ⟨SLK_FLAGS, 6, 1⟩
def SLK_FLAGS_ALIGN_LOST : Fld := ⟨SLK_FLAGS, 5, 1⟩
def SLK_FLAGS_ALIGN_DONE : Fld := ⟨SLK_FLAGS, 4, 1⟩
def SLK_FLAGS_RETRY_FAIL : Fld := ⟨SLK_FLAGS, 3, 1⟩
def SLK_FLAGS_MISWIRED : Fld := ⟨SLK_FLAGS, 2, 1⟩
def SLK_FLAGS_LINK_DOWN : Fld := ⟨SLK_FLAGS, 1, 1⟩
def SLK_FLAGS_WRITE_REFUSED : Fld := ⟨SLK_FLAGS, 0, 1⟩

/-- SLK_CNT, 17_startup_multidevice.md. -/
def SLK_CNT : Nat := 0x1E0008
def SLK_CNT_RETRY_CNT : Fld := ⟨SLK_CNT, 16, 16⟩
def SLK_CNT_DISCARD_CNT : Fld := ⟨SLK_CNT, 0, 16⟩

/-- SLK_XCHK, 17_startup_multidevice.md. -/
def SLK_XCHK (i : Nat) : Nat := 0x1E0040 + i * 0x4
def SLK_XCHK_EN (i : Nat) : Fld := ⟨SLK_XCHK i, 31, 1⟩
def SLK_XCHK_PEER (i : Nat) : Fld := ⟨SLK_XCHK i, 28, 2⟩
def SLK_XCHK_PEER_SRC (i : Nat) : Fld := ⟨SLK_XCHK i, 20, 8⟩
def SLK_XCHK_LOCAL_SRC (i : Nat) : Fld := ⟨SLK_XCHK i, 12, 8⟩
def SLK_XCHK_TOL (i : Nat) : Fld := ⟨SLK_XCHK i, 0, 12⟩

/-- SLK_XCHK_CNT, 17_startup_multidevice.md. -/
def SLK_XCHK_CNT (i : Nat) : Nat := 0x1E0060 + i * 0x4
def SLK_XCHK_CNT_MISMATCH_CNT (i : Nat) : Fld := ⟨SLK_XCHK_CNT i, 16, 16⟩
def SLK_XCHK_CNT_UNPAIRED_CNT (i : Nat) : Fld := ⟨SLK_XCHK_CNT i, 0, 16⟩

end Sys2Proof.Machine
end

