-- ==== Sys2Proof/Machine/RegTable.lean ====
section
/-! DEFINITION. The register map as data: access, timing class and reset value of every field, from the register tables
of the chapters. Fields "from OTP" stand at their value for a device whose OTP holds only its factory row (R450; log row 10). -/

namespace Sys2Proof.Machine

/-- Access codes of R11. A W1C field is a set of flags, or a counter that only a write of all ones clears. -/
inductive Acc where
  | ro | rw | w1c | cnt | wo | rc
  deriving DecidableEq, Repr

/-- Timing classes (R13 to R16). -/
inductive Cls where
  | live | shadowed | idle
  deriving DecidableEq, Repr

structure FieldDesc where
  lo : Nat
  w : Nat
  acc : Acc
  cls : Cls
  rst : Nat
  deriving DecidableEq, Repr

/-- One row: name, base address, the counts and strides of its arrays, its fields. -/
structure RegDesc where
  name : String
  base : Nat
  dims : List (Nat × Nat)
  fields : List FieldDesc
  deriving DecidableEq, Repr

/-- Registers of 00_scope.md. -/
def regs00 : List RegDesc := [
  ⟨"SYS_GRANT", 0x8, [],
    [⟨10, 1, .ro, .live, 0x0⟩, ⟨9, 1, .ro, .live, 0x0⟩, ⟨8, 1, .ro, .live, 0x0⟩, ⟨7, 1, .ro, .live, 0x0⟩,
     ⟨6, 1, .ro, .live, 0x0⟩, ⟨5, 1, .ro, .live, 0x0⟩, ⟨4, 1, .ro, .live, 0x0⟩, ⟨3, 1, .ro, .live, 0x0⟩,
     ⟨2, 1, .ro, .live, 0x0⟩, ⟨1, 1, .ro, .live, 0x0⟩, ⟨0, 1, .ro, .live, 0x0⟩]⟩,
  ⟨"SYS_DEVID", 0x0, [],
    [⟨0, 32, .ro, .live, 0x4B524848⟩]⟩]

/-- Registers of 01_architecture.md. -/
def regs01 : List RegDesc := [
  ⟨"GFM_ENV_PDIS", 0x140000, [(4, 0x10000)],
    [⟨0, 32, .rw, .shadowed, 0x0⟩]⟩,
  ⟨"GFM_ENV_PCHG", 0x140004, [(4, 0x10000)],
    [⟨0, 32, .rw, .shadowed, 0x0⟩]⟩,
  ⟨"GFM_ENV_ERES", 0x140008, [(4, 0x10000)],
    [⟨0, 32, .rw, .shadowed, 0x0⟩]⟩,
  ⟨"GFM_ENV_SEQ", 0x14000C, [(4, 0x10000)],
    [⟨0, 32, .rw, .live, 0x0⟩]⟩,
  ⟨"GFM_ENV_STATUS", 0x140010, [(4, 0x10000)],
    [⟨24, 8, .cnt, .live, 0x0⟩, ⟨17, 1, .ro, .live, 0x1⟩, ⟨0, 16, .ro, .live, 0xFFFF⟩]⟩,
  ⟨"GFM_SNAP_DROP", 0x140180, [(4, 0x10000)],
    [⟨0, 16, .cnt, .live, 0x0⟩]⟩,
  ⟨"SYS_STEPPING", 0x4, [],
    [⟨8, 8, .ro, .live, 0x42⟩, ⟨0, 8, .ro, .live, 0x1⟩]⟩,
  ⟨"SYS_STATUS", 0xC, [],
    [⟨3, 1, .w1c, .live, 0x0⟩, ⟨2, 1, .w1c, .live, 0x0⟩, ⟨1, 1, .w1c, .live, 0x0⟩, ⟨0, 1, .w1c, .live, 0x0⟩]⟩,
  ⟨"SYS_APERTURE", 0x10, [],
    [⟨23, 9, .rw, .live, 0x20⟩]⟩,
  ⟨"GFM_SNAP", 0x140100, [(4, 0x10000), (32, 0x4)],
    [⟨0, 32, .ro, .live, 0x0⟩]⟩]

/-- Registers of 02_grid_forming_core.md. -/
def regs02 : List RegDesc := [
  ⟨"GFM_ENV_OTP_PDIS", 0x140014, [(4, 0x10000)],
    [⟨0, 32, .ro, .live, 0x0⟩]⟩,
  ⟨"GFM_ENV_OTP_PCHG", 0x140018, [(4, 0x10000)],
    [⟨0, 32, .ro, .live, 0x0⟩]⟩,
  ⟨"GFM_ENV_OTP_ERES", 0x14001C, [(4, 0x10000)],
    [⟨0, 32, .ro, .live, 0x0⟩]⟩,
  ⟨"GFM_CTRL", 0x140020, [(4, 0x10000)],
    [⟨12, 1, .wo, .live, 0x0⟩, ⟨8, 2, .rw, .idle, 0x0⟩, ⟨4, 3, .rw, .idle, 0x0⟩, ⟨0, 1, .rw, .live, 0x0⟩]⟩,
  ⟨"GFM_STATE", 0x140024, [(4, 0x10000)],
    [⟨8, 8, .ro, .live, 0x0⟩, ⟨0, 8, .ro, .live, 0x0⟩]⟩,
  ⟨"GFM_CORE_FLAGS", 0x140028, [(4, 0x10000)],
    [⟨13, 1, .w1c, .live, 0x0⟩, ⟨12, 1, .w1c, .live, 0x0⟩, ⟨11, 1, .w1c, .live, 0x0⟩, ⟨10, 1, .w1c, .live, 0x0⟩,
     ⟨9, 1, .w1c, .live, 0x0⟩, ⟨8, 1, .w1c, .live, 0x0⟩, ⟨7, 1, .w1c, .live, 0x0⟩, ⟨6, 1, .w1c, .live, 0x0⟩,
     ⟨5, 1, .w1c, .live, 0x0⟩, ⟨4, 1, .w1c, .live, 0x0⟩, ⟨1, 1, .w1c, .live, 0x0⟩, ⟨0, 1, .w1c, .live, 0x0⟩]⟩,
  ⟨"GFM_CORE_CNT0", 0x14002C, [(4, 0x10000)],
    [⟨16, 16, .cnt, .live, 0x0⟩, ⟨0, 16, .cnt, .live, 0x0⟩]⟩,
  ⟨"GFM_CORE_CNT1", 0x140030, [(4, 0x10000)],
    [⟨16, 16, .cnt, .live, 0x0⟩, ⟨0, 16, .cnt, .live, 0x0⟩]⟩,
  ⟨"GFM_MP_EFF", 0x140034, [(4, 0x10000)],
    [⟨0, 32, .ro, .live, 0x0⟩]⟩]

/-- Registers of 03_sharing_black_start.md. -/
def regs03 : List RegDesc := [
  ⟨"GFM_HCH_CFG", 0x140060, [(4, 0x10000), (12, 0x4)],
    [⟨16, 1, .ro, .live, 0x0⟩, ⟨12, 4, .ro, .live, 0x0⟩, ⟨2, 6, .rw, .idle, 0x5⟩, ⟨1, 1, .rw, .idle, 0x1⟩,
     ⟨0, 1, .rw, .shadowed, 0x0⟩]⟩,
  ⟨"GFM_HCH_IH", 0x140090, [(4, 0x10000), (12, 0x4)],
    [⟨0, 32, .ro, .live, 0x0⟩]⟩,
  ⟨"GFM_HCH_VH", 0x1400C0, [(4, 0x10000), (12, 0x4)],
    [⟨0, 32, .ro, .live, 0x0⟩]⟩,
  ⟨"GFM_SYNC_DANG", 0x140050, [(4, 0x10000)],
    [⟨0, 32, .ro, .live, 0x0⟩]⟩,
  ⟨"GFM_SYNC_DFREQ", 0x140054, [(4, 0x10000)],
    [⟨0, 32, .ro, .live, 0x0⟩]⟩,
  ⟨"GFM_SYNC_DVOLT", 0x140058, [(4, 0x10000)],
    [⟨0, 32, .ro, .live, 0x0⟩]⟩,
  ⟨"GFM_START_STATUS", 0x140040, [(4, 0x10000)],
    [⟨16, 8, .ro, .live, 0x0⟩, ⟨8, 4, .ro, .live, 0x0⟩, ⟨2, 1, .ro, .live, 0x0⟩, ⟨1, 1, .ro, .live, 0x0⟩,
     ⟨0, 1, .ro, .live, 0x0⟩]⟩,
  ⟨"GFM_SBS_FLAGS", 0x140044, [(4, 0x10000)],
    [⟨9, 1, .w1c, .live, 0x0⟩, ⟨8, 1, .w1c, .live, 0x0⟩, ⟨7, 1, .w1c, .live, 0x0⟩, ⟨6, 1, .w1c, .live, 0x0⟩,
     ⟨5, 1, .w1c, .live, 0x0⟩, ⟨4, 1, .w1c, .live, 0x0⟩, ⟨3, 1, .w1c, .live, 0x0⟩, ⟨2, 1, .w1c, .live, 0x0⟩,
     ⟨1, 1, .w1c, .live, 0x0⟩, ⟨0, 1, .w1c, .live, 0x0⟩]⟩,
  ⟨"GFM_SBS_CNT0", 0x140048, [(4, 0x10000)],
    [⟨16, 16, .cnt, .live, 0x0⟩, ⟨0, 16, .cnt, .live, 0x0⟩]⟩,
  ⟨"GFM_SBS_CNT1", 0x14004C, [(4, 0x10000)],
    [⟨16, 16, .cnt, .live, 0x0⟩, ⟨0, 16, .cnt, .live, 0x0⟩]⟩]

/-- Registers of 04_fault_ride_through.md. -/
def regs04 : List RegDesc := [
  ⟨"GFM_FRT_STATUS", 0x140038, [(4, 0x10000)],
    [⟨16, 16, .ro, .live, 0x0⟩, ⟨4, 1, .ro, .live, 0x0⟩, ⟨3, 1, .ro, .live, 0x0⟩, ⟨2, 1, .ro, .live, 0x0⟩,
     ⟨1, 1, .ro, .live, 0x0⟩, ⟨0, 1, .ro, .live, 0x0⟩]⟩,
  ⟨"GFM_FRT_FLAGS", 0x14003C, [(4, 0x10000)],
    [⟨6, 1, .w1c, .live, 0x0⟩, ⟨5, 1, .w1c, .live, 0x0⟩, ⟨4, 1, .w1c, .live, 0x0⟩, ⟨3, 1, .w1c, .live, 0x0⟩,
     ⟨2, 1, .w1c, .live, 0x0⟩, ⟨1, 1, .w1c, .live, 0x0⟩, ⟨0, 1, .w1c, .live, 0x0⟩]⟩,
  ⟨"GFM_TRIP_CAUSE", 0x1400F0, [(4, 0x10000)],
    [⟨16, 11, .ro, .live, 0x0⟩, ⟨0, 8, .ro, .live, 0x0⟩]⟩,
  ⟨"GFM_FRT_CNT0", 0x1400F4, [(4, 0x10000)],
    [⟨16, 16, .cnt, .live, 0x0⟩, ⟨0, 16, .cnt, .live, 0x0⟩]⟩,
  ⟨"GFM_FRT_CNT1", 0x1400F8, [(4, 0x10000)],
    [⟨16, 16, .cnt, .live, 0x0⟩, ⟨0, 16, .cnt, .live, 0x0⟩]⟩,
  ⟨"GFM_I_CEIL", 0x1400FC, [(4, 0x10000)],
    [⟨0, 32, .ro, .live, 0x0⟩]⟩]

/-- Registers of 05_trestle.md. -/
def regs05 : List RegDesc := [
  ⟨"TRS_STATUS", 0x120000, [(2, 0x10000)],
    [⟨20, 4, .ro, .live, 0x0⟩, ⟨16, 1, .ro, .live, 0x0⟩, ⟨1, 1, .ro, .live, 0x0⟩, ⟨0, 1, .ro, .live, 0x0⟩]⟩,
  ⟨"TRS_BANK", 0x120004, [],
    [⟨12, 4, .ro, .live, 0x0⟩, ⟨0, 1, .wo, .live, 0x0⟩]⟩,
  ⟨"TRS_IMAGE_ACT", 0x120008, [(2, 0x10000)],
    [⟨0, 32, .ro, .live, 0x0⟩]⟩,
  ⟨"TRS_IMAGE_SHD", 0x12000C, [(2, 0x10000)],
    [⟨0, 32, .ro, .live, 0x0⟩]⟩,
  ⟨"TRS_FLAGS", 0x120010, [(2, 0x10000)],
    [⟨13, 1, .w1c, .live, 0x0⟩, ⟨12, 1, .w1c, .live, 0x0⟩, ⟨11, 1, .w1c, .live, 0x0⟩, ⟨10, 1, .w1c, .live, 0x0⟩,
     ⟨9, 1, .w1c, .live, 0x0⟩, ⟨8, 1, .w1c, .live, 0x0⟩, ⟨7, 1, .w1c, .live, 0x0⟩, ⟨6, 1, .w1c, .live, 0x0⟩,
     ⟨5, 1, .w1c, .live, 0x0⟩, ⟨4, 1, .w1c, .live, 0x0⟩, ⟨3, 1, .w1c, .live, 0x0⟩, ⟨2, 1, .w1c, .live, 0x0⟩,
     ⟨1, 1, .w1c, .live, 0x0⟩, ⟨0, 1, .w1c, .live, 0x0⟩]⟩,
  ⟨"TRS_DEADLINE", 0x120020, [(2, 0x10000), (4, 0x4)],
    [⟨0, 32, .ro, .live, 0x0⟩]⟩,
  ⟨"TRS_EXEC_MAX", 0x120030, [(2, 0x10000), (4, 0x4)],
    [⟨0, 32, .rc, .live, 0x0⟩]⟩,
  ⟨"TRS_CNT", 0x120040, [(2, 0x10000), (4, 0x4)],
    [⟨16, 16, .cnt, .live, 0x0⟩, ⟨0, 16, .cnt, .live, 0x0⟩]⟩,
  ⟨"TRS_OVR_STAT", 0x120050, [(2, 0x10000), (4, 0x4)],
    [⟨16, 8, .cnt, .live, 0x0⟩, ⟨8, 6, .ro, .live, 0x0⟩, ⟨0, 2, .ro, .live, 0x0⟩]⟩,
  ⟨"TRS_COST", 0x120060, [(2, 0x10000), (4, 0x4)],
    [⟨16, 11, .ro, .live, 0x0⟩, ⟨0, 16, .ro, .live, 0x0⟩]⟩,
  ⟨"TRS_DMEM_ADDR", 0x120080, [(2, 0x10000)],
    [⟨2, 16, .rw, .live, 0x0⟩]⟩,
  ⟨"TRS_DMEM_DATA", 0x120084, [(2, 0x10000)],
    [⟨0, 32, .ro, .live, 0x0⟩]⟩,
  ⟨"TRS_LOOP_CFG", 0x120100, [(64, 0x4)],
    [⟨26, 6, .rw, .shadowed, 0x0⟩, ⟨25, 1, .rw, .shadowed, 0x0⟩, ⟨24, 1, .ro, .live, 0x0⟩, ⟨14, 10, .ro, .live, 0x0⟩,
     ⟨4, 10, .ro, .live, 0x0⟩, ⟨2, 2, .ro, .live, 0x0⟩, ⟨0, 1, .ro, .live, 0x0⟩]⟩,
  ⟨"TRS_LOOP_KP", 0x120200, [(64, 0x4)],
    [⟨0, 32, .rw, .shadowed, 0x0⟩]⟩,
  ⟨"TRS_LOOP_KI", 0x120300, [(64, 0x4)],
    [⟨0, 32, .rw, .shadowed, 0x0⟩]⟩,
  ⟨"TRS_LOOP_EMIN", 0x120400, [(64, 0x4)],
    [⟨0, 32, .rw, .shadowed, 0x0⟩]⟩,
  ⟨"TRS_LOOP_EMAX", 0x120500, [(64, 0x4)],
    [⟨0, 32, .rw, .shadowed, 0x0⟩]⟩,
  ⟨"TRS_IN_CFG", 0x120800, [(256, 0x4)],
    [⟨21, 11, .rw, .idle, 0x8⟩, ⟨20, 1, .rw, .idle, 0x0⟩, ⟨18, 2, .rw, .idle, 0x0⟩, ⟨16, 2, .rw, .idle, 0x0⟩,
     ⟨13, 3, .rw, .idle, 0x0⟩, ⟨10, 1, .rw, .idle, 0x0⟩, ⟨0, 10, .rw, .idle, 0x0⟩]⟩,
  ⟨"TRS_FB_LOST", 0x120C00, [(2, 0x10000), (4, 0x8), (2, 0x4)],
    [⟨0, 32, .ro, .live, 0x0⟩]⟩]

/-- Registers of 06_pwm_gate.md. -/
def regs06 : List RegDesc := [
  ⟨"PWM_TB_CFG", 0x80000, [(4, 0x10000)],
    [⟨10, 6, .rw, .idle, 0x0⟩, ⟨4, 2, .rw, .idle, 0x0⟩, ⟨1, 1, .rw, .idle, 0x0⟩, ⟨0, 1, .rw, .idle, 0x0⟩]⟩,
  ⟨"PWM_TB_CTRL", 0x80004, [(4, 0x10000)],
    [⟨1, 1, .wo, .live, 0x0⟩, ⟨0, 1, .rw, .idle, 0x0⟩]⟩,
  ⟨"PWM_PRD", 0x80008, [(4, 0x10000)],
    [⟨0, 32, .rw, .shadowed, 0x0⟩]⟩,
  ⟨"PWM_PRD_ACT", 0x8000C, [(4, 0x10000)],
    [⟨0, 32, .ro, .live, 0x0⟩]⟩,
  ⟨"PWM_TB_CNT", 0x80010, [(4, 0x10000)],
    [⟨31, 1, .ro, .live, 0x0⟩, ⟨0, 31, .ro, .live, 0x0⟩]⟩,
  ⟨"PWM_STATUS", 0x80014, [(4, 0x10000)],
    [⟨4, 3, .ro, .live, 0x0⟩, ⟨3, 1, .ro, .live, 0x0⟩, ⟨1, 1, .ro, .live, 0x0⟩, ⟨0, 1, .ro, .live, 0x0⟩]⟩,
  ⟨"PWM_FLAGS", 0x80018, [(4, 0x10000)],
    [⟨4, 1, .w1c, .live, 0x0⟩, ⟨3, 1, .w1c, .live, 0x0⟩, ⟨2, 1, .w1c, .live, 0x0⟩, ⟨1, 1, .w1c, .live, 0x0⟩,
     ⟨0, 1, .w1c, .live, 0x0⟩]⟩,
  ⟨"PWM_CNT", 0x8001C, [(4, 0x10000)],
    [⟨16, 16, .cnt, .live, 0x0⟩, ⟨0, 16, .cnt, .live, 0x0⟩]⟩,
  ⟨"PWM_SET_OFS", 0x80020, [(4, 0x10000), (4, 0x4)],
    [⟨0, 32, .rw, .shadowed, 0x0⟩]⟩,
  ⟨"PWM_CMPA", 0x80080, [(4, 0x10000), (12, 0x4)],
    [⟨0, 32, .rw, .shadowed, 0x0⟩]⟩,
  ⟨"PWM_CMPB", 0x800C0, [(4, 0x10000), (12, 0x4)],
    [⟨0, 32, .rw, .shadowed, 0x0⟩]⟩,
  ⟨"PWM_HB_EN", 0x80030, [(4, 0x10000)],
    [⟨0, 12, .rw, .live, 0x0⟩]⟩,
  ⟨"PWM_OVR", 0x80034, [(4, 0x10000)],
    [⟨16, 12, .rw, .shadowed, 0x0⟩, ⟨0, 6, .rw, .shadowed, 0x0⟩]⟩,
  ⟨"PWM_MASK_SRC", 0x80038, [(4, 0x10000)],
    [⟨31, 1, .rw, .idle, 0x0⟩, ⟨28, 3, .rw, .live, 0x0⟩, ⟨12, 16, .rw, .idle, 0x0⟩, ⟨8, 4, .rw, .idle, 0x0⟩,
     ⟨4, 4, .rw, .idle, 0x0⟩, ⟨0, 4, .rw, .idle, 0x0⟩]⟩,
  ⟨"PWM_TRG", 0x80040, [(4, 0x10000), (8, 0x4)],
    [⟨31, 1, .rw, .shadowed, 0x0⟩, ⟨30, 1, .rw, .shadowed, 0x0⟩, ⟨0, 16, .rw, .shadowed, 0x0⟩]⟩,
  ⟨"PWM_HB_CFG", 0x80100, [(4, 0x10000), (12, 0x4)],
    [⟨0, 2, .rw, .idle, 0x0⟩]⟩,
  ⟨"PWM_MASK", 0x80140, [(4, 0x10000), (8, 0x4)],
    [⟨0, 24, .rw, .shadowed, 0x0⟩]⟩,
  ⟨"GATE_OTP", 0xC0000, [(4, 0x10000)],
    [⟨23, 9, .ro, .live, 0x0⟩, ⟨12, 9, .ro, .live, 0x0⟩, ⟨0, 8, .ro, .live, 0x0⟩]⟩,
  ⟨"GATE_LATCH", 0xC0004, [(4, 0x10000)],
    [⟨0, 12, .ro, .live, 0x0⟩]⟩,
  ⟨"GATE_LCAUSE", 0xC000C, [(4, 0x10000)],
    [⟨0, 24, .ro, .live, 0x0⟩]⟩,
  ⟨"GATE_STATUS", 0xC001C, [(4, 0x10000)],
    [⟨16, 12, .ro, .live, 0x0⟩, ⟨0, 12, .ro, .live, 0x0⟩]⟩,
  ⟨"GATE_TRIP", 0xC0008, [(4, 0x10000)],
    [⟨6, 1, .ro, .live, 0x0⟩, ⟨4, 2, .ro, .live, 0x0⟩, ⟨0, 4, .ro, .live, 0x0⟩]⟩,
  ⟨"GATE_FLAGS", 0xC0010, [(4, 0x10000)],
    [⟨6, 1, .w1c, .live, 0x0⟩, ⟨5, 1, .w1c, .live, 0x0⟩, ⟨4, 1, .w1c, .live, 0x0⟩, ⟨3, 1, .w1c, .live, 0x0⟩,
     ⟨2, 1, .w1c, .live, 0x0⟩, ⟨1, 1, .w1c, .live, 0x0⟩, ⟨0, 1, .w1c, .live, 0x0⟩]⟩,
  ⟨"GATE_TEST", 0xC0014, [(4, 0x10000)],
    [⟨16, 16, .wo, .live, 0x0⟩, ⟨5, 1, .wo, .live, 0x0⟩, ⟨4, 1, .wo, .live, 0x0⟩, ⟨0, 4, .wo, .live, 0x0⟩]⟩,
  ⟨"GATE_CNT", 0xC0018, [(4, 0x10000)],
    [⟨16, 16, .cnt, .live, 0x0⟩, ⟨0, 16, .cnt, .live, 0x0⟩]⟩]

/-- Registers of 06_pwm_gate.md. -/
def regs06b : List RegDesc := [
  ⟨"GATE_RMV", 0xC0040, [(4, 0x10000), (12, 0x4)],
    [⟨16, 16, .cnt, .live, 0x0⟩, ⟨0, 16, .cnt, .live, 0x0⟩]⟩,
  ⟨"GATE_WCMP_CFG", 0xC0080, [(4, 0x10000), (6, 0x4)],
    [⟨4, 1, .rw, .idle, 0x0⟩, ⟨0, 4, .rw, .idle, 0x0⟩]⟩,
  ⟨"GATE_WCMP_LIM", 0xC00A0, [(4, 0x10000), (6, 0x4)],
    [⟨16, 12, .rw, .idle, 0x0⟩, ⟨0, 12, .rw, .idle, 0x0⟩]⟩,
  ⟨"GATE_WCMP_TRIP", 0xC00C0, [(4, 0x10000), (6, 0x4)],
    [⟨16, 12, .ro, .live, 0x0⟩, ⟨0, 12, .ro, .live, 0x0⟩]⟩]

/-- Registers of 07_conversion.md. -/
def regs07 : List RegDesc := [
  ⟨"ADC_SEQ", 0x100000, [(16, 0x40), (16, 0x4)],
    [⟨16, 3, .rw, .shadowed, 0x0⟩, ⟨8, 8, .rw, .shadowed, 0x2⟩, ⟨0, 4, .rw, .shadowed, 0x0⟩]⟩,
  ⟨"ADC_CFG", 0x100400, [(16, 0x4)],
    [⟨31, 1, .rw, .idle, 0x0⟩, ⟨0, 5, .rw, .shadowed, 0x1⟩]⟩,
  ⟨"ADC_GO", 0x100480, [],
    [⟨0, 16, .wo, .live, 0x0⟩]⟩,
  ⟨"ADC_PLS_CFG", 0x100680, [(8, 0x4)],
    [⟨31, 1, .rw, .idle, 0x0⟩, ⟨16, 8, .rw, .shadowed, 0x2⟩]⟩,
  ⟨"ADC_TRGMAP_PWM", 0x100500, [(16, 0x4)],
    [⟨0, 32, .rw, .live, 0x0⟩]⟩,
  ⟨"ADC_TRGMAP_CAP", 0x100540, [(16, 0x4)],
    [⟨0, 32, .rw, .live, 0x0⟩]⟩,
  ⟨"ADC_URG", 0x100580, [(16, 0x4)],
    [⟨31, 1, .wo, .live, 0x0⟩, ⟨16, 3, .rw, .live, 0x0⟩, ⟨8, 8, .rw, .live, 0x2⟩, ⟨0, 4, .rw, .live, 0x0⟩]⟩,
  ⟨"ADC_URG_RES", 0x1005C0, [(16, 0x4)],
    [⟨31, 1, .ro, .live, 0x0⟩, ⟨16, 1, .ro, .live, 0x0⟩, ⟨0, 16, .ro, .live, 0x0⟩]⟩,
  ⟨"ADC_RES", 0x100C00, [(16, 0x40), (16, 0x4)],
    [⟨24, 8, .ro, .live, 0x0⟩, ⟨16, 1, .ro, .live, 0x0⟩, ⟨0, 16, .ro, .live, 0x0⟩]⟩,
  ⟨"ADC_STATUS", 0x100600, [],
    [⟨16, 16, .ro, .live, 0x0⟩, ⟨0, 16, .ro, .live, 0x0⟩]⟩,
  ⟨"ADC_FLAGS", 0x100604, [],
    [⟨10, 1, .w1c, .live, 0x0⟩, ⟨9, 1, .w1c, .live, 0x0⟩, ⟨8, 1, .w1c, .live, 0x0⟩, ⟨7, 1, .w1c, .live, 0x0⟩,
     ⟨6, 1, .w1c, .live, 0x0⟩, ⟨5, 1, .w1c, .live, 0x0⟩, ⟨4, 1, .w1c, .live, 0x0⟩, ⟨3, 1, .w1c, .live, 0x0⟩,
     ⟨2, 1, .w1c, .live, 0x0⟩, ⟨1, 1, .w1c, .live, 0x0⟩, ⟨0, 1, .w1c, .live, 0x0⟩]⟩,
  ⟨"ADC_CNT", 0x100640, [(16, 0x4)],
    [⟨16, 16, .cnt, .live, 0x0⟩, ⟨0, 16, .cnt, .live, 0x0⟩]⟩,
  ⟨"ADC_PLS_STAT", 0x1006A0, [(8, 0x4)],
    [⟨16, 16, .cnt, .live, 0x0⟩, ⟨8, 8, .ro, .live, 0x0⟩, ⟨1, 1, .ro, .live, 0x0⟩, ⟨0, 1, .ro, .live, 0x0⟩]⟩,
  ⟨"ADC_PLS_OTP0", 0x1006C0, [],
    [⟨24, 8, .ro, .live, 0x0⟩, ⟨0, 12, .ro, .live, 0x0⟩]⟩,
  ⟨"ADC_PLS_OTP1", 0x1006C4, [],
    [⟨16, 16, .ro, .live, 0x0⟩, ⟨0, 16, .ro, .live, 0x0⟩]⟩,
  ⟨"ADC_CAL_CTRL", 0x1006E0, [],
    [⟨31, 1, .wo, .live, 0x0⟩, ⟨30, 1, .wo, .live, 0x0⟩, ⟨16, 4, .rw, .live, 0x0⟩, ⟨8, 4, .ro, .live, 0x0⟩,
     ⟨4, 4, .ro, .live, 0x0⟩, ⟨0, 3, .ro, .live, 0x0⟩]⟩,
  ⟨"ADC_CAL", 0x100800, [(16, 0x20), (5, 0x4)],
    [⟨16, 16, .ro, .live, 0x8000⟩, ⟨0, 16, .ro, .live, 0x0⟩]⟩,
  ⟨"SDM_CLK", 0x110000, [(8, 0x4)],
    [⟨31, 1, .rw, .idle, 0x0⟩, ⟨0, 8, .rw, .idle, 0x8⟩]⟩,
  ⟨"SDM_CFG", 0x110100, [(48, 0x4)],
    [⟨31, 1, .rw, .idle, 0x0⟩, ⟨30, 1, .rw, .idle, 0x0⟩, ⟨28, 2, .rw, .idle, 0x0⟩, ⟨24, 3, .rw, .idle, 0x0⟩,
     ⟨16, 4, .rw, .idle, 0x0⟩, ⟨12, 3, .rw, .idle, 0x2⟩, ⟨0, 11, .rw, .idle, 0x40⟩]⟩,
  ⟨"SDM_SF_CFG", 0x110200, [(48, 0x4)],
    [⟨31, 1, .rw, .idle, 0x0⟩, ⟨20, 2, .rw, .idle, 0x0⟩, ⟨16, 4, .rw, .idle, 0x0⟩, ⟨0, 6, .rw, .idle, 0x8⟩]⟩,
  ⟨"SDM_SF_LIM", 0x110300, [(48, 0x4)],
    [⟨16, 16, .rw, .idle, 0x0⟩, ⟨0, 16, .rw, .idle, 0x0⟩]⟩,
  ⟨"SDM_RES", 0x110400, [(48, 0x4)],
    [⟨0, 32, .ro, .live, 0x0⟩]⟩,
  ⟨"SDM_SETTLED", 0x110600, [(2, 0x4)],
    [⟨0, 32, .ro, .live, 0x0⟩]⟩,
  ⟨"SDM_NOTRANS", 0x110608, [(2, 0x4)],
    [⟨0, 32, .ro, .live, 0x0⟩]⟩,
  ⟨"SDM_FLAGS", 0x110610, [],
    [⟨4, 1, .w1c, .live, 0x0⟩, ⟨3, 1, .w1c, .live, 0x0⟩, ⟨2, 1, .w1c, .live, 0x0⟩, ⟨1, 1, .w1c, .live, 0x0⟩,
     ⟨0, 1, .w1c, .live, 0x0⟩]⟩]

/-- Registers of 08_battery_rings.md. -/
def regs08 : List RegDesc := [
  ⟨"AQR_CFG", 0x200000, [(4, 0x10000), (16, 0x1000)],
    [⟨31, 1, .rw, .live, 0x1⟩, ⟨26, 2, .rw, .shadowed, 0x0⟩, ⟨16, 10, .rw, .idle, 0x0⟩]⟩,
  ⟨"AQR_CTRL", 0x200004, [(4, 0x10000), (16, 0x1000)],
    [⟨1, 1, .wo, .live, 0x0⟩, ⟨0, 1, .wo, .live, 0x0⟩]⟩,
  ⟨"AQR_STALE_T", 0x200020, [(4, 0x10000), (16, 0x1000)],
    [⟨0, 13, .rw, .shadowed, 0x1F4⟩]⟩,
  ⟨"AQR_SWEEP", 0x20001C, [(4, 0x10000), (16, 0x1000)],
    [⟨22, 10, .rw, .shadowed, 0x64⟩, ⟨15, 7, .rw, .shadowed, 0x20⟩, ⟨9, 6, .rw, .shadowed, 0x8⟩, ⟨2, 7, .rw, .shadowed, 0xA⟩,
     ⟨1, 1, .rw, .shadowed, 0x1⟩]⟩,
  ⟨"AQR_STATE", 0x200008, [(4, 0x10000), (16, 0x1000)],
    [⟨16, 10, .ro, .live, 0x0⟩, ⟨9, 6, .ro, .live, 0x0⟩, ⟨8, 1, .ro, .live, 0x0⟩, ⟨7, 1, .ro, .live, 0x0⟩,
     ⟨6, 1, .ro, .live, 0x0⟩, ⟨5, 1, .ro, .live, 0x0⟩, ⟨4, 1, .ro, .live, 0x0⟩, ⟨3, 1, .ro, .live, 0x0⟩,
     ⟨0, 3, .ro, .live, 0x0⟩]⟩,
  ⟨"AQR_FLAGS", 0x20000C, [(4, 0x10000), (16, 0x1000)],
    [⟨16, 1, .w1c, .live, 0x0⟩, ⟨15, 1, .w1c, .live, 0x0⟩, ⟨14, 1, .w1c, .live, 0x0⟩, ⟨13, 1, .w1c, .live, 0x0⟩,
     ⟨12, 1, .w1c, .live, 0x0⟩, ⟨11, 1, .w1c, .live, 0x0⟩, ⟨10, 1, .w1c, .live, 0x0⟩, ⟨9, 1, .w1c, .live, 0x0⟩,
     ⟨8, 1, .w1c, .live, 0x0⟩, ⟨7, 1, .w1c, .live, 0x0⟩, ⟨6, 1, .w1c, .live, 0x0⟩, ⟨5, 1, .w1c, .live, 0x0⟩,
     ⟨4, 1, .w1c, .live, 0x0⟩, ⟨3, 1, .w1c, .live, 0x0⟩, ⟨2, 1, .w1c, .live, 0x0⟩, ⟨1, 1, .w1c, .live, 0x0⟩,
     ⟨0, 1, .w1c, .live, 0x0⟩]⟩,
  ⟨"AQR_CNT0", 0x200010, [(4, 0x10000), (16, 0x1000)],
    [⟨16, 16, .cnt, .live, 0x0⟩, ⟨0, 16, .cnt, .live, 0x0⟩]⟩,
  ⟨"AQR_CNT1", 0x200014, [(4, 0x10000), (16, 0x1000)],
    [⟨16, 16, .cnt, .live, 0x0⟩, ⟨0, 16, .cnt, .live, 0x0⟩]⟩,
  ⟨"AQR_CNT2", 0x200018, [(4, 0x10000), (16, 0x1000)],
    [⟨16, 16, .cnt, .live, 0x0⟩, ⟨0, 16, .cnt, .live, 0x0⟩]⟩,
  ⟨"AQR_SWEEP_STAT", 0x200024, [(4, 0x10000), (16, 0x1000)],
    [⟨16, 16, .ro, .live, 0x0⟩, ⟨0, 16, .ro, .live, 0x0⟩]⟩,
  ⟨"AQR_BREAK", 0x200028, [(4, 0x10000), (16, 0x1000)],
    [⟨16, 10, .ro, .live, 0x3FF⟩, ⟨0, 10, .ro, .live, 0x3FF⟩]⟩,
  ⟨"AQR_ALARM", 0x20002C, [(4, 0x10000), (16, 0x1000)],
    [⟨31, 1, .ro, .live, 0x0⟩, ⟨16, 9, .ro, .live, 0x0⟩, ⟨0, 7, .ro, .live, 0x0⟩]⟩,
  ⟨"AQR_FIRST_UID", 0x200030, [(4, 0x10000), (16, 0x1000)],
    [⟨0, 32, .rw, .idle, 0x0⟩]⟩,
  ⟨"AQR_LAST_UID", 0x200034, [(4, 0x10000), (16, 0x1000)],
    [⟨0, 32, .rw, .idle, 0x0⟩]⟩,
  ⟨"AQR_ROSTER", 0x200800, [(4, 0x10000), (16, 0x1000), (512, 0x4)],
    [⟨0, 32, .ro, .live, 0x0⟩]⟩,
  ⟨"AQR_CMD_HDR", 0x200040, [(4, 0x10000), (16, 0x1000)],
    [⟨24, 5, .rw, .live, 0x0⟩, ⟨15, 9, .rw, .live, 0x0⟩, ⟨8, 6, .rw, .live, 0x0⟩]⟩,
  ⟨"AQR_CMD_ARG", 0x200044, [(4, 0x10000), (16, 0x1000)],
    [⟨0, 32, .rw, .live, 0x0⟩]⟩,
  ⟨"AQR_CMD_CTRL", 0x200048, [(4, 0x10000), (16, 0x1000)],
    [⟨8, 5, .rw, .live, 0x0⟩, ⟨0, 1, .wo, .live, 0x0⟩]⟩,
  ⟨"AQR_CMD_RES", 0x20004C, [(4, 0x10000), (16, 0x1000)],
    [⟨31, 1, .ro, .live, 0x0⟩, ⟨28, 3, .ro, .live, 0x0⟩, ⟨0, 8, .ro, .live, 0x0⟩]⟩,
  ⟨"AQR_CMD_DATA", 0x200080, [(4, 0x10000), (16, 0x1000), (16, 0x4)],
    [⟨0, 32, .rw, .live, 0x0⟩]⟩,
  ⟨"AQR_NODE_STALE", 0x200100, [(4, 0x10000), (16, 0x1000), (16, 0x4)],
    [⟨0, 32, .ro, .live, 0x0⟩]⟩,
  ⟨"AQR_NODE_PRESENT", 0x200140, [(4, 0x10000), (16, 0x1000), (16, 0x4)],
    [⟨0, 32, .ro, .live, 0x0⟩]⟩,
  ⟨"SHF_CTRL", 0x1F0000, [],
    [⟨31, 1, .wo, .live, 0x0⟩, ⟨30, 1, .wo, .live, 0x0⟩, ⟨0, 6, .rw, .live, 0x0⟩]⟩,
  ⟨"SHF_STATUS", 0x1F0004, [],
    [⟨0, 1, .ro, .live, 0x0⟩]⟩,
  ⟨"SHF_FLAGS", 0x1F0008, [],
    [⟨1, 1, .w1c, .live, 0x0⟩, ⟨0, 1, .w1c, .live, 0x0⟩]⟩]

/-- Registers of 08_battery_rings.md. -/
def regs08b : List RegDesc := [
  ⟨"SHF_DROP_CNT", 0x1F000C, [],
    [⟨0, 16, .cnt, .live, 0x0⟩]⟩,
  ⟨"SHF_AGG0", 0x1F1000, [(64, 0x40)],
    [⟨16, 16, .ro, .live, 0x0⟩, ⟨0, 16, .ro, .live, 0x0⟩]⟩,
  ⟨"SHF_AGG1", 0x1F1004, [(64, 0x40)],
    [⟨16, 16, .ro, .live, 0x0⟩, ⟨0, 16, .ro, .live, 0x0⟩]⟩,
  ⟨"SHF_AGG2", 0x1F1008, [(64, 0x40)],
    [⟨16, 9, .ro, .live, 0x1FF⟩, ⟨0, 8, .ro, .live, 0x0⟩]⟩,
  ⟨"SHF_AGG3", 0x1F100C, [(64, 0x40)],
    [⟨16, 9, .ro, .live, 0x1FF⟩, ⟨0, 8, .ro, .live, 0x0⟩]⟩,
  ⟨"SHF_AGG4", 0x1F1010, [(64, 0x40)],
    [⟨16, 9, .ro, .live, 0x1FF⟩, ⟨0, 8, .ro, .live, 0x0⟩]⟩,
  ⟨"SHF_AGG5", 0x1F1014, [(64, 0x40)],
    [⟨16, 9, .ro, .live, 0x1FF⟩, ⟨0, 8, .ro, .live, 0x0⟩]⟩,
  ⟨"SHF_AGG6", 0x1F1018, [(64, 0x40)],
    [⟨0, 32, .ro, .live, 0x0⟩]⟩,
  ⟨"SHF_AGG7", 0x1F101C, [(64, 0x40)],
    [⟨24, 8, .ro, .live, 0x0⟩, ⟨23, 1, .ro, .live, 0x1⟩, ⟨0, 17, .ro, .live, 0x0⟩]⟩,
  ⟨"SHF_AGG8", 0x1F1020, [(64, 0x40)],
    [⟨0, 17, .ro, .live, 0x0⟩, ⟨17, 15, .ro, .live, 0x0⟩]⟩,
  ⟨"SHF_PCLASS", 0x1F2000, [(4, 0x40), (10, 0x4)],
    [⟨0, 32, .rw, .shadowed, 0x0⟩]⟩]

/-- Registers of 09_chest.md. -/
def regs09 : List RegDesc := [
  ⟨"CHS_CTRL", 0x1D0000, [],
    [⟨2, 1, .wo, .live, 0x0⟩, ⟨1, 1, .wo, .live, 0x0⟩, ⟨0, 1, .wo, .live, 0x0⟩]⟩,
  ⟨"CHS_CFG", 0x1D0004, [],
    [⟨16, 16, .rw, .idle, 0x0⟩, ⟨2, 1, .rw, .idle, 0x1⟩, ⟨1, 1, .rw, .idle, 0x0⟩, ⟨0, 1, .rw, .idle, 0x0⟩]⟩,
  ⟨"CHS_STATUS", 0x1D0008, [],
    [⟨16, 16, .ro, .live, 0x0⟩, ⟨12, 4, .ro, .live, 0x0⟩, ⟨0, 3, .ro, .live, 0x0⟩]⟩,
  ⟨"CHS_FLAGS", 0x1D000C, [],
    [⟨10, 1, .w1c, .live, 0x0⟩, ⟨9, 1, .w1c, .live, 0x0⟩, ⟨8, 1, .w1c, .live, 0x0⟩, ⟨7, 1, .w1c, .live, 0x0⟩,
     ⟨6, 1, .w1c, .live, 0x0⟩, ⟨5, 1, .w1c, .live, 0x0⟩, ⟨4, 1, .w1c, .live, 0x0⟩, ⟨3, 1, .w1c, .live, 0x0⟩,
     ⟨2, 1, .w1c, .live, 0x0⟩, ⟨1, 1, .w1c, .live, 0x0⟩, ⟨0, 1, .w1c, .live, 0x0⟩]⟩,
  ⟨"CHS_CNT0", 0x1D0010, [],
    [⟨16, 16, .cnt, .live, 0x0⟩, ⟨0, 16, .cnt, .live, 0x0⟩]⟩,
  ⟨"CHS_CNT1", 0x1D0014, [],
    [⟨16, 16, .cnt, .live, 0x0⟩, ⟨0, 16, .cnt, .live, 0x0⟩]⟩,
  ⟨"CHS_AREA", 0x1D0018, [],
    [⟨16, 11, .rw, .idle, 0x7F0⟩, ⟨0, 11, .rw, .idle, 0x0⟩]⟩,
  ⟨"CHS_SEG_LEN", 0x1D001C, [],
    [⟨0, 25, .rw, .idle, 0x1000⟩]⟩,
  ⟨"CHS_PRE", 0x1D0020, [],
    [⟨0, 24, .rw, .idle, 0x0⟩]⟩,
  ⟨"CHS_SEGS", 0x1D0024, [],
    [⟨0, 16, .rw, .idle, 0x0⟩]⟩,
  ⟨"CHS_SLOT", 0x1D0028, [],
    [⟨0, 32, .ro, .live, 0x400⟩]⟩,
  ⟨"CHS_TRG", 0x1D0040, [(8, 0x4)],
    [⟨31, 1, .rw, .shadowed, 0x0⟩, ⟨28, 3, .rw, .shadowed, 0x0⟩, ⟨26, 2, .rw, .shadowed, 0x0⟩, ⟨0, 7, .rw, .shadowed, 0x0⟩]⟩,
  ⟨"CHS_TRG_LEVEL", 0x1D0060, [(8, 0x4)],
    [⟨0, 32, .rw, .shadowed, 0x0⟩]⟩,
  ⟨"CHS_TRG_AUX", 0x1D0080, [(8, 0x4)],
    [⟨0, 32, .rw, .shadowed, 0x0⟩]⟩,
  ⟨"CHS_STR_CFG", 0x1D0100, [(32, 0x4)],
    [⟨31, 1, .rw, .idle, 0x0⟩, ⟨29, 2, .rw, .idle, 0x0⟩, ⟨16, 10, .rw, .idle, 0x0⟩, ⟨0, 16, .rw, .idle, 0x0⟩]⟩]

/-- Registers of 10_dma_check_values.md. -/
def regs10 : List RegDesc := [
  ⟨"DMA_CTRL", 0x1B0000, [],
    [⟨0, 1, .wo, .live, 0x0⟩]⟩,
  ⟨"DMA_STATUS", 0x1B0004, [],
    [⟨16, 16, .ro, .live, 0x0⟩, ⟨8, 6, .ro, .live, 0x0⟩, ⟨0, 1, .ro, .live, 0x0⟩]⟩,
  ⟨"DMA_ERR", 0x1B000C, [],
    [⟨28, 4, .ro, .live, 0x0⟩, ⟨4, 1, .ro, .live, 0x0⟩, ⟨0, 4, .ro, .live, 0x0⟩]⟩,
  ⟨"DMA_ERR_ADDR", 0x1B0010, [],
    [⟨0, 32, .ro, .live, 0x0⟩]⟩,
  ⟨"DMA_FLAGS", 0x1B0008, [],
    [⟨3, 1, .w1c, .live, 0x0⟩, ⟨2, 1, .w1c, .live, 0x0⟩, ⟨1, 1, .w1c, .live, 0x0⟩, ⟨0, 1, .w1c, .live, 0x0⟩]⟩,
  ⟨"DMA_CNT", 0x1B0014, [],
    [⟨16, 16, .cnt, .live, 0x0⟩, ⟨0, 16, .cnt, .live, 0x0⟩]⟩,
  ⟨"DMA_DONE", 0x1B0018, [],
    [⟨0, 16, .w1c, .live, 0x0⟩]⟩,
  ⟨"CH_DESC", 0x1B0100, [(16, 0x10)],
    [⟨6, 26, .rw, .idle, 0x0⟩]⟩,
  ⟨"CH_CTRL", 0x1B0104, [(16, 0x10)],
    [⟨1, 1, .wo, .live, 0x0⟩, ⟨0, 1, .wo, .live, 0x0⟩]⟩,
  ⟨"CH_STATUS", 0x1B0108, [(16, 0x10)],
    [⟨8, 4, .ro, .live, 0x0⟩, ⟨7, 1, .ro, .live, 0x0⟩, ⟨0, 3, .ro, .live, 0x0⟩]⟩,
  ⟨"CH_DONE_CNT", 0x1B010C, [(16, 0x10)],
    [⟨0, 16, .cnt, .live, 0x0⟩]⟩,
  ⟨"CVU_CFG", 0x1C0000, [(8, 0x40)],
    [⟨21, 1, .ro, .live, 0x0⟩, ⟨17, 4, .ro, .live, 0x0⟩, ⟨16, 1, .ro, .live, 0x0⟩, ⟨12, 1, .rw, .idle, 0x0⟩,
     ⟨10, 1, .rw, .idle, 0x0⟩, ⟨9, 1, .rw, .idle, 0x0⟩, ⟨8, 1, .rw, .idle, 0x0⟩, ⟨0, 6, .rw, .idle, 0x1F⟩]⟩,
  ⟨"CVU_CTRL", 0x1C0004, [(8, 0x40)],
    [⟨0, 1, .wo, .live, 0x0⟩]⟩,
  ⟨"CVU_POLY_LO", 0x1C0008, [(8, 0x40)],
    [⟨0, 32, .rw, .idle, 0x0⟩]⟩,
  ⟨"CVU_POLY_HI", 0x1C000C, [(8, 0x40)],
    [⟨0, 32, .rw, .idle, 0x0⟩]⟩,
  ⟨"CVU_INIT_LO", 0x1C0010, [(8, 0x40)],
    [⟨0, 32, .rw, .idle, 0x0⟩]⟩,
  ⟨"CVU_INIT_HI", 0x1C0014, [(8, 0x40)],
    [⟨0, 32, .rw, .idle, 0x0⟩]⟩,
  ⟨"CVU_VALUE_LO", 0x1C0018, [(8, 0x40)],
    [⟨0, 32, .rw, .live, 0x0⟩]⟩,
  ⟨"CVU_VALUE_HI", 0x1C001C, [(8, 0x40)],
    [⟨0, 32, .rw, .live, 0x0⟩]⟩,
  ⟨"CVU_RESULT_LO", 0x1C0020, [(8, 0x40)],
    [⟨0, 32, .ro, .live, 0x0⟩]⟩,
  ⟨"CVU_RESULT_HI", 0x1C0024, [(8, 0x40)],
    [⟨0, 32, .ro, .live, 0x0⟩]⟩,
  ⟨"CVU_DATA8", 0x1C0028, [(8, 0x40)],
    [⟨0, 32, .wo, .live, 0x0⟩]⟩,
  ⟨"CVU_DATA16", 0x1C002C, [(8, 0x40)],
    [⟨0, 32, .wo, .live, 0x0⟩]⟩,
  ⟨"CVU_DATA32", 0x1C0030, [(8, 0x40)],
    [⟨0, 32, .wo, .live, 0x0⟩]⟩,
  ⟨"CVU_FLAGS", 0x1C0400, [],
    [⟨8, 8, .ro, .live, 0x0⟩, ⟨0, 1, .w1c, .live, 0x0⟩]⟩]

/-- Registers of 11_time.md. -/
def regs11 : List RegDesc := [
  ⟨"TIM_NS", 0x70000, [],
    [⟨0, 30, .ro, .live, 0x0⟩]⟩,
  ⟨"TIM_S_LO", 0x70004, [],
    [⟨0, 32, .ro, .live, 0x0⟩]⟩,
  ⟨"TIM_S_HI", 0x70008, [],
    [⟨0, 16, .ro, .live, 0x0⟩]⟩,
  ⟨"TIM_FREE", 0x7000C, [],
    [⟨0, 32, .ro, .live, 0x0⟩]⟩,
  ⟨"TIM_INCR", 0x70010, [],
    [⟨0, 32, .rw, .live, 0x28000000⟩]⟩,
  ⟨"TIM_STEP_LO", 0x70014, [],
    [⟨0, 32, .wo, .live, 0x0⟩]⟩,
  ⟨"TIM_STEP_HI", 0x70018, [],
    [⟨0, 32, .wo, .live, 0x0⟩]⟩,
  ⟨"TIM_EST_WIN", 0x7001C, [],
    [⟨0, 32, .ro, .live, 0x3E8⟩]⟩,
  ⟨"TIM_AON_LO", 0x70034, [],
    [⟨0, 32, .ro, .live, 0x0⟩]⟩,
  ⟨"TIM_AON_HI", 0x70038, [],
    [⟨0, 16, .ro, .live, 0x0⟩]⟩,
  ⟨"TIM_LAST_SLEEP", 0x7003C, [],
    [⟨0, 32, .ro, .live, 0x0⟩]⟩,
  ⟨"TIM_CTRL", 0x70020, [],
    [⟨0, 1, .wo, .live, 0x0⟩]⟩,
  ⟨"TIM_STATUS", 0x70024, [],
    [⟨2, 1, .ro, .live, 0x0⟩, ⟨1, 1, .ro, .live, 0x1⟩, ⟨0, 1, .ro, .live, 0x1⟩]⟩,
  ⟨"TIM_FLAGS", 0x70028, [],
    [⟨6, 1, .w1c, .live, 0x0⟩, ⟨5, 1, .w1c, .live, 0x0⟩, ⟨4, 1, .w1c, .live, 0x0⟩, ⟨3, 1, .w1c, .live, 0x0⟩,
     ⟨2, 1, .w1c, .live, 0x0⟩, ⟨1, 1, .w1c, .live, 0x0⟩, ⟨0, 1, .w1c, .live, 0x0⟩]⟩,
  ⟨"TIM_CNT0", 0x7002C, [],
    [⟨16, 16, .cnt, .live, 0x0⟩, ⟨0, 16, .cnt, .live, 0x0⟩]⟩,
  ⟨"TIM_CNT1", 0x70030, [],
    [⟨16, 16, .cnt, .live, 0x0⟩, ⟨0, 16, .cnt, .live, 0x0⟩]⟩,
  ⟨"TIM_CAP_CFG", 0x70040, [(16, 0x4)],
    [⟨2, 8, .rw, .idle, 0x0⟩, ⟨0, 2, .rw, .idle, 0x0⟩]⟩,
  ⟨"TIM_CAP_LO", 0x70080, [(16, 0x10)],
    [⟨0, 32, .rc, .live, 0x0⟩]⟩,
  ⟨"TIM_CAP_HI", 0x70084, [(16, 0x10)],
    [⟨0, 32, .ro, .live, 0x0⟩]⟩,
  ⟨"TIM_CAP_INFO", 0x70088, [(16, 0x10)],
    [⟨8, 1, .ro, .live, 0x0⟩, ⟨0, 1, .ro, .live, 0x0⟩]⟩,
  ⟨"TIM_CAP_STATUS", 0x70200, [],
    [⟨16, 16, .w1c, .live, 0x0⟩, ⟨0, 16, .ro, .live, 0x0⟩]⟩]

/-- Registers of 12_redundancy.md. -/
def regs12 : List RegDesc := [
  ⟨"RED_STATUS", 0x180000, [],
    [⟨13, 1, .ro, .live, 0x0⟩, ⟨12, 1, .ro, .live, 0x0⟩, ⟨8, 1, .ro, .live, 0x0⟩, ⟨4, 3, .ro, .live, 0x3⟩,
     ⟨0, 3, .ro, .live, 0x1⟩]⟩,
  ⟨"RED_CTRL", 0x180004, [],
    [⟨1, 1, .wo, .live, 0x0⟩, ⟨0, 1, .wo, .live, 0x0⟩]⟩,
  ⟨"RED_LAST", 0x180018, [],
    [⟨20, 12, .ro, .live, 0x0⟩, ⟨8, 12, .ro, .live, 0x0⟩, ⟨1, 2, .ro, .live, 0x0⟩, ⟨0, 1, .ro, .live, 0x0⟩]⟩,
  ⟨"RED_FLAGS", 0x180008, [],
    [⟨10, 1, .w1c, .live, 0x0⟩, ⟨9, 1, .w1c, .live, 0x0⟩, ⟨8, 1, .w1c, .live, 0x0⟩, ⟨7, 1, .w1c, .live, 0x0⟩,
     ⟨6, 1, .w1c, .live, 0x0⟩, ⟨5, 1, .w1c, .live, 0x0⟩, ⟨4, 1, .w1c, .live, 0x0⟩, ⟨3, 1, .w1c, .live, 0x0⟩,
     ⟨2, 1, .w1c, .live, 0x0⟩, ⟨1, 1, .w1c, .live, 0x0⟩, ⟨0, 1, .w1c, .live, 0x0⟩]⟩,
  ⟨"RED_CNT0", 0x18000C, [],
    [⟨16, 16, .cnt, .live, 0x0⟩, ⟨0, 16, .cnt, .live, 0x0⟩]⟩,
  ⟨"RED_CNT1", 0x180010, [],
    [⟨16, 16, .cnt, .live, 0x0⟩, ⟨0, 16, .cnt, .live, 0x0⟩]⟩,
  ⟨"RED_CNT2", 0x180014, [],
    [⟨16, 16, .cnt, .live, 0x0⟩, ⟨0, 16, .cnt, .live, 0x0⟩]⟩,
  ⟨"RED_STN", 0x180020, [(4, 0x4)],
    [⟨31, 1, .ro, .live, 0x0⟩, ⟨30, 1, .ro, .live, 0x0⟩, ⟨28, 2, .ro, .live, 0x0⟩, ⟨16, 10, .ro, .live, 0x0⟩,
     ⟨0, 16, .cnt, .live, 0x0⟩]⟩,
  ⟨"RED_ENG_ERR", 0x180030, [(2, 0x4)],
    [⟨31, 1, .ro, .live, 0x0⟩, ⟨0, 3, .ro, .live, 0x0⟩]⟩]

/-- Registers of 13_safety.md. -/
def regs13 : List RegDesc := [
  ⟨"SAF_STATUS", 0x190000, [],
    [⟨15, 1, .ro, .live, 0x0⟩, ⟨14, 1, .ro, .live, 0x0⟩, ⟨8, 4, .ro, .live, 0x0⟩, ⟨4, 4, .ro, .live, 0xF⟩,
     ⟨0, 4, .ro, .live, 0x0⟩]⟩,
  ⟨"SAF_REQ", 0x190004, [],
    [⟨8, 4, .wo, .live, 0x0⟩, ⟨4, 4, .wo, .live, 0x0⟩, ⟨0, 4, .wo, .live, 0x0⟩]⟩,
  ⟨"SAF_SIN", 0x190014, [],
    [⟨24, 8, .ro, .live, 0x0⟩, ⟨16, 8, .ro, .live, 0x0⟩, ⟨8, 8, .ro, .live, 0x0⟩, ⟨0, 8, .ro, .live, 0x0⟩]⟩,
  ⟨"SAF_SOUT", 0x190018, [],
    [⟨24, 8, .ro, .live, 0x0⟩, ⟨16, 8, .ro, .live, 0x0⟩, ⟨8, 8, .ro, .live, 0x0⟩, ⟨0, 8, .ro, .live, 0x0⟩]⟩,
  ⟨"SAF_LB", 0x19001C, [],
    [⟨10, 1, .ro, .live, 0x0⟩, ⟨9, 1, .ro, .live, 0x0⟩, ⟨8, 1, .ro, .live, 0x0⟩, ⟨0, 4, .ro, .live, 0xF⟩]⟩,
  ⟨"SAF_STN", 0x190020, [(4, 0x4)],
    [⟨24, 8, .ro, .live, 0xF⟩, ⟨17, 1, .ro, .live, 0x0⟩, ⟨16, 1, .ro, .live, 0x1⟩, ⟨0, 3, .ro, .live, 0x2⟩]⟩,
  ⟨"SAF_FLAGS", 0x190008, [],
    [⟨10, 1, .w1c, .live, 0x0⟩, ⟨9, 1, .w1c, .live, 0x0⟩, ⟨8, 1, .w1c, .live, 0x0⟩, ⟨7, 1, .w1c, .live, 0x0⟩,
     ⟨6, 1, .w1c, .live, 0x0⟩, ⟨5, 1, .w1c, .live, 0x0⟩, ⟨4, 1, .w1c, .live, 0x0⟩, ⟨3, 1, .w1c, .live, 0x0⟩,
     ⟨2, 1, .w1c, .live, 0x0⟩, ⟨1, 1, .w1c, .live, 0x0⟩]⟩,
  ⟨"SAF_CNT0", 0x19000C, [],
    [⟨16, 16, .cnt, .live, 0x0⟩, ⟨0, 16, .cnt, .live, 0x0⟩]⟩,
  ⟨"SAF_CNT1", 0x190010, [],
    [⟨16, 16, .cnt, .live, 0x0⟩, ⟨0, 16, .cnt, .live, 0x0⟩]⟩,
  ⟨"SAF_HB_VAL", 0x190030, [(4, 0x4)],
    [⟨0, 32, .ro, .live, 0x0⟩]⟩,
  ⟨"SAF_HB_LIM", 0x190040, [(4, 0x4)],
    [⟨0, 32, .ro, .live, 0x0⟩]⟩,
  ⟨"SAF_PAR", 0x190100, [(4, 0x40), (16, 0x4)],
    [⟨0, 32, .ro, .live, 0x0⟩]⟩,
  ⟨"SAF_TIM0", 0x190050, [],
    [⟨22, 10, .ro, .live, 0x0⟩, ⟨13, 9, .ro, .live, 0x0⟩]⟩,
  ⟨"SAF_TIM1", 0x190054, [],
    [⟨24, 8, .ro, .live, 0x0⟩, ⟨16, 8, .ro, .live, 0x0⟩]⟩,
  ⟨"SAF_SIN_MAP", 0x190060, [(8, 0x4)],
    [⟨4, 2, .ro, .live, 0x0⟩, ⟨0, 4, .ro, .live, 0x0⟩]⟩,
  ⟨"SAF_SOUT_MAP", 0x190080, [(8, 0x4)],
    [⟨0, 4, .ro, .live, 0x0⟩]⟩]

/-- Registers of 14_eznel_host.md. -/
def regs14 : List RegDesc := [
  ⟨"MBX_CLAIM", 0x1A8000, [],
    [⟨31, 1, .rc, .live, 0x0⟩, ⟨0, 5, .rc, .live, 0x0⟩]⟩,
  ⟨"MBX_DOORBELL", 0x1A8004, [],
    [⟨0, 5, .wo, .live, 0x0⟩]⟩,
  ⟨"MBX_STATE", 0x1A8008, [(2, 0x4)],
    [⟨0, 32, .ro, .live, 0x0⟩]⟩,
  ⟨"MBX_DONE", 0x1A8010, [],
    [⟨0, 32, .w1c, .live, 0x0⟩]⟩,
  ⟨"MBX_FREE", 0x1A8014, [],
    [⟨0, 32, .wo, .live, 0x0⟩]⟩,
  ⟨"MBX_JOB_DONE", 0x1A8018, [],
    [⟨0, 4, .w1c, .live, 0x0⟩]⟩,
  ⟨"MBX_FLAGS", 0x1A801C, [],
    [⟨4, 1, .w1c, .live, 0x0⟩, ⟨3, 1, .w1c, .live, 0x0⟩, ⟨2, 1, .w1c, .live, 0x0⟩, ⟨1, 1, .w1c, .live, 0x0⟩,
     ⟨0, 1, .w1c, .live, 0x0⟩]⟩,
  ⟨"MBX_CNT0", 0x1A8020, [],
    [⟨16, 16, .cnt, .live, 0x0⟩, ⟨0, 16, .cnt, .live, 0x0⟩]⟩,
  ⟨"MBX_CNT1", 0x1A8024, [],
    [⟨16, 16, .cnt, .live, 0x0⟩, ⟨0, 16, .cnt, .live, 0x0⟩]⟩,
  ⟨"IRQ_SUMMARY", 0x40000, [],
    [⟨0, 32, .ro, .live, 0x0⟩]⟩,
  ⟨"IRQ_EN", 0x40004, [],
    [⟨0, 32, .rw, .live, 0x0⟩]⟩,
  ⟨"IRQ_CAUSE", 0x40100, [(32, 0x4)],
    [⟨0, 32, .ro, .live, 0x0⟩]⟩]

/-- Registers of 15_security_update.md. -/
def regs15 : List RegDesc := [
  ⟨"OTP_STATUS", 0x50000, [],
    [⟨31, 1, .ro, .live, 0x0⟩, ⟨30, 1, .ro, .live, 0x0⟩, ⟨29, 1, .ro, .live, 0x0⟩, ⟨16, 8, .ro, .live, 0x0⟩,
     ⟨4, 4, .ro, .live, 0x0⟩, ⟨0, 2, .ro, .live, 0x0⟩]⟩,
  ⟨"OTP_BUREAU", 0x50004, [],
    [⟨28, 4, .ro, .live, 0x0⟩, ⟨24, 4, .ro, .live, 0x0⟩, ⟨16, 8, .ro, .live, 0x0⟩, ⟨0, 10, .ro, .live, 0x0⟩]⟩,
  ⟨"OTP_CNT", 0x5000C, [],
    [⟨16, 16, .cnt, .live, 0x0⟩, ⟨0, 16, .cnt, .live, 0x0⟩]⟩,
  ⟨"OTP_AUTH_DEF", 0x50010, [],
    [⟨6, 2, .ro, .live, 0x0⟩, ⟨4, 2, .ro, .live, 0x0⟩, ⟨2, 2, .ro, .live, 0x1⟩, ⟨0, 2, .ro, .live, 0x3⟩]⟩,
  ⟨"OTP_READ_ADDR", 0x50020, [],
    [⟨16, 3, .rw, .live, 0x0⟩, ⟨2, 11, .rw, .live, 0x0⟩]⟩,
  ⟨"OTP_READ_DATA", 0x50024, [],
    [⟨0, 32, .ro, .live, 0x0⟩]⟩,
  ⟨"OTP_FLAGS", 0x50008, [],
    [⟨6, 1, .w1c, .live, 0x0⟩, ⟨5, 1, .w1c, .live, 0x0⟩, ⟨4, 1, .w1c, .live, 0x0⟩, ⟨3, 1, .w1c, .live, 0x0⟩,
     ⟨2, 1, .w1c, .live, 0x0⟩, ⟨1, 1, .w1c, .live, 0x0⟩, ⟨0, 1, .w1c, .live, 0x0⟩]⟩,
  ⟨"SEC_BOOT", 0x60000, [],
    [⟨4, 1, .ro, .live, 0x0⟩, ⟨3, 1, .ro, .live, 0x0⟩, ⟨2, 1, .ro, .live, 0x0⟩, ⟨1, 1, .ro, .live, 0x0⟩,
     ⟨0, 1, .ro, .live, 0x0⟩]⟩,
  ⟨"SEC_FW_A", 0x60008, [],
    [⟨0, 32, .ro, .live, 0x0⟩]⟩,
  ⟨"SEC_FW_B", 0x6000C, [],
    [⟨0, 32, .ro, .live, 0x0⟩]⟩,
  ⟨"SEC_SVN", 0x60010, [],
    [⟨16, 6, .ro, .live, 0x0⟩, ⟨8, 6, .ro, .live, 0x0⟩, ⟨0, 6, .ro, .live, 0x0⟩]⟩,
  ⟨"SEC_DBG", 0x60020, [],
    [⟨8, 2, .ro, .live, 0x0⟩, ⟨1, 1, .wo, .live, 0x0⟩, ⟨0, 1, .wo, .live, 0x0⟩]⟩,
  ⟨"SEC_DBG_DATA", 0x60024, [],
    [⟨0, 32, .rw, .live, 0x0⟩]⟩,
  ⟨"SEC_FLAGS", 0x60004, [],
    [⟨3, 1, .w1c, .live, 0x0⟩, ⟨2, 1, .w1c, .live, 0x0⟩, ⟨1, 1, .w1c, .live, 0x0⟩, ⟨0, 1, .w1c, .live, 0x0⟩]⟩]

/-- Registers of 16_clocks_power.md. -/
def regs16 : List RegDesc := [
  ⟨"CLK_STATUS", 0x10000, [],
    [⟨16, 7, .ro, .live, 0x40⟩, ⟨5, 1, .ro, .live, 0x0⟩, ⟨13, 1, .ro, .live, 0x0⟩, ⟨4, 1, .ro, .live, 0x0⟩,
     ⟨12, 1, .ro, .live, 0x0⟩, ⟨3, 1, .ro, .live, 0x0⟩, ⟨11, 1, .ro, .live, 0x0⟩, ⟨2, 1, .ro, .live, 0x0⟩,
     ⟨10, 1, .ro, .live, 0x0⟩, ⟨1, 1, .ro, .live, 0x0⟩, ⟨9, 1, .ro, .live, 0x0⟩, ⟨0, 1, .ro, .live, 0x0⟩,
     ⟨8, 1, .ro, .live, 0x0⟩]⟩,
  ⟨"CLK_FLAGS", 0x10004, [],
    [⟨8, 1, .w1c, .live, 0x0⟩, ⟨7, 1, .w1c, .live, 0x0⟩, ⟨6, 1, .w1c, .live, 0x0⟩, ⟨5, 1, .w1c, .live, 0x0⟩,
     ⟨4, 1, .w1c, .live, 0x0⟩, ⟨3, 1, .w1c, .live, 0x0⟩, ⟨2, 1, .w1c, .live, 0x0⟩, ⟨1, 1, .w1c, .live, 0x0⟩]⟩,
  ⟨"CLK_CNT", 0x10008, [],
    [⟨16, 16, .cnt, .live, 0x0⟩, ⟨0, 16, .cnt, .live, 0x0⟩]⟩,
  ⟨"CLK_LAST", 0x1000C, [],
    [⟨16, 16, .ro, .live, 0x0⟩, ⟨0, 10, .ro, .live, 0x0⟩]⟩,
  ⟨"CLK_PHASE_STEP", 0x10010, [(2, 0x4)],
    [⟨16, 13, .ro, .live, 0x0⟩, ⟨0, 13, .wo, .live, 0x0⟩]⟩,
  ⟨"PWR_STATUS", 0x20000, [],
    [⟨16, 16, .ro, .live, 0x0⟩, ⟨0, 2, .ro, .live, 0x0⟩]⟩,
  ⟨"PWR_FLAGS", 0x20004, [],
    [⟨4, 1, .w1c, .live, 0x0⟩, ⟨3, 1, .w1c, .live, 0x0⟩, ⟨2, 1, .w1c, .live, 0x0⟩, ⟨1, 1, .w1c, .live, 0x0⟩,
     ⟨0, 1, .w1c, .live, 0x0⟩]⟩,
  ⟨"PWR_WAKE_EN", 0x20008, [],
    [⟨2, 1, .rw, .live, 0x1⟩, ⟨1, 1, .rw, .live, 0x1⟩, ⟨0, 1, .rw, .live, 0x1⟩]⟩,
  ⟨"PWR_WAKE_SRC", 0x2000C, [],
    [⟨20, 6, .ro, .live, 0x0⟩, ⟨3, 1, .ro, .live, 0x0⟩, ⟨2, 1, .ro, .live, 0x0⟩, ⟨1, 1, .ro, .live, 0x0⟩,
     ⟨0, 1, .ro, .live, 0x0⟩]⟩,
  ⟨"PWR_WAKE_CMP_LO", 0x20010, [],
    [⟨0, 32, .rw, .live, 0x0⟩]⟩,
  ⟨"PWR_WAKE_CMP_HI", 0x20014, [],
    [⟨0, 16, .rw, .live, 0x0⟩]⟩,
  ⟨"PWR_CNT", 0x20018, [],
    [⟨16, 16, .cnt, .live, 0x0⟩, ⟨0, 16, .cnt, .live, 0x0⟩]⟩,
  ⟨"PMB_STATUS", 0x30000, [],
    [⟨16, 16, .ro, .live, 0x352⟩, ⟨0, 16, .ro, .live, 0x352⟩]⟩,
  ⟨"PMB_FLAGS", 0x30004, [],
    [⟨2, 1, .w1c, .live, 0x0⟩, ⟨1, 1, .w1c, .live, 0x0⟩, ⟨0, 1, .w1c, .live, 0x0⟩]⟩,
  ⟨"PMB_VREAD", 0x30008, [],
    [⟨0, 16, .ro, .live, 0x0⟩]⟩,
  ⟨"PMB_CNT", 0x3000C, [],
    [⟨16, 16, .cnt, .live, 0x0⟩, ⟨0, 16, .cnt, .live, 0x0⟩]⟩,
  ⟨"PMB_LAST", 0x30010, [],
    [⟨0, 16, .ro, .live, 0x0⟩]⟩]

/-- Registers of 17_startup_multidevice.md. -/
def regs17 : List RegDesc := [
  ⟨"SYS_RST_CAUSE", 0x14, [],
    [⟨16, 6, .ro, .live, 0x0⟩, ⟨0, 6, .ro, .live, 0x1⟩]⟩,
  ⟨"SYS_OTP_CHECK", 0x18, [],
    [⟨0, 6, .ro, .live, 0x0⟩, ⟨8, 6, .ro, .live, 0x0⟩, ⟨16, 6, .ro, .live, 0x0⟩, ⟨24, 6, .ro, .live, 0x0⟩]⟩,
  ⟨"SYS_BOOT_T", 0x1C, [],
    [⟨0, 16, .ro, .live, 0x0⟩]⟩,
  ⟨"SYS_POS", 0x20, [],
    [⟨0, 2, .ro, .live, 0x0⟩]⟩,
  ⟨"SLK_STATUS", 0x1E0000, [],
    [⟨8, 1, .ro, .live, 0x0⟩, ⟨0, 3, .ro, .live, 0x0⟩]⟩,
  ⟨"SLK_PORT", 0x1E0010, [(3, 0x4)],
    [⟨16, 8, .ro, .live, 0x0⟩, ⟨8, 2, .ro, .live, 0x0⟩, ⟨0, 3, .ro, .live, 0x0⟩]⟩,
  ⟨"SLK_ALIGN", 0x1E0020, [],
    [⟨31, 1, .wo, .live, 0x0⟩, ⟨16, 1, .ro, .live, 0x0⟩, ⟨8, 6, .rw, .idle, 0x20⟩, ⟨0, 4, .rw, .idle, 0x0⟩]⟩,
  ⟨"SLK_ALIGN_STAT", 0x1E0024, [],
    [⟨8, 24, .ro, .live, 0x0⟩, ⟨0, 6, .ro, .live, 0x0⟩]⟩,
  ⟨"SLK_FLAGS", 0x1E0004, [],
    [⟨8, 1, .w1c, .live, 0x0⟩, ⟨7, 1, .w1c, .live, 0x0⟩, ⟨6, 1, .w1c, .live, 0x0⟩, ⟨5, 1, .w1c, .live, 0x0⟩,
     ⟨4, 1, .w1c, .live, 0x0⟩, ⟨3, 1, .w1c, .live, 0x0⟩, ⟨2, 1, .w1c, .live, 0x0⟩, ⟨1, 1, .w1c, .live, 0x0⟩,
     ⟨0, 1, .w1c, .live, 0x0⟩]⟩,
  ⟨"SLK_CNT", 0x1E0008, [],
    [⟨16, 16, .cnt, .live, 0x0⟩, ⟨0, 16, .cnt, .live, 0x0⟩]⟩,
  ⟨"SLK_XCHK", 0x1E0040, [(8, 0x4)],
    [⟨31, 1, .rw, .idle, 0x0⟩, ⟨28, 2, .rw, .idle, 0x0⟩, ⟨20, 8, .rw, .idle, 0x0⟩, ⟨12, 8, .rw, .idle, 0x0⟩,
     ⟨0, 12, .rw, .idle, 0x0⟩]⟩,
  ⟨"SLK_XCHK_CNT", 0x1E0060, [(8, 0x4)],
    [⟨16, 16, .cnt, .live, 0x0⟩, ⟨0, 16, .cnt, .live, 0x0⟩]⟩]

/-- The whole register map, less the parameter registers GFM_PAR (Params.lean) and the pigeonholes (memory). -/
def regMap : List RegDesc :=
  regs00 ++ regs01 ++ regs02 ++ regs03 ++ regs04 ++ regs05 ++ regs06 ++ regs06b ++ regs07 ++ regs08 ++ regs08b ++ regs09 ++ regs10 ++ regs11 ++ regs12 ++ regs13 ++ regs14 ++ regs15 ++ regs16 ++ regs17

/-- Whether an offset from a row's base falls on an element of its arrays. -/
def inDims : List (Nat × Nat) → Nat → Bool
  | [], off => off == 0
  | (c, st) :: t, off => decide (off / st < c) && inDims t (off % st)

/-- The row a register address belongs to. -/
def regAt (a : Nat) : Option RegDesc :=
  regMap.find? (fun r => decide (r.base ≤ a) && inDims r.dims (a - r.base))

/-- The reset value a row gives. -/
def rowReset (r : RegDesc) : Word :=
  BitVec.ofNat 32 (r.fields.foldl (fun n f => n + f.rst * 2 ^ f.lo) 0)

end Sys2Proof.Machine
end

