-- ==== Sys2Proof/Machine/Params.lean ====
section
/-! DEFINITION. The station parameters GFM_PAR[index] (R66, R67, R105, R106, R126, R127, R162, R488): range, resolution,
default and timing class, and the rounding and range check of R63 and R64. -/

namespace Sys2Proof.Machine

/-- One row of a parameter table. `res = 0` stands for a parameter that is one of two values (F_NOM). -/
structure ParamDesc where
  idx : Nat
  lo : Rat
  hi : Rat
  res : Rat
  dflt : Rat
  zeroOk : Bool
  acc : Acc
  cls : Cls
  deriving DecidableEq, Repr

def parS_BASE : Nat := 0x00
def parV_BASE : Nat := 0x01
def parF_NOM : Nat := 0x02
def parVDC_BASE : Nat := 0x03
def parL_F : Nat := 0x04
def parC_F : Nat := 0x05
def parN_V : Nat := 0x06
def parN_M : Nat := 0x07
def parH : Nat := 0x10
def parD : Nat := 0x11
def parT_D : Nat := 0x12
def parMP : Nat := 0x13
def parKI_ISO : Nat := 0x14
def parNQ : Nat := 0x15
def parKI_V : Nat := 0x16
def parT_P : Nat := 0x17
def parT_Q : Nat := 0x18
def parRV : Nat := 0x19
def parXV : Nat := 0x1A
def parKFF : Nat := 0x1B
def parP_SET : Nat := 0x20
def parQ_SET : Nat := 0x21
def parV_SET : Nat := 0x22
def parF_SET : Nat := 0x23
def parF_DEV : Nat := 0x24
def parROCOF_DESIGN : Nat := 0x25
def parW_MIN : Nat := 0x26
def parW_MAX : Nat := 0x27
def parE_MIN : Nat := 0x28
def parE_MAX : Nat := 0x29
def parLOSS_A : Nat := 0x2A
def parLOSS_B : Nat := 0x2B
def parT_FC : Nat := 0x2C
def parV_HI_PERM : Nat := 0x30
def parV_LO_PERM : Nat := 0x31
def parV_TRANS : Nat := 0x32
def parT_V_TRANS : Nat := 0x33
def parF_PERM : Nat := 0x34
def parF_TRANS : Nat := 0x35
def parT_F_TRANS : Nat := 0x36
def parI_LIM : Nat := 0x37
def parI_OVL : Nat := 0x38
def parV_RT : Nat := 0x39
def parT_RT0 : Nat := 0x3A
def parT_RT1 : Nat := 0x3B
def parHWL_CYCLES : Nat := 0x3C
def parT_RAMP : Nat := 0x40
def parV_DEAD : Nat := 0x41
def parT_DEAD : Nat := 0x42
def parI_INRUSH : Nat := 0x43
def parI_DC : Nat := 0x44
def parKB : Nat := 0x45
def parT_HOLD_MAX : Nat := 0x46
def parT_LIVE : Nat := 0x47
def parT_SYNC_RAMP : Nat := 0x48
def parK_SYNC : Nat := 0x49
def parKD_SYNC : Nat := 0x4A
def parSLEW_MAX : Nat := 0x4B
def parANG_WIN : Nat := 0x4C
def parF_WIN : Nat := 0x4D
def parV_WIN : Nat := 0x4E
def parT_WIN : Nat := 0x4F
def parT_SYNC_MAX : Nat := 0x50
def parT_BUS_GAP : Nat := 0x51
def parI_START : Nat := 0x60
def parXR_VI : Nat := 0x61
def parT_VI_REL : Nat := 0x62
def parV_RT_HYS : Nat := 0x63
def parT_CLR : Nat := 0x64
def parT_OLV : Nat := 0x68
def parT_STOP : Nat := 0x69

/-- Index of parameter `k` (0 RH, 1 XH, 2 BW, 3 VLIM) of harmonic channel `c` (R106). -/
def parHch (c k : Nat) : Nat := 0x80 + 4 * c + k

def parTable02 : List ParamDesc := [
  ⟨parS_BASE, 1, 30000, 1, 0, true, .rw, .idle⟩,
  ⟨parV_BASE, 100, 13800, 1, 0, true, .rw, .idle⟩,
  ⟨parF_NOM, 50, 60, 0, 50, false, .rw, .idle⟩,
  ⟨parVDC_BASE, 100, 20000, 1, 0, true, .rw, .idle⟩,
  ⟨parL_F, 0, (1 / 2), (1 / 1000), (1 / 10), false, .rw, .idle⟩,
  ⟨parC_F, 0, (1 / 2), (1 / 1000), (1 / 20), false, .rw, .idle⟩,
  ⟨parN_V, 1, 16, 1, 1, false, .rw, .idle⟩,
  ⟨parN_M, 1, 64, 1, 10, false, .rw, .idle⟩,
  ⟨parH, (1 / 5), 20, (1 / 100), 4, false, .rw, .shadowed⟩,
  ⟨parD, 0, 200, (1 / 10), 20, false, .rw, .shadowed⟩,
  ⟨parT_D, (1 / 1000), 1, (1 / 1000), (1 / 20), false, .rw, .shadowed⟩,
  ⟨parMP, 0, (1 / 10), (1 / 10000), (1 / 25), false, .rw, .shadowed⟩,
  ⟨parKI_ISO, (1 / 10), 100, (1 / 10), 5, false, .rw, .shadowed⟩,
  ⟨parNQ, 0, (1 / 10), (1 / 10000), (3 / 100), false, .rw, .shadowed⟩,
  ⟨parKI_V, (1 / 10), 100, (1 / 10), 5, false, .rw, .shadowed⟩,
  ⟨parT_P, 0, (1 / 50), (1 / 10000), 0, false, .rw, .shadowed⟩,
  ⟨parT_Q, (1 / 1000), 1, (1 / 1000), (1 / 50), false, .rw, .shadowed⟩,
  ⟨parRV, 0, (1 / 2), (1 / 1000), (1 / 50), false, .rw, .shadowed⟩,
  ⟨parXV, 0, (1 / 2), (1 / 1000), (1 / 10), false, .rw, .shadowed⟩,
  ⟨parKFF, 0, 1, (1 / 100), 0, false, .rw, .shadowed⟩,
  ⟨parP_SET, (-1), 1, (1 / 10000), 0, false, .rw, .shadowed⟩,
  ⟨parQ_SET, (-1), 1, (1 / 10000), 0, false, .rw, .shadowed⟩,
  ⟨parV_SET, (4 / 5), (11 / 10), (1 / 1000), 1, false, .rw, .shadowed⟩,
  ⟨parF_SET, (19 / 20), (21 / 20), (1 / 10000), 1, false, .rw, .shadowed⟩,
  ⟨parF_DEV, (1 / 200), (1 / 10), (1 / 1000), (1 / 50), false, .rw, .shadowed⟩,
  ⟨parROCOF_DESIGN, (1 / 200), (1 / 5), (1 / 1000), (1 / 20), false, .rw, .shadowed⟩,
  ⟨parW_MIN, (4 / 5), 1, (1 / 1000), (9 / 10), false, .rw, .shadowed⟩,
  ⟨parW_MAX, 1, (6 / 5), (1 / 1000), (11 / 10), false, .rw, .shadowed⟩,
  ⟨parE_MIN, 0, 1, (1 / 100), (1 / 2), false, .rw, .shadowed⟩,
  ⟨parE_MAX, 1, (3 / 2), (1 / 100), (13 / 10), false, .rw, .shadowed⟩,
  ⟨parLOSS_A, 0, (1 / 5), (1 / 1000), (1 / 50), false, .rw, .shadowed⟩,
  ⟨parLOSS_B, 0, (1 / 5), (1 / 1000), (1 / 100), false, .rw, .shadowed⟩,
  ⟨parT_FC, (1 / 10), 10, (1 / 100), (1 / 2), false, .rw, .shadowed⟩,
  ⟨parV_HI_PERM, 0, (1 / 5), (1 / 100), (3 / 50), false, .ro, .live⟩,
  ⟨parV_LO_PERM, 0, (3 / 10), (1 / 100), (1 / 10), false, .ro, .live⟩,
  ⟨parV_TRANS, (1 / 20), (2 / 5), (1 / 100), (1 / 5), false, .ro, .live⟩,
  ⟨parT_V_TRANS, (1 / 10), 10, (1 / 10), (3 / 2), false, .ro, .live⟩,
  ⟨parF_PERM, (1 / 100), (1 / 10), (1 / 100), (1 / 20), false, .ro, .live⟩,
  ⟨parF_TRANS, (1 / 50), (1 / 5), (1 / 100), (1 / 10), false, .ro, .live⟩,
  ⟨parT_F_TRANS, (1 / 2), 30, (1 / 10), 5, false, .ro, .live⟩,
  ⟨parT_STOP, (1 / 100), 30, (1 / 100), 1, false, .rw, .shadowed⟩]

def parTable03 : List ParamDesc := [
  ⟨parT_RAMP, (1 / 10), 10, (1 / 100), 2, false, .rw, .idle⟩,
  ⟨parV_DEAD, (1 / 50), (3 / 10), (1 / 100), (1 / 10), false, .rw, .idle⟩,
  ⟨parT_DEAD, (1 / 100), 1, (1 / 1000), (1 / 10), false, .rw, .idle⟩,
  ⟨parI_INRUSH, (1 / 5), 2, (1 / 100), 1, false, .rw, .idle⟩,
  ⟨parI_DC, (1 / 100), (1 / 2), (1 / 100), (1 / 20), false, .rw, .idle⟩,
  ⟨parKB, 0, 1, (1 / 100), (1 / 5), false, .rw, .idle⟩,
  ⟨parT_HOLD_MAX, (1 / 10), 10, (1 / 10), 1, false, .rw, .idle⟩,
  ⟨parT_LIVE, (1 / 100), 1, (1 / 1000), (1 / 10), false, .rw, .idle⟩,
  ⟨parT_SYNC_RAMP, (1 / 50), 2, (1 / 100), (1 / 5), false, .rw, .idle⟩,
  ⟨parK_SYNC, (1 / 100), 10, (1 / 100), 1, false, .rw, .idle⟩,
  ⟨parKD_SYNC, 0, 200, (1 / 10), 20, false, .rw, .idle⟩,
  ⟨parSLEW_MAX, (1 / 100), 10, (1 / 100), 1, false, .rw, .idle⟩,
  ⟨parANG_WIN, (1 / 100), (1 / 2), (1 / 100), (1 / 10), false, .rw, .idle⟩,
  ⟨parF_WIN, (1 / 10000), (1 / 100), (1 / 10000), (1 / 500), false, .rw, .idle⟩,
  ⟨parV_WIN, (1 / 200), (1 / 10), (1 / 1000), (1 / 50), false, .rw, .idle⟩,
  ⟨parT_WIN, (1 / 100), 2, (1 / 1000), (1 / 5), false, .rw, .idle⟩,
  ⟨parT_SYNC_MAX, 1, 600, 1, 60, false, .rw, .idle⟩,
  ⟨parT_BUS_GAP, 0, 5, (1 / 100), (1 / 2), false, .rw, .idle⟩]

def parTable04 : List ParamDesc := [
  ⟨parI_LIM, 1, 3, (1 / 100), 2, false, .ro, .live⟩,
  ⟨parI_OVL, 1, (3 / 2), (1 / 100), (11 / 10), false, .ro, .live⟩,
  ⟨parV_RT, (1 / 2), (9 / 10), (1 / 100), (4 / 5), false, .ro, .live⟩,
  ⟨parT_RT0, 0, (1 / 2), (1 / 1000), (1 / 2), false, .ro, .live⟩,
  ⟨parT_RT1, (3 / 5), 10, (1 / 100), (3 / 2), false, .ro, .live⟩,
  ⟨parHWL_CYCLES, 1, 1000, 1, 200, false, .ro, .live⟩,
  ⟨parI_START, (1 / 2), 1, (1 / 100), 1, false, .rw, .shadowed⟩,
  ⟨parXR_VI, 0, 20, (1 / 10), 5, false, .rw, .shadowed⟩,
  ⟨parT_VI_REL, (1 / 1000), (1 / 10), (1 / 1000), (1 / 100), false, .rw, .shadowed⟩,
  ⟨parV_RT_HYS, (1 / 100), (1 / 5), (1 / 100), (1 / 20), false, .rw, .shadowed⟩,
  ⟨parT_CLR, 0, (1 / 5), (1 / 1000), (1 / 50), false, .rw, .shadowed⟩,
  ⟨parT_OLV, 0, 10, (1 / 1000), 1, false, .rw, .shadowed⟩]

/-- The four impedance parameters of one harmonic channel (R106). -/
def parTableHch (c : Nat) : List ParamDesc := [
  ⟨parHch c 0, 0, 1, (1 / 1000), 0, false, .rw, .shadowed⟩,
  ⟨parHch c 1, 0, 1, (1 / 1000), 0, false, .rw, .shadowed⟩,
  ⟨parHch c 2, 1, 20, (1 / 10), 5, false, .rw, .shadowed⟩,
  ⟨parHch c 3, 0, (1 / 10), (1 / 1000), (1 / 20), false, .rw, .shadowed⟩]

def parTable : List ParamDesc :=
  parTable02 ++ parTable03 ++ parTable04 ++ (List.range 12).flatMap parTableHch

def parDesc (i : Nat) : Option ParamDesc := parTable.find? (fun p => p.idx == i)

/-- GFM_PAR[index] of station `n`: offset 0x0200 + 4 × index of its window. -/
def GFM_PAR (n i : Nat) : Nat := 0x140200 + n * 0x10000 + 4 * i

/-- The station and index of a GFM_PAR address. -/
def parAt (a : Nat) : Option (Nat × Nat) :=
  if 0x140000 ≤ a ∧ a < 0x180000 ∧ a % 4 = 0 ∧ 0x200 ≤ a % 0x10000 ∧ a % 0x10000 < 0x600 then
    some ((a - 0x140000) / 0x10000, (a % 0x10000 - 0x200) / 4)
  else none

/-- The nearest multiple of the resolution, halves away from zero, judged on the exact value (R63). -/
def parRound (p : ParamDesc) (x : Rat) : Rat := if p.res = 0 then x else (roundAway (x / p.res) : Rat) * p.res

/-- The word a parameter write stores, or none where R64 refuses it: NaN, infinity, or the rounded value outside the
range. -/
def parCheck (p : ParamDesc) (w : Word) : Option Word :=
  if !f32Finite w then none
  else
    let x := parRound p (f32ToRat w)
    let ok := if p.res = 0 then decide (x = p.lo) || decide (x = p.hi) else decide (p.lo ≤ x) && decide (x ≤ p.hi)
    if ok || (p.zeroOk && decide (x = 0)) then some (f32OfRat x) else none

/-- Reset word of a register address: the parameter default, the register map's value, or 0 where no register is
(R10). The protection settings of a device with blank settings are 0 (R403, R450). -/
def regReset (a : Nat) : Word :=
  match parAt a with
  | some (_, i) =>
    match parDesc i with
    | some p => if p.acc = .ro then 0 else f32OfRat p.dflt
    | none => 0
  | none =>
    match regAt a with
    | some r => rowReset r
    | none => 0

end Sys2Proof.Machine
end

