-- ==== Sys2Proof/Machine/Sparse.lean ====
section
/-! DEFINITION. Sparse tables with a default: the one form in which the state holds its register file, its memories and
its arrays of like units. A table lists only what differs from the default, by rising key, so equal tables are equal
data. -/

namespace Sys2Proof.Machine

variable {α : Type}

/-- The entry of key `k`, or the default of that key. -/
def tget (d : Nat → α) : List (Nat × α) → Nat → α
  | [], k => d k
  | (j, v) :: t, k => if j = k then v else tget d t k

/-- Drop every entry of key `k`. -/
def tdrop (m : List (Nat × α)) (k : Nat) : List (Nat × α) := m.filter (fun e => e.1 != k)

/-- Put an entry before the first larger key. -/
def tput : List (Nat × α) → Nat → α → List (Nat × α)
  | [], k, v => [(k, v)]
  | (j, w) :: t, k, v => if k < j then (k, v) :: (j, w) :: t else (j, w) :: tput t k v

/-- Write an entry; writing the default removes it. -/
def tset [DecidableEq α] (d : Nat → α) (m : List (Nat × α)) (k : Nat) (v : α) : List (Nat × α) :=
  if v = d k then tdrop m k else tput (tdrop m k) k v

/-- Keys strictly rising, from a lower bound on. -/
def trising : Option Nat → List (Nat × α) → Bool
  | _, [] => true
  | none, (j, _) :: t => trising (some j) t
  | some b, (j, _) :: t => decide (b < j) && trising (some j) t

/-- The canonical form: rising keys and no entry equal to its default. -/
def twf [DecidableEq α] (d : Nat → α) (m : List (Nat × α)) : Bool :=
  trising none m && m.all (fun e => decide (e.2 ≠ d e.1))

end Sys2Proof.Machine
end

