-- ==== Sys2Proof/Machine/State.lean ====
section
/-! DEFINITION. The state of the KR4848 as a block: its register file, its memories, the hidden state of every unit that
the chapters give it, and the queue of waiting commands. Arrays of like units are sparse tables (Sparse.lean): a unit not
listed stands at its reset value. -/

namespace Sys2Proof.Machine

/-- The block has no fault of its own: every condition the spec describes is a flag, a refusal code or a trip in the
state. The one constructor stands for a memory access outside the internal address map. -/
inductive Fault where
  /-- Raised by no command: each path to internal memory has its own answer outside SRAM and DRAM (R40, R288). Safe. -/
  | outsideMemory (addr : Nat)
  deriving DecidableEq, Repr

/-- Why a command has no answer. -/
inductive Refusal where
  /-- Raised by the arms of Dispatch.lean for a command without a meaning yet, by its name in the table. Safe. -/
  | notModelled (mnemonic : String)
  deriving DecidableEq, Repr

/-! ### The grid-forming core (chapters 02 to 04) -/

/-- Filter state of one harmonic channel (R83, R84). -/
structure HchState where
  d : Rat := 0
  q : Rat := 0
  active : Bool := false
  /-- Magnitudes shown in GFM_HCH_IH and GFM_HCH_VH, and the addition to v*. -/
  ih : Rat := 0
  vh : Rat := 0
  addD : Rat := 0
  addQ : Rat := 0
  deriving DecidableEq, Repr

/-- The virtual machine of one station (R50 to R60, R108 to R110). Angles are in turns. -/
structure Core where
  theta : Rat := 0
  omega : Rat := 1
  omegaF : Rat := 1
  pGov : Rat := 0
  isoInt : Rat := 0
  emf : Rat := 0
  vInt : Rat := 0
  p : Rat := 0
  q : Rat := 0
  pF : Rat := 0
  qF : Rat := 0
  hEff : Rat := 0
  mpEff : Rat := 0
  vdq : Vec2 := ⟨0, 0⟩
  idq : Vec2 := ⟨0, 0⟩
  vRef : Vec2 := ⟨0, 0⟩
  /-- Current reference of block 12 before its clamp, and after it. -/
  iRaw : Vec2 := ⟨0, 0⟩
  iRef : Vec2 := ⟨0, 0⟩
  vConv : Vec2 := ⟨0, 0⟩
  vdc : Rat := 0
  dz : Rat := 0
  rvEff : Rat := 0
  xvEff : Rat := 0
  deriving DecidableEq, Repr

/-- The current ceiling and what limits the station (R71, R72, R108, R110). -/
structure Limiting where
  fcBudget : Rat := 0
  fcWait : Option Rat := none
  iCeil : Rat := 0
  /-- LIM_TIME in milliseconds. -/
  limTime : Rat := 0
  clampActing : Bool := false
  ceilAtOvl : Bool := false
  /-- The fault memory of R72: entered OPEN_LOOP_V or STOPPING from a fault state. -/
  inFault : Bool := false
  /-- |v| was at or above V_RT + V_RT_HYS at the last voltage-loop execution, and for how many seconds of executions in a
  row it has been since the first of them (R116). -/
  vOk : Bool := false
  vOkTime : Rat := 0
  /-- No limiting acted in the last period, and the seconds since the first such period in a row (R116). -/
  calm : Bool := false
  calmTime : Rat := 0
  deriving DecidableEq, Repr

/-- The ride-through curve and the windows (R117, R118): seconds in RIDE_THROUGH, and for each condition the seconds since
the first evaluation in a row that found it; |v| over the last fundamental cycle, newest first. -/
structure Ride where
  time : Rat := 0
  below : Option Rat := none
  vLog : List Rat := []
  vPerm : Option Rat := none
  vHigh : Option Rat := none
  vLow : Option Rat := none
  fPerm : Option Rat := none
  /-- ω was outside 1 ± F_TRANS at the last evaluation. -/
  fTrans : Bool := false
  deriving DecidableEq, Repr

/-- A start in progress (R88 to R103). -/
structure Start where
  phase : StartPhase := .none
  /-- The dead check has completed, or BUS_CHECK has: the enables go high at the next boundary. -/
  confirmed : Bool := false
  /-- The start is complete: RUNNING at the next boundary. -/
  complete : Bool := false
  /-- |v| was below V_DEAD at the last voltage-loop execution (R88). -/
  deadOk : Bool := false
  holding : Bool := false
  /-- θ has been set to the bus angle (R97). -/
  thetaSet : Bool := false
  bias : Vec2 := ⟨0, 0⟩
  biasAtRun : Vec2 := ⟨0, 0⟩
  biasTime : Rat := 0
  /-- E still moves from its start value toward R58 (R92). -/
  slewing : Bool := false
  dTheta : Rat := 0
  wBus : Rat := 1
  vBusMag : Rat := 0
  wBusLog : List Rat := []
  busLiveOk : Bool := false
  winOk : Bool := false
  /-- Currents of the last fundamental cycle, in αβ with the largest phase magnitude (R90, R91), and bus speeds over
  T_WIN (R101). -/
  iLog : List (Vec2 × Rat) := []
  wLog : List Rat := []
  deriving DecidableEq, Repr

/-- One envelope set: the three numbers and the SEQ of its commit. -/
structure Envelope where
  pdis : Rat := 0
  pchg : Rat := 0
  eres : Rat := 0
  seq : Word := 0
  otp : Bool := true
  deriving DecidableEq, Repr

/-- One input-list entry's watcher (R158, R161). -/
structure InputWatch where
  /-- The word the station's input buffer holds. -/
  value : Word := 0
  lost : Bool := false
  /-- The last sample received, how many in a row have had its bit pattern, and for a lost entry how many samples in a row
  were good and whether their value has changed. -/
  last : Word := 0
  same : Nat := 0
  good : Nat := 0
  changed : Bool := false
  deriving DecidableEq, Repr

/-- The engine side of one station's period (R131, R132, R154 to R157). -/
structure Period where
  /-- SAR entries of the input list that have arrived in this period. -/
  got : BitVec 64 := 0
  started : Bool := false
  loopsDone : BitVec 64 := 0
  overran : Bool := false
  late : Bool := false
  /-- The engine has reported the end of step 3, and the snapshot of the period is due. -/
  finished : Bool := false
  overmod : Bool := false
  /-- A bank switch fell within the period: the new image runs from the next one (R139). -/
  switched : Bool := false
  /-- A change of the ACTIVE role fell within the period: only the privileged loops still run in it (R330, R332). -/
  taken : Bool := false
  /-- CEIL_OVL was raised within the period (R124). -/
  ceilNew : Bool := false
  /-- The reference clamp has acted in the period, and a harmonic channel's clamp (R83, R110). -/
  clamped : Bool := false
  hchLim : Bool := false
  /-- The record of the period has been written or dropped. -/
  snapped : Bool := false
  /-- The privileged result has been classed, and as Silent (R322). -/
  classed : Bool := false
  silent : Bool := false
  /-- The state copy: due, answered, arrived intact; results compared; a difference found (R318 to R323). -/
  copyDue : Bool := false
  copyDone : Bool := false
  copyOk : Bool := false
  compared : Nat := 0
  differs : Bool := false
  settled : Bool := false
  /-- Privileged loops that the standby has run, and the check values of both engines' outputs by loop (R149, R321). -/
  sbyRan : BitVec 64 := 0
  outs : List (Nat × Word × Word) := []
  /-- AGREE, the disagreement counter, its flag and the count in a row before the period's disagreement (R336). -/
  disWas : Option (Nat × Nat × Nat × Nat) := none
  deriving DecidableEq, Repr

/-- What one engine holds as the committed state of a station's loops (R131, R318): the core, loop-local states by loop,
loop variables, and the harmonic channels. -/
structure EngState where
  core : Core := {}
  lx : List (Nat × List Rat) := []
  vars : List (Nat × Rat) := []
  hch : List (Nat × HchState) := []
  deriving DecidableEq, Repr

/-- A state change made within the period in progress, by its row of R78, with what it left behind: a higher row found
later in the same period takes its place. -/
structure Turn where
  row : Nat
  st : StnState
  prev : StnState
  hch : List (Nat × HchState)
  lim : Limiting
  start : Start
  /-- The flag and the counter of the new state, as they were. -/
  flag : Nat
  cnt : Nat
  deriving DecidableEq, Repr

/-- Everything hidden of one station's grid-forming block. -/
structure Stn where
  st : StnState := .disabled
  prev : StnState := .disabled
  core : Core := {}
  lim : Limiting := {}
  start : Start := {}
  ride : Ride := {}
  /-- The change of this period under rows 8 to 10 of R78. -/
  turn : Option Turn := none
  hch : List (Nat × HchState) := []
  /-- Envelope in force, the committed set that waits for a boundary, and the tick at which the last one took effect. -/
  env : Envelope := {}
  envWait : Option Envelope := none
  envAt : Option Nat := none
  /-- ENV_AGE passed 200 ms: fall back at the next boundary (R34). -/
  fallbackDue : Bool := false
  /-- Period count, one below its first value until the first boundary of the timebase, which counts 0 (R38). -/
  count : Nat := 281474976710655
  /-- STOPPING: time since entry (R488), and whether it waits for a boundary to begin. -/
  stopTime : Rat := 0
  /-- The state that STOPPING was entered from: the blocks run as in it. -/
  stopFrom : StnState := .running
  lowTime : Rat := 0
  stopReq : Bool := false
  /-- Every lost voltage input is restored: RUNNING at the next boundary (R161). -/
  olvBack : Bool := false
  /-- Trip causes found in this period (R121). -/
  trips : List Nat := []
  /-- A trip is signalled and the state becomes TRIPPED at the next boundary at the latest (R190). -/
  tripDue : Bool := false
  /-- Period count of the trip period, where TRIPPED was entered within it, and whether the enables were high then. -/
  tripAt : Option Nat := none
  tripHigh : Bool := false
  /-- Loop-local states and loop variables. -/
  lx : List (Nat × List Rat) := []
  vars : List (Nat × Rat) := []
  user : List Rat := []
  per : Period := {}
  /-- The committed state at the start of the period (R322). -/
  base : EngState := {}
  /-- The standby engine's own committed state: the last intact copy, and the privileged loops it has run since (R149,
  R318). -/
  sby : EngState := {}
  /-- Copies lost within the last 10 µs, newest first: the tick of each, with AGREE, COPY_LOST_CNT and COPY_LOST before it;
  the full image is still to come (R320). -/
  copyLost : List (Nat × Nat × Nat × Nat) := []
  resend : Bool := false
  /-- Read copy of the snapshot (R35), and the record of the period. -/
  snapCopy : List Word := []
  snapTime : Nat × Nat := (0, 0)
  /-- A TRS bank switch waits for this station's boundary (R136). -/
  swapPending : Bool := false
  deriving DecidableEq, Repr

/-! ### Pulse generation and gates (chapter 06) -/

/-- The pulse block of one station. -/
structure PwmUnit where
  /-- The timebase runs, the tick of the last boundary and its index within the carrier. -/
  run : Bool := false
  b0 : Nat := 0
  j : Nat := 0
  armed : Bool := false
  /-- Shadow addresses written since the previous boundary (R179). -/
  wr : List Nat := []
  maskIdx : BitVec 3 := 0
  lastEvt : Option Nat := none
  heldIdx : Option (BitVec 3) := none
  /-- The first latch of a trip: its tick while the removal of R190 is still to come, and that it has come. -/
  firstLatch : Option Nat := none
  gateRemoved : Bool := false
  /-- A half-bridge has latched since the station was last accepted into READY: a further latch is not the first (R189). -/
  latchSeen : Bool := false
  /-- Limiter forces in this carrier period, and consecutive carrier periods with one. -/
  forcedNow : Bool := false
  hwlConsec : Nat := 0
  deriving DecidableEq, Repr

/-- The path of one half-bridge from compare to pins (R184 to R188). -/
structure HalfBridge where
  raw : Bool := false
  force : Option Bool := none
  filt : Bool := false
  pend : List (Nat × Bool) := []
  gh : Bool := false
  gl : Bool := false
  /-- The switch that turns on when the dead time ends: true for GH. -/
  deadTo : Option Bool := none
  blank : Bool := false
  gf : Bool := false
  /-- The assertion of GF began within the blanking interval in progress (R188). -/
  gfIn : Bool := false
  eff : Bool := false
  /-- Tick of the last falling write of PWM_HB_EN (R191). -/
  enFall : Option Nat := none
  /-- Direct drive in progress: true for GH (R194). -/
  test : Option Bool := none
  deriving DecidableEq, Repr

/-- One window comparator: which side of each window is crossed (0 none, 1 above HI, 2 below LO). -/
structure WindowComp where
  lim : Nat := 0
  trip : Nat := 0
  deriving DecidableEq, Repr

/-! ### Conversion (chapter 07) -/

/-- One SAR converter. -/
structure Conv where
  seqRun : Bool := false
  /-- Entry in progress; past the last entry, the plausibility conversion. -/
  idx : Nat := 0
  urgent : Bool := false
  /-- The gain of the urgent request accepted last, and the conversion cycle of the last start (R205, R207). -/
  urgGain : Nat := 0
  goAt : Option Nat := none
  tag : BitVec 8 := 0
  /-- What the running sequence took at its start: own entries, the covered partner's, and the plausibility conversion. -/
  len : Nat := 0
  plen : Nat := 0
  pls : Bool := false
  deriving DecidableEq, Repr

/-- One plausibility pair. -/
structure Pair where
  resA : Option Int := none
  resB : Option Int := none
  /-- A has completed since B's previous plausibility conversion, and the other way round (R209). -/
  freshA : Bool := false
  freshB : Bool := false
  deriving DecidableEq, Repr

/-- The calibration machine (R212 to R215). -/
structure Cal where
  target : Nat := 0
  /-- New offset and gain correction for each gain, and the covered converter's own plausibility result. -/
  coefs : List (Int × Int) := []
  verify : Int := 0
  passed : Bool := false
  deriving DecidableEq, Repr

/-- One sigma-delta channel. -/
structure SdmCh where
  waiting : Bool := false
  started : Bool := false
  outputs : Nat := 0
  /-- Samples that the main filter spans, newest first (R219). -/
  hist : List Bool := []
  deriving DecidableEq, Repr

/-! ### Redundancy (chapter 12) -/

/-- The redundancy unit. -/
structure RedUnit where
  /-- Engine states of R315 in its code: 0 OFF to 5 RELOADING. -/
  stA : Nat := 1
  stB : Nat := 3
  active : Fin 2 := 0
  /-- The last slot of each engine was missed on both paths (R327). -/
  missA : Bool := false
  missB : Bool := false
  /-- An engine stopped on an internal error: it beats no more. -/
  deadA : Bool := false
  deadB : Bool := false
  failing : Bool := false
  /-- A repaired engine is on its way back to STANDBY (R334, R335). -/
  returning : Bool := false
  /-- Tick of each engine's last beat, and of the declaration. -/
  beatA : Nat := 0
  beatB : Nat := 0
  declared : Nat := 0
  deriving DecidableEq, Repr

/-- The program banks of one engine (R134 to R137). -/
structure Banks where
  bank0 : Option Image := none
  bank1 : Option Image := none
  /-- Active bank: false for bank 0. -/
  active : Bool := false
  shdValid : Bool := false
  deriving DecidableEq, Repr

/-! ### Time base (chapter 11) -/

/-- One stamp of a capture FIFO: 64-bit time and polarity. -/
structure Stamp where
  time : Nat
  rising : Bool
  deriving DecidableEq, Repr

/-- One capture input. -/
structure Cap where
  level : Bool := false
  fifo : List Stamp := []
  deriving DecidableEq, Repr

/-- The local clock, the free-running counter, the pending step and the always-on counter (R297 to R306). -/
structure Clock where
  secs : Nat := 0
  ns : Nat := 0
  frac : Nat := 0
  latched : Nat := 0
  free : Nat := 0
  freeFrac : Nat := 0
  stepLo : Word := 0
  step : Option Int := none
  aon : Nat := 0
  aonAcc : Nat := 0
  aonHi : Nat := 0
  /-- Stopped by RETAIN, and to go on at the next always-on tick edge (R305). -/
  frozen : Bool := false
  thaw : Bool := false
  aonAtSleep : Nat := 0
  lastSleep : Nat := 0
  deriving DecidableEq, Repr

/-- What the firmware's IEEE 1588 slave remembers (R304, R310 to R312). Times in ns. -/
structure PtpUnit where
  /-- The source port of the master chosen, and its Announce data set in the order of comparison. -/
  master : Option Nat := none
  dataset : List Nat := []
  /-- The last Sync of the master: its sequence number and receive stamp; t2 − t1 of the last pair. -/
  sync : Option (Nat × Int) := none
  d21 : Option Int := none
  /-- The last Delay_Req: its sequence number and transmit stamp. -/
  req : Option (Nat × Int) := none
  unanswered : Nat := 0
  fallback : Bool := false
  pathDelay : Option Rat := none
  ignored : Nat := 0
  /-- CLR_EST follows once the pending step is applied. -/
  clearDue : Bool := false
  /-- The state of the slave apart from a refused offset, and whether one is refused (R304). -/
  base : Nat := 1
  refused : Bool := false
  deriving DecidableEq, Repr

/-! ### Chest (chapter 09) -/

/-- One stream of the running segment (R263, R269 to R276). -/
structure ChestStream where
  count : Nat := 0
  lo : Word := 0
  hi : Word := 0
  satOr : Bool := false
  /-- Words of the staging buffer with their addresses, oldest first (R274). -/
  staged : List (Nat × Word) := []
  done : Nat := 0
  preValid : Nat := 0
  post : Nat := 0
  stopped : Bool := false
  inGap : Bool := false
  lost : Nat := 0
  gapStored : Nat := 0
  gaps : Nat := 0
  /-- A gap has restarted the pre-trigger fill; elements completed since. -/
  filled : Nat := 0
  deriving DecidableEq, Repr

/-- One trigger unit: which sides of LEVEL ± HYST the stream has been on, and whether the match held (R267). -/
structure ChestTrig where
  below : Bool := false
  above : Bool := false
  matching : Bool := false
  deriving DecidableEq, Repr

/-- The Chest engine: the segment in progress and the event log's counter. -/
structure ChestUnit where
  run : Nat := 0
  estAtTrig : Bool := false
  trigSrc : Nat := 0
  tTrig : Nat := 0
  flags : Nat := 0
  gapTotal : Nat := 0
  gapEntries : List (Nat × Nat × Nat) := []
  /-- Tick of the last trigger recognised, and whether it was taken (R268). -/
  trigAt : Option Nat := none
  trigTaken : Bool := false
  evSeq : Nat := 0
  deriving DecidableEq, Repr

/-! ### Safety (chapter 13) -/

/-- Settle's, Lowboy's and Highboy's view of one station. -/
structure SafeStn where
  held : Bool := true
  follows : Bool := false
  releasing : Bool := false
  /-- The stations of the release request in progress: they are released together or not at all (R358). -/
  party : List Nat := []
  /-- A safe stop is monitored, and whether a demand started it. -/
  stop : Bool := false
  demanded : Bool := false
  x0 : Rat := 0
  stopAt : Nat := 0
  hiCount : Nat := 0
  xCount : Nat := 0
  pCount : Nat := 0
  lastP : List Rat := []
  lastSeq : Option Word := none
  goodAt : Nat := 0
  /-- The latest good record (R352). -/
  record : List Word := []
  deriving DecidableEq, Repr

/-- One dual-channel safety input pair. -/
structure SinPair where
  a : Bool := false
  b : Bool := false
  /-- Since both contacts have read open: once one of them has closed again, the tick by which the other must (R344). The
  time is T_DISC as it stood then, whatever a later change makes of it (R363). -/
  closeBy : Option Nat := none
  demand : Bool := false
  disc : Bool := false
  bothOpenSeen : Bool := false
  deriving DecidableEq, Repr

/-- One safe output with its readback and test. -/
structure SoutOut where
  level : Bool := false
  srb : Bool := false
  testing : Bool := false
  deferred : Bool := false
  fault : Bool := false
  deriving DecidableEq, Repr

/-- Lowboy and Settle as a whole. -/
structure SafetyUnit where
  settleRuns : Bool := false
  settleOk : Bool := false
  lowboyStopped : Bool := false
  /-- Settle's last check found Lowboy's RC outside ±5 %. -/
  rcBad : Bool := false
  /-- ω_H of each station at the last evaluation, signed, in pu of N_RATED. -/
  encSpeed : List (Nat × Rat) := []
  deriving DecidableEq, Repr

/-! ### Clocks and the device as a whole (chapters 16 and 17) -/

/-- The two PLLs: declared lost and not yet in digital lock again, restarted since the loss (R424, R426, R427); islands that
wait for the twin, as bits in the order of CLK_STATUS.SRC_B, and whether the twin is PLL-B (R425); the reference (R428). -/
structure ClkUnit where
  lostA : Bool := false
  lostB : Bool := false
  startedA : Bool := false
  startedB : Bool := false
  moving : BitVec 7 := 0
  toB : Bool := false
  refLost : Bool := false
  buildoutDue : Bool := false
  deriving DecidableEq, Repr

/-- The device: held in reset (R445), asleep in RETAIN (R437). -/
structure DevUnit where
  inReset : Bool := false
  retain : Bool := false
  deriving DecidableEq, Repr

/-! ### Rings (chapter 08) -/

/-- One end of a port, in its role: receiver, wrap, echo detection, driver and the hop's retry (R228, R230, R240, R246,
R247, R248). -/
structure PortEnd where
  locked : Bool := false
  wrapped : Bool := false
  linkUp : Bool := false
  silent : Bool := false
  echo : Bool := false
  short : Bool := false
  echoRun : Nat := 0
  /-- LNK messages sent, newest first. -/
  sentLnk : List (BitVec 16) := []
  lnkCount : Nat := 0
  /-- Cells behind SOF and SOC that have passed on the end's own hop, modulo 16: received and sent. -/
  rxCount : Nat := 0
  txCount : Nat := 0
  /-- Received cells under retry, oldest first: hop count, bad copies so far, tick of the first NAK. -/
  retry : List (Nat × Nat × Nat) := []
  /-- The retry buffer: the last four cells sent with their hop counts, newest first. -/
  kept : List (Nat × TxCell) := []
  abtAt : Option Nat := none
  /-- OP and TAG of the last header cell received. -/
  op : Nat := 0
  tag : Nat := 0
  /-- Frames still to be sent, each with the tick of its SOF, in order; the end of the last frame sent; the tick before
  which no sweep frame starts. -/
  plan : List (Nat × RingFrame) := []
  busyTo : Nat := 0
  holdTo : Nat := 0
  /-- What the end sent, newest first, eight at most. -/
  tx : List RingMsg := []
  deriving DecidableEq, Repr

/-- One ring port. -/
structure PortUnit where
  a : PortEnd := {}
  b : PortEnd := {}
  /-- Number of the sweep in progress, or of the last one; tick of its start and of its SNAP. -/
  sweepNo : Nat := 0
  sweepAt : Nat := 0
  snapAt : Nat := 0
  /-- Data and status cells accepted in this sweep: type, node, index. -/
  got : List (Nat × Nat × Nat) := []
  /-- Nodes that this sweep's frames have asked. -/
  asked : List Nat := []
  lateDue : Bool := false
  rediscover : Bool := false
  /-- An ENUM is on its way. -/
  enumOut : Bool := false
  /-- On an open ring the A-end reaches the nodes below `endA`, the B-end those from `firstB` on (R248). -/
  endA : Nat := 0
  firstB : Nat := 512
  /-- POINTS and the tick of the last accepted cell, by node. -/
  points : List (Nat × Nat) := []
  seenAt : List (Nat × Nat) := []
  /-- Nodes whose last status cell showed WRAPPED, and LINK_UP. -/
  wrapped : List Nat := []
  nodeUp : List Nat := []
  /-- Class profile in force. -/
  pclass : List Word := []
  /-- SNAP or start of the sweep behind the aggregate. -/
  aggAt : Nat := 0
  aggCopy : List Word := []
  /-- A ring command runs, and the pigeonhole that waits for it. -/
  cmdBusy : Bool := false
  cmdSlot : Option Nat := none
  /-- Sequence number of the last command, and the nodes whose status cells it waits for. -/
  cmdSeq : Nat := 0
  cmdLeft : List Nat := []
  readCells : Nat := 0
  /-- Clears of MIN and MAX so far (R253). -/
  clears : Nat := 0
  deriving DecidableEq, Repr

/-! ### DMA and check-value units (chapter 10) -/

/-- A descriptor as fetched (R281). -/
structure Desc where
  ctrl : Word
  next : Word
  src : Nat
  dst : Nat
  c0 : Nat
  c1 : Nat
  c2 : Nat
  ss : List Int
  ds : List Int
  deriving DecidableEq, Repr

/-- One channel: the descriptor in progress and its address, elements whose reads are issued, elements returned, and read
bursts in
flight by their element counts, 0 for a descriptor fetch (R287). -/
structure DmaCh where
  desc : Option Desc := none
  fetching : Bool := false
  addr : Nat := 0
  issued : Nat := 0
  returned : Nat := 0
  bursts : List Nat := []
  writesOut : Nat := 0
  stalled : Bool := false
  bound : Option Nat := none
  deriving DecidableEq, Repr

/-- The engine: read bursts still to return after a halt, and the channel served next. -/
structure DmaUnit where
  drain : Nat := 0
  turn : Nat := 0
  deriving DecidableEq, Repr

/-- One check-value unit: running value, held LO halves (0 POLY, 1 INIT, 2 VALUE), latched HI halves and pending feeds. -/
structure Cvu where
  v : Nat := 0
  held : List (Nat × Word) := []
  latch : List (Nat × Word) := []
  feeds : List (List Byte) := []
  boundTo : Option Nat := none
  deriving DecidableEq, Repr

/-! ### Management (chapters 14 and 15) -/

/-- One pigeonhole: 0 FREE, 1 CLAIMED, 2 POSTED, 3 DONE (R367). -/
structure Slot where
  st : Nat := 0
  peer : Peer := .spi
  running : Bool := false
  /-- Units the running command acts on, and bytes received for a network request. -/
  units : List EzUnit := []
  /-- When the command started, a loop of a station that was not idle selected a gain slot that it writes (R145). -/
  selected : Bool := false
  got : Nat := 0
  deriving DecidableEq, Repr

/-- A peer's session (R374, R375, R402). -/
structure Session where
  peer : Peer
  level : Nat
  nonce : List Byte := []
  nonceAt : Nat := 0
  deriving DecidableEq, Repr

/-- One job: 0 running, 1 done, 2 failed, 3 cancelled (R372, R373). -/
structure Job where
  held : Bool := false
  gen : Nat := 0
  kind : JobKind := .reload 0
  st : Nat := 0
  status : Nat := 0
  /-- A cancel is asked for; the work is over and its status stands. -/
  cancel : Bool := false
  ended : Bool := false
  /-- Units the job holds. -/
  units : List EzUnit := []
  /-- Sundlink jobs: targets or actions left, bytes of the image sent, a wait for the port to become UP (R462, R463). -/
  todo : List Nat := []
  bytes : Nat := 0
  waitUp : Bool := false
  deriving DecidableEq, Repr

/-- A kept response (R386). -/
structure Kept where
  peer : Peer
  seq : Nat
  crc : Nat
  reply : List Byte
  keptAt : Nat
  deriving DecidableEq, Repr

/-- Segments of a CAN message received so far (R387). -/
structure CanRx where
  bytes : List Byte := []
  next : Nat := 0
  deriving DecidableEq, Repr

/-- Pigeonholes, sessions, jobs and the network interfaces. -/
structure MbxUnit where
  slots : List (Nat × Slot) := []
  /-- Posted slots that have not started, oldest first. -/
  order : List Nat := []
  /-- Slots whose commands execute, in the order of their starts. -/
  started : List Nat := []
  sessions : List Session := []
  jobs : List (Nat × Job) := []
  kept : List Kept := []
  canRx : List (Nat × CanRx) := []
  /-- I²C: 0 idle, 1 pending, 2 ready, 3 NO_SLOT. -/
  i2cState : Nat := 0
  i2cSlot : Option Nat := none
  i2cReply : List Byte := []
  tcp : Nat := 0
  links : BitVec 2 := 0
  /-- The last bytes sent on an interface other than SPI, and to whom. -/
  sentTo : Option Peer := none
  sent : List Byte := []
  deriving DecidableEq, Repr

/-- One generation of the configuration page (R403). -/
structure Gen where
  digest : List Byte := []
  records : List (Nat × Word) := []
  programmed : Bool := false
  sealed : Bool := false
  hashOk : Bool := true
  deriving DecidableEq, Repr

/-- The one-time rows (R391, R392): UID, certificate, MAC addresses, key hashes by 2 × role + slot (0 VENDOR, 1 IMAGE,
2 OPERATOR, 3 COMMISSIONING), revoke bits, grant bits, floors, generations, overlay count, debug bits. -/
structure OtpUnit where
  uid : List Byte := List.replicate 16 0
  cert : List Byte := []
  macs : List (List Byte) := []
  vRun : Nat := 850
  keys : List (Nat × List Byte) := []
  revoked : BitVec 8 := 0
  grant : Word := 0
  svnFw : Nat := 0
  svnSettle : Nat := 0
  svnTrestle : Nat := 0
  gens : List (Nat × Gen) := []
  ovlCount : Nat := 0
  dbgLock : Bool := false
  dbgPerm : Bool := false
  deriving DecidableEq, Repr

/-- One overlay copy of the flash (R411). -/
structure Overlay where
  version : Nat
  records : List (Nat × Word)
  sigsOk : Bool
  deriving DecidableEq, Repr

/-- The boot flash: two slots, the boot record with the slot preferred before an activation, the overlay copies. -/
structure FlashUnit where
  slotA : List Byte := []
  slotB : List Byte := []
  preferred : Bool := false
  before : Bool := false
  trial : Bool := false
  recordOk : Bool := true
  ovl1 : Option Overlay := none
  ovl2 : Option Overlay := none
  deriving DecidableEq, Repr

/-- The pending Bureau request (R406, R407). -/
structure BureauReq where
  handle : Nat
  change : BureauChange
  digest : List Byte
  /-- Records to be programmed, and those in force after it. -/
  body : List (Nat × Word)
  inForce : List (Nat × Word)
  overlay : Bool
  target : Nat
  stagedAt : Nat
  fails : Nat
  programming : Bool
  /-- The 600 s have passed, while these pigeonholes were executing a countersignature (R407). -/
  late : Option (List Nat) := none
  deriving DecidableEq, Repr

/-- Trust: the request, handles so far, the configuration in force, staged firmware, the debug unlock. -/
structure TrustUnit where
  req : Option BureauReq := none
  handles : Nat := 0
  /-- Records in force at reset or since (generation with overlay). -/
  records : List (Nat × Word) := []
  /-- The slot that has passed FW_STAGE since the last reset. -/
  staged : Option Bool := none
  dbgNonce : List Word := []
  dbgAt : Nat := 0
  dbgSig : List Word := []
  dbgReads : Nat := 0
  deriving DecidableEq, Repr

/-- Start-up (R396, R398, R448). -/
structure BootUnit where
  /-- Eznel answers: the management firmware or the ROM monitor runs; and it has answered since the reset. -/
  fw : Bool := false
  answered : Bool := false
  vcoreBad : Bool := false
  /-- The slot under check, and whether the other one has failed. -/
  checking : Option Bool := none
  second : Bool := false
  /-- An image is accepted and its firmware starts; Settle starts with it; Settle runs its boot tests. -/
  accepted : Bool := false
  startSettle : Bool := true
  settleTests : Bool := false
  /-- Tick of the last restart accepted from a peer (R461). -/
  restartAt : Option Nat := none
  deriving DecidableEq, Repr

/-- Power: the target the sequencer has still to write, the one it waits for with the tick of its write, whether the last
read-back lay outside ±15 mV, and a wake event latched during entry (R432, R433, R440, R443). -/
structure PowerUnit where
  want : Option Nat := none
  active : Option Nat := none
  writtenAt : Nat := 0
  outside : Bool := false
  wakeLatched : Bool := false
  deriving DecidableEq, Repr

/-! ### Sundlink (chapter 17) -/

/-- A packet that waits for its ACK: the tick of its first sending and its repeats so far (R455). -/
structure SlkWait where
  pkt : SlkPacket
  firstAt : Nat
  repeats : Nat
  deriving DecidableEq, Repr

/-- One port: sequence number of the next packet, packets that wait for ACK, the last packets sent, newest first, and the
staging offset of the transfer that a peer has begun (R454, R455, R461). -/
structure SlkPort where
  seq : Nat := 0
  waits : List SlkWait := []
  tx : List SlkPacket := []
  base : Option Nat := none
  deriving DecidableEq, Repr

/-- A cross-check sample that waits for its partner: entry, own side, tick count, value. -/
structure XSample where
  entry : Nat
  own : Bool
  tick : Nat
  value : Int
  deriving DecidableEq, Repr

/-- SYNC and alignment (R457 to R460), cross-checks (R464), the test access port (R465, R466). -/
structure SlkUnit where
  /-- The phase of the last SYNC edge on PLL-B; on PLL-A it stands in SLK_ALIGN_STAT. -/
  phiB : Nat := 0
  /-- The pulse that position 0 has sent and not seen yet: 1 measure, 2 start, 3 check; the check pulses so far. -/
  sent : Nat := 0
  checks : Nat := 0
  /-- An alignment runs; position 0 has measured; the next edge is the start edge; the release is due. -/
  busy : Bool := false
  measured : Bool := false
  startNext : Bool := false
  releaseDue : Bool := false
  /-- Ticks of the last start edge and of the last edge. -/
  startEdge : Nat := 0
  edgeAt : Nat := 0
  /-- Fine steps still to be asked of each PLL beyond those its stepper holds (R460). -/
  slewA : Int := 0
  slewB : Int := 0
  samples : List XSample := []
  /-- The test instruction loaded. -/
  ir : Byte := 1
  deriving DecidableEq, Repr

/-! ### SPI target (chapter 01) -/

/-- What the SPI target remembers of the previous frame, and what it drove on MISO in the last one (R42 to R45). -/
structure SpiUnit where
  prev : BitVec 6 := 0
  count : BitVec 8 := 0
  miso : List Byte := []
  deriving DecidableEq, Repr

/-- The whole state. -/
structure State where
  /-- Register file: what a register holds where it differs from its reset value, by SPI address. -/
  regs : List (Nat × Word) := []
  /-- Values in force of shadowed registers, by SPI address (R14). -/
  act : List (Nat × Word) := []
  /-- On-die SRAM and DRAM, by internal address. -/
  mem : List Host.Cell := []
  /-- Pigeonhole bytes, by offset in the MBX window. -/
  holes : List Host.Cell := []
  /-- Data memory of Engines A and B, by word number. -/
  dmemA : List (Nat × Word) := []
  dmemB : List (Nat × Word) := []
  /-- Pulse-island ticks of 2.5 ns since reset. -/
  now : Nat := 0
  /-- Count of free values taken (opaque values of Config are applied to it). -/
  draws : Nat := 0
  /-- Granted units, the bits of SYS_GRANT as read at reset. -/
  grants : BitVec 11 := 0
  spi : SpiUnit := {}
  stn : List (Nat × Stn) := []
  pwm : List (Nat × PwmUnit) := []
  hb : List (Nat × HalfBridge) := []
  wcomp : List (Nat × WindowComp) := []
  inp : List (Nat × InputWatch) := []
  conv : List (Nat × Conv) := []
  pair : List (Nat × Pair) := []
  cal : Cal := {}
  sdm : List (Nat × SdmCh) := []
  banksA : Banks := {}
  banksB : Banks := {}
  serving : Option (Fin 4) := none
  /-- Stations whose input lists are complete and whose work has not begun, each behind the tick of its completion, in the
  order in which the engine serves them (R132). -/
  ready : List (Nat × Nat) := []
  red : RedUnit := {}
  clock : Clock := {}
  ptp : PtpUnit := {}
  /-- Firmware parameters outside GFM_PAR, by number (R379). -/
  fw : List (Nat × Word) := []
  caps : List (Nat × Cap) := []
  chest : ChestUnit := {}
  streams : List (Nat × ChestStream) := []
  trigs : List (Nat × ChestTrig) := []
  safe : SafetyUnit := {}
  safeStn : List (Nat × SafeStn) := []
  sin : List (Nat × SinPair) := []
  sout : List (Nat × SoutOut) := []
  /-- Protection settings that wait for their station to be idle: mirror address and new word, oldest first (R410). -/
  pendSet : List (Nat × Word) := []
  /-- What the last read command that stands alone returned (log row 22). -/
  readData : Word := 0
  clk : ClkUnit := {}
  dev : DevUnit := {}
  /-- Levels of the banks VIOA and VIOB, as VSELA and VSELB were read (R471; log row 105). -/
  vioA : BankLevel := .v1_8
  vioB : BankLevel := .v1_8
  ports : List (Nat × PortUnit) := []
  /-- Shelf entries: clears of their port at their last update, and those with a replacement pending (R239, R253). -/
  shelfSeen : List (Nat × Nat) := []
  shelfFresh : List (Nat × Bool) := []
  dmaCh : List (Nat × DmaCh) := []
  dma : DmaUnit := {}
  cvu : List (Nat × Cvu) := []
  mbx : MbxUnit := {}
  otp : OtpUnit := {}
  flash : FlashUnit := {}
  trust : TrustUnit := {}
  boot : BootUnit := {}
  power : PowerUnit := {}
  slkPort : List (Nat × SlkPort) := []
  slk : SlkUnit := {}
  /-- Station enable inputs SEN0 to SEN3. -/
  sen : BitVec 4 := 0
  /-- Commands waiting, first in first out. -/
  pending : List Instr := []
  deriving DecidableEq, Repr

/-- What an access to the 24-bit space leaves and answers. -/
structure BusOut where
  st : State
  word : Word
  access : Access
  deriving DecidableEq, Repr

/-- The answer of a meaning. -/
abbrev Answer := Host.Outcome State Fault Refusal

/-- The block right after reset. -/
def State.reset : State := { boot := { checking := some false } }

end Sys2Proof.Machine
end

