-- ==== Sys2Proof/Machine/Ops.lean ====
section
/-! DEFINITION. The named operations over the state: the register file, memory, the arrays of units, time. Every meaning
reads and writes through these. -/

namespace Sys2Proof.Machine

/-! ### Registers -/

/-- The stored word of a register (its reset value where nothing has written it). -/
def State.reg (s : State) (a : Nat) : Word := tget regReset s.regs a

def State.setReg (s : State) (a : Nat) (w : Word) : State := { s with regs := tset regReset s.regs a w }

/-- The value in force of a shadowed register (R14). -/
def State.actReg (s : State) (a : Nat) : Word := tget regReset s.act a

def State.setAct (s : State) (a : Nat) (w : Word) : State := { s with act := tset regReset s.act a w }

/-- Write a register and put it in force at once. -/
def State.setBoth (s : State) (a : Nat) (w : Word) : State := (s.setReg a w).setAct a w

/-- A field of a register. -/
def State.fld (s : State) (f : Fld) : Nat := bits (s.reg f.addr) f.lo f.w

def State.setFld (s : State) (f : Fld) (n : Nat) : State := s.setReg f.addr (putBits (s.reg f.addr) f.lo f.w n)

/-- A field of the value in force. -/
def State.actFld (s : State) (f : Fld) : Nat := bits (s.actReg f.addr) f.lo f.w

def State.setActFld (s : State) (f : Fld) (n : Nat) : State :=
  s.setAct f.addr (putBits (s.actReg f.addr) f.lo f.w n)

def State.flag (s : State) (f : Fld) : Bool := s.fld f != 0

/-- Bit `i` of a field that is a set of bits. -/
def State.fldBit (s : State) (f : Fld) (i : Nat) : Bool := bit (s.reg f.addr) (f.lo + i)

def State.setFldBit (s : State) (f : Fld) (i : Nat) (b : Bool) : State :=
  s.setReg f.addr (putBit (s.reg f.addr) (f.lo + i) b)

/-! ### Memory -/

/-- On-die SRAM or DRAM (01_architecture.md, internal memory). -/
def inMemory (a : Nat) : Bool :=
  (decide (0x10000000 ≤ a) && decide (a < 0x10800000)) || (decide (0x80000000 ≤ a) && decide (a < 0x90000000))

/-- What a byte that nothing has written reads as: in the Shelf region each entry reads as initialised (R252, R253: bits
63:48 hold NEVER, 0x0400), everywhere else 0 (log row 9). -/
def memDefault (a : Nat) : Byte :=
  if 0x80000000 ≤ a ∧ a < 0x82800000 ∧ a % 8 = 7 then 0x04 else 0

def State.byte (s : State) (a : Nat) : Byte := tget memDefault s.mem a

def State.setByte (s : State) (a : Nat) (b : Byte) : State := { s with mem := tset memDefault s.mem a b }

/-- Bytes from an address on. -/
def State.bytes (s : State) (a : Nat) : Nat → List Byte
  | 0 => []
  | n + 1 => s.byte a :: s.bytes (a + 1) n

def State.setBytes (s : State) (a : Nat) : List Byte → State
  | [] => s
  | b :: t => (s.setByte a b).setBytes (a + 1) t

/-- A 32-bit word of memory, least significant byte first (R36). -/
def State.word (s : State) (a : Nat) : Word := BitVec.ofNat 32 (leNat (s.bytes a 4))

def State.setWord (s : State) (a : Nat) (w : Word) : State := s.setBytes a (leBytes w)

/-- The pigeonhole bytes, by offset in the MBX window. -/
def holeDefault (_ : Nat) : Byte := 0

def State.hole (s : State) (o : Nat) : Byte := tget holeDefault s.holes o

def State.setHole (s : State) (o : Nat) (b : Byte) : State := { s with holes := tset holeDefault s.holes o b }

def State.holeBytes (s : State) (o : Nat) : Nat → List Byte
  | 0 => []
  | n + 1 => s.hole o :: s.holeBytes (o + 1) n

def State.setHoles (s : State) (o : Nat) : List Byte → State
  | [] => s
  | b :: t => (s.setHole o b).setHoles (o + 1) t

/-- A word of an engine's data memory by word number (R128). -/
def dmemDefault (_ : Nat) : Word := 0

def State.dmem (s : State) (e : Nat) (i : Nat) : Word := tget dmemDefault (if e = 0 then s.dmemA else s.dmemB) i

def State.setDmem (s : State) (e : Nat) (i : Nat) (w : Word) : State :=
  if e = 0 then { s with dmemA := tset dmemDefault s.dmemA i w } else { s with dmemB := tset dmemDefault s.dmemB i w }

/-! ### Units. Each array has a read and an update. -/

def State.stnOf (s : State) (n : Nat) : Stn := tget (fun _ => {}) s.stn n
def State.onStn (s : State) (n : Nat) (f : Stn → Stn) : State :=
  { s with stn := tset (fun _ => {}) s.stn n (f (s.stnOf n)) }

def State.pwmOf (s : State) (n : Nat) : PwmUnit := tget (fun _ => {}) s.pwm n
def State.onPwm (s : State) (n : Nat) (f : PwmUnit → PwmUnit) : State :=
  { s with pwm := tset (fun _ => {}) s.pwm n (f (s.pwmOf n)) }

/-- Half-bridge `k` of station `n` is half-bridge 12n + k of the device. -/
def State.hbOf (s : State) (n k : Nat) : HalfBridge := tget (fun _ => {}) s.hb (12 * n + k)
def State.onHb (s : State) (n k : Nat) (f : HalfBridge → HalfBridge) : State :=
  { s with hb := tset (fun _ => {}) s.hb (12 * n + k) (f (s.hbOf n k)) }

def State.wcompOf (s : State) (n c : Nat) : WindowComp := tget (fun _ => {}) s.wcomp (6 * n + c)
def State.onWcomp (s : State) (n c : Nat) (f : WindowComp → WindowComp) : State :=
  { s with wcomp := tset (fun _ => {}) s.wcomp (6 * n + c) (f (s.wcompOf n c)) }

/-- Slot `i` of station `n` is input-list entry 64n + i. -/
def State.inpOf (s : State) (n i : Nat) : InputWatch := tget (fun _ => {}) s.inp (64 * n + i)
def State.onInp (s : State) (n i : Nat) (f : InputWatch → InputWatch) : State :=
  { s with inp := tset (fun _ => {}) s.inp (64 * n + i) (f (s.inpOf n i)) }

def State.convOf (s : State) (k : Nat) : Conv := tget (fun _ => {}) s.conv k
def State.onConv (s : State) (k : Nat) (f : Conv → Conv) : State :=
  { s with conv := tset (fun _ => {}) s.conv k (f (s.convOf k)) }

def State.pairOf (s : State) (p : Nat) : Pair := tget (fun _ => {}) s.pair p
def State.onPair (s : State) (p : Nat) (f : Pair → Pair) : State :=
  { s with pair := tset (fun _ => {}) s.pair p (f (s.pairOf p)) }

def State.sdmOf (s : State) (c : Nat) : SdmCh := tget (fun _ => {}) s.sdm c
def State.onSdm (s : State) (c : Nat) (f : SdmCh → SdmCh) : State :=
  { s with sdm := tset (fun _ => {}) s.sdm c (f (s.sdmOf c)) }

def State.capOf (s : State) (c : Nat) : Cap := tget (fun _ => {}) s.caps c
def State.onCap (s : State) (c : Nat) (f : Cap → Cap) : State :=
  { s with caps := tset (fun _ => {}) s.caps c (f (s.capOf c)) }

def State.streamOf (s : State) (k : Nat) : ChestStream := tget (fun _ => {}) s.streams k
def State.onStream (s : State) (k : Nat) (f : ChestStream → ChestStream) : State :=
  { s with streams := tset (fun _ => {}) s.streams k (f (s.streamOf k)) }

def State.trigOf (s : State) (t : Nat) : ChestTrig := tget (fun _ => {}) s.trigs t
def State.onTrig (s : State) (t : Nat) (f : ChestTrig → ChestTrig) : State :=
  { s with trigs := tset (fun _ => {}) s.trigs t (f (s.trigOf t)) }

def State.safeOf (s : State) (n : Nat) : SafeStn := tget (fun _ => {}) s.safeStn n
def State.onSafe (s : State) (n : Nat) (f : SafeStn → SafeStn) : State :=
  { s with safeStn := tset (fun _ => {}) s.safeStn n (f (s.safeOf n)) }

def State.sinOf (s : State) (x : Nat) : SinPair := tget (fun _ => {}) s.sin x
def State.onSin (s : State) (x : Nat) (f : SinPair → SinPair) : State :=
  { s with sin := tset (fun _ => {}) s.sin x (f (s.sinOf x)) }

def State.soutOf (s : State) (k : Nat) : SoutOut := tget (fun _ => {}) s.sout k
def State.onSout (s : State) (k : Nat) (f : SoutOut → SoutOut) : State :=
  { s with sout := tset (fun _ => {}) s.sout k (f (s.soutOf k)) }

def State.portOf (s : State) (q : Nat) : PortUnit := tget (fun _ => {}) s.ports q
def State.onPort (s : State) (q : Nat) (f : PortUnit → PortUnit) : State :=
  { s with ports := tset (fun _ => {}) s.ports q (f (s.portOf q)) }

def State.chOf (s : State) (n : Nat) : DmaCh := tget (fun _ => {}) s.dmaCh n
def State.onCh (s : State) (n : Nat) (f : DmaCh → DmaCh) : State :=
  { s with dmaCh := tset (fun _ => {}) s.dmaCh n (f (s.chOf n)) }

def State.cvuOf (s : State) (u : Nat) : Cvu := tget (fun _ => {}) s.cvu u
def State.onCvu (s : State) (u : Nat) (f : Cvu → Cvu) : State :=
  { s with cvu := tset (fun _ => {}) s.cvu u (f (s.cvuOf u)) }

def State.slotOf (s : State) (i : Nat) : Slot := tget (fun _ => {}) s.mbx.slots i
def State.onMbx (s : State) (f : MbxUnit → MbxUnit) : State := { s with mbx := f s.mbx }
def State.onSlot (s : State) (i : Nat) (f : Slot → Slot) : State :=
  s.onMbx (fun m => { m with slots := tset (fun _ => {}) m.slots i (f (s.slotOf i)) })

def State.jobOf (s : State) (j : Nat) : Job := tget (fun _ => {}) s.mbx.jobs j
def State.onJob (s : State) (j : Nat) (f : Job → Job) : State :=
  s.onMbx (fun m => { m with jobs := tset (fun _ => {}) m.jobs j (f (s.jobOf j)) })

def State.genOf (s : State) (g : Nat) : Gen := tget (fun _ => {}) s.otp.gens g

def State.slkPortOf (s : State) (p : Nat) : SlkPort := tget (fun _ => {}) s.slkPort p
def State.onSlkPort (s : State) (p : Nat) (f : SlkPort → SlkPort) : State :=
  { s with slkPort := tset (fun _ => {}) s.slkPort p (f (s.slkPortOf p)) }
def State.onSlk (s : State) (f : SlkUnit → SlkUnit) : State := { s with slk := f s.slk }

/-- Core and limiting state of a station. -/
def State.coreOf (s : State) (n : Nat) : Core := (s.stnOf n).core
def State.onCore (s : State) (n : Nat) (f : Core → Core) : State := s.onStn n (fun u => { u with core := f u.core })
def State.onLim (s : State) (n : Nat) (f : Limiting → Limiting) : State := s.onStn n (fun u => { u with lim := f u.lim })
def State.onStart (s : State) (n : Nat) (f : Start → Start) : State := s.onStn n (fun u => { u with start := f u.start })
def State.onPer (s : State) (n : Nat) (f : Period → Period) : State := s.onStn n (fun u => { u with per := f u.per })

/-! ### Lists of units -/

/-- Apply an operation for each number below a bound, lowest first. -/
def State.forAll (s : State) : Nat → (Nat → State → State) → State
  | 0, _ => s
  | k + 1, f => f k (s.forAll k f)

/-- Apply an operation for each number of a list, in order. -/
def State.forEach (s : State) (l : List Nat) (f : Nat → State → State) : State := l.foldl (fun t i => f i t) s

/-! ### Grants (R6) -/

def State.grantS (s : State) (n : Nat) : Bool := n == 0 || s.grants.getLsbD (n - 1)
def State.grantB (s : State) : Bool := s.grants.getLsbD 3
def State.grantPort (s : State) (q : Nat) : Bool := q < 16 || s.grants.getLsbD (3 + q / 16)
def State.grantChest (s : State) : Bool := s.grants.getLsbD 7
def State.grantSlk (s : State) : Bool := s.grants.getLsbD 8
def State.grantHarm (s : State) : Bool := s.grants.getLsbD 9
def State.grantMachine (s : State) : Bool := s.grants.getLsbD 10

/-! ### Parameters and time -/

/-- The value in force of a station parameter. -/
def State.par (s : State) (n i : Nat) : Rat := f32ToRat (s.actReg (GFM_PAR n i))

/-- The multiple of its resolution that a station parameter stands for (R63): what a bound given in decimals is held
against (log row 80). -/
def State.parDec (s : State) (n i : Nat) : Rat :=
  let x := s.par n i
  match parDesc i with
  | some p => if p.res = 0 then x else (roundAway (x / p.res) : Rat) * p.res
  | none => x

/-- Seconds of one pulse-island tick. -/
def tickSec : Rat := 1 / 400000000

/-- Microseconds of a number of ticks. -/
def ticksUs (t : Nat) : Nat := t / 400

/-- Ticks of a number of microseconds. -/
def usTicks (us : Nat) : Nat := us * 400

/-- The 64-bit stamp of local time: seconds bits 33:0 above 30 bits of nanoseconds (R268). -/
def State.stamp (s : State) : Nat := s.clock.secs % 2 ^ 34 * 2 ^ 30 + s.clock.ns

/-- Take a free value: the counter that the opaque values are applied to moves on. -/
def State.draw (s : State) : State := { s with draws := s.draws + 1 }

end Sys2Proof.Machine
end

