-- ==== Sys2Proof/Machine/Flags.lean ====
section
/-! DEFINITION. Sticky flags and saturating counters (R12, R16). -/

namespace Sys2Proof.Machine

/-- Set a sticky flag. -/
def State.setFlag (s : State) (f : Fld) : State := s.setFld f 1

/-- Set a sticky flag where a condition holds. -/
def State.setFlagIf (s : State) (c : Bool) (f : Fld) : State := if c then s.setFlag f else s

/-- Add to a saturating counter. -/
def State.countBy (s : State) (f : Fld) (n : Nat) : State := s.setFld f (min (s.fld f + n) (2 ^ f.w - 1))

/-- Count one. -/
def State.count (s : State) (f : Fld) : State := s.countBy f 1

/-- A flag set by hardware in the cycle in which a write clears it ends set (R12): set after the clear. -/
def clearBits (old wr : Word) (lo w : Nat) : Word := putBits old lo w (bits old lo w - (bits old lo w &&& bits wr lo w))

/-- A saturating counter clears only on a write of all ones to all of its bits. -/
def clearCount (old wr : Word) (lo w : Nat) : Word := if bits wr lo w = 2 ^ w - 1 then putBits old lo w 0 else old

end Sys2Proof.Machine
end

