-- ==== Sys2Proof/Machine/Control.lean ====
section
/-! DEFINITION. Operations that several units share: the event log, Chest triggers, Lowboy's removal, the fall of gate
enables, station states and trips. -/

namespace Sys2Proof.Machine

/-! ### Islands that run -/

/-- Some island of a set is paused: it has lost its PLL and has not resumed on the twin (R24, R333, R425). Islands stand in
the order of CLK_STATUS.SRC_B. -/
def State.paused (s : State) (islands : BitVec 7) : Bool := s.clk.moving &&& islands != 0

/-- A clock is present: out of reset, not in RETAIN, one PLL at least (R427, R434, R446). Register accesses of ungated
windows need no more: one that meets a paused island is completed when it resumes, and nothing of it is lost (R24). -/
def State.devRuns (s : State) : Bool := !s.dev.inReset && !s.dev.retain && !(s.clk.lostA && s.clk.lostB)

def whenDev (s t : State) : Answer := .next (if s.devRuns then t else s)

/-- The conversion, control and pulse islands are clocked: the device is in RUN and they are not paused (R24, R26, R427,
R434, R435, R446). -/
def State.islandsRun (s : State) : Bool := s.devRuns && s.fld PWR_STATUS_STATE == 0 && !s.paused 0b0001110

/-- An event of a gated island does not arise. -/
def whenRun (s t : State) : Answer := .next (if s.islandsRun then t else s)

/-- The ring and memory islands are clocked: from the entry into RETAIN on they start no new work (R24, R434, R437). -/
def State.dataRuns (s : State) : Bool := s.devRuns && decide (s.fld PWR_STATUS_STATE ≤ 1) && !s.paused 0b0110000

def whenData (s t : State) : Answer := .next (if s.dataRuns then t else s)

/-- The management firmware, or the ROM monitor in its place, runs and answers (R396, R398, R448). -/
def State.fwRuns (s : State) : Bool :=
  s.devRuns && s.boot.fw && decide (s.fld PWR_STATUS_STATE ≤ 1) && !s.paused 0b0000001

def whenFw (s t : State) : Answer := .next (if s.fwRuns then t else s)

/-- The management firmware itself runs: its own work stops while the ROM monitor stands in for it (R396). -/
def State.mgmtRuns (s : State) : Bool := s.fwRuns && !s.flag SEC_BOOT_MONITOR

def whenMgmt (s t : State) : Answer := .next (if s.mgmtRuns then t else s)

/-! ### Windows (R7, R26, R39) -/

/-- Whether a window is listed, and if so whether its unit is granted. -/
def State.window (s : State) (x : Nat) : Option Bool :=
  if x < 0x08 then some true
  else if x < 0x0C then some (s.grantS (x - 0x08))
  else if x < 0x10 then some (s.grantS (x - 0x0C))
  else if x < 0x13 then some true
  else if x = 0x13 then some s.grantB
  else if x < 0x18 then some (s.grantS (x - 0x14))
  else if x = 0x18 then some s.grantB
  else if x < 0x1D then some true
  else if x = 0x1D then some s.grantChest
  else if x = 0x1E then some s.grantSlk
  else if x = 0x1F then some true
  else if x < 0x24 then some (s.grantPort (16 * (x - 0x20)))
  else none

/-- A window of the conversion, control or pulse island, gated outside RUN (R26, R435). -/
def State.gatedWindow (s : State) (x : Nat) : Bool :=
  decide (0x08 ≤ x ∧ x ≤ 0x18) && s.fld PWR_STATUS_STATE != 0

/-- A row that is one write into window `x`: on an ungranted unit it is discarded and sets GRANT_MISS, on a gated one it is
discarded (R7, R26). -/
def writeWindow (x : Nat) (s t : State) : Answer :=
  .next (if !s.devRuns then s
    else if s.window x == some true then (if s.gatedWindow x then s else t)
    else s.setFlag SYS_STATUS_GRANT_MISS)

/-- A row that is one read in window `x`: where the write would be discarded, the read gives 0. -/
def readWindow (x : Nat) (s t : State) : Answer :=
  .next (if !s.devRuns then s
    else if s.window x == some true then (if s.gatedWindow x then { s with readData := 0 } else t)
    else { s.setFlag SYS_STATUS_GRANT_MISS with readData := 0 })

/-! ### Event log (R265) -/

/-- The 32 bytes of an event record, its CRC-32C last. -/
def eventRecord (time seq typ unit index code : Nat) : List Byte :=
  let body := leBytesN 8 time ++ leBytesN 4 seq ++ leBytesN 1 typ ++ leBytesN 1 unit ++ leBytesN 2 index ++
    leBytesN 4 code ++ leBytesN 8 0
  body ++ leBytes (crc32c body)

/-- Log one event. With CHEST, Chest writes it while EVLOG_EN is 1; without it, firmware writes types 1 to 4. -/
def State.logEvent (s : State) (typ unit index code : Nat) : State :=
  let on := if s.grantChest then s.flag CHS_CFG_EVLOG_EN else decide (typ ≤ 4)
  if on then
    let q := s.chest.evSeq
    let est := s.fld TIM_STATUS_TIME_ESTIMATED
    let s1 := s.setBytes (0x8A700000 + q % 32768 * 32)
      (eventRecord s.stamp (q % 2 ^ 32) (typ + 128 * est) unit index code)
    let s2 : State := { s1 with chest := { s1.chest with evSeq := q + 1 } }
    s2.setFlagIf (s.grantChest && decide (q = 32768)) CHS_FLAGS_EVLOG_WRAP
  else s

/-! ### Chest triggers (R267 to R271) -/

def State.streamOn (s : State) (k : Nat) : Bool := s.flag (CHS_STR_CFG_EN k)

/-- Whether every enabled stream has completed PRE elements since the arm. -/
def State.preFull (s : State) : Bool :=
  (List.range 32).all (fun k => !s.streamOn k || decide (s.fld CHS_PRE_PRE ≤ (s.streamOf k).filled))

/-- Take a trigger: POST begins and every stream notes its pre-trigger elements (R269). -/
def State.chestTake (s : State) (src time : Nat) : State :=
  let pre := s.fld CHS_PRE_PRE
  let short := !s.preFull
  let s1 := s.forAll 32 (fun k t =>
    t.onStream k (fun c => { c with preValid := min c.filled pre, post := 0, lost := 0, gapStored := 0, gaps := 0 }))
  let s2 : State := { s1 with chest := { s1.chest with trigSrc := src, tTrig := time, estAtTrig := s.flag TIM_STATUS_TIME_ESTIMATED } }
  (s2.setFld CHS_STATUS_STATE 2).setFlagIf short CHS_FLAGS_PRE_SHORT
    |> fun t => if short then { t with chest := { t.chest with flags := t.chest.flags ||| 4 } } else t

/-- A trigger is recognised: taken in ARMED, counted in POST and REARM, ignored otherwise (R269, R271). -/
def State.chestRecognise (s : State) (src time : Nat) : State :=
  match s.fld CHS_STATUS_STATE with
  | 1 =>
    if s.flag CHS_CFG_PRE_WAIT && !s.preFull then (s.count CHS_CNT0_TRG_BUSY_CNT).setFlag CHS_FLAGS_TRG_MISSED
    else s.chestTake src time
  | 2 => (s.count CHS_CNT0_TRG_BUSY_CNT).setFlag CHS_FLAGS_TRG_MISSED
  | 3 => (s.count CHS_CNT0_TRG_REARM_CNT).setFlag CHS_FLAGS_TRG_MISSED
  | _ => s

/-- Units that fire in one cycle make one trigger, which bears the lowest number: the first recognises it, the others only
lower the number of a trigger that was taken (R268; log row 103). -/
def State.chestTrigger (s : State) (src time : Nat) : State :=
  if !s.grantChest then s
  else if s.chest.trigAt = some s.now then
    (if s.chest.trigTaken then { s with chest := { s.chest with trigSrc := min s.chest.trigSrc src } } else s)
  else
    let t := s.chestRecognise src time
    { t with chest := { t.chest with trigAt := some s.now, trigTaken := s.fld CHS_STATUS_STATE == 1 && t.fld CHS_STATUS_STATE == 2 } }

/-- Whether trigger unit `t` is enabled for an event of a kind on a source; `any` is the SEL code for any source. -/
def State.trigMatches (s : State) (typ src : Nat) (any : Option Nat) (t : Nat) : Bool :=
  s.actFld (CHS_TRG_EN t) == 1 && s.actFld (CHS_TRG_TYPE t) == typ &&
    (s.actFld (CHS_TRG_SEL t) == src || any == some (s.actFld (CHS_TRG_SEL t)))

/-- An event reaches the trigger units: the lowest that matches makes one trigger (R268). -/
def State.chestEvent (s : State) (typ src : Nat) (any : Option Nat) : State :=
  match (List.range 8).find? (s.trigMatches typ src any) with
  | some t => s.chestTrigger t s.stamp
  | none => s

/-! ### Enables and pins (R187) -/

/-- The station state has enables high (R187). -/
def Stn.enHigh (u : Stn) : Bool :=
  match u.st with
  | .running | .limiting | .rideThrough | .openLoopV | .stopping => true
  | .deadBusStart => u.start.phase == .ramp || u.start.phase == .rampHold
  | .synchronising =>
    u.start.phase == .energise || u.start.phase == .matching || u.start.phase == .window || u.start.phase == .busGap
  | _ => false

/-- The state that a station's blocks run as: in STOPPING, the one it was left from (R488). -/
def Stn.mode (u : Stn) : StnState := if u.st == .stopping then u.stopFrom else u.st

/-- In a start, or stopping from one with the enables high. -/
def Stn.starting (u : Stn) : Bool := u.mode == .deadBusStart || u.mode == .synchronising

/-- The rotor is steered toward the bus (R98): synchronising, until the breaker has closed (R100). -/
def Stn.steered (u : Stn) : Bool := u.mode == .synchronising && !u.start.complete

/-- Idle under R77. -/
def Stn.idle (u : Stn) : Bool := u.st == .disabled || u.st == .ready || u.st == .tripped

def State.stnIdle (s : State) (n : Nat) : Bool := (s.stnOf n).idle

/-- A loop selects a slot by its GSLOT in force or by a pending write of it (R145). -/
def State.slotSelected (s : State) (k g : Nat) : Bool :=
  s.flag (TRS_LOOP_CFG_VALID k) && (s.actFld (TRS_LOOP_CFG_GSLOT k) == g || s.fld (TRS_LOOP_CFG_GSLOT k) == g)

/-- Some loop of a station that is not idle selects the slot. -/
def State.slotBusy (s : State) (g : Nat) : Bool :=
  (List.range 64).any (fun k => s.slotSelected k g && !s.stnIdle (s.fld (TRS_LOOP_CFG_STATION k)))

/-- Lowboy's permit to a station: no held removal, none that follows the station, and Lowboy runs (R338, R339). -/
def State.permit (s : State) (n : Nat) : Bool :=
  !s.safe.lowboyStopped && !(s.safeOf n).held && !(s.safeOf n).follows

/-- Mask index in force (R176). -/
def State.maskIndex (s : State) (n : Nat) : Nat :=
  if s.flag (PWM_MASK_SRC_SRC_EN n) then (s.pwmOf n).maskIdx.toNat else s.fld (PWM_MASK_SRC_SW_IDX n)

/-- The commutation-mask action on a half-bridge: 0 PASS, 1 LOW, 2 HIGH, 3 OFF (R176). -/
def State.maskAction (s : State) (n k : Nat) : Nat :=
  if s.fld (PWM_TB_CFG_OVR_MODE n) = 1 then
    s.actFld (PWM_MASK_ACT n (s.maskIndex n)) / 4 ^ k % 4
  else 0

/-- The effective enable of a half-bridge (R187), with the gate block's removal of R190. -/
def State.effEnable (s : State) (n k : Nat) : Bool :=
  (s.stnOf n).enHigh && s.fldBit (PWM_HB_EN_EN n) k && !s.fldBit (GATE_LATCH_LATCHED n) k && s.permit n &&
    s.maskAction n k != 3 && !(s.pwmOf n).gateRemoved

/-- A half-bridge goes dark: both pins low, every pending turn-on cancelled. -/
def HalfBridge.dark (h : HalfBridge) : HalfBridge :=
  { h with gh := false, gl := false, deadTo := none, blank := false, eff := false, test := none }

/-- Half-bridges whose effective enable has fallen go dark; a direct drive without a permit ends (R187, R194). -/
def State.dropGates (s : State) (n : Nat) : State :=
  s.forAll 12 (fun k t =>
    let h := t.hbOf n k
    if (h.eff && !t.effEnable n k) || (h.test.isSome && !t.permit n) then t.onHb n k HalfBridge.dark else t)

/-! ### Station states and trips -/

/-- The station a protection setting belongs to, by its mirror address; none for a device-wide setting (R353, R410). -/
def settingStation (a : Nat) : Option Nat :=
  if 0x140000 ≤ a ∧ a < 0x180000 then some ((a - 0x140000) / 0x10000)
  else if 0x0C0000 ≤ a ∧ a < 0x100000 then some ((a - 0x0C0000) / 0x10000)
  else if 0x190100 ≤ a ∧ a < 0x190200 then some ((a - 0x190100) / 0x40)
  else none

/-- Whether a waiting setting may come into force: its station is idle, or every granted station is (R410). -/
def State.settingReady (s : State) (a : Nat) : Bool :=
  match settingStation a with
  | some n => s.stnIdle n
  | none => (List.range 4).all (fun n => !s.grantS n || s.stnIdle n)

/-- Put every waiting setting that may apply into force (R410). -/
def State.applySettings (s : State) : State :=
  let go := s.pendSet.filter (fun e => s.settingReady e.1)
  let stay := s.pendSet.filter (fun e => !s.settingReady e.1)
  go.foldl (fun t e => t.setBoth e.1 e.2) { s with pendSet := stay }

/-- A waiting FC_BUDGET is in force from the first period in a state that carries no fault current (R72, R124). -/
def Limiting.takeWait (l : Limiting) (st : StnState) : Limiting :=
  match st, l.fcWait with
  | .running, some x | .ready, some x | .tripped, some x => { l with fcBudget := x, fcWait := none }
  | _, _ => l

/-- Move a station to a state; PREV_STATE keeps the one it leaves. The memory of a fault (R72) holds in OPEN_LOOP_V and
STOPPING, harmonic filters clear outside RUNNING (R84), and settings that wait for idle come into force (R410). -/
def State.setSt (s : State) (n : Nat) (st : StnState) : State :=
  let s1 := s.onStn n (fun u =>
    let fault := match st with
      | .openLoopV | .stopping => u.lim.inFault || u.st == .limiting || u.st == .rideThrough
      | _ => false
    { u with prev := u.st, st := st, hch := [], lim := { u.lim with inFault := fault }.takeWait st })
  if (s1.stnOf n).idle then s1.applySettings else s1

/-! ### Changes within a period (R78, R123) -/

/-- The flag and the counter that a change of this period counts by, for the state it leads to. -/
def turnMarks (n : Nat) : StnState → Option Fld × Option Fld
  | .rideThrough => (some (GFM_FRT_FLAGS_RT_ENTERED n), some (GFM_FRT_CNT1_RT_EPISODE_CNT n))
  | .limiting => (some (GFM_FRT_FLAGS_LIMITED n), some (GFM_FRT_CNT0_LIM_EPISODE_CNT n))
  | .running => (some (GFM_FRT_FLAGS_CLEARED n), none)
  | _ => (none, none)

def State.optFld (s : State) (f : Option Fld) : Nat := match f with | some f => s.fld f | none => 0

/-- A mark goes back to what it was, unless it has been cleared since. -/
def State.backFld (s : State) (f : Option Fld) (x : Nat) : State :=
  match f with
  | some f => s.setFld f (min (s.fld f) x)
  | none => s

/-- Take back the change of this period: the station is in the state that it left, with what it held. -/
def State.undoTurn (s : State) (n : Nat) : State :=
  let u := s.stnOf n
  match u.turn with
  | none => s
  | some t =>
    let m := turnMarks n u.st
    let s1 := s.onStn n (fun u =>
      { u with
        st := t.st, prev := t.prev, hch := t.hch, start := t.start, turn := none,
        lim := { u.lim with
          inFault := t.lim.inFault, limTime := t.lim.limTime, fcBudget := t.lim.fcBudget, fcWait := t.lim.fcWait } })
    (s1.backFld m.1 t.flag).backFld m.2 t.cnt

/-- Whether a change under a row of R78 may be made in this period: no change under the same row or a higher one has been,
and no stop is called for. -/
def State.mayTurn (s : State) (n row : Nat) : Bool :=
  match (s.stnOf n).turn with
  | some t => decide (row < t.row)
  | none => true

/-- Note that the station changes to `st` under a row, before it does (log row 106). -/
def State.noteTurn (s : State) (n row : Nat) (st : StnState) : State :=
  let u := s.stnOf n
  let m := turnMarks n st
  let t : Turn :=
    { row := row, st := u.st, prev := u.prev, hch := u.hch, lim := u.lim, start := u.start, flag := s.optFld m.1,
      cnt := s.optFld m.2 }
  if (s.pwmOf n).run then s.onStn n (fun u => { u with turn := some t }) else s

/-- The SAFETY-independent part of a removal that follows the station (R339). -/
def State.lowboyFollow (s : State) (n : Nat) : State :=
  (s.onSafe n (fun f => { f with follows := true })).dropGates n

/-- GFM_TRIP_CAUSE for a set of causes (R121): FIRST the lowest code, ALL one bit each. -/
def tripWord (codes : List Nat) : Word :=
  let first := codes.foldl (fun m c => if m = 0 then c else min m c) 0
  let all := codes.foldl (fun m c => m ||| 2 ^ (c - 1)) 0
  BitVec.ofNat 32 (first + all * 2 ^ 16)

/-- The committed state of the active engine's loops of a station. -/
def Stn.eng (u : Stn) : EngState := { core := u.core, lx := u.lx, vars := u.vars, hch := u.hch }

/-- Put an engine's committed state in the place of the active one's. -/
def Stn.withEng (u : Stn) (e : EngState) : Stn := { u with core := e.core, lx := e.lx, vars := e.vars, hch := e.hch }

/-- A change that the station's state makes to the core on both engines at once. -/
def State.onCores (s : State) (n : Nat) (f : Core → Core) : State :=
  s.onStn n (fun u => { u with core := f u.core, sby := { u.sby with core := f u.sby.core } })

/-- The current limiting of a station that no longer conducts has ended (R110; log row 119). -/
def State.calmLimits (s : State) (n : Nat) : State :=
  (s.onCores n (fun c => { c with dz := 0, rvEff := s.par n parRV, xvEff := s.par n parXV })).onLim n (fun l =>
    { l with clampActing := false, calm := false, vOk := false })

/-- The trip period is the one in progress: TRIPPED was entered within it. -/
def Stn.tripHere (u : Stn) : Bool := u.st == .tripped && u.tripAt == some u.count

/-- The state that a condition of this period is judged in: the one that the station had when it tripped in it. -/
def Stn.stHere (u : Stn) : StnState := if u.tripHere then u.prev else u.st

/-- The enables were high in this period. -/
def Stn.highHere (u : Stn) : Bool := if u.tripHere then u.tripHigh else u.enHigh

/-- A cause found later in the trip period still counts (R121). -/
def State.addCauses (s : State) (n : Nat) (codes : List Nat) : State :=
  let old := s.reg (GFM_TRIP_CAUSE n)
  s.setReg (GFM_TRIP_CAUSE n) (tripWord (codes ++ (List.range 11).filterMap (fun i =>
    if bit old (16 + i) then some (i + 1) else none)))

/-- The station enters TRIPPED with the causes found in this period (R78, R121). `within` says that the period goes on: a
return of it is taken back (R123), and causes found later in it still count. -/
def State.enterTripped (s0 : State) (n : Nat) (within : Bool) : State :=
  let s := s0.undoTurn n
  let u := s.stnOf n
  if u.trips.isEmpty || u.st == .disabled then s.onStn n (fun u => { u with trips := [], tripDue := false })
  else if u.st == .tripped then
    (if u.tripHere then s.addCauses n u.trips else s).onStn n (fun u => { u with trips := [], tripDue := false })
  else
    let w := tripWord u.trips
    let s1 := (s.setSt n .tripped).onStn n (fun u =>
      { u with
        trips := [], tripDue := false, tripAt := if within then some u.count else none, start := {}, stopReq := false,
        olvBack := false })
    let s2 := s1.onStn n (fun v => { v with tripHigh := u.enHigh })
    let s3 := ((s2.setReg (GFM_TRIP_CAUSE n) w).dropGates n).calmLimits n
    (s3.logEvent 3 n 0 w.toNat).chestEvent 5 n (some 4)

/-- A trip whose state change falls in the same period: causes of R122, and lost current feedback (R121, R159). Lowboy
removes the enables, and the removal follows the station. -/
def State.tripNow (s : State) (n code : Nat) : State :=
  if (s.stnOf n).st == .disabled then s
  else ((s.onStn n (fun u => { u with trips := code :: u.trips })).lowboyFollow n).enterTripped n (s.pwmOf n).run

/-- A trip whose state change waits for the next boundary, or comes at once while the timebase is stopped (R190, R489). In
the trip period of another cause it only counts. -/
def State.tripSoon (s : State) (n code : Nat) : State :=
  let u := s.stnOf n
  if u.st == .disabled then s
  else if u.tripHere then s.addCauses n [code]
  else
    let s1 := s.onStn n (fun u => { u with trips := code :: u.trips, tripDue := true })
    if (s.pwmOf n).run then s1 else s1.enterTripped n false

/-! ### Held removals (R339, R340, R348) -/

/-- The stations a safe output serves, as the bits of its OTP map. -/
def State.soutMap (s : State) (k n : Nat) : Bool := s.fldBit (SAF_SOUT_MAP_STN k) n

/-- Two outputs share a mapped station. -/
def State.soutShare (s : State) (j k : Nat) : Bool := (List.range 4).any (fun n => s.soutMap j n && s.soutMap k n)

/-- A test of an output that shares a station with output `k` runs (R346). -/
def State.testShared (s : State) (k : Nat) : Bool :=
  (List.range 8).any (fun j => j != k && (s.soutOf j).testing && s.soutShare j k)

/-- A station of the output's map is RELEASING. -/
def State.releasingOn (s : State) (k : Nat) : Bool := (List.range 4).any (fun n => s.soutMap k n && (s.safeOf n).releasing)

/-- A test of an output falls due. One that must wait for another test is deferred; one that meets a release is left to the
test that follows the release by 50 ms (R346, R348). -/
def State.testDue (s : State) (k : Nat) : State :=
  let o := s.soutOf k
  if !s.safe.settleRuns || !o.level || o.fault || o.testing then s
  else if s.releasingOn k then s.onSout k (fun o => { o with deferred := false })
  else if s.testShared k then s.onSout k (fun o => { o with deferred := true })
  else s.onSout k (fun o => { o with testing := true, level := false, deferred := false })

/-- Deferred tests that may run now start, lowest output first. -/
def State.runDeferred (s : State) : State := s.forAll 8 (fun k t => if (t.soutOf k).deferred then t.testDue k else t)

/-- Drive the safe outputs of a station low; a test pulse in progress on one is aborted, and one that waited for it may run
(R340, R346, R348). -/
def State.soutsLow (s : State) (n : Nat) : State :=
  (s.forAll 8 (fun k t =>
    if t.soutMap k n then
      let o := t.soutOf k
      let t1 := t.onSout k (fun o => { o with level := false, testing := false, deferred := false })
      if o.testing then (t1.count SAF_CNT0_TEST_ABORT_CNT).setFlag SAF_FLAGS_TEST_ABORTED else t1
    else t)).runDeferred

/-- A step of a release fails: the removals of the stations released together stay held (R358). -/
def State.failRelease (s : State) (set : List Nat) : State :=
  (set.foldl (fun t n => (t.onSafe n (fun f => { f with releasing := false, party := [] })).soutsLow n) s).setFlag
    SAF_FLAGS_RELEASE_REFUSED

/-- A held removal of a station with its cause code: Lowboy removes the permit, Settle drives the outputs low, the
station trips with cause SAFETY (R339, R121). The first cause stays recorded. A release in progress is refused (R363). -/
def State.holdStation (s0 : State) (n cause : Nat) : State :=
  let s := if (s0.safeOf n).releasing then s0.failRelease (s0.safeOf n).party else s0
  let was := (s.safeOf n).held
  let s1 := s.onSafe n (fun f => { f with held := true, stop := false, demanded := false })
  let s2 := if was then s1 else s1.setFld (SAF_STN_CAUSE n) cause
  ((s2.dropGates n).soutsLow n).tripSoon n 1

/-- A held removal of every station. -/
def State.holdAll (s : State) (cause : Nat) : State := s.forAll 4 (fun n t => t.holdStation n cause)

end Sys2Proof.Machine
end

