-- ==== Sys2Proof/Machine/FwParams.lean ====
section
/-! DEFINITION. The firmware parameters outside GFM_PAR: host interfaces (R382), time (R313), sensor scaling (R223, R224),
rings and battery envelope (R258). -/

namespace Sys2Proof.Machine

/-- One row of a firmware parameter table. -/
structure FwParam where
  /-- U32 rather than FP32 (R380). -/
  u32 : Bool
  lo : Rat
  hi : Rat
  res : Rat
  dflt : Rat
  zeroOk : Bool := false
  ro : Bool := false
  idle : Bool := false
  deriving DecidableEq, Repr

def hostParam (lo hi dflt : Nat) : FwParam := { u32 := true, lo := (lo : Rat), hi := (hi : Rat), res := 1, dflt := (dflt : Rat) }
def timeParam (lo hi dflt : Nat) : FwParam := { u32 := false, lo := (lo : Rat), hi := (hi : Rat), res := 1, dflt := (dflt : Rat) }
def battParam (lo hi res dflt : Rat) : FwParam := { u32 := false, lo := lo, hi := hi, res := res, dflt := dflt, idle := true }

/-- Rows of R382. -/
def hostDesc (p : Nat) : Option FwParam :=
  if p < 0x1008 then
    match p % 4 with
    | 1 => some (hostParam 0 0xFFFFFFFF 0xFFFFFF00)
    | 3 => some (hostParam 0 3 0)
    | _ => some (hostParam 0 0xFFFFFFFF 0)
  else if p = 0x1010 then some (hostParam 1024 65535 4848)
  else if p = 0x1011 ∨ p = 0x1012 then some (hostParam 0 1 0)
  else if 0x1020 ≤ p ∧ p < 0x1030 then
    match p % 4 with
    | 0 => some (hostParam 0 0x1FFFFF80 0x04848000)
    | 1 => some (hostParam 125000 1000000 500000)
    | 2 => some { hostParam 1000000 5000000 2000000 with zeroOk := true }
    | _ => some (hostParam 0 1 0)
  else if p = 0x1030 then some (hostParam 0x08 0x77 0x48)
  else none

/-- Rows of R313. -/
def timeDesc (p : Nat) : Option FwParam :=
  match p - 0x1800 with
  | 0 => some (timeParam 1 10000000 1000)
  | 1 => some (timeParam 0 500 100)
  | 2 => some (timeParam 0 2 1)
  | 3 => some (timeParam 0 2 0)
  | 4 => some (timeParam 0 127 0)
  | 5 => some (timeParam 1 1000 100)
  | 6 => some (timeParam 0 1000000 0)
  | 8 => some { timeParam 0 5 1 with ro := true }
  | 9 => some { timeParam 0 0 0 with ro := true }
  | 10 => some { timeParam 0 0 0 with ro := true }
  | _ => none

/-- Rows of R223. -/
def scaleDesc (p : Nat) : Option FwParam :=
  if p < 0x30A8 then
    some { u32 := false, lo := 1 / 1000, hi := 1000000, res := 0, dflt := 0, zeroOk := true, idle := true }
  else if 0x30B8 ≤ p ∧ p ≤ 0x30BA then some { hostParam 0 0xFFFFFFFF 0 with ro := true }
  else none

/-- Rows of R258. -/
def battDesc (k : Nat) : Option FwParam :=
  match k with
  | 0 => some (battParam 0 4 (1 / 100) 0)
  | 1 => some (battParam 0 4 (1 / 100) 0)
  | 2 => some (battParam 0 (13 / 2) (1 / 1000) (17 / 5))
  | 3 => some (battParam 0 (13 / 2) (1 / 1000) 3)
  | 4 => some (battParam 0 (13 / 2) (1 / 1000) 4)
  | 5 => some (battParam 0 (13 / 2) (1 / 1000) (21 / 5))
  | 6 => some (battParam (-40) 120 (1 / 10) 45)
  | 7 => some (battParam (-40) 120 (1 / 10) 60)
  | 8 => some (battParam (-40) 120 (1 / 10) 10)
  | 9 => some (battParam (-40) 120 (1 / 10) (-10))
  | 10 => some (battParam 0 600 (1 / 10) 30)
  | 11 => some (battParam 50 2000 1 300)
  | 12 => some (battParam 0 81920 1 0)
  | _ => none

/-- The row of a parameter number outside the stations' tables; none where no table lists it (R379). -/
def fwDesc (p : Nat) : Option FwParam :=
  if p < 0x1000 then none
  else if p < 0x1100 then hostDesc p
  else if p < 0x1800 then none
  else if p < 0x1900 then timeDesc p
  else if p < 0x3000 then none
  else if p < 0x3100 then scaleDesc p
  else if 0x3800 ≤ p ∧ p < 0x3840 then some (battParam 0 4 1 4)
  else if 0x3900 ≤ p ∧ p < 0x3940 then battDesc (p % 16)
  else none

def fwEncode (d : FwParam) (x : Rat) : Word := if d.u32 then BitVec.ofNat 32 (floorRat x).toNat else f32OfRat x

/-- A parameter's word before anything has written it. -/
def fwDefault (p : Nat) : Word := match fwDesc p with | some d => fwEncode d d.dflt | none => 0

def State.fwReg (s : State) (p : Nat) : Word := tget fwDefault s.fw p

def State.setFw (s : State) (p : Nat) (w : Word) : State := { s with fw := tset fwDefault s.fw p w }

/-- An FP32 parameter as a number. -/
def State.fwRat (s : State) (p : Nat) : Rat := f32ToRat (s.fwReg p)

/-- Ones from the top down to some bit, zeros below (R382, ETH_MASK). -/
def contiguousMask (w : Word) : Bool := (List.range 33).any (fun k => w.toNat == 2 ^ 32 - 2 ^ k) || w == 0

/-- The word a write stores, or none where R64 or the row's range refuses it. -/
def fwCheck (p : Nat) (d : FwParam) (w : Word) : Option Word :=
  if d.u32 then
    let x : Rat := (w.toNat : Rat)
    let ok := (decide (d.lo ≤ x) && decide (x ≤ d.hi)) || (d.zeroOk && w == 0)
    let mask := !((p = 0x1001 || p = 0x1005) && !contiguousMask w)
    let base := !(decide (0x1020 ≤ p ∧ p < 0x1030) && p % 4 == 0 && w.toNat % 128 != 0)
    if ok && mask && base then some w else none
  else if !f32Finite w then none
  else
    let x0 := f32ToRat w
    let x : Rat := if d.res = 0 then x0 else (roundAway (x0 / d.res) : Rat) * d.res
    if (decide (d.lo ≤ x) && decide (x ≤ d.hi)) || (d.zeroOk && decide (x = 0)) then some (f32OfRat x) else none

/-- The other half of a full and zero pair of R258: equal values are refused. -/
def battPair (p : Nat) : Option Nat :=
  let k := p % 16
  if 0x3900 ≤ p ∧ p < 0x3940 ∧ 2 ≤ k ∧ k ≤ 9 then some (if k % 2 = 0 then p + 1 else p - 1) else none

/-! ### Limit codes (R224) -/

/-- The largest number below 2^18 whose square is not above `q`. -/
def rootFloor (q : Rat) : Nat :=
  (List.range 18).foldr (fun i a => if (((a + 2 ^ i) * (a + 2 ^ i) : Nat) : Rat) ≤ q then a + 2 ^ i else a) 0

/-- The square root of `q`, rounded to the nearest integer; from 2^17 on it stays there. -/
def rootRound (q : Rat) : Nat := (rootFloor (4 * q) + 1) / 2

/-- 3.5 × I_PK at a full scale, in steps of a scale of `half` codes a side: I_PK = √(2/3) × S_BASE / V_BASE of R47, rounded on
its square. -/
def State.limSteps (s : State) (n : Nat) (fs : Rat) (half : Nat) : Nat :=
  let x := 7 / 2 * 1000 * s.par n 0 / s.par n 1 / fs * (half : Rat)
  rootRound (2 / 3 * (x * x))

def State.setClip (s : State) (p i : Nat) (b : Bool) : State := s.setFw p (putBit (s.fwReg p) i b)

/-- Whether a watcher has a scale and a rated station. -/
def State.limRated (s : State) (n : Nat) (fs : Rat) : Bool :=
  fs != 0 && s.par n 0 != 0 && s.par n 1 != 0

/-- Codes of comparator `c` of station `n`. -/
def State.cmpCodes (s : State) (n c : Nat) : State :=
  let fs := s.fwRat (0x3090 + 6 * n + c)
  if s.limRated n fs then
    let k := s.limSteps n fs 2048
    ((s.setReg (GATE_WCMP_LIM n c) 0).setFld (GATE_WCMP_LIM_HI n c) (min (2048 + k) 4095)
      |>.setFld (GATE_WCMP_LIM_LO n c) (2048 - k)).setClip 0x30B8 (6 * n + c) (decide (2047 < k))
  else (s.setReg (GATE_WCMP_LIM n c) 0).setClip 0x30B8 (6 * n + c) false

/-- Codes of the short filter of channel `c`, rated by the station of its half-bridge. -/
def State.sfCodes (s : State) (c : Nat) : State :=
  let n := s.fld (SDM_SF_CFG_STATION c)
  let fs := s.fwRat (0x3060 + c)
  let clip (t : State) (b : Bool) : State := if c < 32 then t.setClip 0x30B9 c b else t.setClip 0x30BA (c - 32) b
  if s.limRated n fs then
    let k := s.limSteps n fs 32768
    clip (((s.setReg (SDM_SF_LIM c) 0).setFld (SDM_SF_LIM_HI c) (min k 32767)).setFld (SDM_SF_LIM_LO c)
      (unsignedOf 16 (-(min k 32768 : Nat)))) (decide (32767 < k))
  else clip (s.setReg (SDM_SF_LIM c) 0) false

/-- Every limit code of a station, after a change of its base ratings. -/
def State.limitCodes (s : State) (n : Nat) : State :=
  let s1 := s.forAll 6 (fun c t => t.cmpCodes n c)
  s1.forAll 48 (fun c t => if t.fld (SDM_SF_CFG_STATION c) = n then t.sfCodes c else t)

end Sys2Proof.Machine
end

