-- ==== Sys2Proof/Machine/Mbx.lean ====
section
/-! DEFINITION. Messages, pigeonholes, sessions, jobs and the transports of Eznel (14_eznel_host.md). -/

namespace Sys2Proof.Machine

/-! ### Messages (R364, R365) -/

/-- A message: the header with its CRC over bytes 0 to 11 and the payload. -/
def message (op seq flags auth status : Nat) (payload : List Byte) : List Byte :=
  let h := leBytesN 2 op ++ leBytesN 2 seq ++ leBytesN 2 payload.length ++ leBytesN 2 flags ++
    [BitVec.ofNat 8 auth, BitVec.ofNat 8 status, 0, 0]
  h ++ leBytes (crc32c (h ++ payload)) ++ payload

/-- A little-endian field of a list of bytes. -/
def fieldAt (l : List Byte) (o n : Nat) : Nat := leNat ((l.drop o).take n)

/-- A field of the header in slot `i`. -/
def State.hdr (s : State) (i o n : Nat) : Nat := leNat (s.holeBytes (1024 * i + o) n)

def State.hdrOp (s : State) (i : Nat) : Nat := s.hdr i 0 2
def State.hdrSeq (s : State) (i : Nat) : Nat := s.hdr i 2 2
def State.hdrLen (s : State) (i : Nat) : Nat := s.hdr i 4 2
def State.hdrFlags (s : State) (i : Nat) : Nat := s.hdr i 6 2
def State.hdrAuth (s : State) (i : Nat) : Nat := s.hdr i 8 1
def State.hdrCrc (s : State) (i : Nat) : Nat := s.hdr i 12 4

/-- The payload of slot `i`. -/
def State.payload (s : State) (i : Nat) : List Byte := s.holeBytes (1024 * i + 16) (s.hdrLen i)

/-- An open byte or half-word by the reading counter. -/
def State.openNat (s : State) : Nat := (Config.freeWord s.draws).toNat

/-! ### Sending and responses (R369, R386 to R388) -/

/-- Bytes leave on an interface other than SPI. -/
def State.send (s : State) (p : Peer) (bs : List Byte) : State := s.onMbx (fun m => { m with sentTo := some p, sent := bs })

/-- Take a slot out of every list and make it FREE. -/
def State.freeSlot (s : State) (i : Nat) : State :=
  (s.onSlot i (fun _ => {})).onMbx (fun m =>
    { m with order := m.order.filter (fun j => j != i), started := m.started.filter (fun j => j != i) })

/-- Keep a response for repeats: the last 32 (R386). -/
def State.keep (s : State) (p : Peer) (seq crc : Nat) (reply : List Byte) : State :=
  s.onMbx (fun m => { m with kept := (⟨p, seq, crc, reply, s.now⟩ :: m.kept).take 32 })

/-- The response of slot `i` overwrites the request and goes to its peer. -/
def State.reply (s : State) (i : Nat) (msg : List Byte) : State :=
  let x := s.slotOf i
  let s1 := s.setHoles (1024 * i) msg
  let stop (t : State) : State := t.onMbx (fun m => { m with started := m.started.filter (fun j => j != i) })
  match x.peer with
  | .spi => (stop (s1.onSlot i (fun x => { x with st := 3, running := false, units := [] }))).setFldBit MBX_DONE_DONE i true
  | .i2c =>
    if s.mbx.i2cSlot = some i then
      (stop (s1.onSlot i (fun x => { x with st := 3, running := false, units := [] }))).onMbx (fun m =>
        { m with i2cState := 2, i2cReply := msg })
    else s1.freeSlot i
  | p => (((s1.freeSlot i).keep p (s.hdrSeq i) (s.hdrCrc i) msg).send p msg)

/-- A response with status OK; `flags` is 1, or 3 for a job (R372). -/
def State.respond (s : State) (i flags : Nat) (payload : List Byte) : State :=
  s.reply i (message (s.hdrOp i) (s.hdrSeq i) flags (s.hdrAuth i) 0 payload)

def State.answer (s : State) (i : Nat) (payload : List Byte) : State := s.respond i 1 payload

/-- A response with another status, its DETAIL and ARG (R365). -/
def State.refuse (s : State) (i status detail arg : Nat) : State :=
  s.reply i (message (s.hdrOp i) (s.hdrSeq i) 1 (s.hdrAuth i) status (leBytesN 2 detail ++ leBytesN 2 arg))

/-- A status for which R365 and the command's chapter name no DETAIL: DETAIL is an open value (log row 30). -/
def State.refuseArg (s : State) (i status arg : Nat) : State := s.draw.refuse i status s.openNat arg

/-- A status with neither DETAIL nor ARG named: both are open (log row 30). -/
def State.refuseOpen (s : State) (i status : Nat) : State := s.draw.refuse i status s.openNat (s.openNat / 65536)

/-- A request refused before it ran at a level: the AUTHORITY byte of the response is open (log row 30). -/
def State.refuseHeader (s : State) (i status detail arg : Nat) : State :=
  s.draw.reply i (message (s.hdrOp i) (s.hdrSeq i) 1 (s.openNat % 256) status (leBytesN 2 detail ++ leBytesN 2 arg))

/-! ### Pigeonholes (R367 to R369) -/

/-- The lowest FREE slot. -/
def State.freeHole (s : State) : Option Nat := (List.range 32).find? (fun i => (s.slotOf i).st == 0)

/-- A post refused for lack of a slot. -/
def State.noSlot (s : State) : State := (s.count MBX_CNT0_NO_SLOT_CNT).setFlag MBX_FLAGS_NO_SLOT

/-- A read of MBX_CLAIM. -/
def State.claim (s : State) : State :=
  match s.freeHole with
  | some i => { s.onSlot i (fun _ => { st := 1 }) with readData := BitVec.ofNat 32 (2 ^ 31 + i) }
  | none => { s.noSlot with readData := 0 }

/-- Whether slot `i` is CLAIMED for SPI: the only time its bytes can be written from outside. -/
def State.claimed (s : State) (i : Nat) : Bool := (s.slotOf i).st == 1 && (s.slotOf i).peer == .spi

/-- Slot `i` becomes POSTED and waits its turn. -/
def State.post (s : State) (i : Nat) (p : Peer) (got : Nat) : State :=
  (s.onSlot i (fun _ => { st := 2, peer := p, got := got })).onMbx (fun m => { m with order := m.order ++ [i] })

/-- A write of MBX_DOORBELL. -/
def State.doorbell (s : State) (i : Nat) : State :=
  if s.claimed i then s.post i .spi 1024 else s.setFlag MBX_FLAGS_DOORBELL_REFUSED

/-- A write of MBX_FREE: DONE slots become FREE and their MBX_DONE bits clear. A slot that holds an I²C response is freed
by that transport alone. -/
def State.freeHoles (s : State) (w : Word) : State :=
  s.forAll 32 (fun i t =>
    if bit w i && (t.slotOf i).st == 3 && (t.slotOf i).peer == .spi then (t.freeSlot i).setFldBit MBX_DONE_DONE i false
    else t)

/-- MBX_CLAIM_READ (R367). -/
def execMbxClaimRead (s : State) : Answer := whenDev s s.claim

/-- MBX_DOORBELL_WRITE (R367). -/
def execMbxDoorbellWrite (i : Fin 32) (s : State) : Answer := whenDev s (s.doorbell i)

/-- MBX_FREE_WRITE (R367). -/
def execMbxFreeWrite (w : Word) (s : State) : Answer := whenDev s (s.freeHoles w)

/-- CLAIM_EXPIRY: 1 s after the claim (R368). -/
def execClaimExpiry (i : Fin 32) (s : State) : Answer :=
  whenDev s (if s.claimed i then ((s.freeSlot i).setFlag MBX_FLAGS_CLAIM_EXPIRED).count MBX_CNT1_CLAIM_EXP_CNT else s)

/-! ### Sessions (R374, R375) -/

def State.sessionOf (s : State) (p : Peer) : Option Session := s.mbx.sessions.find? (fun x => x.peer == p)

/-- Default level of a transport, from OTP_AUTH_DEF. -/
def State.defaultLevel (s : State) : Peer → Nat
  | .spi => s.fld OTP_AUTH_DEF_SPI
  | .i2c => s.fld OTP_AUTH_DEF_I2C
  | .can _ _ => s.fld OTP_AUTH_DEF_CAN
  | .udp _ _ _ _ => s.fld OTP_AUTH_DEF_ETH

def State.levelOf (s : State) (p : Peer) : Nat :=
  match s.sessionOf p with | some x => x.level | none => s.defaultLevel p

/-- A peer's session, started at the default level of its transport where it has none. -/
def State.onSession (s : State) (p : Peer) (f : Session → Session) : State :=
  let x : Session := match s.sessionOf p with | some x => x | none => { peer := p, level := s.defaultLevel p }
  s.onMbx (fun m => { m with sessions := f x :: m.sessions.filter (fun y => y.peer != p) })

/-- Sessions end: the next request of the peer starts one at the default level. -/
def State.endSessions (s : State) (f : Peer → Bool) : State :=
  s.onMbx (fun m => { m with sessions := m.sessions.filter (fun x => !f x.peer) })

/-- SESSION_TIMEOUT: 900 s without a request from the peer (R375). -/
def execSessionTimeout (p : Peer) (s : State) : Answer := whenFw s (s.endSessions (fun x => x == p))

def onMac (e : Nat) : Peer → Bool
  | .udp m _ _ _ => m == e
  | _ => false

/-- ETH_LINK_CHANGE: at the loss of a link its sessions fall back (R375, R385). -/
def execEthLinkChange (e : Fin 2) (up : Bool) (s : State) : Answer :=
  whenFw s (
    let b := BitVec.ofNat 2 (2 ^ e.val)
    if up then s.onMbx (fun m => { m with links := m.links ||| b })
    else (s.onMbx (fun m => { m with links := m.links &&& ~~~b })).endSessions (onMac e))

/-! ### The command table and the start of a command (R366, R370, R374, R377, R396) -/

/-- Level of an opcode of R377; a command whose level depends on its payload has the lowest here. -/
def opLevel (op : Nat) : Option Nat :=
  match op with
  | 0x0001 | 0x0002 | 0x0010 | 0x0011 | 0x0020 | 0x0021 | 0x0031 => some 0
  | 0x0030 => some 2
  | 0x0100 | 0x0102 => some 0
  | 0x0101 => some 1
  | 0x0200 | 0x0201 | 0x0202 => some 0
  | 0x0300 | 0x0301 | 0x0302 | 0x0303 => some 2
  | 0x0400 | 0x0401 => some 3
  | 0x0500 | 0x0502 => some 2
  | 0x0501 => some 0
  | 0x0600 | 0x0601 => some 3
  | 0x0602 => some 0
  | 0x0700 | 0x0701 | 0x0702 | 0x0710 | 0x0711 => some 3
  | 0x0720 | 0x0721 => some 0
  | 0x0800 | 0x0801 => some 2
  | 0x0B00 | 0x0B01 => some 3
  | _ => none

/-- The ROM monitor's opcodes (R396): DEV_INFO, ECHO, STAGE_WRITE, FW_STAGE, FW_ACTIVATE, ATTEST and CERT_READ. -/
def monitorOp (op : Nat) : Bool := [0x0001, 0x0002, 0x0030, 0x0710, 0x0711, 0x0720, 0x0721].contains op

def State.monitor (s : State) : Bool := s.flag SEC_BOOT_MONITOR

/-- LENGTH against 1,008 and against the bytes received; a pigeonhole posted over SPI is whole. -/
def State.lengthOk (s : State) (i : Nat) : Bool :=
  decide (s.hdrLen i ≤ 1008) && ((s.slotOf i).peer == .spi || (s.slotOf i).got == 16 + s.hdrLen i)

/-- The CRC of a request over the header and the payload its LENGTH gives, up to the end of the slot. -/
def State.crcOk (s : State) (i : Nat) : Bool :=
  (crc32c (s.holeBytes (1024 * i) 12 ++ s.holeBytes (1024 * i + 16) (min (s.hdrLen i) 1008))).toNat == s.hdrCrc i

/-- The checks of R366 before the command's own; the answer is the status, DETAIL and ARG of the first failure. -/
def State.headerCheck (s : State) (i : Nat) : Option (Nat × Nat × Nat) :=
  if !s.crcOk i then some (0x06, 0x0001, 0)
  else if !s.lengthOk i then some (0x06, 0x0002, s.hdrLen i)
  else if s.hdrFlags i / 2 != 0 then some (0x06, 0x0004, 0)
  else if s.monitor then
    if monitorOp (s.hdrOp i) then none else some (0x07, s.openNat, s.openNat / 65536)
  else
    match opLevel (s.hdrOp i) with
    | none => some (0x06, 0x0003, 0)
    | some need =>
      if s.levelOf (s.slotOf i).peer < s.hdrAuth i then some (0x04, 0x0008, s.hdrAuth i)
      else if s.hdrAuth i < need then some (0x04, 0x0008, need) else none

/-- COMMAND_START: the oldest waiting slot starts when fewer than eight commands execute. `units` are those that the
payload names (R370). -/
def execCommandStart (units : List EzUnit) (s : State) : Answer :=
  whenFw s (
    match s.mbx.order with
    | [] => s
    | i :: rest =>
      if 8 ≤ s.mbx.started.length then s
      else
        let s1 := (s.onMbx (fun m => { m with order := rest })).onSession (s.slotOf i).peer id
        match s1.headerCheck i with
        | some (st, d, a) => s1.refuseHeader i st d a
        | none =>
          let sel := (List.range 64).any (fun g => units.contains (.gainSlot g) && s.slotBusy g)
          (s1.onSlot i (fun x => { x with running := true, units := units, selected := sel })).onMbx (fun m =>
            { m with started := m.started ++ [i] }))

/-- Whether slot `i` executes opcode `op`, and no command that started before it acts on one of its units. -/
def State.executes (s : State) (i op : Nat) : Bool :=
  let x := s.slotOf i
  let before := s.mbx.started.takeWhile (fun j => j != i)
  x.st == 2 && x.running && s.hdrOp i == op &&
    before.all (fun j => (s.slotOf j).units.all (fun u => !x.units.contains u))

/-- A command reaches its point of effect: it runs, or finds a unit held by a job. -/
def State.jobHolds (s : State) (l : List EzUnit) : Bool :=
  (List.range 4).any (fun j => (s.jobOf j).held && (s.jobOf j).st == 0 && (s.jobOf j).units.any (fun u => l.contains u))

/-- A command whose check of an expected reply keeps the slot from executing twice: the meaning of every Eznel row. -/
def ezCommand (s : State) (i op : Nat) (f : State) : Answer :=
  whenFw s (
    if !s.executes i op then s
    else if s.jobHolds (s.slotOf i).units then s.refuseOpen i 0x01
    else f)

/-- COMMAND_TIMEOUT: 100 ms after its start a command returns TIMEOUT (R371). -/
def execCommandTimeout (i : Fin 32) (s : State) : Answer :=
  whenFw s (
    if (s.slotOf i).st == 2 && (s.slotOf i).running then
      (s.forAll 64 (fun q t => if (t.portOf q).cmdSlot = some i.val then t.onPort q (fun p => { p with cmdSlot := none }) else t)).refuseOpen
        i 0x08
    else s)

/-! ### Jobs (R372, R373) -/

/-- The handle of job `j`: number in bits 1:0, generation above. -/
def State.handleOf (s : State) (j : Nat) : Nat := j + (s.jobOf j).gen % 2 ^ 14 * 4

/-- Whether fewer than four jobs are held. -/
def State.freeJob (s : State) : Option Nat := (List.range 4).find? (fun j => !(s.jobOf j).held)

/-- A job refused at the bound. -/
def State.jobLimit (s : State) (i : Nat) : State :=
  ((s.count MBX_CNT0_JOB_LIMIT_CNT).setFlag MBX_FLAGS_JOB_LIMIT).refuseOpen i 0x03

/-- Start a job for the command in slot `i` and return its handle. -/
def State.startJob (s : State) (i : Nat) (k : JobKind) (units : List EzUnit) : State :=
  match s.freeJob with
  | none => s.jobLimit i
  | some j =>
    let s1 := s.onJob j (fun x => { held := true, gen := (x.gen + 1) % 2 ^ 14, kind := k, units := units })
    s1.respond i 3 (leBytesN 4 (s1.handleOf j))

/-- A job ends: 1 done, 2 failed, 3 cancelled, with its final status. -/
def State.endJob (s : State) (j st status : Nat) : State :=
  (s.onJob j (fun x => { x with st := st, status := status, ended := true })).setFldBit MBX_JOB_DONE_JOB_DONE j true

/-- Whether a job runs. -/
def State.jobRuns (s : State) (j : Nat) : Bool := (s.jobOf j).held && (s.jobOf j).st == 0

/-- Whether a job of this kind may not be cancelled (R377). -/
def jobFixed : JobKind → Bool
  | .reload _ => true
  | _ => false

/-- JOB_END: a job that a cancel has stopped reaches its safe point (R372, R373). A job whose work is done ends at that
work's own last step, and one with its status settled here. The status of a cancelled job is open (log row 30). -/
def execJobEnd (j : Fin 4) (s : State) : Answer :=
  whenFw s (
    if !s.jobRuns j then s
    else if (s.jobOf j).ended then s.endJob j (if (s.jobOf j).status = 0 then 1 else 2) (s.jobOf j).status
    else if (s.jobOf j).cancel then s.draw.endJob j 3 (s.openNat % 256)
    else s)

/-- JOB_HOLD_EXPIRY: 60 s after its end a job is held no more (R372). -/
def execJobHoldExpiry (j : Fin 4) (s : State) : Answer :=
  whenFw s (if (s.jobOf j).held && (s.jobOf j).st != 0 then s.onJob j (fun x => { x with held := false }) else s)

/-- The job of a handle, if its number and generation match a held job. -/
def State.jobNamed (s : State) (h : Nat) : Option Nat :=
  let j := h % 4
  if (s.jobOf j).held ∧ h % 2 ^ 16 = s.handleOf j then some j else none

/-- Progress in percent: 100 once ended, an open value while it runs (log row 30). -/
def State.progress (s : State) (j : Nat) : Nat := if (s.jobOf j).st = 0 then s.openNat % 101 else 100

/-- JOB_STATUS: STATE, PROGRESS and final status; reading the end of a job releases it. -/
def execJobStatus (i : Fin 32) (s : State) : Answer :=
  ezCommand s i 0x0020 (
    match s.jobNamed (fieldAt (s.payload i) 0 4) with
    | none => s.refuse i 0x06 0x0006 0
    | some j =>
      let x := s.jobOf j
      let s1 := s.draw.answer i [BitVec.ofNat 8 x.st, BitVec.ofNat 8 (s.progress j), BitVec.ofNat 8 x.status]
      if x.st = 0 then s1 else s1.onJob j (fun x => { x with held := false }))

/-- JOB_CANCEL: the job stops at its next safe point; one that has ended keeps its end (R390). -/
def execJobCancel (i : Fin 32) (s : State) : Answer :=
  ezCommand s i 0x0021 (
    match s.jobNamed (fieldAt (s.payload i) 0 4) with
    | none => s.refuse i 0x06 0x0006 0
    | some j =>
      if jobFixed (s.jobOf j).kind then s.refuseOpen i 0x07
      else (if (s.jobOf j).st = 0 then s.onJob j (fun x => { x with cancel := true }) else s).answer i [])

/-! ### Transports (R385 to R388) -/

/-- A network message takes a slot, or is answered NO_SLOT. -/
def State.arrive (s : State) (p : Peer) (msg : List Byte) (got : Nat) : State :=
  match s.freeHole with
  | some i => (s.setHoles (1024 * i) msg).post i p got
  | none =>
    (s.noSlot.draw).send p (message (fieldAt msg 0 2) (fieldAt msg 2 2) 1 (s.openNat % 256) 0x02
      (leBytesN 4 (Config.freeWord (s.draws + 1)).toNat)) |>.draw

/-- A kept response that answers a repeat: same source, SEQUENCE and CRC within 2 s (R386). -/
def State.keptFor (s : State) (p : Peer) (msg : List Byte) : Option Kept :=
  s.mbx.kept.find? (fun k => k.peer == p && k.seq == fieldAt msg 2 2 && k.crc == fieldAt msg 12 4 &&
    decide (s.now - k.keptAt ≤ usTicks 2000000))

/-- A message dropped without reply. -/
def State.netDrop (s : State) : State := (s.count MBX_CNT1_NET_DROP_CNT).setFlag MBX_FLAGS_NET_DROP

/-- A whole message from a peer: the kept response again, or a request. -/
def State.receive (s : State) (p : Peer) (msg : List Byte) (got : Nat) : State :=
  match s.keptFor p msg with
  | some k => s.send p k.reply
  | none => s.arrive p msg got

/-- The CRC and LENGTH checks on a datagram (R366, R386). -/
def datagramOk (msg : List Byte) : Bool :=
  decide (16 ≤ msg.length) && decide (fieldAt msg 4 2 ≤ 1008) && msg.length == 16 + fieldAt msg 4 2 &&
    (crc32c (msg.take 12 ++ msg.drop 16)).toNat == fieldAt msg 12 4

def State.linkUp (s : State) (e : Nat) : Bool := s.mbx.links.getLsbD e

/-- Whether MAC `e` takes a packet: its link is up, the frame is an untagged one of at most 1,518 bytes, and IPv4 is on for
an IPv4 packet; the ROM monitor answers on IPv6 alone (R382, R385, R396). -/
def State.macTakes (s : State) (e : Nat) (v6 plain : Bool) : Bool :=
  s.linkUp e && plain && (v6 || (s.fwReg (0x1000 + 4 * e) != 0 && !s.monitor))

/-- UDP_DATAGRAM: a datagram to port `dport` of MAC `e` (R386). -/
def execUdpDatagram (e : Fin 2) (v6 plain : Bool) (addr port dport : Nat) (msg : List Byte) (s : State) : Answer :=
  whenFw s (
    if !s.macTakes e v6 plain || (s.fwReg 0x1010).toNat != dport then s
    else if !datagramOk msg then s.netDrop
    else s.receive (.udp e v6 addr port) msg msg.length)

/-- Key of a CAN message in the making: controller and host node. -/
def canKey (c p : Nat) : Nat := 64 * c + p

def State.canRxOf (s : State) (k : Nat) : CanRx := tget (fun _ => {}) s.mbx.canRx k
def State.setCanRx (s : State) (k : Nat) (r : CanRx) : State :=
  s.onMbx (fun m => { m with canRx := tset (fun _ => {}) m.canRx k r })

/-- A message in the making is discarded. -/
def State.canDrop (s : State) (k : Nat) : State := (s.setCanRx k {}).netDrop

/-- The bytes of a complete CAN message: as LENGTH gives, or all of them where fewer came. -/
def canMessage (bs : List Byte) : List Byte := bs.take (16 + fieldAt bs 4 2)

/-- One segment in order: it is appended, and the last one completes the message. -/
def State.canSegment (s : State) (c p : Nat) (bs : List Byte) (last : Bool) (next : Nat) : State :=
  let k := canKey c p
  if 1024 < bs.length ∧ (!last ∨ 1008 < fieldAt bs 4 2) then s.canDrop k
  else if last then (s.setCanRx k {}).receive (.can c p) (canMessage bs) (canMessage bs).length
  else s.setCanRx k { bytes := bs, next := next }

/-- CAN_FD_SEGMENT: an FD frame with a 29-bit identifier on controller `c`; classical frames are ignored (R387). -/
def execCanFdSegment (c : Fin 4) (ident : BitVec 29) (fd : Bool) (data : List Byte) (s : State) : Answer :=
  whenFw s (
    let base := (s.fwReg (0x1020 + 4 * c)).toNat
    let on := s.fwReg (0x1023 + 4 * c) != 0 && s.fwReg (0x1022 + 4 * c) != 0 && !s.monitor
    let d := ident.toNat - base
    if !on || !fd || decide (ident.toNat < base ∨ 128 ≤ d ∨ d % 2 = 1) then s
    else
      match data with
      | [] => s
      | b :: body =>
        let p := d / 2
        let k := canKey c p
        let r := s.canRxOf k
        let no := b.toNat % 64
        let first := b.getLsbD 7
        let last := b.getLsbD 6
        if first then
          let s1 := if r.next = 0 then s else s.canDrop k
          if no = 0 then s1.canSegment c p body last 1 else s1.canDrop k
        else if r.next = 0 then s
        else if no ≠ r.next then s.canDrop k
        else s.canSegment c p (r.bytes ++ body) last (r.next + 1))

/-- CAN_SEGMENT_TIMEOUT: more than 50 ms since the last segment (R387). -/
def execCanSegmentTimeout (c : Fin 4) (p : Fin 64) (s : State) : Answer :=
  whenFw s (if (s.canRxOf (canKey c p)).next = 0 then s else s.canDrop (canKey c p))

/-- The I²C transport lets go of its slot: a response that waits is dropped, a running command answers nobody. -/
def State.i2cDrop (s : State) : State :=
  let s1 := match s.mbx.i2cSlot with
    | some i => if (s.slotOf i).st = 3 then s.freeSlot i else s
    | none => s
  s1.onMbx (fun m => { m with i2cState := 0, i2cSlot := none, i2cReply := [] })

/-- I2C_WRITE_TRANSACTION: one whole request (R388). -/
def execI2cWriteTransaction (bs : List Byte) (s : State) : Answer :=
  whenFw s (
    if s.monitor then s
    else
      let s1 := s.i2cDrop
      if decide (bs.length < 16) || decide (bs.length < 16 + fieldAt bs 4 2) then s1
      else
        match s1.freeHole with
        | some i => ((s1.setHoles (1024 * i) (bs.take 1024)).post i .i2c bs.length).onMbx (fun m =>
            { m with i2cState := 1, i2cSlot := some i })
        | none => s1.noSlot.onMbx (fun m => { m with i2cState := 3 }))

/-- What a read transaction of `n` bytes returns, as far as R388 gives it: the state byte, then 0xFF while pending or the
response while ready. -/
def State.i2cBytes (s : State) (n : Nat) : List Byte :=
  let m := s.mbx
  let tail : List Byte := match m.i2cState with
    | 1 => List.replicate (n - 1) 0xFF
    | 2 => m.i2cReply
    | _ => []
  (BitVec.ofNat 8 m.i2cState :: tail).take n

/-- I2C_READ_TRANSACTION: a response that has been read whole is gone (R388; log row 31). -/
def execI2cReadTransaction (n : Nat) (s : State) : Answer :=
  whenFw s (
    if s.monitor then s
    else
      let s1 := s.send .i2c (s.i2cBytes n)
      if (s.mbx.i2cState = 2 ∧ s.mbx.i2cReply.length < n) ∨ (s.mbx.i2cState = 3 ∧ 0 < n) then s1.i2cDrop else s1)

/-- ICMP_ARP_ND_FRAME: an echo request (0), an ARP request (1) or a neighbour solicitation (2) for the address of MAC `e`
is answered: an echo with its own data, the others with the MAC address (R385). -/
def execIcmpArpNdFrame (e : Fin 2) (kind : Fin 3) (v6 own : Bool) (addr : Nat) (data : List Byte) (s : State) : Answer :=
  whenFw s (
    let six := kind.val == 2 || (kind.val == 0 && v6)
    if own && s.macTakes e six true then
      s.send (.udp e six addr 0) (if kind.val = 0 then data else s.otp.macs.getD e [])
    else s)

/-- MODBUS_CONNECT: at most four connections to port 502; a fifth is reset (R385, R389). -/
def execModbusConnect (s : State) : Answer :=
  whenFw s (if s.fwReg 0x1011 != 0 && !s.monitor && decide (s.mbx.tcp < 4) then s.onMbx (fun m => { m with tcp := m.tcp + 1 })
    else s)

/-- MODBUS_DISCONNECT (R385). -/
def execModbusDisconnect (s : State) : Answer := whenFw s (s.onMbx (fun m => { m with tcp := m.tcp - 1 }))

/-- Everything the management firmware holds of its peers is lost, as at reset (R390, R398). -/
def State.dropMessages (s : State) : State :=
  let s1 : State := { s with mbx := { links := s.mbx.links, sentTo := s.mbx.sentTo, sent := s.mbx.sent } }
  ((s1.setReg MBX_DONE 0).setReg MBX_JOB_DONE 0).forAll 64 (fun q t => t.onPort q (fun p => { p with cmdSlot := none }))

/-- ECHO: the payload unchanged (R377). -/
def execEcho (i : Fin 32) (s : State) : Answer := ezCommand s i 0x0001 (s.answer i (s.payload i))

end Sys2Proof.Machine
end

