-- ==== Sys2Proof/Machine/Link.lean ====
section
/-! DEFINITION. Sending on Sundlink, and the samples of its cross-checks (R454, R455, R464). -/

namespace Sys2Proof.Machine

/-- Sundlink transmits: it is granted, and Settle has been started or the ROM monitor runs (R446). -/
def State.slkOn (s : State) : Bool :=
  s.grantSlk && (s.boot.settleTests || s.safe.settleRuns || s.boot.fw || s.boot.answered)

/-- Port states of R456: 0 UNUSED, 1 TRAINING, 2 UP, 3 MISWIRED. -/
def State.slkUp (s : State) (p : Nat) : Bool := s.fld (SLK_PORT_STATE p) == 2

/-- Put a port into a state; SLK_STATUS.UP follows. -/
def State.setSlkState (s : State) (p st : Nat) : State :=
  (s.setFld (SLK_PORT_STATE p) st).setFldBit SLK_STATUS_UP p (st == 2)

/-- Send a packet on a port. ACK (2) and NAK (3) are not themselves answered; any other packet waits for its ACK. -/
def State.slkSend (s : State) (p typ tag : Nat) (payload : List Byte) : State :=
  let u := s.slkPortOf p
  let k : SlkPacket := ⟨typ, s.fld SYS_POS_POS, s.fld (SLK_PORT_PEER p), u.seq, tag, payload⟩
  s.onSlkPort p (fun u =>
    { u with
      seq := (u.seq + 1) % 256, tx := (k :: u.tx).take 8,
      waits := if typ = 2 ∨ typ = 3 then u.waits else u.waits ++ [⟨k, s.now, 0⟩] })

/-- The port wired to a position. -/
def State.slkPortTo (s : State) (pos : Nat) : Option Nat := (List.range 3).find? (fun p => s.fld (SLK_PORT_PEER p) == pos)

/-- Send to a position whose port is UP. -/
def State.slkSendTo (s : State) (pos typ tag : Nat) (payload : List Byte) : State :=
  match s.slkPortTo pos with
  | some p => if s.slkUp p then s.slkSend p typ tag payload else s
  | none => s

/-! ### Cross-checks (R464) -/

/-- A sample meets its partner, within 2 ticks and from the other side, or waits for it. -/
def State.xchkSample (s : State) (i : Nat) (own : Bool) (tick : Nat) (v : Int) : State :=
  let near (e : XSample) : Bool := e.entry == i && e.own != own && decide (e.tick ≤ tick + 2 ∧ tick ≤ e.tick + 2)
  match s.slk.samples.find? near with
  | some e =>
    let s1 : State := { s with slk := { s.slk with samples := s.slk.samples.erase e } }
    if s.fld (SLK_XCHK_TOL i) < (v - e.value).natAbs then
      (s1.count (SLK_XCHK_CNT_MISMATCH_CNT i)).setFlag SLK_FLAGS_XCHK_MISMATCH
    else s1
  | none => { s with slk := { s.slk with samples := s.slk.samples ++ [⟨i, own, tick, v⟩] } }

/-- Cross-checks run while ALIGN_DONE is 1 and ALIGN_LOST is 0. -/
def State.xchkOn (s : State) (i : Nat) : Bool :=
  s.grantSlk && s.flag SLK_FLAGS_ALIGN_DONE && !s.flag SLK_FLAGS_ALIGN_LOST && s.flag (SLK_XCHK_EN i)

/-- Tick count since the start edge, the time that aligned devices share. -/
def State.sharedTick (s : State) : Nat := s.now - s.slk.startEdge

/-- A result of a SAR source: each enabled entry that names it sends it to its peer. -/
def State.xchkLocal (s : State) (src : Nat) (v : Int) : State :=
  s.forAll 8 (fun i t =>
    if t.xchkOn i && t.fld (SLK_XCHK_LOCAL_SRC i) == src then
      let body := leBytesN 4 i ++ leBytesN 8 t.sharedTick ++ leBytesN 4 (unsignedOf 32 v)
      (t.slkSendTo (t.fld (SLK_XCHK_PEER i)) 0x20 0 body).xchkSample i true t.sharedTick v
    else t)

end Sys2Proof.Machine
end

