-- ==== Sys2Proof/Machine/Operands.lean ====
section
/-! DEFINITION. How a write reaches a register: field by field, each field under its own access and timing class (R11 to
R17). -/

namespace Sys2Proof.Machine

/-- The word a register holds after a write reaches one field; `idle` says whether its block is idle (R16). -/
def applyField (idle : Bool) (wr : Word) (old : Word) (f : FieldDesc) : Word :=
  match f.acc with
  | .ro | .wo | .rc => old
  | .w1c => clearBits old wr f.lo f.w
  | .cnt => clearCount old wr f.lo f.w
  | .rw =>
    match f.cls with
    | .idle => if idle then putBits old f.lo f.w (bits wr f.lo f.w) else old
    | _ => putBits old f.lo f.w (bits wr f.lo f.w)

/-- The word a register holds after a write. -/
def applyWrite (r : RegDesc) (idle : Bool) (wr old : Word) : Word := r.fields.foldl (applyField idle wr) old

/-- Whether a write would change an idle-only field (R16: only then can it be refused). -/
def changesIdle (r : RegDesc) (wr old : Word) : Bool :=
  r.fields.any (fun f => f.acc == .rw && f.cls == .idle && bits wr f.lo f.w != bits old f.lo f.w)

/-- Whether a row has a shadowed field (R15). -/
def hasShadowed (r : RegDesc) : Bool := r.fields.any (fun f => f.cls == .shadowed)

/-- Apply a write to the register file: stored values change, values in force of live and idle-only fields with them.
Refusal of an idle-only change sets the given flag; a write in the transfer cycle sets the late flag (R15, R16). -/
def State.writeReg (s : State) (a : Nat) (wr : Word) (idle late : Bool) (refused lateFlag : Option Fld) : State :=
  match regAt a with
  | none => s
  | some r =>
    let old := s.reg a
    let s1 := s.setReg a (applyWrite r idle wr old)
    let s2 := match refused with
      | some f => if !idle && changesIdle r wr old then s1.setFlag f else s1
      | none => s1
    match lateFlag with
    | some f => if late && hasShadowed r then s2.setFlag f else s2
    | none => s2

/-- Transfer the shadowed fields of a register: the stored value comes into force (R14). -/
def State.transfer (s : State) (a : Nat) : State := s.setAct a (s.reg a)

end Sys2Proof.Machine
end

