-- ==== Sys2Proof/Machine/Vm.lean ====
section
/-! DEFINITION. The blocks of a station's control law (R50 to R60, R83, R89 to R92, R97, R98, R108 to R110, R142 to R146):
each block is one operation on the state, and a loop runs its blocks in order. -/

namespace Sys2Proof.Machine

/-! ### Times of a station -/

/-- Carrier length in ticks for a period word: PRD in up mode, 2 × PRD in up-down mode (R167). -/
def State.carrierLen (s : State) (n prd : Nat) : Nat := if s.flag (PWM_TB_CFG_MODE n) then 2 * prd else prd

/-- Period in force, in ticks of its compare range. -/
def State.prdAct (s : State) (n : Nat) : Nat := (s.actReg (PWM_PRD n)).toNat

/-- Boundaries per carrier period (R168). -/
def State.bpc (s : State) (n : Nat) : Nat := s.fld (PWM_TB_CFG_BPC n) + 1

/-- Ticks of one station period. -/
def State.periodTicks (s : State) (n : Nat) : Nat := s.carrierLen n (s.prdAct n) / s.bpc n

/-- Station period T in seconds, and the voltage and virtual-machine intervals (02_grid_forming_core.md, loop rates). -/
def State.tPer (s : State) (n : Nat) : Rat := (s.periodTicks n : Rat) * tickSec
def State.dtV (s : State) (n : Nat) : Rat := s.par n parN_V * s.tPer n
def State.dtM (s : State) (n : Nat) : Rat := s.par n parN_M * s.dtV n

/-- Executions of an interval that make one fundamental cycle, at least one. -/
def State.cycleLen (s : State) (n : Nat) (dt : Rat) : Nat :=
  let c := s.par n parF_NOM * dt
  if c ≤ 0 then 1 else max 1 (ceilRat (1 / c)).toNat

/-! ### Vectors -/

def vmag (v : Vec2) : Rat := Config.sqrt (v.d * v.d + v.q * v.q)

/-- Turn a vector by an angle in turns. -/
def vturn (v : Vec2) (t : Rat) : Vec2 :=
  ⟨v.d * Config.cosTurn t - v.q * Config.sinTurn t, v.d * Config.sinTurn t + v.q * Config.cosTurn t⟩

def vscale (k : Rat) (v : Vec2) : Vec2 := ⟨k * v.d, k * v.q⟩
def vadd (a b : Vec2) : Vec2 := ⟨a.d + b.d, a.q + b.q⟩
def vsub (a b : Vec2) : Vec2 := ⟨a.d - b.d, a.q - b.q⟩

/-- Magnitude clamp that keeps the angle; answers whether it acts. -/
def vclamp (lim : Rat) (v : Vec2) : Vec2 × Bool :=
  let m := vmag v
  if lim < m then (vscale (lim / m) v, true) else (v, false)

/-- abc to αβ, amplitude-invariant (R47). -/
def clarke (x : Abc) : Vec2 := ⟨(2 * x.a - x.b - x.c) / 3, (x.b - x.c) / Config.sqrt 3⟩

/-- αβ to abc. -/
def unclarke (v : Vec2) : Abc :=
  ⟨v.d, -(v.d / 2) + Config.sqrt 3 / 2 * v.q, -(v.d / 2) - Config.sqrt 3 / 2 * v.q⟩

/-- A first-order low pass of R54 and R83: one forward Euler step of length dt with time constant tau (log row 98). -/
def lowPassStep (x input dt tau : Rat) : Rat := if tau < dt then input else x + dt / tau * (input - x)

/-- The stop factor of R488: from 1 to 0 over T_STOP in STOPPING, 1 elsewhere. -/
def State.stopFactor (s : State) (n : Nat) : Rat :=
  let u := s.stnOf n
  if u.st == .stopping then ratMax 0 (1 - u.stopTime / s.par n parT_STOP) else 1

/-! ### Block 1: envelope scaling (R68 to R72) -/

/-- The OTP envelope of a station (R73). -/
def State.otpEnvelope (s : State) (n : Nat) : Envelope :=
  { pdis := f32ToRat (s.reg (GFM_ENV_OTP_PDIS n)), pchg := f32ToRat (s.reg (GFM_ENV_OTP_PCHG n)),
    eres := f32ToRat (s.reg (GFM_ENV_OTP_ERES n)), seq := 0, otp := true }

/-- The envelope in force: while ENV_FALLBACK is 1, the OTP set as its registers show it (R28, R73). -/
def State.envInForce (s : State) (n : Nat) : Envelope :=
  if (s.stnOf n).env.otp then s.otpEnvelope n else (s.stnOf n).env

/-- Headroom HM of R68 for an envelope and a set-point. -/
def headroom (e : Envelope) (pset : Rat) : Rat := ratMin (ratMax 0 (e.pdis - pset)) (ratMax 0 (e.pchg + pset))

/-- MP_EFF of R69. -/
def mpEffOf (mp fdev hm : Rat) : Rat :=
  if mp = 0 then 0 else if fdev / mp ≤ hm then mp else if hm = 0 then 1 else ratMin 1 (fdev / hm)

/-- The smallest of the three inertia values of R70, before its floor. -/
def hRaw (h eres fdev hm rocof : Rat) : Rat :=
  ratMin h (ratMin (eres / (1 - (1 - fdev) * (1 - fdev))) (hm / (2 * rocof)))

/-- FC_BUDGET of R71 and whether even 1.0 pu breaks a bound. -/
def fcBudgetOf (a b ilim bound : Rat) : Rat × Bool :=
  if bound < a + b then (1, true)
  else if a * ilim + b * (ilim * ilim) ≤ bound then (ilim, false)
  else if b = 0 then (ratClamp 1 ilim (bound / a), false)
  else (ratClamp 1 ilim ((Config.sqrt (a * a + 4 * b * bound) - a) / (2 * b)), false)

/-- In a fault under R72. -/
def Stn.inFault (u : Stn) : Bool :=
  u.st == .limiting || u.st == .rideThrough || ((u.st == .openLoopV || u.st == .stopping) && u.lim.inFault)

/-- A new FC_BUDGET: at once unless it is higher and the station is in a fault (R72, R124). A value taken at once ends the
wait of an earlier one (log row 88). -/
def State.takeBudget (s : State) (n : Nat) (x : Rat) : State :=
  let u := s.stnOf n
  if u.inFault && decide (u.lim.fcBudget < x) then s.onLim n (fun l => { l with fcWait := some x })
  else
    let cut := u.inFault && decide (x < u.lim.fcBudget)
    (s.onLim n (fun l => { l with fcBudget := x, fcWait := none })).setFlagIf cut (GFM_FRT_FLAGS_BUDGET_CUT n)

def State.blkEnvelope (s : State) (n : Nat) : State :=
  let e := s.envInForce n
  let hm := headroom e (s.par n parP_SET)
  let mp := s.par n parMP
  let mpe := mpEffOf mp (s.par n parF_DEV) hm
  let h := s.parDec n parH
  let hr := hRaw h e.eres (s.par n parF_DEV) hm (s.par n parROCOF_DESIGN)
  let he := ratMax (1 / 5) hr
  let ilim := s.par n parI_LIM
  let fc := fcBudgetOf (s.par n parLOSS_A) (s.par n parLOSS_B) ilim (ratMin e.pdis (e.eres / s.par n parT_FC))
  let s1 := s.onCore n (fun c => { c with mpEff := mpe, hEff := he })
  let s2 := s1.setReg (GFM_MP_EFF n) (f32OfRat mpe)
  let s3 := (s2.setFlagIf (decide (mp < mpe)) (GFM_CORE_FLAGS_MP_RAISED n)).setFlagIf (decide (he < h))
    (GFM_CORE_FLAGS_H_REDUCED n)
  let s4 := (s3.setFlagIf (decide (hr < 1 / 5)) (GFM_CORE_FLAGS_H_FLOOR n)).setFlagIf (decide (fc.1 < ilim))
    (GFM_CORE_FLAGS_FC_REDUCED n)
  (s4.setFlagIf fc.2 (GFM_CORE_FLAGS_FC_FLOOR n)).takeBudget n fc.1

/-! ### Block 2: governor (R56, R57) -/

/-- Clamp and slew of R56: the value and whether either acts. -/
def governorLimit (lo hi step old target : Rat) : Rat × Bool :=
  let c := ratClamp lo hi target
  let v := ratClamp (old - step) (old + step) c
  (v, decide (c ≠ target) || decide (v ≠ c))

def State.blkGovernor (s : State) (n : Nat) : State :=
  let u := s.stnOf n
  if u.steered then s else
  let c := u.core
  let sf := s.stopFactor n
  let lo := -(sf * (s.envInForce n).pchg)
  let hi := sf * (s.envInForce n).pdis
  let step := 10 * s.dtM n
  let pset := s.par n parP_SET
  let fset := s.par n parF_SET
  let iso := decide (s.par n parMP = 0)
  let int2 := c.isoInt + (fset - c.omega) * s.dtM n
  let target := if iso then pset + s.par n parKI_ISO * int2 else pset - (c.omega - fset) / c.mpEff
  let r := governorLimit lo hi step c.pGov target
  let s1 := s.onCore n (fun c => { c with pGov := r.1, isoInt := if iso && !r.2 then int2 else c.isoInt })
  if r.2 then (s1.setFlag (GFM_CORE_FLAGS_GOV_CLAMP n)).count (GFM_CORE_CNT0_GOV_CLAMP_CNT n) else s1

/-! ### Block 3: excitation, and the ramps of the starts (R58, R89 to R92, R99) -/

/-- Mean αβ current and largest phase magnitude of the last fundamental cycle. -/
def dcComponent (l : List (Vec2 × Rat)) : Vec2 :=
  if l.length = 0 then ⟨0, 0⟩
  else vscale (1 / (l.length : Rat)) (l.foldl (fun a e => vadd a e.1) ⟨0, 0⟩)

def peakCurrent (l : List (Vec2 × Rat)) : Rat := l.foldl (fun a e => ratMax a e.2) 0

/-- CURRENT_LIMITING of the snapshot: ΔZ > 0 or the reference clamp acting (R110). -/
def Stn.limitingNow (u : Stn) : Bool := decide (0 < u.core.dz) || u.lim.clampActing

/-- The flux bias of R91 from the DC component, and whether its unclamped magnitude reaches 0.02 pu. -/
def fluxBias (kb : Rat) (dc : Vec2) : Vec2 × Bool :=
  let b := vscale (-kb) dc
  let m := vmag b
  if 1 / 50 ≤ m then (vscale (1 / 50 / m) b, true) else (b, false)

/-- E_MAX and E_MIN of R58; where `low` is false the lower clamp does not act (R58, R99). Answers whether E was clamped. -/
def State.clampEmf (s : State) (n : Nat) (low : Bool) (raw : Rat) : Rat × Bool :=
  let e := ratClamp (if low then s.par n parE_MIN else 0) (s.par n parE_MAX) raw
  (e, decide (e ≠ raw))

/-- EMF_CLAMP and its count for an execution in which E was clamped. -/
def State.markEmf (s : State) (n : Nat) (clamped : Bool) : State :=
  if clamped then (s.setFlag (GFM_CORE_FLAGS_EMF_CLAMP n)).count (GFM_CORE_CNT1_EMF_CLAMP_CNT n) else s

/-- The largest step of E in one execution after a start has ended (R92). -/
def State.emfSlew (s : State) (n : Nat) : Rat := 1 / 2 * s.dtM n

/-- A start that is stopped with the enables high has ended: E moves no faster than R92 lets it (log row 89). -/
def State.slewed (s : State) (n : Nat) (old new : Rat) : Rat :=
  if (s.stnOf n).st == .stopping then ratClamp (old - s.emfSlew n) (old + s.emfSlew n) new else new

/-- One virtual-machine execution of a ramp toward a target: hold conditions of R90, bias of R91, E. The phase stays
ENERGISE under a hold in a synchronising start (log row 90). -/
def State.rampStep (s : State) (n : Nat) (target tRamp : Rat) : State :=
  let u := s.stnOf n
  let dc := dcComponent u.start.iLog
  let pk := peakCurrent u.start.iLog
  let dcm := vmag dc
  let inr := s.par n parI_INRUSH
  let idc := s.par n parI_DC
  let bad := decide (inr ≤ pk) || decide (idc ≤ dcm) || u.limitingNow
  let good := decide (pk < 4 / 5 * inr) && decide (dcm < 4 / 5 * idc) && !u.limitingNow
  let hold := if u.start.holding then !good else bad
  let fresh := hold && !u.start.holding
  let fb := fluxBias (s.par n parKB) dc
  let e2 := s.clampEmf n false (s.slewed n u.core.emf (ratMin target (u.core.emf + target * s.dtM n / tRamp)))
  let s1 := s.onStart n (fun x =>
    { x with
      holding := hold, bias := fb.1,
      phase := if x.phase == .ramp || x.phase == .rampHold then (if hold then .rampHold else .ramp) else x.phase })
  let s2 := if hold then s1 else (s1.onCore n (fun c => { c with emf := e2.1 })).markEmf n e2.2
  let s3 := if fresh then (s2.setFlag (GFM_SBS_FLAGS_RAMP_HOLD n)).count (GFM_SBS_CNT1_RAMP_HOLD_CNT n) else s2
  s3.setFlagIf fb.2 (GFM_SBS_FLAGS_BIAS_CLAMP n)

/-- Excitation outside the ramps: R58 with its clamp, and the slew of R92 after a start. -/
def State.exciteStep (s : State) (n : Nat) : State :=
  let u := s.stnOf n
  let c := u.core
  let vset := s.par n parV_SET
  let nq := s.par n parNQ
  let int2 := c.vInt + (vset - vmag c.vdq) * s.dtM n
  let raw := if 0 < nq then vset - nq * (c.qF - s.par n parQ_SET) else vset + s.par n parKI_V * int2
  let e := s.clampEmf n true raw
  let e2 := if u.start.slewing then ratClamp (c.emf - s.emfSlew n) (c.emf + s.emfSlew n) e.1 else e.1
  if u.mode == .openLoopV && decide (nq = 0) then s
  else
    let s1 := s.onCore n (fun c => { c with emf := e2, vInt := if 0 < nq || e.2 then c.vInt else int2 })
    (s1.onStart n (fun x => { x with slewing := x.slewing && decide (e2 ≠ e.1) })).markEmf n e.2

/-- MATCH and WINDOW: E follows |v_bus| with integral gain KI_V, within the clamp of R58 (R99; log row 91). -/
def State.matchStep (s : State) (n : Nat) : State :=
  let u := s.stnOf n
  let e := s.clampEmf n true
    (s.slewed n u.core.emf (u.core.emf + s.par n parKI_V * (u.start.vBusMag - vmag u.core.vdq) * s.dtM n))
  (s.onCore n (fun c => { c with emf := e.1 })).markEmf n e.2

def State.blkExcitation (s : State) (n : Nat) : State :=
  let u := s.stnOf n
  match u.mode with
  | .deadBusStart =>
    match u.start.phase with
    | .ramp | .rampHold =>
      let s1 := s.rampStep n (s.par n parV_SET) (s.par n parT_RAMP)
      let done := decide (s.par n parV_SET ≤ (s1.coreOf n).emf)
      s1.onStart n (fun x => { x with complete := x.complete || done })
    | _ => s
  | .synchronising =>
    match u.start.phase with
    | .energise =>
      let vb := u.start.vBusMag
      let s1 := s.rampStep n vb (s.par n parT_SYNC_RAMP)
      if vb ≤ (s1.coreOf n).emf then s1.onStart n (fun x => { x with phase := .matching }) else s1
    | .matching | .window => s.matchStep n
    | _ => s
  | _ => s.exciteStep n

/-! ### Blocks 4 to 8 -/

/-- Damping filter (R54). -/
def State.blkDamping (s : State) (n : Nat) : State :=
  s.onCore n (fun c => { c with omegaF := lowPassStep c.omegaF c.omega (s.dtM n) (s.par n parT_D) })

/-- The voltage that blocks 5, 12 and 13 read: v* in place of the measured one in OPEN_LOOP_V (R160). -/
def Stn.vUse (u : Stn) : Vec2 := if u.mode == .openLoopV then u.core.vRef else u.core.vdq

/-- Power measurement and its filters (R47, R53, R58). -/
def State.blkPower (s : State) (n : Nat) : State :=
  let u := s.stnOf n
  let v := u.vUse
  let i := u.core.idq
  let p := v.d * i.d + v.q * i.q
  let q := v.q * i.d - v.d * i.q
  let tp := s.par n parT_P
  s.onCore n (fun c =>
    { c with
      p := p, q := q
      pF := if tp = 0 then p else lowPassStep c.pF p (s.dtV n) tp
      qF := lowPassStep c.qF q (s.dtV n) (s.par n parT_Q) })

/-- The synchronising power of R98 and the governor's power elsewhere. -/
def State.drivePower (s : State) (n : Nat) : Rat :=
  let u := s.stnOf n
  if u.steered then
    if u.start.phase == .busGap then 0
    else ratClamp (-1) 1 (s.par n parK_SYNC * (u.start.dTheta * Config.twoPi) +
      s.par n parKD_SYNC * (u.start.wBus - u.core.omega))
  else u.core.pGov

/-- One forward-Euler step of the swing equation (R53). -/
def swingStep (w dt h drive p d wF : Rat) : Rat := w + dt / (2 * h) * (drive - p - d * (w - wF))

/-- Rotor speed with the clamps of R98 and R55. In BUS_GAP the rotor coasts: no bus speed clamps it (R102). -/
def State.blkSpeed (s : State) (n : Nat) : State :=
  let u := s.stnOf n
  let c := u.core
  let w1 := swingStep c.omega (s.dtV n) c.hEff (s.drivePower n) c.pF (s.par n parD) c.omegaF
  let slew := s.par n parSLEW_MAX / (Config.twoPi * s.par n parF_NOM)
  let w2 := if u.steered && u.start.phase != .busGap then ratClamp (u.start.wBus - slew) (u.start.wBus + slew) w1 else w1
  let w3 := ratClamp (s.par n parW_MIN) (s.par n parW_MAX) w2
  let s1 := s.onCore n (fun c => { c with omega := w3 })
  let s2 := if decide (w2 ≠ w1) then (s1.setFlag (GFM_SBS_FLAGS_SLEW_CLAMP n)).count (GFM_SBS_CNT0_SLEW_CLAMP_CNT n)
    else s1
  if decide (w3 ≠ w2) then (s2.setFlag (GFM_CORE_FLAGS_FREQ_CLAMP n)).count (GFM_CORE_CNT0_FREQ_CLAMP_CNT n) else s2

/-- Rotor angle (R52): θ advances by ω × F_NOM × T turns. -/
def State.blkAngle (s : State) (n : Nat) : State :=
  s.onCore n (fun c => { c with theta := fracTurn (c.theta + c.omega * s.par n parF_NOM * s.tPer n) })

/-- abc to dq (block 8), with the cycle log of currents that R90 and R91 read. -/
def State.blkAbcDq (s : State) (n : Nat) (v i : Abc) (vdc : Rat) : State :=
  let th := (s.coreOf n).theta
  let iab := clarke i
  let pk := ratMax (ratAbs i.a) (ratMax (ratAbs i.b) (ratAbs i.c))
  let s1 := s.onCore n (fun c =>
    { c with vdq := vturn (clarke v) (-th), idq := vturn iab (-th), vdc := vdc })
  s1.onStart n (fun x => { x with iLog := ((iab, pk) :: x.iLog).take (s.cycleLen n (s.tPer n)) })

/-! ### Block 9: the ceiling and the phase-kept impedance (R108, R109) -/

/-- The ceiling of R108 from LIM_TIME and FC_BUDGET. -/
def ceilingOf (fc iovl tfc limTime : Rat) : Rat × Bool :=
  if limTime ≤ tfc * 1000 then (fc, false) else (ratMin fc iovl, true)

def State.blkCeiling (s : State) (n : Nat) : State :=
  let u := s.stnOf n
  let r := ceilingOf u.lim.fcBudget (s.par n parI_OVL) (s.par n parT_FC) u.lim.limTime
  (s.onLim n (fun l => { l with iCeil := r.1, ceilAtOvl := r.2 })).setFlagIf (r.2 && !u.lim.ceilAtOvl)
    (GFM_FRT_FLAGS_CEIL_OVL n)

/-- I_START_EFF of R109. -/
def State.iStartEff (s : State) (n : Nat) : Rat := ratMin (s.par n parI_START) ((s.stnOf n).lim.iCeil - 1 / 10)

/-- LIM_TIME counts a period with |i| above I_START_EFF in a state with the enables high other than RUNNING, and clears in
RUNNING (R108, R120). -/
def State.countLimTime (s : State) (n : Nat) : State :=
  let u := s.stnOf n
  let above := u.enHigh && decide (s.iStartEff n < vmag u.core.idq)
  s.onLim n (fun l =>
    { l with limTime := if u.st == .running then 0 else if above then l.limTime + s.tPer n * 1000 else l.limTime })

/-- KVI of R109. -/
def kviOf (e iceil rv xv istart : Rat) : Rat :=
  ratMax 0 (e / iceil - Config.sqrt (rv * rv + xv * xv)) / (iceil - istart)

/-- The next ΔZ of R109 from its target. -/
def dzStep (dz target t rel : Rat) : Rat :=
  if dz ≤ target then target
  else
    let x := dz - t / rel * (dz - target)
    if ratAbs (x - target) < 1 / 1000 then target else x

def State.blkCurLimit (s0 : State) (n : Nat) : State :=
  let s := s0.blkCeiling n
  let u := s.stnOf n
  let c := u.core
  let ist := s.iStartEff n
  let im := vmag c.idq
  let rv := s.par n parRV
  let xv := s.par n parXV
  let target := if ist < im then kviOf c.emf u.lim.iCeil rv xv ist * (im - ist) else 0
  let dz := dzStep c.dz target (s.tPer n) (s.par n parT_VI_REL)
  let xr := s.par n parXR_VI
  let root := Config.sqrt (1 + xr * xr)
  (s.onCore n (fun c => { c with dz := dz, rvEff := rv + dz / root, xvEff := xv + dz * xr / root })).countLimTime n

/-! ### Blocks 10 to 12 -/

/-- Virtual impedance (R59). -/
def State.blkVirtImp (s : State) (n : Nat) : State :=
  s.onCore n (fun c =>
    { c with vRef :=
        ⟨c.emf - c.rvEff * c.idq.d + c.xvEff * c.omega * c.idq.q,
         -(c.rvEff * c.idq.q) - c.xvEff * c.omega * c.idq.d⟩ })

/-- Harmonic channel `ch` (R83, R84). An execution in which any channel's clamp acts counts once. -/
def State.blkHarmonic (s : State) (n ch : Nat) : State :=
  let u := s.stnOf n
  let h := tget (fun _ => {}) u.hch ch
  let put (h : HchState) (t : State) : State :=
    t.onStn n (fun u => { u with hch := tset (fun _ => {}) u.hch ch h })
  if u.st == .running && h.active then
    let order : Rat := (s.fld (GFM_HCH_CFG_ORDER n ch) : Nat)
    let sg : Rat := if s.flag (GFM_HCH_CFG_SEQ n ch) then -1 else 1
    let rot := sg * order * u.core.theta
    let iab := vturn u.core.idq u.core.theta
    let x := vturn iab (-rot)
    let tau := 1 / (Config.twoPi * s.par n (parHch ch 2))
    let fd := lowPassStep h.d x.d (s.dtV n) tau
    let fq := lowPassStep h.q x.q (s.dtV n) tau
    let rh := s.par n (parHch ch 0)
    let xh := s.par n (parHch ch 1)
    let v : Vec2 := ⟨-(rh * fd - xh * fq), -(rh * fq + xh * fd)⟩
    let vc := vclamp (s.par n (parHch ch 3)) v
    let add := vturn (vturn vc.1 rot) (-u.core.theta)
    let s1 := put { h with d := fd, q := fq, ih := vmag ⟨fd, fq⟩, vh := vmag vc.1, addD := add.d, addQ := add.q } s
    let s2 := s1.onCore n (fun c => { c with vRef := vadd c.vRef add })
    if vc.2 then
      let s3 := s2.setFlag (GFM_SBS_FLAGS_HCH_VLIM n)
      if u.per.hchLim then s3 else (s3.count (GFM_SBS_CNT0_HCH_VLIM_CNT n)).onPer n (fun p => { p with hchLim := true })
    else s2
  else put { h with d := 0, q := 0, ih := 0, vh := 0, addD := 0, addQ := 0 } s

/-! ### PI with table gain (R142 to R144) -/

/-- Entry `i` of gain slot `g` of an engine. -/
def State.gainEntry (s : State) (e g i : Nat) : Rat :=
  halfToRat (BitVec.ofNat 16 ((s.dmem e (g * 512 + i / 2)).toNat / 2 ^ (16 * (i % 2))))

/-- Position in a table of 1,024 entries spanning EMIN to EMAX (R144). -/
def gainPos (e emin emax : Rat) : Rat := ratClamp 0 1023 ((e - emin) * 1023 / (emax - emin))

/-- The interpolated gain G(e). -/
def State.gainAt (s : State) (eng g : Nat) (e emin emax : Rat) : Rat :=
  let x := gainPos e emin emax
  let i := min (floorRat x).toNat 1022
  let f := x - (i : Rat)
  s.gainEntry eng g i + f * (s.gainEntry eng g (i + 1) - s.gainEntry eng g i)

/-- The engine that runs the stations' loops. -/
def State.activeEng (s : State) : Nat := s.red.active.val

/-- The gain factor g of loop `k` for an error. -/
def State.loopGain (s : State) (k : Nat) (e : Rat) : Rat :=
  if s.actFld (TRS_LOOP_CFG_GTAB k) = 1 then
    s.gainAt s.activeEng (s.actFld (TRS_LOOP_CFG_GSLOT k)) e (f32ToRat (s.actReg (TRS_LOOP_EMIN k)))
      (f32ToRat (s.actReg (TRS_LOOP_EMAX k)))
  else 1

/-- One axis of the PI law: the output u, the next integral, from gain, KP, KI, error, integral, feed-forward and
limits. The integration step is skipped under R143, or where `hold` says that a downstream clamp acts; the integral is
always within the limits. -/
def piAxis (g kp ki e x ff dt lo hi : Rat) (hold : Bool) : Rat × Rat :=
  let x2 := ratClamp lo hi (x + g * ki * e * dt)
  let u2 := g * kp * e + x2 + ff
  let wind := (decide (hi ≤ u2) && decide (0 < g * ki * e)) || (decide (u2 ≤ lo) && decide (g * ki * e < 0))
  let x3 := if wind || hold then ratClamp lo hi x else x2
  (ratClamp lo hi (g * kp * e + x3 + ff), x3)

/-- Both axes with one gain: the outputs and the integrals. -/
def piPair (g kp ki : Rat) (e x ff : Vec2) (dt lo hi : Rat) (hold : Bool) : Vec2 × Vec2 :=
  let d := piAxis g kp ki e.d x.d ff.d dt lo hi hold
  let q := piAxis g kp ki e.q x.q ff.q dt lo hi hold
  (⟨d.1, q.1⟩, ⟨d.2, q.2⟩)

/-- Loop-local state number `j` of loop `k`. -/
def State.loc (s : State) (n k j : Nat) : Rat := (tget (fun _ => []) (s.stnOf n).lx k).getD j 0
def State.setLoc (s : State) (n k j : Nat) (x : Rat) : State :=
  s.onStn n (fun u =>
    let l := tget (fun _ => []) u.lx k
    let l2 := (l ++ List.replicate (j + 1 - l.length) 0).set j x
    { u with lx := tset (fun _ => []) u.lx k l2 })

/-- The integrals of a dq pair stand in two loop-local states from `j` on: each PI block has its own (R142). -/
def State.loc2 (s : State) (n k j : Nat) : Vec2 := ⟨s.loc n k j, s.loc n k (j + 1)⟩
def State.setLoc2 (s : State) (n k j : Nat) (v : Vec2) : State := (s.setLoc n k j v.d).setLoc n k (j + 1) v.q

/-- A PI pair of loop `k` with its integrals at `j`: the outputs, and the state with the next integrals. -/
def State.runPiPair (s : State) (n k j : Nat) (e ff : Vec2) (dt lo hi : Rat) (hold : Bool) : Vec2 × State :=
  let r := piPair (s.loopGain k (vmag e)) (f32ToRat (s.actReg (TRS_LOOP_KP k))) (f32ToRat (s.actReg (TRS_LOOP_KI k))) e
    (s.loc2 n k j) ff dt lo hi hold
  (r.1, s.setLoc2 n k j r.2)

/-- The reference clamp of R110 and R120 stands at s × I_CEIL (R488). -/
def State.refLimit (s : State) (n : Nat) : Rat := s.stopFactor n * (s.stnOf n).lim.iCeil

/-- Note whether the reference clamp acts: CLAMP_ACTIVE speaks of the whole period, and a period counts once (R110). -/
def State.markClamp (s : State) (n : Nat) (acts : Bool) : State :=
  let was := (s.stnOf n).per.clamped
  let s1 := (s.onLim n (fun l => { l with clampActing := was || acts })).onPer n (fun p => { p with clamped := was || acts })
  if acts then
    let s2 := s1.setFlag (GFM_FRT_FLAGS_REF_CLAMP n)
    if was then s2 else s2.count (GFM_FRT_CNT1_REF_CLAMP_CNT n)
  else s1

/-- The reference clamp acts on the reference of block 12 with the ceiling of this period (R110). -/
def State.refClamp (s : State) (n : Nat) : State :=
  let r := vclamp (s.refLimit n) (s.stnOf n).core.iRaw
  (s.onCore n (fun c => { c with iRef := r.1 })).markClamp n r.2

/-- The feed-forward terms of block 12: the capacitor current and KFF times the load current (R60). -/
def State.feedForward (s : State) (n : Nat) : Vec2 :=
  let c := s.coreOf n
  let cf := s.par n parC_F
  let kff := s.par n parKFF
  ⟨-(c.omega * cf * c.vRef.q) + kff * c.idq.d, c.omega * cf * c.vRef.d + kff * c.idq.q⟩

/-- The decoupling terms of block 13 for a current: the voltage and jω × L_F × i (R60). -/
def State.decoupling (s : State) (n : Nat) (i : Vec2) : Vec2 :=
  let u := s.stnOf n
  let lf := s.par n parL_F
  ⟨u.vUse.d - u.core.omega * lf * i.q, u.vUse.q + u.core.omega * lf * i.d⟩

/-- Voltage loop (block 12, R60, R110): PI on v* − v with its feed-forward terms. Where the reference clamp acts on the
result the integrals hold; in OPEN_LOOP_V the error is zero (R160). -/
def State.blkVoltageLoop (s : State) (n k j : Nat) (dt lo hi : Rat) : State :=
  let u := s.stnOf n
  let e : Vec2 := vsub u.core.vRef u.vUse
  let ff := s.feedForward n
  let free := (s.runPiPair n k j e ff dt lo hi false).1
  let hold := decide (s.refLimit n < vmag free) || u.per.clamped || u.mode == .openLoopV
  let r := s.runPiPair n k j e ff dt lo hi hold
  (r.2.onCore n (fun c => { c with iRaw := r.1 })).refClamp n

/-! ### Block 14: modulation and compare write -/

/-- A shadow write of a pulse register: the stored word, and that it was written since the last boundary (R179). -/
def State.shadowPwm (s : State) (n a : Nat) (w : Word) : State :=
  (s.setReg a w).onPwm n (fun p => { p with wr := a :: p.wr.erase a })

/-- UPDATE_ARM (R179). In auto mode the arm has no set to hold. -/
def State.armUpdate (s : State) (n : Nat) : State :=
  if s.fld (PWM_TB_CFG_UPD_MODE n) = 0 then s.onPwm n (fun p => { p with armed := true }) else s

/-- The phase quantity of half-bridge position `i` of a list of three-phase sets. -/
def phaseOf (x : Abc) (i : Nat) : Rat := if i % 3 = 0 then x.a else if i % 3 = 1 then x.b else x.c

/-- Modulation demands of three phase voltages in per unit: division by the measured VDC (R60). With VDC = 0 the quotient
is 0 (log row 92). -/
def State.demands (s : State) (n : Nat) (ph : Abc) (vdc : Rat) : Abc :=
  let k := Config.sqrt 2 / Config.sqrt 3 * s.par n parV_BASE / (vdc * s.par n parVDC_BASE)
  ⟨ph.a * k, ph.b * k, ph.c * k⟩

/-- The linear range of the carrier mode (R60). -/
def State.linearLimit (s : State) (n : Nat) : Rat := Config.linearRange (s.flag (PWM_TB_CFG_MODE n))

/-- Whether some phase's demand lies beyond a limit. -/
def beyond (lim : Rat) (x : Abc) : Bool := [x.a, x.b, x.c].any (fun y => decide (lim < ratAbs y))

/-- Each phase within ± a limit. -/
def abcClamp (lim : Rat) (x : Abc) : Abc :=
  ⟨ratClamp (-lim) lim x.a, ratClamp (-lim) lim x.b, ratClamp (-lim) lim x.c⟩

/-- A clamped demand sets OVERMOD and counts once in the period (R60). -/
def State.markOvermod (s : State) (n : Nat) (acts : Bool) : State :=
  if acts then
    let s1 := s.setFlag (TRS_FLAGS_OVERMOD s.activeEng)
    if (s.stnOf n).per.overmod then s1
    else (s1.count (TRS_CNT_OVERMOD_CNT s.activeEng n)).onPer n (fun p => { p with overmod := true })
  else s

/-- Compares of half-bridges to the shadows, and the update arm. -/
def State.writeCompares (s : State) (n : Nat) (l : List (Nat × Rat)) : State :=
  let prd := (s.reg (PWM_PRD n)).toNat
  (l.foldl (fun t e =>
    let w := Config.compareOf e.2 prd
    (t.shadowPwm n (PWM_CMPA n e.1) w).shadowPwm n (PWM_CMPB n e.1) w) s).armUpdate n

/-- Phase voltages of a dq vector with the flux bias (R91). -/
def State.phasesOf (s : State) (n : Nat) (v : Vec2) : Abc :=
  let u := s.stnOf n
  unclarke (vadd (vturn v u.core.theta) u.start.bias)

/-- Demands of block 14 for a converter voltage. -/
def State.modDemands (s : State) (n : Nat) (v : Vec2) : Abc := s.demands n (s.phasesOf n v) (s.coreOf n).vdc

/-- dq to abc with the flux bias, division by VDC, linear-range clamp, compares to the shadows and the arm (R60, R91).
The bias stays as it is in MATCH, WINDOW and BUS_GAP (log row 100). -/
def State.blkModulate (s : State) (n : Nat) (v : Vec2) (hbs : List Nat) : State :=
  let d := s.modDemands n v
  let lim := s.linearLimit n
  let x := abcClamp lim d
  (s.writeCompares n ((List.range hbs.length).map (fun i => (hbs.getD i 0, phaseOf x i)))).markOvermod n (beyond lim d)

/-! ### Synchronising angle (R97 to R99, R102) -/

/-- An angle difference in turns, wrapped to −1/2 up to 1/2. -/
def wrapTurn (x : Rat) : Rat := fracTurn (x + 1 / 2) - 1 / 2

def meanOf (l : List Rat) : Rat := if l.length = 0 then 0 else l.foldl (· + ·) 0 / (l.length : Rat)

/-- The synchronising angle (R97), what R99 holds it against, and the phases that it moves (R99, R102). ω_bus is the mean of
the last fundamental cycle (log row 93). When the bus comes back from a gap Δθ is measured afresh: the jump is no bus
speed, and T_WIN starts again. -/
def State.blkSyncAngle (s : State) (n : Nat) (vbus : Abc) : State :=
  let u := s.stnOf n
  let x := u.start
  let ab := clarke vbus
  let th := if x.thetaSet then u.core.theta else fracTurn (Config.atan2Turn ab.q ab.d)
  let v := vturn ab (-th)
  let dth := Config.atan2Turn v.q v.d
  let vb := vmag v
  let dead := decide (vb < s.par n parV_DEAD)
  let back := x.phase == .busGap && !dead
  let wNow := u.core.omega +
    (if back then 0 else wrapTurn (dth - x.dTheta) / (s.dtV n * s.par n parF_NOM))
  let lg := (wNow :: (if back then [] else x.wBusLog)).take (s.cycleLen n (s.dtV n))
  let wb := meanOf lg
  let vm := vmag u.core.vdq
  let live := decide (1 - s.par n parV_LO_PERM ≤ vb) && decide (vb ≤ 1 + s.par n parV_HI_PERM) &&
    decide (1 - s.par n parF_PERM ≤ wb) && decide (wb ≤ 1 + s.par n parF_PERM)
  let win := decide (ratAbs (dth * Config.twoPi) ≤ s.par n parANG_WIN) &&
    decide (ratAbs (wb - u.core.omega) ≤ s.par n parF_WIN) && decide (ratAbs (vb - vm) ≤ s.par n parV_WIN)
  let wLen := max 1 (ceilRat (s.par n parT_WIN / s.dtV n)).toNat
  let s0 := if x.thetaSet then s else s.onCores n (fun c => { c with theta := th })
  let s1 := s0.onStart n (fun x =>
    { x with
        thetaSet := true, dTheta := dth, wBus := wb, wBusLog := lg, vBusMag := vb, busLiveOk := live, winOk := win,
        wLog := (wb :: (if back then [] else x.wLog)).take wLen })
  let s2 := (s1.setReg (GFM_SYNC_DANG n) (f32OfRat (dth * Config.twoPi))).setReg (GFM_SYNC_DFREQ n)
    (f32OfRat (wb - u.core.omega))
  let s3 := s2.setReg (GFM_SYNC_DVOLT n) (f32OfRat (vb - vm))
  if u.enHigh && dead && x.phase != .busGap then
    (s3.onStart n (fun x => { x with phase := .busGap })).setFlag (GFM_SBS_FLAGS_BUS_LOST n)
  else if back then
    (s3.onStart n (fun x => { x with phase := .matching })).count (GFM_SBS_CNT1_SYNC_REACQ_CNT n)
  else if x.phase == .window && !win then
    s3.onStart n (fun x => { x with phase := .matching })
  else s3

/-! ### Signals (R128, R141, R148) -/

def State.var (s : State) (n i : Nat) : Rat := tget (fun _ => 0) (s.stnOf n).vars i
def State.setVar (s : State) (n i : Nat) (x : Rat) : State :=
  s.onStn n (fun u => { u with vars := tset (fun _ => 0) u.vars i x })

/-- A quantity of the core by its signal; a signal of another kind is 0 here. -/
def Core.sig (c : Core) : Var → Rat
  | .theta => c.theta | .omega => c.omega | .omegaF => c.omegaF | .pGov => c.pGov | .isoInt => c.isoInt | .emf => c.emf
  | .vInt => c.vInt | .pMeas => c.p | .qMeas => c.q | .pF => c.pF | .qF => c.qF | .hEff => c.hEff | .mpEff => c.mpEff
  | .dz => c.dz | .rvEff => c.rvEff | .xvEff => c.xvEff | .vdc => c.vdc | .vD => c.vdq.d | .vQ => c.vdq.q
  | .iD => c.idq.d | .iQ => c.idq.q | .vRefD => c.vRef.d | .vRefQ => c.vRef.q | .iRawD => c.iRaw.d | .iRawQ => c.iRaw.q
  | .iRefD => c.iRef.d | .iRefQ => c.iRef.q | .vConvD => c.vConv.d | .vConvQ => c.vConv.q
  | .hch _ _ | .lvar _ | .loc _ => 0

/-- Put a number into a quantity of the core. -/
def Core.setSig (c : Core) (x : Rat) : Var → Core
  | .theta => { c with theta := x } | .omega => { c with omega := x } | .omegaF => { c with omegaF := x }
  | .pGov => { c with pGov := x } | .isoInt => { c with isoInt := x } | .emf => { c with emf := x }
  | .vInt => { c with vInt := x } | .pMeas => { c with p := x } | .qMeas => { c with q := x } | .pF => { c with pF := x }
  | .qF => { c with qF := x } | .hEff => { c with hEff := x } | .mpEff => { c with mpEff := x }
  | .dz => { c with dz := x } | .rvEff => { c with rvEff := x } | .xvEff => { c with xvEff := x }
  | .vdc => { c with vdc := x } | .vD => { c with vdq := ⟨x, c.vdq.q⟩ } | .vQ => { c with vdq := ⟨c.vdq.d, x⟩ }
  | .iD => { c with idq := ⟨x, c.idq.q⟩ } | .iQ => { c with idq := ⟨c.idq.d, x⟩ }
  | .vRefD => { c with vRef := ⟨x, c.vRef.q⟩ } | .vRefQ => { c with vRef := ⟨c.vRef.d, x⟩ }
  | .iRawD => { c with iRaw := ⟨x, c.iRaw.q⟩ } | .iRawQ => { c with iRaw := ⟨c.iRaw.d, x⟩ }
  | .iRefD => { c with iRef := ⟨x, c.iRef.q⟩ } | .iRefQ => { c with iRef := ⟨c.iRef.d, x⟩ }
  | .vConvD => { c with vConv := ⟨x, c.vConv.q⟩ } | .vConvQ => { c with vConv := ⟨c.vConv.d, x⟩ }
  | .hch _ _ | .lvar _ | .loc _ => c

/-- A number put into a signal: a state word (R139, R148), or the output of a block. -/
def State.putVar (s : State) (n k : Nat) (x : Rat) : Var → State
  | .hch c quad =>
    s.onStn n (fun u =>
      let h := tget (fun _ => {}) u.hch c
      { u with hch := tset (fun _ => {}) u.hch c (if quad then { h with q := x } else { h with d := x }) })
  | .lvar i => s.setVar n i x
  | .loc j => s.setLoc n k j x
  | v => s.onCore n (fun c => c.setSig x v)

/-- The value of a signal. -/
def State.getVar (s : State) (n k : Nat) : Var → Rat
  | .hch c quad => let h := tget (fun _ => {}) (s.stnOf n).hch c; if quad then h.q else h.d
  | .lvar i => s.var n i
  | .loc j => s.loc n k j
  | v => (s.coreOf n).sig v

/-- What a block of loop `k` reads on a signal: in OPEN_LOOP_V v* stands for the measured voltage (R160). -/
def State.sig (s : State) (n k : Nat) : Var → Rat
  | .vD => (s.stnOf n).vUse.d
  | .vQ => (s.stnOf n).vUse.q
  | v => s.getVar n k v

def State.sig2 (s : State) (n k : Nat) (v : Var2) : Vec2 := ⟨s.sig n k v.d, s.sig n k v.q⟩
def State.sig3 (s : State) (n k : Nat) (v : Var3) : Abc := ⟨s.sig n k v.a, s.sig n k v.b, s.sig n k v.c⟩
def State.put2 (s : State) (n k : Nat) (x : Vec2) (v : Var2) : State := (s.putVar n k x.d v.d).putVar n k x.q v.q
def State.put3 (s : State) (n k : Nat) (x : Abc) (v : Var3) : State :=
  ((s.putVar n k x.a v.a).putVar n k x.b v.b).putVar n k x.c v.c

/-! ### Blocks over signals -/

/-- The number an input word stands for: FP32 (R255), or a signed integer (R202). -/
def inputValue (fp : Bool) (w : Word) : Rat := if fp then f32ToRat w else (w.toInt : Rat)

/-- Input scaling: each variable becomes the sum of its words' gain × (word − offset) (R141; log row 21). -/
def State.scaleInputs (s : State) (n k : Nat) (l : List InScale) : State :=
  let zero := l.foldl (fun t e => t.putVar n k 0 e.dst) s
  l.foldl (fun t e =>
    t.putVar n k (t.getVar n k e.dst + e.gain * (inputValue e.fp (t.inpOf n e.slot).value - e.offset)) e.dst) zero

/-- Loop-local state words a block holds. -/
def blockLocals : Block → Nat
  | .piScalar .. | .rateLimit .. | .lowPass .. | .position .. => 1
  | .resonant .. | .voltageLoop .. | .currentLoop .. | .piDq .. => 2
  | _ => 0

/-- Entry `i` of a station's compensation table: cogging and friction torque (R146). -/
def State.compEntry (s : State) (n i : Nat) : Rat × Rat :=
  let w := s.dmem s.activeEng (0x8000 + n * 0x1000 + i % 4096)
  (halfToRat (BitVec.ofNat 16 w.toNat), halfToRat (BitVec.ofNat 16 (w.toNat / 2 ^ 16)))

/-- τ_FF of R146 at an angle counted in turns, a speed and the zero band. -/
def State.frictionTorque (s : State) (n : Nat) (p w wfz : Rat) : Rat :=
  let x := fracTurn p * 4096
  let i := (floorRat x).toNat
  let f := x - (i : Rat)
  let a := s.compEntry n i
  let b := s.compEntry n (i + 1)
  (a.1 + f * (b.1 - a.1)) + (a.2 + f * (b.2 - a.2)) * ratClamp (-1) 1 (w / wfz)

/-- Rates of the core blocks: 0 every execution of the loop, 1 voltage loop, 2 virtual machine (R48, R50). -/
def blockRate : Block → Nat
  | .envelope | .governor | .excitation | .damping => 2
  | .power | .speed | .virtImp | .harmonic _ | .voltageLoop .. | .syncAngle _ => 1
  | _ => 0

/-- Periods of a rate for a station: N_V and N_V × N_M (log row 118). -/
def State.ratePeriods (s : State) (n : Nat) : Nat → Nat
  | 0 => 1
  | 1 => (floorRat (s.par n parN_V)).toNat
  | _ => (floorRat (s.par n parN_V)).toNat * (floorRat (s.par n parN_M)).toNat

/-- A rate falls in the period: the period count is a multiple of its length (R48). -/
def State.rateFalls (s : State) (n r : Nat) : Bool := decide ((s.stnOf n).count % s.ratePeriods n r = 0)

/-- Whether a core block acts in the station's state and type (R50, R54, R68, R72, R75, R88, R99, R108, R120): block 1 in
every state, blocks 4 to 9 in every state but the idle ones, the others while the enables are high, and on a machine or
DC-DC station neither 2 to 7 nor 9 to 11. -/
def State.blockStands (s : State) (n : Nat) : Block → Bool
  | .damping | .power | .speed | .angle | .curLimit => !s.stnIdle n && s.fld (GFM_CTRL_TYPE n) == 0
  | .abcDq .. => !s.stnIdle n
  | .syncAngle _ => (s.stnOf n).mode == .synchronising
  | .governor | .excitation | .virtImp | .harmonic _ => (s.stnOf n).enHigh && s.fld (GFM_CTRL_TYPE n) == 0
  | .voltageLoop .. | .currentLoop .. | .modulate .. | .compareWrite _ => (s.stnOf n).enHigh
  | _ => true

/-- A block whose rate does not fall in the period is skipped (R50). -/
def State.blockActs (s : State) (n : Nat) (b : Block) : Bool := s.blockStands n b && s.rateFalls n (blockRate b)

/-- The limit of a vector limiter. -/
def State.limitOf (s : State) (n k : Nat) : LimitSrc → Rat
  | .refClamp => s.refLimit n
  | .const x => x
  | .sig v => s.sig n k v

/-- Run one block of loop `k` of station `n`; `j` is the number of the block's first loop-local state, and `hold` says
that a clamp downstream of the block acts (R143). -/
def State.runBlock (s : State) (n k : Nat) (dt : Rat) (j : Nat) (hold : Bool) : Block → State
  | .inputScaling l => s.scaleInputs n k l
  | .envelope => s.blkEnvelope n
  | .governor => s.blkGovernor n
  | .excitation => s.blkExcitation n
  | .damping => s.blkDamping n
  | .power => s.blkPower n
  | .speed => s.blkSpeed n
  | .angle => s.blkAngle n
  | .abcDq v i dc => s.blkAbcDq n (s.sig3 n k v) (s.sig3 n k i) (s.sig n k dc)
  | .curLimit => s.blkCurLimit n
  | .virtImp => s.blkVirtImp n
  | .harmonic c => s.blkHarmonic n c
  | .voltageLoop lo hi => s.blkVoltageLoop n k j dt lo hi
  | .currentLoop i dst lo hi =>
    -- block 13 (R60): PI on i* − i with its decoupling terms, after the reference clamp of the period
    let s1 := s.refClamp n
    let im := s1.sig2 n k i
    let r := s1.runPiPair n k j (vsub (s1.coreOf n).iRef im) (s1.decoupling n im) dt lo hi hold
    r.2.put2 n k r.1 dst
  | .modulate src hbs => s.blkModulate n (s.sig2 n k src) hbs
  | .syncAngle v => s.blkSyncAngle n (s.sig3 n k v)
  | .clarke src dst => s.put2 n k (clarke (s.sig3 n k src)) dst
  | .park src dst => s.put2 n k (vturn (s.sig2 n k src) (-(s.coreOf n).theta)) dst
  | .abcDqOf src dst => s.put2 n k (vturn (clarke (s.sig3 n k src)) (-(s.coreOf n).theta)) dst
  | .dqAbc src dst => s.put3 n k (unclarke (vturn (s.sig2 n k src) (s.coreOf n).theta)) dst
  | .feedForward dst => s.put2 n k (s.feedForward n) dst
  | .decouple i dst => s.put2 n k (s.decoupling n (s.sig2 n k i)) dst
  | .piScalar e ff dst lo hi =>
    let err := s.sig n k e
    let r := piAxis (s.loopGain k err) (f32ToRat (s.actReg (TRS_LOOP_KP k))) (f32ToRat (s.actReg (TRS_LOOP_KI k))) err
      (s.loc n k j) (s.sig n k ff) dt lo hi hold
    (s.setLoc n k j r.2).putVar n k r.1 dst
  | .piDq ref meas ff dst lo hi =>
    let r := s.runPiPair n k j (vsub (s.sig2 n k ref) (s.sig2 n k meas)) (s.sig2 n k ff) dt lo hi hold
    r.2.put2 n k r.1 dst
  | .vecLimit lim src dst =>
    let r := vclamp (s.limitOf n k lim) (s.sig2 n k src)
    let s1 := s.put2 n k r.1 dst
    if lim = .refClamp then s1.markClamp n r.2 else s1
  | .fluxBias ph =>
    let x := s.sig3 n k ph
    let b := unclarke (s.stnOf n).start.bias
    s.put3 n k ⟨x.a + b.a, x.b + b.b, x.c + b.c⟩ ph
  | .modulation src dc dst =>
    let d := s.demands n (s.sig3 n k src) (s.sig n k dc)
    (s.put3 n k (abcClamp (s.linearLimit n) d) dst).markOvermod n (beyond (s.linearLimit n) d)
  | .compareWrite l => s.writeCompares n (l.map (fun e => (e.1, s.sig n k e.2)))
  | .powerClamp a b =>
    let e := s.envInForce n
    let f := s.stopFactor n
    s.putVar n k (ratClamp (-(f * e.pchg)) (f * e.pdis) (s.sig n k a)) b
  | .scalarClamp a b lo hi => s.putVar n k (ratClamp lo hi (s.sig n k a)) b
  | .rateLimit a b step =>
    let x := s.loc n k j
    let y := ratClamp (x - step) (x + step) (s.sig n k a)
    (s.setLoc n k j y).putVar n k y b
  | .lowPass a b tau =>
    let y := lowPassStep (s.loc n k j) (s.sig n k a) dt tau
    (s.setLoc n k j y).putVar n k y b
  | .resonant a b order =>
    let r := Config.resonator order (s.sig n k a) (s.loc n k j) (s.loc n k (j + 1))
    ((s.setLoc n k j r.2.1).setLoc n k (j + 1) r.2.2).putVar n k r.1 b
  | .position slot p w =>
    let r := Config.positionSpeed (s.inpOf n slot).value (s.loc n k j)
    ((s.setLoc n k j r.1).putVar n k r.1 p).putVar n k r.2 w
  | .friction p w ref dst wfz =>
    s.putVar n k (s.sig n k ref + s.frictionTorque n (s.sig n k p) (s.sig n k w) wfz) dst
  | .snapList vs =>
    let l := (vs.take 12).map (fun v => s.sig n k v)
    s.onStn n (fun u => { u with user := l })

/-- The signals that a clamp limits, where it acts in the state that it finds (R143): the source of a vector limiter, or of
a modulation beyond the linear range. -/
def State.clampActs (s : State) (n k : Nat) : Block → List Var
  | .vecLimit lim src _ => if (vclamp (s.limitOf n k lim) (s.sig2 n k src)).2 then [src.d, src.q] else []
  | .modulate src _ => if beyond (s.linearLimit n) (s.modDemands n (s.sig2 n k src)) then [src.d, src.q] else []
  | .modulation src dc _ =>
    if beyond (s.linearLimit n) (s.demands n (s.sig3 n k src) (s.sig n k dc)) then [src.a, src.b, src.c] else []
  | _ => []

/-- Signals behind limited ones: what an inverse transform makes its phases from. -/
def behind (l : List Block) (vs : List Var) : List Var :=
  vs ++ l.flatMap (fun b =>
    match b with
    | .dqAbc src dst => if vs.contains dst.a || vs.contains dst.b || vs.contains dst.c then [src.d, src.q] else []
    | _ => [])

/-- A PI block whose output is limited. -/
def heldBy (vs : List Var) : Block → Bool
  | .piScalar _ _ dst _ _ => vs.contains dst
  | .piDq _ _ _ dst _ _ | .currentLoop _ dst _ _ => vs.contains dst.d || vs.contains dst.q
  | _ => false

/-- Run the blocks of a loop in order (R129), and gather the signals limited by clamps that act; PI blocks whose output
is in `held` do not integrate. -/
def State.runBlocks (s : State) (n k : Nat) (dt : Rat) (held : List Var) (j : Nat) : List Block → State × List Var
  | [] => (s, [])
  | b :: t =>
    let on := s.blockActs n b
    let acts := if on then s.clampActs n k b else []
    let r := (if on then s.runBlock n k dt j (heldBy held b) b else s).runBlocks n k dt held (j + blockLocals b) t
    (r.1, acts ++ r.2)

/-- One execution of a loop: where a clamp acts, the PI blocks that feed it do not integrate (R143). -/
def State.runLoop (s : State) (n k : Nat) (dt : Rat) (l : List Block) : State :=
  let r := s.runBlocks n k dt [] 0 l
  match r.2 with
  | [] => r.1
  | vs => (s.runBlocks n k dt (behind l vs) 0 l).1

end Sys2Proof.Machine
end

