-- ==== Sys2Proof/Machine/Station.lean ====
section
/-! DEFINITION. What moves a station: run, stop and reset requests, entry to RUNNING with the check of the harmonic
channels, envelopes, failed starts (R31 to R34, R46, R49, R74, R78, R85, R93, R339, R341, R451, R488, R489). -/

namespace Sys2Proof.Machine

/-! ### Input list -/

/-- Input-list entry number of slot `i` of station `n`. -/
def slotNo (n i : Nat) : Nat := 64 * n + i

/-- Whether an enabled slot of a station has a role. -/
def State.slotWith (s : State) (n role : Nat) : Bool :=
  (List.range 64).any (fun i => s.flag (TRS_IN_CFG_EN (slotNo n i)) && s.fld (TRS_IN_CFG_ROLE (slotNo n i)) == role)

/-- Capture input of the station's breaker contact, one of CAP0 to CAP15 (R88, R96). -/
def State.brkInput (s : State) (n : Nat) : Option Nat :=
  ((List.range 64).find? (fun i =>
    let e := slotNo n i
    s.flag (TRS_IN_CFG_EN e) && s.fld (TRS_IN_CFG_ROLE e) == 3 && s.fld (TRS_IN_CFG_SRC_TYPE e) == 2 &&
      decide (s.fld (TRS_IN_CFG_SRC_INDEX e) < 16))).map (fun i => s.fld (TRS_IN_CFG_SRC_INDEX (slotNo n i)))

def State.busInput (s : State) (n : Nat) : Bool := s.slotWith n 2

/-- Level of the breaker contact: closed where the input reads high; 0 where no input is assigned. -/
def State.brkClosed (s : State) (n : Nat) : Bool :=
  match s.brkInput n with
  | some c => (s.capOf c).level
  | none => false

/-! ### Settings in OTP (R451) -/

def parInRange (s : State) (n i : Nat) : Bool :=
  match parDesc i with
  | some p => (parCheck p (s.reg (GFM_PAR n i))).isSome
  | none => false

/-- Ranges of the station settings SAF_PAR (R353); the last component allows 0. -/
def safParRange : List (Rat × Rat × Bool) := [
  (0, 1, false), (1 / 100, 10, false), (1 / 100, 1 / 5, false), (1 / 1000, 1 / 10, false), (1 / 10, 30, false),
  (1 / 100, 1 / 2, false), (1 / 100, 1 / 5, false), (1 / 10, 60, false), (1 / 100, 1 / 5, false),
  (16, 65536, true), (1, 20000, true), (0, 15, false), (0, 15, false), (0, 11, false)]

/-- Resolutions of the station settings (R353). -/
def safParRes : List Rat := [
  1 / 1000, 1 / 100, 1 / 100, 1 / 1000, 1 / 10, 1 / 100, 1 / 100, 1 / 10, 1 / 100, 1, 1, 1, 1, 1]

/-- A station setting of Highboy: the multiple of its resolution that the FP32 word stands for (log row 80). -/
def State.safPar (s : State) (n i : Nat) : Rat :=
  let r := safParRes.getD i 1
  (roundAway (f32ToRat (s.reg (SAF_PAR n i)) / r) : Rat) * r

/-- The FP32 number nearest a limit: a setting is held as FP32, so a limit such as 0.2 s is met by its FP32 word. -/
def f32Near (q : Rat) : Rat := f32ToRat (f32OfRat q)

/-- An FP32 setting within a range; the last component allows 0. -/
def realWithin (w : Word) (r : Rat × Rat × Bool) : Bool :=
  let x := f32ToRat w
  f32Finite w && ((decide (f32Near r.1 ≤ x) && decide (x ≤ f32Near r.2.1)) || (r.2.2 && decide (x = 0)))

def State.safParOk (s : State) (n i : Nat) : Bool := realWithin (s.reg (SAF_PAR n i)) (safParRange.getD i (0, 0, true))

/-- Some safe output's map names the station. -/
def State.soutNamed (s : State) (n : Nat) : Bool := (List.range 8).any (fun k => s.soutMap k n)

/-- The six checks of R451 for a station, as the bits of SYS_OTP_CHECK. -/
def State.otpCheck (s : State) (n : Nat) : List Bool :=
  [decide (s.fld OTP_STATUS_SEALED ≠ 0) && !s.flag OTP_FLAGS_GEN_CORRUPT && !s.flag OTP_FLAGS_OVL_MISSING,
   decide (s.fld (GATE_OTP_DT n) ≠ 0) && decide (s.fld (GATE_OTP_MINP n) ≠ 0) && decide (s.fld (GATE_OTP_BLANK n) ≠ 0),
   (List.range 13).all (fun i => parInRange s n (0x30 + i)),
   decide (f32ToRat (s.reg (GFM_ENV_OTP_PDIS n)) ≠ 0) && decide (f32ToRat (s.reg (GFM_ENV_OTP_PCHG n)) ≠ 0) &&
     decide (f32ToRat (s.reg (GFM_ENV_OTP_ERES n)) ≠ 0),
   decide (1 ≤ s.fld SAF_TIM0_SIN_FILT ∧ s.fld SAF_TIM0_SIN_FILT ≤ 1000) &&
     decide (5 ≤ s.fld SAF_TIM0_T_DISC ∧ s.fld SAF_TIM0_T_DISC ≤ 500) &&
     decide (1 ≤ s.fld SAF_TIM1_TEST_P ∧ s.fld SAF_TIM1_TEST_P ≤ 100) &&
     decide (10 ≤ s.fld SAF_TIM1_TEST_W ∧ s.fld SAF_TIM1_TEST_W ≤ 100) &&
     (List.range 14).all (fun i => s.safParOk n i) && s.soutNamed n,
   decide (1 ≤ s.fld ADC_PLS_OTP0_PLS_LIMIT) &&
     decide (signedOf 16 (s.fld ADC_PLS_OTP1_PLS_LO) < signedOf 16 (s.fld ADC_PLS_OTP1_PLS_HI))]

def State.settingsComplete (s : State) (n : Nat) : Bool := (s.otpCheck n).all id

/-! ### Station conditions -/

def State.stnType (s : State) (n : Nat) : Nat := s.fld (GFM_CTRL_TYPE n)

/-- Granted, with S_BASE, V_BASE and VDC_BASE all non-zero (R46). -/
def State.rated (s : State) (n : Nat) : Bool :=
  s.grantS n && decide (s.par n parS_BASE ≠ 0) && decide (s.par n parV_BASE ≠ 0) && decide (s.par n parVDC_BASE ≠ 0)

/-- Requests of the station are not acted on: a held removal, no SOUT map, a machine station without its encoder
settings, or a monitored safe stop (R341, R350). -/
def State.requestsHeld (s : State) (n : Nat) : Bool :=
  (s.safeOf n).held || !s.soutNamed n ||
    (s.stnType n == 1 && (decide (s.safPar n 9 = 0) || decide (s.safPar n 10 = 0))) ||
    ((s.safeOf n).stop && (s.safeOf n).demanded)

/-- What a run leaves behind in a station without one: no start, no request, no limiting. -/
def State.standDown (s : State) (n : Nat) : State :=
  (s.onStn n (fun u => { u with start := {}, stopReq := false, olvBack := false })).calmLimits n

/-- The station is accepted into READY: removals that follow it clear (R339). -/
def State.enterReady (s : State) (n : Nat) : State :=
  (((s.setSt n .ready).standDown n).onSafe n (fun f => { f with follows := false })).onPwm n (fun p =>
    { p with gateRemoved := false, firstLatch := none, latchSeen := false })

/-- DISABLED and READY follow the grant and the base ratings (R46, R78). -/
def State.refreshRated (s : State) (n : Nat) : State :=
  match (s.stnOf n).st with
  | .disabled => if s.rated n then s.enterReady n else s
  | .ready => if s.rated n then s else s.setSt n .disabled
  | _ => s

/-! ### Harmonic channels (R82 to R86) -/

/-- The code of the first rule of R85 that a channel fails, 0 for none; the parameters stand for their decimals, as in the
worked example of 03_sharing_black_start.md. -/
def State.hchRule (s : State) (n c : Nat) : Nat :=
  let h : Rat := (s.fld (GFM_HCH_CFG_ORDER n c) : Nat)
  let fn := s.par n parF_NOM
  let lc := s.parDec n parL_F * s.parDec n parC_F
  let sq := s.fld (GFM_HCH_CFG_SEQ n c)
  if 1 / 10 < h * fn * s.dtV n then 1
  -- |h − h_RES| ≥ 0.2 × h_RES with h_RES = 1 / √(L_F × C_F), on squares
  else if 0 < lc ∧ 16 / 25 < h * h * lc ∧ h * h * lc < 36 / 25 then 2
  else if s.parDec n (parHch c 0) < 1 / 10 * s.parDec n (parHch c 1) then 3
  else if 1 / 5 * fn < s.parDec n (parHch c 2) then 4
  else if (List.range c).any (fun b => s.actFld (GFM_HCH_CFG_EN n b) == 1 &&
      s.fld (GFM_HCH_CFG_ORDER n b) == s.fld (GFM_HCH_CFG_ORDER n c) && s.fld (GFM_HCH_CFG_SEQ n b) == sq) then 5
  else if s.fld (GFM_HCH_CFG_ORDER n c) = 1 ∧ sq = 0 then 6
  else 0

/-- Check one channel and make it active or refuse it (R85). REFUSE keeps its code while EN is 0 (log row 99). -/
def State.hchCheck (s : State) (n c : Nat) : State :=
  let en := s.actFld (GFM_HCH_CFG_EN n c) == 1
  let usable := en && s.grantHarm && s.stnType n == 0
  let code := if usable then s.hchRule n c else 0
  let s1 := s.onStn n (fun u =>
    let h := tget (fun _ => {}) u.hch c
    { u with hch := tset (fun _ => {}) u.hch c { h with active := usable && code == 0 } })
  if usable then (s1.setFld (GFM_HCH_CFG_REFUSE n c) code).setFlagIf (code != 0) (GFM_SBS_FLAGS_HCH_REFUSED n) else s1

/-- Entry to RUNNING: the bias starts its fall, and every channel is checked (R85, R91, R92, R116). -/
def State.enterRunning (s : State) (n : Nat) : State :=
  let u := s.stnOf n
  let fromStart := u.st == .deadBusStart || u.st == .synchronising
  let s1 := (s.setSt n .running).onStn n (fun u =>
    { u with
      olvBack := false, lim := { u.lim with limTime := 0, calm := false, calmTime := 0 },
      start := if fromStart then { bias := u.start.bias, biasAtRun := u.start.bias, slewing := true }
        else u.start })
  (s1.forAll 12 (fun c t => t.hchCheck n c)).setFlagIf (u.st == .limiting || u.st == .rideThrough)
    (GFM_FRT_FLAGS_CLEARED n)

/-! ### Envelope (R31 to R34, R73) -/

/-- A value register of the envelope is finite and within its range (R33). -/
def envOk (w : Word) (hi : Rat) : Bool := f32Finite w && decide (0 ≤ f32ToRat w) && decide (f32ToRat w ≤ hi)

/-- A write of GFM_ENV_SEQ by the management processor (R32, R33): a changed value commits the three values as one set,
or the commit is refused and counted. -/
def State.commitEnvelope (s : State) (n : Nat) (seq : Word) (late : Bool) : State :=
  if seq = s.reg (GFM_ENV_SEQ n) then s
  else
    let s1 := (s.setBoth (GFM_ENV_SEQ n) seq).setFlagIf late (GFM_CORE_FLAGS_LATE_WRITE n)
    let a := s.reg (GFM_ENV_PDIS n)
    let b := s.reg (GFM_ENV_PCHG n)
    let c := s.reg (GFM_ENV_ERES n)
    if envOk a 4 && envOk b 4 && envOk c 600 then
      s1.onStn n (fun u =>
        { u with
          envWait := some { pdis := f32ToRat a, pchg := f32ToRat b, eres := f32ToRat c, seq := seq, otp := false } })
    else s1.count (GFM_ENV_STATUS_ENV_REJECT n)

/-- At a boundary the committed set takes effect and ENV_AGE restarts, else a due fallback does (R32, R34, R73;
02_grid_forming_core.md, the time table of the envelope). -/
def State.envBoundary (s : State) (n : Nat) : State :=
  match (s.stnOf n).envWait with
  | some e =>
    (s.onStn n (fun u => { u with env := e, envWait := none, fallbackDue := false, envAt := some s.now })).setFld
      (GFM_ENV_STATUS_ENV_FALLBACK n) 0
  | none =>
    if (s.stnOf n).fallbackDue then
      (s.onStn n (fun u => { u with env := s.otpEnvelope n, fallbackDue := false })).setFld
        (GFM_ENV_STATUS_ENV_FALLBACK n) 1
    else s

/-! ### Starts -/

/-- A start ends with a FAIL_REASON (R93). -/
def State.failStart (s : State) (n reason : Nat) : State :=
  ((s.setFld (GFM_START_STATUS_FAIL_REASON n) reason).setFlag (GFM_SBS_FLAGS_START_FAIL n)).tripNow n 0x0B

/-- The run request is accepted: the period count restarts, the envelope is evaluated once, and the start begins (R38,
R78, R88, R97, R108). -/
def State.acceptRun (s : State) (n : Nat) : State :=
  let fset := s.par n parF_SET
  let s1 := (s.onStn n (fun u =>
    { u with
      count := 0, stopReq := false, stopTime := 0, lowTime := 0, trips := [], tripAt := none, tripDue := false,
      ride := { vLog := u.ride.vLog }, lim := { fcBudget := u.lim.fcBudget } })).onCores n (fun c =>
    { c with omega := fset, omegaF := fset, rvEff := s.par n parRV, xvEff := s.par n parXV, dz := 0 })
  let s2 := s1.blkEnvelope n
  if s.stnType n = 0 then
    if s.fld (GFM_CTRL_START_MODE n) = 0 then
      (s2.setSt n .deadBusStart).onStart n (fun _ => { phase := .deadCheck })
    else (s2.setSt n .synchronising).onStart n (fun _ => { phase := .busCheck })
  else s2.enterRunning n

/-- A run request is judged at a boundary (R46, R49, R74, R78, R341, R442, R452). -/
def State.judgeRun (s : State) (n : Nat) : State :=
  let held := s.requestsHeld n
  let s1 := s.setFlagIf held SAF_FLAGS_RUN_HELD
  let refuse := !s.settingsComplete n || decide (1 / 100 < s.dtM n) || decide (1 / 5 < s.parDec n parD * s.dtV n)
  if s.fld PWR_STATUS_BANK_FAIL != 0 then s.setFlag PWR_FLAGS_RUN_BLOCKED
  else if refuse then s1.setFlag (GFM_CORE_FLAGS_START_REFUSED n)
  else if held then s1
  else s1.acceptRun n

/-! ### Stops -/

/-- A stop is called for: RUN_REQ is 0, SENn is low, or a safe stop is demanded (R78). -/
def State.stopWanted (s : State) (n : Nat) : Bool :=
  (s.stnOf n).stopReq || !s.flag (GFM_CTRL_RUN_REQ n) || !s.sen.getLsbD n

/-- Highboy's value x0 at the entry to a stop: the mean of the last four |P|, or the speed of a machine (R351). -/
def State.stopX0 (s : State) (n : Nat) : Rat :=
  if s.stnType n = 1 then ratAbs (tget (fun _ => 0) s.safe.encSpeed n)
  else meanOf ((s.safeOf n).lastP.take 4)

/-- STOPPING is entered, monitored by Highboy from here unless a safe-stop demand started the time before (R350, R488).
The low-current time counts from the entry (log row 87), and the blocks run on as in the state left. -/
def State.enterStopping (s : State) (n : Nat) : State :=
  let s1 := (s.setSt n .stopping).onStn n (fun u =>
    { u with stopTime := 0, lowTime := 0, stopReq := false, stopFrom := u.prev })
  let f := s1.safeOf n
  if f.stop && f.demanded then s1.onSafe n (fun f => { f with x0 := s.stopX0 n })
  else s1.onSafe n (fun f => { f with stop := true, demanded := false, x0 := s.stopX0 n, stopAt := s.now, hiCount := 0 })

/-- The stop rows of R78 for the state a station is in; a stop found in the period of a change under a lower row takes its
place. -/
def State.serveStop (s0 : State) (n : Nat) : State :=
  let s := s0.undoTurn n
  let u := s.stnOf n
  match u.st with
  | .running | .limiting | .rideThrough | .openLoopV => s.enterStopping n
  | .deadBusStart | .synchronising => if u.enHigh then s.enterStopping n else (s.enterReady n).dropGates n
  | _ => s

/-- The stop is complete: READY, enables low; a stop without a safe-stop demand is no longer monitored (R351, R488). -/
def State.completeStop (s : State) (n : Nat) : State :=
  let s1 := (s.enterReady n).dropGates n
  s1.onSafe n (fun f => if f.demanded then f else { f with stop := false })

/-- Whether the stop is complete at a boundary (R488). -/
def State.stopDone (s : State) (n : Nat) : Bool :=
  let u := s.stnOf n
  let ts := s.par n parT_STOP
  (decide (ts ≤ u.stopTime) && decide (s.par n parT_CLR ≤ u.lowTime)) || decide (ts + 1 ≤ u.stopTime)

/-- The rows of R78 that a boundary serves, in their order; a run request is judged beside them. -/
def State.serveRows (s : State) (n : Nat) : State :=
  let u := s.stnOf n
  if u.tripDue then s.enterTripped n false
  else
    match u.st with
    | .running | .limiting | .rideThrough | .openLoopV =>
      if s.stopWanted n then s.serveStop n
      else if u.st == .openLoopV && u.olvBack then s.enterRunning n
      else s
    | .deadBusStart | .synchronising =>
      if s.stopWanted n then s.serveStop n
      else if u.start.complete then s.enterRunning n
      else if u.start.confirmed then
        if u.st == .deadBusStart then
          (s.onStart n (fun x => { x with phase := .ramp, confirmed := false })).onCores n (fun c =>
            { c with theta := 0, omega := s.par n parF_SET, emf := 0 })
        else
          (s.onStart n (fun x => { x with phase := .energise, confirmed := false })).onCores n (fun c => { c with emf := 0 })
      else s
    | .stopping => if s.stopDone n then s.completeStop n else s
    | _ => s

/-- Changes that a boundary would make are made at once while the timebase is stopped; a run request is not accepted
(R489). -/
def State.settleStopped (s : State) (n : Nat) : State := if (s.pwmOf n).run then s else s.serveRows n

/-! ### GFM_CTRL (R46, R78, R341) -/

/-- RESET_REQ in TRIPPED: to READY or DISABLED when no half-bridge is latched and nothing holds the station. -/
def State.resetRequest (s : State) (n : Nat) : State :=
  if (s.stnOf n).st != .tripped then s
  else if s.requestsHeld n then s.setFlag SAF_FLAGS_RESET_HELD
  else if s.fld (GATE_LATCH_LATCHED n) != 0 then s
  else
    let s1 := ((s.setReg (GFM_TRIP_CAUSE n) 0).setFld (GFM_START_STATUS_FAIL_REASON n) 0).setFld (GATE_TRIP_VALID n) 0
    if s.rated n then s1.enterReady n
    else (((s1.setSt n .disabled).standDown n).onSafe n (fun f => { f with follows := false })).onPwm n (fun p =>
      { p with gateRemoved := false, firstLatch := none, latchSeen := false })

/-- A write of GFM_CTRL, field by field (R8, R16, R17, R78). -/
def State.writeCtrl (s : State) (n : Nat) (w : Word) : State :=
  let ty := bits w 8 2
  let mo := bits w 4 3
  if ty = 1 ∧ !s.grantMachine then s.setFlag (GFM_CORE_FLAGS_WRITE_REFUSED n)
  else
    let idle := s.stnIdle n
    let tyOk := ty == s.fld (GFM_CTRL_TYPE n) || (idle && ty != 3)
    let moOk := mo == s.fld (GFM_CTRL_START_MODE n) || (idle && decide (mo ≤ 2))
    let s1 := if tyOk then s.setFld (GFM_CTRL_TYPE n) ty else s.setFlag (GFM_CORE_FLAGS_WRITE_REFUSED n)
    let s2 := if moOk then s1.setFld (GFM_CTRL_START_MODE n) mo else s1.setFlag (GFM_CORE_FLAGS_WRITE_REFUSED n)
    let run := bit w 0
    let was := s.flag (GFM_CTRL_RUN_REQ n)
    let s3 := s2.setFld (GFM_CTRL_RUN_REQ n) run.toNat
    let s4 := s3.setFlagIf (run && (s.stnOf n).st == .disabled) (GFM_CORE_FLAGS_START_REFUSED n)
    let s5 := if was && !run then s4.onStn n (fun u => { u with stopReq := !u.idle }) else s4
    let s6 := if bit w 12 then s5.resetRequest n else s5
    s6.settleStopped n

/-! ### GFM_PAR (R63 to R65) -/

/-- A write of a station parameter; answers the new state. Refusal sets PARAM_REJECTED and counts one. -/
def State.writePar (s : State) (n i : Nat) (w : Word) (late : Bool) : State :=
  match parDesc i with
  | none => s
  | some p =>
    if p.acc = .ro then s
    else
      match parCheck p w with
      | none => (s.setFlag (GFM_CORE_FLAGS_PARAM_REJECTED n)).count (GFM_CORE_CNT1_PARAM_REJECT_CNT n)
      | some v =>
        let a := GFM_PAR n i
        match p.cls with
        | .idle =>
          if v = s.reg a then s
          else if s.stnIdle n then
            let s1 := (s.setBoth a v).refreshRated n
            if i = parS_BASE ∨ i = parV_BASE then s1.limitCodes n else s1
          else s.setFlag (GFM_CORE_FLAGS_WRITE_REFUSED n)
        | _ =>
          -- R49: D may not break D × Δt_V ≤ 0.2 s while the station runs
          if i = parD ∧ !s.stnIdle n ∧ 1 / 5 < (roundAway (f32ToRat v / p.res) : Rat) * p.res * s.dtV n then
            (s.setFlag (GFM_CORE_FLAGS_PARAM_REJECTED n)).count (GFM_CORE_CNT1_PARAM_REJECT_CNT n)
          else (s.setReg a v).setFlagIf late (GFM_CORE_FLAGS_LATE_WRITE n)

/-- Shadowed parameters and channel enables come into force at a boundary; a channel whose EN, RH, XH or BW changes
with EN = 1 is checked in RUNNING, one that is rewritten unchanged is not (R65, R85; log row 99). -/
def State.transferGfm (s : State) (n : Nat) : State :=
  let pars := parTable.filter (fun p => p.acc == .rw && p.cls == .shadowed)
  let moved (c : Nat) : Bool :=
    s.fld (GFM_HCH_CFG_EN n c) == 1 &&
      (s.actFld (GFM_HCH_CFG_EN n c) == 0 ||
        [0, 1, 2].any (fun k => s.reg (GFM_PAR n (parHch c k)) != s.actReg (GFM_PAR n (parHch c k))))
  let chk := (List.range 12).filter moved
  let off := (List.range 12).filter (fun c => s.fld (GFM_HCH_CFG_EN n c) == 0 && s.actFld (GFM_HCH_CFG_EN n c) == 1)
  let s1 := pars.foldl (fun t p => t.transfer (GFM_PAR n p.idx)) s
  let s2 := s1.forAll 12 (fun c t => t.setActFld (GFM_HCH_CFG_EN n c) (t.fld (GFM_HCH_CFG_EN n c)))
  if (s.stnOf n).st == .running then s2.forEach (chk ++ off) (fun c t => t.hchCheck n c)
  else s2.forEach chk (fun c t =>
    -- outside RUNNING the check is made but the channel does not act (R84)
    let code := if t.grantHarm && t.stnType n == 0 then t.hchRule n c else 0
    if t.grantHarm && t.stnType n == 0 then
      (t.setFld (GFM_HCH_CFG_REFUSE n c) code).setFlagIf (code != 0) (GFM_SBS_FLAGS_HCH_REFUSED n)
    else t)

/-! ### The rows of R78 at a boundary -/

/-- State changes at a period boundary, in the order of R78; the count advances, or restarts with an accepted run
request (R38). -/
def State.stationBoundary (s0 : State) (n : Nat) : State :=
  let s := s0.onStn n (fun u => { u with count := (u.count + 1) % 2 ^ 48 })
  if (s.stnOf n).st == .ready && !(s.stnOf n).tripDue then
    (if s.flag (GFM_CTRL_RUN_REQ n) && s.sen.getLsbD n then s.judgeRun n else s)
  else s.serveRows n

/-- Times of the period that ends at this boundary: the stop factor's, the low-current time, the time on the ride-through
curve and the fall of the bias, which goes on whatever state follows RUNNING (R91, R117, R488). -/
def State.periodTimes (s : State) (n : Nat) : State :=
  let t := s.tPer n
  let im := vmag (s.coreOf n).idq
  s.onStn n (fun u =>
    let low := if im ≤ 1 / 20 then u.lowTime + t else 0
    let stop := if u.st == .stopping then u.stopTime + t else u.stopTime
    let bt := u.start.biasTime + t
    let start := if u.starting || u.idle then u.start
      else { u.start with biasTime := bt, bias := vscale (ratMax 0 (1 - bt / (1 / 10))) u.start.biasAtRun }
    let ride := if u.st == .rideThrough then { u.ride with time := u.ride.time + t } else u.ride
    { u with stopTime := stop, lowTime := low, start := start, ride := ride })

end Sys2Proof.Machine
end

