-- ==== Sys2Proof/Machine/Pulse.lean ====
section
/-! DEFINITION. Pulse generation and the gate block: carrier ticks, pulse levels, overrides, shadow transfers, the filter,
dead time, limiter forces, latches (R112, R113, R167 to R195). -/

namespace Sys2Proof.Machine

/-! ### Carrier -/

/-- Length of a carrier period in ticks. -/
def State.carLen (s : State) (n : Nat) : Nat := s.carrierLen n (s.prdAct n)

/-- The carrier tick k of the moment; 0 while the timebase is stopped (R167, R168, R170). -/
def State.carTick (s : State) (n : Nat) : Nat :=
  let p := s.pwmOf n
  let l := s.carLen n
  if p.run && l != 0 then (p.j * l / s.bpc n + (s.now - p.b0)) % l else 0

/-- Counter value c and slope (true: down) for tick k (R167). -/
def counterAt (updown : Bool) (prd l k : Nat) : Nat × Bool :=
  if !updown || k < prd then (k, false) else (l - 1 - k, true)

/-- The pulse signal of a compare pair at a tick (R172). -/
def pulseOf (updown : Bool) (prd l k a b : Nat) : Bool :=
  let c := counterAt updown prd l k
  let x := if c.2 then b else a
  if x = 0 then false else if prd ≤ x then true else decide (c.1 < x)

/-- The compare level of half-bridge `k` (R171, R172). -/
def State.compareLevel (s : State) (n k : Nat) : Bool :=
  let l := s.carLen n
  let ofs := (s.actReg (PWM_SET_OFS n (s.fld (PWM_HB_CFG_SET n k)))).toNat
  let t := if l = 0 then 0 else (s.carTick n + ofs) % l
  pulseOf (s.flag (PWM_TB_CFG_MODE n)) (s.prdAct n) l t (s.actReg (PWM_CMPA n k)).toNat (s.actReg (PWM_CMPB n k)).toNat

/-- The pulse signal after the override (R175 to R178). -/
def State.pulseLevel (s : State) (n k : Nat) : Bool :=
  match s.fld (PWM_TB_CFG_OVR_MODE n) with
  | 1 =>
    match s.maskAction n k with
    | 1 => false
    | 2 => true
    | _ => s.compareLevel n k
  | 2 =>
    let w := s.actReg (PWM_OVR n)
    let src := if bit w (k / 2) then (if k % 2 = 0 then k + 1 else k - 1) else k
    (s.compareLevel n src) != bit w (16 + k)
  | _ => s.compareLevel n k

/-! ### From the filter to the pins (R184 to R187) -/

/-- Dead time and minimum pulse width in ticks: both are held in 10 ns. -/
def State.dtTicks (s : State) (n : Nat) : Nat := 4 * s.fld (GATE_OTP_DT n)
def State.wMin (s : State) (n : Nat) : Nat := 4 * (s.fld (GATE_OTP_DT n) + s.fld (GATE_OTP_MINP n))

/-- An edge of the filter output: the other switch turns off at once, and this one waits for the dead time. -/
def HalfBridge.edge (h : HalfBridge) (lv : Bool) : HalfBridge :=
  if h.eff then
    if lv then { h with filt := true, gl := false, deadTo := some true }
    else { h with filt := false, gh := false, deadTo := some false }
  else { h with filt := lv }

/-- The effective enable rises: the filter history is the pulse level, and the selected side turns on DT later. -/
def HalfBridge.rise (h : HalfBridge) (lv : Bool) : HalfBridge :=
  let l := h.force.getD lv
  { h with eff := true, raw := l, filt := l, pend := [], deadTo := some l }

/-! ### Latches (R188 to R190) -/

/-- Half-bridge `k` latches a fault with a cause code: pins low, and the first latch of the station since it was last
accepted into READY trips it (R190; log row 107). -/
def State.latchHb (s : State) (n k cause : Nat) : State :=
  if s.fldBit (GATE_LATCH_LATCHED n) k then s
  else
    let s1 := ((s.setFldBit (GATE_LATCH_LATCHED n) k true).setReg (GATE_LCAUSE n)
      (putBits (s.reg (GATE_LCAUSE n)) (2 * k) 2 cause)).onHb n k HalfBridge.dark
    if (s.pwmOf n).latchSeen then s1
    else
      let s2 := s1.setReg (GATE_TRIP n) (BitVec.ofNat 32 (64 + cause * 16 + k))
      let s3 := (s2.count (GATE_CNT_LATCH_CNT n)).onPwm n (fun p => { p with firstLatch := some s.now, latchSeen := true })
      ((s3.logEvent 4 n k cause).chestEvent 6 n (some 4)).tripSoon n 2

/-- Half-bridges whose effective enable has risen start their turn-on; a GF asserted in that tick latches (R187, R188). -/
def State.raiseGates (s : State) (n : Nat) : State :=
  s.forAll 12 (fun k t =>
    let h := t.hbOf n k
    if !h.eff && t.effEnable n k then
      let t1 := t.onHb n k (fun h => h.rise (t.pulseLevel n k))
      if h.gf then t1.latchHb n k 3 else t1
    else t)

/-- Effective enables follow their terms. -/
def State.updGates (s : State) (n : Nat) : State := (s.dropGates n).raiseGates n

/-! ### Hardware limiter (R112 to R114, R185, R192, R193) -/

/-- The limiter forces a half-bridge's pulse signal: counted once a carrier period. Edges in the filter are discarded, and
the forced edge passes through the dead time. -/
def State.forceHb (s : State) (n k : Nat) (lv : Bool) : State :=
  if !(s.stnOf n).enHigh || decide (12 ≤ k) then s
  else
    let s1 := s.onHb n k (fun h =>
      let h1 := { h with force := some lv, pend := [] }
      if h1.filt == lv then h1 else h1.edge lv)
    let s2 := s1.setFlag (GFM_FRT_FLAGS_HWLIM n)
    if (s.pwmOf n).forcedNow then s2
    else (s2.count (GFM_FRT_CNT0_HWLIM_CNT n)).onPwm n (fun p => { p with forcedNow := true })

/-- One window with its hysteresis of 16 codes: 1 above HI, 2 below LO, 0 released (R192). -/
def windowStep (old hi lo code : Nat) : Nat :=
  if hi < code then 1
  else if code < lo then 2
  else if old = 1 ∧ ¬ (code + 16 < hi) then 1
  else if old = 2 ∧ ¬ (lo + 16 < code) then 2
  else 0

/-- The comparator's limit window forces while crossed. -/
def State.limitWindow (s : State) (n c : Nat) : State :=
  if s.flag (GATE_WCMP_CFG_EN n c) && decide (s.fld (GATE_WCMP_LIM_LO n c) < s.fld (GATE_WCMP_LIM_HI n c)) then
    match (s.wcompOf n c).lim with
    | 1 => s.forceHb n (s.fld (GATE_WCMP_CFG_HB n c)) false
    | 2 => s.forceHb n (s.fld (GATE_WCMP_CFG_HB n c)) true
    | _ => s
  else s

/-- The carrier period ends: forces end, and the limiter's consecutive count moves on. -/
def State.carrierEnd (s : State) (n : Nat) : State :=
  let f := (s.pwmOf n).forcedNow
  let s1 := s.forAll 12 (fun k t =>
    match (t.hbOf n k).force with
    | some lv => t.onHb n k (fun h => { h with force := none, raw := lv, pend := [] })
    | none => t)
  (s1.onPwm n (fun p => { p with forcedNow := false, hwlConsec := if f then p.hwlConsec + 1 else 0 })).setFld
    (GFM_FRT_STATUS_HWLIM_ACTIVE n) f.toNat

/-! ### Shadows (R169 to R171, R179 to R183) -/

/-- Addresses of a station's pulse shadows: those that wait for a carrier start, and the others. -/
def pwmSlow (n : Nat) : List Nat := PWM_PRD n :: (List.range 4).map (PWM_SET_OFS n)

def pwmFast (n : Nat) : List Nat :=
  PWM_OVR n :: ((List.range 8).map (PWM_TRG n) ++ (List.range 12).map (PWM_CMPA n) ++ (List.range 12).map (PWM_CMPB n) ++
    (List.range 8).map (PWM_MASK n))

/-- A period or an offset has changed since it last transferred. -/
def State.slowChanged (s : State) (n : Nat) : Bool := (pwmSlow n).any (fun a => s.reg a != s.actReg a)

/-- A changed period or offset waits for a carrier start: in commit mode once it is armed (R180). -/
def State.prdPending (s : State) (n : Nat) : Bool :=
  (s.pwmOf n).run && s.slowChanged n && ((s.pwmOf n).armed || s.flag (PWM_TB_CFG_UPD_MODE n))

/-- Every compare that an enabled half-bridge uses has been written since the previous boundary (R181). -/
def State.allFresh (s : State) (n : Nat) : Bool :=
  let w := (s.pwmOf n).wr
  (List.range 12).all (fun k => !s.fldBit (PWM_HB_EN_EN n) k ||
    (w.contains (PWM_CMPA n k) && (!s.flag (PWM_TB_CFG_MODE n) || w.contains (PWM_CMPB n k))))

def State.transferAll (s : State) (l : List Nat) : State := l.foldl (fun t a => t.transfer a) s

/-- The shadow transfer at a boundary; `cs` says that it is a carrier start, `passed` that the timebase ran up to it. -/
def State.pwmTransfer (s : State) (n : Nat) (cs passed : Bool) : State :=
  let p := s.pwmOf n
  if s.fld (PWM_TB_CFG_UPD_MODE n) = 0 then
    if p.armed then
      if cs || !s.slowChanged n then
        (s.transferAll (pwmSlow n ++ pwmFast n)).onPwm n (fun p => { p with armed := false, wr := [] })
      else s
    else if passed && (s.stnOf n).enHigh then
      (s.setFlag (PWM_FLAGS_NO_ARM n)).count (PWM_CNT_NO_ARM_CNT n)
    else s
  else
    let slow := p.wr.filter (fun a => (pwmSlow n).contains a)
    let fast := p.wr.filter (fun a => !(pwmSlow n).contains a)
    let stay := if cs then [] else slow.filter (fun a => s.reg a != s.actReg a)
    let go := fast ++ slow.filter (fun a => !stay.contains a)
    let split := go.contains (PWM_PRD n) && !s.allFresh n
    let s1 := (s.transferAll go).onPwm n (fun p => { p with wr := stay })
    if split then (s1.setFlag (PWM_FLAGS_SPLIT_UPDATE n)).count (PWM_CNT_SPLIT_CNT n) else s1

/-- Whether a period word is allowed for a mode and number of boundaries (R169). -/
def prdAllowed (updown : Bool) (bpc prd : Nat) : Bool :=
  let l := if updown then 2 * prd else prd
  decide (2000 ≤ l ∧ l ≤ 400000 ∧ l % bpc = 0 ∧ 1000 * bpc ≤ l ∧ l ≤ 40000 * bpc)

/-- The value checks of a write to a pulse shadow (R169, R171). PRD 0 stops the timebase and is accepted. -/
def State.pwmValueOk (s : State) (n a : Nat) (w : Word) : Bool :=
  let up := s.flag (PWM_TB_CFG_MODE n)
  if a = PWM_PRD n then
    w == 0 || (prdAllowed up (s.bpc n) w.toNat &&
      (List.range 4).all (fun j => decide ((s.reg (PWM_SET_OFS n j)).toNat < s.carrierLen n w.toNat)))
  else if (pwmSlow n).contains a then
    w == 0 || decide (w.toNat < s.carrierLen n (s.reg (PWM_PRD n)).toNat)
  else true

end Sys2Proof.Machine
end

