-- ==== Sys2Proof/Machine/Trestle.lean ====
section
/-! DEFINITION. The Trestle engines: the two engines and their images, swaps, the loops of a period, input words and their
loss, overruns (R128 to R166). -/

namespace Sys2Proof.Machine

/-! ### The two engines (R315, R316) -/

/-- Engines whose windows exist: both with ENGINE_B, else Engine A (R9). -/
def State.engines (s : State) : List Nat := if s.grantB then [0, 1] else [0]

/-- State code of the standby engine, and whether it has stopped on an internal error. -/
def State.standbyState (s : State) : Nat := if s.red.active = 0 then s.red.stB else s.red.stA
def State.standbyDead (s : State) : Bool := if s.red.active = 0 then s.red.deadB else s.red.deadA

/-- The standby engine is in STANDBY or SYNCING. -/
def State.standbyUp (s : State) : Bool := s.grantB && (s.standbyState == 2 || s.standbyState == 3)

/-- The standby engine runs its privileged loops, and answers on the private link. -/
def State.standbyRuns (s : State) : Bool := s.standbyUp && !s.standbyDead

/-- The active engine runs: its state is ACTIVE and no internal error has stopped it. -/
def State.activeUp (s : State) : Bool :=
  if s.red.active = 0 then s.red.stA == 1 && !s.red.deadA else s.red.stB == 1 && !s.red.deadB

/-- Engine `e` in the place of the active one. -/
def RedUnit.flip (r : RedUnit) : RedUnit := { r with active := if r.active = 0 then 1 else 0 }

/-- The state as the standby engine runs it on station `n`: its own committed state and its own data memory. -/
def State.asStandby (s : State) (n : Nat) : State := { s.onStn n (fun u => u.withEng u.sby) with red := s.red.flip }

/-- Keep of `t`, which the standby engine has reached from `s.asStandby n`, the committed state of the station alone. -/
def State.keepStandby (s t : State) (n : Nat) : State := s.onStn n (fun u => { u with sby := (t.stnOf n).eng })

/-- A number put into a signal on both engines. -/
def State.putBothVar (s : State) (n k : Nat) (x : Rat) (v : Var) : State :=
  let s1 := s.putVar n k x v
  s1.keepStandby ((s1.asStandby n).putVar n k x v) n

/-! ### Banks -/

def State.banksOf (s : State) (e : Nat) : Banks := if e = 0 then s.banksA else s.banksB

def State.onBanks (s : State) (e : Nat) (f : Banks → Banks) : State :=
  if e = 0 then { s with banksA := f s.banksA } else { s with banksB := f s.banksB }

def Banks.act (b : Banks) : Option Image := if b.active then b.bank1 else b.bank0
def Banks.shd (b : Banks) : Option Image := if b.active then b.bank0 else b.bank1

/-- Some station has not yet switched (R136). -/
def State.swapping (s : State) : Bool := (List.range 4).any (fun n => (s.stnOf n).swapPending)

/-- The image a station runs: during a swap a station that has switched runs the new one. -/
def State.imageOf (s : State) (n : Nat) : Option Image :=
  let b := s.banksOf s.activeEng
  if s.swapping && !(s.stnOf n).swapPending then b.shd else b.act

/-- Loop `k` of an image, where it exists. -/
def imageLoop (i : Image) (k : Nat) : Option LoopDesc := i.body.loops[k]?

def loopOf (i : Option Image) (n k : Nat) : Option LoopDesc :=
  match i with
  | some x => match imageLoop x k with
    | some d => if d.station = n then some d else none
    | none => none
  | none => none

/-- The loop `k` of station `n` in the image it runs. -/
def State.stnLoop (s : State) (n k : Nat) : Option LoopDesc := loopOf (s.imageOf n) n k

/-- Loops that run in this period, lowest first (R130): none of a new image in the period of its switch (R139), only the
privileged ones where the ACTIVE role has changed in it (R330). -/
def State.dueLoops (s : State) (n : Nat) : List Nat :=
  let u := s.stnOf n
  (List.range 64).filter (fun k =>
    match s.stnLoop n k with
    | some d => !u.per.switched && (d.priv || !u.per.taken) && decide (d.rate ≠ 0 ∧ u.count % d.rate = d.phase)
    | none => false)

/-- Loops of the period that have not finished. -/
def State.openLoops (s : State) (n : Nat) : List Nat :=
  (s.dueLoops n).filter (fun k => !(s.stnOf n).per.loopsDone.getLsbD k)

/-! ### Costs and deadlines (R151, R153) -/

def copyBytesOf (i : Option Image) (n : Nat) : Nat := match i with | some x => x.copyBytes.getD n 0 | none => 0
def costOf (i : Option Image) (n : Nat) : Nat := match i with | some x => x.cost.getD n 0 | none => 0

/-- t_copy in control cycles of 1.25 ns; 0 without ENGINE_B. -/
def State.copyCycles (s : State) (n : Nat) : Nat :=
  if s.grantB then
    let b := copyBytesOf (s.imageOf n) n
    let m := ((List.range 4).filter (fun o => o != n)).foldl (fun m o => max m (copyBytesOf (s.imageOf o) o)) 0
    32 + b / 4 + m / 4
  else 0

/-- TRS_DEADLINE: whole nanoseconds after the boundary, truncated (R153). Times in eighths of a nanosecond. -/
def State.deadlineNs (s : State) (n : Nat) : Nat :=
  (s.periodTicks n * 20 - (70 + s.copyCycles n * 10 + 345)) / 8

/-! ### Set-point words and constants (R128, R150) -/

/-- Set-point words of the privileged loops of an image, in the order of the loop table: station and signal (log row 94). -/
def setPointWords (i : Image) : List (Nat × Var) :=
  (i.body.loops.filter (fun d => d.priv)).flatMap (fun d => d.setPoints.map (fun v => (d.station, v)))

/-- Word number of the first set-point word in data memory: they stand behind the constants. -/
def setPointBase (i : Image) : Nat := 0xE800 + i.body.consts.length

/-- Write words into the data memory of every engine. -/
def State.fillDmem (s : State) (w : Nat) (ws : List Word) : State :=
  s.engines.foldl (fun t e => (ws.foldl (fun (a : State × Nat) x => (a.1.setDmem e a.2 x, a.2 + 1)) (t, w)).1) s

/-- The constants of the active image, and set-point words that nothing has been sent to yet. -/
def State.loadConsts (s : State) : State :=
  match (s.banksOf s.activeEng).act with
  | some i => s.fillDmem 0xE800 (i.body.consts ++ (setPointWords i).map (fun _ => 0))
  | none => s

/-- Signals that a block commits. -/
def blockWrites : Block → List Var
  | .inputScaling l => l.map (fun e => e.dst)
  | .envelope => [.hEff, .mpEff]
  | .governor => [.pGov, .isoInt]
  | .excitation => [.emf, .vInt]
  | .damping => [.omegaF]
  | .power => [.pMeas, .qMeas, .pF, .qF]
  | .speed => [.omega]
  | .angle | .syncAngle _ => [.theta]
  | .abcDq .. => [.vD, .vQ, .iD, .iQ, .vdc]
  | .curLimit => [.dz, .rvEff, .xvEff]
  | .virtImp => [.vRefD, .vRefQ]
  | .harmonic c => [.vRefD, .vRefQ, .hch c false, .hch c true]
  | .voltageLoop .. => [.iRawD, .iRawQ, .iRefD, .iRefQ]
  | .currentLoop _ v _ _ | .clarke _ v | .park _ v | .abcDqOf _ v | .feedForward v | .decouple _ v | .piDq _ _ _ v _ _
  | .vecLimit _ _ v => [v.d, v.q]
  | .dqAbc _ v | .fluxBias v | .modulation _ _ v => [v.a, v.b, v.c]
  | .piScalar _ _ v _ _ | .powerClamp _ v | .scalarClamp _ v _ _ | .rateLimit _ v _ | .lowPass _ v _ | .resonant _ v _
  | .friction _ _ _ v _ => [v]
  | .position _ p w => [p, w]
  | .modulate .. | .compareWrite _ | .snapList _ => []

/-- Half-bridges whose compares a block writes. -/
def blockCompares : Block → List Nat
  | .modulate _ hbs => hbs
  | .compareWrite l => l.map (fun e => e.1)
  | _ => []

/-- Numbers of the set-point words of an image that a loop's commit gives new values to. -/
def sentWords (i : Image) (d : LoopDesc) : List (Nat × Var) :=
  let ws := d.blocks.flatMap blockWrites
  ((List.range (setPointWords i).length).zip (setPointWords i)).filterMap (fun e =>
    if e.2.1 = d.station ∧ ws.contains e.2.2 then some (setPointBase i + e.1, e.2.2) else none)

/-- The commit of a loop that is not privileged sends its set-point words to the standby (R150). -/
def State.sendSetPoints (s : State) (n k : Nat) (d : LoopDesc) : State :=
  match s.imageOf n with
  | some i =>
    if s.standbyRuns then
      (sentWords i d).foldl (fun t e =>
        let x := t.getVar n k e.2
        (t.keepStandby ((t.asStandby n).putVar n k x e.2) n).setDmem t.red.flip.active.val e.1 (f32OfRat x)) s
    else s
  | none => s

/-- A privileged loop awaits a word of this period: a loop of a lower number that writes one of its set-points is due and
has not committed (R150, R324). -/
def State.awaitsWord (s : State) (n k : Nat) : Bool :=
  match s.stnLoop n k with
  | some d => (s.openLoops n).any (fun o => decide (o < k) &&
      match s.stnLoop n o with
      | some w => !w.priv && (w.blocks.flatMap blockWrites).any (fun v => d.setPoints.contains v)
      | none => false)
  | none => false

/-! ### Bank switch of a station (R136, R139, R140) -/

/-- The configuration word of a loop of an image. -/
def loopCfgWord (d : LoopDesc) : Word :=
  BitVec.ofNat 32 (d.gslot % 64 * 2 ^ 26 + d.gtab.toNat * 2 ^ 25 + d.priv.toNat * 2 ^ 24 + (d.rate - 1) % 1024 * 2 ^ 14 +
    d.phase % 1024 * 16 + d.station % 4 * 4 + 1)

/-- The loop registers take the values of an image's loop (R140). -/
def State.loadLoopRegs (s : State) (k : Nat) (d : LoopDesc) : State :=
  ((((s.setBoth (TRS_LOOP_CFG k) (loopCfgWord d)).setBoth (TRS_LOOP_KP k) d.kp).setBoth (TRS_LOOP_KI k) d.ki).setBoth
    (TRS_LOOP_EMIN k) d.emin).setBoth (TRS_LOOP_EMAX k) d.emax

def State.clearLoopRegs (s : State) (k : Nat) : State :=
  ((((s.setBoth (TRS_LOOP_CFG k) 0).setBoth (TRS_LOOP_KP k) 0).setBoth (TRS_LOOP_KI k) 0).setBoth
    (TRS_LOOP_EMIN k) 0).setBoth (TRS_LOOP_EMAX k) 0

/-- Addresses of loop `k`'s shadowed registers. -/
def loopShadows (k : Nat) : List Nat :=
  [TRS_LOOP_CFG k, TRS_LOOP_KP k, TRS_LOOP_KI k, TRS_LOOP_EMIN k, TRS_LOOP_EMAX k]

/-- A shadowed write of the loop's registers is pending. -/
def State.loopPending (s : State) (k : Nat) : Bool := (loopShadows k).any (fun a => s.reg a != s.actReg a)

/-- A flag in the window of every engine. -/
def State.flagEngines (s : State) (f : Nat → Fld) : State := s.engines.foldl (fun t e => t.setFlag (f e)) s

/-- A loop of the new image: the state of the loop of the old one with the same number, station and layout hash stays;
any other starts from zero, on both engines (R138, R139). -/
def State.takeLoop (s : State) (n k : Nat) (old : Option LoopDesc) (d : LoopDesc) : State :=
  let keep := match old with | some o => o.hash == d.hash | none => false
  let s1 := if keep then s else (d.layout.foldl (fun t v => t.putBothVar n k 0 v) s).flagEngines TRS_FLAGS_STATE_RESET
  s1.loadLoopRegs k d

/-- When no station is left to switch, the old bank becomes the shadow bank (R136). -/
def State.finishSwap (s : State) : State :=
  if s.swapping then s
  else (s.engines.foldl (fun t e => t.onBanks e (fun b => { b with active := !b.active, shdValid := false })) s).loadConsts

/-- A station with a pending swap switches to the new bank. -/
def State.switchBank (s : State) (n : Nat) : State :=
  if (s.stnOf n).swapPending then
    let b := s.banksOf s.activeEng
    let old := b.act
    let new := b.shd
    let mine := (List.range 64).filter (fun k => (loopOf old n k).isSome || (loopOf new n k).isSome)
    let s1 := if mine.any (fun k => (loopOf old n k).isSome && s.loopPending k) then s.flagEngines TRS_FLAGS_PEND_DISCARD
      else s
    let s2 := s1.forEach mine (fun k t =>
      match loopOf new n k with
      | some d => t.takeLoop n k (loopOf old n k) d
      | none => if t.fld (TRS_LOOP_CFG_STATION k) = n then t.clearLoopRegs k else t)
    (s2.onStn n (fun u => { u with swapPending := false })).finishSwap
  else s

/-- A TRS_TABLE_WRITE that runs is filling gain slot `g` (R145). -/
def State.filling (s : State) (g : Nat) : Bool :=
  s.mbx.started.any (fun i => (s.slotOf i).running && (s.slotOf i).units.contains (.gainSlot g))

/-- The configuration of loop `k` comes into force; a GSLOT that names a slot being filled waits (R145, R164). -/
def State.transferCfg (s : State) (k : Nat) : State :=
  let g := TRS_LOOP_CFG_GSLOT k
  if s.filling (s.fld g) then s.setAct (TRS_LOOP_CFG k) (putBits (s.reg (TRS_LOOP_CFG k)) g.lo g.w (s.actFld g))
  else s.transfer (TRS_LOOP_CFG k)

/-- Loop registers of the station's loops come into force at its boundary (R145, R166). -/
def State.transferLoops (s : State) (n : Nat) : State :=
  let mine := (List.range 64).filter (fun k => (s.stnLoop n k).isSome)
  s.forEach mine (fun k t =>
    [TRS_LOOP_KP k, TRS_LOOP_KI k, TRS_LOOP_EMIN k, TRS_LOOP_EMAX k].foldl (fun t a => t.transfer a) (t.transferCfg k))

/-! ### Swap requests (R136 to R138) -/

/-- The reason a swap is refused, 0 for none (R137). -/
def State.swapRefusal (s : State) (e : Nat) : Nat :=
  let id (b : Banks) : Nat := match b.shd with | some i => i.id.toNat | none => 0
  if !(s.banksOf e).shdValid then 1
  else if s.grantB && id s.banksA != id s.banksB then 2
  else if s.swapping then 3
  else if s.red.failing || (s.grantB && s.red.returning) then 4
  else 0

/-- A station's work in the period is over, and it no longer waits for the engine. -/
def State.leaveService (s : State) (n : Nat) : State :=
  { s with
    serving := if s.serving = some (Fin.ofNat 4 n) then none else s.serving
    ready := s.ready.filter (fun e => e.2 != n) }

/-- An idle station switches in the cycle after the request; the new image runs from its next period on (R136, R139; log row
102). -/
def State.switchIdle (s : State) (n : Nat) : State :=
  let s1 := s.switchBank n
  if (s.pwmOf n).run then (s1.onPer n (fun p => { p with switched := true, finished := true })).leaveService n else s1

def State.requestSwap (s : State) (e : Nat) : State :=
  match s.swapRefusal e with
  | 0 =>
    let s1 := s.forAll 4 (fun n t => t.onStn n (fun u => { u with swapPending := true }))
    s1.forAll 4 (fun n t => if t.stnIdle n then t.switchIdle n else t)
  | r => (s.setFlag (TRS_FLAGS_SWAP_REFUSED e)).setFld TRS_BANK_SWAP_REFUSE_REASON r

/-! ### Input words (R155, R158 to R161, R202) -/

/-- The list is complete: every enabled SAR entry has arrived (R155). -/
def State.listComplete (s : State) (n : Nat) : Bool :=
  (List.range 64).all (fun i =>
    let e := slotNo n i
    !s.flag (TRS_IN_CFG_EN e) || s.fld (TRS_IN_CFG_SRC_TYPE e) != 0 || (s.stnOf n).per.got.getLsbD i)

/-- A completion takes its place among those that wait: by its tick, and within a tick by station number (R132). -/
def readyInsert (l : List (Nat × Nat)) (t n : Nat) : List (Nat × Nat) :=
  let first (e : Nat × Nat) : Bool := decide (e.1 < t) || (e.1 == t && decide (e.2 < n))
  l.filter first ++ (t, n) :: l.filter (fun e => !first e)

/-- A station whose list is complete waits for the engine; one whose list no longer is does not (R132). -/
def State.noteReady (s : State) (n : Nat) : State :=
  let p := (s.stnOf n).per
  if (s.pwmOf n).run && !p.started && !p.finished && s.listComplete n then
    if s.ready.any (fun e => e.2 == n) then s else { s with ready := readyInsert s.ready s.now n }
  else { s with ready := s.ready.filter (fun e => e.2 != n) }

/-- Slot `i` names a sigma-delta stream without transitions, or an aggregate of a port whose AGG_STALE is 1: the loss
conditions that last (R158, R218, R255). -/
def State.sourceStale (s : State) (n i : Nat) : Bool :=
  let e := slotNo n i
  let x := s.fld (TRS_IN_CFG_SRC_INDEX e)
  s.flag (TRS_IN_CFG_EN e) &&
    match s.fld (TRS_IN_CFG_SRC_TYPE e) with
    | 1 => decide (x < 64) && (s.fld (SDM_NOTRANS_NOTRANS (x / 32))).testBit (x % 32)
    | 3 => decide (x < 512) && decide (x % 8 ≤ 4) && s.flag (SHF_AGG7_AGG_STALE (x / 8))
    | _ => false

/-- A NOISY entry has shown one bit pattern in N_FREEZE samples in a row (R158). -/
def State.frozen (s : State) (n i same : Nat) : Bool :=
  s.flag (TRS_IN_CFG_NOISY (slotNo n i)) && decide (s.fld (TRS_IN_CFG_N_FREEZE (slotNo n i)) ≤ same)

/-- What the input hardware notes of a sample: the run of equal ones, and for a lost entry the run of samples in which no
condition of R158 held and whether their value has changed (R158, R161). -/
def State.watchSample (s : State) (n i : Nat) (w : Word) : State :=
  s.onInp n i (fun x =>
    let same := if x.same ≠ 0 ∧ w = x.last then x.same + 1 else 1
    let ok := x.lost && !s.frozen n i same && !s.sourceStale n i
    { x with last := w, same := same, good := if ok then x.good + 1 else 0, changed := ok && (x.changed || w != x.last) })

/-- A word arrives for slot `i` of station `n`: it goes to the input buffers of both engines, unless the input is lost
(then the buffer keeps its last word). A SAR entry counts as arrived in this period. -/
def State.deliver (s : State) (n i : Nat) (w : Word) : State :=
  let sar := s.fld (TRS_IN_CFG_SRC_TYPE (slotNo n i)) == 0
  let s1 := s.watchSample n i w
  let s2 := if sar then (s1.onPer n (fun p => { p with got := p.got ||| BitVec.ofNat 64 (2 ^ i) })).noteReady n else s1
  if (s.inpOf n i).lost then s2
  else s.engines.foldl (fun t e => t.setDmem e (0xE000 + n * 512 + i) w) (s2.onInp n i (fun x => { x with value := w }))

/-- Deliver a word to every station whose list names a source. -/
def State.deliverAll (s : State) (srcType srcIndex : Nat) (w : Word) : State :=
  (List.range 256).foldl (fun t e =>
    if t.flag (TRS_IN_CFG_EN e) && t.fld (TRS_IN_CFG_SRC_TYPE e) == srcType && t.fld (TRS_IN_CFG_SRC_INDEX e) == srcIndex
    then t.deliver (e / 64) (e % 64) w else t) s

/-- Step 2 finds the latest internal values in the buffer: the manual names none of them, so each is a free value (R155,
R255; log row 95). -/
def State.internalInputs (s : State) (n : Nat) : State :=
  (List.range 64).foldl (fun t i =>
    let e := slotNo n i
    let x := t.fld (TRS_IN_CFG_SRC_INDEX e)
    if t.flag (TRS_IN_CFG_EN e) && t.fld (TRS_IN_CFG_SRC_TYPE e) == 3 && decide (512 ≤ x) then
      (t.deliver n i (Config.internalWord x t.draws)).draw
    else t) s

/-- A voltage input of the station is lost. -/
def State.voltageLost (s : State) (n : Nat) : Bool :=
  (List.range 64).any (fun i => (s.inpOf n i).lost && s.fld (TRS_IN_CFG_CLASS (slotNo n i)) == 2)

/-- OPEN_LOOP_V is entered; with T_OLV = 0 the station trips in the same period (R159, R160). -/
def State.enterOpenLoop (s : State) (n : Nat) : State :=
  if s.par n parT_OLV = 0 then s.tripNow n 0x0A
  else ((s.noteTurn n 10 .openLoopV).setSt n .openLoopV).onStn n (fun u => { u with olvBack := false })

/-- The state that a loss is judged in: the one in which the period found the station (R78, R159). -/
def Stn.stBefore (u : Stn) : StnState :=
  match u.turn with
  | some t => t.st
  | none => u.stHere

/-- The reaction to a lost input by class, type and state (R159). A change under a higher row of R78 in the same period
keeps its place before OPEN_LOOP_V. -/
def State.lossReaction (s : State) (n cls : Nat) : State :=
  let u := s.stnOf n
  let ac := s.stnType n == 0
  if !u.highHere then s
  else match cls with
    | 1 => s.tripNow n 4
    | 2 =>
      if ac && u.stBefore == .running then
        (if s.par n parT_OLV = 0 || (u.st == .running && u.turn.isNone) then s.enterOpenLoop n
        else s.onStn n (fun u => { u with olvBack := false }))
      else if ac && u.stBefore == .openLoopV then s.onStn n (fun u => { u with olvBack := false })
      else s.tripNow n 0x0A
    | 3 => if s.stnType n = 1 then s.tripNow n 5 else s
    | _ => s

/-- Slot `i` of station `n` is lost (R158): its bit, the flag of its class, and the reaction. -/
def State.loseInput (s : State) (n i : Nat) : State :=
  let e := slotNo n i
  if !s.flag (TRS_IN_CFG_EN e) || (s.inpOf n i).lost then s
  else
    let cls := s.fld (TRS_IN_CFG_CLASS e)
    let fl (g : Nat) : Fld := match cls with
      | 1 => TRS_FLAGS_FB_LOST_CURRENT g
      | 2 => TRS_FLAGS_FB_LOST_VOLTAGE g
      | 3 => TRS_FLAGS_FB_LOST_POSITION g
      | _ => TRS_FLAGS_FB_LOST_OTHER g
    let s1 := s.onInp n i (fun x => { x with lost := true, good := 0, changed := false })
    let s2 := s.engines.foldl (fun t g => (t.setFldBit (TRS_FB_LOST_LOST g n (i / 32)) (i % 32) true).setFlag (fl g)) s1
    s2.lossReaction n cls

/-- Lose every entry that names a source. -/
def State.loseSource (s : State) (srcType srcIndex : Nat) : State :=
  (List.range 256).foldl (fun t e =>
    if t.flag (TRS_IN_CFG_EN e) && t.fld (TRS_IN_CFG_SRC_TYPE e) == srcType && t.fld (TRS_IN_CFG_SRC_INDEX e) == srcIndex
    then t.loseInput (e / 64) (e % 64) else t) s

/-- Step 2 of a period finds the inputs whose sources are stale (R158, R255). -/
def State.staleInputs (s : State) (n : Nat) : State :=
  (List.range 64).foldl (fun t i => if t.sourceStale n i then t.loseInput n i else t) s

/-- The loss bit of a slot clears. -/
def State.clearLoss (s : State) (n i : Nat) : State :=
  s.engines.foldl (fun t g => t.setFldBit (TRS_FB_LOST_LOST g n (i / 32)) (i % 32) false)
    (s.onInp n i (fun x => { x with lost := false, good := 0, changed := false }))

/-- Slot `i` of station `n` has shown 64 good samples in a row that changed at least once, and none of the lasting
conditions of R158 holds (R161). -/
def State.restorable (s : State) (n i : Nat) : Bool :=
  let x := s.inpOf n i
  x.lost && decide (64 ≤ x.good) && x.changed && !s.sourceStale n i

/-- Slot `i` of station `n` is restored; the station returns from OPEN_LOOP_V at its next boundary (R161, R489). -/
def State.restoreInput (s : State) (n i : Nat) : State :=
  if s.restorable n i then
    let s1 := (s.clearLoss n i).flagEngines TRS_FLAGS_FB_RESTORED
    if (s.stnOf n).st == .openLoopV && !s1.voltageLost n then
      (s1.onStn n (fun u => { u with olvBack := true })).settleStopped n
    else s1
  else s

/-! ### A station's work in a period (R29, R88, R96, R116 to R118, R131, R132, R154 to R157) -/

/-- Checks of a start made when its work begins: inputs assigned, breaker as the phase requires (R88, R96). -/
def State.startChecks (s : State) (n : Nat) : State :=
  let u := s.stnOf n
  match u.st with
  | .deadBusStart => if (s.brkInput n).isSome && !s.brkClosed n then s.failStart n 5 else s
  | .synchronising =>
    if u.start.phase == .busCheck && !u.start.thetaSet then
      if !s.busInput n then s.failStart n 7
      else if (s.brkInput n).isNone then s.failStart n 6
      else if s.brkClosed n then s.failStart n 5
      else s
    else s
  | _ => s

/-- The ride-through curve at a time in RIDE_THROUGH (R117). -/
def State.vCurve (s : State) (n : Nat) (t : Rat) : Rat :=
  let t0 := s.par n parT_RT0
  if t ≤ t0 then 0 else s.par n parV_RT * (t - t0) / (s.par n parT_RT1 - t0)

/-- One evaluation of a condition, dt after the one before: the time since the first evaluation in a row that found it. -/
def heldFor (on : Bool) (old : Option Rat) (dt : Rat) : Option Rat :=
  if on then some (match old with | some t => t + dt | none => 0) else none

/-- A condition has been found for a time. -/
def reached (x : Option Rat) (t : Rat) : Bool := match x with | some y => decide (t ≤ y) | none => false
def exceeded (x : Option Rat) (t : Rat) : Bool := match x with | some y => decide (t < y) | none => false

/-- What R88 and R116 to R118 read of |v| and ω at a voltage-loop execution. -/
def State.watchVoltage (s : State) (n : Nat) : State :=
  let dt := s.dtV n
  s.onStn n (fun u =>
    let vm := vmag u.core.vdq
    let vLog := (vm :: u.ride.vLog).take (s.cycleLen n dt)
    let vc := meanOf vLog
    let w := u.core.omega
    let ok := decide (s.par n parV_RT + s.par n parV_RT_HYS ≤ vm)
    let tr := s.par n parV_TRANS
    let r : Ride :=
      if s.stnType n == 0 && (u.st == .running || u.st == .limiting) then
        { u.ride with
          vPerm := heldFor (decide (vc < 1 - s.par n parV_LO_PERM) || decide (1 + s.par n parV_HI_PERM < vc)) u.ride.vPerm dt,
          vHigh := heldFor (decide (1 + tr < vc)) u.ride.vHigh dt, vLow := heldFor (decide (vc < 1 - tr)) u.ride.vLow dt,
          fPerm := heldFor (decide (s.par n parF_PERM < ratAbs (w - 1))) u.ride.fPerm dt,
          fTrans := decide (s.par n parF_TRANS < ratAbs (w - 1)) }
      else if u.st == .rideThrough then { u.ride with below := heldFor (decide (vm < s.vCurve n u.ride.time)) u.ride.below dt }
      else u.ride
    { u with
      ride := { r with vLog := vLog }
      start := { u.start with deadOk := decide (vm < s.par n parV_DEAD) }
      lim := { u.lim with vOk := ok, vOkTime := if ok && u.lim.vOk then u.lim.vOkTime + dt else 0 } })

/-- RIDE_THROUGH is entered: a new curve begins, and the window timers clear (R116 to R118). -/
def State.enterRide (s0 : State) (n : Nat) : State :=
  let s := s0.undoTurn n
  if (s.stnOf n).st == .rideThrough then s
  else
    ((((s.noteTurn n 8 .rideThrough).setSt n .rideThrough).onStn n (fun u =>
      { u with ride := { vLog := u.ride.vLog } })).setFlag (GFM_FRT_FLAGS_RT_ENTERED n)).count (GFM_FRT_CNT1_RT_EPISODE_CNT n)

/-- LIMITING is entered under a row of R78 (R116). -/
def State.enterLimiting (s : State) (n row : Nat) : State :=
  ((((s.noteTurn n row .limiting).setSt n .limiting).onLim n (fun l => { l with calm := false, calmTime := 0 })).setFlag
    (GFM_FRT_FLAGS_LIMITED n)).count (GFM_FRT_CNT0_LIM_EPISODE_CNT n)

/-- The checks of a voltage-loop execution: entry to RIDE_THROUGH, which in the period of a change to OPEN_LOOP_V takes its
place (R78, R94, R116, R119). -/
def State.voltageChecks (s0 : State) (n : Nat) : State :=
  let s := s0.watchVoltage n
  let u := s.stnOf n
  let st := if u.st == .openLoopV && u.turn.isSome then .running else u.st
  if s.stnType n == 0 && (st == .running || st == .limiting) && decide (vmag u.core.vdq < s.par n parV_RT) &&
      (u.st == .limiting || s.mayTurn n 8) then s.enterRide n
  else s

/-- The end of a period's work: the time without limiting, and entry to LIMITING (R110, R116). -/
def State.limitChecks (s0 : State) (n : Nat) : State :=
  let s := s0.onStn n (fun u =>
    let l := { u.lim with clampActing := u.per.clamped }
    let calm := !{ u with lim := l }.limitingNow
    { u with lim := { l with calm := calm, calmTime := if calm then u.lim.calmTime + s0.tPer n else 0 } })
  if s.stnType n == 0 && (s.stnOf n).st == .running && (s.stnOf n).limitingNow && s.mayTurn n 8 then s.enterLimiting n 8
  else s

def isVoltageBlock : Block → Bool
  | .power | .voltageLoop .. | .virtImp => true
  | _ => false

/-- The work of the period has ended: the engine is free, and a state copy is due (R318). A station without block 9 counts
LIM_TIME here (R120). -/
def State.finishWork (s : State) (n : Nat) : State :=
  let s1 := (s.onPer n (fun p => { p with finished := true, copyDue := s.standbyUp })).leaveService n
  (if s.stnType n = 0 then s1 else s1.countLimTime n).limitChecks n

/-- The engine starts a station's work: the first of those that wait, once no other station is served (R132). -/
def State.startWork (s : State) (n : Nat) : State :=
  let p := (s.stnOf n).per
  if !(s.pwmOf n).run || p.started || p.finished || !s.activeUp || s.serving.isSome ||
      s.ready.head?.map (fun e => e.2) != some n then s
  else
    let s1 := s.onPer n (fun p => { p with started := true })
    let s2 : State := { s1 with serving := some (Fin.ofNat 4 n), ready := s.ready.tail }
    let s3 := (s2.internalInputs n).startChecks n
    let s4 := if s3.stnType n = 0 then s3 else s3.blkCeiling n
    if (s4.openLoops n).isEmpty then s4.finishWork n else s4

/-- CRC-32C over the outputs of a loop: its compare words and the set-point words that it writes, each in address order
(R321; log row 110). -/
def State.outputCheck (s : State) (n k : Nat) (d : LoopDesc) : Word :=
  let hbs := (List.range 12).filter (fun h => (d.blocks.flatMap blockCompares).contains h)
  let sp := match s.imageOf n with | some i => (sentWords i d).map (fun e => f32OfRat (s.getVar n k e.2)) | none => []
  crc32c ((hbs.map (fun h => s.reg (PWM_CMPA n h)) ++ hbs.map (fun h => s.reg (PWM_CMPB n h)) ++ sp).flatMap leBytes)

/-- A privileged loop runs on the standby as well, on the standby's own committed state; `t` is what the active engine has
reached. Both check values are kept for the comparison (R149, R321). -/
def State.runBoth (s t : State) (n k : Nat) (dt : Rat) (d : LoopDesc) : State :=
  if s.standbyRuns then
    let r := (s.asStandby n).runLoop n k dt d.blocks
    (t.keepStandby r n).onPer n (fun p =>
      { p with sbyRan := p.sbyRan ||| BitVec.ofNat 64 (2 ^ k), outs := p.outs ++ [(k, t.outputCheck n k d, r.outputCheck n k d)] })
  else t

/-- TRS_EXEC_MAX of an engine takes the finish of a loop: a control cycle after the boundary, in ns rounded up (R153). -/
def State.noteFinish (s : State) (e n cycles : Nat) : State :=
  if s.fld (TRS_EXEC_MAX_NS e n) < (cycles * 5 + 3) / 4 then s.setFld (TRS_EXEC_MAX_NS e n) ((cycles * 5 + 3) / 4) else s

/-- A loop of the station finishes: it commits, and the last one ends the work (R131, R153). `cycles` is the control
cycle after the boundary in which it finishes, `standby` that in which the standby finishes a privileged loop (R150). -/
def State.completeLoop (s : State) (n k cycles standby : Nat) : State :=
  match s.stnLoop n k with
  | none => s
  | some d =>
    if !s.activeUp ∨ s.serving ≠ some (Fin.ofNat 4 n) ∨ (s.openLoops n).head? ≠ some k then s
    else
      let dt := (d.rate : Rat) * s.tPer n
      let s1 := s.runLoop n k dt d.blocks
      let s2 := if d.priv then s.runBoth s1 n k dt d else s1.sendSetPoints n k d
      let s3 := s2.onPer n (fun p => { p with loopsDone := p.loopsDone ||| BitVec.ofNat 64 (2 ^ k) })
      let s4 := if d.blocks.any isVoltageBlock && s3.rateFalls n 1 then s3.voltageChecks n else s3
      let s5 := s4.noteFinish s.activeEng n cycles
      let s6 := if d.priv && s.standbyRuns then s5.noteFinish (1 - s.activeEng) n standby else s5
      if (s6.openLoops n).isEmpty then s6.finishWork n else s6

/-- The execution deadline (R154, R155, R157): unfinished work is an overrun; a silent engine reports nothing (R322). -/
def State.deadline (s : State) (n : Nat) : State :=
  let e := s.activeEng
  let p := (s.stnOf n).per
  if !s.activeUp || !(s.pwmOf n).run then s
  else
    let late := !s.listComplete n && !p.started
    if late || !(s.openLoops n).isEmpty then
      let first := (s.openLoops n).headD 0
      let c := min 3 (s.fld (TRS_OVR_STAT_CONSEC e n) + 1)
      let s1 := ((s.setFld (TRS_OVR_STAT_FIRST_LOOP e n) first).count (TRS_CNT_OVERRUN_CNT e n)).setFlag (TRS_FLAGS_OVERRUN e)
      let s2 := if late then (s1.setFlag (TRS_FLAGS_INPUT_LATE e)).count (TRS_OVR_STAT_INPUT_LATE_CNT e n) else s1
      let third := c == 3 && s.fld (TRS_OVR_STAT_CONSEC e n) != 3
      let s3 := ((s2.setFld (TRS_OVR_STAT_CONSEC e n) c).onPer n (fun p =>
        { p with overran := true, late := late, finished := true, copyDue := s.standbyUp })).leaveService n
      if third then s3.tripNow n 6 else s3
    else ((s.setFld (TRS_OVR_STAT_CONSEC e n) 0).onPer n (fun p => { p with finished := true })).leaveService n

/-! ### Data memory as a read sees it (R128, R148) -/

/-- A loop-state word of an image: the loop and the signal that the word holds (log row 20). -/
def stateWordOf (i : Option Image) (w : Nat) : Option (Nat × LoopDesc × Var) :=
  match i with
  | none => none
  | some x =>
    (List.range x.body.loops.length).findSome? (fun k =>
      match imageLoop x k with
      | some d => if d.stateOfs / 4 ≤ w then (d.layout[w - d.stateOfs / 4]?).map (fun v => (k, d, v)) else none
      | none => none)

/-- The loop-state word in the image that its station runs: during a swap a station that has switched shows the new
image's layout. -/
def State.stateWord (s : State) (w : Nat) : Option (Nat × LoopDesc × Var) :=
  (List.range 4).findSome? (fun n =>
    match stateWordOf (s.imageOf n) w with
    | some x => if x.2.1.station = n then some x else none
    | none => none)

/-- Word `w` of an engine's data memory: loop-state words show that engine's committed state in FP32, every other word
what was last written. -/
def State.dmemRead (s : State) (e w : Nat) : Word :=
  if 0xC000 ≤ w ∧ w < 0xE000 then
    match s.stateWord w with
    | some (k, d, v) => f32OfRat ((if e = s.activeEng then s else s.asStandby d.station).getVar d.station k v)
    | none => s.dmem e w
  else s.dmem e w

end Sys2Proof.Machine
end

