-- ==== Sys2Proof/Machine/Conversion.lean ====
section
/-! DEFINITION. The conversion subsystem: sequences, results, plausibility pairs, calibration, demodulators (R197 to
R225), and the safe stop that a failed pair brings (R350, R357). -/

namespace Sys2Proof.Machine

/-! ### Safe stops (R350) -/

/-- A safe stop of a station is demanded: it is monitored from here and enters STOPPING at the next boundary, or becomes
a held removal at once where the station has not left its start or its enables are low. -/
def State.startSafeStop (s : State) (n : Nat) : State :=
  let u := s.stnOf n
  if (s.safeOf n).held || ((s.safeOf n).stop && (s.safeOf n).demanded) then s
  else match u.st with
    | .stopping =>
      s.onSafe n (fun f => { f with stop := true, demanded := true })
    | .running | .limiting | .rideThrough | .openLoopV =>
      ((s.onSafe n (fun f =>
        { f with stop := true, demanded := true, x0 := s.stopX0 n, stopAt := s.now, hiCount := 0 })).onStn n (fun u =>
        { u with stopReq := true })).settleStopped n
    | _ => s.holdStation n 0x10

/-- Settle's reaction to a failed pair: a safe stop of every station with an enabled Current or Voltage entry on either
converter of the pair (R357). -/
def State.pairFailed (s : State) (p : Nat) : State :=
  let uses (n : Nat) : Bool := (List.range 64).any (fun i =>
    let e := slotNo n i
    s.flag (TRS_IN_CFG_EN e) && s.fld (TRS_IN_CFG_SRC_TYPE e) == 0 && s.fld (TRS_IN_CFG_SRC_INDEX e) / 32 == p &&
      (s.fld (TRS_IN_CFG_CLASS e) == 1 || s.fld (TRS_IN_CFG_CLASS e) == 2))
  (s.setFlag SAF_FLAGS_PAIR_FAILED).forAll 4 (fun n t => if uses n then t.startSafeStop n else t)

/-! ### Idle conditions (R203) -/

/-- An enabled input-list entry of a station that is not idle names a source. -/
def State.sourceBusy (s : State) (f : Nat → Nat → Bool) : Bool :=
  (List.range 256).any (fun e => !s.stnIdle (e / 64) && s.flag (TRS_IN_CFG_EN e) &&
    f (s.fld (TRS_IN_CFG_SRC_TYPE e)) (s.fld (TRS_IN_CFG_SRC_INDEX e)))

def State.convIdle (s : State) (k : Nat) : Bool := !s.sourceBusy (fun y i => y == 0 && i / 16 == k)
def State.pairIdle (s : State) (p : Nat) : Bool := s.convIdle (2 * p) && s.convIdle (2 * p + 1)

def State.sdmIdle (s : State) (c : Nat) : Bool :=
  !s.sourceBusy (fun y i => y == 1 && i == c) &&
    (!s.flag (SDM_SF_CFG_EN c) || s.stnIdle (s.fld (SDM_SF_CFG_STATION c)))

def State.sdmClkIdle (s : State) (m : Nat) : Bool :=
  (List.range 48).all (fun c => !s.flag (SDM_CFG_EN c) || s.fld (SDM_CFG_CLK c) != m || s.sdmIdle c)

/-! ### Sequences (R199 to R207) -/

/-- The partner of a converter. -/
def partner (k : Nat) : Nat := if k % 2 = 0 then k + 1 else k - 1

def State.calState (s : State) : Nat := s.fld ADC_CAL_CTRL_STATE

/-- Converter `k` is covered by its partner. -/
def State.covered (s : State) (k : Nat) : Bool := decide (2 ≤ s.calState) && s.cal.target == k

/-- INPUT, GAIN and SAMP of an entry or urgent request are allowed (R199). -/
def entryOk (w : Word) : Bool :=
  bits w 0 4 != 15 && decide (bits w 16 3 ≤ 4) && decide (2 ≤ bits w 8 8) &&
    (decide (bits w 16 3 < 3) || decide (8 ≤ bits w 8 8))

/-- Shadowed fields of a converter come into force (R203). -/
def State.adcTransfer (s : State) (k : Nat) : State :=
  (s.forAll 16 (fun e t => t.transfer (ADC_SEQ k e))).setActFld (ADC_CFG_LEN k) (s.fld (ADC_CFG_LEN k))

/-- Start a sequence on a converter, merged with its covered partner's entries (R200, R213). -/
def State.seqStart (s : State) (k : Nat) : State :=
  let p := partner k
  let merged := s.covered p
  let s1 := (s.adcTransfer k).transfer (ADC_PLS_CFG (k / 2))
  let s2 := if merged then s1.adcTransfer p else s1
  s2.onConv k (fun c =>
    { c with
      seqRun := true, urgent := false, idx := 0, goAt := some (s.now * 2 / 5), len := s2.actFld (ADC_CFG_LEN k),
      plen := if merged then s2.actFld (ADC_CFG_LEN p) else 0,
      pls := merged || s2.flag (ADC_PLS_CFG_EN (k / 2)) })

/-- An urgent request is dropped (R207). -/
def State.urgDrop (s : State) (k : Nat) : State := (s.count (ADC_CNT_URG_DROP_CNT k)).setFlag ADC_FLAGS_URG_DROP

/-- SEQ_GO reaches a converter (R204, R206, R225). Sources that fire in one conversion cycle, two and a half ticks, give one
start (R205). -/
def State.seqGo (s : State) (k : Nat) : State :=
  let c := s.convOf k
  if !s.flag (ADC_CFG_EN k) || s.covered k then s
  else if c.seqRun && c.goAt == some (s.now * 2 / 5) then s
  else if c.seqRun then (s.count (ADC_CNT_GO_OVERLAP_CNT k)).setFlag ADC_FLAGS_GO_OVERLAP
  else if c.urgent then (s.urgDrop k).seqStart k
  else s.seqStart k

/-- Correction of a result (R201): the value and its SAT. -/
def correct (raw ofs gcorr : Int) : Int × Bool :=
  let x : Rat := ((raw - ofs) * gcorr : Int) / 32768
  let v := roundAway x
  let c := max (-32768) (min 32767 v)
  (c, decide (raw = -32768) || decide (raw = 32767) || decide (c ≠ v))

/-- Correction with the coefficients that converter `k` holds for gain code `g`. -/
def State.correctBy (s : State) (k g : Nat) (raw : BitVec 16) : Int × Bool :=
  correct raw.toInt (signedOf 16 (s.fld (ADC_CAL_OFS k g))) (s.fld (ADC_CAL_GCORR k g) : Nat)

/-- Write result `r` of entry `e` of converter `k` and deliver it to the stations (R202) and the cross-checks (R464). -/
def State.adcResult (s : State) (k e : Nat) (r : Int × Bool) : State :=
  let w := BitVec.ofNat 32 ((s.convOf k).tag.toNat * 2 ^ 24 + r.2.toNat * 2 ^ 16 + unsignedOf 16 r.1)
  ((s.setReg (ADC_RES k e) w).setFlagIf r.2 ADC_FLAGS_SAT).deliverAll 0 (16 * k + e) (BitVec.ofInt 32 r.1)
    |>.xchkLocal (16 * k + e) r.1

/-! ### Plausibility and calibration (R208 to R215) -/

/-- The comparison of R209. -/
def State.plsAgree (s : State) (a b : Int) : Bool :=
  let lo := signedOf 16 (s.fld ADC_PLS_OTP1_PLS_LO)
  let hi := signedOf 16 (s.fld ADC_PLS_OTP1_PLS_HI)
  let ok (x : Int) : Bool := decide (lo ≤ x) && decide (x ≤ hi)
  decide (((a - b).natAbs) ≤ s.fld ADC_PLS_OTP0_TOL) && ok a && ok b

/-- A disagreement of a pair, a STALE report included (R210, R211). -/
def State.plsDisagree (s : State) (p : Nat) (flag : Fld) : State :=
  let c := min 255 (s.fld (ADC_PLS_STAT_CONSEC p) + 1)
  let lim := s.fld ADC_PLS_OTP0_PLS_LIMIT
  let s1 := ((s.setFlag flag).count (ADC_PLS_STAT_DIS_CNT p)).setFld (ADC_PLS_STAT_CONSEC p) c
  if lim ≠ 0 ∧ lim ≤ c ∧ !s.flag (ADC_PLS_STAT_FAILED p) then (s1.setFlag (ADC_PLS_STAT_FAILED p)).pairFailed p else s1

/-- The end of a cover (R214, R215). -/
def State.coverEnd (s : State) : State :=
  let p := s.cal.target / 2
  ((((s.setFld ADC_CAL_CTRL_STATE 0).setFld (ADC_PLS_STAT_SUSPENDED p) 0).onPair p (fun _ => {})).setFlagIf s.cal.passed
    ADC_FLAGS_CAL_DONE)

/-- A calibration fails with a cause and is held (R215). -/
def State.calFail (s : State) (code : Nat) : State :=
  ((s.setFld ADC_CAL_CTRL_FAIL code).setFld ADC_CAL_CTRL_STATE 5).setFlag ADC_FLAGS_CAL_FAIL

/-- New coefficients within their ranges (R214). -/
def coefOk (c : Int × Int) : Bool :=
  decide (-2048 ≤ c.1 ∧ c.1 ≤ 2048) && decide (29491 ≤ c.2 ∧ c.2 ≤ 36045)

/-- The partner's plausibility result decides the verification (R214). -/
def State.calVerify (s : State) (v : Int) : State :=
  if !(s.cal.coefs.all coefOk) then s.calFail 1
  else if !s.plsAgree v s.cal.verify then s.calFail 2
  else
    let k := s.cal.target
    let s1 := s.forAll 5 (fun g t =>
      let c := s.cal.coefs.getD g (0, 32768)
      t.setReg (ADC_CAL k g) (BitVec.ofNat 32 (c.2.toNat % 65536 * 65536 + unsignedOf 16 c.1)))
    let s2 : State := { s1 with cal := { s1.cal with passed := true } }
    s2.setFld ADC_CAL_CTRL_STATE 4

/-- A corrected plausibility result of converter `k` (R209, R213, R214). -/
def State.plsResult (s : State) (k : Nat) (v : Int) : State :=
  let p := k / 2
  if s.covered (partner k) then (if s.calState = 3 then s.calVerify v else s)
  else
    let q := s.pairOf p
    let other := if k % 2 = 0 then q.resB else q.resA
    let due := if k % 2 = 0 then q.freshB else q.freshA
    let s1 := s.onPair p (fun q =>
      if k % 2 = 0 then { q with resA := some v, freshA := true, freshB := false }
      else { q with resB := some v, freshB := true, freshA := false })
    match due, other with
    | true, some w =>
      if s.plsAgree v w then s1.setFld (ADC_PLS_STAT_CONSEC p) 0 else s1.plsDisagree p ADC_FLAGS_PLS_DISAGREE
    | _, _ => s1

/-- A conversion of the running sequence delivers its result; the last one ends the sequence (R200, R213). -/
def State.convDone (s : State) (k : Nat) (raw : BitVec 16) : State :=
  let c := s.convOf k
  if !c.seqRun then s
  else
    let p := partner k
    let s1 :=
      if c.idx < c.len then s.adcResult k c.idx (s.correctBy k (s.actFld (ADC_SEQ_GAIN k c.idx)) raw)
      else if c.idx < c.len + c.plen then
        let e := c.idx - c.len
        s.adcResult p e (s.correctBy k (s.actFld (ADC_SEQ_GAIN p e)) raw)
      else
        let r := s.correctBy k 0 raw
        (s.setFlagIf r.2 ADC_FLAGS_SAT).plsResult k r.1
    let last := decide (c.len + c.plen + c.pls.toNat ≤ c.idx + 1)
    if last then
      let s2 := s1.onConv k (fun c => { c with seqRun := false, idx := 0, tag := c.tag + 1 })
      let s3 := if c.plen = 0 then s2 else s2.onConv p (fun c => { c with tag := c.tag + 1 })
      if s.calState = 4 ∧ s.cal.target = p then s3.coverEnd else s3
    else s1.onConv k (fun c => { c with idx := c.idx + 1 })

/-- The refusal code of a calibration request, 0 for none (R212). -/
def State.calRefusal (s : State) (k : Nat) : Nat :=
  let p := partner k
  if !s.flag (ADC_CFG_EN p) || s.covered p then 1
  else if s.reg (ADC_TRGMAP_PWM k) != s.reg (ADC_TRGMAP_PWM p) || s.reg (ADC_TRGMAP_CAP k) != s.reg (ADC_TRGMAP_CAP p) then 2
  else if s.calState ≠ 0 then 3
  else if !s.flag (ADC_CFG_EN k) then 4
  else if !s.flag (ADC_PLS_CFG_EN (k / 2)) then 5
  else 0

def State.calRequest (s : State) (k : Nat) : State :=
  match s.calRefusal k with
  | 0 =>
    let s1 : State := { s with cal := { target := k } }
    ((s1.setFld ADC_CAL_CTRL_REFUSE 0).setFld ADC_CAL_CTRL_FAIL 0).setFld ADC_CAL_CTRL_STATE 1
  | r => (s.setFld ADC_CAL_CTRL_REFUSE r).setFlag ADC_FLAGS_CAL_REFUSED

/-! ### Demodulators (R217 to R222) -/

/-- A channel restarts its clock divider and decimator. -/
def State.sdmRestart (s : State) (c : Nat) : State :=
  (s.onSdm c (fun _ => { started := true })).setFldBit (SDM_SETTLED_SETTLED (c / 32)) (c % 32) false

/-- At a carrier start the channels aligned to the station start (R220). -/
def State.alignStart (s : State) (n : Nat) : State :=
  s.forAll 48 (fun c t =>
    if (t.sdmOf c).waiting && t.fld (SDM_CFG_ALIGN_STN c) == n then t.sdmRestart c else t)

/-- A channel's EN changes from `was` (R220). -/
def State.sdmEnable (s : State) (c : Nat) (was : Bool) : State :=
  let on := s.flag (SDM_CFG_EN c)
  if on && !was then
    if s.flag (SDM_CFG_ALIGN_EN c) then
      (s.onSdm c (fun _ => { waiting := true })).setFldBit (SDM_SETTLED_SETTLED (c / 32)) (c % 32) false
    else s.sdmRestart c
  else if !on && was then
    ((s.onSdm c (fun _ => {})).setFldBit (SDM_SETTLED_SETTLED (c / 32)) (c % 32) false).setFldBit
      (SDM_NOTRANS_NOTRANS (c / 32)) (c % 32) false
  else s

/-- Sums of `r` neighbours, newest first; what lies before the first sample counts nothing. -/
def boxcar (r : Nat) : List Nat → List Nat
  | [] => []
  | a :: t => ((a :: t).take r).sum :: boxcar r t

/-- ACC of R219: the sinc sum of order `n` over `r` samples, from the samples newest first. -/
def sincSum (r : Nat) : Nat → List Nat → Nat
  | 0, l => l.headD 0
  | n + 1, l => sincSum r n (boxcar r l)

/-- ACC of samples newest first. -/
def sincOf (r n : Nat) (l : List Bool) : Nat := sincSum r n (l.map Bool.toNat)

/-- Two neighbours of a list of samples differ. -/
def hasTransition : List Bool → Bool
  | a :: b :: t => a != b || hasTransition (b :: t)
  | _ => false

/-- The main filter's output from the exact integer sum (R219). -/
def sdmValue (acc r n : Nat) : Rat := (2 * (acc : Rat) - ((r ^ n : Nat) : Rat)) / ((r ^ n : Nat) : Rat)

end Sys2Proof.Machine
end

