-- ==== Sys2Proof/Machine/Time.lean ====
section
/-! DEFINITION. The local clock, its steps, the capture inputs and the firmware's IEEE 1588 slave (chapter 11). -/

namespace Sys2Proof.Machine

/-! ### Counting (R297, R301, R302, R305) -/

def nsPerSec : Nat := 1000000000

/-- The pulse-island clock runs: out of reset, one PLL at least, not frozen by RETAIN (R301, R305). -/
def State.clockRuns (s : State) : Bool :=
  !s.dev.inReset && !(s.clk.lostA && s.clk.lostB) && !s.clock.frozen

/-- Add nanoseconds to the local clock; the seconds wrap at 2^48. -/
def Clock.addNs (c : Clock) (n : Nat) : Clock :=
  { c with ns := (c.ns + n) % nsPerSec, secs := (c.secs + (c.ns + n) / nsPerSec) % 2 ^ 48 }

/-- The clock one tick later, at an increment in units of 2^−28 ns. -/
def Clock.tick (c : Clock) (incr : Nat) : Clock :=
  let c1 := c.addNs ((c.frac + incr) / 2 ^ 28)
  { c1 with
    frac := (c.frac + incr) % 2 ^ 28
    free := (c.free + (c.freeFrac + incr) / 2 ^ 28) % 2 ^ 32
    freeFrac := (c.freeFrac + incr) % 2 ^ 28 }

/-- The always-on counter counts 32,768 Hz through every state; at its edge a local clock that is to resume does (R305). -/
def Clock.tickAon (c : Clock) : Clock :=
  let t := c.aonAcc + 32768
  if 400000000 ≤ t then
    { c with aonAcc := t - 400000000, aon := (c.aon + 1) % 2 ^ 48, frozen := c.frozen && !c.thaw, thaw := false }
  else { c with aonAcc := t }

/-- The clock as it stands at the next always-on tick edge, frozen there (R305; log row 104). One that has not resumed yet
stays as it is. -/
def Clock.freeze (c : Clock) (incr : Nat) : Clock :=
  let c1 := if c.frozen then c else c.tick ((400000000 - c.aonAcc + 32767) / 32768 * incr)
  { c1 with frozen := true, thaw := false, aonAtSleep := (c.aon + 1) % 2 ^ 48 }

/-- The counters after one tick of 2.5 ns. -/
def State.tickClock (s : State) : State :=
  let c := s.clock.tickAon
  { s with now := s.now + 1, clock := if s.clockRuns then c.tick (s.reg TIM_INCR).toNat else c }

/-! ### Steps (R303, R304, R314) -/

/-- W in microseconds. -/
def State.stepWindow (s : State) : Rat :=
  s.fwRat 0x1800 +
    (if s.flag TIM_STATUS_TIME_ESTIMATED then s.fwRat 0x1801 * (s.clock.lastSleep : Rat) / 32768 else 0)

/-- The local time in nanoseconds. -/
def State.localNs (s : State) : Int := (s.clock.secs * nsPerSec + s.clock.ns : Nat)

/-- A step may be made: within W or the clock unset, and no negative seconds. -/
def State.stepOk (s : State) (d : Int) : Bool :=
  (s.flag TIM_STATUS_UNSET || decide ((d.natAbs : Rat) ≤ s.stepWindow * 1000)) && decide (0 ≤ s.localNs + d)

def State.stepRefused (s : State) : State := (s.setFlag TIM_FLAGS_STEP_REFUSED).count TIM_CNT0_STEP_REFUSED_CNT

/-- Commit a step, unless another is pending; it waits for the next tick, and is checked there (R303, R314). -/
def State.commitStep (s : State) (d : Int) : State :=
  if s.clock.step.isSome then s.stepRefused
  else { s with clock := { s.clock with step := some d } }.setFld TIM_STATUS_STEP_PENDING 1

/-- Set the local clock to a time in nanoseconds; the fraction stays. -/
def State.setLocal (s : State) (t : Nat) : State :=
  { s with clock := { s.clock with secs := t / nsPerSec % 2 ^ 48, ns := t % nsPerSec } }

/-- An accepted step or TIME_SET: UNSET clears, STEP_DONE and STEP_CNT (R303, R304). -/
def State.stepDone (s : State) : State :=
  ((s.setFld TIM_STATUS_UNSET 0).setFlag TIM_FLAGS_STEP_DONE).count TIM_CNT0_STEP_CNT

def State.clearEst (s : State) : State := s.setFld TIM_STATUS_TIME_ESTIMATED 0

/-- A pending step at the end of its tick, checked against the W in force (R314). -/
def State.applyStep (s : State) : State :=
  match s.clock.step with
  | none => s
  | some d =>
    let s1 := { s with clock := { s.clock with step := none } }.setFld TIM_STATUS_STEP_PENDING 0
    let s2 := if s.stepOk d then
        let t := (s1.setLocal (s.localNs + d).toNat).stepDone
        if s.ptp.clearDue then t.clearEst else t
      else s1.stepRefused
    { s2 with ptp := { s2.ptp with clearDue := false } }

/-- A write of TIM_INCR outside 2.5 ns ± 500 ppm is refused (R298). -/
def State.writeIncr (s : State) (w : Word) : State :=
  if 0x27FAE148 ≤ w.toNat ∧ w.toNat ≤ 0x28051EB8 then s.setReg TIM_INCR w else s.setFlag TIM_FLAGS_INCR_REFUSED

/-- TIM_NS_READ: the nanoseconds, with the seconds latched (R299). -/
def State.readNs (s : State) : State :=
  { s with clock := { s.clock with latched := s.clock.secs }, readData := BitVec.ofNat 32 s.clock.ns }

def execTimNsRead (s : State) : Answer := whenDev s s.readNs

/-- A write of TIM_STEP_HI commits the signed 64-bit step. -/
def State.writeStepHi (s : State) (hi : Word) : State :=
  s.commitStep (signedOf 64 (hi.toNat * 2 ^ 32 + s.clock.stepLo.toNat))

/-- TIM_STEP_HI_WRITE (R303). -/
def execTimStepHiWrite (hi : Word) (s : State) : Answer := whenDev s (s.writeStepHi hi)

/-- TIM_STEP_APPLY (R303). -/
def execTimStepApply (s : State) : Answer := .next (if s.clockRuns then s.applyStep else s)

/-- TIM_CLR_EST (R306). -/
def execTimClrEst (s : State) : Answer := whenDev s s.clearEst

/-- TIM_AON_LO_READ: the low half, with the high half latched (R305). -/
def State.readAon (s : State) : State :=
  { s with clock := { s.clock with aonHi := s.clock.aon / 2 ^ 32 }, readData := BitVec.ofNat 32 s.clock.aon }

def execTimAonLoRead (s : State) : Answer := whenDev s s.readAon

/-! ### Capture inputs (R307 to R309) -/

/-- A capture FIFO with EDGE set takes a stamp, or loses it (R308). -/
def State.captureStamp (s : State) (c : Nat) (rising : Bool) : State :=
  if (s.fld (TIM_CAP_CFG_EDGE c)).testBit (if rising then 0 else 1) then
    if (s.capOf c).fifo.length < 4 then
      (s.onCap c (fun x => { x with fifo := x.fifo ++ [⟨s.stamp, rising⟩] })).setFldBit TIM_CAP_STATUS_NONEMPTY c true
    else ((s.setFldBit TIM_CAP_STATUS_CAP_OVF c true).setFlag TIM_FLAGS_CAP_OVF).count TIM_CNT1_CAP_OVF_CNT
  else s

/-- The trigger matrix routes the edge to converters (R204, R309). -/
def State.captureRoute (s : State) (c : Nat) (rising : Bool) : State :=
  s.forAll 16 (fun k t => if bit (t.reg (ADC_TRGMAP_CAP k)) (2 * c + (if rising then 0 else 1)) then t.seqGo k else t)

/-- The lowest Chest unit of TYPE CAPTURE that selects the edge fires, with the stamp of the edge (R267, R268). -/
def State.captureTrigger (s : State) (c : Nat) (rising : Bool) : State :=
  match (List.range 8).find? (fun t => s.trigMatches 3 c none t &&
      (s.actFld (CHS_TRG_EDGE t)).testBit (if rising then 0 else 1)) with
  | some t => s.chestTrigger t s.stamp
  | none => s

/-- An edge whose new level holds for `held` samples is accepted: FILT samples at least, and of a level that is new
(R307). -/
def State.edgeAccepted (s : State) (c : Nat) (rising : Bool) (held : Nat) : Bool :=
  let filt := s.fld (TIM_CAP_CFG_FILT c)
  filt == 0 || (decide (filt ≤ held) && (s.capOf c).level != rising)

/-- An accepted edge: its stamp, which capture keeps in STANDBY too; then, each while its island runs, the trigger matrix,
the Trestle inputs that name the capture, and Chest (R155, R307 to R309, R435). -/
def State.captureEdge (s : State) (c : Nat) (rising : Bool) : State :=
  let s1 := (s.onCap c (fun x => { x with level := rising })).captureStamp c rising
  let s2 := if s.islandsRun then (s1.captureRoute c rising).deliverAll 2 c (Config.captureWord rising s.stamp) else s1
  if s.dataRuns then s2.captureTrigger c rising else s2

/-- CAPTURE_EDGE (R307). -/
def execCaptureEdge (c : Fin 16) (edge : CapEdge) (s : State) : Answer :=
  .next (if !s.edgeAccepted c edge.rising edge.held then s
    else if s.devRuns then s.captureEdge c edge.rising else s.onCap c (fun x => { x with level := edge.rising }))

/-- TIM_CAP_LO_READ: the oldest stamp leaves; HI and INFO are latched (R308). -/
def State.readCap (s : State) (c : Nat) : State :=
  match (s.capOf c).fifo with
  | [] => { s.setReg (TIM_CAP_INFO c) 0 with readData := 0 }
  | e :: rest =>
    let s1 := (s.onCap c (fun x => { x with fifo := rest })).setFldBit TIM_CAP_STATUS_NONEMPTY c (!rest.isEmpty)
    let s2 := (s1.setReg (TIM_CAP_HI c) (BitVec.ofNat 32 (e.time / 2 ^ 32))).setReg (TIM_CAP_INFO c)
      (BitVec.ofNat 32 (256 + e.rising.toNat))
    { s2 with readData := BitVec.ofNat 32 e.time }

def execTimCapLoRead (c : Fin 16) (s : State) : Answer := whenDev s (s.readCap c)

/-! ### IEEE 1588 (R304, R310 to R312) -/

def State.ptpMode (s : State) : Nat := (floorRat (s.fwRat 0x1802)).toNat

def State.ptpState (s : State) : Nat := (floorRat (s.fwRat 0x1808)).toNat

def State.onPtp (s : State) (f : PtpUnit → PtpUnit) : State := { s with ptp := f s.ptp }

/-- PTP_STATE: OFFSET_REFUSED stands over SLAVE and LISTEN_ONLY while an offset is refused (R304). -/
def State.setPtpState (s : State) (k : Nat) : State :=
  (s.onPtp (fun p => { p with base := k })).setFw 0x1808
    (f32OfRat ((if s.ptp.refused && (k == 2 || k == 3) then 5 else k : Nat) : Rat))

/-- The refusal of the master's offset begins or ends; it ends within W, at TIME_SET and when STEP_THR is raised (R304). -/
def State.setRefused (s : State) (b : Bool) : State :=
  if s.ptp.refused = b then s else (s.onPtp (fun p => { p with refused := b })).setPtpState s.ptp.base

/-- Within the limits of R310 and on the MAC, transport and domain of the parameters. -/
def State.ptpAccepts (s : State) (h : PtpHdr) (lo hi : Int) : Bool :=
  h.mac == (s.fwReg 0x1012).toNat && h.transport == (floorRat (s.fwRat 0x1803)).toNat &&
    h.domain == (floorRat (s.fwRat 0x1804)).toNat && decide (lo ≤ h.interval) && decide (h.interval ≤ hi)

def State.ptpIgnore (s : State) : State :=
  let n := s.ptp.ignored + 1
  (s.onPtp (fun p => { p with ignored := n })).setFw 0x180A (f32OfRat (n : Rat))

/-- A received message acts while the slave is on, or is counted as ignored. -/
def State.ptpMessage (s : State) (h : PtpHdr) (lo hi : Int) (f : State → State) : State :=
  if s.ptpMode = 0 then s else if s.ptpAccepts h lo hi then f s else s.ptpIgnore

/-- The state to which a chosen master leads: SLAVE, or LISTEN_ONLY where it is forced or the fallback (R312). -/
def State.ptpFollow (s : State) : State := s.setPtpState (if s.ptpMode = 2 || s.ptp.fallback then 3 else 2)

/-- Firmware corrects the rate: the new increment is open within ± 500 ppm (R304; log row 23). -/
def State.slew (s : State) : State :=
  let w := (Config.freeWord s.draws).toNat
  (s.setReg TIM_INCR (BitVec.ofNat 32 (0x27FAE148 + w % (0x28051EB8 - 0x27FAE148 + 1)))).draw

/-- An offset from the master in ns, and what firmware makes of it (R304). -/
def State.ptpOffset (s : State) (off : Rat) : State :=
  let s1 := s.setFw 0x1809 (f32OfRat off)
  let d := roundAway off
  if ratAbs off ≤ s.fwRat 0x1805 * 1000 then (s1.slew.clearEst.setRefused false).ptpFollow
  else
    let s2 := s1.commitStep (-d)
    if s1.clock.step.isNone && s1.stepOk (-d) then ((s2.onPtp (fun p => { p with clearDue := true })).setRefused false).ptpFollow
    else if ratAbs off ≤ s.stepWindow * 1000 then s2.slew.setRefused false else s2.slew.setRefused true

/-- PTP_SYNC_RECEIVED: a Sync without a Follow_Up lies outside R310 (R310 to R312). -/
def execPtpSyncReceived (h : PtpHdr) (s : State) : Answer :=
  whenMgmt s (s.ptpMessage h (-3) 1 (fun s =>
    if !h.twoStep then s.ptpIgnore
    else if s.ptp.master = some h.source then s.onPtp (fun p => { p with sync := some (h.seq, s.localNs) }) else s))

/-- PTP_FOLLOW_UP_RECEIVED: t1 completes the offset measurement (R312). In listen-only the path delay is FIXED_DELAY; a
slave that has not measured one yet makes no offset (log row 24). -/
def execPtpFollowUpReceived (h : PtpHdr) (t1 : Int) (s : State) : Answer :=
  whenMgmt s (s.ptpMessage h (-3) 1 (fun s =>
    match s.ptp.sync with
    | some (q, t2) =>
      if s.ptp.master = some h.source ∧ q = h.seq then
        let s1 := s.onPtp (fun p => { p with sync := none, d21 := some (t2 - t1) })
        let delay := if s.ptpMode = 2 || s.ptp.fallback then some (s.fwRat 0x1806) else s.ptp.pathDelay
        match delay with
        | some d => s1.ptpOffset ((t2 - t1 : Int) - d)
        | none => s1
      else s
    | none => s))

/-- The better data set, by the order of the default best master clock algorithm: the lower number at the first
difference (log row 24). -/
def betterMaster : List Nat → List Nat → Bool
  | a :: t, b :: u => if a < b then true else if b < a then false else betterMaster t u
  | _, _ => false

/-- PTP_ANNOUNCE_RECEIVED (R310). -/
def execPtpAnnounceReceived (h : PtpHdr) (dataset : List Nat) (s : State) : Answer :=
  whenMgmt s (s.ptpMessage h (-128) 127 (fun s =>
    if s.ptp.master = some h.source then s.onPtp (fun p => { p with dataset := dataset })
    else if s.ptp.master = none || betterMaster dataset s.ptp.dataset then
      (s.onPtp (fun p => { p with
        master := some h.source, dataset := dataset, sync := none, d21 := none, req := none, unanswered := 0
        fallback := false, pathDelay := none })).ptpFollow
    else s))

/-- PTP_DELAY_RESP_RECEIVED: t4 completes the path delay and ends the fallback (R312). -/
def execPtpDelayRespReceived (h : PtpHdr) (t4 : Int) (s : State) : Answer :=
  whenMgmt s (s.ptpMessage h 0 5 (fun s =>
    match s.ptp.req with
    | some (q, t3) =>
      if s.ptp.master = some h.source ∧ q = h.seq then
        let delay : Option Rat := match s.ptp.d21 with
          | some d => some ((d + (t4 - t3) : Int) / 2)
          | none => s.ptp.pathDelay
        let s1 := s.onPtp (fun p => { p with req := none, unanswered := 0, fallback := false, pathDelay := delay })
        if s.ptp.fallback then s1.ptpFollow else s1
      else s
    | none => s))

/-- PTP_DELAY_REQ_SEND: its transmit stamp (R311). Listen-only mode sends none. -/
def execPtpDelayReqSend (seq : Nat) (s : State) : Answer :=
  whenMgmt s (if s.ptpMode = 1 ∧ s.ptp.master.isSome then
    s.onPtp (fun p => { p with req := some (seq, s.localNs), unanswered := p.unanswered + 1 }) else s)

/-- PTP_LISTEN_FALLBACK: eight Delay_Req in a row had no answer (R312). -/
def execPtpListenFallback (s : State) : Answer :=
  whenMgmt s (if s.ptpMode = 1 ∧ 8 ≤ s.ptp.unanswered ∧ !s.ptp.fallback then
    (s.onPtp (fun p => { p with fallback := true })).setPtpState 3 else s)

/-- PTP_ANNOUNCE_TIMEOUT: no Announce within the receipt timeout; the increment holds (R312). -/
def execPtpAnnounceTimeout (s : State) : Answer :=
  whenMgmt s (if s.ptpMode = 0 then s
    else (s.onPtp (fun p => { p with master := none, dataset := [], sync := none, d21 := none, req := none })).setPtpState 4)

/-- A write of PTP_MODE starts the slave afresh, or ends it (R313). -/
def State.ptpRestart (s : State) : State :=
  (s.onPtp (fun p => { ignored := p.ignored, clearDue := p.clearDue })).setPtpState (if s.ptpMode = 0 then 0 else 1)

end Sys2Proof.Machine
end

