-- ==== Sys2Proof/Machine/Chest.lean ====
section
/-! DEFINITION. Chest: streams, triggers, segments and their records (chapter 09). -/

namespace Sys2Proof.Machine

/-! ### Layout (R263, R275) -/

/-- Bytes of one element of stream `k`. -/
def State.elemBytes (s : State) (k : Nat) : Nat := if s.fld (CHS_STR_CFG_REDUCE k) = 0 then 4 else 8

def State.segLen (s : State) : Nat := s.fld CHS_SEG_LEN_SEG_LEN

/-- Bytes of the data blocks of the enabled streams below `k`. -/
def State.blocksBelow (s : State) (k : Nat) : Nat :=
  (List.range k).foldl (fun n j => if s.streamOn j then n + s.segLen * s.elemBytes j else n) 0

def State.slotBytes (s : State) : Nat := 1024 + s.blocksBelow 32

/-- Address of the slot of the current segment. -/
def State.slotAddr (s : State) : Nat :=
  0x82800000 + 65536 * s.fld CHS_AREA_REC_BASE + s.fld CHS_STATUS_SEG * s.slotBytes

/-! ### Sample formats (R261, R263) -/

/-- An FP32 word as a number for comparison: infinities lie beyond every finite value. -/
def f32Order (w : Word) : Int := if 2 ^ 31 ≤ w.toNat then -((w.toNat - 2 ^ 31 : Nat) : Int) else (w.toNat : Int)

/-- 0 SAR, 1 FP32, 2 unsigned, 3 gate status. -/
def State.sampleFormat (s : State) (k : Nat) : Nat :=
  match s.fld (CHS_STR_CFG_SRC_TYPE k) with
  | 0 => 0
  | 1 => 1
  | 2 => let w := s.fld (CHS_STR_CFG_SRC_INDEX k) % 32; if 4 ≤ w ∧ w ≤ 29 then 1 else 2
  | _ => 3

def sampleNaN (fmt : Nat) (w : Word) : Bool := fmt == 1 && f32IsNaN w

/-- The number a sample compares as. -/
def sampleKey (fmt : Nat) (w : Word) : Int :=
  match fmt with
  | 0 => signedOf 16 w.toNat
  | 1 => f32Order w
  | _ => (w.toNat : Int)

/-- Gate status of a station: GF levels above effective enables (06_pwm_gate.md). -/
def State.gateStatus (s : State) (n : Nat) : Word :=
  BitVec.ofNat 32 ((List.range 12).foldl (fun a k =>
    a + (s.hbOf n k).gf.toNat * 2 ^ (16 + k) + (s.hbOf n k).eff.toNat * 2 ^ k) 0)

/-- The word that a stream's source holds. -/
def State.sampleWord (s : State) (k : Nat) : Word :=
  let i := s.fld (CHS_STR_CFG_SRC_INDEX k)
  match s.fld (CHS_STR_CFG_SRC_TYPE k) with
  | 0 => s.reg (ADC_RES (i / 16 % 16) (i % 16))
  | 1 => s.reg (SDM_RES i)
  | 2 => s.reg (GFM_SNAP (i / 32 % 4) (i % 32))
  | _ => s.gateStatus (i % 4)

/-! ### Triggers on samples (R267) -/

/-- A crossing of LEVEL: whether the unit fires, and its new sides. -/
def levelStep (t : ChestTrig) (edge : Nat) (x level hyst : Rat) : Bool × ChestTrig :=
  let fire := (edge.testBit 0 && t.below && decide (level ≤ x)) || (edge.testBit 1 && t.above && decide (x ≤ level))
  let t1 : ChestTrig := if fire then { t with below := false, above := false } else t
  (fire, { t1 with below := t1.below || decide (x < level - hyst), above := t1.above || decide (level + hyst < x) })

/-- The number a sample, a LEVEL or an HYST stands for: an infinity lies beyond every sum of finite values. -/
def sampleRat (fmt : Nat) (w : Word) : Rat :=
  if fmt = 1 then (if f32Finite w then f32ToRat w else if bit w 31 then -(2 ^ 200) else 2 ^ 200)
  else ((sampleKey fmt w : Int) : Rat)

/-- Trigger unit `t` sees a sample of its stream. -/
def State.trigSample (s : State) (t k : Nat) (w : Word) : Bool × ChestTrig :=
  let u := s.trigOf t
  let fmt := s.sampleFormat k
  let level := s.actReg (CHS_TRG_LEVEL t)
  let aux := s.actReg (CHS_TRG_AUX t)
  if s.actFld (CHS_TRG_EN t) = 0 ∨ s.actFld (CHS_TRG_SEL t) ≠ k then (false, u)
  else match s.actFld (CHS_TRG_TYPE t) with
    | 1 =>
      if sampleNaN fmt w || sampleNaN fmt level || sampleNaN fmt aux then (false, u)
      else levelStep u (s.actFld (CHS_TRG_EDGE t)) (sampleRat fmt w) (sampleRat fmt level) (sampleRat fmt aux)
    | 2 =>
      let m := (w &&& aux) == level
      (m && !u.matching, { u with matching := m })
    | _ => (false, u)

/-- A sample of stream `k` reaches every unit; those that fire make one trigger (R268). -/
def State.sampleTriggers (s : State) (k : Nat) (w : Word) : State :=
  let fired := (List.range 8).filter (fun t => (s.trigSample t k w).1)
  let s1 := (List.range 8).foldl (fun (x : State) t => x.onTrig t (fun _ => (s.trigSample t k w).2)) s
  match fired with
  | t :: _ => s1.chestTrigger t s.stamp
  | [] => s1

/-! ### Elements (R263, R270, R274) -/

def State.chestState (s : State) : Nat := s.fld CHS_STATUS_STATE

/-- The oldest `n` staged words of stream `k` reach the DRAM (R274). -/
def State.drain (s : State) (k n : Nat) : State :=
  (((s.streamOf k).staged.take n).foldl (fun (t : State) p => t.setBytes p.1 (leBytes p.2)) s).onStream k (fun c =>
    { c with staged := c.staged.drop n })

/-- Bursts of 64 bytes leave the staging buffer: whole bursts only, as many as it holds. -/
def State.drainBursts (s : State) (k bursts : Nat) : State :=
  s.drain k (16 * min bursts ((s.streamOf k).staged.length / 16))

/-- The staging buffer has no room for an element. -/
def State.bufferFull (s : State) (k : Nat) : Bool := decide (1024 < 4 * (s.streamOf k).staged.length + s.elemBytes k)

/-- One element of stream `k` is complete: it goes into the staging buffer, for its place in the circular block. -/
def State.putElement (s : State) (k : Nat) (words : List Word) : State :=
  let c := s.streamOf k
  let a := s.slotAddr + 1024 + s.blocksBelow k + (c.done % s.segLen) * s.elemBytes k
  s.onStream k (fun c =>
    { c with
      staged := c.staged ++ words.zipIdx.map (fun p => (a + 4 * p.2, p.1))
      done := c.done + 1, filled := c.filled + 1, count := 0, satOr := false
      post := if s.chestState = 2 then c.post + 1 else c.post
      stopped := s.chestState == 2 && decide (s.segLen - s.fld CHS_PRE_PRE ≤ c.post + 1) })

/-- The extremes of an interval after one more sample. -/
def extremes (fmt : Nat) (first : Bool) (lo hi w : Word) : Word × Word :=
  if fmt = 3 then (if first then (w, w) else (lo &&& w, hi ||| w))
  else if sampleNaN fmt w then (if first then (0x7FC00000, 0x7FC00000) else (lo, hi))
  else if first || sampleNaN fmt lo then (w, w)
  else (if sampleKey fmt w < sampleKey fmt lo then w else lo, if sampleKey fmt hi < sampleKey fmt w then w else hi)

/-- A sample is stored. -/
def State.storeSample (s : State) (k : Nat) (w : Word) : State :=
  let n := s.fld (CHS_STR_CFG_REDUCE k) + 1
  if n = 1 then s.putElement k [w]
  else
    let fmt := s.sampleFormat k
    let c := s.streamOf k
    let e := extremes fmt (c.count == 0) c.lo c.hi w
    let sat := c.satOr || (fmt == 0 && bit w 16)
    let s1 := s.onStream k (fun c => { c with count := c.count + 1, lo := e.1, hi := e.2, satOr := sat })
    if c.count + 1 < n then s1
    else
      let mark (x : Word) : Word := if fmt = 0 then putBit x 16 sat else x
      s1.putElement k [mark e.1, mark e.2]

/-- The gap of a stream after its trigger element becomes a header entry; past sixteen it only counts (R274). -/
def State.closeGap (s : State) (k : Nat) : State :=
  let c := s.streamOf k
  if c.lost = 0 then s.onStream k (fun c => { c with inGap := false })
  else
    let full := decide (16 ≤ s.chest.gapEntries.length)
    let s1 : State := { s with chest := { s.chest with
      gapTotal := s.chest.gapTotal + c.lost
      gapEntries := if full then s.chest.gapEntries else s.chest.gapEntries ++ [(k, c.gapStored, c.lost)]
      flags := s.chest.flags ||| (if full then 0x18 else 8) } }
    (s1.setFlagIf full CHS_FLAGS_GAP_OVF).onStream k (fun c =>
      { c with inGap := false, lost := 0, gaps := c.gaps + 1 })

/-- A gap begins: it is counted and logged; before the trigger the fill starts afresh (R274). -/
def State.openGap (s : State) (k : Nat) : State :=
  let post := decide (s.chestState = 2)
  let s1 := ((s.count CHS_CNT1_GAP_CNT).setFlag CHS_FLAGS_GAP).logEvent 5 0 k (s.fld CHS_STATUS_SEG)
  let s2 : State := { s1 with chest := { s1.chest with flags := if post then s1.chest.flags ||| 8 else s1.chest.flags } }
  s2.onStream k (fun c =>
    { c with
      inGap := true, lost := if post then c.count + 1 else 0, count := 0, satOr := false
      gapStored := c.post - 1, filled := if post then c.filled else 0 })

/-! ### Segments (R266, R270 to R273, R276) -/

/-- The header of the segment in progress, with FLAGS. -/
def State.chestHeader (s : State) (flags : Nat) : List Byte :=
  let streams := (List.range 32).foldl (fun a k => a + (s.streamOn k).toNat * 2 ^ k) 0
  let entry (k : Nat) : List Byte :=
    if s.streamOn k then
      let c := s.streamOf k
      leBytesN 4 ((c.done - c.post - c.preValid) % s.segLen) ++ leBytesN 4 c.preValid ++ leBytesN 4 (c.preValid + c.post) ++
        leBytesN 4 (s.fld (CHS_STR_CFG_SRC_TYPE k) + (decide (s.elemBytes k = 8)).toNat * 256 + min c.gaps 255 * 65536)
    else List.replicate 16 0
  let gap (g : Nat) : List Byte := match s.chest.gapEntries[g]? with
    | some (k, stored, lost) => leBytesN 4 k ++ leBytesN 4 stored ++ leBytesN 4 lost ++ leBytesN 4 0
    | none => List.replicate 16 0
  let h := leBytesN 4 (s.fld CHS_STATUS_SEG + s.chest.run * 65536) ++ leBytesN 4 flags ++ leBytesN 8 s.chest.tTrig ++
    leBytesN 8 s.stamp ++ leBytesN 4 streams ++ leBytesN 4 s.segLen ++ leBytesN 4 (s.fld CHS_PRE_PRE) ++
    leBytesN 4 (min s.chest.gapTotal 0xFFFFFFFF) ++ List.replicate 24 0 ++ (List.range 32).flatMap entry ++
    (List.range 16).flatMap gap ++ List.replicate 188 0
  h ++ leBytes (crc32c h)

/-- Segment `g` is armed (R266): its FLAGS word, the trigger fields, and every stream begins to fill. -/
def State.armSegment (s : State) (g : Nat) : State :=
  let s1 := (s.setFld CHS_STATUS_SEG g).setFld CHS_STATUS_STATE 1
  let s2 := s1.setBytes (s1.slotAddr + 4) (leBytesN 4 0)
  let moved (t : Nat) : Bool :=
    [CHS_TRG t, CHS_TRG_LEVEL t, CHS_TRG_AUX t].any (fun a => s2.reg a != s2.actReg a)
  let s3 := s2.forAll 8 (fun t x =>
    (((x.transfer (CHS_TRG t)).transfer (CHS_TRG_LEVEL t)).transfer (CHS_TRG_AUX t)).onTrig t (fun u =>
      { u with below := false, above := false, matching := u.matching && !moved t }))
  let s4 := s3.forAll 32 (fun k x => x.onStream k (fun _ => {}))
  { s4 with chest := { s4.chest with trigSrc := 0, tTrig := 0, flags := 0, gapTotal := 0, gapEntries := [], estAtTrig := false } }

/-- The segment ends: its header, and its count. `extra` holds STOPPED and POST_TIMEOUT. -/
def State.closeSegment (s : State) (extra : Nat) : State :=
  let s1 := s.forAll 32 (fun k t =>
    (if t.streamOn k && (t.streamOf k).inGap then t.closeGap k else t).drain k (t.streamOf k).staged.length)
  let flags := 1 ||| (if s1.chest.trigSrc = 255 then 2 else 0) ||| s1.chest.flags |||
    (if s1.chest.estAtTrig then 32 else 0) ||| extra
  ((s1.setBytes s1.slotAddr (s1.chestHeader (flags + s1.chest.trigSrc * 256))).count CHS_CNT1_SEG_DONE_CNT).setFlag
    CHS_FLAGS_SEG_DONE

/-- A segment has ended: REARM, or a single run is done (R271, R272). -/
def State.chestNext (s : State) : State :=
  if s.fld CHS_STATUS_SEG < s.fld CHS_SEGS_SEGS_M1 || s.flag CHS_CFG_MODE then s.setFld CHS_STATUS_STATE 3
  else (s.setFld CHS_STATUS_STATE 4).setFlag CHS_FLAGS_RUN_DONE

/-- In REARM Chest arms the next segment, or segment 0 of the next run (R271, R272). -/
def State.chestRearm (s : State) : State :=
  if !s.grantChest || s.chestState != 3 then s
  else
    let g := s.fld CHS_STATUS_SEG
    if g < s.fld CHS_SEGS_SEGS_M1 then s.armSegment (g + 1)
    else ({ s with chest := { s.chest with run := (s.chest.run + 1) % 65536 } }).armSegment 0

/-- One tick of 2.5 ns passes: what an empty queue does (log row 12). Beyond the counters, Chest leaves REARM, for which it
has 1 µs (R271; log row 103). Everything else that time brings about is a command of its own. -/
def State.tick (s : State) : State := if s.tickClock.dataRuns then s.tickClock.chestRearm else s.tickClock

/-- The segment ends once every enabled stream has its POST elements (R270). -/
def State.segmentCheck (s : State) : State :=
  if s.chestState = 2 ∧ (List.range 32).all (fun k => !s.streamOn k || (s.streamOf k).stopped) then
    (s.closeSegment 0).chestNext else s

/-- The first check of R278 that fails, 0 for none. -/
def State.armRefusal (s : State) : Nat :=
  let l := s.segLen
  let base := s.fld CHS_AREA_REC_BASE
  let size := s.fld CHS_AREA_REC_SIZE
  let range (k : Nat) : Nat := match s.fld (CHS_STR_CFG_SRC_TYPE k) with | 0 => 256 | 1 => 48 | 2 => 128 | _ => 4
  if !(List.range 32).any s.streamOn then 1
  else if l < 64 ∨ 16777216 < l ∨ l % 16 ≠ 0 then 2
  else if l ≤ s.fld CHS_PRE_PRE then 3
  else if size = 0 ∨ 2048 < base + size ∨ (s.flag CHS_CFG_EVLOG_EN ∧ 2032 < base + size) then 4
  else if size * 65536 < (s.fld CHS_SEGS_SEGS_M1 + 1) * s.slotBytes then 5
  else if (List.range 32).any (fun k => s.streamOn k && decide (range k ≤ s.fld (CHS_STR_CFG_SRC_INDEX k))) then 6
  else 0

/-- CHS_CTRL.ARM (R266, R278). -/
def State.chestArm (s : State) : State :=
  if !s.grantChest then s
  else if s.chestState ≠ 0 ∧ s.chestState ≠ 4 then s.setFlag CHS_FLAGS_WRITE_REFUSED
  else match s.armRefusal with
    | 0 => ({ s with chest := { s.chest with run := 0 } }).armSegment 0
    | r => (s.setFld CHS_STATUS_ARM_REFUSE r).setFlag CHS_FLAGS_ARM_REFUSED

/-- CHS_CTRL.STOP, and entry to RETAIN: the state becomes DONE (R273, R279). -/
def State.chestStop (s : State) : State :=
  if !s.grantChest then s
  else (if s.chestState = 2 then s.closeSegment 0x40 else s).setFld CHS_STATUS_STATE 4

def State.chestForce (s : State) : State := s.chestTrigger 255 s.stamp

/-- A gap of stream `k` ends: after the trigger it becomes a header entry (R274, R279). -/
def State.endGap (s : State) (k : Nat) : State :=
  if s.chestState = 2 then s.closeGap k else s.onStream k (fun c => { c with inGap := false, lost := 0 })

/-- The gap ends when 64 words are free (R274). -/
def State.gapOver (s : State) (k : Nat) : State :=
  if (s.streamOf k).inGap && decide ((s.streamOf k).staged.length + 64 ≤ 256) then s.endGap k else s

/-- The stream collects samples: in ARMED, and in POST until it has its elements (R270). -/
def State.collects (s : State) (k : Nat) : Bool := s.chestState == 1 || (s.chestState == 2 && !(s.streamOf k).stopped)

/-- A sample goes into its interval, or is lost in a gap that it begins or finds (R274). -/
def State.takeSample (s : State) (k : Nat) (w : Word) : State :=
  if !s.collects k then s
  else if (s.streamOf k).inGap then s.onStream k (fun c => { c with lost := if s.chestState = 2 then c.lost + 1 else 0 })
  else if s.bufferFull k then s.openGap k
  else s.storeSample k w

/-- A sample that a dropped record did not bring is a gap of one sample (R261). -/
def State.missSample (s : State) (k : Nat) : State :=
  if !s.collects k then s
  else if (s.streamOf k).inGap then s.onStream k (fun c => { c with lost := if s.chestState = 2 then c.lost + 1 else 0 })
  else (s.openGap k).endGap k

/-- A sample of stream `k` (R261, R274): it may fire triggers, and its interval is then the trigger element (R279); it is
stored or lost. -/
def State.chestSample (s : State) (k : Nat) (how : ChestInput) : State :=
  if !s.grantChest || !s.streamOn k then s
  else match how with
    | .sample drained =>
      let w := s.sampleWord k
      ((((s.drainBursts k drained).gapOver k).sampleTriggers k w).takeSample k w).segmentCheck
    | .missing => (s.missSample k).segmentCheck

/-! ### Commands -/

/-- CHS_ARM (R266). -/
def execChsArm (s : State) : Answer := writeWindow 0x1D s s.chestArm

/-- CHS_STOP (R273). -/
def execChsStop (s : State) : Answer := writeWindow 0x1D s s.chestStop

/-- CHS_FORCE (R267). -/
def execChsForce (s : State) : Answer := writeWindow 0x1D s s.chestForce

/-- CHEST_SAMPLE (R261). -/
def execChestSample (k : Fin 32) (how : ChestInput) (s : State) : Answer := whenData s (s.chestSample k how)

/-- CHEST_GAP_END (R274). -/
def execChestGapEnd (drain : StreamDrain) (s : State) : Answer :=
  whenData s (if s.grantChest then (s.drainBursts drain.stream drain.bursts).gapOver drain.stream else s)

/-- POST_TIMEOUT (R270). -/
def execPostTimeout (s : State) : Answer :=
  whenData s (if s.grantChest && s.chestState == 2 && s.fld CHS_CFG_POST_TMO != 0 then
    ((s.closeSegment 0x80).setFlag CHS_FLAGS_POST_TIMEOUT).chestNext else s)

end Sys2Proof.Machine
end

