-- ==== Sys2Proof/Machine/Shelf.lean ====
section
/-! DEFINITION. The Shelf and the aggregates of a port (R235, R239, R242, R252 to R254). -/

namespace Sys2Proof.Machine

/-- A register of port `q`: window ⌊q / 16⌋, block q modulo 16. -/
def pq {α : Type} (f : Nat → Nat → α) (q : Nat) : α := f (q / 16) (q % 16)

/-- The number a list of bytes stands for, most significant first (R227). -/
def beNat (l : List Byte) : Nat := l.foldl (fun a b => 256 * a + b.toNat) 0

def State.portState (s : State) (q : Nat) : Nat := s.fld (pq AQR_STATE_STATE q)
def State.setPortState (s : State) (q k : Nat) : State := s.setFld (pq AQR_STATE_STATE q) k

/-- An end of a port in its role: 0 the A-end, 1 the B-end. -/
def State.endOf (s : State) (q e : Nat) : PortEnd := if e = 0 then (s.portOf q).a else (s.portOf q).b
def State.onEnd (s : State) (q e : Nat) (f : PortEnd → PortEnd) : State :=
  s.onPort q (fun p => if e = 0 then { p with a := f p.a } else { p with b := f p.b })

/-! ### Nodes -/

def State.nodePresent (s : State) (q l : Nat) : Bool := bit (s.reg (pq AQR_NODE_PRESENT q (l / 32))) (l % 32)
def State.nodeStale (s : State) (q l : Nat) : Bool := bit (s.reg (pq AQR_NODE_STALE q (l / 32))) (l % 32)
def State.setNodeBit (s : State) (f : Nat → Nat → Nat → Nat) (q l : Nat) (b : Bool) : State :=
  s.setReg (pq f q (l / 32)) (putBit (s.reg (pq f q (l / 32))) (l % 32) b)

def State.nodePoints (s : State) (q l : Nat) : Nat := tget (fun _ => 0) (s.portOf q).points l

/-- Nodes that the last ENUM found, in ascending order. -/
def State.nodes (s : State) (q : Nat) : List Nat := (List.range 512).filter (s.nodePresent q)

/-- Class of a point under the profile in force: 0 other, 1 cell voltage, 2 temperature, 3 commanded. -/
def State.pointClass (s : State) (q j : Nat) : Nat := bits ((s.portOf q).pclass.getD (j / 16) 0) (2 * (j % 16)) 2

/-- The node has a cell-voltage or temperature point. -/
def State.nodeMeasures (s : State) (q l : Nat) : Bool :=
  (List.range (s.nodePoints q l)).any (fun j => s.pointClass q j = 1 || s.pointClass q j = 2)

/-! ### Entries (R252, R253) -/

/-- One Shelf entry, taken apart. -/
structure ShelfEntry where
  value : Nat
  min : Nat
  max : Nat
  sweep : Nat
  fault : Bool
  replaced : Bool
  never : Bool
  stale : Bool
  age : Nat
  deriving DecidableEq, Repr

def entryNo (q l j : Nat) : Nat := (q * 512 + l) * 160 + j

def entryAddr (e : Nat) : Nat := 0x80000000 + 8 * e

def State.entry (s : State) (e : Nat) : ShelfEntry :=
  let b (i : Nat) : Nat := (s.byte (entryAddr e + i)).toNat
  { value := b 0 + 256 * b 1, min := b 2 + 256 * b 3, max := b 4 + 256 * b 5, sweep := b 6
    fault := (b 7).testBit 0, replaced := (b 7).testBit 1, never := (b 7).testBit 2, stale := (b 7).testBit 3
    age := b 7 / 16 }

def ShelfEntry.bytes (x : ShelfEntry) : List Byte :=
  leBytesN 2 x.value ++ leBytesN 2 x.min ++ leBytesN 2 x.max ++ leBytesN 1 x.sweep ++
    leBytesN 1 (x.fault.toNat + 2 * x.replaced.toNat + 4 * x.never.toNat + 8 * x.stale.toNat + 16 * x.age)

/-- The engine writes an entry whole. -/
def State.setEntry (s : State) (e : Nat) (x : ShelfEntry) : State := s.setBytes (entryAddr e) x.bytes

def isFaultCode (cls v : Nat) : Bool := (cls == 1 && v == 0xFFFF) || (cls == 2 && v == 0x8000)

/-- Comparison of two codes of a class: signed for temperature. -/
def codeLess (cls v w : Nat) : Bool := if cls = 2 then decide (signedOf 16 v < signedOf 16 w) else decide (v < w)

/-- A clear or a replacement is pending for an entry. -/
def State.restartPending (s : State) (q e : Nat) : Bool :=
  decide (tget (fun _ => 0) s.shelfSeen e < (s.portOf q).clears) || tget (fun _ => false) s.shelfFresh e

/-- One point of an accepted data cell (R253). -/
def State.shelfPoint (s : State) (q l j v : Nat) : State :=
  let e := entryNo q l j
  let x := s.entry e
  let cls := s.pointClass q j
  let y := { x with age := 0, stale := false, sweep := (s.portOf q).sweepNo % 256 }
  if isFaultCode cls v then s.setEntry e { y with fault := true }
  else
    let fresh := x.never || s.restartPending q e || cls == 3
    let lo := if fresh || codeLess cls v x.min then v else x.min
    let hi := if fresh || codeLess cls x.max v then v else x.max
    let s1 := s.setEntry e { y with fault := false, never := false, value := v, min := lo, max := hi }
    { s1 with
      shelfSeen := tset (fun _ => 0) s1.shelfSeen e (s.portOf q).clears
      shelfFresh := tset (fun _ => false) s1.shelfFresh e false }

/-- An accepted data cell, points 8 × INDEX to 8 × INDEX + 7 (R232, R234). -/
def State.shelfCell (s : State) (q l idx : Nat) (payload : List Byte) : State :=
  (List.range 8).foldl (fun (t : State) i =>
    let j := 8 * idx + i
    if j < t.nodePoints q l then t.shelfPoint q l j (beNat [payload.getD (2 * i) 0, payload.getD (2 * i + 1) 0]) else t) s

/-- Apply a change to every entry within a node's POINTS. -/
def State.onEntries (s : State) (q l : Nat) (f : ShelfEntry → ShelfEntry) : State :=
  (List.range (s.nodePoints q l)).foldl (fun (t : State) j => t.setEntry (entryNo q l j) (f (t.entry (entryNo q l j)))) s

/-- The entry was written in sweep `k`. -/
def ShelfEntry.written (x : ShelfEntry) (k : Nat) : Bool :=
  x.age == 0 && x.sweep == k % 256 && (!x.never || x.fault)

/-- Entries of present nodes that the sweep did not write age by one (R253). -/
def State.ageEntries (s : State) (q : Nat) : State :=
  let k := (s.portOf q).sweepNo
  (s.nodes q).foldl (fun (t : State) l =>
    t.onEntries q l (fun x => if x.written k then x else { x with age := Nat.min 15 (x.age + 1) })) s

/-- The node was replaced (R239). -/
def State.replaceNode (s : State) (q l : Nat) (uid : Word) : State :=
  let s1 := ((s.setReg (pq AQR_ROSTER q l) uid).setFlag (pq AQR_FLAGS_NODE_REPLACED q)).onEntries q l (fun x =>
    { x with replaced := true })
  (List.range (s.nodePoints q l)).foldl (fun (t : State) j =>
    { t with shelfFresh := tset (fun _ => false) t.shelfFresh (entryNo q l j) true }) s1

/-! ### Aggregates (R254, R255) -/

/-- What a port's points of one class come to: extremes with their first location, the sum and counts. -/
structure AggAcc where
  hi : Option (Nat × Nat × Nat) := none
  lo : Option (Nat × Nat × Nat) := none
  sum : Nat := 0
  count : Nat := 0
  deriving DecidableEq, Repr

def AggAcc.add (a : AggAcc) (cls v l j : Nat) : AggAcc :=
  { hi := match a.hi with | some h => if codeLess cls h.1 v then some (v, l, j) else a.hi | none => some (v, l, j)
    lo := match a.lo with | some h => if codeLess cls v h.1 then some (v, l, j) else a.lo | none => some (v, l, j)
    sum := a.sum + v, count := a.count + 1 }

/-- Points of present nodes with one class, in ascending order of entry. -/
def State.classPoints (s : State) (q cls : Nat) : List (Nat × Nat) :=
  (s.nodes q).flatMap (fun l => ((List.range (s.nodePoints q l)).filter (fun j => s.pointClass q j = cls)).map (fun j => (l, j)))

def State.accumulate (s : State) (q cls : Nat) : AggAcc :=
  (s.classPoints q cls).foldl (fun a p =>
    let x := s.entry (entryNo q p.1 p.2)
    if x.written (s.portOf q).sweepNo && !x.fault then a.add cls x.value p.1 p.2 else a) {}

/-- Points of both measured classes that satisfy a test. -/
def State.countPoints (s : State) (q : Nat) (f : Nat → ShelfEntry → Bool) : Nat :=
  ((s.classPoints q 1 ++ s.classPoints q 2).filter (fun p => f p.1 (s.entry (entryNo q p.1 p.2)))).length

def extremeCode (x : Option (Nat × Nat × Nat)) : Nat := match x with | some h => h.1 | none => 0
def extremePlace (x : Option (Nat × Nat × Nat)) : Word :=
  match x with | some h => BitVec.ofNat 32 (h.2.1 * 65536 + h.2.2) | none => 0x01FF0000

/-- AGG_STALE becomes 1: the port's aggregate inputs count as lost (R254, R255). -/
def State.aggStale (s : State) (q : Nat) : State :=
  (List.range 5).foldl (fun (t : State) k => t.loseSource 3 (8 * q + k)) (s.setFld (SHF_AGG7_AGG_STALE q) 1)

/-- A present node that measures is stale. -/
def State.staleMeasures (s : State) (q : Nat) : Bool := (s.nodes q).any (fun l => s.nodeStale q l && s.nodeMeasures q l)

/-- SHF_AGG[q] after a sweep, and the words that Trestle inputs take. -/
def State.writeAggregate (s : State) (q : Nat) : State :=
  let v := s.accumulate q 1
  let t := s.accumulate q 2
  let k := (s.portOf q).sweepNo
  let missed := s.countPoints q (fun _ x => !x.written k)
  let nStale := s.countPoints q (fun l _ => s.nodeStale q l)
  let stale := s.staleMeasures q || v.count == 0
  let s1 := (s.setReg (SHF_AGG0 q) (BitVec.ofNat 32 (extremeCode v.lo * 65536 + extremeCode v.hi))).setReg (SHF_AGG1 q)
    (BitVec.ofNat 32 (extremeCode t.lo * 65536 + extremeCode t.hi))
  let s2 := (((s1.setReg (SHF_AGG2 q) (extremePlace v.hi)).setReg (SHF_AGG3 q) (extremePlace v.lo)).setReg (SHF_AGG4 q)
    (extremePlace t.hi)).setReg (SHF_AGG5 q) (extremePlace t.lo)
  let s3 := (((s2.setReg (SHF_AGG6 q) (BitVec.ofNat 32 ((v.sum + 5) / 10))).setFld (SHF_AGG7_SWEEP q) k).setFld
    (SHF_AGG7_N_CELL q) v.count).setFld (SHF_AGG7_AGG_STALE q) 0
  let s4 := (s3.setFld (SHF_AGG8_N_STALE q) nStale).setFld (SHF_AGG8_N_MISSED q) (min missed 32767)
  let volts (c : Nat) : Word := f32OfRat ((c : Rat) / 10000)
  let deg (c : Nat) : Word := f32OfRat ((signedOf 16 c : Int) / 100)
  let s5 := ((((s4.deliverAll 3 (8 * q) (volts (extremeCode v.hi))).deliverAll 3 (8 * q + 1) (volts (extremeCode v.lo))).deliverAll 3
    (8 * q + 2) (deg (extremeCode t.hi))).deliverAll 3 (8 * q + 3) (deg (extremeCode t.lo))).deliverAll 3 (8 * q + 4)
    (f32OfRat (((v.sum + 5) / 10 : Nat) / 1000))
  let s6 := s5.onPort q (fun p => { p with aggAt := p.snapAt })
  if stale then s6.aggStale q else s6

/-- A read of SHF_AGG word 0 latches words 1 to 8 (R35, R254). -/
def State.latchAgg (s : State) (q : Nat) : State :=
  { s.onPort q (fun p => { p with aggCopy := (List.range 9).map (fun w => s.reg (SHF_AGG0 q + 4 * w)) }) with
    readData := s.reg (SHF_AGG0 q) }

/-! ### Commands -/

/-- SHF_CLR_ALL (R253). -/
def State.clearShelf (s : State) : State := s.forAll 64 (fun q t => t.onPort q (fun p => { p with clears := p.clears + 1 }))

def execShfClrAll (s : State) : Answer := writeWindow 0x1F s s.clearShelf

/-- SHF_CLR_RING: the port named in SHF_CTRL.RING (R253). -/
def State.clearRing (s : State) (q : Nat) : State := s.onPort q (fun p => { p with clears := p.clears + 1 })

def execShfClrRing (q : Fin 64) (s : State) : Answer := writeWindow 0x1F s ((s.setFld SHF_CTRL_RING q).clearRing q)

/-- SHF_AGG0_READ (R254). -/
def execShfAgg0Read (q : Fin 64) (s : State) : Answer := readWindow 0x1F s (s.latchAgg q)

/-- SHELF_INIT_DONE (R253). -/
def execShelfInitDone (s : State) : Answer := whenData s (s.setFld SHF_STATUS_INIT_DONE 1)

/-- AGG_STALE_TIMEOUT: no sweep within 3 × SWEEP_T (R254). -/
def execAggStaleTimeout (q : Fin 64) (s : State) : Answer := whenData s (if s.grantPort q then s.aggStale q else s)

/-! ### The envelope (R256, R257) -/

/-- Ports assigned to a station. -/
def State.portsOf (s : State) (n : Nat) : List Nat :=
  (List.range 64).filter (fun q => s.grantPort q && floorRat (s.fwRat (0x3800 + q)) == (n : Int))

def State.batt (s : State) (n k : Nat) : Rat := s.fwRat (0x3900 + 16 * n + k)

/-- The ramp f(x; full, zero) of R256. -/
def ramp (x full zero : Rat) : Rat := ratClamp 0 1 ((x - zero) / (full - zero))

/-- No commit is made for the station (R257). -/
def State.envWithheld (s : State) (n : Nat) : Bool :=
  (s.portsOf n).any (fun q =>
    s.flag (SHF_AGG7_AGG_STALE q) ||
      decide (s.batt n 11 < ((s.now - (s.portOf q).aggAt : Nat) : Rat) / 400000) ||
      decide (s.batt n 12 < (s.fld (SHF_AGG8_N_STALE q) : Nat)))

/-- The extreme of a code over the station's ports, as a number. -/
def State.portExtreme (s : State) (n : Nat) (f : Nat → Rat) (pick : Rat → Rat → Rat) : Rat :=
  match s.portsOf n with
  | [] => 0
  | q :: t => t.foldl (fun a r => pick a (f r)) (f q)

/-- PDIS, PCHG and ERES of R256. -/
def State.envNumbers (s : State) (n : Nat) : Rat × Rat × Rat :=
  let volt (f : Nat → Fld) (q : Nat) : Rat := (s.fld (f q) : Nat) / 10000
  let temp (f : Nat → Fld) (q : Nat) : Rat := (signedOf 16 (s.fld (f q)) : Int) / 100
  let vmin := s.portExtreme n (volt SHF_AGG0_VMIN) ratMin
  let vmax := s.portExtreme n (volt SHF_AGG0_VMAX) ratMax
  let tmin := s.portExtreme n (temp SHF_AGG1_TMIN) ratMin
  let tmax := s.portExtreme n (temp SHF_AGG1_TMAX) ratMax
  let heat := ratMin (ramp tmax (s.batt n 6) (s.batt n 7)) (ramp tmin (s.batt n 8) (s.batt n 9))
  let pdis := s.batt n 0 * ratMin (ramp vmin (s.batt n 2) (s.batt n 3)) heat
  let pchg := s.batt n 1 * ratMin (ramp vmax (s.batt n 4) (s.batt n 5)) heat
  (pdis, pchg, ratMin 600 (pdis * s.batt n 10))

/-- The envelope of one station is computed and committed, or withheld. -/
def State.computeEnvelope (s : State) (n : Nat) : State :=
  if (s.portsOf n).isEmpty || (decide (s.batt n 0 ≤ 0) && decide (s.batt n 1 ≤ 0)) || s.envWithheld n then s
  else
    let e := s.envNumbers n
    let s1 := ((s.setReg (GFM_ENV_PDIS n) (f32OfRat e.1)).setReg (GFM_ENV_PCHG n) (f32OfRat e.2.1)).setReg (GFM_ENV_ERES n)
      (f32OfRat e.2.2)
    s1.commitEnvelope n (s.reg (GFM_ENV_SEQ n) + 1) false

/-- ENVELOPE_COMPUTE: every 10 ms, each granted station (R256). Writes to a gated island are discarded (R26). -/
def execEnvelopeCompute (s : State) : Answer :=
  whenMgmt s (if s.islandsRun then s.forAll 4 (fun n t => if t.grantS n then t.computeEnvelope n else t) else s)

end Sys2Proof.Machine
end

