-- ==== Sys2Proof/Machine/Ring.lean ====
section
/-! DEFINITION. Ring ports: links and wraps, cells and retries, discovery, sweeps, commands and alarms (chapter 08). -/

namespace Sys2Proof.Machine

/-- The port serves its ring. -/
def State.portOn (s : State) (q : Nat) : Bool := s.grantPort q && s.flag (pq AQR_CFG_EN q) && decide (s.portState q ≠ 0)

/-- An event of the ring island at a port that is on. -/
def whenPort (q : Nat) (s t : State) : Answer := whenData s (if s.portOn q then t else s)

/-! ### Frames (R231 to R234) -/

/-- The bytes that a cell's CRC covers: header and payload, most significant byte first (R227, R232). -/
def cellSpan (header : BitVec 16) (payload : List Byte) : List Byte :=
  [BitVec.ofNat 8 (header.toNat / 256), BitVec.ofNat 8 header.toNat] ++ payload

/-- A cell with its CRC. -/
def txCell (typ node index : Nat) (payload : List Byte) : TxCell :=
  let h : BitVec 16 := BitVec.ofNat 16 (typ * 16384 + node % 512 * 32 + index % 32)
  { header := h, payload := payload, crc := crc16 (cellSpan h payload) }

/-- Bytes of a number, most significant first (R227). -/
def beBytesN (n x : Nat) : List Byte := (leBytesN n x).reverse

/-- The cells of a frame: the header cell, then the data cells of a WRITE. -/
def frameCells (f : RingFrame) : List TxCell :=
  txCell 0 f.node f.op (leBytesN 1 (f.count % 64) ++ leBytesN 1 (f.port % 64 + 64 * (f.fin % 2)) ++ beBytesN 2 f.tag ++
    beBytesN 4 f.arg.toNat) :: f.data.zipIdx.map (fun p => txCell 1 f.node p.2 p.1)

/-- Ticks of a frame with its EOF and reserve: 320 ns a symbol (R227, R231, R233). -/
def frameTicks (f : RingFrame) : Nat := (14 + 21 * f.data.length + f.reserve) * 128

/-- What an end sends. -/
def PortEnd.send (x : PortEnd) (m : RingMsg) : PortEnd := { x with tx := (m :: x.tx).take 8 }

/-- A frame goes out: its cells are counted and kept for a retry (R240, R259). -/
def PortEnd.sendFrame (x : PortEnd) (f : RingFrame) : PortEnd :=
  (frameCells f).foldl (fun (y : PortEnd) c => { y with kept := ((y.txCount, c) :: y.kept).take 4, txCount := (y.txCount + 1) % 16 })
    (x.send (.frame f))

/-- Frames whose SOF has come. -/
def PortEnd.due (x : PortEnd) (now : Nat) : List (Nat × RingFrame) := x.plan.takeWhile (fun p => decide (p.1 ≤ now))

/-- Every frame that is due goes out. -/
def PortEnd.flush (x : PortEnd) (now : Nat) : PortEnd :=
  (x.due now).foldl (fun (y : PortEnd) p => { y.sendFrame p.2 with busyTo := p.1 + frameTicks p.2 })
    { x with plan := x.plan.drop (x.due now).length }

/-- Nodes that sweep frames ask. -/
def askedOf (l : List (Nat × RingFrame)) : List Nat :=
  l.flatMap (fun p => if p.2.sweep then List.range' p.2.node (p.2.count + 1) else [])

def PortUnit.flush (p : PortUnit) (now : Nat) : PortUnit :=
  { p with a := p.a.flush now, b := p.b.flush now, asked := p.asked ++ askedOf (p.a.due now) ++ askedOf (p.b.due now) }

/-- The frames that are due at a port go out. -/
def State.flushPort (s : State) (q : Nat) : State := s.onPort q (fun p => p.flush s.now)

/-- When the frames of an end that are planned have gone. -/
def PortEnd.freeAt (x : PortEnd) : Nat := match x.plan.getLast? with | some (t, f) => t + frameTicks f | none => x.busyTo

/-- A frame behind all that the end has planned. -/
def PortEnd.enqueue (x : PortEnd) (now : Nat) (f : RingFrame) : PortEnd :=
  { x with plan := x.plan ++ [(max now (max x.freeAt (if f.sweep then x.holdTo else 0)), f)] }

/-- A command frame between two sweep frames: it goes before the next of them (R250). -/
def PortEnd.insertNext (x : PortEnd) (now : Nat) (f : RingFrame) : PortEnd :=
  match x.plan.span (fun p => !p.2.sweep) with
  | (_, []) => x.enqueue now f
  | (pre, (t, g) :: rest) => { x with plan := pre ++ (t, f) :: ((t, g) :: rest).map (fun p => (p.1 + frameTicks f, p.2)) }

/-- The end's hop is dead: it is wrapped, or its driver is off (R246, R247). -/
def PortEnd.dead (x : PortEnd) : Bool := x.wrapped || x.short

/-- The end that traffic for end `e` goes out of: a wrap turns it onto the other path (R246). -/
def State.liveEnd (s : State) (q e : Nat) : Option Nat :=
  if !(s.endOf q e).dead then some e else if !(s.endOf q (1 - e)).dead then some (1 - e) else none

/-- A frame is planned at the end that its traffic goes out of, and goes when it is due. -/
def State.sendFrame (s : State) (q e : Nat) (f : RingFrame) : State :=
  match s.liveEnd q e with
  | some k => (s.onEnd q k (fun x => x.enqueue s.now { f with fin := k })).flushPort q
  | none => s

/-- The reserve behind a frame that expects `n` reply cells (R233). -/
def State.reserve (s : State) (q n : Nat) : Nat := 21 * n + 21 * s.actFld (pq AQR_SWEEP_RES_EXTRA q) + 8

/-- A broadcast frame of operation `op` from an end. -/
def State.sendBroadcast (s : State) (q e op : Nat) (arg : Word) : State :=
  s.sendFrame q e { op := op, port := q, tag := (s.portOf q).sweepNo % 65536, arg := arg, reserve := s.reserve q 0 }

/-! ### The nodes that the ends reach (R248) -/

/-- Nodes that an end serves: the first, and how many. -/
def State.endRange (s : State) (q e : Nat) : Nat × Nat :=
  let p := s.portOf q
  let nodes := s.fld (pq AQR_CFG_NODES q)
  if s.portState q = 4 ∨ s.portState q = 5 then
    if e = 0 then (0, p.endA) else (p.firstB, (if nodes = 0 then 512 else nodes) - p.firstB)
  else if e = 0 then (0, s.fld (pq AQR_STATE_FOUND q)) else (0, 0)

/-- The end that reaches a node's position (R250, R260). -/
def State.endFor (s : State) (q l : Nat) : Nat := if (s.endRange q 1).1 ≤ l ∧ 0 < (s.endRange q 1).2 then 1 else 0

/-- The ends that serve nodes; a broadcast goes from each. -/
def State.servingEnds (s : State) (q : Nat) : List Nat :=
  (List.range 2).filter (fun e => decide (e = 0 ∧ s.portState q ≠ 4 ∧ s.portState q ≠ 5) || decide (0 < (s.endRange q e).2))

/-- Data cells and the status cell of a node. -/
def State.replyCells (s : State) (q l : Nat) : Nat := (s.nodePoints q l + 7) / 8 + 1

/-- The sweep frame for `n` nodes from `lo` on (R234, R250). -/
def State.sweepFrame (s : State) (q lo n : Nat) : RingFrame :=
  { op := 1, node := lo, count := n - 1, port := q, tag := (s.portOf q).sweepNo % 65536, arg := 0x00130000, sweep := true
    reserve := s.reserve q ((List.range' lo n).map (s.replyCells q)).sum }

/-- A range of nodes in frames of `npf` nodes, in path order of an end. -/
def frameRanges (e lo len npf : Nat) : List (Nat × Nat) :=
  (List.range ((len + npf - 1) / npf)).map (fun i =>
    let n := min npf (len - i * npf)
    if e = 0 then (lo + i * npf, n) else (lo + len - i * npf - n, n))

/-- The part of a range of nodes that lies in another. -/
def rangePart (a b : Nat × Nat) : Nat × Nat :=
  let lo := max a.1 b.1
  (lo, min (a.1 + a.2) (b.1 + b.2) - lo)

/-- Sweep frames of a port that have not gone, as ranges of nodes. -/
def PortUnit.unsent (p : PortUnit) : List (Nat × Nat) :=
  ((p.a.plan ++ p.b.plan).filter (fun r => r.2.sweep)).map (fun r => (r.2.node, r.2.count + 1))

/-- Unsent sweep frames go from the end that reaches their nodes; a frame whose range spans both chains is split, and what
no end reaches is dropped (R248). -/
def State.replan (s : State) (q : Nat) : State :=
  let s1 := s.flushPort q
  let left := (s1.portOf q).unsent.insertionSort (fun a b => decide (a.1 ≤ b.1) = true)
  let keep (x : PortEnd) : PortEnd := { x with plan := x.plan.filter (fun r => !r.2.sweep) }
  let s2 := (s1.onEnd q 0 keep).onEnd q 1 keep
  [0, 1].foldl (fun (t : State) e =>
    ((if e = 0 then left else left.reverse).map (fun r => rangePart r (s.endRange q e))).foldl (fun (u : State) r =>
      if r.2 = 0 then u else u.sendFrame q e (u.sweepFrame q r.1 r.2)) t) s2

/-- A break: the end whose chain is cut short keeps `range`, and the other, if nothing has told its own, the rest. With
`second` it is a second break on an open ring (R247, R248). -/
def State.breakRing (s : State) (q e cut : Nat) (second otherKnown : Bool) : State :=
  let st := s.portState q
  let fresh := decide (st = 2 ∨ st = 3) && !otherKnown
  let s1 := s.onPort q (fun p =>
    if e = 0 then { p with endA := cut, firstB := if fresh then cut else p.firstB }
    else { p with firstB := cut, endA := if fresh then cut else p.endA })
  let gap := decide ((s1.portOf q).endA + 1 < (s1.portOf q).firstB) && !s1.flag (pq AQR_STATE_NODES_UNKNOWN q)
  let s2 :=
    if st = 4 ∧ (second || gap) then (s1.setPortState q 5).setFlag (pq AQR_FLAGS_SEGMENTED q)
    else if st = 2 ∨ st = 3 then (s1.setPortState q 4).setFlag (pq AQR_FLAGS_RING_OPEN q)
    else s1
  s2.replan q

/-! ### Links (R228, R230, R246) -/

/-- The LNK word of an end: 0xFC0 + q above the count. -/
def lnkWord (q count : Nat) : BitVec 16 := BitVec.ofNat 16 ((0xFC0 + q) * 16 + count % 16)

/-- An end sends LNK, and remembers its last four. -/
def PortEnd.sendLnk (x : PortEnd) (q : Nat) : PortEnd :=
  if x.silent || x.short then x
  else
    let w := lnkWord q x.lnkCount
    { x with lnkCount := (x.lnkCount + 1) % 16, sentLnk := (w :: x.sentLnk).take 4 }.send (.lnk w)

/-- An end wraps its dead side and falls silent for 10 µs. -/
def PortEnd.wrap (x : PortEnd) : PortEnd :=
  if x.wrapped then { x with linkUp := false } else { x with wrapped := true, linkUp := false, silent := true }

/-- BRK for the side of an end: the node field of a device end is its chain's last position (log row 25). -/
def State.brkWord (s : State) (q e cause : Nat) : BitVec 16 :=
  BitVec.ofNat 16 ((if e = 0 then 0 else s.fld (pq AQR_CFG_NODES q) - 1) % 512 * 128 + e % 2 * 64 + cause % 64)

/-- The hop of a device end counts as open: the end serves no node any more, and what it had to send goes the other way
(R247, R248). In discovery the ENUM decides. -/
def State.endOpen (s : State) (q e : Nat) : State :=
  if s.portState q = 2 then s.replan q
  else
    let known := s.fld (if e = 0 then pq AQR_BREAK_BREAK_A q else pq AQR_BREAK_BREAK_B q) ≠ 0x3FF
    let other := s.fld (if e = 0 then pq AQR_BREAK_BREAK_B q else pq AQR_BREAK_BREAK_A q) ≠ 0x3FF
    let nodes := s.fld (pq AQR_CFG_NODES q)
    s.breakRing q e (if e = 0 then 0 else if nodes = 0 then 512 else nodes) known other

/-- A device end wraps and sends BRK toward the other end. -/
def State.wrapEnd (s : State) (q e cause : Nat) : State :=
  if (s.endOf q e).wrapped then s.onEnd q e PortEnd.wrap
  else
    ((s.onEnd q e PortEnd.wrap).onEnd q (1 - e) (fun x => if x.dead then x else x.send (.brk (s.brkWord q e cause)))).endOpen q e

/-- RX_LOCK (R228). -/
def execRxLock (q : Fin 64) (e : Fin 2) (inverted : Bool) (s : State) : Answer :=
  let f := if e = 0 then pq AQR_STATE_A_POL_INV q else pq AQR_STATE_B_POL_INV q
  whenPort q s ((s.onEnd q e (fun x => { x with locked := true })).setFld f inverted.toNat)

/-- RX_LOS (R228, R246). -/
def execRxLos (q : Fin 64) (e : Fin 2) (s : State) : Answer :=
  whenPort q s ((s.onEnd q e (fun x => { x with locked := false, linkUp := false })).wrapEnd q e 1)

/-- LNK_RECEIVED: eight in a row that equal one of the end's own last four are an echo (R246). -/
def execLnkReceived (q : Fin 64) (e : Fin 2) (w : BitVec 16) (s : State) : Answer :=
  let x := s.endOf q e
  let run := if x.sentLnk.contains w then x.echoRun + 1 else 0
  let s1 := s.onEnd q e (fun x => { x with echoRun := run, echo := decide (8 ≤ run), linkUp := x.linkUp && decide (run < 8) })
  whenPort q s (if run = 8 then s1.wrapEnd q e 2 else s1)

/-- LNK_SEND: every 100 µs, on each output (R230). -/
def execLnkSend (q : Fin 64) (s : State) : Answer :=
  whenPort q s ((s.onEnd q 0 (fun x => x.sendLnk q)).onEnd q 1 (fun x => x.sendLnk q))

/-- WRAP_SILENCE_END: IDLE, LNK and BRK on the dead hop again (R246). -/
def execWrapSilenceEnd (q : Fin 64) (e : Fin 2) (s : State) : Answer :=
  let cause := if (s.endOf q e).echo then 2 else 1
  whenPort q s (if (s.endOf q e).silent then
    s.onEnd q e (fun x => (({ x with silent := false }).sendLnk q).send (.brk (s.brkWord q e cause))) else s)

/-- DEVICE_END_LINK_UP (R249). -/
def execDeviceEndLinkUp (q : Fin 64) (e : Fin 2) (s : State) : Answer :=
  let x := s.endOf q e
  whenPort q s (if x.wrapped && x.locked && !x.echo then s.onEnd q e (fun x => { x with linkUp := true }) else s)

/-- END_SHORT: the driver turns off and the hop counts as open (R247). -/
def execEndShort (q : Fin 64) (e : Fin 2) (s : State) : Answer :=
  whenPort q s ((((s.onEnd q e (fun x => { x with short := true })).setFlag (pq AQR_FLAGS_END_SHORT q))).endOpen q e)

/-- END_SHORT_RETRY: the driver is tried again (R247). -/
def execEndShortRetry (q : Fin 64) (e : Fin 2) (still : Bool) (s : State) : Answer :=
  whenPort q s (if (s.endOf q e).short then s.onEnd q e (fun x => { x with short := still }) else s)

/-! ### Discovery (R236 to R238) -/

/-- ENUM from an end; one ID cell is expected of each node that the port may hold. -/
def State.sendEnum (s : State) (q e start dir : Nat) : State :=
  let nodes := s.fld (pq AQR_CFG_NODES q)
  (s.onPort q (fun p => { p with enumOut := true })).sendFrame q e
    { op := 3, port := q, tag := (s.portOf q).sweepNo % 65536, arg := BitVec.ofNat 32 (start * 65536 + dir * 256)
      reserve := s.reserve q (if nodes = 0 then 512 else nodes) }

/-- Discovery starts: ENUM from the A-end with START 0, up. -/
def State.startDiscovery (s : State) (q : Nat) : State :=
  if s.grantPort q && s.flag (pq AQR_CFG_EN q) then (s.setPortState q 2).sendEnum q 0 0 0 else s

/-- The nodes an ENUM found take their places, POINTS, timers and, where the roster is empty, their UIDs. -/
def State.placeNodes (s : State) (q : Nat) (ids : List (Nat × IdCell)) : State :=
  ids.foldl (fun (t : State) p =>
    let l := p.1
    let t1 := (t.setNodeBit AQR_NODE_PRESENT q l true).onPort q (fun u =>
      { u with
        points := tset (fun _ => 0) u.points l (min p.2.points 160)
        seenAt := tset (fun _ => 0) u.seenAt l t.now })
    if t1.reg (pq AQR_ROSTER q l) = 0 then t1.setReg (pq AQR_ROSTER q l) p.2.uid else t1) s

/-- No node is present before an ENUM that starts afresh. -/
def State.clearPresent (s : State) (q : Nat) : State := s.forAll 16 (fun w t => t.setReg (pq AQR_NODE_PRESENT q w) 0)

/-- The nodes that an ENUM from the A-end found, from place 0 up. -/
def State.placeFromA (s : State) (q : Nat) (ids : List IdCell) : State :=
  (((s.clearPresent q).placeNodes q (ids.zipIdx.map (fun p => (p.2, p.1)))).setFld (pq AQR_STATE_FOUND q) ids.length).onPort q
    (fun p => { p with endA := ids.length, firstB := 512 })

/-- Every header of a port's ENUM came back at its own B-end. -/
def State.ringClosed (s : State) (q : Nat) (ids : List IdCell) : State :=
  let n := ids.length
  let uid (i : Nat) : Word := (ids.getD i ⟨0, 0⟩).uid
  let s1 := s.placeFromA q ids
  let nodes := s.fld (pq AQR_CFG_NODES q)
  let s2 := if nodes = 0 then (s1.setFld (pq AQR_CFG_NODES q) n).setActFld (pq AQR_CFG_NODES q) n
    else s1.setFlagIf (decide (n ≠ nodes)) (pq AQR_FLAGS_COUNT_CHANGED q)
  let s3 := if s2.reg (pq AQR_FIRST_UID q) = 0 then s2.setBoth (pq AQR_FIRST_UID q) (uid 0) else s2
  let s4 := if s3.reg (pq AQR_LAST_UID q) = 0 then s3.setBoth (pq AQR_LAST_UID q) (uid (n - 1)) else s3
  let s5 := (s4.setFld (pq AQR_BREAK_BREAK_A q) 0x3FF).setFld (pq AQR_BREAK_BREAK_B q) 0x3FF
  ((s5.setFld (pq AQR_STATE_NODES_UNKNOWN q) 0).setPortState q 3).replan q

/-- The port becomes OPEN, and its other chain is enumerated from the B-end. -/
def State.ringOpen (s : State) (q : Nat) (ids : List IdCell) : State :=
  let nodes := s.fld (pq AQR_CFG_NODES q)
  let s1 := ((s.placeFromA q ids).setPortState q 4).setFlag (pq AQR_FLAGS_RING_OPEN q)
  if nodes = 0 then (s1.setFld (pq AQR_STATE_NODES_UNKNOWN q) 1).sendEnum q 1 511 1 else s1.sendEnum q 1 (nodes - 1) 1

/-- A port's frames arrive at another port: CROSSED, and the B-end loops (R247). -/
def State.portCrossed (s : State) (q other : Nat) : State :=
  ((((s.setPortState q 6).setFlag (pq AQR_FLAGS_CROSSED q)).setFld (pq AQR_STATE_CROSS_PORT q) other).setFld
    (pq AQR_STATE_B_LOOP q) 1)

/-- Both ports of exchanged ends are CROSSED. -/
def State.crossPorts (s : State) (q other : Nat) : State :=
  let s1 := s.portCrossed q other
  if s1.portOn other then s1.portCrossed other q else s1

/-- The roles of the two ends are exchanged, and ENUM is repeated (R238). -/
def State.swapEnds (s : State) (q : Nat) : State :=
  let a := s.fld (pq AQR_STATE_A_POL_INV q)
  let b := s.fld (pq AQR_STATE_B_POL_INV q)
  let s1 := s.onPort q (fun p => { p with a := p.b, b := p.a })
  let s2 := ((s1.setFld (pq AQR_STATE_A_POL_INV q) b).setFld (pq AQR_STATE_B_POL_INV q) a).setFld (pq AQR_STATE_SWAPPED q) 1
  (s2.setFlag (pq AQR_FLAGS_SWAPPED_SEEN q)).sendEnum q 0 0 0

/-- The ENUM that the B-end sent on an open ring returned: its nodes take their places downward. -/
def State.placeFromB (s : State) (q : Nat) (ids : List IdCell) : State :=
  let nodes := s.fld (pq AQR_CFG_NODES q)
  let start := if nodes = 0 then 511 else nodes - 1
  let s1 := (s.placeNodes q ((ids.zipIdx.filter (fun p => p.2 ≤ start)).map (fun p => (start - p.2, p.1)))).setFld
    (pq AQR_STATE_FOUND q) (s.fld (pq AQR_STATE_FOUND q) + ids.length)
  (s1.onPort q (fun p => { p with firstB := start + 1 - ids.length })).replan q

/-- ENUM_RETURN: an ENUM of port `q`, sent from an end, comes back at an end of a port with its ID cells (R237). -/
def State.enumReturn (s : State) (q sent port e : Nat) (ids : List IdCell) : State :=
  let s0 := s.onPort q (fun p => { p with enumOut := false })
  if port ≠ q then (s0.placeFromA q ids).crossPorts q port
  else if sent = 1 then s0.placeFromB q ids
  else
    let last := s0.reg (pq AQR_LAST_UID q)
    let swapped := last ≠ 0 ∧ last ≠ s0.reg (pq AQR_FIRST_UID q) ∧ (ids.head?.map IdCell.uid) = some last
    if swapped then s0.swapEnds q else if e = 1 then s0.ringClosed q ids else s0.ringOpen q ids

def execEnumReturn (q : Fin 64) (sent : Fin 2) (port : Fin 64) (e : Fin 2) (ids : List IdCell) (s : State) : Answer :=
  whenPort q s (s.enumReturn q sent port e ids)

/-- ENUM_ABSENT: no ENUM on its way came back within 2 ms, and no receiver is locked (R237). -/
def State.enumAbsent (s : State) (q : Nat) : State :=
  let p := s.portOf q
  if p.enumOut && !p.a.locked && !p.b.locked then (s.onPort q (fun p => { p with enumOut := false })).setPortState q 1 else s

def execEnumAbsent (q : Fin 64) (s : State) : Answer := whenPort q s (s.enumAbsent q)

/-- DISCOVERY_RETRY (R237). -/
def execDiscoveryRetry (q : Fin 64) (s : State) : Answer :=
  whenPort q s (if s.portState q = 1 then s.startDiscovery q else s)

/-! ### Alarms and breaks (R244, R247) -/

/-- ALM_RECEIVED: accepted when both copies agree. -/
def execAlmReceived (q : Fin 64) (c1 c2 : BitVec 16) (s : State) : Answer :=
  let node := c1.toNat / 128
  let code := c1.toNat % 128
  whenPort q s (if c1 ≠ c2 then s
    else
      let s1 := s.setReg (pq AQR_ALARM q) (BitVec.ofNat 32 (2 ^ 31 + node * 65536 + code))
      let s2 := (s1.count (pq AQR_CNT2_ALARM_CNT q)).setFlag (pq AQR_FLAGS_ALARM q)
      (s2.logEvent 1 q node code).chestEvent 4 q (some 64))

/-- BRK_RECEIVED: accepted when both copies agree (R230, R247, R248). -/
def State.brkReceived (s : State) (q e : Nat) (w : BitVec 16) : State :=
  let node := w.toNat / 128
  let mine := s.fld (if e = 0 then pq AQR_BREAK_BREAK_A q else pq AQR_BREAK_BREAK_B q)
  let other := s.fld (if e = 0 then pq AQR_BREAK_BREAK_B q else pq AQR_BREAK_BREAK_A q)
  let s1 := s.setFld (if e = 0 then pq AQR_BREAK_BREAK_A q else pq AQR_BREAK_BREAK_B q) node
  let s2 := s1.breakRing q e (if e = 0 then node + 1 else node) (mine != 0x3FF && mine != node) (other != 0x3FF)
  s2.logEvent 2 q node (w.toNat % 64 + w.toNat / 64 % 2 * 256)

def execBrkReceived (q : Fin 64) (e : Fin 2) (c1 c2 : BitVec 16) (s : State) : Answer :=
  whenPort q s (if c1 ≠ c2 then s else s.brkReceived q e c1)

/-! ### Cells (R231 to R234, R239 to R243) -/

/-- The bytes the CRC covers: header and payload, in order of transmission. -/
def cellBytes (c : RingCell) : List Byte := cellSpan c.header c.payload

def cellTyp (c : RingCell) : Nat := c.header.toNat / 16384
def cellNode (c : RingCell) : Nat := c.header.toNat / 32 % 512
def cellIdx (c : RingCell) : Nat := c.header.toNat % 32

/-- R231 and R232: whole, as long as its kind of cell is, and with a right CRC. -/
def cellGood (c : RingCell) : Bool :=
  !c.abt && !c.cut && c.payload.length == (if cellTyp c = 0 then 8 else 16) && crc16 (cellBytes c) == c.crc

/-- What RING_CMD returns: CMD_RES and, for a READ, the words that its data cells brought (R250). -/
def State.commandReply (s : State) (q : Nat) : List Byte :=
  let n := if s.fld (pq AQR_CMD_HDR_OP q) = 4 then 4 * (s.portOf q).readCells else 0
  leBytes (s.reg (pq AQR_CMD_RES q)) ++ (List.range n).flatMap (fun w => leBytes (s.reg (pq AQR_CMD_DATA q w)))

/-- A ring command ends with a result (R250); the RING_CMD that waits for it is answered (R377). -/
def State.commandEnd (s : State) (q result node : Nat) : State :=
  let s1 := (s.setReg (pq AQR_CMD_RES q) (BitVec.ofNat 32 (2 ^ 31 + result % 8 * 2 ^ 28 + node % 256))).onPort q (fun p =>
    { p with cmdBusy := false, cmdSlot := none })
  match (s.portOf q).cmdSlot with
  | some i => s1.answer i (s1.commandReply q)
  | none => s1

/-- The cells that follow answer the command in progress: its frame's header cell went by (R233). -/
def State.answersCommand (s : State) (q e : Nat) : Bool :=
  (s.portOf q).cmdBusy && (s.endOf q e).op == s.fld (pq AQR_CMD_HDR_OP q) && (s.endOf q e).tag == (s.portOf q).cmdSeq % 65536

/-- A status cell that a command waits for; the last of them ends it with the node's result (R250). -/
def State.commandStatus (s : State) (q e l result : Nat) : State :=
  if s.answersCommand q e && (s.portOf q).cmdLeft.contains l then
    let left := (s.portOf q).cmdLeft.erase l
    let s1 := s.onPort q (fun p => { p with cmdLeft := left })
    if left.isEmpty || result ≠ 0 then s1.commandEnd q (if result = 0 then 0 else 2) result else s1
  else s

/-- A status cell: RETRIES, RESERVE_SHORT, wrap and link state, the roster, and the result of a command. -/
def State.statusCell (s : State) (q e : Nat) (c : RingCell) : State :=
  let l := (cellNode c)
  let p (i : Nat) : Byte := c.payload.getD i 0
  let flags := (p 1).toNat
  let uid : Word := BitVec.ofNat 32 (beNat [p 4, p 5, p 6, p 7])
  let s1 := (s.countBy (pq AQR_CNT0_RETRY_CNT q) (beNat [p 2, p 3])).setFlagIf (flags.testBit 5) (pq AQR_FLAGS_RESERVE_SHORT q)
  let put (b : Bool) (m : List Nat) : List Nat := let r := m.filter (· != l); if b then l :: r else r
  let s2 := s1.onPort q (fun u => { u with wrapped := put (flags.testBit 1) u.wrapped, nodeUp := put (flags.testBit 2) u.nodeUp })
  let s3 := if uid ≠ s2.reg (pq AQR_ROSTER q l) then s2.replaceNode q l uid else s2
  s3.commandStatus q e l (p 8).toNat

/-- A data cell of a READ: four words of CMD_DATA, the first byte most significant (log row 25). -/
def State.readCell (s : State) (q : Nat) (payload : List Byte) : State :=
  let k := (s.portOf q).readCells
  let word (i : Nat) : Word :=
    BitVec.ofNat 32 (beNat [payload.getD (4 * i) 0, payload.getD (4 * i + 1) 0, payload.getD (4 * i + 2) 0, payload.getD (4 * i + 3) 0])
  if k < 4 then
    (s.forAll 4 (fun i t => t.setReg (pq AQR_CMD_DATA q (4 * k + i)) (word i))).onPort q (fun p => { p with readCells := k + 1 })
  else s

/-- An accepted header cell: what follows belongs to its operation; another PORT shows exchanged ends (R247). -/
def State.headerCell (s : State) (q e : Nat) (c : RingCell) : State :=
  let other := (c.payload.getD 1 0).toNat % 64
  let s1 := s.onEnd q e (fun x => { x with op := cellIdx c, tag := beNat ((c.payload.drop 2).take 2) })
  if other ≠ q then s1.crossPorts q other else s1

/-- A data cell that is no reply to READ. `room` says whether the memory island, or the port's eight cells, can take it
(R253). -/
def State.dataCell (s : State) (q : Nat) (c : RingCell) (room : Bool) : State :=
  let s1 := s.onPort q (fun p => { p with got := (1, cellNode c, cellIdx c) :: p.got })
  if room then s1.shelfCell q (cellNode c) (cellIdx c) c.payload
  else (s1.count SHF_DROP_CNT_SHF_DROP_CNT).setFlag SHF_FLAGS_DROP

/-- An accepted cell. A second data or status cell of one node and index in a sweep is a duplicate, unless it answers a
command (R241). -/
def State.acceptCell (s : State) (q e : Nat) (c : RingCell) (room : Bool) : State :=
  if cellTyp c = 0 then s.headerCell q e c
  else
    let key := (cellTyp c, cellNode c, cellIdx c)
    let answer := s.answersCommand q e
    let s1 := s.onPort q (fun p => { p with seenAt := tset (fun _ => 0) p.seenAt (cellNode c) s.now })
    if cellTyp c = 3 then s1
    else if answer && (s.endOf q e).op == 4 && cellTyp c == 1 then s1.readCell q c.payload
    else if answer && cellTyp c == 2 then s1.statusCell q e c
    else if (s.portOf q).got.contains key then s.setFlag (pq AQR_FLAGS_DUP_CELL q)
    else if cellTyp c = 1 then s1.dataCell q c room
    else (s1.onPort q (fun p => { p with got := key :: p.got })).statusCell q e c

/-- The hop count of a cell at an end: its own count of SOF and SOC, or the cell that a retry copy repeats (R240). -/
def PortEnd.hopOf (x : PortEnd) (c : RingCell) : Nat := if c.start = 2 then c.hopCount.toNat else x.rxCount

/-- An end counts a cell behind SOF or SOC; a new cell has not been retried yet. -/
def PortEnd.countCell (x : PortEnd) (c : RingCell) : PortEnd :=
  if c.start = 2 then x else { x with rxCount := (x.rxCount + 1) % 16, retry := x.retry.filter (fun r => r.1 ≠ x.rxCount) }

/-- A cell that fails R232: NAK with its count, until the third bad copy or 40 µs after the first NAK (R240). -/
def PortEnd.nakCell (x : PortEnd) (h now : Nat) : PortEnd :=
  match x.retry.find? (fun r => r.1 = h) with
  | none => ({ x with retry := x.retry ++ [(h, 1, now)] }).send (.nak h)
  | some (_, bad, at0) =>
    if bad < 3 ∧ now < at0 + usTicks 40 then
      ({ x with retry := x.retry.map (fun (r : Nat × Nat × Nat) => if r.1 = h then (h, bad + 1, at0) else r) }).send (.nak h)
    else { x with retry := x.retry.filter (fun r => r.1 ≠ h) }

/-- What a looping end passes on: a bad cell with ABT in place of its last CRC byte (R240, R247). -/
def PortEnd.passOn (x : PortEnd) (c : RingCell) : PortEnd := x.send (.loop { c with abt := c.abt || !cellGood c })

/-- CELL_RECEIVED (R232, R240, R241). A looping B-end passes every cell on and takes none (R247). -/
def State.receiveCell (s : State) (q e : Nat) (c : RingCell) (room : Bool) : State :=
  let h := (s.endOf q e).hopOf c
  let loops := e == 1 && s.flag (pq AQR_STATE_B_LOOP q)
  let s1 := s.onEnd q e (fun x => x.countCell c)
  let s2 := if loops then s1.onEnd q e (fun x => x.passOn c) else s1
  if c.abt then (s2.count (pq AQR_CNT0_KILLED_CNT q)).onEnd q e (fun x => { x with abtAt := some s.now })
  else if cellGood c then
    let s3 := s2.onEnd q e (fun x => { x with retry := x.retry.filter (fun r => r.1 ≠ h) })
    if loops then s3 else s3.acceptCell q e c room
  else s2.onEnd q e (fun x => x.nakCell h s.now)

def execCellReceived (q : Fin 64) (e : Fin 2) (c : RingCell) (room : Bool) (s : State) : Answer :=
  whenPort q s (s.receiveCell q e c room)

/-- NAK_RECEIVED: the copy goes out behind SOR, if the retry buffer still holds the cell (R240, R243, R259). -/
def State.nakReceived (s : State) (q e count : Nat) : State :=
  let s1 := s.flushPort q
  match (s1.endOf q e).kept.find? (fun p => p.1 = count) with
  | some p => (s1.count (pq AQR_CNT0_RETRY_CNT q)).onEnd q e (fun x => x.send (.copy p.2))
  | none => s1

def execNakReceived (q : Fin 64) (e : Fin 2) (count : BitVec 4) (s : State) : Answer := whenPort q s (s.nakReceived q e count.toNat)

/-- HOP_RETRY_GIVEUP: the cell whose first NAK is the oldest is lost (R240). -/
def execHopRetryGiveup (q : Fin 64) (e : Fin 2) (s : State) : Answer :=
  whenPort q s (s.onEnd q e (fun x => { x with retry := x.retry.tail }))

/-- NODE_STALE (R242). The timer holds while an ABT of the port is less than 40 µs old (R260). -/
def State.goStale (s : State) (q l : Nat) : State :=
  let recent (x : PortEnd) : Bool := match x.abtAt with | some t => decide (s.now < t + usTicks 40) | none => false
  let p := s.portOf q
  if !s.nodePresent q l || s.nodeStale q l || recent p.a || recent p.b then s
  else
    let s1 := ((s.setNodeBit AQR_NODE_STALE q l true).setFlag (pq AQR_FLAGS_NODE_STALE q)).count (pq AQR_CNT1_STALE_CNT q)
    let s2 := s1.onEntries q l (fun x => { x with stale := true })
    if s2.nodeMeasures q l then s2.aggStale q else s2

def execNodeStale (q : Fin 64) (l : Fin 512) (s : State) : Answer := whenPort q s (s.goStale q l)

/-! ### Sweeps (R242, R243, R249, R250, R253) -/

/-- Every wrapped node and every wrapped device end shows LINK_UP (R249). -/
def PortUnit.healed (p : PortUnit) : Bool :=
  (!p.wrapped.isEmpty || p.a.wrapped || p.b.wrapped) && p.wrapped.all (fun l => p.nodeUp.contains l) &&
    (!p.a.wrapped || p.a.linkUp) && (!p.b.wrapped || p.b.linkUp)

/-- UNWRAP and ENUM at a sweep start, after REDISCOVER or a heal. -/
def State.sweepRepair (s : State) (q : Nat) : State :=
  let p := s.portOf q
  let heal := p.healed
  if heal || p.rediscover then
    let s1 := s.onPort q (fun p =>
      { p with
        rediscover := false, wrapped := [], nodeUp := []
        a := { p.a with wrapped := false, linkUp := false, silent := false }
        b := { p.b with wrapped := false, linkUp := false, silent := false } })
    let s2 := (s1.sendBroadcast q 0 7 0).sendBroadcast q 1 7 0
    (s2.sendEnum q 0 0 0).setFlagIf heal (pq AQR_FLAGS_HEALED q)
  else s

/-- SNAP from an end with D, the longest chain in hops; the end's first sweep frame waits for SNAP_LEAD (R234, R250). -/
def State.sendSnap (s : State) (q e : Nat) : State :=
  let d := max (s.endRange q 0).2 (s.endRange q 1).2
  match s.liveEnd q e with
  | some k =>
    let t := max s.now (s.endOf q k).freeAt
    ((s.sendBroadcast q e 2 (BitVec.ofNat 32 (d * 65536))).onEnd q k (fun x =>
      { x with holdTo := t + usTicks (100 * s.actFld (pq AQR_SWEEP_SNAP_LEAD q)) })).onPort q (fun p => { p with snapAt := t })
  | none => s

/-- One end's part of a sweep: SNAP, then frames of NPF nodes in path order (R250). -/
def State.endSweep (s : State) (q e : Nat) : State :=
  let s1 := if s.actFld (pq AQR_SWEEP_SNAP_EN q) = 1 then s.sendSnap q e else s
  let r := s.endRange q e
  (frameRanges e r.1 r.2 (max 1 (s.actFld (pq AQR_SWEEP_NPF q)))).foldl (fun (t : State) c =>
    t.sendFrame q e (t.sweepFrame q c.1 c.2)) s1

/-- A sweep starts: shadows transfer, repairs are made, and each serving end sends SNAP and its sweep frames. -/
def State.beginSweep (s : State) (q : Nat) : State :=
  let s1 := (((s.transfer (pq AQR_CFG q)).transfer (pq AQR_STALE_T q)).transfer (pq AQR_SWEEP q)).flushPort q
  let f := s1.actFld (pq AQR_CFG_PROFILE q)
  let s2 := s1.onPort q (fun p =>
    { p with
      sweepNo := p.sweepNo + 1, sweepAt := s.now, snapAt := s.now, got := [], asked := [], lateDue := false
      pclass := (List.range 10).map (fun w => s.reg (SHF_PCLASS f w)) })
  let s3 := (s2.setFld (pq AQR_STATE_SWEEPING q) 1).sweepRepair q
  (s3.servingEnds q).foldl (fun t e => t.endSweep q e) s3

/-- A sweep may run: the port knows its ring, and the Shelf is initialised. -/
def State.canSweep (s : State) (q : Nat) : Bool := decide (3 ≤ s.portState q) && s.flag SHF_STATUS_INIT_DONE

/-- SWEEP_START: SWEEP_T after the previous start; late where that sweep still runs (R250). -/
def State.sweepStart (s : State) (q : Nat) : State :=
  if !s.canSweep q then s
  else if s.flag (pq AQR_STATE_SWEEPING q) then
    (((s.count (pq AQR_CNT2_SWEEP_LATE_CNT q)).setFlag (pq AQR_FLAGS_SWEEP_LATE q)).onPort q (fun p => { p with lateDue := true }))
  else s.beginSweep q

def execSweepStart (q : Fin 64) (s : State) : Answer := whenPort q s (s.sweepStart q)

/-- Cells requested of a node: its data cells and one status cell. -/
def State.requested (s : State) (q l : Nat) : List (Nat × Nat × Nat) :=
  (2, l, 0) :: (List.range ((s.nodePoints q l + 7) / 8)).map (fun i => (1, l, i))

/-- The port once every frame of the sweep has gone. -/
def State.sweepSent (s : State) (q : Nat) : PortUnit := (s.portOf q).flush (max s.now (max (s.portOf q).a.freeAt (s.portOf q).b.freeAt))

/-- SWEEP_END (R242, R243, R253, R254). -/
def State.sweepEnd (s : State) (q : Nat) : State :=
  if !s.flag (pq AQR_STATE_SWEEPING q) then s
  else
    let p := s.sweepSent q
    let asked := (s.nodes q).filter (fun l => p.asked.contains l)
    let lost := (asked.flatMap (fun l => (s.requested q l).filter (fun k => !p.got.contains k))).length
    let whole := asked.filter (fun l => (s.requested q l).all (fun k => p.got.contains k))
    let s1 := (s.onPort q (fun _ => p)).ageEntries q
    let s2 := if lost = 0 then s1
      else (s1.countBy (pq AQR_CNT1_CELL_LOST_CNT q) lost).setFlag (pq AQR_FLAGS_CELL_LOST q)
    let s3 := whole.foldl (fun (t : State) l => t.setNodeBit AQR_NODE_STALE q l false) s2
    let s4 := ((s3.setFld (pq AQR_SWEEP_STAT_SWEEP_COUNT q) p.sweepNo).setFld (pq AQR_SWEEP_STAT_LAST_T q)
      (min ((s.now - p.sweepAt) / 4000) 65535)).setFld (pq AQR_STATE_SWEEPING q) 0
    let s5 := s4.writeAggregate q
    if p.lateDue && s5.canSweep q then s5.beginSweep q else s5

def execSweepEnd (q : Fin 64) (s : State) : Answer := whenPort q s (s.sweepEnd q)

/-! ### Port commands (R237, R250, R260) -/

/-- AQR_REDISCOVER: UNWRAP and ENUM at the next sweep start; CROSSED looping ends (R237, R247). -/
def State.rediscover (s : State) (q : Nat) : State :=
  let s1 := s.onPort q (fun p => { p with rediscover := true })
  if s.portState q = 6 then (s1.setFld (pq AQR_STATE_B_LOOP q) 0).setFld (pq AQR_STATE_CROSS_PORT q) 0 else s1

def execAqrRediscover (q : Fin 64) (s : State) : Answer :=
  writeWindow (0x20 + q / 16) s (if s.portOn q then s.rediscover q else s)

/-- AQR_SWEEP_NOW (R250). -/
def State.sweepNow (s : State) (q : Nat) : State :=
  if s.canSweep q && !s.flag (pq AQR_STATE_SWEEPING q) then s.beginSweep q else s

def execAqrSweepNow (q : Fin 64) (s : State) : Answer :=
  writeWindow (0x20 + q / 16) s (if s.portOn q then s.sweepNow q else s)

/-- Operations that bring a status cell: READ, WRITE and SWEEP; the others are broadcast (R234). -/
def opReplies (op : Nat) : Bool := op == 4 || op == 5 || op == 1

/-- The data cells of a WRITE: NDATA cells of four CMD_DATA words each, the first byte most significant (log row 25). -/
def State.commandData (s : State) (q : Nat) : List (List Byte) :=
  if s.fld (pq AQR_CMD_HDR_OP q) = 5 then
    (List.range (min 4 (s.fld (pq AQR_CMD_CTRL_NDATA q)))).map (fun k =>
      (List.range 4).flatMap (fun i => (leBytes (s.reg (pq AQR_CMD_DATA q (4 * k + i)))).reverse))
  else []

/-- Nodes whose status cells a command waits for: NODE, or in a SWEEP NODE to NODE + COUNT. -/
def State.commandNodes (s : State) (q : Nat) : List Nat :=
  let l := s.fld (pq AQR_CMD_HDR_NODE q)
  match s.fld (pq AQR_CMD_HDR_OP q) with
  | 1 => List.range' l (s.fld (pq AQR_CMD_HDR_COUNT q) + 1)
  | 4 => [l]
  | 5 => [l]
  | _ => []

/-- Reply cells that the device expects of a command (R233, R234). -/
def State.commandCells (s : State) (q : Nat) : Nat :=
  match s.fld (pq AQR_CMD_HDR_OP q) with
  | 1 => ((s.commandNodes q).map (s.replyCells q)).sum
  | 3 => if s.fld (pq AQR_CFG_NODES q) = 0 then 512 else s.fld (pq AQR_CFG_NODES q)
  | 4 => bits (s.reg (pq AQR_CMD_ARG q)) 8 8 + 1
  | 5 => 1
  | _ => 0

/-- The frame of a command. -/
def State.commandFrame (s : State) (q : Nat) : RingFrame :=
  { op := s.fld (pq AQR_CMD_HDR_OP q), node := s.fld (pq AQR_CMD_HDR_NODE q), count := s.fld (pq AQR_CMD_HDR_COUNT q), port := q
    tag := (s.portOf q).cmdSeq % 65536, arg := s.reg (pq AQR_CMD_ARG q), data := s.commandData q
    reserve := s.reserve q (s.commandCells q) }

/-- A command frame from an end: at once, or between two sweep frames. -/
def State.sendCommand (s : State) (q e : Nat) : State :=
  match s.liveEnd q e with
  | some k => (s.onEnd q k (fun x => x.insertNext s.now { s.commandFrame q with fin := k })).flushPort q
  | none => s

/-- AQR_CMD_CTRL.GO: the command is queued and goes from the end that reaches its node; a broadcast goes from every
serving end (R250, R260). -/
def State.commandGo (s : State) (q : Nat) : State :=
  if (s.portOf q).cmdBusy then s.setFlag (pq AQR_FLAGS_WRITE_REFUSED q)
  else
    let s1 := ((s.setReg (pq AQR_CMD_RES q) 0).onPort q (fun p =>
      { p with readCells := 0, cmdSeq := p.cmdSeq + 1, cmdLeft := s.commandNodes q })).flushPort q
    if s.portState q < 3 then s1.commandEnd q 3 0
    else if opReplies (s.fld (pq AQR_CMD_HDR_OP q)) then
      (s1.onPort q (fun p => { p with cmdBusy := true })).sendCommand q (s.endFor q (s.fld (pq AQR_CMD_HDR_NODE q)))
    else ((s.servingEnds q).foldl (fun t e => t.sendCommand q e) s1).commandEnd q 0 0

/-- AQR_CMD_GO (R250). -/
def execAqrCmdGo (q : Fin 64) (s : State) : Answer := writeWindow (0x20 + q / 16) s (s.commandGo q)

/-- COMMAND_NO_REPLY (R260). -/
def execCommandNoReply (q : Fin 64) (s : State) : Answer :=
  whenPort q s (if (s.portOf q).cmdBusy then s.commandEnd q 1 0 else s)

/-- AQR_CFG.EN falls: the port stops at once; it rises: discovery starts. -/
def State.portEnable (s : State) (q : Nat) (was : Bool) : State :=
  let on := s.flag (pq AQR_CFG_EN q)
  if was && !on then
    (((s.setPortState q 0).setFld (pq AQR_STATE_SWEEPING q) 0).setFld (pq AQR_STATE_B_LOOP q) 0).onPort q (fun p =>
      { p with a := {}, b := {}, rediscover := false, lateDue := false, enumOut := false, wrapped := [], nodeUp := [] })
  else if !was && on && s.boot.fw then s.startDiscovery q
  else s

/-- SLEEP on every port before RETAIN (R245). -/
def State.sleepPorts (s : State) : State :=
  s.forAll 64 (fun q t => if t.portOn q then (t.servingEnds q).foldl (fun u e => u.sendBroadcast q e 8 0) t else t)

/-- Discovery on every port with EN = 1 (R245, R448). -/
def State.discoverAll (s : State) : State := s.forAll 64 (fun q t => t.startDiscovery q)

end Sys2Proof.Machine
end

