-- ==== Sys2Proof/Machine/Boundary.lean ====
section
/-! DEFINITION. The station period boundary and the timebase (R27 step 0, R38, R168 to R170). -/

namespace Sys2Proof.Machine

/-- The period that begins at this boundary has done nothing yet; its loops start from the state committed by now. -/
def State.newPeriod (s : State) (n : Nat) : State :=
  (s.onStn n (fun u => { u with per := {}, base := u.eng, snapTime := (s.clock.secs, s.clock.ns) })).leaveService n

/-- The changes of the period that has ended stand. -/
def State.endTurn (s : State) (n : Nat) : State := s.onStn n (fun u => { u with turn := none })

/-- The timebase stops: its station leaves the engine's service, and what waited for a boundary happens now (R170, R489). -/
def State.stopTimebase (s : State) (n : Nat) : State :=
  ((((s.onPwm n (fun p => { p with run := false, j := 0 })).leaveService n).settleStopped n).endTurn n).updGates n

/-- Window comparators that have not released force again at a carrier start (R112). -/
def State.reforce (s : State) (n : Nat) : State := s.forAll 6 (fun c t => t.limitWindow n c)

/-- The boundary with index `j` of the carrier period; `passed` is false at the start of the timebase. The shadows
transfer first; a period in force of 0 stops the timebase. -/
def State.boundaryAt (s : State) (n j : Nat) (passed : Bool) : State :=
  let cs := decide (j = 0)
  let s1 := s.onPwm n (fun p => { p with run := true, b0 := s.now, j := j })
  let s2 := if cs && passed then s1.carrierEnd n else s1
  let s3 := if passed then s2.periodTimes n else s2
  let s4 := s3.pwmTransfer n cs passed
  if s4.prdAct n = 0 then s4.stopTimebase n
  else
    let s5 := (((s4.switchBank n).transferLoops n).transferGfm n).envBoundary n
    let s6 := if cs then s5.alignStart n else s5
    let s7 := (((((s6.newPeriod n).stationBoundary n).endTurn n).noteReady n).staleInputs n).updGates n
    if cs then s7.reforce n else s7

/-- The timebase may start: a period in force, no hold, not running (R170). -/
def State.canStart (s : State) (n : Nat) : Bool :=
  !(s.pwmOf n).run && decide (s.prdAct n ≠ 0) && !s.flag (PWM_TB_CTRL_TB_HOLD n)

/-- The timebase starts at k = 0, a carrier-start boundary with all its effects (R170). -/
def State.startTimebase (s : State) (n : Nat) : State :=
  if s.canStart n then s.boundaryAt n 0 false else s

/-- The carrier reaches its next boundary; under TB_HOLD the next carrier start stops it without a boundary. -/
def State.boundary (s : State) (n : Nat) : State :=
  let p := s.pwmOf n
  if !p.run then s
  else
    let j := (p.j + 1) % s.bpc n
    if j = 0 ∧ s.flag (PWM_TB_CTRL_TB_HOLD n) then
      (s.carrierEnd n).stopTimebase n
    else s.boundaryAt n j true

/-- While the timebase is stopped, shadows do not wait: the written ones in auto mode, the armed set in commit mode
(R170). The gates follow a mask table (R177), and a period that comes into force starts the timebase. -/
def State.stoppedTransfer (s : State) (n : Nat) : State :=
  if (s.pwmOf n).run then s
  else
    let p := s.pwmOf n
    let s1 :=
      if s.fld (PWM_TB_CFG_UPD_MODE n) = 0 then
        if p.armed then (s.transferAll (pwmSlow n ++ pwmFast n)).onPwm n (fun p => { p with armed := false, wr := [] }) else s
      else (s.transferAll p.wr).onPwm n (fun p => { p with wr := [] })
    (s1.updGates n).startTimebase n

/-- A write of a pulse shadow register over the bus (R169, R171, R179, R182). -/
def State.writeShadow (s : State) (n a : Nat) (w : Word) (late : Bool) : State :=
  if s.pwmValueOk n a w then
    let m := match regAt a with | some r => applyWrite r true w (s.reg a) | none => w
    ((s.shadowPwm n a m).setFlagIf (late && (s.pwmOf n).run) (PWM_FLAGS_LATE_WRITE n)).stoppedTransfer n
  else s.setFlag (PWM_FLAGS_VALUE_REFUSED n)

/-- A write of UPDATE_ARM = 1 (R179, R182). -/
def State.writeArm (s : State) (n : Nat) (late : Bool) : State :=
  if s.fld (PWM_TB_CFG_UPD_MODE n) = 0 then
    ((s.armUpdate n).setFlagIf (late && (s.pwmOf n).run) (PWM_FLAGS_LATE_WRITE n)).stoppedTransfer n
  else s.setFlagIf (late && (s.pwmOf n).run) (PWM_FLAGS_LATE_WRITE n)

/-- A write of TB_HOLD (R170, R196): idle-only, refused where it would change while the station is not idle. -/
def State.writeHold (s : State) (n : Nat) (hold : Bool) : State :=
  if hold == s.flag (PWM_TB_CTRL_TB_HOLD n) then s
  else if !s.stnIdle n then s.setFlag (PWM_FLAGS_WRITE_REFUSED n)
  else (s.setFld (PWM_TB_CTRL_TB_HOLD n) hold.toNat).startTimebase n

end Sys2Proof.Machine
end

