-- ==== Sys2Proof/Machine/Redundancy.lean ====
section
/-! DEFINITION. Engine redundancy: state copies, comparison of the privileged results, beats and the switch-over (R315 to
R336). -/

namespace Sys2Proof.Machine

/-! ### Synchronisation (R335) -/

def State.setStandby (s : State) (c : Nat) : State :=
  if s.red.active = 0 then { s with red := { s.red with stB := c } } else { s with red := { s.red with stA := c } }

/-- An enabled station: granted and not idle under R77. -/
def State.enabled (s : State) (n : Nat) : Bool := s.grantS n && !s.stnIdle n

def State.synced (s : State) (n : Nat) : Bool := s.fld (RED_STN_AGREE n) == 1000

def State.setAgree (s : State) (n a : Nat) : State :=
  (s.setFld (RED_STN_AGREE n) a).setFld (RED_STN_SYNC n) (if a = 1000 then 1 else 0)

/-- Every enabled station is synchronised. -/
def State.allSynced (s : State) : Bool := (List.range 4).all (fun n => !s.enabled n || s.synced n)

/-- The standby is in STANDBY: the return of a repaired engine is over. -/
def State.standbyBack (s : State) : State :=
  let t := s.setStandby 2
  { t with red := { t.red with returning := false } }

/-- SYNCING and STANDBY follow the agreement of the enabled stations. -/
def State.standbyRefresh (s : State) : State :=
  if s.standbyUp then
    if s.allSynced then (if s.standbyState = 3 then s.standbyBack.setFlag RED_FLAGS_RESYNC_DONE else s) else s.setStandby 3
  else s

/-- The standby holds the committed state of the station: its full image, or a copy of the loops that ran, with the others
as they were (R318). -/
def State.copyState (s : State) (n : Nat) : State := s.onStn n (fun u => { u with sby := u.eng, resend := false })

/-- At a boundary a station that is idle has no agreement to count, and the full image that follows a lost copy has reached
the standby by then (R320, R335; log row 96). -/
def State.redBoundary (s : State) (n : Nat) : State :=
  if s.grantB then
    let s1 := if (s.stnOf n).resend && s.standbyRuns && s.activeUp then s.copyState n else s
    (if s1.enabled n then s1 else s1.setAgree n 0).standbyRefresh
  else s

/-- Privileged loops of a station that run in this period. -/
def State.privLoops (s : State) (n : Nat) : List Nat :=
  (s.dueLoops n).filter (fun k => match s.stnLoop n k with | some d => d.priv | none => false)

/-- The period counts once its copy is answered and every privileged result is compared. A period that overran or was
silent counts for nothing. -/
def State.settlePeriod (s : State) (n : Nat) : State :=
  let p := (s.stnOf n).per
  if p.settled || p.overran || p.silent || !p.copyDone || decide (p.compared < (s.privLoops n).length) then s
  else
    let s1 := s.onPer n (fun p => { p with settled := true })
    let ok := p.copyOk && !p.differs
    let a := if ok then min 1000 (s.fld (RED_STN_AGREE n) + 1) else 0
    let s2 := if p.differs then s1 else s1.setFld (RED_STN_DIS_CONSEC n) 0
    (s2.setAgree n a).standbyRefresh

/-- A disagreement of the period, counted once; two in a row make a held removal (R323). Not counted in a period that
overran or was silent, nor in the one in which a fail-over is declared (R336). -/
def State.disagree (s : State) (n : Nat) : State :=
  let p := (s.stnOf n).per
  if p.differs || p.overran || p.silent || s.red.failing then s
  else
    let was := (s.fld (RED_STN_AGREE n), s.fld RED_CNT1_DISAGREE_CNT, s.fld RED_FLAGS_DISAGREE, s.fld (RED_STN_DIS_CONSEC n))
    let c := min 2 (s.fld (RED_STN_DIS_CONSEC n) + 1)
    let s1 := (s.onPer n (fun p => { p with differs := true, disWas := some was })).setFld (RED_STN_DIS_CONSEC n) c
    let s2 := ((s1.count RED_CNT1_DISAGREE_CNT).setFlag RED_FLAGS_DISAGREE).setAgree n 0
    if c = 2 then s2.holdStation n 9 else s2

/-- A disagreement found in the period in which a fail-over is declared is taken back (R336). -/
def State.undoDisagree (s : State) (n : Nat) : State :=
  match (s.stnOf n).per.disWas with
  | some (agree, cnt, flag, consec) =>
    ((((s.setFld RED_CNT1_DISAGREE_CNT (min (s.fld RED_CNT1_DISAGREE_CNT) cnt)).setFld RED_FLAGS_DISAGREE
      (min (s.fld RED_FLAGS_DISAGREE) flag)).setFld (RED_STN_DIS_CONSEC n) consec).setAgree n agree).onPer n (fun p =>
      { p with disWas := none })
  | none => s

/-! ### State copy (R318 to R320) -/

/-- Words of a station's privileged loops, on the active engine and on the standby, differ. -/
def State.privDiffers (s : State) (n : Nat) : Bool :=
  (List.range 64).any (fun k =>
    match s.stnLoop n k with
    | some d => d.priv && d.layout.any (fun v => f32OfRat (s.getVar n k v) != f32OfRat ((s.asStandby n).getVar n k v))
    | none => false)

/-- A copy is lost: it is not repeated, the station is no longer synchronised, and its full image follows in idle link time
(R320). -/
def State.loseCopy (s : State) (n : Nat) : State :=
  let was := (s.now, s.fld (RED_STN_AGREE n), s.fld RED_CNT2_COPY_LOST_CNT, s.fld RED_FLAGS_COPY_LOST)
  let s1 := s.onStn n (fun u =>
    { u with
      per := { u.per with copyDone := true, copyOk := false }, resend := true,
      copyLost := was :: u.copyLost.filter (fun e => decide (s.now < e.1 + 4000)) })
  (((s1.count RED_CNT2_COPY_LOST_CNT).setFlag RED_FLAGS_COPY_LOST).setAgree n 0).standbyRefresh

/-- The oldest copy lost within 10 µs: what broke before a fail-over that is declared now. -/
def State.lostSince (s : State) (n : Nat) : Option (Nat × Nat × Nat × Nat) :=
  ((s.stnOf n).copyLost.filter (fun e => decide (s.now ≤ e.1 + 4000))).getLast?

/-- Copies that broke within the 10 µs before a fail-over is declared are abandoned periods: nothing of them counts, and
the station stays synchronised (R320). -/
def State.undoLost (s : State) (n : Nat) : State :=
  match s.lostSince n with
  | some (_, agree, cnt, flag) =>
    (((s.setFld RED_CNT2_COPY_LOST_CNT (min (s.fld RED_CNT2_COPY_LOST_CNT) cnt)).setFld RED_FLAGS_COPY_LOST
      (min (s.fld RED_FLAGS_COPY_LOST) flag)).setAgree n agree).onStn n (fun u => { u with copyLost := [], resend := false })
  | none => s

/-- The copy of a period is acknowledged, or lost: it broke, or an engine has stopped. `upset` says that the state on the
standby has been corrupted; a difference is found where the privileged words differ. -/
def State.copyAck (s : State) (n : Nat) (intact upset : Bool) : State :=
  let p := (s.stnOf n).per
  if !s.standbyUp || !p.copyDue || p.copyDone || s.red.failing then s
  else if intact && s.standbyRuns && s.activeUp then
    let s1 := (s.copyState n).onPer n (fun p => { p with copyDone := true, copyOk := true })
    (if upset || s.privDiffers n then s1.disagree n else s1).settlePeriod n
  else s.loseCopy n

/-! ### Privileged results (R321 to R323) -/

/-- The standby runs a privileged loop of the period on its own state; its compares reach the shadows. -/
def State.runSubst (s : State) (n k : Nat) : State :=
  match s.stnLoop n k with
  | some d =>
    let e := (s.stnOf n).eng
    let r := (s.asStandby n).runLoop n k ((d.rate : Rat) * s.tPer n) d.blocks
    { (r.keepStandby r n).onStn n (fun u => (u.withEng e)) with red := s.red }
  | none => s

/-- The active engine has delivered every privileged result of the period. -/
def State.privDelivered (s : State) (n : Nat) : Bool := (s.privLoops n).all (fun k => (s.stnOf n).per.loopsDone.getLsbD k)

/-- Privileged loops of the period that the standby has still to run. -/
def State.substLoops (s : State) (n : Nat) : List Nat :=
  (s.privLoops n).filter (fun k => !(s.stnOf n).per.sbyRan.getLsbD k)

/-- The standby's privileged results are present: its list is complete, no set-point word of the period is missing (R150,
R324), and nothing else has delayed it. -/
def State.substReady (s : State) (n : Nat) (standby : Bool) : Bool :=
  standby && s.standbyRuns && s.listComplete n && (s.substLoops n).all (fun k => !s.awaitsWord n k)

/-- The class of the period at the deadline plus 40 ns. A silent period commits nothing on the engine that fell silent;
`cycles` is the control cycle after the boundary in which the standby has finished what it runs in its place. -/
def State.classify (s : State) (n : Nat) (standby : Bool) (cycles : Nat) : State :=
  let p := (s.stnOf n).per
  if !s.grantB || !(s.pwmOf n).run || p.classed then s
  else
    let s1 := s.onPer n (fun p => { p with classed := true })
    if p.overran || s.privDelivered n then s1.setFld (RED_STN_SUBST n) 0
    else
      let ran := s.substLoops n
      let s2 := ((s1.onStn n (fun u =>
        { u.withEng u.base with per := { u.per with silent := true, finished := true } })).leaveService n).count
        (RED_STN_SILENT_CNT n)
      let s3 := if s.substReady n standby && !ran.isEmpty then s2.noteFinish (1 - s.activeEng) n cycles else s2
      if s.substReady n standby then
        ((((s3.forEach ran (fun k t => t.runSubst n k)).onPer n (fun p =>
          { p with sbyRan := ran.foldl (fun b k => b ||| BitVec.ofNat 64 (2 ^ k)) p.sbyRan })).count
          RED_CNT1_SUBST_CNT).setFlag RED_FLAGS_SUBSTITUTED).setFld (RED_STN_SUBST n) 1
      else s3.setFld (RED_STN_SUBST n) 0

/-- Both values of one privileged loop are present: they differ where the outputs do, or where a fault has upset one of
them (`upsetA` is what it does to the active engine's value, `upsetB` to the standby's). -/
def State.comparePriv (s : State) (n k : Nat) (upsetA upsetB : Word) : State :=
  let p := (s.stnOf n).per
  if !s.standbyRuns || !s.activeUp || p.overran || p.silent then s
  else
    match p.outs.find? (fun e => e.1 == k) with
    | some (_, a, b) =>
      let s1 := s.onPer n (fun p => { p with compared := p.compared + 1, outs := p.outs.filter (fun e => e.1 != k) })
      (if a ^^^ upsetA = b ^^^ upsetB then s1 else s1.disagree n).settlePeriod n
    | none => s

/-! ### Beats (R325 to R329) -/

/-- An engine that is watched: ACTIVE, STANDBY or SYNCING. -/
def watched (c : Nat) : Bool := c == 1 || c == 2 || c == 3

/-- The active engine is declared failed: what broke in the 10 µs before is an abandoned period (R320), and a disagreement
of the period does not count (R336). -/
def State.undoFailing (s : State) : State :=
  let t := s.forAll 4 (fun n t => (t.undoDisagree n).undoLost n)
  if t.standbyUp && t.allSynced && !s.allSynced then t.standbyBack else t

/-- Engine `x` (0 or 1) is in FAILED. -/
def RedUnit.fail (r : RedUnit) (x : Nat) : RedUnit :=
  if x = 0 then { r with stA := 4, missA := false } else { r with stB := 4, missB := false }

/-- Engine `x` is declared failed (R327). -/
def State.declareFailed (s : State) (x : Nat) : State :=
  if s.red.active.val = x then
    let t := s.undoFailing
    { t with red := { t.red.fail x with failing := true, declared := s.now } }
  else { s with red := { s.red.fail x with returning := false } }.setFlag RED_FLAGS_STANDBY_LOST

/-- One path of one engine at a slot: missed where the other's beat is seen and its own is not. -/
def slotMiss (own other : Bool) : Bool := other && !own

/-- The slot of one engine on both paths: a path fault, a first miss, or the declaration. -/
def State.beatSlot (s : State) (x : Nat) (link toggle fault : Bool) : State :=
  let s1 := if fault then (s.count RED_CNT0_PATH_FAULT_CNT).setFlag RED_FLAGS_PATH_FAULT else s
  let was := if x = 0 then s.red.missA else s.red.missB
  let both := link && toggle
  if both && was then s1.declareFailed x
  else if x = 0 then { s1 with red := { s1.red with missA := both } }
  else { s1 with red := { s1.red with missB := both } }

/-- A beat slot: which beats were seen on the link and on the toggle path. An engine that an internal error has stopped sends
none (R316). -/
def State.beats (s : State) (linkA linkB toggleA toggleB : Bool) : State :=
  if !s.grantB then s
  else
    let la := linkA && !s.red.deadA
    let lb := linkB && !s.red.deadB
    let ta := toggleA && !s.red.deadA
    let tb := toggleB && !s.red.deadB
    let s1 := (s.setFld RED_STATUS_LINK_PATH (la && lb).toNat).setFld RED_STATUS_TOGGLE_PATH (ta && tb).toNat
    let s2 : State := { s1 with
      red := { s1.red with
        beatA := if la || ta then s.now else s1.red.beatA,
        beatB := if lb || tb then s.now else s1.red.beatB } }
    if !watched s.red.stA || !watched s.red.stB || s.red.failing then s2
    else
      let s3 := s2.beatSlot 0 (slotMiss la lb) (slotMiss ta tb) (la != ta)
      s3.beatSlot 1 (slotMiss lb la) (slotMiss tb ta) (lb != tb)

/-! ### Switch-over (R330, R332) -/

/-- A station goes on with the engine that takes the ACTIVE role: its loops start from what that engine holds, and in the
period in progress only privileged loops still run, those that it has run already apart. -/
def Stn.takenOver (u : Stn) : Stn :=
  { u.withEng u.sby with
    sby := u.eng
    per := { u.per with
      taken := true, started := false, loopsDone := u.per.loopsDone ||| u.per.sbyRan, outs := [], copyDue := false } }

/-- The standby takes the ACTIVE role. -/
def State.takeRole (s : State) : State :=
  let r := s.red
  let r1 : RedUnit := if r.active = 0 then { r with stB := 1, active := 1 } else { r with stA := 1, active := 0 }
  ({ s with red := { r1 with failing := false }, serving := none, ready := [] }).forAll 4 (fun n t =>
    (t.onStn n Stn.takenOver).noteReady n)

/-- Steps 2 to 4 of the switch-over after a declared failure; `took` is its time in 10 ns. -/
def State.switchover (s : State) (took : Nat) : State :=
  if !s.red.failing || !s.standbyRuns then s
  else
    let lost := (List.range 4).filter (fun n => s.enabled n && !s.synced n)
    let s1 := lost.foldl (fun t n => t.holdStation n 9) s
    let s2 := (s1.setFlagIf (!lost.isEmpty) RED_FLAGS_FAILOVER_TRIP).takeRole
    let beat := if s.red.active = 0 then s.red.beatA else s.red.beatB
    let w := min took 4095 * 2 ^ 20 + min ((s.red.declared - beat) / 4) 4095 * 2 ^ 8 + 2 + s.red.active.val
    ((s2.setReg RED_LAST (BitVec.ofNat 32 w)).setFlag RED_FLAGS_FAILOVER).count RED_CNT0_FAILOVER_CNT

/-- Whether two healthy engines may exchange their roles. -/
def State.canExchange (s : State) : Bool :=
  s.grantB && s.standbyState == 2 && !s.standbyDead && !s.swapping && !s.red.failing && s.activeUp

/-- Exchange of the roles: the old active engine becomes STANDBY and keeps its synchronisation. -/
def State.exchange (s : State) : State :=
  let old := s.red.active.val
  let s1 := s.forAll 4 (fun n t => t.copyState n)
  let s2 := s1.takeRole
  let s3 : State := { s2 with red := if old = 0 then { s2.red with stA := 2 } else { s2.red with stB := 2 } }
  ((s3.setReg RED_LAST (BitVec.ofNat 32 (4 + old))).setFlag RED_FLAGS_EXCHANGED).count RED_CNT2_EXCHANGE_CNT

/-! ### Reload (R334) -/

def State.canReload (s : State) : Bool :=
  s.grantB && !s.swapping && ((s.red.stA == 1 && s.red.stB == 4) || (s.red.stB == 1 && s.red.stA == 4))

/-- Step 1: the failed engine is held in reset and its data memory cleared, the committed state in it included. -/
def State.startReload (s0 : State) : State :=
  let s := s0.forAll 4 (fun n t => t.onStn n (fun u => { u with sby := {} }))
  if s.red.active = 0 then
    { s with red := { s.red with stB := 5, deadB := false, missB := false, returning := true }, dmemB := [] }.setReg
      (RED_ENG_ERR 1) 0
  else
    { s with red := { s.red with stA := 5, deadA := false, missA := false, returning := true }, dmemA := [] }.setReg
      (RED_ENG_ERR 0) 0

/-- Steps 2 and 3: image, tables and state reach the engine, and it starts to synchronise. -/
def State.endReload (s : State) : State :=
  let sync (t : State) : State := t.forAll 4 (fun n t => (t.copyState n).setAgree n 0)
  if s.red.active = 0 ∧ s.red.stB = 5 then
    let b := s.banksA
    sync { s with
      red := { s.red with stB := 3 }, dmemB := s.dmemA,
      banksB := { bank0 := b.act, bank1 := b.act, active := b.active, shdValid := b.act.isSome } }
  else if s.red.active = 1 ∧ s.red.stA = 5 then
    let b := s.banksB
    sync { s with
      red := { s.red with stA := 3 }, dmemA := s.dmemB,
      banksA := { bank0 := b.act, bank1 := b.act, active := b.active, shdValid := b.act.isSome } }
  else s

/-- An engine stops on an internal error (R316). -/
def State.engineStops (s : State) (e cause : Nat) : State :=
  let c := if e = 0 then s.red.stA else s.red.stB
  if !watched c || cause = 0 || (e = 1 && !s.grantB) then s
  else
    let r := if e = 0 then { s.red with deadA := true } else { s.red with deadB := true }
    ({ s with red := r, serving := if s.red.active.val = e then none else s.serving }).setReg (RED_ENG_ERR e)
      (BitVec.ofNat 32 (2 ^ 31 + cause))

end Sys2Proof.Machine
end

