-- ==== Sys2Proof/Machine/Snapshot.lean ====
section
/-! DEFINITION. The snapshot record of a station period (R29, R35 to R38) and the state codes of R76. -/

namespace Sys2Proof.Machine

/-- Codes of R76. -/
def stCode : StnState → Nat
  | .disabled => 0 | .ready => 1 | .deadBusStart => 2 | .synchronising => 3 | .running => 4 | .limiting => 5
  | .rideThrough => 6 | .openLoopV => 7 | .stopping => 8 | .tripped => 9

/-- Word 3: GFM_SNAP_STATUS. -/
def State.snapStatus (s : State) (n : Nat) : Word :=
  let u := s.stnOf n
  BitVec.ofNat 32 (stCode u.st * 2 ^ 24 + s.activeEng * 2 ^ 20 + (u.per.overran || u.per.silent).toNat * 2 ^ 19 +
    u.limitingNow.toNat * 2 ^ 18 + s.fld (GFM_ENV_STATUS_ENV_FALLBACK n) * 2 ^ 17 +
    s.fld TIM_STATUS_TIME_ESTIMATED * 2 ^ 16 + u.snapTime.1 / 2 ^ 32 % 2 ^ 16)

/-- Words 0 to 30 of the record. A station without a rotor reads 0.0 in words 4 to 9, 12 and 15. -/
def State.snapBody (s : State) (n : Nat) : List Word :=
  let u := s.stnOf n
  let c := u.core
  let rotor (x : Rat) : Word := if s.stnType n = 0 then f32OfRat x else 0
  let usr (i : Nat) : Word := f32OfRat (u.user.getD i 0)
  [BitVec.ofNat 32 u.count, BitVec.ofNat 32 (u.snapTime.2 % 2 ^ 30), BitVec.ofNat 32 u.snapTime.1, s.snapStatus n,
   rotor (c.theta * Config.twoPi), rotor c.omega, rotor c.vdq.d, rotor c.vdq.q, rotor c.idq.d, rotor c.idq.q,
   f32OfRat c.p, f32OfRat c.q, rotor c.emf, f32OfRat c.rvEff, f32OfRat c.xvEff, rotor c.hEff,
   f32OfRat u.lim.fcBudget, f32OfRat c.vdc] ++ (List.range 12).map usr ++
  [if u.env.otp then 0 else u.env.seq]

/-- The record with its CRC-32C over words 0 to 30, each least significant byte first. -/
def State.snapRecord (s : State) (n : Nat) : List Word :=
  let b := s.snapBody n
  b ++ [crc32c (b.flatMap leBytes)]

/-- Internal address of record k of a station's ring (R36). -/
def snapAddr (n seq : Nat) : Nat := 0x107FE000 + n * 0x800 + seq % 16 * 0x80

/-- Step 5 of the period is still to come: the state copy is due and neither acknowledged nor lost (R27, R318). -/
def State.copyOpen (s : State) (n : Nat) : Bool :=
  let p := (s.stnOf n).per
  p.copyDue && !p.copyDone && s.standbyUp && !s.red.failing

/-- The record reaches the GFM registers and the ring, or is dropped and counted (R36, R37); step 6 follows step 5 (R27; log row 117). -/
def State.writeSnap (s : State) (n : Nat) (accepted : Bool) : State :=
  let p := (s.stnOf n).per
  if !(s.pwmOf n).run || !p.finished || p.snapped || s.copyOpen n then s
  else
    let s1 := s.onPer n (fun p => { p with snapped := true })
    if accepted then
      let r := s.snapRecord n
      let s2 := (List.range 32).foldl (fun t i => t.setReg (GFM_SNAP n i) (r.getD i 0)) s1
      s2.setBytes (snapAddr n (s.stnOf n).count) (r.flatMap leBytes)
    else s1.count (GFM_SNAP_DROP_DROP n)

/-- A read of GFM_SNAP[0] latches the other words into the read copy (R35). -/
def State.latchSnap (s : State) (n : Nat) : State :=
  s.onStn n (fun u => { u with snapCopy := (List.range 32).map (fun i => s.reg (GFM_SNAP n i)) })

end Sys2Proof.Machine
end

