-- ==== Sys2Proof/Machine/Supervision.lean ====
section
/-! DEFINITION. Lowboy, Settle and Highboy: inputs, outputs and their tests, monitored stops, cross-checks, requests and
release, and the meanings of the events of chapter 13. -/

namespace Sys2Proof.Machine

/-! ### Safety inputs (R342 to R345) -/

/-- Apply an operation to the granted stations of a pair's map. -/
def State.sinStations (s : State) (x : Nat) (f : Nat → State → State) : State :=
  s.forAll 4 (fun n t => if t.fldBit (SAF_SIN_MAP_STN x) n && t.grantS n then f n t else t)

/-- Ticks of T_DISC. -/
def State.discTicks (s : State) : Nat := usTicks (1000 * s.fld SAF_TIM0_T_DISC)

/-- A contact changes level. A latched discrepancy clears after both contacts have read open and then both closed within
T_DISC of each other (R344). -/
def State.sinLevel (s : State) (x : Nat) (trackB closed : Bool) : State :=
  s.onSin x (fun p =>
    let q := if trackB then { p with b := closed } else { p with a := closed }
    if !q.a && !q.b then { q with bothOpenSeen := true, closeBy := none }
    else if q.a && q.b then
      let near := match q.closeBy with | some t => decide (s.now ≤ t) | none => true
      if q.bothOpenSeen && near then { q with disc := false, bothOpenSeen := false, closeBy := none }
      else { q with bothOpenSeen := false, closeBy := none }
    else if closed then { q with closeBy := some (s.now + s.discTicks) }
    else q)

/-- A pair's demand acts by its function (R345). -/
def State.sinDemand (s : State) (x : Nat) : State :=
  match s.fld (SAF_SIN_MAP_FUNC x) with
  | 0 => s
  | 2 => if s.safe.settleRuns then s.sinStations x (fun n t => t.startSafeStop n) else s
  | _ => s.sinStations x (fun n t => t.holdStation n 1)

/-- SIN_LEVEL_CHANGE. -/
def execSinLevelChange (x : Fin 8) (trackB closed : Bool) (s : State) : Answer := .next (s.sinLevel x trackB closed)

/-- SIN_DEMAND_VALID: a contact has read open for SIN_FILT (R343). -/
def execSinDemandValid (x : Fin 8) (s : State) : Answer :=
  let p := s.sinOf x
  .next (if (!p.a || !p.b) && !p.demand then (s.onSin x (fun p => { p with demand := true })).sinDemand x else s)

/-- SIN_DEMAND_END (R343). -/
def execSinDemandEnd (x : Fin 8) (s : State) : Answer :=
  .next (s.onSin x (fun p => if p.a && p.b && !p.disc then { p with demand := false } else p))

/-- SIN_DISCREPANCY: one contact has not followed within T_DISC (R344, R345). -/
def execSinDiscrepancy (x : Fin 8) (s : State) : Answer :=
  let p := s.sinOf x
  .next (if p.a == p.b || p.disc then s
    else
      let s1 := s.onSin x (fun p => { p with disc := true, demand := true, bothOpenSeen := false })
      let s2 := (s1.count SAF_CNT0_DISC_CNT).setFlag SAF_FLAGS_DISCREPANCY
      if s.fld (SAF_SIN_MAP_FUNC x) = 0 then s2 else s2.sinStations x (fun n t => t.holdStation n 2))

/-! ### Safe outputs (R340, R346 to R348) -/

/-- A readback or test failure: the output is faulty and low, and its stations are held (R347). -/
def State.soutFault (s : State) (k : Nat) : State :=
  if (s.soutOf k).fault then s
  else
    let s1 := s.onSout k (fun o => { o with fault := true, level := false, testing := false, deferred := false })
    let s2 := (s1.count SAF_CNT1_SOUT_FAULT_CNT).setFlag SAF_FLAGS_SOUT_FAULT
    s2.forAll 4 (fun n t => if t.soutMap k n && t.grantS n then t.holdStation n 8 else t)

/-- SOUT_TEST_DUE (R346). -/
def execSoutTestDue (k : Fin 8) (s : State) : Answer := .next (s.testDue k)

/-- SOUT_TEST_END: the pulse ends with the readback at a level (R346). -/
def execSoutTestEnd (k : Fin 8) (srb : Bool) (s : State) : Answer :=
  .next (if !(s.soutOf k).testing then s
    else if srb then ((s.onSout k (fun o => { o with srb := true })).soutFault k).runDeferred
    else (s.onSout k (fun o => { o with testing := false, level := true, srb := false })).runDeferred)

/-- The readback of an output outside a test (R346). -/
def State.readback (s : State) (k : Nat) (srb : Bool) : State :=
  let s1 := s.onSout k (fun o => { o with srb := srb })
  let o := s1.soutOf k
  if s.safe.settleRuns && !o.testing && o.srb != o.level then s1.soutFault k else s1

/-- SRB_READBACK_CHECK: 1 ms after the output returns or changes (R346). -/
def execSrbReadbackCheck (k : Fin 8) (srb : Bool) (s : State) : Answer := .next (s.readback k srb)

/-- SRB_LEVEL_CHANGE: the readback has stood at a level for 1 ms on its own (R346). -/
def execSrbLevelChange (k : Fin 8) (level : Bool) (s : State) : Answer := .next (s.readback k level)

/-- POST_RELEASE_TEST: 50 ms after the output is re-energised (R348). -/
def execPostReleaseTest (k : Fin 8) (s : State) : Answer := .next (s.testDue k)

/-! ### Highboy (R349 to R352) -/

/-- Highboy demands a held removal. -/
def State.highboyHold (s : State) (n cause : Nat) : State :=
  ((s.setFlag SAF_FLAGS_HB_STO).count SAF_CNT1_HB_STO_CNT).holdStation n cause

/-- The monitored quantity x of a station (R351). -/
def State.stopX (s : State) (n : Nat) : Rat :=
  if s.stnType n = 1 then ratAbs (tget (fun _ => 0) s.safe.encSpeed n)
  else match (s.safeOf n).record[10]? with
    | some w => ratAbs (f32ToRat w)
    | none => 0

/-- The limit curve L(t) of R351: machine drive, and the others. -/
def stopLimit (machine : Bool) (x0 tol slope tDelay t : Rat) : Rat :=
  if t < tDelay then x0 + tol
  else if machine then ratMax (x0 - slope * (t - tDelay)) 0 + tol
  else x0 * ratMax 0 (1 - (t - tDelay) / slope) + tol

def State.stopLim (s : State) (n : Nat) (t : Rat) : Rat :=
  if s.stnType n = 1 then stopLimit true (s.safeOf n).x0 (s.safPar n 2) (s.safPar n 1) (s.safPar n 0) t
  else stopLimit false (s.safeOf n).x0 (s.safPar n 5) (s.safPar n 4) (s.safPar n 0) t

/-- The zero level that ends a safe stop. -/
def State.stopZero (s : State) (n : Nat) : Rat := if s.stnType n = 1 then s.safPar n 3 else s.safPar n 6

/-- One evaluation of a monitored stop (R351). -/
def State.monitorStop (s : State) (n : Nat) : State :=
  let f := s.safeOf n
  let u := s.stnOf n
  if !f.stop then s
  else if !f.demanded && u.st != .stopping then s.onSafe n (fun f => { f with stop := false })
  else
    let t : Rat := ((s.now - f.stopAt : Nat) : Rat) * tickSec
    let x := s.stopX n
    let l := s.stopLim n t
    let k := if l < x then f.hiCount + 1 else 0
    let s1 := ((s.setReg (SAF_HB_VAL n) (f32OfRat x)).setReg (SAF_HB_LIM n) (f32OfRat l)).onSafe n (fun f =>
      { f with hiCount := k })
    if 2 ≤ k then s1.highboyHold n 4
    else if s.safPar n 7 ≤ t then s1.highboyHold n 5
    else if f.demanded && (decide (x ≤ s.stopZero n) || !u.enHigh) then s1.highboyHold n 3
    else s1

/-- A word of the latest good record as a number. -/
def State.recordRat (s : State) (n i : Nat) : Rat := f32ToRat ((s.safeOf n).record.getD i 0)

/-- The cross-checks of a station with enables high (R352). -/
def State.crossCheck (s : State) (n : Nat) : State :=
  let f := s.safeOf n
  if !(s.stnOf n).enHigh || f.held then s.onSafe n (fun f => { f with pCount := 0, xCount := 0 })
  else if usTicks 1000 < s.now - f.goodAt then s.highboyHold n 7
  else if f.record.isEmpty then s
  else match s.stnType n with
    | 0 =>
      let d := ratAbs (s.recordRat n 10 - (s.recordRat n 6 * s.recordRat n 8 + s.recordRat n 7 * s.recordRat n 9))
      let k := if 1 / 20 < d then f.pCount + 1 else 0
      let s1 := s.onSafe n (fun f => { f with pCount := k })
      if 4 ≤ k then s1.highboyHold n 7 else s1
    | 1 =>
      let word := 18 + (floorRat (s.safPar n 13)).toNat
      let d := ratAbs (tget (fun _ => 0) s.safe.encSpeed n - s.recordRat n word)
      let k := if s.safPar n 8 < d then f.xCount + 1 else 0
      let s1 := s.onSafe n (fun f => { f with xCount := k })
      if 40 ≤ k then s1.highboyHold n 6 else s1
    | _ => s

/-- HIGHBOY_TICK: every station is evaluated, with the speeds ω_H that Settle's counters measure (R349, R351). -/
def execHighboyTick (speeds : List Rat) (s : State) : Answer :=
  let s1 : State := { s with
    safe := { s.safe with encSpeed := (List.range 4).foldl (fun m n => tset (fun _ => 0) m n (speeds.getD n 0)) [] } }
  .next (if s.safe.settleRuns then
    s1.forAll 4 (fun n t => if t.grantS n then (t.monitorStop n).crossCheck n else t) else s)

/-- SETTLE_SNAPSHOT_RECEIVED: a record is good when its CHECK word holds and its SEQ differs from the previous one's. -/
def execSettleSnapshotReceived (n : Fin 4) (words : List Word) (s : State) : Answer :=
  let seq := words.getD 0 0
  let whole := words.length == 32 && words.getD 31 0 == crc32c ((words.take 31).flatMap leBytes)
  .next (if whole && (s.safeOf n).lastSeq != some seq then
    s.onSafe n (fun f =>
      { f with
        goodAt := s.now, lastSeq := some seq, record := words
        lastP := (ratAbs (f32ToRat (words.getD 10 0)) :: f.lastP).take 4 })
    else s)

/-! ### Diagnostics (R338, R339, R354, R355, R357) -/

/-- SETTLE_SILENT: Settle's beat line has lapsed (R339). -/
def execSettleSilent (s : State) : Answer := .next ((s.setFlag SAF_LB_SETTLE_SILENT).holdAll 0x0B)

/-- Settle stops until the next device reset; it drives its outputs no more, and a release that it carried out ends. -/
def State.settleStops (s : State) : State :=
  let s1 : State := { s with safe := { s.safe with settleRuns := false, settleOk := false } }
  let s2 := s1.forAll 8 (fun k t => t.onSout k (fun o => { o with level := false, testing := false, deferred := false }))
  s2.forAll 4 (fun n t => t.onSafe n (fun f => { f with releasing := false, party := [] }))

/-- RC_FREQUENCY_CHECK: Settle finds Lowboy's RC within ±5 % or not (R354). -/
def execRcFrequencyCheck (ok : Bool) (s : State) : Answer :=
  .next (if !s.safe.settleRuns then s
    else
      let s1 := { s with safe := { s.safe with rcBad := !ok } }.setFld SAF_STATUS_RC_OK ok.toNat
      if ok then s1 else (s1.setFlag SAF_FLAGS_RC_FAULT).holdAll 0x0C)

/-- SETTLE_CRC_CHECK (R354, R355). -/
def execSettleCrcCheck (ok : Bool) (s : State) : Answer := .next (if ok then s else s.settleStops)

/-- SETTLE_LOCKSTEP_FAULT (R355). -/
def execSettleLockstepFault (s : State) : Answer := .next s.settleStops

/-- COVER_TOO_LONG: a cover of more than 10 s counts as a failed pair (R357). -/
def execCoverTooLong (s : State) : Answer :=
  .next (if 2 ≤ s.calState ∧ s.safe.settleRuns then s.pairFailed (s.cal.target / 2) else s)

/-- LOWBOY_OSCILLATOR_STOP: the permit of every station lapses (R338). -/
def execLowboyOscillatorStop (s : State) : Answer :=
  .next (({ s with safe := { s.safe with lowboyStopped := true } }).forAll 4 (fun n t => t.dropGates n))

/-! ### Requests and release (R350, R358) -/

/-- SAF_SS1_REQ: bit n starts a safe stop of station n (R350). -/
def State.requestSs1 (s : State) (mask : Nat) : State :=
  if s.safe.settleRuns then
    s.forAll 4 (fun n t => if mask.testBit n && t.grantS n then t.startSafeStop n else t) else s

def execSafSs1Req (mask : BitVec 4) (s : State) : Answer := .next (s.requestSs1 mask.toNat)

/-- SAF_STO_REQ: bit n makes a held removal of station n, cause REQUEST (R339). -/
def State.requestSto (s : State) (mask : Nat) : State :=
  if s.safe.settleRuns then
    s.forAll 4 (fun n t => if mask.testBit n && t.grantS n then t.holdStation n 0x0D else t) else s

def execSafStoReq (mask : BitVec 4) (s : State) : Answer := .next (s.requestSto mask.toNat)

/-- A demand or discrepancy stands on an STO or SS1 pair whose map names the station. -/
def State.demandOn (s : State) (n : Nat) : Bool :=
  (List.range 8).any (fun x => s.fld (SAF_SIN_MAP_FUNC x) != 0 && s.fldBit (SAF_SIN_MAP_STN x) n &&
    ((s.sinOf x).demand || (s.sinOf x).disc))

/-- A test instruction that takes the pins is loaded: EXTEST, CLAMP or HIGHZ (R466). -/
def State.scanning (s : State) : Bool := s.slk.ir == 3 || s.slk.ir == 4 || s.slk.ir == 5

/-- A device-wide source of R339 with held kind is still present, or a test instruction holds the stations (R466). -/
def State.sourcePresent (s : State) : Bool :=
  (s.clk.lostA && s.clk.lostB) || s.safe.rcBad || s.safe.lowboyStopped || s.scanning ||
    (s.grantB && s.red.deadA && s.red.deadB)

/-- Stations that a release request would release: held, granted and not already RELEASING. -/
def State.releaseSet (s : State) (mask : Nat) : List Nat :=
  (List.range 4).filter (fun n => mask.testBit n && s.grantS n && (s.safeOf n).held && !(s.safeOf n).releasing)

/-- The conditions of R358 for one named station of the set. -/
def State.releaseOk (s : State) (set : List Nat) (n : Nat) : Bool :=
  !s.demandOn n && s.settingsComplete n &&
    !(s.stnType n == 1 && (decide (s.safPar n 9 = 0) || decide (s.safPar n 10 = 0))) &&
    (List.range 8).all (fun k => !s.soutMap k n || (!(s.soutOf k).fault &&
      (List.range 4).all (fun o => !s.soutMap k o || !s.grantS o || !(s.safeOf o).held || set.contains o)))

/-- The debug port is OPEN or UNLOCKED: every release request is refused (R416). -/
def State.debugOpen (s : State) : Bool := s.fld SEC_DBG_STATE == 0 || s.fld SEC_DBG_STATE == 2

/-- A release request (R358, R416). `pathOk` says that Lowboy's permit falls and returns in the path test. -/
def State.requestRelease (s : State) (mask : Nat) (pathOk : Bool) : State :=
  let set := s.releaseSet mask
  if !s.safe.settleRuns || set.isEmpty then s
  else if pathOk && !s.sourcePresent && !s.debugOpen && set.all (s.releaseOk set) then
    let s1 := set.foldl (fun t n => t.onSafe n (fun f => { f with releasing := true, party := set })) s
    s1.forAll 8 (fun k t =>
      if set.any (fun n => t.soutMap k n) then t.onSout k (fun o => { o with level := true }) else t)
  else s.setFlag SAF_FLAGS_RELEASE_REFUSED

def execSafRelease (mask : BitVec 4) (pathOk : Bool) (s : State) : Answer :=
  .next (s.requestRelease mask.toNat pathOk)

/-- The permits of the released stations return; the latches of SAF_LB clear once every granted station is released. -/
def State.permitsReturn (s : State) (set : List Nat) : State :=
  let s1 := set.foldl (fun t n =>
    (t.onSafe n (fun f => { f with held := false, releasing := false, party := [] })).setFld (SAF_STN_CAUSE n) 0) s
  let s2 := if (List.range 4).all (fun n => !s1.grantS n || !(s1.safeOf n).held) then
      (s1.setFld SAF_LB_BOTH_SILENT 0).setFld SAF_LB_PLL_LOST 0 else s1
  set.foldl (fun t n => t.updGates n) s2

/-- The readbacks of the outputs of stations that are released together are read: all high, or the release fails and the
outputs that read low are faulty. -/
def State.releaseRead (s : State) (set : List Nat) (srb : BitVec 8) : State :=
  let outs := (List.range 8).filter (fun k => set.any (fun n => s.soutMap k n))
  let bad := outs.filter (fun k => !srb.getLsbD k)
  let s1 := outs.foldl (fun t k => t.onSout k (fun o => { o with srb := srb.getLsbD k })) s
  if bad.isEmpty then s1.permitsReturn set
  else bad.foldl (fun t k => t.soutFault k) (s1.failRelease set)

/-- RELEASE_READBACK: 1 ms after the outputs went high, their readbacks are read (R358). -/
def execReleaseReadback (srb : BitVec 8) (s : State) : Answer :=
  .next (s.forAll 4 (fun n t => if (t.safeOf n).releasing then t.releaseRead (t.safeOf n).party srb else t))

/-! ### Station enable inputs (R78) -/

/-- SEN_CHANGE: SENn low requests a stop, as a cleared RUN_REQ does. -/
def execSenChange (n : Fin 4) (level : Bool) (s : State) : Answer :=
  let was := s.sen.getLsbD n
  let s1 : State := { s with
    sen := if level then s.sen ||| BitVec.ofNat 4 (2 ^ n.val) else s.sen &&& ~~~(BitVec.ofNat 4 (2 ^ n.val)) }
  .next (if was && !level && s.islandsRun then
    (s1.onStn n (fun u => { u with stopReq := u.stopReq || !u.idle })).settleStopped n else s1)

end Sys2Proof.Machine
end

