-- ==== Sys2Proof/Machine/Trust.lean ====
section
/-! DEFINITION. Trust: keys and one-time rows, signed images, identity and sessions, generations and overlays, the Bureau
procedure and the debug lock (15_security_update.md). Cryptographic functions are the opaque constants of Config (log
row 5). -/

namespace Sys2Proof.Machine

/-! ### Keys (R392) -/

def OtpUnit.keyAt (o : OtpUnit) (role slot : Nat) : List Byte := tget (fun _ => []) o.keys (2 * role + slot)
def OtpUnit.isRevoked (o : OtpUnit) (role slot : Nat) : Bool := o.revoked.getLsbD (2 * role + slot)
def OtpUnit.live (o : OtpUnit) (role slot : Nat) : Bool := o.keyAt role slot != [] && !o.isRevoked role slot

/-- The slot in force for a role: 0 VENDOR, 1 IMAGE, 2 OPERATOR, 3 COMMISSIONING. -/
def OtpUnit.slotOf (o : OtpUnit) (role : Nat) : Option Nat := (List.range 2).find? (fun k => o.live role k)

/-- Key hash in force for a role. -/
def State.keyOf (s : State) (role : Nat) : List Byte :=
  match s.otp.slotOf role with | some k => s.otp.keyAt role k | none => []

/-- A signature over a byte string by the key of a hash; no key verifies nothing. -/
def signedBy (key msg sig : List Byte) : Bool := key != [] && Config.ecdsaVerify key (Config.sha384 msg) sig

/-- Roles other than `role` that hold a key hash, revoked or not. -/
def OtpUnit.usedElsewhere (o : OtpUnit) (role : Nat) (h : List Byte) : Bool :=
  (List.range 4).any (fun r => r != role && (List.range 2).any (fun k => o.keyAt r k == h))

/-! ### Signed images (R393 to R395) -/

def imgType (bs : List Byte) : Nat := fieldAt bs 0x04 2
def imgVersion (bs : List Byte) : Nat := fieldAt bs 0x08 4
def imgSvn (bs : List Byte) : Nat := fieldAt bs 0x0C 4
def imgLength (bs : List Byte) : Nat := fieldAt bs 0x10 4
def imgPayload (bs : List Byte) : List Byte := (bs.drop 0x110).take (imgLength bs)

/-- Role that signs a TYPE, and the floor of its security version. -/
def imgRole (typ : Nat) : Nat := if typ = 3 then 1 else 0
def State.imgFloor (s : State) (typ : Nat) : Nat :=
  match typ with | 1 => s.otp.svnFw | 2 => s.otp.svnSettle | _ => s.otp.svnTrestle

/-- Largest payload of a TYPE; a TYPE 2 image lies inside a TYPE 1 payload. -/
def imgMax (typ : Nat) : Nat := if typ = 3 then 65536 else 12582912 - 272

/-- Order number of the first check of R394 that fails for an image of the TYPE wanted; 0 where all pass. -/
def State.imageCheck (s : State) (want : Nat) (bs : List Byte) : Nat :=
  let slot := fieldAt bs 0x06 1
  let key := s.otp.keyAt (imgRole want) slot
  if fieldAt bs 0 4 != 0x4D494B49 || fieldAt bs 0x14 4 != 0x4B524848 || imgType bs != want then 1
  else if decide (2 ≤ slot) || !s.otp.live (imgRole want) slot || Config.sha384 ((bs.drop 0x48).take 97) != key then 2
  else if !Config.ecdsaVerify key (Config.sha384 (bs.take 0xB0)) ((bs.drop 0xB0).take 96) then 3
  else if decide (imgSvn bs < s.imgFloor want) then 4
  else if decide (imgMax want < imgLength bs) || (imgPayload bs).length != imgLength bs ||
    Config.sha384 (imgPayload bs) != (bs.drop 0x18).take 48 then 5
  else 0

/-- A TYPE 1 package passes when it and the TYPE 2 image inside it pass (R393, R396; log row 32). -/
def State.packageCheck (s : State) (bs : List Byte) : Nat :=
  let a := s.imageCheck 1 bs
  if a = 0 then s.imageCheck 2 (Config.settleImage (imgPayload bs)) else a

/-! ### Boot flash (R396, R397) -/

/-- An image slot of the flash: false for A. -/
def State.flashSlot (s : State) (b : Bool) : List Byte := if b then s.flash.slotB else s.flash.slotA

def State.setFlashSlot (s : State) (b : Bool) (bs : List Byte) : State :=
  { s with flash := if b then { s.flash with slotB := bs } else { s.flash with slotA := bs } }

/-- The slot that runs. -/
def State.runningSlot (s : State) : Bool := s.flag SEC_BOOT_SLOT

/-- VERSION of a slot, 0 where it is empty or fails. -/
def State.slotVersion (s : State) (b : Bool) : Nat :=
  if s.packageCheck (s.flashSlot b) = 0 then imgVersion (s.flashSlot b) else 0

def State.showVersions (s : State) : State :=
  (s.setReg SEC_FW_A (BitVec.ofNat 32 (s.slotVersion false))).setReg SEC_FW_B (BitVec.ofNat 32 (s.slotVersion true))

/-! ### Settings (R403, R404, R410) -/

/-- Addresses that a settings record may name. -/
def namable (a : Nat) : Bool :=
  (List.range 4).any (fun n =>
    decide (GFM_PAR n 0x30 ≤ a ∧ a ≤ GFM_PAR n 0x3C ∧ a % 4 = 0) ||
    a == GFM_ENV_OTP_PDIS n || a == GFM_ENV_OTP_PCHG n || a == GFM_ENV_OTP_ERES n || a == GATE_OTP n ||
    (List.range 6).any (fun c => a == GATE_WCMP_TRIP n c) || (List.range 14).any (fun i => a == SAF_PAR n i)) ||
  a == ADC_PLS_OTP0 || a == ADC_PLS_OTP1 || a == SAF_TIM0 || a == SAF_TIM1 ||
  (List.range 8).any (fun x => a == SAF_SIN_MAP x || a == SAF_SOUT_MAP x) || a == OTP_AUTH_DEF

/-- The value of a register that no record names: OTP_AUTH_DEF gives SPI 3, CAN FD 1, Ethernet 0, I²C 0. -/
def blankSetting (a : Nat) : Word := if a = OTP_AUTH_DEF then 7 else 0

/-- The value of a setting under a list of records. -/
def recordValue (l : List (Nat × Word)) (a : Nat) : Word :=
  match l.find? (fun e => e.1 == a) with | some e => e.2 | none => blankSetting a

/-- A body with the records of a request: each replaces the record of its address, or follows the others. -/
def mergeRecords (old new : List (Nat × Word)) : List (Nat × Word) :=
  new.foldl (fun l e => if l.any (fun x => x.1 == e.1) then l.map (fun x => if x.1 = e.1 then e else x) else l ++ [e]) old

/-- New settings: a changed one waits until its stations are idle; OTP_AUTH_DEF serves each new session (R410). -/
def State.takeRecords (s : State) (l : List (Nat × Word)) : State :=
  let s1 : State := { s with trust := { s.trust with records := l } }
  let s2 := l.foldl (fun t e =>
    if e.1 = OTP_AUTH_DEF then t.setBoth e.1 e.2
    else
      let rest := t.pendSet.filter (fun x => x.1 != e.1)
      let stay := if t.reg e.1 = e.2 then rest else rest ++ [e]
      { t with pendSet := stay }) s1
  s2.applySettings

/-- A field of a setting. -/
def recField (w : Word) (f : Fld) : Nat := bits w f.lo f.w

def within (lo hi x : Nat) : Bool := decide (lo ≤ x ∧ x ≤ hi)

/-- Settle's check of one setting under the values `look` of the whole result (R353, R408). -/
def State.settingOk (s : State) (look : Nat → Word) (a : Nat) : Bool :=
  let w := look a
  match parAt a with
  | some (n, i) =>
    let inRange := match parDesc i with | some p => (parCheck p w).isSome | none => false
    inRange && (decide (i ≠ parI_LIM ∧ i ≠ parI_OVL) ||
      decide (f32ToRat (look (GFM_PAR n parI_OVL)) ≤ f32ToRat (look (GFM_PAR n parI_LIM))))
  | none =>
    if a = SAF_TIM0 then
      within 1 1000 (recField w SAF_TIM0_SIN_FILT) && within 5 500 (recField w SAF_TIM0_T_DISC)
    else if a = SAF_TIM1 then
      within 1 100 (recField w SAF_TIM1_TEST_P) && within 10 100 (recField w SAF_TIM1_TEST_W)
    else if a = ADC_PLS_OTP0 then within 1 255 (recField w ADC_PLS_OTP0_PLS_LIMIT)
    else if a = ADC_PLS_OTP1 then
      decide (signedOf 16 (recField w ADC_PLS_OTP1_PLS_LO) < signedOf 16 (recField w ADC_PLS_OTP1_PLS_HI))
    else if (List.range 8).any (fun k => a == SAF_SOUT_MAP k) then
      (List.range 4).all (fun n => !bit w n || s.grantS n)
    else
      (List.range 4).all (fun n =>
        (!(a == GFM_ENV_OTP_PDIS n || a == GFM_ENV_OTP_PCHG n) || envOk w 4) &&
        (!(a == GFM_ENV_OTP_ERES n) || envOk w 600) &&
        (!(a == GATE_OTP n) ||
          ((recField w (GATE_OTP_BLANK n) == 0 || within 50 500 (recField w (GATE_OTP_BLANK n))) &&
            (recField w (GATE_OTP_DT n) == 0 || within 5 500 (recField w (GATE_OTP_DT n))) &&
            (recField w (GATE_OTP_MINP n) == 0 || within 2 200 (recField w (GATE_OTP_MINP n))))) &&
        (List.range 6).all (fun c =>
          !(a == GATE_WCMP_TRIP n c) || !s.flag (GATE_WCMP_CFG_EN n c) ||
            decide (recField w (GATE_WCMP_TRIP_LO n c) < recField w (GATE_WCMP_TRIP_HI n c))) &&
        (!((List.range 14).any (fun i => a == SAF_PAR n i)) ||
          (let x (i : Nat) : Rat := f32ToRat (look (SAF_PAR n i))
           (List.range 14).all (fun i => !(a == SAF_PAR n i) || realWithin w (safParRange.getD i (0, 0, true))) &&
             decide (x 3 < x 2) && decide (x 6 < x 5) && decide (x 0xB ≠ x 0xC) && decide (x 0 < x 7))))

/-- Index of the first record of a result that Settle refuses (R408). -/
def State.settleRefuses (s : State) (body inForce : List (Nat × Word)) : Option Nat :=
  body.findIdx? (fun e => !s.settingOk (recordValue inForce) e.1)

/-! ### Generations (R403, R404, R411) -/

def State.onGen (s : State) (g : Nat) (f : Gen → Gen) : State :=
  { s with otp := { s.otp with gens := tset (fun _ => {}) s.otp.gens g (f (s.genOf g)) } }

/-- The next blank generation: above every sealed one and holding no programmed bit. -/
def State.nextGen (s : State) : Option Nat :=
  (List.range 4).find? (fun g => (List.range 4).all (fun h => decide (h < g) || !(s.genOf h).sealed) && !(s.genOf g).programmed &&
    !(s.genOf g).sealed)

/-- Bytes of settings records (R403). -/
def recordBytes (l : List (Nat × Word)) : List Byte := l.flatMap (fun e => leBytesN 4 e.1 ++ leBytes e.2)

/-- The 1,904-byte body of a generation. -/
def bodyBytes (l : List (Nat × Word)) : List Byte :=
  recordBytes l ++ List.replicate (1904 - 8 * l.length) 0

/-- Bytes 0x000 to 0x7AF of a generation. -/
def genHead (g : Nat) (x : Gen) : List Byte :=
  leBytesN 4 0x47454E43 ++ [BitVec.ofNat 8 g, BitVec.ofNat 8 x.records.length] ++ List.replicate 10 0 ++
    (x.digest ++ List.replicate (48 - x.digest.length) 0) ++ bodyBytes x.records

/-- The 2,048 bytes of a generation: blank, or sealed. A generation whose sealing was cut short holds its body and header
(R409); one whose HASH fails holds another HASH, an open value. -/
def genBytes (free : Word) (g : Nat) (x : Gen) : List Byte :=
  if !x.programmed then List.replicate 2048 0
  else
    let head := genHead g x
    let hash := if !x.sealed then List.replicate 48 0
      else if x.hashOk then Config.sha384 head else leBytesN 48 free.toNat
    head ++ hash ++ List.replicate 28 0 ++ leBytes (if x.sealed then 0xFFFFFFFF else 0)

/-- The sealed generations as bits. -/
def State.sealedBits (s : State) : Nat :=
  (List.range 4).foldl (fun m g => if (s.genOf g).sealed then m + 2 ^ g else m) 0

/-- The highest sealed generation. -/
def State.topGen (s : State) : Option Nat := (List.range 4).reverse.find? (fun g => (s.genOf g).sealed)

/-- The overlay in force after a reset: count not zero, generation 3 sound, and a copy of that VERSION with good
signatures (R412). -/
def State.goodOverlay (s : State) : Option Overlay :=
  let ok (o : Option Overlay) : Option Overlay :=
    match o with | some v => if v.version = s.otp.ovlCount ∧ v.sigsOk = true then some v else none | none => none
  match ok s.flash.ovl1 with | some v => some v | none => ok s.flash.ovl2

/-- Enrolled: the COMMISSIONING and OPERATOR roles hold keys and a generation has been sealed. -/
def State.enrolled (s : State) : Bool := s.flag OTP_STATUS_ENROLLED

/-- OTP_STATUS after a change of the rows. -/
def State.showOtp (s : State) (gen : Nat) (ovl : Bool) : State :=
  ((((s.setFld OTP_STATUS_SEALED s.sealedBits).setFld OTP_STATUS_GEN gen).setFld OTP_STATUS_OVL_COUNT
    s.otp.ovlCount).setFld OTP_STATUS_OVL_VALID ovl.toNat).setFld OTP_STATUS_ENROLLED (s.topGen.isSome).toNat

/-! ### The Bureau procedure (R405 to R412) -/

def kindCode : BureauChange → Nat
  | .enrol .. => 0 | .settings .. => 1 | .grant .. => 2 | .svn .. => 3 | .key .. => 4 | .debug => 5 | .restore .. => 6

/-- End the pending request; generation programming cut short leaves its generation spent and unsealed (R407, R409). -/
def State.endBureau (s : State) : State :=
  let s1 := match s.trust.req with
    | some r =>
      if r.programming && !r.overlay && decide (kindCode r.change ≤ 1) then
        s.onGen r.target (fun g => { g with programmed := true, digest := r.digest, records := r.body })
      else s
    | none => s
  { s1 with trust := { s1.trust with req := none } }.setReg OTP_BUREAU 0

/-- The condition of R405 for a kind: none where it holds, else the DETAIL of WRONG_STATE, if it has one. -/
def State.bureauCondition (s : State) : BureauChange → Option (Option Nat)
  | .enrol .. =>
    if s.sealedBits = 0 ∧ (List.range 4).all (fun g => !(s.genOf g).programmed) ∧
      (List.range 3).all (fun r => (s.otp.slotOf (r + 1)).isNone && !s.otp.isRevoked (r + 1) 0) then none else some none
  | .settings _ =>
    if !s.enrolled then some none
    else if s.nextGen.isSome then none
    else if (s.genOf 3).sealed && decide (s.otp.ovlCount < 128) then none else some (some 0x0102)
  | .key role _ =>
    match s.otp.slotOf role with
    | none => some none
    | some k =>
      let o := 1 - k
      let spare := if role = 0 then s.otp.live 0 o else s.otp.keyAt role o == [] && !s.otp.isRevoked role o
      if role < 4 ∧ spare = true then none else some none
  | .restore v _ _ _ => if s.enrolled && decide (v = s.otp.ovlCount ∧ 0 < v) then none else some none
  | _ => if s.enrolled then none else some none

/-- Whether a request would place one key hash in two roles. -/
def State.keyReuse (s : State) : BureauChange → Bool
  | .enrol op co im _ =>
    let h (k : List Byte) := Config.sha384 k
    h op == h co || h op == h im || h co == h im || s.otp.usedElsewhere 2 (h op) || s.otp.usedElsewhere 3 (h co) ||
      s.otp.usedElsewhere 1 (h im)
  | .key role pub => role != 0 && s.otp.usedElsewhere role (Config.sha384 pub)
  | _ => false

/-- The records a request names. -/
def requestRecords : BureauChange → List (Nat × Word)
  | .enrol _ _ _ l => l
  | .settings l => l
  | .restore _ l _ _ => l
  | _ => []

/-- The hash of the key that signs a request: OPERATOR in force, or the one that ENROL carries. -/
def State.operatorKey (s : State) : BureauChange → List Byte
  | .enrol op _ _ _ => Config.sha384 op
  | _ => s.keyOf 2

/-- The hash of the key that countersigns. -/
def State.commissioningKey (s : State) : BureauChange → List Byte
  | .enrol _ co _ _ => Config.sha384 co
  | _ => s.keyOf 3

/-- Bytes of a fixed number from an open source. -/
def nonceBytes (n d : Nat) : List Byte := (List.range n).map (fun i => (Config.nonce d).getD i 0)

/-- The result of a request: records to program, records then in force, whether an overlay, and the TARGET. -/
def State.bureauResult (s : State) (c : BureauChange) : List (Nat × Word) × List (Nat × Word) × Bool × Nat :=
  match c with
  | .enrol _ _ _ l => (l, l, false, 0)
  | .settings l =>
    let all := mergeRecords s.trust.records l
    match s.nextGen with
    | some g => (all, all, false, g)
    | none => (all.filter (fun e => recordValue (s.genOf 3).records e.1 != e.2), all, true, s.otp.ovlCount + 1)
  | .restore v l _ _ => (l, mergeRecords (s.genOf 3).records l, true, v)
  | _ => ([], s.trust.records, false, 0)

/-- Both copies of an overlay are written and it is in force (R412, R413). -/
def State.setOverlay (s : State) (v : Nat) (l inForce : List (Nat × Word)) : State :=
  let o : Overlay := { version := v, records := l, sigsOk := true }
  let s1 : State := { s with flash := { s.flash with ovl1 := some o, ovl2 := some o }, otp := { s.otp with ovlCount := v } }
  (s1.showOtp 3 true).takeRecords inForce

/-- A verified overlay of RESTORE: its two signatures are over the request's own bytes, by keys the OTP holds, revoked or
not (R412, R418). -/
def State.restoreSigned (s : State) (l : List (Nat × Word)) (op co : List Byte) : Bool :=
  let msg := recordBytes l
  (List.range 2).any (fun k => signedBy (s.otp.keyAt 2 k) msg op) && (List.range 2).any (fun k => signedBy (s.otp.keyAt 3 k) msg co)

/-- The digest of a request: request, UID, nonce and body to be programmed (R406). -/
def State.bureauDigest (s : State) (c : BureauChange) (nonce : List Byte) (body : List (Nat × Word)) (overlay : Bool) : List Byte :=
  Config.sha384 (Config.bureauBytes c ++ s.otp.uid ++ nonce ++ (if overlay then recordBytes body else bodyBytes body))

/-- BUREAU_STAGE: the request with the operator's signature (R405, R406, R413). -/
def execBureauStage (i : Fin 32) (c : BureauChange) (sig : List Byte) (s : State) : Answer :=
  ezCommand s i 0x0700 (
    if s.trust.req.isSome then s.refuseOpen i 0x01
    else
      match s.bureauCondition c with
      | some (some d) => (s.setFlag OTP_FLAGS_OTP_EXHAUSTED).draw.refuse i 0x07 d (s.openNat % 65536)
      | some none => s.refuseOpen i 0x07
      | none =>
        if !signedBy (s.operatorKey c) (Config.bureauBytes c) sig then s.refuseOpen i 0x05
        else if s.keyReuse c then s.draw.refuse i 0x06 0x0103 (s.openNat % 65536)
        else
          match (requestRecords c).findIdx? (fun e => !namable e.1) with
          | some k => s.refuse i 0x06 0x0006 k
          | none =>
            let x := s.bureauResult c
            if 238 < x.1.length then s.refuse i 0x06 0x0006 238
            else
              match c with
              | .restore v l op co =>
                if s.restoreSigned l op co then
                  ((s.setOverlay v l x.2.1).setFlag OTP_FLAGS_BUREAU_DONE).count
                    OTP_CNT_BUREAU_CNT |>.answer i []
                else s.refuseOpen i 0x05
              | _ =>
                let nonce := nonceBytes 32 s.draws
                let h := s.trust.handles + 1
                let d := s.bureauDigest c nonce x.1 x.2.2.1
                let r : BureauReq := ⟨h, c, d, x.1, x.2.1, x.2.2.1, x.2.2.2, s.now, 0, false, none⟩
                let s1 : State := { s.draw with trust := { s.trust with req := some r, handles := h } }
                let w := BitVec.ofNat 32 (2 ^ 28 + kindCode c * 2 ^ 24 + x.2.2.2 % 256 * 2 ^ 16)
                (s1.setReg OTP_BUREAU w).answer i (leBytesN 4 h ++ nonce ++ d ++ leBytesN 4 x.2.2.2))

/-- A countersignature in time has executed. After the 600 s the last of them ends the request, unless it programs. -/
def State.countersigned (s : State) (i : Nat) : State :=
  match s.trust.req with
  | none => s
  | some r =>
    match r.late with
    | none => s
    | some l =>
      let rest := l.filter (fun j => j != i)
      if r.programming || !rest.isEmpty then { s with trust := { s.trust with req := some { r with late := some rest } } }
      else (s.setFlag OTP_FLAGS_BUREAU_EXPIRED).endBureau

/-- A countersignature that started at 600 s or earlier (R407). -/
def BureauReq.inTime (r : BureauReq) (i : Nat) : Bool := match r.late with | none => true | some l => l.contains i

/-- The effect of a countersignature (R406 to R409). -/
def State.countersign (s : State) (i : Nat) (supplyOk : Bool) : State :=
    let p := s.payload i
    match s.trust.req with
    | none => s.refuseOpen i 0x07
    | some r =>
      if r.programming || !r.inTime i || r.handle % 2 ^ 32 != fieldAt p 0 4 then s.refuseOpen i 0x07
      else if !(s.commissioningKey r.change != [] && Config.ecdsaVerify (s.commissioningKey r.change) r.digest ((p.drop 4).take 96)) then
        let s1 := s.count OTP_CNT_BAD_CSIGN_CNT
        let r1 : BureauReq := { r with fails := r.fails + 1 }
        let s2 : State := if 2 ≤ r.fails then s1.endBureau else { s1 with trust := { s1.trust with req := some r1 } }
        s2.refuseOpen i 0x05
      else if !supplyOk || !s.safe.settleRuns then s.refuseOpen i 0x07
      else
        let refused := if kindCode r.change ≤ 1 then s.settleRefuses r.body r.inForce else none
        match refused with
        | some k => ((s.setFlag OTP_FLAGS_BUREAU_REFUSED).endBureau).refuse i 0x06 0x0100 k
        | none =>
          let s1 : State := { s with trust := { s.trust with req := some { r with programming := true } } }
          (s1.setFld OTP_BUREAU_STATE 3).answer i []

/-- BUREAU_COUNTERSIGN: HANDLE and signature; `supplyOk` is VSUP within its operating range (R406 to R409). -/
def execBureauCountersign (i : Fin 32) (supplyOk : Bool) (s : State) : Answer :=
  ezCommand s i 0x0701 ((s.countersign i supplyOk).countersigned i)

/-- BUREAU_ABORT names the HANDLE of the pending request (R407). -/
def execBureauAbort (i : Fin 32) (s : State) : Answer :=
  ezCommand s i 0x0702 (
    match s.trust.req with
    | none => s.refuseOpen i 0x07
    | some r =>
      if r.programming || r.handle % 2 ^ 32 != fieldAt (s.payload i) 0 4 then s.refuseOpen i 0x07
      else s.endBureau.answer i [])

/-- BUREAU_EXPIRY: 600 s after staging. Countersignatures that execute then are still judged (R407). -/
def execBureauExpiry (s : State) : Answer :=
  whenFw s (
    match s.trust.req with
    | some r =>
      let l := s.mbx.started.filter (fun i => s.hdrOp i == 0x0701)
      if r.programming then s
      else if l.isEmpty then (s.setFlag OTP_FLAGS_BUREAU_EXPIRED).endBureau
      else { s with trust := { s.trust with req := some { r with late := some l } } }
    | none => s)

/-- The rows change as a request says. -/
def State.programChange (s : State) (r : BureauReq) : State :=
  let setKey (o : OtpUnit) (role slot : Nat) (k : List Byte) : OtpUnit :=
    { o with keys := tset (fun _ => []) o.keys (2 * role + slot) (Config.sha384 k) }
  let newGen (t : State) : State :=
    let t1 := t.onGen r.target (fun _ => { digest := r.digest, records := r.body, programmed := true, sealed := true, hashOk := true })
    (t1.showOtp r.target false).takeRecords r.inForce
  match r.change with
  | .enrol op co im _ =>
    let o := setKey (setKey (setKey s.otp 2 0 op) 3 0 co) 1 0 im
    let s1 : State := { s with otp := { o with dbgLock := true } }
    newGen (if s.otp.dbgPerm then s1 else s1.setFld SEC_DBG_STATE 1)
  | .settings _ => if r.overlay then s.setOverlay r.target r.body r.inForce else newGen s
  | .grant b => { s with otp := { s.otp with grant := s.otp.grant ||| b } }
  | .svn f se tr =>
    let o : OtpUnit := { s.otp with
      svnFw := max s.otp.svnFw (min f 63), svnSettle := max s.otp.svnSettle (min se 63),
      svnTrestle := max s.otp.svnTrestle (min tr 63) }
    let s1 : State := { s with otp := o }
    (((s1.setFld SEC_SVN_FIRMWARE o.svnFw).setFld SEC_SVN_SETTLE o.svnSettle).setFld SEC_SVN_TRESTLE o.svnTrestle).showVersions
  | .key role pub =>
    match s.otp.slotOf role with
    | none => s
    | some k =>
      let o := if role = 0 then s.otp else setKey s.otp role (1 - k) pub
      { s with otp := { o with revoked := o.revoked ||| BitVec.ofNat 8 (2 ^ (2 * role + k)) } }
  | .debug => { s with otp := { s.otp with dbgPerm := true } }.setFld SEC_DBG_STATE 3
  | .restore .. => s

/-- BUREAU_PROGRAM_DONE: the result is programmed (R409, R412). -/
def execBureauProgramDone (s : State) : Answer :=
  whenDev s (
    match s.trust.req with
    | some r =>
      if !r.programming then s
      else
        let s1 : State := { s with trust := { s.trust with req := none } }.setReg OTP_BUREAU 0
        ((s1.programChange r).setFlag OTP_FLAGS_BUREAU_DONE).count OTP_CNT_BUREAU_CNT
    | none => s)

/-! ### OTP rows as read (R391) -/

/-- A thermometer code of `v` ones in 32-bit words: word `w`. -/
def thermoWord (v w : Nat) : Word := BitVec.ofNat 32 ((2 ^ v - 1) / 2 ^ (32 * w))

/-- Words of a row. -/
def rowWords (row : Nat) : Nat :=
  match row with | 0 => 512 | 1 => 128 | 2 => 1 | 3 => 6 | 4 => 2048 | 5 => 4 | 6 => 1 | _ => 0

def State.otpWord (s : State) (row w : Nat) : Word :=
  let o := s.otp
  if rowWords row ≤ w then 0
  else
    match row with
    | 0 => Config.otpRowWord true (o.uid ++ o.cert ++ o.macs.flatten) o.keys o.revoked w
    | 1 => Config.otpRowWord false [] o.keys o.revoked w
    | 2 => o.grant
    | 3 => thermoWord (match w / 2 with | 0 => o.svnFw | 1 => o.svnSettle | _ => o.svnTrestle) (w % 2)
    | 4 => BitVec.ofNat 32 (leNat (((genBytes (Config.freeWord s.draws) (w / 512) (s.genOf (w / 512))).drop (4 * (w % 512))).take 4))
    | 5 => thermoWord o.ovlCount w
    | _ => BitVec.ofNat 32 (o.dbgLock.toNat + 2 * o.dbgPerm.toNat)

/-- A read of OTP_READ_DATA: the word, and WORD moves on, wrapping within the row. -/
def State.readOtp (s : State) : Word × State :=
  let row := s.fld OTP_READ_ADDR_ROW
  let w := s.fld OTP_READ_ADDR_WORD
  let n := max (rowWords row) 1
  (s.otpWord row w, s.setFld OTP_READ_ADDR_WORD ((w + 1) % n))

/-- OTP_READ_DATA_READ (R391). -/
def execOtpReadDataRead (s : State) : Answer :=
  whenDev s { s.readOtp.2 with readData := s.readOtp.1 }

/-! ### Identity, attestation and sessions (R400 to R402) -/

/-- VERSION and SVN of the running firmware, then of Settle. -/
def State.runningVersions (s : State) : List Byte :=
  let f := s.flashSlot s.runningSlot
  let t := Config.settleImage (imgPayload f)
  if s.monitor then List.replicate 16 0
  else leBytesN 4 (imgVersion f) ++ leBytesN 4 (imgSvn f) ++ leBytesN 4 (imgVersion t) ++ leBytesN 4 (imgSvn t)

def imageId (i : Option Image) : List Byte := match i with | some x => leBytes x.id | none => [0, 0, 0, 0]

/-- The report of R401 over a nonce. -/
def State.attestReport (s : State) (nonce : List Byte) : List Byte :=
  let gen := s.fld OTP_STATUS_GEN
  let st := gen + s.sealedBits * 16 + s.otp.ovlCount % 256 * 256 + s.otp.dbgLock.toNat * 65536 +
    s.otp.dbgPerm.toNat * 131072 + (decide (s.fld SEC_DBG_STATE = 2)).toNat * 262144 + s.fld SEC_BOOT_TRIAL * 524288
  let body := if s.sealedBits = 0 then List.replicate 1904 0 else bodyBytes (s.genOf gen).records
  let ovl := match s.goodOverlay with
    | some v => if s.flag OTP_STATUS_OVL_VALID then Config.sha384 (recordBytes v.records) else List.replicate 48 0
    | none => List.replicate 48 0
  let part := (nonce ++ List.replicate 32 0).take 32 ++ leBytes (s.reg SYS_DEVID) ++ leBytes (s.reg SYS_STEPPING) ++ s.otp.uid ++
    leBytes (s.reg SYS_GRANT) ++ leBytesN 4 st ++ Config.sha384 body ++ ovl ++ s.runningVersions ++
    imageId s.banksA.act ++ imageId s.banksA.shd ++ imageId s.banksB.act ++
    imageId s.banksB.shd ++ leBytesN 8 s.stamp
  part ++ Config.attestSign part

/-- ATTEST (R401). -/
def execAttest (i : Fin 32) (s : State) : Answer := ezCommand s i 0x0720 (s.answer i (s.attestReport (s.payload i)))

/-- CERT_READ (R400). -/
def execCertRead (i : Fin 32) (s : State) : Answer := ezCommand s i 0x0721 (s.answer i s.otp.cert)

/-- DEV_INFO: identity, stepping, grants and firmware version (R377). -/
def execDevInfo (i : Fin 32) (s : State) : Answer :=
  ezCommand s i 0x0002 (
    let v := if s.monitor then 0 else imgVersion (s.flashSlot s.runningSlot)
    s.answer i (leBytes (s.reg SYS_DEVID) ++ leBytes (s.reg SYS_STEPPING) ++ leBytes (s.reg SYS_GRANT) ++ leBytesN 4 v))

/-- AUTH_CHALLENGE: a nonce valid for 60 s (R402). -/
def execAuthChallenge (i : Fin 32) (s : State) : Answer :=
  ezCommand s i 0x0010 (
    let nonce := nonceBytes 32 s.draws
    (s.draw.onSession (s.slotOf i).peer (fun x => { x with nonce := nonce, nonceAt := s.now })).answer i nonce)

/-- The conditions of R402 on a certificate and a signature over the peer's nonce. -/
def State.certOk (s : State) (c : Cert) (x : Session) (sig : List Byte) : Bool :=
  let secs := s.clock.secs
  signedBy (s.keyOf 2) c.body c.sig &&
    (s.flag TIM_STATUS_UNSET || decide (c.notBefore ≤ secs ∧ secs ≤ c.notAfter)) && c.level.isSome &&
    x.nonce != [] && decide (s.now - x.nonceAt ≤ usTicks 60000000) && signedBy (Config.sha384 c.pubkey) x.nonce sig

/-- AUTH_RESPONSE: a certificate, then a signature of 96 bytes; `c` is what the certificate says (R375, R402). -/
def execAuthResponse (i : Fin 32) (c : Cert) (s : State) : Answer :=
  ezCommand s i 0x0011 (
    let p := (s.slotOf i).peer
    let body := s.payload i
    let x : Session := match s.sessionOf p with | some x => x | none => { peer := p, level := s.defaultLevel p }
    if s.certOk c x (body.drop (body.length - 96)) then
      let s1 := s.setFlagIf (s.flag TIM_STATUS_UNSET) SEC_FLAGS_CERT_TIME_UNCHECKED
      (s1.onSession p (fun x => { x with level := max x.level (min (c.level.getD 0) 3), nonce := [] })).answer i []
    else
      (s.setFlagIf (s.flag TIM_STATUS_UNSET) SEC_FLAGS_CERT_TIME_UNCHECKED).refuseOpen i 0x05)

/-! ### Debug lock (R415, R416) -/

/-- Whether every granted station is idle and held. -/
def State.allIdleHeld (s : State) : Bool := (List.range 4).all (fun n => !s.grantS n || (s.stnIdle n && (s.safeOf n).held))

/-- A write of SEC_DBG.REQ: a nonce of eight words, valid for 60 s. -/
def State.debugRequest (s : State) : State :=
  { s.draw with trust := { s.trust with
      dbgNonce := (List.range 8).map (fun k => BitVec.ofNat 32 (leNat ((nonceBytes 32 s.draws).drop (4 * k) |>.take 4))),
      dbgAt := s.now, dbgSig := [], dbgReads := 0 } }

/-- A read of SEC_DBG_DATA: the nonce words in order. -/
def State.debugRead (s : State) : Word × State :=
  let t := s.trust
  (t.dbgNonce.getD (t.dbgReads % 8) 0, { s with trust := { t with dbgReads := t.dbgReads + 1 } })

/-- The unlock is judged after the 24th signature word. -/
def State.debugUnlock (s : State) (sig : List Word) : State :=
  let t := s.trust
  let s1 : State := { s with trust := { t with dbgSig := [], dbgNonce := [] } }
  let msg := s.otp.uid ++ t.dbgNonce.flatMap leBytes
  let ok := s.fld SEC_DBG_STATE == 1 && s.allIdleHeld && t.dbgNonce != [] &&
    decide (s.now - t.dbgAt ≤ usTicks 60000000) && signedBy (s.keyOf 3) msg (sig.flatMap leBytes)
  if ok then s1.setFld SEC_DBG_STATE 2 else s1.setFlag SEC_FLAGS_DBG_REFUSED

/-- A write of SEC_DBG_DATA. -/
def State.debugWrite (s : State) (w : Word) : State :=
  let l := s.trust.dbgSig ++ [w]
  if l.length < 24 then { s with trust := { s.trust with dbgSig := l } } else s.debugUnlock l

/-- A write of SEC_DBG.CLOSE. -/
def State.debugClose (s : State) : State := if s.fld SEC_DBG_STATE = 2 then s.setFld SEC_DBG_STATE 1 else s

/-- SEC_DBG_REQ (R415). -/
def execSecDbgReq (s : State) : Answer := whenDev s s.debugRequest

/-- SEC_DBG_DATA_WRITE: words written in order (R415, R416). -/
def execSecDbgDataWrite (ws : List Word) (s : State) : Answer := whenDev s (ws.foldl (fun t w => t.debugWrite w) s)

/-- SEC_DBG_CLOSE (R415). -/
def execSecDbgClose (s : State) : Answer := whenDev s s.debugClose

end Sys2Proof.Machine
end

