-- ==== Sys2Proof/Machine/Boot.lean ====
section
/-! DEFINITION. Device reset, secure boot, restarts of the management processor and firmware update (R396 to R399, R445 to
R452). -/

namespace Sys2Proof.Machine

/-! ### Device reset (R445 to R447) -/

/-- The pins of `s` keep their levels in `t`: contacts, capture inputs, readbacks and fault inputs. -/
def State.keepPins (s t : State) : State :=
  let t1 := t.forAll 8 (fun x u => (u.onSin x (fun p => { p with a := (s.sinOf x).a, b := (s.sinOf x).b })).onSout x (fun o =>
    { o with srb := (s.soutOf x).srb }))
  let t2 := t1.forAll 16 (fun c u => u.onCap c (fun p => { p with level := (s.capOf c).level }))
  t2.forAll 4 (fun n u => u.forAll 12 (fun k v => v.onHb n k (fun h => { h with gf := (s.hbOf n k).gf })))

/-- A device reset begins: one-time rows, flash, pins, bank levels and, but for power-on, the test access port stay;
everything else takes its reset value, and nothing runs. A Bureau programming is cut short (R409, R467, R471). -/
def State.enterReset (s : State) (cause : Nat) : State :=
  let e := s.endBureau
  let tap : SlkUnit := { ir := if cause = 0 then 1 else e.slk.ir }
  let t : State :=
    { otp := e.otp, flash := e.flash, sen := e.sen, draws := e.draws, slk := tap, pending := e.pending, dev := ⟨true, false⟩
      vioA := e.vioA, vioB := e.vioB }
  (e.keepPins t).setReg SYS_RST_CAUSE (BitVec.ofNat 32 (2 ^ cause))

/-- A reset source: during a reset it is recorded with the others (R447). -/
def State.deviceReset (s : State) (cause : Nat) : State :=
  if s.dev.inReset && !s.boot.vcoreBad then s.setFldBit SYS_RST_CAUSE_CAUSE cause true else s.enterReset cause

/-- The balls VSELA and VSELB are read, as the board ties them (R471). -/
def State.readVsel (s : State) : State := { s with vioA := Config.vsel 0, vioB := Config.vsel 1 }

/-- POWER_ON_RESET (R445, R471). -/
def execPowerOnReset (s : State) : Answer := .next (s.deviceReset 0).readVsel

/-- BROWN_OUT (R445). -/
def execBrownOut (s : State) : Answer := .next (s.deviceReset 1)

/-- PORST_N_ASSERT resets the device in any state (R438, R445, R471). -/
def execPorstNAssert (s : State) : Answer := .next (s.deviceReset 2).readVsel

/-- CORE_UNDERVOLTAGE: outside RETAIN and outside a voltage request (R445). -/
def execCoreUndervoltage (s : State) : Answer :=
  .next (if s.dev.retain || s.power.active.isSome then s else s.deviceReset 3)

/-! ### The end of a reset (R404, R412, R448) -/

/-- The generation in force with its overlay (R404, R412, R413). -/
def State.selectSettings (s : State) : State :=
  let s1 := s.setFlagIf ((List.range 4).any (fun g => (s.genOf g).programmed && !(s.genOf g).sealed)) OTP_FLAGS_GEN_ABANDONED
  let put (t : State) (l : List (Nat × Word)) : State :=
    l.foldl (fun u e => u.setBoth e.1 e.2) { t with trust := { t.trust with records := l } }
  match s.topGen with
  | none => s1.showOtp 0 false
  | some g =>
    if !(s.genOf g).hashOk then (s1.showOtp g false).setFlag OTP_FLAGS_GEN_CORRUPT
    else if s.otp.ovlCount = 0 then put (s1.showOtp g false) (s.genOf g).records
    else
      match s.goodOverlay with
      | some v => put (s1.showOtp g true) (mergeRecords (s.genOf g).records v.records)
      | none => put ((s1.showOtp g false).setFlag OTP_FLAGS_OVL_MISSING) (s.genOf g).records

/-- State of the debug port from its OTP row (R415). -/
def OtpUnit.debugState (o : OtpUnit) : Nat := if o.dbgPerm then 3 else if o.dbgLock then 1 else 0

/-- The grants, floors, trims and settings of the OTP come into force, and the board position is read (R5, R395, R453). -/
def State.applyOtp (s : State) (bid : BitVec 2) (wired : BitVec 3) : State :=
  let o := s.otp
  let s1 : State := { s with grants := BitVec.ofNat 11 o.grant.toNat }
  let s2 := (s1.setReg SYS_GRANT (BitVec.ofNat 32 (o.grant.toNat % 2 ^ 11))).setFld SEC_DBG_STATE o.debugState
  let s3 := ((s2.setFld SEC_SVN_FIRMWARE o.svnFw).setFld SEC_SVN_SETTLE o.svnSettle).setFld SEC_SVN_TRESTLE o.svnTrestle
  let s4 := ((s3.setFld PMB_STATUS_V_RUN o.vRun).setFld PMB_STATUS_TARGET o.vRun).setFld SYS_POS_POS bid.toNat
  let s5 := s4.forAll 3 (fun p t =>
    (t.setFld (SLK_PORT_PEER p) ((bid.toNat + p + 1) % 4)).setFld (SLK_PORT_STATE p) (wired.getLsbD p && t.grantSlk).toNat)
  s5.selectSettings

/-- The slot that the boot record names: A where its CRC fails, the earlier one where a trial was cut short (R396, R397). -/
def State.readBootRecord (s : State) : State :=
  let f := s.flash
  let f1 : FlashUnit := if !f.recordOk then { f with preferred := false, trial := false }
    else if f.trial then { f with preferred := f.before, trial := false } else f
  let s1 : State := { s with flash := f1, boot := { s.boot with checking := some f1.preferred, second := false } }
  s1.setFlagIf (f.recordOk && f.trial) SEC_FLAGS_TRIAL_REVERTED

/-- The read-back of VCORE at boot: none where the regulator did not answer (R432, R448, R449). -/
def State.bootVcore (s : State) (vread : Option (BitVec 16)) : State :=
  let s1 := s.count PMB_CNT_REQ_CNT
  let s2 := match vread with | some v => s1.setReg PMB_VREAD (BitVec.ofNat 32 v.toNat) | none => s1
  let ok := match vread with | some v => decide (v.toNat ≤ s.otp.vRun + 15 ∧ s.otp.vRun ≤ v.toNat + 15) | none => false
  if ok then ({ s2 with dev := { s2.dev with inReset := false }, boot := { s2.boot with vcoreBad := false } }).readBootRecord
  else
    let s3 := (s2.setFlag PMB_FLAGS_REG_NO_ACK).count PMB_CNT_NO_ACK_CNT
    { s3 with boot := { s3.boot with vcoreBad := true } }.setFlagIf vread.isSome PMB_FLAGS_REG_VOUT_ERR

/-- RESET_END: 100 µs after the last source has ended; `bid` are the position balls and `wired` the ports that lead to a
fitted device (R445, R448, R453). -/
def execResetEnd (bid : BitVec 2) (wired : BitVec 3) (vread : Option (BitVec 16)) (s : State) : Answer :=
  .next (if s.dev.inReset && !s.boot.vcoreBad then (({ s with now := 0 }).applyOtp bid wired).bootVcore vread else s)

/-- BOOT_VCORE_RETRY: every 10 ms while the read-back fails (R449). -/
def execBootVcoreRetry (vread : Option (BitVec 16)) (s : State) : Answer :=
  .next (if s.dev.inReset && s.boot.vcoreBad then s.bootVcore vread else s)

/-! ### Secure boot (R396) -/

/-- Eznel answers for the first time since the reset (R448). -/
def State.firstAnswer (s : State) : State :=
  if s.boot.answered then s
  else ({ s with boot := { s.boot with answered := true } }).setFld SYS_BOOT_T_MS (min (s.now / 400000) 65535)

/-- A slot passes: the firmware starts, and Settle with it where it is to start. -/
def State.acceptSlot (s : State) (b : Bool) : State :=
  let s1 := ((s.setFld SEC_BOOT_SLOT b.toNat).setFld SEC_BOOT_TRIAL s.flash.trial.toNat).showVersions
  let s2 := if s.boot.startSettle then s1.setFld SEC_BOOT_SETTLE_VERIFIED 1 else s1
  let b1 : BootUnit := { s2.boot with checking := none, accepted := true, startSettle := false }
  { s2 with boot := { b1 with settleTests := s.boot.settleTests || s.boot.startSettle } }

/-- Neither slot passes: the ROM monitor runs. -/
def State.startMonitor (s : State) : State :=
  let b1 : BootUnit := { s.boot with checking := none, fw := true }
  (({ s with boot := b1 }.setFld SEC_BOOT_MONITOR 1).showVersions).firstAnswer

/-- BOOT_IMAGE_CHECK_DONE: the check of a slot ends. -/
def execBootImageCheckDone (s : State) : Answer :=
  whenDev s (
    match s.boot.checking with
    | none => s
    | some b =>
      if s.packageCheck (s.flashSlot b) = 0 then s.acceptSlot b
      else
        let s1 := s.setFlag SEC_FLAGS_IMAGE_REFUSED
        if s.boot.second then s1.startMonitor
        else
          let b1 : BootUnit := { s1.boot with checking := some (!b), second := true }
          { s1 with boot := b1 }.setFld SEC_BOOT_FALLBACK 1)

/-- SETTLE_BOOT_DONE: the boot tests and the path test of every station are done (R356, R448). -/
def execSettleBootDone (testsOk pathOk : Bool) (s : State) : Answer :=
  whenDev s (
    if !s.boot.settleTests then s
    else
      let s1 : State := { s with boot := { s.boot with settleTests := false } }
      if testsOk then
        { s1 with safe := { s1.safe with settleRuns := true, settleOk := true } }.setFlagIf (!pathOk) SAF_FLAGS_RELEASE_REFUSED
      else s1)

/-- MGMT_FIRMWARE_READY: Eznel answers; at the first start after a reset every enabled port starts discovery (R448). -/
def execMgmtFirmwareReady (s : State) : Answer :=
  whenDev s (
    if !s.boot.accepted || s.boot.fw then s
    else
      let s1 : State := { s with boot := { s.boot with fw := true } }
      if s.boot.answered then s1 else (s1.firstAnswer).discoverAll)

/-! ### Restart of the management processor (R397, R398) -/

/-- A restart of the management processor alone. `activation` marks the one that an ACTIVATE makes: any other one during
a trial boots the slot that was preferred before. A reload that was under way leaves its engine FAILED. -/
def State.mgmtRestart (s : State) (activation : Bool) : State :=
  let s1 := s.endBureau.dropMessages
  let f := s1.flash
  let back := f.trial && !activation
  let f1 : FlashUnit := if back then { f with preferred := f.before, trial := false } else f
  let r := s1.red
  let r1 : RedUnit := { r with stA := if r.stA = 5 then 4 else r.stA, stB := if r.stB = 5 then 4 else r.stB }
  let b1 : BootUnit := { s1.boot with fw := false, accepted := false, checking := some f1.preferred, second := false }
  let s2 : State := { s1 with flash := f1, red := r1, boot := b1 }
  (((s2.setFld SEC_BOOT_FALLBACK 0).setFld SEC_BOOT_MONITOR 0).setFld SEC_BOOT_TRIAL 0).setFlagIf back SEC_FLAGS_TRIAL_REVERTED

/-- MGMT_WATCHDOG_EXPIRY (R445, R447). -/
def execMgmtWatchdogExpiry (s : State) : Answer := whenDev s ((s.count SYS_RST_CAUSE_WDOG_CNT).mgmtRestart false)

/-- Whether the Settle image of a package differs from the one that runs (R399). -/
def State.settleDiffers (s : State) (b : Bool) : Bool :=
  s.safe.settleRuns && Config.settleImage (imgPayload (s.flashSlot b)) != Config.settleImage (imgPayload (s.flashSlot s.runningSlot))

/-- Restart on slot `b`, with Settle where its image differs. -/
def State.restartOn (s : State) (b : Bool) : State :=
  let s1 : State := if s.settleDiffers b then
      { s.settleStops with boot := { s.boot with startSettle := true } }
    else s
  s1.mgmtRestart true

/-- The slot that an ACTIVATE takes: staged since the reset, and not running. -/
def State.activatable (s : State) : Option Bool :=
  match s.trust.staged with
  | some b => if s.monitor || b != s.runningSlot then some b else none
  | none => none

/-- Whether an activation of slot `b` is admitted (R397, R399, R418). -/
def State.canRestartOn (s : State) (b : Bool) : Bool :=
  s.trust.req.isNone && (!s.settleDiffers b || s.allIdleHeld)

/-- The staged slot becomes PREFERRED with TRIAL = 1, and the processor restarts on it. -/
def State.activate (s : State) (b : Bool) : State :=
  ({ s with flash := { s.flash with before := s.flash.preferred, preferred := b, trial := true, recordOk := true } }).restartOn b

/-! ### Staging (R378, R397) -/

def stageBase : Nat := 0x8B800000
def stageSize : Nat := 25165824

def stageRange (ofs len : Nat) : Bool := decide (ofs + len ≤ stageSize)

def State.staged (s : State) (ofs len : Nat) : List Byte := s.bytes (stageBase + ofs) len

/-- The staged bytes of a command that names offset, length and SHA-384: an answer where they do not serve (R378). -/
def State.withStaged (s : State) (i ofs len : Nat) (hash : List Byte) (f : List Byte → State) : State :=
  if !stageRange ofs len then s.refuse i 0x06 0x0006 0
  else if Config.sha384 (s.staged ofs len) != hash then s.refuseOpen i 0x05
  else f (s.staged ofs len)

def isFwStage : JobKind → Bool
  | .fwStage .. => true
  | _ => false

/-- A firmware image that R394 admits goes into the slot not running; a failing one is refused (R397). -/
def State.stageFirmware (s : State) (bs : List Byte) : State :=
  ({ s with trust := { s.trust with staged := none } }).setFlashSlot (!s.runningSlot) bs

/-- FW_STAGE (R394, R397). -/
def execFwStage (i : Fin 32) (ofs len : Nat) (hash : List Byte) (s : State) : Answer :=
  ezCommand s i 0x0710 (
    if s.freeJob.isNone then s.jobLimit i
    else if (List.range 4).any (fun j => s.jobRuns j && isFwStage (s.jobOf j).kind) then s.refuseOpen i 0x01
    else s.withStaged i ofs len hash (fun bs =>
      let k := s.packageCheck bs
      if k = 0 then (s.stageFirmware bs).startJob i (.fwStage ofs len) []
      else (s.setFlag SEC_FLAGS_IMAGE_REFUSED).refuseArg i 0x05 k))

/-- FW_STAGE_DONE: the slot as read back is compared with the staged image; the status of a difference is open (log
row 30). -/
def execFwStageDone (j : Fin 4) (readback : List Byte) (s : State) : Answer :=
  whenFw s (
    match (s.jobOf j).kind with
    | .fwStage ofs len =>
      if !s.jobRuns j then s
      else if readback = s.staged ofs len then
        let s1 : State := { s with trust := { s.trust with staged := some (!s.runningSlot) } }
        (s1.setFlashSlot (!s.runningSlot) readback).showVersions.endJob j 1 0
      else ((s.setFlashSlot (!s.runningSlot) readback).draw.showVersions).endJob j 2 (s.openNat % 256)
    | _ => s)

/-- ACTION of an FW_ACTIVATE request. -/
def State.action (s : State) (i : Nat) : Nat := fieldAt (s.payload i) 0 1

/-- FW_ACTIVATE with ACTION 0; an ACTION above 2 is refused. -/
def execFwActivate (i : Fin 32) (s : State) : Answer :=
  ezCommand s i 0x0711 (
    if 2 < s.action i then s.refuse i 0x06 0x0006 0
    else if s.action i ≠ 0 then s
    else
      match s.activatable with
      | none => s.refuseOpen i 0x07
      | some b => if s.canRestartOn b then (s.answer i []).activate b else s.refuseOpen i 0x07)

/-- FW_CONFIRM: ACTION 1, while the running slot is in TRIAL. -/
def execFwConfirm (i : Fin 32) (s : State) : Answer :=
  ezCommand s i 0x0711 (
    if s.action i ≠ 1 then s
    else if s.trust.req.isSome || !s.flag SEC_BOOT_TRIAL then s.refuseOpen i 0x07
    else (({ s with flash := { s.flash with trial := false } }).setFld SEC_BOOT_TRIAL 0).answer i [])

/-- FW_REVERT: ACTION 2, the other slot becomes PREFERRED and the processor restarts on it. -/
def execFwRevert (i : Fin 32) (s : State) : Answer :=
  ezCommand s i 0x0711 (
    if s.action i ≠ 2 then s
    else
      let b := !s.runningSlot
      if s.canRestartOn b then
        let s1 := s.answer i []
        ({ s1 with flash := { s1.flash with preferred := b, trial := false, recordOk := true } }).restartOn b
      else s.refuseOpen i 0x07)

end Sys2Proof.Machine
end

