-- ==== Sys2Proof/Machine/Converters.lean ====
section
/-! DEFINITION. Meanings of the converter and demodulator commands (chapter 07). -/

namespace Sys2Proof.Machine

/-- A write of ADC_GO (R204). -/
def State.writeGo (s : State) (w : Word) : State := s.forAll 16 (fun k t => if bit w k then t.seqGo k else t)

/-- ADC_GO_WRITE. -/
def execAdcGoWrite (w : Word) (s : State) : Answer := writeWindow 0x10 s (s.writeGo w)

/-- ADC_CONVERSION_DONE (R200 to R202, R209, R213, R214). -/
def execAdcConversionDone (k : Fin 16) (raw : BitVec 16) (s : State) : Answer := whenRun s (s.convDone k raw)

/-- PLS_STALE: an enabled pair went 1 ms without a check (R211). -/
def execPlsStale (p : Fin 8) (s : State) : Answer :=
  whenRun s (if s.flag (ADC_PLS_CFG_EN p) && !s.flag (ADC_PLS_STAT_SUSPENDED p) then s.plsDisagree p ADC_FLAGS_PLS_STALE
    else s)

/-- A write of ADC_URG with URG_GO as given (R199, R207). -/
def State.writeUrg (s : State) (k : Nat) (w : Word) (go : Bool) : State :=
  if !entryOk w then s.setFlag ADC_FLAGS_VALUE_REFUSED
  else
    let s1 := s.setBoth (ADC_URG k) (BitVec.ofNat 32 (bits w 0 4 + bits w 8 8 * 256 + bits w 16 3 * 65536))
    if !go then s1
    else
      let c := s.convOf k
      if !s.flag (ADC_CFG_EN k) || s.covered k || c.seqRun || c.urgent then s1.urgDrop k
      else (s1.onConv k (fun c => { c with urgent := true, urgGain := bits w 16 3 })).setFld (ADC_URG_RES_VALID k) 0

/-- URG_GO (R207). -/
def execUrgGo (k : Fin 16) (w : Word) (s : State) : Answer := writeWindow 0x10 s (s.writeUrg k w true)

/-- URGENT_CONVERSION_DONE (R207). -/
def execUrgentConversionDone (k : Fin 16) (raw : BitVec 16) (s : State) : Answer :=
  whenRun s (if (s.convOf k).urgent then
      let r := s.correctBy k (s.convOf k).urgGain raw
      let w := BitVec.ofNat 32 (2 ^ 31 + r.2.toNat * 2 ^ 16 + unsignedOf 16 r.1)
      ((s.setReg (ADC_URG_RES k) w).setFlagIf r.2 ADC_FLAGS_SAT).onConv k (fun c => { c with urgent := false })
    else s)

/-- CAL_START: a write of START with TARGET (R212). -/
def execCalStart (k : Fin 16) (s : State) : Answer := writeWindow 0x10 s ((s.setFld ADC_CAL_CTRL_TARGET k).calRequest k)

/-- COVER_BEGIN: neither converter of the pair runs a sequence (R213). -/
def execCoverBegin (p : Fin 8) (s : State) : Answer :=
  whenRun s (if s.calState = 1 ∧ s.cal.target / 2 = p.val ∧ !(s.convOf (2 * p)).seqRun ∧ !(s.convOf (2 * p + 1)).seqRun then
    (s.setFld ADC_CAL_CTRL_STATE 2).setFld (ADC_PLS_STAT_SUSPENDED p) 1 else s)

/-- CAL_REFERENCE_DONE: new coefficients, and the plausibility result with them (R214). -/
def execCalReferenceDone (coefs : List (Int × Int)) (raw : BitVec 16) (s : State) : Answer :=
  let c := coefs.getD 0 (0, 32768)
  whenRun s (if s.calState = 2 then
    { s with cal := { s.cal with coefs := coefs, verify := (correct raw.toInt c.1 c.2).1 } }.setFld ADC_CAL_CTRL_STATE 3
    else s)

/-- CAL_VERIFY_STALE (R215). -/
def execCalVerifyStale (s : State) : Answer := whenRun s (if s.calState = 3 then s.calFail 3 else s)

/-- A write of END_COVER: ignored unless STATE is HELD (R215). -/
def State.writeEndCover (s : State) : State :=
  if s.calState = 5 then { s with cal := { s.cal with passed := false } }.setFld ADC_CAL_CTRL_STATE 4 else s

/-- END_COVER. -/
def execEndCover (s : State) : Answer := writeWindow 0x10 s s.writeEndCover

/-- SDM_OUTPUT: output of the main filter after the samples of R modulator clocks, oldest first (R218, R219). -/
def State.sdmOut (s : State) (c : Nat) (bits : List Bool) : State :=
  let r := s.fld (SDM_CFG_DEC c)
  let n := s.fld (SDM_CFG_ORDER c)
  let hist := (((List.range r).map (fun i => bits.getD i false)).reverse ++ (s.sdmOf c).hist).take (n * r)
  let w := f32OfRat (sdmValue (sincOf r n hist) r n)
  let k := (s.sdmOf c).outputs + 1
  let s1 := (s.onSdm c (fun x => { x with outputs := k, hist := hist })).setReg (SDM_RES c) w
  let s2 := if n ≤ k then s1.setFldBit (SDM_SETTLED_SETTLED (c / 32)) (c % 32) true else s1
  let s3 := if hasTransition (hist.take (r + 1)) then s2.setFldBit (SDM_NOTRANS_NOTRANS (c / 32)) (c % 32) false else s2
  s3.deliverAll 1 c w

def execSdmOutput (c : Fin 48) (bits : List Bool) (s : State) : Answer :=
  whenRun s (if s.flag (SDM_CFG_EN c) && (s.sdmOf c).started && s.flag (SDM_CLK_EN (s.fld (SDM_CFG_CLK c))) then
    s.sdmOut c bits else s)

/-- SDM_ALIGN_WAIT (R220). -/
def execSdmAlignWait (c : Fin 48) (s : State) : Answer := whenRun s (s.setFlagIf (s.sdmOf c).waiting SDM_FLAGS_ALIGN_WAIT)

/-- SDM_NO_TRANSITION (R158, R218). -/
def execSdmNoTransition (c : Fin 48) (s : State) : Answer :=
  whenRun s (if s.flag (SDM_CFG_EN c) then
    ((s.setFldBit (SDM_NOTRANS_NOTRANS (c / 32)) (c % 32) true).setFlag SDM_FLAGS_NO_TRANSITION).loseSource 1 c else s)

/-- The short filter's output on the scale of its limit codes: sinc² over SR samples, newest first (R219, R222). -/
def shortOut (sr : Nat) (l : List Bool) : Rat := sdmValue (sincOf sr 2 (l.take (2 * sr - 1))) sr 2 * 32768

/-- The level a short filter forces, if its output is beyond a limit (R222). -/
def State.shortForce (s : State) (c : Nat) (bits : List Bool) : Option Bool :=
  let out := shortOut (s.fld (SDM_SF_CFG_SR c)) bits
  let hi := signedOf 16 (s.fld (SDM_SF_LIM_HI c))
  let lo := signedOf 16 (s.fld (SDM_SF_LIM_LO c))
  if !s.flag (SDM_SF_CFG_EN c) || !s.flag (SDM_CFG_EN c) || decide (hi ≤ lo) then none
  else if (hi : Rat) < out then some false
  else if out < (lo : Rat) then some true
  else none

/-- SDM_SHORT_FILTER_FORCE: the samples of the last modulator clocks, newest first (R222). -/
def execSdmShortFilterForce (c : Fin 48) (bits : List Bool) (s : State) : Answer :=
  whenRun s (match s.shortForce c bits with
    | none => s
    | some lv => (s.setFlag SDM_FLAGS_SF_LIMIT).forceHb (s.fld (SDM_SF_CFG_STATION c)) (s.fld (SDM_SF_CFG_HB c)) lv)

end Sys2Proof.Machine
end

