-- ==== Sys2Proof/Machine/Gates.lean ====
section
/-! DEFINITION. Meanings of the pulse and gate commands (chapter 06). -/

namespace Sys2Proof.Machine

/-! ### Timebase -/

/-- UPDATE_ARM (R179, R182). -/
def execUpdateArm (n : Fin 4) (late : Bool) (s : State) : Answer := writeWindow (0x08 + n) s (s.writeArm n late)

/-- TB_HOLD_SET (R170). -/
def execTbHoldSet (n : Fin 4) (s : State) : Answer := writeWindow (0x08 + n) s (s.writeHold n true)

/-- TB_HOLD_CLEAR (R170). -/
def execTbHoldClear (n : Fin 4) (s : State) : Answer := writeWindow (0x08 + n) s (s.writeHold n false)

/-! ### Pulse path (R172, R184 to R188) -/

/-- The pulse signal changes level: the edge enters the filter; under a force the force stands. P is a level in every tick,
whether the carrier runs or stands (R170, R173). -/
def State.pulseEdge (s : State) (n k : Nat) : State :=
  let lv := s.pulseLevel n k
  let h := s.hbOf n k
  if h.force.isSome || lv == h.raw then s
  else s.onHb n k (fun h => { h with raw := lv, pend := h.pend ++ [(s.now, lv)] })

def execPulseEdge (n : Fin 4) (k : Fin 12) (s : State) : Answer :=
  whenRun s (s.pulseEdge n k)

/-- A new mask index acts: the half-bridges that enter or leave OFF go dark or turn on (R176, R177). -/
def State.setMask (s : State) (n : Nat) (idx : BitVec 3) : State :=
  (s.onPwm n (fun p => { p with maskIdx := idx, lastEvt := some s.now, heldIdx := none })).updGates n

/-- The index that the three capture inputs spell (R176). -/
def State.capIndex (s : State) (n : Nat) : BitVec 3 :=
  let lv (f : Fld) : Nat := (s.capOf (s.fld f)).level.toNat
  BitVec.ofNat 3 (lv (PWM_MASK_SRC_CAP_A n) + 2 * lv (PWM_MASK_SRC_CAP_B n) + 4 * lv (PWM_MASK_SRC_CAP_C n))

/-- A level change on a mask input: at once, or held until FILT ticks after the previous accepted event. -/
def State.commutate (s : State) (n : Nat) : State :=
  if s.fld (PWM_TB_CFG_OVR_MODE n) != 1 || !s.flag (PWM_MASK_SRC_SRC_EN n) then s
  else
    let idx := s.capIndex n
    match (s.pwmOf n).lastEvt with
    | some t =>
      if s.now - t < s.fld (PWM_MASK_SRC_FILT n) then s.onPwm n (fun p => { p with heldIdx := some idx })
      else s.setMask n idx
    | none => s.setMask n idx

/-- A capture input of the station's mask changes level. -/
def State.maskInput (s : State) (n c : Nat) : Bool :=
  s.fld (PWM_MASK_SRC_CAP_A n) == c || s.fld (PWM_MASK_SRC_CAP_B n) == c || s.fld (PWM_MASK_SRC_CAP_C n) == c

/-- COMMUTATION_EVENT (R176). -/
def execCommutationEvent (n : Fin 4) (cap : Fin 16) (level : Bool) (s : State) : Answer :=
  let s1 := s.onCap cap (fun x => { x with level := level })
  whenRun s (if s.grantS n && s.maskInput n cap then s1.commutate n else s1)

/-- COMMUTATION_HELD_EXPIRY (R176). -/
def execCommutationHeldExpiry (n : Fin 4) (s : State) : Answer :=
  whenRun s (match (s.pwmOf n).heldIdx with
    | some i => s.setMask n i
    | none => s)

/-- FILTER_EDGE_OUT: the oldest edge leaves the filter, or goes with its successor (R184). -/
def State.filterOut (s : State) (n k : Nat) : State :=
  match (s.hbOf n k).pend with
  | [] => s
  | (t0, lv) :: rest =>
    match rest with
    | (t1, _) :: more =>
      if t1 - t0 < s.wMin n then
        let s1 := s.onHb n k (fun h => { h with pend := more })
        if lv then (s1.count (GATE_RMV_PULSE_RMV n k)).setFlag (GATE_FLAGS_PULSE_RMV n)
        else (s1.count (GATE_RMV_GAP_RMV n k)).setFlag (GATE_FLAGS_GAP_RMV n)
      else s.onHb n k (fun h => { h with pend := rest }.edge lv)
    | [] => s.onHb n k (fun h => { h with pend := [] }.edge lv)

def execFilterEdgeOut (n : Fin 4) (k : Fin 12) (s : State) : Answer := whenRun s (s.filterOut n k)

/-- DEAD_TIME_END: the pending switch turns on and blanking starts (R186, R187). -/
def execDeadTimeEnd (n : Fin 4) (k : Fin 12) (s : State) : Answer :=
  let h := s.hbOf n k
  whenRun s (match h.deadTo with
    | none => s
    | some side =>
      if h.eff then s.onHb n k (fun h => { h with gh := side, gl := !side, deadTo := none, blank := true, gfIn := false })
      else s.onHb n k (fun h => { h with deadTo := none }))

/-! ### Faults (R188 to R191) -/

/-- The GF input of the half-bridge is watched: the effective enable is high, or a direct drive is on (R188, R194). -/
def HalfBridge.live (h : HalfBridge) : Bool := h.eff || h.test.isSome

/-- BLANKING_END (R188). -/
def execBlankingEnd (n : Fin 4) (k : Fin 12) (s : State) : Answer :=
  let h := s.hbOf n k
  let s1 := s.onHb n k (fun h => { h with blank := false })
  whenRun s (if h.blank && h.gf && h.live then s1.latchHb n k 1 else s1)

/-- GF_ASSERT: the GF input shows a level on two samples. An assertion within one blanking interval only counts (R188). -/
def execGfAssert (n : Fin 4) (k : Fin 12) (level : Bool) (s : State) : Answer :=
  let h := s.hbOf n k
  let s1 := s.onHb n k (fun h => { h with gf := level, gfIn := level && h.blank })
  whenRun s (if h.gf == level then s
    else if level then (if h.live && !h.blank then s1.latchHb n k 0 else s1)
    else if h.live && h.blank && h.gfIn then (s1.count (GATE_CNT_GF_BLANKED_CNT n)).setFlag (GATE_FLAGS_GF_BLANKED n)
    else s1)

/-- TRIP_WINDOW_CROSSING (R188, R192, R193). -/
def execTripWindowCrossing (n : Fin 4) (c : Fin 6) (code : BitVec 12) (s : State) : Answer :=
  let hi := s.fld (GATE_WCMP_TRIP_HI n c)
  let lo := s.fld (GATE_WCMP_TRIP_LO n c)
  let new := windowStep (s.wcompOf n c).trip hi lo code.toNat
  let s1 := s.onWcomp n c (fun w => { w with trip := new })
  let hb := s.fld (GATE_WCMP_CFG_HB n c)
  whenRun s (if s.grantS n && s.flag (GATE_WCMP_CFG_EN n c) && decide (lo < hi) then
    (if new ≠ 0 ∧ hb < 12 then s1.latchHb n hb 2 else s1)
    else s)

/-- LATCH_ENABLE_REMOVAL: 1.0 µs after the first latch (R190). -/
def execLatchEnableRemoval (n : Fin 4) (s : State) : Answer :=
  whenRun s (match (s.pwmOf n).firstLatch with
    | none => s
    | some _ => (s.onPwm n (fun p => { p with firstLatch := none, gateRemoved := true })).lowboyFollow n)

/-- The trip windows of every comparator assigned to a half-bridge are released (R191, R192). -/
def State.tripReleased (s : State) (n k : Nat) : Bool :=
  (List.range 6).all (fun c =>
    !s.flag (GATE_WCMP_CFG_EN n c) || s.fld (GATE_WCMP_CFG_HB n c) != k || (s.wcompOf n c).trip == 0)

/-- One bit of PWM_HB_EN is written: a 0 starts the toggle, unless the bit already stands at 0 since an earlier write, and
the rise may clear a latch (R191). -/
def State.toggleHb (s : State) (n k : Nat) (was new : Bool) : State :=
  if !new then
    if was || (s.hbOf n k).enFall.isNone then s.onHb n k (fun h => { h with enFall := some s.now }) else s
  else if !was && new && s.fldBit (GATE_LATCH_LATCHED n) k then
    match (s.hbOf n k).enFall with
    | none => s
    | some t =>
      if s.now - t < usTicks 10 then s.setFlag (GATE_FLAGS_CLR_EARLY n)
      else if (s.hbOf n k).gf || !s.tripReleased n k then s.setFlag (GATE_FLAGS_CLR_BLOCKED n)
      else s.setFldBit (GATE_LATCH_LATCHED n) k false
  else s

/-- A write of PWM_HB_EN. -/
def State.writeHbEn (s : State) (n : Nat) (w : Word) : State :=
  let old := s.reg (PWM_HB_EN n)
  let s1 := s.setBoth (PWM_HB_EN n) (BitVec.ofNat 32 (bits w 0 12))
  let s2 := s1.forAll 12 (fun k t => t.toggleHb n k (bit old k) (bit w k))
  s2.updGates n

/-- PWM_HB_EN_WRITE (R191). -/
def execPwmHbEnWrite (n : Fin 4) (w : Word) (s : State) : Answer := writeWindow (0x08 + n) s (s.writeHbEn n w)

/-! ### Direct drive (R194, R195) -/

/-- A write of GATE_TEST. -/
def State.writeTest (s : State) (n : Nat) (w : Word) : State :=
  let k := bits w 0 4
  let gh := bit w 4
  let gl := bit w 5
  if gh && gl then (s.setFlag (GATE_FLAGS_BOTH_ON_REFUSED n)).setFlag SAF_FLAGS_BOTH_ON
  else if (s.stnOf n).st == .ready && !s.flag (GFM_CTRL_RUN_REQ n) && decide (k < 12) && s.fldBit (PWM_HB_EN_EN n) k &&
      !s.fldBit (GATE_LATCH_LATCHED n) k && s.permit n && decide (1 ≤ bits w 16 16) then
    if gh || gl then
      let s1 := s.onHb n k (fun h => { h with test := some gh, gh := gh, gl := gl, blank := true, gfIn := false })
      s1
    else s
  else s.setFlag (GATE_FLAGS_WRITE_REFUSED n)

/-- GATE_TEST_WRITE (R194, R195). -/
def execGateTestWrite (n : Fin 4) (w : Word) (s : State) : Answer := writeWindow (0x0C + n) s (s.writeTest n w)

/-- GATE_TEST_END (R194). -/
def execGateTestEnd (n : Fin 4) (k : Fin 12) (s : State) : Answer :=
  whenRun s (if (s.hbOf n k).test.isSome then
    s.onHb n k (fun h => { h with test := none, gh := false, gl := false, blank := false }) else s)

end Sys2Proof.Machine
end

