-- ==== Sys2Proof/Machine/Inputs.lean ====
section
/-! DEFINITION. Meanings of the engine-window commands that are not Eznel commands, and of input loss (chapter 05). -/

namespace Sys2Proof.Machine

/-- An engine whose window exists (R7, R39). -/
def State.hasEngine (s : State) (e : Nat) : Bool := e == 0 || s.grantB

/-- SWAP_REQ (R136). -/
def execSwapReq (e : Fin 2) (s : State) : Answer := writeWindow (0x12 + e) s (s.requestSwap e)

/-- TRS_DMEM_DATA_READ: the word at ADDR, and ADDR moves on (05_trestle.md, TRS_DMEM_DATA). -/
def State.readDmem (s : State) (e : Nat) : State :=
  let a := s.fld (TRS_DMEM_ADDR_ADDR e)
  { s.setFld (TRS_DMEM_ADDR_ADDR e) ((a + 1) % 65536) with readData := s.dmemRead e a }

def execTrsDmemDataRead (e : Fin 2) (s : State) : Answer := readWindow (0x12 + e) s (s.readDmem e)

/-- TRS_EXEC_MAX_READ: the latest finish, cleared by the read (R153). -/
def State.readExecMax (s : State) (e n : Nat) : State :=
  { s.setReg (TRS_EXEC_MAX e n) 0 with readData := s.reg (TRS_EXEC_MAX e n) }

def execTrsExecMaxRead (e : Fin 2) (n : Fin 4) (s : State) : Answer :=
  readWindow (0x12 + e) s (s.readExecMax e n)

/-- A write of an input-list entry (R161, R166). -/
def State.writeInCfg (s : State) (i : Nat) (w : Word) : State :=
  let refuse (t : State) : State := t.engines.foldl (fun t e => t.setFlag (TRS_FLAGS_WRITE_REFUSED e)) t
  let a := TRS_IN_CFG i
  let new := putBits w 11 2 0
  if new = s.reg a then s
  else if !s.stnIdle (i / 64) then refuse s
  else
    let nf := bits w 21 11
    let okN := decide (8 ≤ nf ∧ nf ≤ 1024)
    let okR := bits w 13 3 != 7
    let w1 := if okN then new else putBits new 21 11 (s.fld (TRS_IN_CFG_N_FREEZE i))
    let w2 := if okR then w1 else putBits w1 13 3 (s.fld (TRS_IN_CFG_ROLE i))
    let s1 := if w2 = s.reg a then s
      else (((s.setBoth a w2).onInp (i / 64) (i % 64) (fun _ => {})).clearLoss (i / 64) (i % 64)).noteReady (i / 64)
    if okN && okR then s1 else refuse s1

/-- TRS_IN_CFG_WRITE (R161). -/
def execTrsInCfgWrite (i : Fin 256) (w : Word) (s : State) : Answer :=
  writeWindow 0x12 s (s.writeInCfg i w)

/-- INPUT_FROZEN: a NOISY entry has delivered the same word N_FREEZE times (R158). -/
def execInputFrozen (n : Fin 4) (k : Fin 64) (s : State) : Answer :=
  whenRun s (if s.frozen n k (s.inpOf n k).same then s.loseInput n k else s)

/-- INPUT_RESTORED: 64 good samples have come in a row, and their value has changed (R161). -/
def execInputRestored (n : Fin 4) (k : Fin 64) (s : State) : Answer := whenRun s (s.restoreInput n k)

end Sys2Proof.Machine
end

