-- ==== Sys2Proof/Machine/Images.lean ====
section
/-! DEFINITION. Trestle images and tables written by Eznel commands: TRS_IMAGE_WRITE, TRS_TABLE_WRITE, TRS_COMP_WRITE and
TRS_DMEM_WRITE (R133, R134, R145 to R148). -/

namespace Sys2Proof.Machine

/-! ### Images (R133 to R135) -/

/-- The image of a payload: its header fields as R135 lays them out, and the loop table and constants behind it, which the
manual gives no layout for (log row 40). -/
def imageOfPayload (p : List Byte) (b : ImageBody) : Image :=
  { id := BitVec.ofNat 32 (fieldAt p 4 4), stations := BitVec.ofNat 4 (fieldAt p 8 1), progBytes := fieldAt p 0x0A 2,
    copyBytes := (List.range 4).map (fun n => fieldAt p (0x0C + 2 * n) 2),
    cost := (List.range 4).map (fun n => fieldAt p (0x14 + 2 * n) 2), body := b }

/-- The header of a payload says what R135 wants of it: MAGIC, LOOPS as many as the table holds, a loop table inside the
payload, and loops for the stations that it names. -/
def headerOk (p : List Byte) (b : ImageBody) : Bool :=
  fieldAt p 0 4 == 0x53455254 && fieldAt p 9 1 == b.loops.length && decide (0 < b.loops.length) &&
    decide (0x20 ≤ fieldAt p 0x1C 4) && decide (fieldAt p 0x1C 4 < p.length) &&
    (List.range 8).all (fun n => (fieldAt p 8 1).testBit n == b.loops.any (fun d => d.station == n))

/-- Words of loop state that a loop's layout takes lie in the loop-state region of R128. -/
def loopFits (d : LoopDesc) : Bool := decide (0x30000 ≤ d.stateOfs ∧ d.stateOfs + 4 * d.layout.length ≤ 0x38000)

/-- The conditions under which an image is refused: constants and set-point words have 24 KiB (R128, R133). -/
def imageRefused (i : Image) : Bool :=
  decide (64 < i.body.loops.length) ||
  i.body.loops.any (fun d => decide (d.rate < 1 ∨ 1024 < d.rate ∨ d.rate ≤ d.phase) || (d.priv && d.rate != 1) || !loopFits d) ||
  decide (8 < (i.body.loops.filter (fun d => d.priv)).length) ||
  i.copyBytes.any (fun b => decide (1024 < b ∨ b % 4 ≠ 0)) ||
  decide (65536 < i.progBytes) || decide (0x6000 < 4 * (i.body.consts.length + (setPointWords i).length))

/-- The image stands in the shadow bank of every engine, checked. -/
def State.loadImage (s : State) (i : Image) : State :=
  s.engines.foldl (fun t e => t.onBanks e (fun b =>
    if b.active then { b with bank0 := some i, shdValid := true } else { b with bank1 := some i, shdValid := true })) s

/-- TRS_IMAGE_WRITE: the staged bytes are checked, and a job writes the image that their payload holds; `body` is what the
payload says behind its header. -/
def execTrsImageWrite (i : Fin 32) (ofs len : Nat) (hash : List Byte) (body : ImageBody) (s : State) : Answer :=
  ezCommand s i 0x0300 (
    if s.freeJob.isNone then s.jobLimit i
    else if s.swapping then s.refuseOpen i 0x07
    else s.withStaged i ofs len hash (fun bs =>
      let k := s.imageCheck 3 bs
      if k ≠ 0 then (s.setFlag SEC_FLAGS_IMAGE_REFUSED).refuseArg i 0x05 k
      else if !headerOk (imgPayload bs) body || imageRefused (imageOfPayload (imgPayload bs) body) then s.refuseOpen i 0x06
      else s.startJob i (.image (imageOfPayload (imgPayload bs) body)) (s.engines.map EzUnit.engine)))

/-- TRS_IMAGE_WRITE_DONE: the bank becomes valid. Where a swap has been requested since, the bank is locked: the job fails
with WRONG_STATE and the bank keeps its content. -/
def execTrsImageWriteDone (j : Fin 4) (s : State) : Answer :=
  whenFw s (
    match (s.jobOf j).kind with
    | .image img =>
      if !s.jobRuns j then s
      else if s.swapping then s.endJob j 2 7
      else (s.loadImage img).endJob j 1 0
    | _ => s)

/-! ### Tables (R145 to R147) -/

/-- The command is refused for a slot that was selected when it started; one that a GSLOT write names since then waits for
it (R145, R164). -/
def State.tableBusy (s : State) (i g : Nat) : Bool :=
  if (s.slotOf i).units.contains (.gainSlot g) then (s.slotOf i).selected else s.slotBusy g

/-- Half-words of a list of bytes, least significant byte first. -/
def halvesOf (bs : List Byte) (n : Nat) : List (BitVec 16) := (List.range n).map (fun k => BitVec.ofNat 16 (fieldAt bs (2 * k) 2))

/-- A gain entry is finite and lies within 0.0 to 64.0. -/
def gainOk (h : BitVec 16) : Bool := halfFinite h && decide (0 ≤ halfToRat h) && decide (halfToRat h ≤ 64)

/-- Words of a list of bytes, least significant byte first. -/
def wordsOf (bs : List Byte) (n : Nat) : List Word := (List.range n).map (fun k => BitVec.ofNat 32 (fieldAt bs (4 * k) 4))

/-- TRS_TABLE_WRITE: slot `g` of 1,024 entries, staged as 2 KiB. -/
def execTrsTableWrite (i : Fin 32) (g ofs len : Nat) (hash : List Byte) (s : State) : Answer :=
  ezCommand s i 0x0301 (
    if 64 ≤ g ∨ len ≠ 2048 then s.refuse i 0x06 0x0006 0
    else s.withStaged i ofs len hash (fun bs =>
      if s.tableBusy i g then s.refuseOpen i 0x07
      else
        match (List.range 1024).find? (fun k => !gainOk (BitVec.ofNat 16 (fieldAt bs (2 * k) 2))) with
        | some k => s.refuse i 0x06 0x0006 k
        | none => (s.fillDmem (g * 512) (wordsOf bs 512)).answer i []))

/-- A compensation entry: COG finite, FRIC finite and at least 0.0 (R146). -/
def compOk (w : Word) : Bool :=
  let cog := BitVec.ofNat 16 (bits w 0 16)
  let fric := BitVec.ofNat 16 (bits w 16 16)
  halfFinite cog && halfFinite fric && decide (0 ≤ halfToRat fric)

/-- TRS_COMP_WRITE: entries of station `n` from `first` on, staged as one word each. -/
def execTrsCompWrite (i : Fin 32) (n first ofs len : Nat) (hash : List Byte) (s : State) : Answer :=
  ezCommand s i 0x0302 (
    if 4 ≤ n ∨ len % 4 ≠ 0 ∨ 4096 < first + len / 4 then s.refuse i 0x06 0x0006 0
    else if !s.grantS n then s.refuse i 0x04 0x000B 0
    else s.withStaged i ofs len hash (fun bs =>
      match (wordsOf bs (len / 4)).findIdx? (fun w => !compOk w) with
      | some k => s.refuse i 0x06 0x0006 k
      | none => (s.fillDmem (0x8000 + n * 0x1000 + first) (wordsOf bs (len / 4))).answer i []))

/-! ### Loop state (R148) -/

/-- Write one word of loop state: it is the committed state that the loop's next execution starts from. -/
def State.writeStateWord (s : State) (w : Nat) (v : Word) : State :=
  match s.stateWord w with
  | some (k, d, x) => (s.putBothVar d.station k (f32ToRat v) x).fillDmem w [v]
  | none => s

/-- TRS_DMEM_WRITE with its checks in order. -/
def execTrsDmemWrite (i : Fin 32) (s : State) : Answer :=
  ezCommand s i 0x0303 (
    let p := s.payload i
    let ofs := fieldAt p 0 4
    let n := fieldAt p 4 2
    let w := ofs / 4
    if n < 1 ∨ 250 < n ∨ s.hdrLen i ≠ 8 + 4 * n ∨ fieldAt p 6 2 ≠ 0 then s.refuse i 0x06 0x0006 0
    else if ofs % 4 ≠ 0 ∨ ofs < 0x30000 ∨ 0x38000 < ofs + 4 * n then s.refuse i 0x06 0x0006 0
    else
      match (List.range n).find? (fun k => (s.stateWord (w + k)).isNone) with
      | some k => s.refuse i 0x06 0x0006 k
      | none =>
        let busy := (List.range n).any (fun k =>
          match s.stateWord (w + k) with
          | some (_, d, _) => !s.stnIdle d.station
          | none => false)
        if busy then s.refuseOpen i 0x07
        else
          ((wordsOf (p.drop 8) n).foldl (fun (a : State × Nat) x => (a.1.writeStateWord a.2 x, a.2 + 1)) (s, w)).1.answer i [])

end Sys2Proof.Machine
end

