-- ==== Sys2Proof/Machine/Cvu.lean ====
section
/-! DEFINITION. Check-value units (R291 to R295). -/

namespace Sys2Proof.Machine

/-- W of a unit. -/
def State.cvuW (s : State) (u : Nat) : Nat := s.fld (CVU_CFG_WIDTH u) + 1

/-- A 64-bit quantity in LO and HI registers. -/
def State.reg64 (s : State) (lo hi : Nat) : Nat := (s.reg lo).toNat + 2 ^ 32 * (s.reg hi).toNat

def State.cvuPoly (s : State) (u : Nat) : Nat := s.reg64 (CVU_POLY_LO u) (CVU_POLY_HI u) % 2 ^ s.cvuW u
def State.cvuInit (s : State) (u : Nat) : Nat := s.reg64 (CVU_INIT_LO u) (CVU_INIT_HI u) % 2 ^ s.cvuW u

/-- One bit of a byte into a CRC of width `w` (R291). -/
def cvuBit (w poly v : Nat) (b : Bool) : Nat :=
  let top := b != v.testBit (w - 1)
  let v2 := 2 * v % 2 ^ w
  if top then v2 ^^^ poly else v2

/-- One byte, most significant bit first, or least significant first when reflected. -/
def cvuByte (refin : Bool) (w poly v : Nat) (b : Byte) : Nat :=
  (List.range 8).foldl (fun v i => cvuBit w poly v (b.toNat.testBit (if refin then i else 7 - i))) v

/-- Bytes into the running value of a unit. -/
def State.cvuRun (s : State) (u v : Nat) (bs : List Byte) : Nat :=
  let w := s.cvuW u
  if s.flag (CVU_CFG_MODE u) then bs.foldl (fun v b => (v + b.toNat) % 2 ^ w) v
  else bs.foldl (cvuByte (s.flag (CVU_CFG_REFIN u)) w (s.cvuPoly u)) v

/-- The running value after every pending feed: what a read is ordered after (R292). -/
def State.cvuValue (s : State) (u : Nat) : Nat := (s.cvuOf u).feeds.foldl (fun v f => s.cvuRun u v f) (s.cvuOf u).v

/-- Bits reversed over `w` bits. -/
def bitReverse (w v : Nat) : Nat := (List.range w).foldl (fun a i => a + (v.testBit i).toNat * 2 ^ (w - 1 - i)) 0

/-- RESULT of a running value (R291). -/
def State.cvuResult (s : State) (u v : Nat) : Nat :=
  let w := s.cvuW u
  let r := if s.flag (CVU_CFG_REFOUT u) && !s.flag (CVU_CFG_MODE u) then bitReverse w v else v
  if s.flag (CVU_CFG_FINV u) then r ^^^ (2 ^ w - 1) else r

/-- Every pending feed is processed. -/
def State.cvuFlush (s : State) (u : Nat) : State := s.onCvu u (fun c => { c with v := s.cvuValue u, feeds := [] })

def State.cvuIdle (s : State) (u : Nat) : Bool := (s.cvuOf u).boundTo.isNone && (s.cvuOf u).feeds.isEmpty

/-- A discarded write to a unit (R294, R295). -/
def State.cvuRefuse (s : State) (u : Nat) : State :=
  (s.setFlag CVU_FLAGS_WRITE_REFUSED).setFld CVU_FLAGS_REFUSED_UNIT (2 ^ u)

/-- A write that a bound unit discards. -/
def State.cvuWrite (s : State) (u : Nat) (f : State → State) : State :=
  if (s.cvuOf u).boundTo.isSome then s.cvuRefuse u else f s

/-- The low `n` bytes of a word arrive as one feed. -/
def State.cvuFeed (s : State) (u n : Nat) (w : Word) : State :=
  s.cvuWrite u (fun s => s.onCvu u (fun c => { c with feeds := c.feeds ++ [(leBytes w).take n] }))

/-- CVU_DATA8 (R292). -/
def execCvuData8 (u : Fin 8) (w : Word) (s : State) : Answer := writeWindow 0x1C s (s.cvuFeed u 1 w)

/-- CVU_DATA16 (R292). -/
def execCvuData16 (u : Fin 8) (w : Word) (s : State) : Answer := writeWindow 0x1C s (s.cvuFeed u 2 w)

/-- CVU_DATA32 (R292). -/
def execCvuData32 (u : Fin 8) (w : Word) (s : State) : Answer := writeWindow 0x1C s (s.cvuFeed u 4 w)

/-- CVU_FEED_DONE: the oldest feed has been processed (R292). -/
def execCvuFeedDone (u : Fin 8) (s : State) : Answer :=
  whenData s (match (s.cvuOf u).feeds with
    | [] => s
    | f :: rest => s.onCvu u (fun c => { c with v := s.cvuRun u c.v f, feeds := rest }))

/-- V = INIT, after the feeds that arrived before. -/
def State.cvuLoadInit (s : State) (u : Nat) : State :=
  s.cvuWrite u (fun s => (s.cvuFlush u).onCvu u (fun c => { c with v := s.cvuInit u }))

/-- CVU_LOAD_INIT (R291). -/
def execCvuLoadInit (u : Fin 8) (s : State) : Answer := writeWindow 0x1C s (s.cvuLoadInit u)

/-- The held LO half of a quantity: 0 POLY, 1 INIT, 2 VALUE. -/
def State.cvuHeld (s : State) (u k : Nat) : Word := tget (fun _ => 0) (s.cvuOf u).held k

def State.setCvuHeld (s : State) (u k : Nat) (w : Word) : State :=
  s.onCvu u (fun c => { c with held := tset (fun _ => 0) c.held k w })

/-- A write of a LO register is held (R293). -/
def State.cvuWriteLo (s : State) (u k : Nat) (w : Word) : State := s.cvuWrite u (fun s => s.setCvuHeld u k w)

/-- A write of a HI register writes both halves; POLY and INIT only while the unit is idle (R293, R295). -/
def State.cvuWriteHi (s : State) (u k : Nat) (hi : Word) : State :=
  s.cvuWrite u (fun s =>
    let lo := s.cvuHeld u k
    let s1 := s.setCvuHeld u k 0
    let put (a b : Nat) : State :=
      if s.reg a = lo ∧ s.reg b = hi then s1
      else if s.cvuIdle u then (s1.setReg a lo).setReg b hi else s1.cvuRefuse u
    match k with
    | 0 => put (CVU_POLY_LO u) (CVU_POLY_HI u)
    | 1 => put (CVU_INIT_LO u) (CVU_INIT_HI u)
    | _ => (s1.cvuFlush u).onCvu u (fun c => { c with v := (lo.toNat + 2 ^ 32 * hi.toNat) % 2 ^ s.cvuW u }))

/-- CVU_HI_WRITE of POLY, INIT or VALUE (R293). -/
def execCvuHiWrite (u : Fin 8) (k : Fin 3) (hi : Word) (s : State) : Answer := writeWindow 0x1C s (s.cvuWriteHi u k hi)

/-- The 64-bit quantity that a LO register reads: 0 POLY, 1 INIT, 2 VALUE, 3 RESULT. -/
def State.cvuQuantity (s : State) (u k : Nat) : Nat :=
  match k with
  | 0 => s.cvuPoly u
  | 1 => s.cvuInit u
  | 2 => s.cvuValue u
  | _ => s.cvuResult u (s.cvuValue u)

/-- A read of a LO register latches the HI half (R293). -/
def State.cvuReadLo (s : State) (u k : Nat) : State :=
  let v := s.cvuQuantity u k
  { s.onCvu u (fun c => { c with latch := (k, BitVec.ofNat 32 (v / 2 ^ 32)) :: c.latch.filter (fun p => p.1 ≠ k) }) with
    readData := BitVec.ofNat 32 v }

/-- A read of a HI register: the half that the last LO read latched, once; without one, the quantity as it is (R11, R293). -/
def State.cvuReadHi (s : State) (u k : Nat) : Word × State :=
  match (s.cvuOf u).latch.lookup k with
  | some w => (w, s.onCvu u (fun c => { c with latch := c.latch.filter (fun p => p.1 ≠ k) }))
  | none => (BitVec.ofNat 32 (s.cvuQuantity u k / 2 ^ 32), s)

/-- CVU_LO_READ (R293). -/
def execCvuLoRead (u : Fin 8) (k : Fin 4) (s : State) : Answer := readWindow 0x1C s (s.cvuReadLo u k)

end Sys2Proof.Machine
end

