-- ==== Sys2Proof/Machine/Dma.lean ====
section
/-! DEFINITION. The DMA engine (R280 to R290, R294, R296). -/

namespace Sys2Proof.Machine

/-! ### Descriptors (R281 to R283) -/

def State.chState (s : State) (n : Nat) : Nat := s.fld (CH_STATUS_STATE n)
def State.setChState (s : State) (n k : Nat) : State := s.setFld (CH_STATUS_STATE n) k

def signed32 (w : Word) : Int := signedOf 32 w.toNat

def Desc.esize (d : Desc) : Nat := 2 ^ bits d.ctrl 0 2
def Desc.noDst (d : Desc) : Bool := bit d.ctrl 11
def Desc.irqDone (d : Desc) : Bool := bit d.ctrl 10
def Desc.cvuStore (d : Desc) : Bool := bit d.ctrl 9
def Desc.cvuLoad (d : Desc) : Bool := bit d.ctrl 8
def Desc.cvuSel (d : Desc) : Nat := bits d.ctrl 5 3
def Desc.cvuEn (d : Desc) : Bool := bit d.ctrl 4
def Desc.total (d : Desc) : Nat := d.c0 * d.c1 * d.c2

/-- The descriptor in memory. -/
def State.readDesc (s : State) (a : Nat) : Desc :=
  let w (o : Nat) : Word := s.word (a + o)
  { ctrl := w 0, next := w 4, src := (w 8).toNat, dst := (w 0xC).toNat
    c0 := bits (w 0x10) 0 16 + 1, c1 := bits (w 0x10) 16 16 + 1, c2 := bits (w 0x14) 0 16 + 1
    ss := [signed32 (w 0x18), signed32 (w 0x20), signed32 (w 0x28)]
    ds := [signed32 (w 0x1C), signed32 (w 0x24), signed32 (w 0x2C)] }

/-- The offset of element `i` under three steps, the innermost loop fastest. -/
def Desc.offset (d : Desc) (steps : List Int) (i : Nat) : Int :=
  (i % d.c0 : Nat) * steps.getD 0 0 + (i / d.c0 % d.c1 : Nat) * steps.getD 1 0 + (i / (d.c0 * d.c1) : Nat) * steps.getD 2 0

def wrap32 (x : Int) : Nat := (x % 2 ^ 32).toNat

def Desc.srcAt (d : Desc) (i : Nat) : Nat := wrap32 (d.src + d.offset d.ss i)
def Desc.dstAt (d : Desc) (i : Nat) : Nat := wrap32 (d.dst + d.offset d.ds i)

/-- The lowest and highest byte of a side, from the eight corners of the loop space. -/
def Desc.range (d : Desc) (base : Nat) (steps : List Int) : Int × Int :=
  let far (k c : Nat) : Int := ((c - 1 : Nat) : Int) * steps.getD k 0
  let lo := (base : Int) + min 0 (far 0 d.c0) + min 0 (far 1 d.c1) + min 0 (far 2 d.c2)
  let hi := (base : Int) + max 0 (far 0 d.c0) + max 0 (far 1 d.c1) + max 0 (far 2 d.c2)
  (lo, hi + d.esize - 1)

def inRange (r : Int × Int) (a b : Int) : Bool := decide (a ≤ r.1) && decide (r.2 ≤ b)
def touches (r : Int × Int) (a b : Int) : Bool := decide (r.1 ≤ b) && decide (a ≤ r.2)

/-- Wholly within SRAM or wholly within DRAM. -/
def inRam (r : Int × Int) : Bool := inRange r 0x10000000 0x107FFFFF || inRange r 0x80000000 0x8FFFFFFF

/-- The first check of R283 that a descriptor fails, 0 for none. -/
def State.descRefusal (s : State) (n a : Nat) : Nat :=
  let d := s.readDesc a
  let src := d.range d.src d.ss
  let dst := d.range d.dst d.ds
  let e : Int := d.esize
  if a % 64 ≠ 0 ∨ !inMemory a then 1
  else if !bit d.ctrl 31 then 2
  else if (d.src : Int) % e ≠ 0 ∨ (!d.noDst ∧ (d.dst : Int) % e ≠ 0) ∨ (d.ss ++ d.ds).any (fun x => x % e != 0) then 3
  else if !inRam src ∨ (!d.noDst ∧ !inRam dst) then 4
  else if d.noDst then 0
  else if touches dst 0x80000000 0x827FFFFF ∨ touches dst 0x107FE000 0x107FFFFF ∨
      (n < 12 ∧ touches dst 0x8A800000 0x8B7FFFFF) then 5
  else if touches dst src.1 src.2 then 6
  else if touches dst (a : Int) ((a : Int) + 63) then 7
  else 0

/-! ### Reads (R287) -/

/-- Elements of the burst that begins at element `i`: contiguous, ascending, in one 64-byte block. -/
def Desc.burst (d : Desc) (i : Nat) : Nat :=
  let a := d.srcAt i
  ((List.range 64).takeWhile (fun k =>
    decide (i + k < d.total) && d.srcAt (i + k) == a + k * d.esize && (a + k * d.esize) / 64 == a / 64)).length

def DmaCh.total (c : DmaCh) : Nat := match c.desc with | some d => d.total | none => 0

/-- The channel has a read to issue. -/
def State.wantsRead (s : State) (n : Nat) : Bool :=
  let c := s.chOf n
  (s.chState n == 1 || s.chState n == 2) && !s.flag (CH_STATUS_CVU_WAIT n) &&
    ((c.fetching && c.bursts.isEmpty) || (!c.fetching && decide (c.issued < c.total)))

/-- Read bursts outstanding engine-wide. -/
def State.outstanding (s : State) : Nat :=
  (List.range 16).foldl (fun a n => a + (s.chOf n).bursts.length) s.dma.drain

/-- One burst of a channel is issued. -/
def State.issueOne (s : State) (n : Nat) : State :=
  let c := s.chOf n
  let k := if c.fetching then 0 else match c.desc with | some d => d.burst c.issued | none => 0
  let s1 := s.onCh n (fun c => { c with bursts := c.bursts ++ [k], issued := c.issued + k, stalled := false })
  { s1 with dma := { s1.dma with turn := (n + 1) % 16 } }

/-- Channels with reads to issue are served in turn, one burst each, up to 32 outstanding; the others stall. -/
def State.issueReads : Nat → State → State
  | 0, s => s
  | fuel + 1, s =>
    if s.flag DMA_STATUS_HALTED then s
    else match (List.range 16).find? (fun i => s.wantsRead ((s.dma.turn + i) % 16)) with
      | none => s
      | some i =>
        if s.outstanding < 32 then State.issueReads fuel (s.issueOne ((s.dma.turn + i) % 16))
        else (List.range 16).foldl (fun (t : State) n =>
          if t.wantsRead n && !(t.chOf n).stalled then
            ((t.onCh n (fun c => { c with stalled := true })).count DMA_CNT_BURST_STALL_CNT).setFlag DMA_FLAGS_BURST_STALL
          else t) s

def State.issue (s : State) : State := State.issueReads 64 s

/-! ### Binding (R294) -/

/-- The unit is bound to the channel; CVU_LOAD sets V to INIT. -/
def State.bindUnit (s : State) (n u : Nat) (load : Bool) : State :=
  let s1 := s.cvuFlush u
  (s1.onCvu u (fun c => { c with boundTo := some n, v := if load then s1.cvuInit u else c.v })).onCh n (fun c =>
    { c with bound := some u })

/-- The binding of a channel is released, and the lowest channel that waits for the unit takes it. -/
def State.unbind (s : State) (n : Nat) : State :=
  match (s.chOf n).bound with
  | none => s
  | some u =>
    let s1 := (s.onCvu u (fun c => { c with boundTo := none })).onCh n (fun c => { c with bound := none })
    let waits (m : Nat) : Bool := s1.flag (CH_STATUS_CVU_WAIT m) &&
      (match (s1.chOf m).desc with | some d => d.cvuSel == u | none => false)
    match (List.range 16).find? waits with
    | some m => (s1.setFld (CH_STATUS_CVU_WAIT m) 0).bindUnit m u (match (s1.chOf m).desc with | some d => d.cvuLoad | none => false)
    | none => s1

/-- A checked descriptor takes its unit, or waits for it. -/
def State.bindDesc (s : State) (n : Nat) (d : Desc) : State :=
  if !d.cvuEn then s.unbind n
  else if (s.chOf n).bound = some d.cvuSel ∧ !d.cvuLoad then s
  else
    let s1 := s.unbind n
    match (s1.cvuOf d.cvuSel).boundTo with
    | some _ => s1.setFld (CH_STATUS_CVU_WAIT n) 1
    | none => s1.bindUnit n d.cvuSel d.cvuLoad

/-! ### Running (R283 to R286) -/

/-- The channel fetches the descriptor at an address. -/
def State.fetchDesc (s : State) (n a : Nat) : State :=
  (s.setReg (CH_DESC n) (BitVec.ofNat 32 (a / 64 * 64))).onCh n (fun c =>
    { c with fetching := true, addr := a, desc := none, issued := 0, returned := 0, bursts := [], writesOut := 0, stalled := false })

/-- START (R285). -/
def State.dmaStart (s : State) (n : Nat) : State :=
  match s.chState n with
  | 0 | 3 | 4 => ((s.setChState n 1).fetchDesc n (s.reg (CH_DESC n)).toNat).issue
  | _ => s.setFlag DMA_FLAGS_WRITE_REFUSED

/-- STOP_REQ (R286). -/
def State.dmaStop (s : State) (n : Nat) : State := if s.chState n = 1 then s.setChState n 2 else s

/-- A read that was out at a halt is answered, with data or an error, and discarded (R288). -/
def State.drainOne (s : State) : State := { s with dma := { s.dma with drain := s.dma.drain - 1 } }

/-- A fetched descriptor is checked and started, or refused (R283); one that was out at a halt is discarded. -/
def State.fetchDone (s : State) (n : Nat) : State :=
  let c := s.chOf n
  if !c.fetching || c.bursts.isEmpty || !(s.chState n == 1 || s.chState n == 2) then s.drainOne
  else
    let s1 := s.onCh n (fun c => { c with fetching := false, bursts := [] })
    match s.descRefusal n c.addr with
    | 0 =>
      let d := s.readDesc c.addr
      ((s1.onCh n (fun c => { c with desc := some d })).bindDesc n d).issue
    | r =>
      (((((s1.setChState n 4).setFld (CH_STATUS_DERR n) r).setFlag DMA_FLAGS_DESC_ERR).count DMA_CNT_DESC_ERR_CNT).unbind n).issue

/-- The descriptor is complete (R284): check value, STATUS, count, then NEXT, IDLE or STOPPED. -/
def State.descComplete (s : State) (n : Nat) (d : Desc) : State :=
  let a := (s.chOf n).addr
  let store := d.cvuEn && d.cvuStore
  let r := s.cvuResult d.cvuSel (s.cvuValue d.cvuSel)
  let s1 := if store then (s.setWord (a + 0x30) (BitVec.ofNat 32 r)).setWord (a + 0x34) (BitVec.ofNat 32 (r / 2 ^ 32)) else s
  let s2 := (s1.setWord (a + 0x38) (BitVec.ofNat 32 (2 ^ 31 + store.toNat * 2 ^ 30))).count (CH_DONE_CNT_CH_DONE_CNT n)
  let s3 := if d.irqDone then s2.setFldBit DMA_DONE_DONE n true else s2
  let next := d.next.toNat
  let done (k : Nat) : State :=
    ((s3.onCh n (fun c => { c with desc := none, issued := 0, returned := 0 })).setReg (CH_DESC n)
      (BitVec.ofNat 32 (next / 64 * 64)) |>.setChState n k).unbind n
  if s3.chState n = 2 then done 3
  else if next = 0 then done 0
  else s3.fetchDesc n next

/-- Completion once every element has been read and every write answered. -/
def State.descCheck (s : State) (n : Nat) : State :=
  let c := s.chOf n
  match c.desc with
  | some d =>
    if c.returned = d.total ∧ c.writesOut = 0 ∧ (s.chState n = 1 ∨ s.chState n = 2) then s.descComplete n d else s
  | none => s

/-- One element is moved and fed. -/
def State.moveElement (s : State) (n : Nat) (d : Desc) (i : Nat) : State :=
  let bs := s.bytes (d.srcAt i) d.esize
  let s1 := if d.noDst then s else s.setBytes (d.dstAt i) bs
  match (s1.chOf n).bound with
  | some u => if d.cvuEn then s1.onCvu u (fun c => { c with v := s1.cvuRun u c.v bs }) else s1
  | none => s1

/-- The oldest read burst of a channel returns (R287); after a halt its data is discarded (R288). -/
def State.burstReturn (s : State) (n : Nat) : State :=
  let c := s.chOf n
  match c.desc, c.bursts with
  | some d, k :: rest =>
    let s1 := (List.range k).foldl (fun (t : State) j => t.moveElement n d (c.returned + j)) s
    let s2 := s1.onCh n (fun c =>
      { c with returned := c.returned + k, bursts := rest, writesOut := if d.noDst then c.writesOut else c.writesOut + 1 })
    (s2.descCheck n).issue
  | _, _ => s.drainOne

/-- A write of the channel's descriptor has its good response (R284). -/
def State.writeReturn (s : State) (n : Nat) : State :=
  if (s.chOf n).writesOut = 0 then s
  else ((s.onCh n (fun c => { c with writesOut := c.writesOut - 1 })).descCheck n).issue

/-! ### Halts (R288 to R290) -/

/-- Channel `n`, in RUN or STOPPING, halts; its reads are left to drain, and it waits for no unit any more. -/
def State.haltChannel (s : State) (n : Nat) : State :=
  if s.chState n = 1 ∨ s.chState n = 2 then
    let s1 : State := { s with dma := { s.dma with drain := s.dma.drain + (s.chOf n).bursts.length } }
    ((s1.onCh n (fun c =>
      { c with desc := none, fetching := false, issued := 0, returned := 0, bursts := [], writesOut := 0, stalled := false })).setChState
      n 5).setFld (CH_STATUS_CVU_WAIT n) 0
  else s

/-- Every channel halts; then the bindings are released, so that no unit passes to another channel (R288, R294, R295). -/
def State.haltAll (s : State) : State :=
  (s.forAll 16 (fun n t => t.haltChannel n)).forAll 16 (fun n t => if t.chState n = 5 then t.unbind n else t)

/-- An error response: `kind` 0 for a read, 1 for a write, 2 for a descriptor fetch. While the engine is halted only the
reads still out matter. -/
def State.dmaError (s : State) (kind n : Nat) (lastBeat : Bool) (addr : Word) : State :=
  let c := s.chOf n
  let code := if kind = 0 then 1 else if kind = 2 then 4 else if lastBeat && c.returned == c.total then 3 else 2
  if s.flag DMA_STATUS_HALTED then (if kind = 1 then s else s.drainOne)
  else
    let s1 := (if kind = 1 then s else s.onCh n (fun c => { c with bursts := c.bursts.drop 1 })).haltAll
    (((s1.setReg DMA_ERR (BitVec.ofNat 32 (code * 2 ^ 28 + (if kind = 1 then 16 + n else 0)))).setReg DMA_ERR_ADDR addr).setFld
      DMA_STATUS_HALTED 1).setFlag DMA_FLAGS_HALT

/-- CLEAR_HALT: ignored while reads are outstanding (R290). -/
def State.clearHalt (s : State) : State :=
  if 0 < s.outstanding then s.setFlag DMA_FLAGS_WRITE_REFUSED
  else
    let s1 := s.forAll 16 (fun n t => if t.chState n = 5 then t.setChState n 3 else t)
    ((s1.setFld DMA_STATUS_HALTED 0).setReg DMA_ERR 0).issue

/-! ### Commands -/

/-- DMA_START (R285). -/
def execDmaStart (n : Fin 16) (s : State) : Answer := writeWindow 0x1B s (s.dmaStart n)

/-- DMA_STOP_REQ (R286). -/
def execDmaStopReq (n : Fin 16) (s : State) : Answer := writeWindow 0x1B s (s.dmaStop n)

/-- DMA_CLEAR_HALT (R290). -/
def execDmaClearHalt (s : State) : Answer := writeWindow 0x1B s s.clearHalt

/-- DESCRIPTOR_FETCH_DONE (R283). -/
def execDescriptorFetchDone (n : Fin 16) (s : State) : Answer := whenData s (s.fetchDone n)

/-- READ_BURST_RETURN (R287). -/
def execReadBurstReturn (n : Fin 16) (s : State) : Answer := whenData s (s.burstReturn n)

/-- WRITE_RESPONSE (R284). -/
def execWriteResponse (n : Fin 16) (s : State) : Answer := whenData s (s.writeReturn n)

/-- ERROR_RESPONSE (R288, R289, R296). -/
def execErrorResponse (kind : Fin 3) (n : Fin 16) (lastBeat : Bool) (addr : Word) (s : State) : Answer :=
  whenData s (s.dmaError kind n lastBeat addr)

end Sys2Proof.Machine
end

