-- ==== Sys2Proof/Machine/Power.lean ====
section
/-! DEFINITION. Clocks, supplies and power states (16_clocks_power.md). -/

namespace Sys2Proof.Machine

/-! ### The PLLs (R421 to R427). PLL 0 is A, PLL 1 is B. -/

def State.pllLostNow (s : State) (p : Nat) : Bool := if p = 0 then s.clk.lostA else s.clk.lostB
def State.setPllLost (s : State) (p : Nat) (b : Bool) : State :=
  { s with clk := if p = 0 then { s.clk with lostA := b, startedA := false } else { s.clk with lostB := b, startedB := false } }

def CLK_PRESENT (p : Nat) : Fld := ⟨CLK_STATUS, 8 * p, 1⟩
def CLK_DIG_LOCK (p : Nat) : Fld := ⟨CLK_STATUS, 8 * p + 1, 1⟩
def CLK_ANALOG_LOCK (p : Nat) : Fld := ⟨CLK_STATUS, 8 * p + 2, 1⟩
def CLK_TWIN_READY (p : Nat) : Fld := ⟨CLK_STATUS, 8 * p + 3, 1⟩
def CLK_COASTING (p : Nat) : Fld := ⟨CLK_STATUS, 8 * p + 4, 1⟩
def CLK_BUILDOUT (p : Nat) : Fld := ⟨CLK_STATUS, 8 * p + 5, 1⟩

/-- Islands that run on PLL `p`, as bits in the order of SRC_B. -/
def State.islandsOn (s : State) (p : Nat) : Nat := if p = 0 then 127 - s.fld CLK_STATUS_SRC_B else s.fld CLK_STATUS_SRC_B

/-- Both PLLs are lost: Lowboy holds every station removed, and an entry to RETAIN is abandoned (R427, R444). -/
def State.bothLost (s : State) : State :=
  let s1 := ((s.setFlag CLK_FLAGS_BOTH_LOST).setFld SAF_LB_PLL_LOST 1).holdAll 0x0A
  if s.fld PWR_STATUS_STATE = 2 && !s.dev.retain && (!s.clock.frozen || s.clock.thaw) then
    ({ s1 with power := {} }.setFld PWR_STATUS_STATE 0).setFlag PWR_FLAGS_RETAIN_ABORTED
  else s1

/-- A twin to which islands may switch: TWIN_READY, or coasting (R423). -/
def State.twinServes (s : State) (p : Nat) : Bool := !s.pllLostNow p && (s.flag (CLK_TWIN_READY p) || s.flag (CLK_COASTING p))

/-- A PLL is declared lost (R424). The tick source of the local clock moves with the pulse island (R301). Without a twin
that serves, the loss is one of both. -/
def State.losePll (s : State) (p : Nat) : State :=
  let s1 := (((s.setPllLost p true).setFld (CLK_PRESENT p) 0).setFld (CLK_DIG_LOCK p) 0).setFld (CLK_TWIN_READY p) 0
  let s2 := s1.setFlag (if p = 0 then CLK_FLAGS_PLLA_LOST else CLK_FLAGS_PLLB_LOST)
  let on := s.islandsOn p
  if on = 0 then s2
  else if s.twinServes (1 - p) then
    let s3 : State := { s2 with clk := { s2.clk with moving := BitVec.ofNat 7 on, toB := p == 0 } }
    if on.testBit 2 then (s3.setFlag TIM_FLAGS_CLK_SWITCH).count TIM_CNT1_CLK_SWITCH_CNT else s3
  else (s2.setPllLost (1 - p) true).bothLost

/-- PLL_LOST (R424, R427). -/
def execPllLost (p : Fin 2) (s : State) : Answer :=
  .next (if s.dev.inReset || s.dev.retain || s.pllLostNow p then s else s.losePll p)

/-- Build-out starts for each PLL (R429). -/
def State.startBuildout (s : State) : State := (s.setFld (CLK_BUILDOUT 0) 1).setFld (CLK_BUILDOUT 1) 1

/-- ISLAND_SWITCHOVER_DONE: the islands run on the twin; `took` is the time without clock of the slowest in 10 ns (R425). -/
def execIslandSwitchoverDone (took : Nat) (s : State) : Answer :=
  .next (if s.clk.moving = 0 then s
    else
      let m := s.clk.moving.toNat
      let src := s.fld CLK_STATUS_SRC_B
      let new := if s.clk.toB then src ||| m else src - (src &&& m)
      let s1 : State := { s with clk := { s.clk with moving := 0, buildoutDue := false } }
      let s2 := ((s1.setFld CLK_STATUS_SRC_B new).setFlag CLK_FLAGS_SWITCHED).count CLK_CNT_SWITCH_CNT
      let s3 := s2.setFld CLK_LAST_LOST (min took 65535)
      if s.clk.buildoutDue then s3.startBuildout else s3)

/-- PLL_RESTART_ATTEMPT: a lost PLL is restarted by its own logic (R426). -/
def execPllRestartAttempt (p : Fin 2) (s : State) : Answer :=
  .next (if !s.pllLostNow p then s
    else { s with clk := if p.val = 0 then { s.clk with startedA := true } else { s.clk with startedB := true } })

/-- Digital lock of a PLL sets: one that was lost is present again, and after a loss of both the islands resume on it and
the local clock is estimated (R301, R422, R427). -/
def State.digLocks (s : State) (p : Nat) : State :=
  let s1 := s.setFld (CLK_DIG_LOCK p) 1
  let started := if p = 0 then s.clk.startedA else s.clk.startedB
  if !s.pllLostNow p then s1.setFld (CLK_PRESENT p) 1
  else if !started then s1
  else
    let s2 := (s1.setPllLost p false).setFld (CLK_PRESENT p) 1
    if s.pllLostNow (1 - p) then
      let s3 : State := { s2 with clk := { s2.clk with moving := 0 } }
      (s3.setFld CLK_STATUS_SRC_B (if p = 0 then 0 else 127)).setFld TIM_STATUS_TIME_ESTIMATED 1
    else s2

/-- DIG_LOCK_CHANGE (R422, R423). -/
def execDigLockChange (p : Fin 2) (on : Bool) (s : State) : Answer :=
  .next (if s.dev.inReset then s
    else if on then s.digLocks p
    else (s.setFld (CLK_DIG_LOCK p) 0).setFld (CLK_TWIN_READY p) 0)

/-- ANALOG_LOCK_CHANGE: each fall sets LOCK_PIN_FALL (R422, R423). -/
def execAnalogLockChange (p : Fin 2) (on : Bool) (s : State) : Answer :=
  .next (if s.dev.inReset then s
    else if on then s.setFld (CLK_ANALOG_LOCK p) 1
    else if s.flag (CLK_ANALOG_LOCK p) then
      ((s.setFld (CLK_ANALOG_LOCK p) 0).setFld (CLK_TWIN_READY p) 0).setFlag CLK_FLAGS_LOCK_PIN_FALL
    else s)

/-- TWIN_READY: 5 ms of analogue lock on a present PLL with digital lock (R423). -/
def execTwinReady (p : Fin 2) (s : State) : Answer :=
  .next (if s.flag (CLK_PRESENT p) && s.flag (CLK_DIG_LOCK p) && s.flag (CLK_ANALOG_LOCK p) then s.setFld (CLK_TWIN_READY p) 1
    else s)

/-- A write of CLK_PHASE_STEP[p]: STEPS replaces what is still to be made (R421). -/
def State.writePhaseStep (s : State) (p : Nat) (steps : Nat) : State := s.setFld (CLK_PHASE_STEP_PENDING p) (steps % 2 ^ 13)

/-- Ask a PLL's stepper for the next part of a slew against an alignment error (R460). -/
def State.nextSlew (s : State) (p : Nat) : State :=
  let left := if p = 0 then s.slk.slewA else s.slk.slewB
  let now := max (-4096) (min 4095 left)
  let u := if p = 0 then { s.slk with slewA := left - now } else { s.slk with slewB := left - now }
  { s with slk := u }.writePhaseStep p (unsignedOf 13 now)

/-- CLK_PHASE_STEP_WRITE by the management processor (R421). -/
def execClkPhaseStepWrite (p : Fin 2) (steps : BitVec 13) (s : State) : Answer :=
  let u := if p.val = 0 then { s.slk with slewA := 0 } else { s.slk with slewB := 0 }
  whenDev s ({ s with slk := u }.writePhaseStep p steps.toNat)

/-- One step of 39.0625 ps toward the request, and the next part of a slew behind the last one. -/
def State.stepMade (s : State) (p : Nat) : State :=
  let k := signedOf 13 (s.fld (CLK_PHASE_STEP_PENDING p))
  let k1 := if 0 < k then k - 1 else k + 1
  let s1 := s.setFld (CLK_PHASE_STEP_PENDING p) (unsignedOf 13 k1)
  if k = 0 then s else if k1 = 0 && (if p = 0 then s.slk.slewA else s.slk.slewB) != 0 then s1.nextSlew p else s1

/-- PHASE_STEP_MADE: none while the PLL coasts (R421, R444). -/
def execPhaseStepMade (p : Fin 2) (s : State) : Answer :=
  .next (if s.flag (CLK_COASTING p) || s.pllLostNow p then s else s.stepMade p)

/-! ### The reference (R428 to R430) -/

/-- The reference is back, and build-out runs or waits for a switch-over. -/
def State.refBack (s : State) : Bool := s.clk.buildoutDue || s.flag (CLK_BUILDOUT 0) || s.flag (CLK_BUILDOUT 1)

/-- REFERENCE_LOST: both PLLs coast; an alignment under way is lost (R428, R467). A reference lost again during build-out ends
the build-out. -/
def execReferenceLost (s : State) : Answer :=
  .next (if s.dev.inReset || s.dev.retain || (s.clk.refLost && !s.refBack) then s
    else
      let s1 : State := { s with clk := { s.clk with refLost := true, buildoutDue := false } }
      let s2 := (((s1.setFld (CLK_COASTING 0) 1).setFld (CLK_COASTING 1) 1).setFld (CLK_BUILDOUT 0) 0).setFld (CLK_BUILDOUT 1) 0
      let s3 := (s2.setFlag CLK_FLAGS_REF_LOST).count CLK_CNT_REF_LOSS_CNT
      if s.slk.busy then
        let s4 : State := { s3 with slk := { s3.slk with busy := false } }
        (s4.setFlag SLK_FLAGS_ALIGN_LOST).setFld SLK_STATUS_ALIGNED 0
      else s3)

/-- The mean of a returned reference lies within ±500 ppm of the coasting VCO, or beyond it (R429, R430). During a
switch-over build-out waits (R444). -/
def State.refReturns (s : State) (good : Bool) : State :=
  if !s.clk.refLost || s.refBack then s
  else if !good then s.setFlag CLK_FLAGS_REF_BAD
  else if s.clk.moving != 0 then { s with clk := { s.clk with buildoutDue := true } }
  else s.startBuildout

/-- REFERENCE_RETURNED (R429, R430). -/
def execReferenceReturned (good : Bool) (s : State) : Answer := .next (s.refReturns good)

/-- REF_BAD_RECHECK: every 1 ms (R430). -/
def execRefBadRecheck (good : Bool) (s : State) : Answer := .next (s.refReturns good)

/-- BUILDOUT_DONE: the charge pumps are enabled again after `steps` fine steps (R429). -/
def execBuildoutDone (steps : Nat) (s : State) : Answer :=
  .next (if !s.clk.refLost || !(s.flag (CLK_BUILDOUT 0) || s.flag (CLK_BUILDOUT 1)) then s
    else
      let s1 : State := { s with clk := { s.clk with refLost := false } }
      let s2 := (((s1.setFld (CLK_COASTING 0) 0).setFld (CLK_COASTING 1) 0).setFld (CLK_BUILDOUT 0) 0).setFld (CLK_BUILDOUT 1) 0
      (s2.setFlag CLK_FLAGS_REF_RETURNED).setFld CLK_LAST_BUILDOUT (min steps 512))

/-! ### AVSBus (R431 to R433) -/

/-- AVS_VOLTAGE_REQUEST: the sequencer writes the target it is asked for. In an entry to RETAIN the local clock freezes at
an always-on tick edge, and the PLLs stop (R305, R437). -/
def execAvsVoltageRequest (s : State) : Answer :=
  .next (match s.power.want with
    | none => s
    | some v =>
      let s1 : State := { s with power := { s.power with want := none, active := some v, writtenAt := s.now, outside := false } }
      let s2 := s1.count PMB_CNT_REQ_CNT
      if s.fld PWR_STATUS_STATE = 2 && (!s.clock.frozen || s.clock.thaw) then
        { s2 with clock := s2.clock.freeze (s.reg TIM_INCR).toNat }
      else s2)

/-- A status reply: whether its CRC held, VDone, and the read-back that follows it (R432). -/
def State.pollStatus (s : State) (crcOk vdone : Bool) (vread : Nat) : State :=
  match s.power.active with
  | none => s
  | some v =>
    if !crcOk then s.setFlag PMB_FLAGS_FRAME_ERR
    else if !vdone then s
    else
      let t := min (ticksUs (s.now - s.power.writtenAt)) 65535
      let s1 := (s.setFld PMB_LAST_T_DONE t).setFld PMB_VREAD_VOUT (min vread 65535)
      let near := decide (vread ≤ v + 15 ∧ v ≤ vread + 15)
      if near && decide (s.now - s.power.writtenAt ≤ usTicks 2000) then
        ({ s1 with power := { s1.power with active := none, outside := false } }).setFld PMB_STATUS_TARGET v
      else { s1 with power := { s1.power with outside := !near } }

/-- AVS_STATUS_POLL (R432). -/
def execAvsStatusPoll (crcOk vdone : Bool) (vread : BitVec 16) (s : State) : Answer := .next (s.pollStatus crcOk vdone vread.toNat)

/-! ### Time across RETAIN (R305, R306) -/

/-- The local clock is to resume at the next always-on tick edge, with the ticks of the sleep up to there added: each is
30,517.578125 ns, which is 10⁹ × 2¹³ units of 2⁻²⁸ ns (R305, R306). -/
def State.resumeClock (s : State) : State :=
  if !s.clock.frozen || s.clock.thaw then s
  else
    let n := (s.clock.aon + 1 + 2 ^ 48 - s.clock.aonAtSleep) % 2 ^ 48
    let c := s.clock.tick (n * (nsPerSec * 8192))
    let s1 : State := { s with clock := { c with thaw := true, lastSleep := n } }
    ((s1.setReg TIM_LAST_SLEEP (BitVec.ofNat 32 (min n (2 ^ 32 - 1)))).setFld TIM_STATUS_TIME_ESTIMATED 1).setFlag
      TIM_FLAGS_WAKE_ADDED

/-- Entry to RETAIN is abandoned: the device resumes in RUN, as after a wake whose check passed (R440, R443). -/
def State.abandonRetain (s : State) : State :=
  let s1 : State := { s with power := {} }
  ((s1.setFld PWR_STATUS_STATE 0).setFlag PWR_FLAGS_RETAIN_ABORTED).resumeClock.discoverAll

/-- AVS_REQUEST_FAILED: 2 ms have passed; the old target is written again and stays in force (R433, R443). -/
def execAvsRequestFailed (s : State) : Answer :=
  .next (if s.power.active.isNone then s
    else
      let s1 : State := { s with power := { s.power with active := none } }
      let s2 := ((s1.setFlag PMB_FLAGS_REG_NO_ACK).count PMB_CNT_NO_ACK_CNT).setFlagIf s.power.outside PMB_FLAGS_REG_VOUT_ERR
      if s.fld PWR_STATUS_STATE = 2 && !s.dev.retain then s2.abandonRetain else s2)

/-! ### Power states (R434 to R436) -/

/-- A station meets the condition of STANDBY, or of RETAIN. -/
def State.quiet (s : State) (tripped : Bool) (n : Nat) : Bool :=
  !s.grantS n || (!s.flag (GFM_CTRL_RUN_REQ n) &&
    ((s.stnOf n).st == .disabled || (s.stnOf n).st == .ready || (tripped && (s.stnOf n).st == .tripped)))

/-- Wake mask and compare of a PWR_STATE request. -/
def State.takeWake (s : State) (i : Nat) : State :=
  let p := s.payload i
  let c := fieldAt p 4 8
  ((s.setReg PWR_WAKE_EN (BitVec.ofNat 32 (fieldAt p 1 1 % 8))).setReg PWR_WAKE_CMP_LO (BitVec.ofNat 32 c)).setReg PWR_WAKE_CMP_HI
    (BitVec.ofNat 32 (c / 2 ^ 32 % 2 ^ 16))

def State.powerTarget (s : State) (i : Nat) : Nat := fieldAt (s.payload i) 0 1

/-- PWR_STATE_RUN: target 0; a target above 2 is refused. -/
def execPwrStateRun (i : Fin 32) (s : State) : Answer :=
  ezCommand s i 0x0800 (
    if 2 < s.powerTarget i then s.refuse i 0x06 0x0006 0
    else if s.powerTarget i ≠ 0 then s
    else ((s.takeWake i).setFld PWR_STATUS_STATE 0).answer i [])

/-- PWR_STATE_STANDBY: target 1 (R435, R444). -/
def execPwrStateStandby (i : Fin 32) (s : State) : Answer :=
  ezCommand s i 0x0800 (
    if s.powerTarget i ≠ 1 then s
    else if s.fld PWR_STATUS_STATE = 1 then s.answer i []
    else if !(List.range 4).all (s.quiet true) then s.draw.refuse i 0x07 0x0110 (s.openNat % 65536)
    else ((s.takeWake i).setFld PWR_STATUS_STATE 1).answer i [])

/-- A unit that RETAIN waits for: a DMA channel, a calibration cover, a Bureau request or a reload (R434). -/
def State.unitBusy (s : State) : Bool :=
  (List.range 16).any (fun n => s.chState n == 1 || s.chState n == 2) || decide (2 ≤ s.calState) || s.trust.req.isSome ||
    s.red.stA == 5 || s.red.stB == 5

/-- DETAIL of the first condition that refuses RETAIN, in the order of R434. -/
def State.retainRefusal (s : State) (i : Nat) : Option Nat :=
  if !(List.range 4).all (s.quiet false) then some 0x0110
  else if s.mbx.started.any (fun j => j != i) || (List.range 4).any (fun j => (s.jobOf j).held) then some 0x0111
  else if s.unitBusy then some 0x0112
  else if s.fld PWR_STATUS_BANK_FAIL ≠ 0 then some 0x0113
  else none

/-- Entry begins: SLEEP on every port, Chest stops, and the sequencer is to ask for 0.55 V (R437). -/
def State.enterRetain (s : State) : State :=
  let s1 := (s.sleepPorts.chestStop).setFld PWR_STATUS_STATE 2
  { s1.setReg PWR_WAKE_SRC 0 with power := { s1.power with want := some 550, wakeLatched := false } }

/-- PWR_STATE_RETAIN: target 2 (R436). -/
def execPwrStateRetain (i : Fin 32) (s : State) : Answer :=
  ezCommand s i 0x0800 (
    if s.powerTarget i ≠ 2 then s
    else
      match s.retainRefusal i with
      | some d => s.draw.refuse i 0x07 d (s.openNat % 65536)
      | none => ((s.takeWake i).answer i []).enterRetain)

/-! ### Sleep and wake (R437 to R443) -/

/-- The device wakes: the sequencer is to ask for V_RUN. -/
def State.beginWake (s : State) : State :=
  { s.setFld PWR_STATUS_STATE 3 with power := { s.power with want := some (s.fld PMB_STATUS_V_RUN), wakeLatched := false } }

/-- The PLLs have stopped and Lowboy has lost power: the always-on domain holds every gate output low, and a direct drive
has ended with the permit (R194, R437). -/
def State.powerDown (s : State) : State :=
  let s1 := ((s.setFld (CLK_DIG_LOCK 0) 0).setFld (CLK_DIG_LOCK 1) 0).setFld (CLK_TWIN_READY 0) 0 |>.setFld (CLK_TWIN_READY 1) 0
  s1.forAll 4 (fun n t => t.forAll 12 (fun k u => u.onHb n k HalfBridge.dark))

/-- Both PLLs have started and are in digital lock, and every island has its normal source (R439). -/
def State.clocksNormal (s : State) : State :=
  let s1 : State := { s with clk := { s.clk with lostA := false, lostB := false, startedA := false, startedB := false, moving := 0 } }
  let s2 := ((s1.setFld (CLK_PRESENT 0) 1).setFld (CLK_PRESENT 1) 1).setFld (CLK_DIG_LOCK 0) 1
  (s2.setFld (CLK_DIG_LOCK 1) 1).setFld CLK_STATUS_SRC_B 64

/-- RETAIN_ENTRY_DONE: VDone at 0.55 V; a latched event wakes the device at once (R437, R440). -/
def execRetainEntryDone (s : State) : Answer :=
  .next (if s.fld PWR_STATUS_STATE = 2 && !s.dev.retain && s.clock.frozen && !s.clock.thaw && s.fld PMB_STATUS_TARGET == 550 then
    let s1 := { s.powerDown with dev := { s.dev with retain := true } }.count PWR_CNT_RETAIN_CNT
    if s.power.wakeLatched then s1.beginWake else s1 else s)

/-- A wake source is enabled: 0 SIN, 1 I²C, 2 ring port, 3 always-on timer (R438). -/
def State.wakeEnabled (s : State) (src : Nat) : Bool :=
  match src with
  | 0 => true
  | 1 => s.flag PWR_WAKE_EN_I2C
  | 2 => s.flag PWR_WAKE_EN_RING
  | _ => s.flag PWR_WAKE_EN_TIMER && (s.reg PWR_WAKE_CMP_LO != 0 || s.reg PWR_WAKE_CMP_HI != 0)

/-- PWR_WAKE_SRC records a source; PORT the lowest ring port seen. -/
def State.recordWake (s : State) (src q : Nat) : State :=
  match src with
  | 0 => s.setFld PWR_WAKE_SRC_SIN 1
  | 1 => s.setFld PWR_WAKE_SRC_I2C 1
  | 2 =>
    let low := if s.flag PWR_WAKE_SRC_RING then min (s.fld PWR_WAKE_SRC_PORT) q else q
    (s.setFld PWR_WAKE_SRC_RING 1).setFld PWR_WAKE_SRC_PORT low
  | _ => s.setFld PWR_WAKE_SRC_TIMER 1

/-- WAKE_EVENT: in RETAIN the wake begins; during entry the event is latched (R438, R440). -/
def execWakeEvent (src : Fin 4) (q : Fin 64) (s : State) : Answer :=
  .next (if s.fld PWR_STATUS_STATE < 2 || !s.wakeEnabled src then s
    else
      let s1 := s.recordWake src q
      if s.fld PWR_STATUS_STATE = 3 then s1
      else if s.dev.retain then s1.beginWake
      else { s1 with power := { s1.power with wakeLatched := true } }.setFlag PWR_FLAGS_WAKE_DURING_ENTRY)

/-- WAKE_REGULATOR_RETRY: every 10 ms after a failed request during wake (R443). -/
def execWakeRegulatorRetry (s : State) : Answer :=
  .next (if s.fld PWR_STATUS_STATE = 3 && s.power.want.isNone && s.power.active.isNone &&
      s.fld PMB_STATUS_TARGET != s.fld PMB_STATUS_V_RUN then
    let p1 : PowerUnit := { s.power with active := some (s.fld PMB_STATUS_V_RUN), writtenAt := s.now, outside := false }
    { s with power := p1 }.count PMB_CNT_REQ_CNT else s)

/-- Registers of a range of windows take their reset values. -/
def State.resetWindows (s : State) (lo hi : Nat) : State :=
  let out (e : Nat × Word) : Bool := decide (e.1 < lo ∨ hi ≤ e.1)
  { s with regs := s.regs.filter out, act := s.act.filter out }

/-- Bytes of an address range read as never written. -/
def State.blankMemory (s : State) (lo hi : Nat) : State :=
  { s with mem := s.mem.filter (fun e => decide (e.1 < lo ∨ hi ≤ e.1)) }

/-- The island of a failed bank is reset, and what firmware keeps in DRAM is loaded again (R441, R442; log row 33). -/
def State.resetBank (s : State) (b : Nat) : State :=
  match b with
  | 0 | 1 | 15 => s.mgmtRestart false
  | 2 | 3 | 4 | 6 =>
    let loopState (e : Nat × Word) : Bool := decide (e.1 < 0xC000 ∨ 0xE000 ≤ e.1)
    let s1 : State :=
      { s with stn := [], inp := [], serving := none, dmemA := s.dmemA.filter loopState, dmemB := s.dmemB.filter loopState }
    s1.forAll 4 (fun n t => t.refreshRated n)
  | 5 => { s with pwm := [], wcomp := [], hb := (s.keepPins { s with hb := [] }).hb }
  | 7 => { s with conv := [], pair := [], cal := {}, sdm := [] }.setFld ADC_CAL_CTRL_STATE 0
  | 8 => { s.resetWindows 0x1F0000 0x240000 with ports := [] }
  | 10 =>
    let s1 := { s.settleStops with boot := { s.boot with settleTests := true } }
    s1.holdAll 0x0E
  | _ =>
    let s1 := s.resetWindows 0x1B0000 0x1E0000
    let s2 : State := { s1 with dmaCh := [], dma := {}, cvu := [], chest := {}, streams := [], trigs := [] }
    if 11 ≤ b ∧ b ≤ 14 then s2.blankMemory (0x10000000 + (b - 11) * 0x200000) (0x10000000 + (b - 10) * 0x200000) else s2

/-- WAKE_COMPLETE: the signatures are checked, the clock resumes, and the islands are released into RUN; `fails` are the
banks that do not match (R439, R442). -/
def execWakeComplete (fails : BitVec 16) (s : State) : Answer :=
  .next (if s.fld PWR_STATUS_STATE = 3 && s.power.want.isNone && s.power.active.isNone &&
      s.fld PMB_STATUS_TARGET == s.fld PMB_STATUS_V_RUN then
    let bad := (List.range 16).filter (fun b => fails.getLsbD b)
    let s1 := { s with dev := { s.dev with retain := false } }.resumeClock
    let s2 := (s1.clocksNormal.setFld PWR_STATUS_STATE 0).setFlag PWR_FLAGS_WOKE
    let s3 := s2.setFld PWR_STATUS_BANK_FAIL (s2.fld PWR_STATUS_BANK_FAIL ||| fails.toNat)
    let s4 := (s3.countBy PWR_CNT_BANK_FAIL_CNT bad.length).setFlagIf (!bad.isEmpty) PWR_FLAGS_BANK_FAILED
    (s4.forEach bad (fun b t => t.resetBank b)).discoverAll else s)

/-- PWR_BANK_ACK: a 16-bit mask of BANK_FAIL bits to clear (R442). -/
def execPwrBankAck (i : Fin 32) (s : State) : Answer :=
  ezCommand s i 0x0801 (
    let m := fieldAt (s.payload i) 0 2
    let f := s.fld PWR_STATUS_BANK_FAIL
    (s.setFld PWR_STATUS_BANK_FAIL (f - (f &&& m))).answer i [])

end Sys2Proof.Machine
end

