-- ==== Sys2Proof/Machine/Slk.lean ====
section
/-! DEFINITION. Sundlink, carrier alignment, peer operations, cross-checks and the test access port (R453 to R467). -/

namespace Sys2Proof.Machine

/-! ### Arrival of packets (R454 to R456) -/

/-- The port carries packets: TRAINING or UP. -/
def State.slkCarries (s : State) (p : Nat) : Bool := s.slkOn && (s.fld (SLK_PORT_STATE p) == 1 || s.slkUp p)

/-- A packet arrives: one whose CRC fails is answered with NAK, any other with ACK, but for ACK and NAK themselves. What
it does is `f`, on a port that is UP. -/
def slkArrive (s : State) (p : Nat) (h : SlkHdr) (answered : Bool) (f : State → State) : Answer :=
  whenDev s (
    if !s.slkCarries p then s
    else if !h.crcOk then s.slkSend p 0x03 h.tag (leBytesN 4 h.seq)
    else
      let s1 := if answered then s.slkSend p 0x02 h.tag (leBytesN 4 h.seq) else s
      if s.slkUp p then f s1 else s1)

/-- The port falls to TRAINING; nothing waits there any more. -/
def State.slkTrain (s : State) (p : Nat) : State :=
  (s.setSlkState p 1).onSlkPort p (fun u => { u with waits := [], base := none })

/-! ### Jobs over Sundlink (R462, R463) -/

/-- The running job behind a TAG. -/
def State.slkJob (s : State) (tag : Nat) : Option Nat := (List.range 4).find? (fun j => s.jobRuns j && s.handleOf j == tag)

/-- Payload of a DATA packet: staging offset and the data, padded to a multiple of 4. -/
def dataPayload (ofs : Nat) (bs : List Byte) : List Byte :=
  leBytesN 4 ofs ++ bs ++ List.replicate ((4 - bs.length % 4) % 4) 0

/-- Send the next part of a staged image to a target, or DATA_END behind the last part. -/
def State.slkImageNext (s : State) (j target kind ofs len : Nat) : State :=
  let b := (s.jobOf j).bytes
  let tag := s.handleOf j
  if b < len then
    let n := min 1020 (len - b)
    (s.slkSendTo target 0x10 tag (dataPayload (ofs + b) (s.staged (ofs + b) n))).onJob j (fun x => { x with bytes := b + n })
  else if b = len then
    (s.slkSendTo target 0x11 tag (leBytesN 4 kind ++ leBytesN 4 len ++ Config.sha384 (s.staged ofs len))).onJob j (fun x =>
      { x with bytes := len + 1 })
  else s

/-- Begin the target or action at the head of a job's list; an empty list ends it. -/
def State.slkBegin (s : State) (j : Nat) : State :=
  let s1 := s.onJob j (fun x => { x with bytes := 0, waitUp := false })
  match (s.jobOf j).todo, (s.jobOf j).kind with
  | [], _ => s.endJob j 1 0
  | t :: _, .distribute kind _ ofs len => s1.slkImageNext j t kind ofs len
  | a :: _, .recover target _ kind ofs len nonce _ =>
    match a with
    | 0 => s1.slkSendTo target 0x50 (s.handleOf j) (leBytesN 4 0)
    | 1 => s1.slkSendTo target 0x50 (s.handleOf j) (leBytesN 4 1)
    | 2 => s1.slkImageNext j target kind ofs len
    | 3 => s1.slkSendTo target 0x50 (s.handleOf j) (leBytesN 4 2)
    | _ => s1.slkSendTo target 0x40 (s.handleOf j) nonce
  | _, _ => s

/-- The head of the job's list is done. -/
def State.slkAdvance (s : State) (j : Nat) : State :=
  (s.onJob j (fun x => { x with todo := x.todo.tail })).slkBegin j

/-- The device's own position. -/
def State.position (s : State) : Nat := s.fld SYS_POS_POS

/-- Refusals that both commands share: SUNDLINK, the job bound, the KIND. -/
def State.slkRefusal (s : State) (i : Nat) (kind : Nat) (f : State) : State :=
  if !s.grantSlk then s.refuse i 0x04 0x000B 0
  else if s.freeJob.isNone then s.jobLimit i
  else if kind ≠ 1 ∧ kind ≠ 3 then s.refuse i 0x06 0x0006 0
  else f

/-- Start a Sundlink job with its list. -/
def State.slkStartJob (s : State) (i : Nat) (k : JobKind) (todo : List Nat) : State :=
  match s.freeJob with
  | some j => ((s.startJob i k []).onJob j (fun x => { x with todo := todo })).slkBegin j
  | none => s

/-- SLK_DISTRIBUTE (R462). -/
def execSlkDistribute (i : Fin 32) (kind mask ofs len : Nat) (hash : List Byte) (s : State) : Answer :=
  ezCommand s i 0x0B00 (s.slkRefusal i kind (s.withStaged i ofs len hash (fun _ =>
    s.slkStartJob i (.distribute kind mask ofs len)
      ((List.range 4).filter (fun t => mask.testBit t && t != s.position)))))

/-- SLK_DISTRIBUTE_TIMEOUT: 120 s after its start; its final status is open (R462; log row 30). -/
def execSlkDistributeTimeout (j : Fin 4) (s : State) : Answer :=
  whenFw s (
    match (s.jobOf j).kind with
    | .distribute .. => if s.jobRuns j then s.draw.endJob j 2 (s.openNat % 256) else s
    | _ => s)

/-- SLK_RECOVER (R463). The staging fields matter where bit 2 of the action mask selects an image. -/
def execSlkRecover (i : Fin 32) (target actions kind ofs len : Nat) (hash nonce : List Byte) (report : Nat) (s : State) : Answer :=
  let stage := actions.testBit 2
  let todo := (List.range 5).filter (fun a => actions.testBit a)
  let start := s.slkStartJob i (.recover target actions kind ofs len nonce report) todo
  ezCommand s i 0x0B01 (s.slkRefusal i (if stage then kind else 1) (
    if 4 ≤ target ∨ target = s.position ∨ 32 ≤ actions ∨ !stageRange report 296 then s.refuse i 0x06 0x0006 0
    else if stage then s.withStaged i ofs len hash (fun _ => start)
    else start))

/-- SLK_RECOVER_WAIT_TIMEOUT: 1 s after a restart the port is still not UP again; the final status is open (R463; log
row 30). -/
def execSlkRecoverWaitTimeout (j : Fin 4) (s : State) : Answer :=
  whenFw s (if s.jobRuns j && (s.jobOf j).waitUp then s.draw.endJob j 2 (s.openNat % 256) else s)

/-- The jobs that wait for a port go on when it is UP again. -/
def State.slkUpAgain (s : State) (p : Nat) : State :=
  s.forAll 4 (fun j t =>
    match (t.jobOf j).kind with
    | .recover target .. =>
      if t.jobRuns j && (t.jobOf j).waitUp && t.fld (SLK_PORT_PEER p) == target then t.slkAdvance j else t
    | _ => t)

/-- After an accepted action: a reset, or a restart whose port is down, is waited for. -/
def State.slkAccepted (s : State) (j p : Nat) : State :=
  match (s.jobOf j).kind, (s.jobOf j).todo with
  | .recover .., a :: _ =>
    if a = 1 ∨ ((a = 0 ∨ a = 3) ∧ !s.slkUp p) then s.onJob j (fun x => { x with waitUp := true }) else s.slkAdvance j
  | _, _ => s.slkAdvance j

/-! ### The packets of R454 -/

/-- SLK_HELLO: the source decides (R453, R456). -/
def execSlkHello (p : Fin 3) (h : SlkHdr) (s : State) : Answer :=
  whenDev s (
    if !s.slkCarries p then s
    else if !h.crcOk then s.slkSend p 0x03 h.tag (leBytesN 4 h.seq)
    else
      let s1 := s.slkSend p 0x02 h.tag (leBytesN 4 h.seq)
      if h.source = s.fld (SLK_PORT_PEER p) then (s1.setSlkState p 2).slkUpAgain p
      else ((s1.slkTrain p).setSlkState p 3).setFlag SLK_FLAGS_MISWIRED)

/-- SLK_ACK: the packet waits no more; behind a DATA packet the next part follows (R455). -/
def State.slkAcked (s : State) (p : Nat) (q : Nat) : State :=
  match (s.slkPortOf p).waits.find? (fun w => w.pkt.seq == q) with
  | none => s
  | some w =>
    let s1 := s.onSlkPort p (fun u => { u with waits := u.waits.erase w })
    if w.pkt.typ ≠ 0x10 then s1
    else
      match s1.slkJob w.pkt.tag with
      | none => s1
      | some j =>
        match (s1.jobOf j).kind, (s1.jobOf j).todo with
        | .distribute kind _ ofs len, t :: _ => s1.slkImageNext j t kind ofs len
        | .recover target _ kind ofs len _ _, _ :: _ => s1.slkImageNext j target kind ofs len
        | _, _ => s1

def execSlkAck (p : Fin 3) (h : SlkHdr) (q : Byte) (s : State) : Answer := slkArrive s p h false (fun t => t.slkAcked p q.toNat)

/-- The operation that sent a packet fails: its job, or the alignment under way; the final status is open (R455; log
row 30). -/
def State.slkOperationFails (s : State) (k : SlkPacket) : State :=
  if k.typ = 0x30 then { s with slk := { s.slk with busy := false } }
  else if k.typ = 0x10 ∨ k.typ = 0x11 ∨ k.typ = 0x40 ∨ k.typ = 0x50 then
    match s.slkJob k.tag with
    | some j => s.draw.endJob j 2 (s.openNat % 256)
    | none => s
  else s

/-- A packet is not acknowledged: it is repeated, at most 3 times and within 20 µs of its first sending; then its operation
fails and the port trains again. -/
def State.slkRepeat (s : State) (p q : Nat) : State :=
  match (s.slkPortOf p).waits.find? (fun w => w.pkt.seq == q) with
  | none => s
  | some w =>
    if w.repeats < 3 ∧ s.now - w.firstAt ≤ usTicks 20 then
      (s.onSlkPort p (fun u =>
        { u with
          tx := (w.pkt :: u.tx).take 8,
          waits := u.waits.map (fun x => if x = w then { x with repeats := x.repeats + 1 } else x) })).count SLK_CNT_RETRY_CNT
    else ((s.slkTrain p).setFlag SLK_FLAGS_RETRY_FAIL).slkOperationFails w.pkt

/-- SLK_NAK (R455). -/
def execSlkNak (p : Fin 3) (h : SlkHdr) (q : Byte) (s : State) : Answer := slkArrive s p h false (fun t => t.slkRepeat p q.toNat)

/-- SLK_ACK_TIMEOUT: no ACK of packet `q` within 5 µs (R455). -/
def execSlkAckTimeout (p : Fin 3) (q : Byte) (s : State) : Answer := whenDev s (s.slkRepeat p q.toNat)

/-- SLK_BEAT: it is answered and keeps the port UP (R456). -/
def execSlkBeat (p : Fin 3) (h : SlkHdr) (s : State) : Answer := slkArrive s p h true id

/-- SLK_HELLO_SEND (R456). The payload is UID, position, SYS_GRANT and SEC_BOOT. -/
def execSlkHelloSend (p : Fin 3) (s : State) : Answer :=
  let body := s.otp.uid ++ leBytesN 4 s.position ++ leBytes (s.reg SYS_GRANT) ++ leBytes (s.reg SEC_BOOT)
  whenDev s (if s.slkOn && s.fld (SLK_PORT_STATE p) == 1 then s.slkSend p 0x01 0 body else s)

/-- SLK_BEAT_SEND (R456). -/
def execSlkBeatSend (p : Fin 3) (s : State) : Answer := whenDev s (if s.slkOn && s.slkUp p then s.slkSend p 0x04 0 [] else s)

/-- SLK_LINK_TIMEOUT: no packet for 1 ms (R456). -/
def execSlkLinkTimeout (p : Fin 3) (s : State) : Answer :=
  whenDev s (if s.slkUp p then (s.slkTrain p).setFlag SLK_FLAGS_LINK_DOWN else s)

/-- SLK_UNKNOWN_PACKET: it is discarded and counted, while the port trains as well (R454). -/
def execSlkUnknownPacket (p : Fin 3) (h : SlkHdr) (s : State) : Answer :=
  whenDev s (
    if !s.slkCarries p then s
    else if !h.crcOk then s.slkSend p 0x03 h.tag (leBytesN 4 h.seq)
    else (s.slkSend p 0x02 h.tag (leBytesN 4 h.seq)).count SLK_CNT_DISCARD_CNT)

/-! ### Operations that a peer asks for (R461) -/

/-- Answer an operation with RESULT: status code, DETAIL and ARG. -/
def State.slkResult (s : State) (p tag status detail arg : Nat) : State :=
  s.slkSend p 0x12 tag (leBytesN 4 status ++ leBytesN 2 detail ++ leBytesN 2 arg)

/-- A refusal whose DETAIL and ARG are open (log row 30). -/
def State.slkRefuse (s : State) (p tag status : Nat) : State :=
  s.draw.slkResult p tag status (s.openNat % 65536) (s.openNat / 65536)

/-- SLK_DATA: into the staging area; what lies outside it goes nowhere. -/
def execSlkData (p : Fin 3) (h : SlkHdr) (ofs : Nat) (data : List Byte) (s : State) : Answer :=
  slkArrive s p h true (fun t =>
    if stageRange ofs data.length then
      (t.setBytes (stageBase + ofs) data).onSlkPort p (fun u => { u with base := some (u.base.getD ofs) })
    else t)

/-- A firmware image from a peer (R394, R397): `readback` is the slot as it reads after programming. -/
def State.peerFirmware (s : State) (p tag : Nat) (bs readback : List Byte) : State :=
  let k := s.packageCheck bs
  if (List.range 4).any (fun j => s.jobRuns j && isFwStage (s.jobOf j).kind) then s.slkRefuse p tag 0x01
  else if k ≠ 0 then ((s.setFlag SEC_FLAGS_IMAGE_REFUSED).draw).slkResult p tag 0x05 (s.openNat % 65536) k
  else
    let s1 := ((s.stageFirmware bs).setFlashSlot (!s.runningSlot) readback).showVersions
    if readback = bs then
      { s1 with trust := { s1.trust with staged := some (!s.runningSlot) } }.slkResult p tag 0 0 0
    else s1.draw.slkResult p tag (s.openNat % 256) (s.openNat / 256 % 65536) 0

/-- A Trestle image from a peer (R133 to R135, R394): `body` is what the payload says behind its header. -/
def State.peerImage (s : State) (p tag : Nat) (bs : List Byte) (body : ImageBody) : State :=
  let img := imageOfPayload (imgPayload bs) body
  let k := s.imageCheck 3 bs
  if s.swapping then s.slkRefuse p tag 0x07
  else if k ≠ 0 then ((s.setFlag SEC_FLAGS_IMAGE_REFUSED).draw).slkResult p tag 0x05 (s.openNat % 65536) k
  else if !headerOk (imgPayload bs) body || imageRefused img then s.slkRefuse p tag 0x06
  else (s.loadImage img).slkResult p tag 0 0 0

/-- SLK_DATA_END: the image that the DATA packets before it brought is checked and staged. -/
def execSlkDataEnd (p : Fin 3) (h : SlkHdr) (kind len : Nat) (hash readback : List Byte) (body : ImageBody) (s : State) : Answer :=
  slkArrive s p h true (fun t =>
    let ofs := (t.slkPortOf p).base.getD 0
    let bs := t.staged ofs len
    let t1 := t.onSlkPort p (fun u => { u with base := none })
    if (kind ≠ 1 ∧ kind ≠ 3) ∨ !stageRange ofs len then t1.slkResult p h.tag 0x06 0x0006 0
    else if Config.sha384 bs != hash then t1.slkRefuse p h.tag 0x05
    else if kind = 1 then t1.peerFirmware p h.tag bs readback
    else t1.peerImage p h.tag bs body)

/-- SLK_RESULT: the status stands in SLK_PORT.RESULT, and the job that asked goes on; a refusal ends a recovery with the
target's status (R462, R463). -/
def execSlkResult (p : Fin 3) (h : SlkHdr) (status : Byte) (s : State) : Answer :=
  slkArrive s p h true (fun t =>
    let t1 := t.setFld (SLK_PORT_RESULT p) status.toNat
    match t1.slkJob h.tag with
    | none => t1
    | some j =>
      match (t1.jobOf j).kind with
      | .distribute .. => t1.slkAdvance j
      | .recover .. => if status = 0 then t1.slkAccepted j p else t1.endJob j 2 status.toNat
      | _ => t1)

/-- SLK_ATTEST_REQ: the report of R401 over the nonce received. -/
def execSlkAttestReq (p : Fin 3) (h : SlkHdr) (nonce : List Byte) (s : State) : Answer :=
  slkArrive s p h true (fun t => (t.slkSend p 0x40 h.tag (t.attestReport nonce)).slkResult p h.tag 0 0 0)

/-- SLK_ATTEST_REP: the report goes into the staging area of the recovery that asked (R463). -/
def execSlkAttestRep (p : Fin 3) (h : SlkHdr) (report : List Byte) (s : State) : Answer :=
  slkArrive s p h true (fun t =>
    match t.slkJob h.tag with
    | none => t
    | some j =>
      match (t.jobOf j).kind with
      | .recover _ _ _ _ _ _ ofs => t.setBytes (stageBase + ofs) (report.take 296)
      | _ => t)

/-- SLK_MGMT_RESTART: unless one was accepted in the last 10 s (R398, R447, R461). -/
def execSlkMgmtRestart (p : Fin 3) (h : SlkHdr) (s : State) : Answer :=
  slkArrive s p h true (fun t =>
    let free := match t.boot.restartAt with | some a => decide (usTicks 10000000 ≤ t.now - a) | none => true
    if free then
      let t1 := (t.slkResult p h.tag 0 0 0).setFldBit SYS_RST_CAUSE_CAUSE 5 true
      ({ t1 with boot := { t1.boot with restartAt := some t.now } }).mgmtRestart false
    else (t.setFlag SLK_FLAGS_RESTART_REFUSED).slkRefuse p h.tag 0x07)

/-- E_EFF of some station is not 0. -/
def State.anyEnable (s : State) : Bool := (List.range 4).any (fun n => (List.range 12).any (fun k => (s.hbOf n k).eff))

/-- SLK_FULL_RESET: while every effective enable is low (R445, R461). -/
def execSlkFullReset (p : Fin 3) (h : SlkHdr) (s : State) : Answer :=
  slkArrive s p h true (fun t =>
    if t.anyEnable then (t.setFlag SLK_FLAGS_RESTART_REFUSED).slkRefuse p h.tag 0x07
    else (t.slkResult p h.tag 0 0 0).deviceReset 4)

/-- SLK_MONITOR_ACTIVATE: FW_ACTIVATE ACTION 0 on a device in the ROM monitor (R397, R461). -/
def execSlkMonitorActivate (p : Fin 3) (h : SlkHdr) (s : State) : Answer :=
  slkArrive s p h true (fun t =>
    match t.activatable with
    | some b =>
      if t.monitor && t.canRestartOn b then (t.slkResult p h.tag 0 0 0).activate b else t.slkRefuse p h.tag 0x07
    | none => t.slkRefuse p h.tag 0x07)

/-! ### SYNC and alignment (R457 to R460) -/

/-- ALIGN to every port that is UP: φ_M and the pulse number, 0 for the measure pulse. -/
def State.sendAlign (s : State) (phi pulse : Nat) : State :=
  s.forAll 3 (fun p t => if t.slkUp p then t.slkSend p 0x30 0 (leBytesN 4 phi ++ leBytesN 4 pulse) else t)

/-- Every station named in SLK_ALIGN.STN is idle. -/
def State.alignIdle (s : State) : Bool := (List.range 4).all (fun n => !s.fldBit SLK_ALIGN_STN n || s.stnIdle n)

/-- A write of 1 to SLK_ALIGN.GO (R458, R459, R467). -/
def State.alignGo (s : State) : State :=
  if s.position = 0 && !s.slk.busy && s.alignIdle && (List.range 3).any s.slkUp then
    { s with slk := { s.slk with busy := true, sent := 1, checks := 0, measured := false, startNext := false, releaseDue := false } }
  else s.setFlag SLK_FLAGS_WRITE_REFUSED

/-- SLK_ALIGN_GO. -/
def execSlkAlignGo (s : State) : Answer := writeWindow 0x1E s s.alignGo

/-- A SYNC edge as position 0 sees its own pulse, or as a follower sees it. -/
def State.syncEdge (s : State) (phiA phiB : Nat) : State :=
  let s1 : State := { s.setFld SLK_ALIGN_STAT_PHI phiA with slk := { s.slk with phiB := phiB, edgeAt := s.now } }
  if s.position = 0 then
    let s2 : State := { s1 with slk := { s1.slk with sent := 0 } }
    match s.slk.sent with
    | 1 => { s2 with slk := { s2.slk with measured := true } }.sendAlign phiA 0
    | 2 => { s2 with slk := { s2.slk with startEdge := s.now, releaseDue := true } }
    | 3 => s2.sendAlign phiA s.slk.checks
    | _ => s1
  else if s.slk.busy && s.slk.startNext then
    { s1 with slk := { s1.slk with startNext := false, startEdge := s.now, releaseDue := true } }
  else s1

/-- SYNC_EDGE: the phases of a sampled edge on PLL-A and PLL-B (R457). -/
def execSyncEdge (phiA phiB : Fin 64) (s : State) : Answer := whenRun s (if s.grantSlk then s.syncEdge phiA phiB else s)

/-- ALIGN_START_PULSE: 1 ms after GO (R459). -/
def execAlignStartPulse (s : State) : Answer :=
  whenRun s (if s.position = 0 && s.slk.busy && s.slk.measured then
      { s with slk := { s.slk with measured := false, sent := 2 } }
    else s)

/-- ALIGN_TB_RELEASE: 1,024 ticks after the start edge (R459). -/
def execAlignTbRelease (s : State) : Answer :=
  whenRun s (if s.slk.busy && s.slk.releaseDue then
      let s1 : State := { s with slk := { s.slk with busy := false, releaseDue := false, checks := 0 } }
      let s2 := s1.forAll 4 (fun n t =>
        if t.fldBit SLK_ALIGN_STN n then (t.setFld (PWM_TB_CTRL_TB_HOLD n) 0).startTimebase n else t)
      (s2.setFlag SLK_FLAGS_ALIGN_DONE).setFld SLK_STATUS_ALIGNED 1
    else s)

/-- ALIGN_CHECK_PULSE: every 4,000,000 ticks from the start edge (R460). -/
def execAlignCheckPulse (s : State) : Answer :=
  whenRun s (if s.position = 0 && s.flag SLK_STATUS_ALIGNED then
      { s with slk := { s.slk with sent := 3, checks := s.slk.checks + 1 } }
    else s)

/-- A phase difference modulo 64, in the range −32 to +31. -/
def phaseWrap (x : Int) : Int := (x + 32) % 64 - 32

/-- The error of a follower at check pulse `pulse` (R460). -/
def State.alignError (s : State) (phiM pulse : Nat) : Int :=
  64 * (((s.slk.edgeAt - s.slk.startEdge : Nat) : Int) - (pulse * 4000000 : Nat)) + (s.fld SLK_ALIGN_STAT_PHI : Int) - phiM

/-- What a follower does with its error. -/
def State.alignCheck (s : State) (e : Int) : State :=
  let s1 := s.setFld SLK_ALIGN_STAT_ERR (unsignedOf 24 (max (-8388608) (min 8388607 e)))
  if e.natAbs ≤ 1 then s1
  else if e.natAbs ≤ 256000 then
    { s1 with slk := { s1.slk with slewA := -e, slewB := -e } }.nextSlew 0 |>.nextSlew 1
  else (s1.setFlag SLK_FLAGS_ALIGN_LOST).setFld SLK_STATUS_ALIGNED 0

/-- SLK_ALIGN_PACKET: behind the measure pulse a follower steps both PLLs; behind a check pulse it forms its error. -/
def execSlkAlignPacket (p : Fin 3) (h : SlkHdr) (phiM : Fin 64) (pulse : Nat) (s : State) : Answer :=
  slkArrive s p h true (fun t =>
    if t.position = 0 then t
    else if pulse = 0 then
      let step (phi : Nat) : Nat := unsignedOf 13 (phaseWrap ((phiM.val : Int) - phi))
      let t1 := (t.writePhaseStep 0 (step (t.fld SLK_ALIGN_STAT_PHI))).writePhaseStep 1 (step t.slk.phiB)
      { t1 with slk := { t1.slk with busy := true, startNext := true, releaseDue := false } }
    else if t.flag SLK_STATUS_ALIGNED then t.alignCheck (t.alignError phiM pulse)
    else t)

/-! ### Cross-checks (R464) -/

/-- SLK_XCHK: a peer's sample of an entry. -/
def execSlkXchk (p : Fin 3) (h : SlkHdr) (i : Fin 8) (tick : Nat) (v : Int) (s : State) : Answer :=
  slkArrive s p h true (fun t =>
    if t.xchkOn i && t.fld (SLK_XCHK_PEER i) == t.fld (SLK_PORT_PEER p) then t.xchkSample i false tick v else t)

/-- XCHK_UNPAIRED: the oldest sample of an entry has had no partner for 10 ms. -/
def execXchkUnpaired (i : Fin 8) (s : State) : Answer :=
  whenDev s (
    match s.slk.samples.find? (fun e => e.entry == i.val) with
    | some e => ({ s with slk := { s.slk with samples := s.slk.samples.erase e } }).count (SLK_XCHK_CNT_UNPAIRED_CNT i)
    | none => s)

/-! ### The test access port (R465, R466) -/

/-- JTAG_INSTRUCTION_LOAD. A station in RELEASING stays held. -/
def execJtagInstructionLoad (code : Byte) (s : State) : Answer :=
  let put (t : State) (b : Byte) : State := { t with slk := { t.slk with ir := b } }
  .next (
    if code = 3 ∨ code = 4 ∨ code = 5 then
      if s.allIdleHeld then
        (put s code).forAll 4 (fun n t =>
          if (t.safeOf n).releasing then t.failRelease (t.safeOf n).party else t.soutsLow n)
      else (put s 0xFF).setFlag SLK_FLAGS_SCAN_REFUSED
    else put s (if code = 1 ∨ code = 2 then code else 0xFF))

/-- TAP_RESET: the stations stay held until a release. -/
def execTapReset (s : State) : Answer := .next { s with slk := { s.slk with ir := 1 } }

end Sys2Proof.Machine
end

