-- ==== Sys2Proof/Machine/View.lean ====
section
/-! DEFINITION. What a register reads as (R10, R11, R14): the stored word, or the value that the unit shows at the moment.
Nothing here changes the state; reads with an effect stand in Bus.lean. -/

namespace Sys2Proof.Machine

/-- A word made of field values. -/
def packF (l : List (Fld × Nat)) : Word := l.foldl (fun w e => putBits w e.1.lo e.1.w e.2) 0

/-- One bit for each number below `n` that satisfies a condition. -/
def bitSet (n : Nat) (f : Nat → Bool) : Nat := (List.range n).foldl (fun a i => a + (f i).toNat * 2 ^ i) 0

/-- Write several fields over a stored word. -/
def overF (w : Word) (l : List (Fld × Nat)) : Word := l.foldl (fun w e => putBits w e.1.lo e.1.w e.2) w

/-! ### The interrupt tree (R383) -/

/-- Leaf registers of a block by leaf number, each with its W1C bits. -/
def leafRegs (b : Nat) : List (Nat × Nat × Word) :=
  let all : Word := 0xFFFFFFFF
  match b with
  | 0 => [(0, SYS_STATUS, all)]
  | 1 => [(0, CLK_FLAGS, all)]
  | 2 => [(0, PWR_FLAGS, all)]
  | 3 => [(0, PMB_FLAGS, all)]
  | 4 => [(0, OTP_FLAGS, all)]
  | 5 => [(0, SEC_FLAGS, all)]
  | 6 => [(0, TIM_FLAGS, all), (1, TIM_CAP_STATUS, 0xFFFF0000)]
  | 7 => (List.range 4).map (fun n => (n, PWM_FLAGS n, all))
  | 8 => (List.range 4).map (fun n => (n, GATE_FLAGS n, all))
  | 9 => [(0, ADC_FLAGS, all)]
  | 10 => [(0, SDM_FLAGS, all)]
  | 11 => (List.range 2).map (fun e => (e, TRS_FLAGS e, all))
  | 12 => (List.range 4).flatMap (fun n =>
      [(4 * n, GFM_CORE_FLAGS n, all), (4 * n + 1, GFM_SBS_FLAGS n, all), (4 * n + 2, GFM_FRT_FLAGS n, all)])
  | 13 => [(0, RED_FLAGS, all)]
  | 14 => [(0, SAF_FLAGS, all)]
  | 15 => [(0, MBX_DONE, all), (1, MBX_JOB_DONE, all), (2, MBX_FLAGS, all)]
  | 16 => [(0, DMA_FLAGS, all), (1, DMA_DONE, all)]
  | 17 => [(0, CVU_FLAGS, 1)]
  | 18 => [(0, CHS_FLAGS, all)]
  | 19 => [(0, SLK_FLAGS, all)]
  | 20 => [(0, SHF_FLAGS, all)]
  | 21 => (List.range 32).map (fun q => (q, pq AQR_FLAGS q, all))
  | 22 => (List.range 32).map (fun q => (q, pq AQR_FLAGS (q + 32), all))
  | _ => []

/-- IRQ_CAUSE of a block. -/
def State.irqCause (s : State) (b : Nat) : Nat :=
  (leafRegs b).foldl (fun a e => a + (decide (s.reg e.2.1 &&& e.2.2 ≠ 0)).toNat * 2 ^ e.1) 0

/-- IRQ_SUMMARY. -/
def State.irqSummary (s : State) : Nat := bitSet 32 (fun b => decide (s.irqCause b ≠ 0))

/-- IRQ_N is asserted. -/
def State.irqLine (s : State) : Bool :=
  (List.range 32).any (fun b => bit (s.reg IRQ_EN) b && decide (s.irqCause b ≠ 0))

/-! ### Windows -/

/-- SYS_OTP_CHECK: bit 8n + j is 1 when check j of R451 passes for station n. -/
def State.otpCheckWord (s : State) : Word :=
  BitVec.ofNat 32 ((List.range 4).foldl (fun a n =>
    a + bitSet 6 (fun j => (s.otpCheck n).getD j false) * 2 ^ (8 * n)) 0)

/-- Seconds that the pending Bureau request has left (R407). -/
def State.bureauRemain (s : State) : Nat :=
  match s.trust.req with
  | some r => 600 - (s.now - r.stagedAt) / 400000000
  | none => 0

/-- TIM_EST_WIN: the step window in microseconds, saturating. -/
def State.estWin (s : State) : Nat := min (floorRat s.stepWindow).toNat (2 ^ 32 - 1)

/-- SYS, IRQ, OTP and TIM. -/
def State.viewSystem (s : State) (a : Nat) : Word :=
  if a = SYS_GRANT then s.grants.setWidth 32
  else if a = SYS_OTP_CHECK then s.otpCheckWord
  else if a = IRQ_SUMMARY then BitVec.ofNat 32 s.irqSummary
  else if IRQ_CAUSE 0 ≤ a ∧ a ≤ IRQ_CAUSE 31 then BitVec.ofNat 32 (s.irqCause ((a - IRQ_CAUSE 0) / 4))
  else if a = OTP_STATUS then overF (s.reg a) [(OTP_STATUS_APPLY_PENDING, (!s.pendSet.isEmpty).toNat)]
  else if a = OTP_BUREAU then overF (s.reg a) [(OTP_BUREAU_REMAIN, s.bureauRemain)]
  else if a = TIM_NS then BitVec.ofNat 32 s.clock.ns
  else if a = TIM_S_LO then BitVec.ofNat 32 s.clock.latched
  else if a = TIM_S_HI then BitVec.ofNat 32 (s.clock.latched / 2 ^ 32 % 2 ^ 16)
  else if a = TIM_FREE then BitVec.ofNat 32 s.clock.free
  else if a = TIM_EST_WIN then BitVec.ofNat 32 s.estWin
  else if a = TIM_AON_LO then BitVec.ofNat 32 s.clock.aon
  else if a = TIM_AON_HI then BitVec.ofNat 32 (s.clock.aonHi % 2 ^ 16)
  else s.reg a

/-- The PWM window of station `n`. -/
def State.viewPwm (s : State) (n a : Nat) : Word :=
  if a = PWM_PRD_ACT n then s.actReg (PWM_PRD n)
  else if a = PWM_TB_CNT n then
    let c := counterAt (s.flag (PWM_TB_CFG_MODE n)) (s.prdAct n) (s.carLen n) (s.carTick n)
    packF [(PWM_TB_CNT_C n, c.1), (PWM_TB_CNT_DIR n, c.2.toNat)]
  else if a = PWM_STATUS n then
    packF [(PWM_STATUS_MASK_IDX n, s.maskIndex n), (PWM_STATUS_PRD_PENDING n, (s.prdPending n).toNat),
      (PWM_STATUS_ARMED n, (s.pwmOf n).armed.toNat), (PWM_STATUS_TB_RUN n, (s.pwmOf n).run.toNat)]
  else s.reg a

/-- The GATE window of station `n`. -/
def State.viewGate (s : State) (n a : Nat) : Word := if a = GATE_STATUS n then s.gateStatus n else s.reg a

/-- The ADC window. -/
def State.viewAdc (s : State) (a : Nat) : Word :=
  if a = ADC_STATUS then
    packF [(ADC_STATUS_COVERED, bitSet 16 s.covered),
      (ADC_STATUS_BUSY, bitSet 16 (fun k => (s.convOf k).seqRun || (s.convOf k).urgent))]
  else s.reg a

def shownImage (i : Option Image) : Word := match i with | some x => x.id | none => 0

/-- The TRS window of engine `e`. -/
def State.viewTrs (s : State) (e a : Nat) : Word :=
  if a = TRS_STATUS e then
    packF [(TRS_STATUS_SWAP_PENDING e, bitSet 4 (fun n => (s.stnOf n).swapPending)),
      (TRS_STATUS_BANK_ACTIVE e, (s.banksOf e).active.toNat), (TRS_STATUS_SHD_VALID e, (s.banksOf e).shdValid.toNat),
      (TRS_STATUS_ROLE e, ((if e = 0 then s.red.stA else s.red.stB) == 1).toNat)]
  else if a = TRS_IMAGE_ACT e then shownImage (s.banksOf e).act
  else if a = TRS_IMAGE_SHD e then shownImage (s.banksOf e).shd
  else if TRS_DEADLINE e 0 ≤ a ∧ a ≤ TRS_DEADLINE e 3 then BitVec.ofNat 32 (s.deadlineNs ((a - TRS_DEADLINE e 0) / 4))
  else if TRS_COST e 0 ≤ a ∧ a ≤ TRS_COST e 3 then
    let n := (a - TRS_COST e 0) / 4
    packF [(TRS_COST_COPY_BYTES e n, copyBytesOf (s.banksOf e).act n), (TRS_COST_CYCLES e n, costOf (s.banksOf e).act n)]
  else if a = TRS_DMEM_DATA e then s.dmemRead e (s.fld (TRS_DMEM_ADDR_ADDR e))
  else s.reg a

/-- ENV_AGE in milliseconds (R34). -/
def State.envAge (s : State) (n : Nat) : Nat :=
  match (s.stnOf n).envAt with
  | some t => min ((s.now - t) / 400000) 65535
  | none => 65535

def phaseCode : StartPhase → Nat
  | .none => 0 | .deadCheck => 1 | .ramp => 2 | .rampHold => 3 | .busCheck => 4 | .energise => 5 | .matching => 6
  | .window => 7 | .busGap => 8

/-- GFM_FRT_STATUS. -/
def State.frtStatus (s : State) (n : Nat) : Word :=
  let u := s.stnOf n
  overF (s.reg (GFM_FRT_STATUS n))
    [(GFM_FRT_STATUS_LIM_TIME n, min (floorRat u.lim.limTime).toNat 65535), (GFM_FRT_STATUS_CEIL_AT_OVL n, u.lim.ceilAtOvl.toNat),
     (GFM_FRT_STATUS_CLAMP_ACTIVE n, u.lim.clampActing.toNat), (GFM_FRT_STATUS_RT_ACTIVE n, (u.st == .rideThrough).toNat),
     (GFM_FRT_STATUS_DZ_ACTIVE n, (decide (0 < u.core.dz)).toNat)]

/-- GFM_START_STATUS. -/
def State.startStatus (s : State) (n : Nat) : Word :=
  let x := (s.stnOf n).start
  let on := (s.stnOf n).st == .deadBusStart || (s.stnOf n).st == .synchronising
  overF (s.reg (GFM_START_STATUS n))
    [(GFM_START_STATUS_PHASE n, if on then phaseCode x.phase else 0), (GFM_START_STATUS_BRK n, (s.brkClosed n).toNat),
     (GFM_START_STATUS_BUS_LIVE n, x.busLiveOk.toNat), (GFM_START_STATUS_SYNC_OK n, (on && x.phase == .window).toNat)]

/-- The GFM window of station `n`. -/
def State.viewGfm (s : State) (n a : Nat) : Word :=
  let u := s.stnOf n
  if a = GFM_STATE n then packF [(GFM_STATE_STATE n, stCode u.st), (GFM_STATE_PREV_STATE n, stCode u.prev)]
  else if a = GFM_ENV_STATUS n then overF (s.reg a) [(GFM_ENV_STATUS_ENV_AGE n, s.envAge n)]
  else if a = GFM_FRT_STATUS n then s.frtStatus n
  else if a = GFM_START_STATUS n then s.startStatus n
  else if GFM_SYNC_DANG n ≤ a ∧ a ≤ GFM_SYNC_DVOLT n then if u.st == .synchronising then s.reg a else 0
  else if GFM_HCH_CFG n 0 ≤ a ∧ a ≤ GFM_HCH_CFG n 11 then
    let c := (a - GFM_HCH_CFG n 0) / 4
    overF (s.reg a) [(GFM_HCH_CFG_ACTIVE n c, (tget (fun _ => {}) u.hch c).active.toNat)]
  else if GFM_HCH_IH n 0 ≤ a ∧ a ≤ GFM_HCH_IH n 11 then
    let h := tget (fun _ => {}) u.hch ((a - GFM_HCH_IH n 0) / 4)
    if h.active then f32OfRat h.ih else 0
  else if GFM_HCH_VH n 0 ≤ a ∧ a ≤ GFM_HCH_VH n 11 then
    let h := tget (fun _ => {}) u.hch ((a - GFM_HCH_VH n 0) / 4)
    if h.active then f32OfRat h.vh else 0
  else if a = GFM_I_CEIL n then if u.idle then 0 else f32OfRat u.lim.iCeil
  else if GFM_SNAP n 1 ≤ a ∧ a ≤ GFM_SNAP n 31 then u.snapCopy.getD ((a - GFM_SNAP n 0) / 4) 0
  else s.reg a

/-- RED_STATUS. -/
def State.viewRed (s : State) (a : Nat) : Word :=
  if a = RED_STATUS then
    overF (s.reg a) [(RED_STATUS_ACTIVE, s.red.active.val), (RED_STATUS_B_STATE, s.red.stB), (RED_STATUS_A_STATE, s.red.stA)]
  else s.reg a

/-- The station is held because of its configuration (R341). -/
def State.configHeld (s : State) (n : Nat) : Bool :=
  !s.soutNamed n || (s.stnType n == 1 && (decide (s.safPar n 9 = 0) || decide (s.safPar n 10 = 0)))

/-- SAF_STN.CAUSE: CONFIG where the configuration holds the station; a removal of the boot is BOOT where the settings are
complete and CONFIG where they are not (R339, R341). -/
def State.shownCause (s : State) (n : Nat) : Nat :=
  let c := s.fld (SAF_STN_CAUSE n)
  if s.configHeld n then 0x0F
  else if c = 0x0E ∨ c = 0x0F then (if s.settingsComplete n then 0x0E else 0x0F)
  else c

def State.shownSafe (s : State) (n : Nat) : Nat :=
  let f := s.safeOf n
  if f.releasing then 3 else if f.held then 2 else if f.stop && f.demanded then 1 else 0

/-- The SAF window. -/
def State.viewSaf (s : State) (a : Nat) : Word :=
  if a = SAF_STATUS then
    overF (s.reg a) [(SAF_STATUS_SETTLE_OK, (s.safe.settleRuns && s.safe.settleOk).toNat), (SAF_STATUS_LB_PERMIT, bitSet 4 s.permit),
      (SAF_STATUS_HELD, bitSet 4 (fun n => (s.safeOf n).held)),
      (SAF_STATUS_SAFE_STOP, bitSet 4 (fun n => (s.safeOf n).stop && (s.safeOf n).demanded))]
  else if a = SAF_SIN then
    packF [(SAF_SIN_DISC, bitSet 8 (fun x => (s.sinOf x).disc)), (SAF_SIN_DEMAND, bitSet 8 (fun x => (s.sinOf x).demand)),
      (SAF_SIN_B, bitSet 8 (fun x => (s.sinOf x).b)), (SAF_SIN_A, bitSet 8 (fun x => (s.sinOf x).a))]
  else if a = SAF_SOUT then
    packF [(SAF_SOUT_FAULT, bitSet 8 (fun k => (s.soutOf k).fault)), (SAF_SOUT_TESTING, bitSet 8 (fun k => (s.soutOf k).testing)),
      (SAF_SOUT_SRB, bitSet 8 (fun k => (s.soutOf k).srb)), (SAF_SOUT_LEVEL, bitSet 8 (fun k => (s.soutOf k).level))]
  else if a = SAF_LB then overF (s.reg a) [(SAF_LB_REMOVE, bitSet 4 (fun n => !s.permit n))]
  else if SAF_STN 0 ≤ a ∧ a ≤ SAF_STN 3 then
    let n := (a - SAF_STN 0) / 4
    packF [(SAF_STN_CAUSE n, s.shownCause n),
      (SAF_STN_PENDING_SET n, (s.pendSet.any (fun e => settingStation e.1 == some n || settingStation e.1 == none)).toNat),
      (SAF_STN_LB_REMOVED n, (!s.permit n).toNat), (SAF_STN_STATE n, s.shownSafe n)]
  else if SAF_HB_VAL 0 ≤ a ∧ a ≤ SAF_HB_LIM 3 then
    if (s.stnOf ((a - SAF_HB_VAL 0) / 4 % 4)).st == .stopping then s.reg a else 0
  else s.reg a

/-- A word of a pigeonhole. -/
def State.holeWord (s : State) (o : Nat) : Word := BitVec.ofNat 32 (leNat (s.holeBytes o 4))

/-- The MBX window. -/
def State.viewMbx (s : State) (a : Nat) : Word :=
  if a < MBX_CLAIM then s.holeWord (a - 0x1A0000)
  else if a = MBX_STATE 0 ∨ a = MBX_STATE 1 then
    let b := if a = MBX_STATE 0 then 0 else 16
    BitVec.ofNat 32 ((List.range 16).foldl (fun x i => x + (s.slotOf (b + i)).st * 2 ^ (2 * i)) 0)
  else s.reg a

/-- The DMA and CVU windows. -/
def State.viewData (s : State) (a : Nat) : Word :=
  if a = DMA_STATUS then
    overF (s.reg a) [(DMA_STATUS_BUSY, bitSet 16 (fun n => s.chState n == 1 || s.chState n == 2)),
      (DMA_STATUS_OUTSTANDING, s.outstanding)]
  else if CVU_CFG 0 ≤ a ∧ a < CVU_FLAGS then
    let u := (a - CVU_CFG 0) / 0x40
    let c := s.cvuOf u
    let lo (k : Nat) : Word := BitVec.ofNat 32 (s.cvuQuantity u k)
    let hi (k : Nat) : Word := (s.cvuReadHi u k).1
    match (a - CVU_CFG 0) % 0x40 with
    | 0x00 =>
      overF (s.reg a) [(CVU_CFG_BOUND u, c.boundTo.isSome.toNat), (CVU_CFG_BOUND_CH u, c.boundTo.getD 0),
        (CVU_CFG_BUSY u, (!c.feeds.isEmpty).toNat)]
    | 0x08 => lo 0
    | 0x0C => hi 0
    | 0x10 => lo 1
    | 0x14 => hi 1
    | 0x18 => lo 2
    | 0x1C => hi 2
    | 0x20 => lo 3
    | 0x24 => hi 3
    | _ => s.reg a
  else s.reg a

/-- CHS, SLK and SHF. -/
def State.viewRecord (s : State) (a : Nat) : Word :=
  if a = CHS_SLOT then BitVec.ofNat 32 (min s.slotBytes (2 ^ 32 - 1))
  else if a = SLK_ALIGN then
    let stn := s.fld SLK_ALIGN_STN
    overF (s.reg a) [(SLK_ALIGN_ARMED, (decide (stn ≠ 0) && (List.range 4).all (fun n =>
      !stn.testBit n || (s.flag (PWM_TB_CTRL_TB_HOLD n) && !(s.pwmOf n).run))).toNat)]
  else if SHF_AGG0 0 ≤ a ∧ a < SHF_AGG0 64 then
    let q := (a - SHF_AGG0 0) / 0x40
    let w := (a - SHF_AGG0 q) / 4
    if 1 ≤ w ∧ w ≤ 8 then (s.portOf q).aggCopy.getD w (regReset a) else s.reg a
  else s.reg a

/-- Registers that both engine windows share (R165): the address in the window of Engine A. -/
def sharedAddr (a : Nat) : Nat :=
  let o := a - 0x130000
  if 0x130000 ≤ a ∧ a < 0x140000 ∧ (o = 4 ∨ (0x100 ≤ o ∧ o < 0x600) ∨ (0x800 ≤ o ∧ o < 0xC00)) then a - 0x10000 else a

/-- What the register at an address of a granted window reads as. -/
def State.regView (s : State) (a : Nat) : Word :=
  let w := a / 0x10000
  if w < 0x08 then s.viewSystem a
  else if w < 0x0C then s.viewPwm (w - 0x08) a
  else if w < 0x10 then s.viewGate (w - 0x0C) a
  else if w = 0x10 then s.viewAdc a
  else if w = 0x12 ∨ w = 0x13 then s.viewTrs (w - 0x12) (sharedAddr a)
  else if 0x14 ≤ w ∧ w < 0x18 then s.viewGfm (w - 0x14) a
  else if w = 0x18 then s.viewRed a
  else if w = 0x19 then s.viewSaf a
  else if w = 0x1A then s.viewMbx a
  else if w = 0x1B ∨ w = 0x1C then s.viewData a
  else if w = 0x1D ∨ w = 0x1E ∨ w = 0x1F then s.viewRecord a
  else s.reg a

end Sys2Proof.Machine
end

