-- ==== Sys2Proof/Machine/WriteControl.lean ====
section
/-! DEFINITION. Writes to the windows of the control plane: PWM, GATE, ADC, SDM, TRS, GFM, RED and SAF. Each field acts
under its own class (R13 to R17); value checks are those of the chapters. -/

namespace Sys2Proof.Machine

/-- A field of a word that is written. -/
def wf (w : Word) (f : Fld) : Nat := bits w f.lo f.w

/-- The word with a field taken back to what the register holds, and a flag where that field would have changed. -/
def State.keepField (s : State) (w : Word) (f : Fld) : Word := putBits w f.lo f.w (s.fld f)

/-! ### PWM (chapter 06) -/

/-- A change of what the mask is made from: the index is what its inputs spell, or SW_IDX, and the gates follow it (R176).
An index that waits for FILT goes on waiting where nothing but SW_IDX changed. -/
def State.refreshMask (s : State) (n : Nat) (anew : Bool) : State :=
  let s1 := if anew && s.flag (PWM_MASK_SRC_SRC_EN n) then
    s.onPwm n (fun p => { p with maskIdx := s.capIndex n, heldIdx := none }) else s
  s1.updGates n

/-- The tick within the carrier goes on where it stands when the number of boundaries changes under a timebase that runs:
the last boundary is the last one of the new division (R167, R168). -/
def State.rebase (s : State) (n k : Nat) : State :=
  if !(s.pwmOf n).run || s.carLen n = 0 then s
  else
    let len := s.carLen n / s.bpc n
    let x := k % s.carLen n
    s.onPwm n (fun p => { p with j := x / len, b0 := s.now - x % len })

/-- PWM_TB_CFG: idle-only fields, the check of BPC with the period in force, and OVR_MODE 0b11 (R169, R175). -/
def State.writeTbCfg (s : State) (n : Nat) (w : Word) : State :=
  let a := PWM_TB_CFG n
  let ovrBad := wf w (PWM_TB_CFG_OVR_MODE n) == 3
  let w1 := if ovrBad then s.keepField w (PWM_TB_CFG_OVR_MODE n) else w
  let bpc := wf w (PWM_TB_CFG_BPC n)
  let bpcBad := s.stnIdle n && bpc != s.fld (PWM_TB_CFG_BPC n) && s.prdAct n != 0 &&
    !prdAllowed (wf w (PWM_TB_CFG_MODE n) == 1) (bpc + 1) (s.prdAct n)
  let w2 := if bpcBad then s.keepField w1 (PWM_TB_CFG_BPC n) else w1
  let s1 := s.writeReg a w2 (s.stnIdle n) false (some (PWM_FLAGS_WRITE_REFUSED n)) none
  let s2 := if s1.reg a = s.reg a then s1 else s1.rebase n (s.carTick n)
  ((s2.setFlagIf ovrBad (PWM_FLAGS_WRITE_REFUSED n)).setFlagIf bpcBad (PWM_FLAGS_VALUE_REFUSED n)).refreshMask n
    (s2.fld (PWM_TB_CFG_OVR_MODE n) != s.fld (PWM_TB_CFG_OVR_MODE n))

/-- The PWM window of station `n`. -/
def State.writePwm (s : State) (n a : Nat) (w : Word) (late : Bool) : State :=
  if a = PWM_TB_CFG n then s.writeTbCfg n w
  else if a = PWM_TB_CTRL n then
    let s1 := s.writeHold n (wf w (PWM_TB_CTRL_TB_HOLD n) == 1)
    if wf w (PWM_TB_CTRL_UPDATE_ARM n) = 1 then s1.writeArm n late else s1
  else if (pwmSlow n ++ pwmFast n).contains a then s.writeShadow n a w late
  else if a = PWM_HB_EN n then s.writeHbEn n w
  else
    let s1 := s.writeReg a w (s.stnIdle n) late (some (PWM_FLAGS_WRITE_REFUSED n)) none
    let f := PWM_MASK_SRC_SW_IDX n
    if a = PWM_MASK_SRC n then s1.refreshMask n (putBits (s1.reg a) f.lo f.w 0 != putBits (s.reg a) f.lo f.w 0) else s1

/-- The GATE window of station `n`. -/
def State.writeGate (s : State) (n a : Nat) (w : Word) : State :=
  if a = GATE_TEST n then s.writeTest n w
  else s.writeReg a w (s.stnIdle n) false (some (GATE_FLAGS_WRITE_REFUSED n)) none

/-! ### ADC and SDM (chapter 07) -/

/-- ADC_CFG: LEN under R199. -/
def State.writeAdcCfg (s : State) (k : Nat) (w : Word) (late : Bool) : State :=
  let len := wf w (ADC_CFG_LEN k)
  if len = 0 ∨ 16 < len ∨ (len = 16 ∧ s.flag (ADC_PLS_CFG_EN (k / 2))) then s.setFlag ADC_FLAGS_VALUE_REFUSED
  else s.writeReg (ADC_CFG k) w (s.convIdle k) late (some ADC_FLAGS_WRITE_REFUSED) (some ADC_FLAGS_LATE_WRITE)

/-- ADC_CAL_CTRL: TARGET, then START and END_COVER (R212, R215). -/
def State.writeCal (s : State) (w : Word) : State :=
  let k := wf w ADC_CAL_CTRL_TARGET
  let s1 := s.setFld ADC_CAL_CTRL_TARGET k
  let s2 := if wf w ADC_CAL_CTRL_START = 1 then s1.calRequest k else s1
  if wf w ADC_CAL_CTRL_END_COVER = 1 then s2.writeEndCover else s2

/-- The ADC window. -/
def State.writeAdc (s : State) (a : Nat) (w : Word) (late : Bool) : State :=
  if a < ADC_CFG 0 then
    if entryOk w then s.writeReg a w true late none (some ADC_FLAGS_LATE_WRITE) else s.setFlag ADC_FLAGS_VALUE_REFUSED
  else if a < ADC_CFG 16 then s.writeAdcCfg ((a - ADC_CFG 0) / 4) w late
  else if a = ADC_GO then s.writeGo w
  else if ADC_URG 0 ≤ a ∧ a < ADC_URG 16 then
    s.writeUrg ((a - ADC_URG 0) / 4) w (wf w (ADC_URG_URG_GO 0) == 1)
  else if ADC_PLS_CFG 0 ≤ a ∧ a < ADC_PLS_CFG 8 then
    let p := (a - ADC_PLS_CFG 0) / 4
    if wf w (ADC_PLS_CFG_SAMP p) < 2 then s.setFlag ADC_FLAGS_VALUE_REFUSED
    else s.writeReg a w (s.pairIdle p) late (some ADC_FLAGS_WRITE_REFUSED) (some ADC_FLAGS_LATE_WRITE)
  else if a = ADC_CAL_CTRL then s.writeCal w
  else s.writeReg a w true late none none

/-- SDM_CLK: DIV under R217. -/
def State.writeSdmClk (s : State) (m : Nat) (w : Word) : State :=
  let d := wf w (SDM_CLK_DIV m)
  let bad := d % 2 != 0 || decide (d < 8) || decide (160 < d)
  let w1 := if bad then s.keepField w (SDM_CLK_DIV m) else w
  (s.writeReg (SDM_CLK m) w1 (s.sdmClkIdle m) false (some SDM_FLAGS_WRITE_REFUSED) none).setFlagIf bad SDM_FLAGS_VALUE_REFUSED

/-- SDM_CFG: ORDER and DEC in their ranges, and an aligned start only on a granted station (R219, R220). -/
def State.writeSdmCfg (s : State) (c : Nat) (w : Word) : State :=
  let was := s.flag (SDM_CFG_EN c)
  if wf w (SDM_CFG_EN c) = 1 ∧ wf w (SDM_CFG_ALIGN_EN c) = 1 ∧ !s.grantS (wf w (SDM_CFG_ALIGN_STN c)) then
    s.setFlag SDM_FLAGS_VALUE_REFUSED
  else
    let oBad := wf w (SDM_CFG_ORDER c) == 0 || decide (5 < wf w (SDM_CFG_ORDER c))
    let dBad := decide (wf w (SDM_CFG_DEC c) < 4) || decide (1024 < wf w (SDM_CFG_DEC c))
    let w1 := if oBad then s.keepField w (SDM_CFG_ORDER c) else w
    let w2 := if dBad then s.keepField w1 (SDM_CFG_DEC c) else w1
    let s1 := s.writeReg (SDM_CFG c) w2 (s.sdmIdle c) false (some SDM_FLAGS_WRITE_REFUSED) none
    (s1.setFlagIf (oBad || dBad) SDM_FLAGS_VALUE_REFUSED).sdmEnable c was

/-- SDM_SF_CFG: SR from 4 to 32 (R222). -/
def State.writeSfCfg (s : State) (c : Nat) (w : Word) : State :=
  let sr := wf w (SDM_SF_CFG_SR c)
  let bad := decide (sr < 4) || decide (32 < sr)
  let w1 := if bad then s.keepField w (SDM_SF_CFG_SR c) else w
  (s.writeReg (SDM_SF_CFG c) w1 (s.sdmIdle c) false (some SDM_FLAGS_WRITE_REFUSED) none).setFlagIf bad SDM_FLAGS_VALUE_REFUSED

/-- The SDM window. -/
def State.writeSdm (s : State) (a : Nat) (w : Word) : State :=
  if a < SDM_CLK 8 then s.writeSdmClk ((a - SDM_CLK 0) / 4) w
  else if SDM_CFG 0 ≤ a ∧ a < SDM_CFG 48 then s.writeSdmCfg ((a - SDM_CFG 0) / 4) w
  else if SDM_SF_CFG 0 ≤ a ∧ a < SDM_SF_CFG 48 then s.writeSfCfg ((a - SDM_SF_CFG 0) / 4) w
  else if SDM_SF_LIM 0 ≤ a ∧ a < SDM_SF_LIM 48 then
    s.writeReg a w (s.sdmIdle ((a - SDM_SF_LIM 0) / 4)) false (some SDM_FLAGS_WRITE_REFUSED) none
  else s.writeReg a w true false none none

/-! ### TRS (chapter 05) -/

/-- A flag of every engine present. -/
def State.trsFlag (s : State) (f : Nat → Fld) : State := s.engines.foldl (fun t e => t.setFlag (f e)) s

/-- The loop holds a PI block with a dq pair. -/
def State.loopDq (s : State) (k : Nat) : Bool :=
  (List.range 4).any (fun n => match s.stnLoop n k with
    | some d => d.blocks.any (fun b => match b with | .voltageLoop .. | .currentLoop .. | .piDq .. => true | _ => false)
    | none => false)

/-- Whether a loop value is accepted: finite, at most 1.0 × 10^6, EMIN below EMAX, EMIN at least 0.0 in a dq loop. -/
def State.loopValueOk (s : State) (k a : Nat) (w : Word) : Bool :=
  let x := f32ToRat w
  f32Finite w && decide (ratAbs x ≤ 1000000) &&
    (if a = TRS_LOOP_EMIN k then decide (x < f32ToRat (s.reg (TRS_LOOP_EMAX k))) && (!s.loopDq k || decide (0 ≤ x))
     else if a = TRS_LOOP_EMAX k then decide (f32ToRat (s.reg (TRS_LOOP_EMIN k)) < x)
     else true)

/-- A loop register (R140, R145, R166). -/
def State.writeLoop (s : State) (a : Nat) (w : Word) (late : Bool) : State :=
  let k := (a - TRS_LOOP_CFG 0) % 0x100 / 4
  let ok := s.flag (TRS_LOOP_CFG_VALID k) && (a < TRS_LOOP_KP 0 || s.loopValueOk k a w)
  if ok then
    let s1 := s.writeReg a w true late none none
    if late then s1.trsFlag TRS_FLAGS_LATE_WRITE else s1
  else s.trsFlag TRS_FLAGS_GAIN_REJECTED

/-- The TRS window of engine `e`; `a` is the address with the shared registers taken to Engine A (R165). -/
def State.writeTrs (s : State) (e a : Nat) (w : Word) (late : Bool) : State :=
  if a = TRS_BANK then if wf w TRS_BANK_SWAP_REQ = 1 then s.requestSwap e else s
  else if TRS_LOOP_CFG 0 ≤ a ∧ a < TRS_LOOP_CFG 320 then s.writeLoop a w late
  else if TRS_IN_CFG 0 ≤ a ∧ a < TRS_IN_CFG 256 then s.writeInCfg ((a - TRS_IN_CFG 0) / 4) w
  else s.writeReg a w true late none none

/-! ### GFM (chapters 01 to 04) -/

/-- GFM_HCH_CFG of a channel (R8, R82, R86). -/
def State.writeHch (s : State) (n c : Nat) (w : Word) (late : Bool) : State :=
  let refused := GFM_CORE_FLAGS_WRITE_REFUSED n
  if wf w (GFM_HCH_CFG_EN n c) = 1 ∧ (!s.grantHarm ∨ s.stnType n ≠ 0) then s.setFlag refused
  else
    let o := wf w (GFM_HCH_CFG_ORDER n c)
    let bad := o == 0 || decide (49 < o)
    let w1 := if bad then s.keepField w (GFM_HCH_CFG_ORDER n c) else w
    let idle := s.stnIdle n || s.actFld (GFM_HCH_CFG_EN n c) == 0
    (s.writeReg (GFM_HCH_CFG n c) w1 idle late (some refused) (some (GFM_CORE_FLAGS_LATE_WRITE n))).setFlagIf bad refused

/-- The GFM window of station `n`. -/
def State.writeGfm (s : State) (n a : Nat) (w : Word) (late : Bool) : State :=
  if a = GFM_CTRL n then s.writeCtrl n w
  else if a = GFM_ENV_SEQ n then s.commitEnvelope n w late
  else if GFM_HCH_CFG n 0 ≤ a ∧ a ≤ GFM_HCH_CFG n 11 then s.writeHch n ((a - GFM_HCH_CFG n 0) / 4) w late
  else
    match parAt a with
    | some (m, i) => s.writePar m i w late
    | none => s.writeReg a w (s.stnIdle n) late (some (GFM_CORE_FLAGS_WRITE_REFUSED n)) (some (GFM_CORE_FLAGS_LATE_WRITE n))

/-! ### RED and SAF (chapters 12 and 13) -/

/-- RED_CTRL: RELOAD and EXCHANGE, each within its conditions (R332, R334). -/
def State.writeRedCtrl (s : State) (w : Word) : State :=
  let s1 := if wf w RED_CTRL_RELOAD = 1 then
      (if s.canReload then s.startReload else s.setFlag RED_FLAGS_WRITE_REFUSED) else s
  if wf w RED_CTRL_EXCHANGE = 1 then (if s1.canExchange then s1.exchange else s1.setFlag RED_FLAGS_WRITE_REFUSED) else s1

/-- The RED window. -/
def State.writeRed (s : State) (a : Nat) (w : Word) : State :=
  if a = RED_CTRL then s.writeRedCtrl w else s.writeReg a w true false none none

/-- SAF_REQ: releases first, so that a removal asked for in the same write stands (R350, R358). Lowboy's path test passes
while its oscillator runs; a failing test is the command SAF_RELEASE. -/
def State.writeSafReq (s : State) (w : Word) : State :=
  let s1 := if wf w SAF_REQ_RELEASE = 0 then s else s.requestRelease (wf w SAF_REQ_RELEASE) (!s.safe.lowboyStopped)
  let s2 := if wf w SAF_REQ_SS1_REQ = 0 then s1 else s1.requestSs1 (wf w SAF_REQ_SS1_REQ)
  if wf w SAF_REQ_STO_REQ = 0 then s2 else s2.requestSto (wf w SAF_REQ_STO_REQ)

/-- The SAF window. -/
def State.writeSaf (s : State) (a : Nat) (w : Word) : State :=
  if a = SAF_REQ then s.writeSafReq w else s.writeReg a w true false none none

end Sys2Proof.Machine
end

