-- ==== Sys2Proof/Machine/WriteData.lean ====
section
/-! DEFINITION. Writes to the windows of the data and management planes: SYS to TIM, MBX, DMA, CVU, CHS, SLK, SHF and AQR. -/

namespace Sys2Proof.Machine

/-! ### System windows (chapters 01, 11, 15, 16) -/

/-- TIM_CAP_CFG: idle while the input's FIFO is empty (11_time.md, capture registers). -/
def State.writeCapCfg (s : State) (c : Nat) (w : Word) : State :=
  s.writeReg (TIM_CAP_CFG c) w (s.capOf c).fifo.isEmpty false (some TIM_FLAGS_WRITE_REFUSED) none

/-- Windows 0x00 to 0x07. -/
def State.writeSystem (s : State) (a : Nat) (w : Word) : State :=
  if a = CLK_PHASE_STEP 0 then s.writePhaseStep 0 (wf w (CLK_PHASE_STEP_STEPS 0))
  else if a = CLK_PHASE_STEP 1 then s.writePhaseStep 1 (wf w (CLK_PHASE_STEP_STEPS 1))
  else if a = SEC_DBG then
    let s1 := if wf w SEC_DBG_CLOSE = 1 then s.debugClose else s
    if wf w SEC_DBG_REQ = 1 then s1.debugRequest else s1
  else if a = SEC_DBG_DATA then s.debugWrite w
  else if a = TIM_INCR then s.writeIncr w
  else if a = TIM_STEP_LO then { s with clock := { s.clock with stepLo := w } }
  else if a = TIM_STEP_HI then s.writeStepHi w
  else if a = TIM_CTRL then if wf w TIM_CTRL_CLR_EST = 1 then s.clearEst else s
  else if TIM_CAP_CFG 0 ≤ a ∧ a < TIM_CAP_CFG 16 then s.writeCapCfg ((a - TIM_CAP_CFG 0) / 4) w
  else s.writeReg a w true false none none

/-! ### MBX (chapter 14) -/

/-- The pigeonhole whose bytes an address holds. -/
def holeAt (a : Nat) : Option Nat := if 0x1A0000 ≤ a ∧ a < MBX_CLAIM then some ((a - 0x1A0000) / 1024) else none

/-- The MBX window (R366, R367). -/
def State.writeMbx (s : State) (a : Nat) (w : Word) : State :=
  if a < MBX_CLAIM then s.setHoles (a - 0x1A0000) (leBytes w)
  else if a = MBX_DOORBELL then s.doorbell (wf w MBX_DOORBELL_SLOT)
  else if a = MBX_FREE then s.freeHoles w
  else s.writeReg a w true false none none

/-! ### DMA and CVU (chapter 10) -/

/-- The DMA window (R285, R286, R290). -/
def State.writeDma (s : State) (a : Nat) (w : Word) : State :=
  if a = DMA_CTRL then if wf w DMA_CTRL_CLEAR_HALT = 1 then s.clearHalt else s
  else if CH_DESC 0 ≤ a ∧ a < CH_DESC 16 then
    let n := (a - CH_DESC 0) / 0x10
    if a = CH_CTRL n then
      let s1 := if wf w (CH_CTRL_START n) = 1 then s.dmaStart n else s
      if wf w (CH_CTRL_STOP_REQ n) = 1 then s1.dmaStop n else s1
    else s.writeReg a w (s.chState n != 1 && s.chState n != 2) false (some DMA_FLAGS_WRITE_REFUSED) none
  else s.writeReg a w true false none none

/-- CVU_CFG: discarded while bound, refused while a feed is pending (R294, R295). -/
def State.writeCvuCfg (s : State) (u : Nat) (w : Word) : State :=
  s.cvuWrite u (fun s =>
    match regAt (CVU_CFG u) with
    | some r =>
      if !s.cvuIdle u && changesIdle r w (s.reg (CVU_CFG u)) then s.cvuRefuse u
      else (s.writeReg (CVU_CFG u) w true false none none).onCvu u (fun c =>
        { c with v := c.v % 2 ^ (wf w (CVU_CFG_WIDTH u) + 1) })
    | none => s)

/-- The CVU window. -/
def State.writeCvu (s : State) (a : Nat) (w : Word) : State :=
  if a = CVU_FLAGS then
    let s1 := s.writeReg a w true false none none
    if bit w 0 then s1.setFld CVU_FLAGS_REFUSED_UNIT 0 else s1
  else if a < CVU_CFG 8 then
    let u := (a - CVU_CFG 0) / 0x40
    match (a - CVU_CFG 0) % 0x40 with
    | 0x00 => s.writeCvuCfg u w
    | 0x04 => if wf w (CVU_CTRL_LOAD_INIT u) = 1 then s.cvuLoadInit u else s.cvuWrite u id
    | 0x08 => s.cvuWriteLo u 0 w
    | 0x0C => s.cvuWriteHi u 0 w
    | 0x10 => s.cvuWriteLo u 1 w
    | 0x14 => s.cvuWriteHi u 1 w
    | 0x18 => s.cvuWriteLo u 2 w
    | 0x1C => s.cvuWriteHi u 2 w
    | 0x28 => s.cvuFeed u 1 w
    | 0x2C => s.cvuFeed u 2 w
    | 0x30 => s.cvuFeed u 4 w
    | _ => s
  else s

/-! ### CHS, SLK, SHF and AQR (chapters 08, 09, 17) -/

/-- The CHS window: idle in IDLE and DONE (R266, R277). -/
def State.writeChs (s : State) (a : Nat) (w : Word) (late : Bool) : State :=
  if a = CHS_CTRL then
    let s1 := if wf w CHS_CTRL_ARM = 1 then s.chestArm else s
    let s2 := if wf w CHS_CTRL_STOP = 1 then s1.chestStop else s1
    if wf w CHS_CTRL_FORCE = 1 then s2.chestForce else s2
  else
    s.writeReg a w (s.chestState == 0 || s.chestState == 4) late (some CHS_FLAGS_WRITE_REFUSED) (some CHS_FLAGS_LATE_WRITE)

/-- SLK_ALIGN: SYNC_DLY belongs to the management processor; idle while no alignment runs (R457 to R459). -/
def State.writeAlign (s : State) (mgmt : Bool) (w : Word) : State :=
  let w1 := if mgmt then w else s.keepField w SLK_ALIGN_SYNC_DLY
  let s1 := s.writeReg SLK_ALIGN w1 (!s.slk.busy) false (some SLK_FLAGS_WRITE_REFUSED) none
  if wf w SLK_ALIGN_GO = 1 then s1.alignGo else s1

/-- The SLK window. -/
def State.writeSlk (s : State) (mgmt : Bool) (a : Nat) (w : Word) : State :=
  if a = SLK_ALIGN then s.writeAlign mgmt w
  else s.writeReg a w (!s.slk.busy) false (some SLK_FLAGS_WRITE_REFUSED) none

/-- The SHF window. -/
def State.writeShf (s : State) (a : Nat) (w : Word) (late : Bool) : State :=
  if a = SHF_CTRL then
    let s1 := s.setFld SHF_CTRL_RING (wf w SHF_CTRL_RING)
    let s2 := if wf w SHF_CTRL_CLR_ALL = 1 then s1.clearShelf else s1
    if wf w SHF_CTRL_CLR_RING = 1 then s2.clearRing (wf w SHF_CTRL_RING) else s2
  else s.writeReg a w true late none (some SHF_FLAGS_LATE_WRITE)

/-- AQR_CFG of a port: EN at once, NODES up to 512 while EN in force is 0. -/
def State.writeAqrCfg (s : State) (q : Nat) (w : Word) (late : Bool) : State :=
  let nodes := pq AQR_CFG_NODES q
  let was := s.flag (pq AQR_CFG_EN q)
  let bad := decide (512 < wf w nodes)
  let w1 := if bad then s.keepField w nodes else w
  let s1 := s.writeReg (pq AQR_CFG q) w1 (!was) late (some (pq AQR_FLAGS_WRITE_REFUSED q)) (some (pq AQR_FLAGS_LATE_WRITE q))
  (s1.setFlagIf bad (pq AQR_FLAGS_VALUE_REFUSED q)).portEnable q was

/-- AQR_SWEEP of a port: SWEEP_T from 1 to 1,000 ms and at most half of STALE_T, NPF from 1 to 64, SNAP_LEAD up to 100. -/
def State.writeAqrSweep (s : State) (q : Nat) (w : Word) (late : Bool) : State :=
  let t := wf w (pq AQR_SWEEP_SWEEP_T q)
  let npf := wf w (pq AQR_SWEEP_NPF q)
  let tBad := t == 0 || decide (1000 < t) || decide (s.fld (pq AQR_STALE_T_STALE_T q) < 2 * t)
  let nBad := npf == 0 || decide (64 < npf)
  let lBad := decide (100 < wf w (pq AQR_SWEEP_SNAP_LEAD q))
  let w1 := if tBad then s.keepField w (pq AQR_SWEEP_SWEEP_T q) else w
  let w2 := if nBad then s.keepField w1 (pq AQR_SWEEP_NPF q) else w1
  let w3 := if lBad then s.keepField w2 (pq AQR_SWEEP_SNAP_LEAD q) else w2
  (s.writeReg (pq AQR_SWEEP q) w3 true late none (some (pq AQR_FLAGS_LATE_WRITE q))).setFlagIf (tBad || nBad || lBad)
    (pq AQR_FLAGS_VALUE_REFUSED q)

/-- AQR_STALE_T of a port: 5 to 5,000 ms and at least twice SWEEP_T. -/
def State.writeAqrStale (s : State) (q : Nat) (w : Word) (late : Bool) : State :=
  let t := wf w (pq AQR_STALE_T_STALE_T q)
  if t < 5 ∨ 5000 < t ∨ t < 2 * s.fld (pq AQR_SWEEP_SWEEP_T q) then s.setFlag (pq AQR_FLAGS_VALUE_REFUSED q)
  else s.writeReg (pq AQR_STALE_T q) w true late none (some (pq AQR_FLAGS_LATE_WRITE q))

/-- The block of a port in an AQR window. -/
def State.writeAqr (s : State) (a : Nat) (w : Word) (late : Bool) : State :=
  let q := (a - 0x200000) / 0x1000
  if a = pq AQR_CFG q then s.writeAqrCfg q w late
  else if a = pq AQR_CTRL q then
    let s1 := if wf w (pq AQR_CTRL_REDISCOVER q) = 1 then s.rediscover q else s
    if wf w (pq AQR_CTRL_SWEEP_NOW q) = 1 then s1.sweepNow q else s1
  else if a = pq AQR_SWEEP q then s.writeAqrSweep q w late
  else if a = pq AQR_STALE_T q then s.writeAqrStale q w late
  else
    let s1 := s.writeReg a w (!s.flag (pq AQR_CFG_EN q)) late (some (pq AQR_FLAGS_WRITE_REFUSED q)) none
    if a = pq AQR_CMD_CTRL q ∧ wf w (pq AQR_CMD_CTRL_GO q) = 1 then s1.commandGo q else s1

/-- A write to a register of a window that is present and clocked. -/
def State.regWrite (s : State) (m : Master) (a : Nat) (w : Word) (late : Bool) : State :=
  let x := a / 0x10000
  if x < 0x08 then s.writeSystem a w
  else if x < 0x0C then s.writePwm (x - 0x08) a w late
  else if x < 0x10 then s.writeGate (x - 0x0C) a w
  else if x = 0x10 then s.writeAdc a w late
  else if x = 0x11 then s.writeSdm a w
  else if x < 0x14 then s.writeTrs (x - 0x12) (sharedAddr a) w late
  else if x < 0x18 then s.writeGfm (x - 0x14) a w late
  else if x = 0x18 then s.writeRed a w
  else if x = 0x19 then s.writeSaf a w
  else if x = 0x1A then s.writeMbx a w
  else if x = 0x1B then s.writeDma a w
  else if x = 0x1C then s.writeCvu a w
  else if x = 0x1D then s.writeChs a w late
  else if x = 0x1E then s.writeSlk (m == .mgmt) a w
  else if x = 0x1F then s.writeShf a w late
  else if x < 0x24 then s.writeAqr a w late
  else s

end Sys2Proof.Machine
end

