-- ==== Sys2Proof/Machine/Bus.lean ====
section
/-! DEFINITION. The 24-bit space as its masters see it: windows and grants, gated islands, closed regions, the memory
aperture, reads with an effect, and the SPI frame (R7, R10 to R17, R26, R31, R35, R39 to R45). -/

namespace Sys2Proof.Machine

/-! ### Windows and regions (R39 to R41) -/

/-- The internal address that an aperture address shows (R40). -/
def State.apertureAt (s : State) (a : Nat) : Nat := s.fld SYS_APERTURE_BASE * 2 ^ 23 + (a - 0x800000)

/-- Memory closed to writes from outside: the Shelf, the snapshot rings, the firmware region (R41). -/
def memClosed (a : Nat) : Bool :=
  decide (0x80000000 ≤ a ∧ a < 0x82800000) || decide (0x107FE000 ≤ a ∧ a < 0x10800000) ||
    decide (0x8A800000 ≤ a ∧ a < 0x8B800000)

/-- Registers that only the management processor writes, by their window and offset (R31, R192, R222, R250, R280, R300, R421,
12_redundancy.md, 16_clocks_power.md). -/
def regClosed (a : Nat) : Bool :=
  let x := a / 0x10000
  let o := a % 0x10000
  if x = 0x01 then decide (0x10 ≤ o ∧ o < 0x18)
  else if x = 0x02 then o == 0x08 || o == 0x10 || o == 0x14
  else if x = 0x07 then o == 0x10 || o == 0x14 || o == 0x18 || o == 0x20
  else if 0x0C ≤ x ∧ x < 0x10 then decide (0xA0 ≤ o ∧ o < 0xB8)
  else if x = 0x11 then decide (0x300 ≤ o ∧ o < 0x3C0)
  else if 0x14 ≤ x ∧ x < 0x18 then decide (o < 0x14)
  else if x = 0x18 then o == 4
  else if x = 0x1B then decide (0x1C0 ≤ o ∧ o < 0x200)
  else if 0x20 ≤ x ∧ x < 0x24 then
    let r := o % 0x1000
    r == 0x30 || r == 0x34 || decide (0x40 ≤ r ∧ r < 0x4C) || decide (0x80 ≤ r ∧ r < 0xC0)
  else false

/-- Whether a master may write a register. A pigeonhole takes bytes from outside only while it is CLAIMED for SPI (R367). -/
def State.mayWrite (s : State) (m : Master) (a : Nat) : Bool :=
  m == .mgmt || (!regClosed a && match holeAt a with | some i => s.claimed i | none => true)

/-! ### Reads -/

/-- A read of a register of a present, clocked window, with what the read does. -/
def State.regRead (s : State) (a : Nat) : Word × State :=
  let by' (t : State) : Word × State := (t.readData, t)
  let x := a / 0x10000
  if a = TIM_NS then by' s.readNs
  else if a = TIM_AON_LO then by' s.readAon
  else if TIM_CAP_LO 0 ≤ a ∧ a < TIM_CAP_LO 16 ∧ a % 0x10 = 0 then by' (s.readCap ((a - TIM_CAP_LO 0) / 0x10))
  else if a = OTP_READ_DATA then s.readOtp
  else if a = SEC_DBG_DATA then s.debugRead
  else if a = TRS_DMEM_DATA 0 ∨ a = TRS_DMEM_DATA 1 then by' (s.readDmem (x - 0x12))
  else if (x = 0x12 ∨ x = 0x13) ∧ TRS_EXEC_MAX (x - 0x12) 0 ≤ a ∧ a ≤ TRS_EXEC_MAX (x - 0x12) 3 then
    by' (s.readExecMax (x - 0x12) ((a - TRS_EXEC_MAX (x - 0x12) 0) / 4))
  else if 0x14 ≤ x ∧ x < 0x18 ∧ a = GFM_SNAP (x - 0x14) 0 then (s.reg a, s.latchSnap (x - 0x14))
  else if a = MBX_CLAIM then by' s.claim
  else if CVU_CFG 0 ≤ a ∧ a < CVU_CFG 8 ∧ 8 ≤ a % 0x40 ∧ a % 0x40 ≤ 0x20 ∧ a % 8 = 0 then
    by' (s.cvuReadLo ((a - CVU_CFG 0) / 0x40) (a % 0x40 / 8 - 1))
  else if CVU_CFG 0 ≤ a ∧ a < CVU_CFG 8 ∧ 8 ≤ a % 0x40 ∧ a % 0x40 ≤ 0x24 ∧ a % 8 = 4 then
    s.cvuReadHi ((a - CVU_CFG 0) / 0x40) (a % 0x40 / 8 - 1)
  else if SHF_AGG0 0 ≤ a ∧ a < SHF_AGG0 64 ∧ a % 0x40 = 0 then by' (s.latchAgg ((a - SHF_AGG0 0) / 0x40))
  else (s.regView a, s)

/-- One read of a word by its 24-bit address (R7, R26, R39, R40). -/
def State.busRead (s : State) (a : Nat) : BusOut :=
  if 0x800000 ≤ a then
    let p := s.apertureAt a
    if inMemory p then ⟨s, s.word p, .reached⟩ else ⟨s.setFlag SYS_STATUS_APERTURE_ERR, 0, .aperture⟩
  else
    match s.window (a / 0x10000) with
    | none => ⟨s.setFlag SYS_STATUS_ADDR_ERR, 0, .unlisted⟩
    | some false => ⟨s.setFlag SYS_STATUS_GRANT_MISS, 0, .ungranted⟩
    | some true =>
      if s.gatedWindow (a / 0x10000) then ⟨s, 0, .gated⟩
      else
        let r := s.regRead a
        ⟨r.2, r.1, .reached⟩

/-- One write of a word by its 24-bit address (R7, R26, R31, R39 to R41). -/
def State.busWrite (s : State) (m : Master) (a : Nat) (w : Word) (late : Bool) : BusOut :=
  if 0x800000 ≤ a then
    let p := s.apertureAt a
    if !inMemory p then ⟨s.setFlag SYS_STATUS_APERTURE_ERR, 0, .aperture⟩
    else if m != .mgmt && memClosed p then ⟨s, 0, .denied⟩
    else ⟨s.setWord p w, 0, .reached⟩
  else
    match s.window (a / 0x10000) with
    | none => ⟨s.setFlag SYS_STATUS_ADDR_ERR, 0, .unlisted⟩
    | some false => ⟨s.setFlag SYS_STATUS_GRANT_MISS, 0, .ungranted⟩
    | some true =>
      if s.gatedWindow (a / 0x10000) then ⟨s, 0, .gated⟩
      else if s.mayWrite m a then ⟨s.regWrite m a w late, 0, .reached⟩
      else ⟨s, 0, .denied⟩

/-- REGISTER_WRITE: one write by one master (R8, R13 to R17). A misaligned address hits nothing (01_architecture.md,
SYS_STATUS.ADDR_ERR). `late` says that the write falls in the cycle of the transfer at its block's boundary (R15). -/
def execRegisterWrite (m : Master) (addr : BitVec 24) (w : Word) (late : Bool) (s : State) : Answer :=
  whenDev s (if addr.toNat % 4 ≠ 0 then s.setFlag SYS_STATUS_ADDR_ERR else (s.busWrite m addr.toNat w late).st)

/-! ### SPI frames (R42 to R45) -/

/-- What a frame reports in the next status word: GATED, DENIED, DATA_LATE, ADDR_ERR, LEN_ERR, CRC_ERR from bit 0 up. -/
def prevOf (gated denied late addr len crc : Bool) : BitVec 6 :=
  BitVec.ofNat 6 (gated.toNat + 2 * denied.toNat + 4 * late.toNat + 8 * addr.toNat + 16 * len.toNat + 32 * crc.toNat)

/-- The report of one access. -/
def accessPrev : Access → BitVec 6
  | .gated => prevOf true false false false false false
  | .denied => prevOf false true false false false false
  | .unlisted | .ungranted => prevOf false false false true false false
  | _ => 0

/-- The status word of a frame; `hdrErr` says that its header failed the CRC-8. -/
def State.spiStatus (s : State) (hdrErr : Bool) : Word :=
  BitVec.ofNat 32 (0xA5 * 2 ^ 24 + hdrErr.toNat * 2 ^ 23 + s.spi.prev.toNat * 2 ^ 17 + s.irqLine.toNat * 2 ^ 16 +
    s.spi.count.toNat * 2 ^ 8)

/-- The command byte and the three address bytes. -/
def spiHeader (op : Nat) (count : Nat) (addr : BitVec 24) : List Byte :=
  [BitVec.ofNat 8 (op * 64 + count), BitVec.ofNat 8 (addr.toNat / 2 ^ 16), BitVec.ofNat 8 (addr.toNat / 2 ^ 8),
    BitVec.ofNat 8 addr.toNat]

/-- The address cannot be used: misaligned, or an incrementing burst would cross a window (R43, R44). -/
def spiBadAddr (incr : Bool) (count : Nat) (addr : BitVec 24) : Bool :=
  addr.toNat % 4 != 0 || (incr && decide (0x10000 < addr.toNat % 0x10000 + 4 * (count + 1)))

/-- Words of a read frame in order: the state, the words sent and the reports. -/
def State.spiReadWords (s : State) (incr : Bool) (addr : Nat) (notReady : BitVec 64) : Nat → State × List Word × BitVec 6
  | 0 => (s, [], 0)
  | k + 1 =>
    let r := s.spiReadWords incr addr notReady k
    let a := if incr then addr + 4 * k else addr
    let o := r.1.busRead a
    let late := decide (0x800000 ≤ a) && notReady.getLsbD k
    (o.st, r.2.1 ++ [if late then 0 else o.word],
      r.2.2 ||| accessPrev o.access ||| prevOf false false late false false false)

/-- The end of a frame: its reports replace the last ones, and an accepted frame is counted. -/
def State.spiEnd (s : State) (prev : BitVec 6) (accepted : Bool) (miso : List Byte) : State :=
  { s with spi := { prev := prev, count := if accepted then s.spi.count + 1 else s.spi.count, miso := miso } }

/-- A read frame of `count + 1` words, of which the controller clocks `clocked` (R42, R44, R45): status word, data words
and CRC-8. A frame of another length still performs the reads of the words clocked, and is counted (log row 58). -/
def State.spiRead (s : State) (incr : Bool) (count : Nat) (addr : BitVec 24) (crc : Byte) (notReady : BitVec 64)
    (clocked : Nat) : State :=
  let hdrErr := crc8 (spiHeader (if incr then 0 else 2) count addr) != crc
  let status := s.spiStatus hdrErr
  let out (ws : List Word) : List Byte :=
    let body := beBytes status ++ ws.flatMap beBytes
    if clocked = count + 1 then body ++ [crc8 body] else body
  let n := min clocked (count + 1)
  let len := prevOf false false false false (clocked != count + 1) false
  let zeros := List.replicate n (0 : Word)
  if hdrErr then (s.setFlag SYS_STATUS_SPI_CRC).spiEnd len false (out zeros)
  else if spiBadAddr incr count addr then
    (s.setFlag SYS_STATUS_ADDR_ERR).spiEnd (len ||| prevOf false false false true false false) false (out zeros)
  else
    let r := s.spiReadWords incr addr.toNat notReady n
    r.1.spiEnd (len ||| r.2.2) true (out r.2.1)

/-- The words of a list of bytes, most significant byte first. -/
def beWords : List Byte → List Word
  | a :: b :: c :: d :: t =>
    BitVec.ofNat 32 (a.toNat * 2 ^ 24 + b.toNat * 2 ^ 16 + c.toNat * 2 ^ 8 + d.toNat) :: beWords t
  | _ => []

/-- Words of a write frame in address order: the state and the reports. -/
def State.spiWriteWords (s : State) (step addr : Nat) (late : Nat → Bool) : Nat → List Word → State × BitVec 6
  | _, [] => (s, 0)
  | k, w :: t =>
    let o := s.busWrite .spi (addr + step * k) w (late k)
    let r := o.st.spiWriteWords step addr late (k + 1) t
    (r.1, accessPrev o.access ||| r.2)

/-- A write frame, checked at CS rising and discarded whole on any failure (R42, R43). Bit i of `late` says that word i falls
in the transfer cycle of its block (R15). A burst that would cross a window sets ADDR_ERR too (log row 58). -/
def State.spiWrite (s : State) (incr : Bool) (count : Nat) (addr : BitVec 24) (data : List Byte) (crc : Byte)
    (late : BitVec 64) : State :=
  let miso := (beBytes (s.spiStatus false) ++ List.replicate data.length 0).take (data.length + 1)
  if data.length ≠ 4 * (count + 1) then s.spiEnd (prevOf false false false false true false) false miso
  else if crc8 (spiHeader (if incr then 1 else 3) count addr ++ data) ≠ crc then
    (s.setFlag SYS_STATUS_SPI_CRC).spiEnd (prevOf false false false false false true) false miso
  else if spiBadAddr incr count addr then
    (s.setFlag SYS_STATUS_ADDR_ERR).spiEnd (prevOf false false false true false false) false miso
  else
    let r := s.spiWriteWords (if incr then 4 else 0) addr.toNat (fun k => late.getLsbD k) 0 (beWords data)
    r.1.spiEnd r.2 true miso

/-- SPI_READ_INCREMENTING (R42 to R45). -/
def execSpiReadIncrementing (count : Fin 64) (addr : BitVec 24) (crc : Byte) (notReady : BitVec 64) (clocked : Nat)
    (s : State) : Answer :=
  whenDev s (s.spiRead true count addr crc notReady clocked)

/-- SPI_WRITE_INCREMENTING (R42, R43). -/
def execSpiWriteIncrementing (count : Fin 64) (addr : BitVec 24) (data : List Byte) (crc : Byte) (late : BitVec 64)
    (s : State) : Answer :=
  whenDev s (s.spiWrite true count addr data crc late)

/-- SPI_READ_FIXED (R42 to R45). -/
def execSpiReadFixed (count : Fin 64) (addr : BitVec 24) (crc : Byte) (notReady : BitVec 64) (clocked : Nat)
    (s : State) : Answer :=
  whenDev s (s.spiRead false count addr crc notReady clocked)

/-- SPI_WRITE_FIXED (R42, R43). -/
def execSpiWriteFixed (count : Fin 64) (addr : BitVec 24) (data : List Byte) (crc : Byte) (late : BitVec 64)
    (s : State) : Answer :=
  whenDev s (s.spiWrite false count addr data crc late)

end Sys2Proof.Machine
end

