-- ==== Sys2Proof/Machine/Engines.lean ====
section
/-! DEFINITION. Meanings of the redundancy events (chapter 12). -/

namespace Sys2Proof.Machine

/-- BEAT_SLOT (R325 to R328). -/
def execBeatSlot (linkA linkB toggleA toggleB : Bool) (s : State) : Answer := whenRun s (s.beats linkA linkB toggleA toggleB)

/-- SWITCHOVER_COMPLETE (R330); `took` is the time of the switch-over in 10 ns. -/
def execSwitchoverComplete (took : Nat) (s : State) : Answer := whenRun s (s.switchover took)

/-- BOTH_ENGINES_SILENT: Lowboy removes every station (R329, R339). -/
def execBothEnginesSilent (s : State) : Answer :=
  whenRun s (if s.grantB then ((s.setFlag RED_FLAGS_BOTH_SILENT).setFlag SAF_LB_BOTH_SILENT).holdAll 9 else s)

/-- ENGINE_INTERNAL_ERROR (R316). -/
def execEngineInternalError (e : Fin 2) (cause : Fin 4) (s : State) : Answer := whenRun s (s.engineStops e cause)

/-- PRIV_RESULT_CLASSIFY (R322). -/
def execPrivResultClassify (n : Fin 4) (standby : Bool) (cycles : Nat) (s : State) : Answer :=
  whenRun s (s.classify n standby cycles)

/-- PRIV_RESULT_COMPARE (R321). -/
def execPrivResultCompare (n : Fin 4) (k : Fin 64) (upset : Word × Word) (s : State) : Answer :=
  whenRun s (s.comparePriv n k upset.1 upset.2)

end Sys2Proof.Machine
end

