-- ==== Sys2Proof/Machine/Eznel.lean ====
section
/-! DEFINITION. Eznel commands that reach registers, memory, parameters, ring ports, engines and the local clock, and the
Modbus view (R376 to R382, R389). Payload layouts that the spec does not give are operands (log row 40). -/

namespace Sys2Proof.Machine

/-! ### Staging (R378) -/

/-- STAGE_WRITE: up to 1,000 bytes at a staging offset. -/
def execStageWrite (i : Fin 32) (ofs : Nat) (data : List Byte) (s : State) : Answer :=
  ezCommand s i 0x0030 (
    if 1000 < data.length ∨ !stageRange ofs data.length then s.refuse i 0x06 0x0006 0
    else (s.setBytes (stageBase + ofs) data).answer i [])

/-- STAGE_READ: as many bytes as a response holds, at most. -/
def execStageRead (i : Fin 32) (ofs len : Nat) (s : State) : Answer :=
  ezCommand s i 0x0031 (
    if 1008 < len ∨ !stageRange ofs len then s.refuse i 0x06 0x0006 0 else s.answer i (s.staged ofs len))

/-! ### Registers and memory (R376) -/

/-- `n` words from an address on can be named: aligned, inside a space of `top` bytes, and in one response. -/
def wordsIn (top addr n : Nat) : Bool := decide (1 ≤ n ∧ n ≤ 252 ∧ addr % 4 = 0 ∧ addr + 4 * n ≤ top)

/-- Words from an address on, each read with the effect of its read. -/
def State.readWords (s : State) (addr : Nat) : Nat → State × List Word
  | 0 => (s, [])
  | n + 1 =>
    let r := s.readWords addr n
    let o := r.1.busRead (addr + 4 * n)
    (o.st, r.2 ++ [o.word])

/-- REG_READ: `n` registers from an address on. -/
def execRegRead (i : Fin 32) (addr n : Nat) (s : State) : Answer :=
  ezCommand s i 0x0100 (
    if !wordsIn 0x1000000 addr n then s.refuse i 0x06 0x0006 0
    else
      let r := s.readWords addr n
      r.1.answer i (r.2.flatMap leBytes))

/-- A write that would change an idle-only field: it needs level 2 (R377). -/
def State.writesIdle (s : State) (a : Nat) (w : Word) : Bool :=
  match parAt a with
  | some (n, k) =>
    match parDesc k with
    | some p => p.acc == .rw && p.cls == .idle && parCheck p w != some (s.reg (GFM_PAR n k))
    | none => false
  | none =>
    match regAt (sharedAddr a) with
    | some r => changesIdle r w (s.reg (sharedAddr a))
    | none => false

/-- A write that would select an ungranted function in a granted block: a machine drive without MACHINE, or a channel
without HARMONIC or on a station that is not of the AC grid-forming type (R8, R82). -/
def State.selectsUngranted (s : State) (a : Nat) (w : Word) : Bool :=
  let n := a / 0x10000 - 0x14
  decide (0x14 ≤ a / 0x10000 ∧ a / 0x10000 < 0x18) && s.grantS n &&
    ((a == GFM_CTRL n && bits w 8 2 == 1 && !s.grantMachine) ||
      (decide (GFM_HCH_CFG n 0 ≤ a ∧ a ≤ GFM_HCH_CFG n 11) && bit w 0 && (!s.grantHarm || s.stnType n != 0)))

/-- A place that no write from outside reaches (R31, R41, R192). -/
def State.writeClosed (s : State) (a : Nat) : Bool :=
  if 0x800000 ≤ a then memClosed (s.apertureAt a) else s.window (a / 0x10000) == some true && !s.mayWrite .eznel a

/-- The first word of a REG_WRITE that is refused, as status, DETAIL and ARG. -/
def State.regWriteCheck (s : State) (auth addr : Nat) : Nat → List Word → Option (Nat × Nat × Nat)
  | _, [] => none
  | k, w :: t =>
    let a := addr + 4 * k
    if auth < 2 ∧ s.writesIdle a w then some (0x04, 0x0008, 2)
    else if s.writeClosed a then some (0x04, 0x0009, a)
    else if s.selectsUngranted a w then some (0x04, 0x000B, k)
    else s.regWriteCheck auth addr (k + 1) t

/-- Words written from an address on, one after another. -/
def State.writeWords (s : State) (addr : Nat) (late : Bool) : Nat → List Word → State
  | _, [] => s
  | k, w :: t => (s.busWrite .eznel (addr + 4 * k) w late).st.writeWords addr late (k + 1) t

/-- REG_WRITE: words from an address on, each field by field (R17, R376). -/
def execRegWrite (i : Fin 32) (addr : Nat) (ws : List Word) (late : Bool) (s : State) : Answer :=
  ezCommand s i 0x0101 (
    if !wordsIn 0x1000000 addr ws.length then s.refuse i 0x06 0x0006 0
    else
      match s.regWriteCheck (s.hdrAuth i) addr 0 ws with
      | some (st, d, a) => s.refuse i st d a
      | none => (s.writeWords addr late 0 ws).answer i [])

/-- Words of internal memory; outside SRAM and DRAM a word reads 0 (R40). -/
def State.memWords (s : State) (addr n : Nat) : List Word :=
  (List.range n).map (fun k => if inMemory (addr + 4 * k) then s.word (addr + 4 * k) else 0)

/-- MEM_READ: `n` words of internal memory. -/
def execMemRead (i : Fin 32) (addr n : Nat) (s : State) : Answer :=
  ezCommand s i 0x0102 (
    if !wordsIn 0x100000000 addr n then s.refuse i 0x06 0x0006 0
    else
      let out := (List.range n).any (fun k => !inMemory (addr + 4 * k))
      (s.setFlagIf out SYS_STATUS_APERTURE_ERR).answer i ((s.memWords addr n).flatMap leBytes))

/-! ### Parameters (R379 to R382) -/

/-- A parameter number of a station's table. -/
def stationParam (p : Nat) : Option (Nat × ParamDesc) :=
  if 0x2000 ≤ p ∧ p < 0x2400 then (parDesc (p % 0x100)).map (fun d => ((p - 0x2000) / 0x100, d)) else none

/-- Whether a table lists the number. -/
def assigned (p : Nat) : Bool := (stationParam p).isSome || (fwDesc p).isSome

/-- The station a parameter belongs to, of its own table, its comparators or its battery. -/
def paramStation (p : Nat) : Option Nat :=
  if 0x2000 ≤ p ∧ p < 0x2400 then some ((p - 0x2000) / 0x100)
  else if 0x3090 ≤ p ∧ p < 0x30A8 then some ((p - 0x3090) / 6)
  else if 0x3900 ≤ p ∧ p < 0x3940 then some ((p - 0x3900) / 16)
  else none

/-- The unit of a parameter is granted. -/
def State.paramGranted (s : State) (p : Nat) : Bool :=
  match paramStation p with
  | some n => s.grantS n
  | none => if 0x3800 ≤ p ∧ p < 0x3840 then s.grantPort (p - 0x3800) else true

def paramRo (p : Nat) : Bool :=
  match stationParam p with
  | some (_, d) => d.acc == .ro
  | none => match fwDesc p with | some d => d.ro | none => false

def paramIdleOnly (p : Nat) : Bool :=
  match stationParam p with
  | some (_, d) => d.acc == .rw && d.cls == .idle
  | none => match fwDesc p with | some d => d.idle | none => false

/-- Level that PARAM_WRITE needs (R380). -/
def paramLevel (p : Nat) : Nat :=
  if 0x2000 ≤ p ∧ p < 0x2400 ∧ parP_SET ≤ p % 0x100 ∧ p % 0x100 ≤ parF_SET then 1
  else if 0x1800 ≤ p ∧ p < 0x1900 then 3
  else 2

/-- The unit of an idle-only parameter is idle (R77, R203, R258). -/
def State.paramIdle (s : State) (p : Nat) : Bool :=
  if 0x3000 ≤ p ∧ p < 0x3060 then s.pairIdle ((p - 0x3000) / 12)
  else if 0x3060 ≤ p ∧ p < 0x3090 then s.sdmIdle (p - 0x3060)
  else if 0x3800 ≤ p ∧ p < 0x3840 then s.fld (pq AQR_CFG_EN (p - 0x3800)) == 0
  else match paramStation p with | some n => s.stnIdle n | none => true

/-- The word that a write of a parameter stores, or none where R49, R64 or R258 refuses the value. -/
def State.paramCheck (s : State) (p : Nat) (w : Word) : Option Word :=
  match stationParam p with
  | some (n, d) =>
    match parCheck d w with
    | some v => if d.idx = parD ∧ !s.stnIdle n ∧ 1 / 5 < (roundAway (f32ToRat v / d.res) : Rat) * d.res * s.dtV n then none else some v
    | none => none
  | none =>
    match fwDesc p with
    | some d =>
      match fwCheck p d w with
      | some v => if (battPair p).any (fun q => s.fwReg q == v) then none else some v
      | none => none
    | none => none

/-- What a parameter holds. -/
def State.paramWord (s : State) (p : Nat) : Word :=
  match stationParam p with
  | some (n, d) => s.regView (GFM_PAR n d.idx)
  | none => s.fwReg p

/-- Sessions that end with a changed address or port (R382). -/
def sessionsOf (p : Nat) (x : Peer) : Bool :=
  match x with
  | .udp e v6 _ _ => p == 0x1010 || (!v6 && p == 0x1000 + 4 * e)
  | .can c _ => p == 0x1020 + 4 * c
  | .i2c => p == 0x1030
  | .spi => false

/-- A parameter takes a checked value, with all that follows from its change (R65, R224, R304, R313, R382). -/
def State.paramPut (s : State) (p : Nat) (w v : Word) (late : Bool) : State :=
  match stationParam p with
  | some (n, d) => s.writePar n d.idx w late
  | none =>
    let s1 := s.setFw p v
    if 0x3060 ≤ p ∧ p < 0x3090 then s1.sfCodes (p - 0x3060)
    else if 0x3090 ≤ p ∧ p < 0x30A8 then s1.cmpCodes ((p - 0x3090) / 6) ((p - 0x3090) % 6)
    else if p = 0x1802 then s1.ptpRestart
    else if p = 0x1800 ∧ s.fwRat p < s1.fwRat p then s1.setRefused false
    else if v = s.fwReg p then s1
    else s1.endSessions (sessionsOf p)

/-- A refused value of a station's parameter shows in its flags and counter (R64). -/
def State.paramRejected (s : State) (p : Nat) : State :=
  if (0x2000 ≤ p ∧ p < 0x2400) ∨ (0x3900 ≤ p ∧ p < 0x3940) then
    match paramStation p with
    | some n => (s.setFlag (GFM_CORE_FLAGS_PARAM_REJECTED n)).count (GFM_CORE_CNT1_PARAM_REJECT_CNT n)
    | none => s
  else s

/-- One entry of a payload: number, the two bytes that are zero, value. -/
structure ParamEntry where
  num : Nat
  pad : Nat
  val : Word
  deriving DecidableEq, Repr

/-- The entries of a payload of 1 to 126 times 8 bytes. -/
def paramEntries (p : List Byte) : Option (List ParamEntry) :=
  if p.length % 8 = 0 ∧ 8 ≤ p.length ∧ p.length ≤ 1008 then
    some ((List.range (p.length / 8)).map (fun k =>
      ⟨fieldAt p (8 * k) 2, fieldAt p (8 * k + 2) 2, BitVec.ofNat 32 (fieldAt p (8 * k + 4) 4)⟩))
  else none

/-- Why an entry is refused. -/
inductive ParamFault where
  | param | ungranted | readOnly | authority | value | wrongState
  deriving DecidableEq, Repr

/-- The checks of R381 on one entry, in order; none where it passes. An idle-only parameter written with the value it holds
asks for no change (R16). -/
def State.entryFault (s : State) (auth : Nat) (e : ParamEntry) : Option ParamFault :=
  if !assigned e.num then some .param
  else if !s.paramGranted e.num then some .ungranted
  else if paramRo e.num then some .readOnly
  else if auth < paramLevel e.num then some .authority
  else if e.pad ≠ 0 ∨ (s.paramCheck e.num e.val).isNone then some .value
  else if paramIdleOnly e.num && !s.paramIdle e.num && s.paramCheck e.num e.val != some (s.paramWord e.num) then
    some .wrongState
  else none

/-- The state after every entry, or the first that fails, by its index and number. Each entry is checked as the ones before
it leave the parameters. -/
def State.paramAll (s : State) (auth : Nat) (late : Bool) : Nat → List ParamEntry → Except (Nat × Nat × ParamFault) State
  | _, [] => .ok s
  | k, e :: t =>
    match s.entryFault auth e with
    | some f => .error (k, e.num, f)
    | none =>
      match s.paramCheck e.num e.val with
      | some v => (s.paramPut e.num e.val v late).paramAll auth late (k + 1) t
      | none => .error (k, e.num, .value)

/-- The reply to a refused entry (R381). -/
def State.refuseParam (s : State) (i k p : Nat) (f : ParamFault) : State :=
  match f with
  | .param => s.refuse i 0x06 0x0005 k
  | .ungranted => s.refuse i 0x04 0x000B k
  | .readOnly => s.refuse i 0x04 0x0007 k
  | .authority => s.refuse i 0x04 0x0008 k
  | .value => (s.paramRejected p).refuse i 0x06 0x0006 k
  | .wrongState => s.refuseArg i 0x07 k

/-- PARAM_WRITE: all entries or none. `late` says that the write falls in the cycle of a station's transfer (R15). -/
def execParamWrite (i : Fin 32) (late : Bool) (s : State) : Answer :=
  ezCommand s i 0x0201 (
    match paramEntries (s.payload i) with
    | none => s.refuse i 0x06 0x0006 0
    | some es =>
      match s.paramAll (s.hdrAuth i) late 0 es with
      | .ok t => t.answer i []
      | .error (k, p, f) => s.refuseParam i k p f)

/-- The first entry of a PARAM_READ that is refused. -/
def State.readFault (s : State) : Nat → List ParamEntry → Option (Nat × ParamFault)
  | _, [] => none
  | k, e :: t =>
    if !assigned e.num then some (k, .param)
    else if !s.paramGranted e.num then some (k, .ungranted)
    else s.readFault (k + 1) t

/-- PARAM_READ: the entries of the request with their values (R381). -/
def execParamRead (i : Fin 32) (s : State) : Answer :=
  ezCommand s i 0x0200 (
    match paramEntries (s.payload i) with
    | none => s.refuse i 0x06 0x0006 0
    | some es =>
      match s.readFault 0 es with
      | some (k, f) => s.refuseParam i k 0 f
      | none => s.answer i (es.flatMap (fun e => leBytesN 2 e.num ++ leBytesN 2 0 ++ leBytes (s.paramWord e.num))))

/-- What a table gives of a parameter: TYPE, then range, resolution and default where it gives them, and the class. -/
structure ParamInfo where
  u32 : Bool
  lo : Option Rat
  hi : Option Rat
  res : Option Rat
  dflt : Option Rat
  cls : Cls
  deriving DecidableEq, Repr

/-- The low end of a range that also admits 0. -/
def lowEnd (zeroOk : Bool) (lo : Rat) : Rat := if zeroOk then min 0 lo else lo

def paramInfo (p : Nat) : Option ParamInfo :=
  match stationParam p with
  | some (_, d) =>
    some ⟨false, some (lowEnd d.zeroOk d.lo), some d.hi, if d.res = 0 then none else some d.res, some d.dflt, d.cls⟩
  | none =>
    (fwDesc p).map (fun d =>
      let cls : Cls := if d.idle then .idle else .live
      let res := if d.u32 ∨ d.res = 0 ∨ p = 0x1808 then none else some d.res
      if d.ro then ⟨d.u32, none, none, res, if d.u32 then none else some d.dflt, cls⟩
      else ⟨d.u32, some (lowEnd d.zeroOk d.lo), some d.hi, res, some d.dflt, cls⟩)

def classCode : Cls → Nat
  | .live => 0
  | .shadowed => 1
  | .idle => 2

/-- A number in the parameter's TYPE; what no table gives is an open word (log row 30). -/
def State.infoWord (s : State) (u32 : Bool) (k : Nat) (x : Option Rat) : Word :=
  match x with
  | some v => if u32 then BitVec.ofNat 32 (floorRat v).toNat else f32OfRat v
  | none => Config.freeWord (s.draws + k)

/-- PARAM_INFO: TYPE, range, resolution, default, timing class and level of one number (R380). -/
def execParamInfo (i : Fin 32) (p : Nat) (s : State) : Answer :=
  ezCommand s i 0x0202 (
    match paramInfo p with
    | none => s.refuse i 0x06 0x0005 0
    | some d =>
      (s.draw.draw.draw.draw).answer i (leBytesN 4 d.u32.toNat ++ leBytes (s.infoWord d.u32 0 d.lo) ++
        leBytes (s.infoWord d.u32 1 d.hi) ++ leBytes (s.infoWord d.u32 2 d.res) ++ leBytes (s.infoWord d.u32 3 d.dflt) ++
        leBytesN 4 (classCode d.cls) ++ leBytesN 4 (paramLevel p)))

/-! ### Engines (R332, R334) -/

/-- The engine that is not ACTIVE. -/
def State.standbyEngine (s : State) : Nat := if s.red.active = 0 then 1 else 0

/-- RED_RELOAD: a job that cannot be cancelled. -/
def execRedReload (i : Fin 32) (s : State) : Answer :=
  ezCommand s i 0x0400 (
    if !s.grantB then s.refuse i 0x04 0x000B 0
    else if s.freeJob.isNone then s.jobLimit i
    else if s.canReload then s.startReload.startJob i (.reload s.standbyEngine) [.engine s.standbyEngine]
    else s.refuseOpen i 0x07)

def isReload : JobKind → Bool
  | .reload _ => true
  | _ => false

/-- Whether the engine that is not ACTIVE is RELOADING. -/
def State.reloading (s : State) : Bool := s.grantB && s.standbyState == 5

/-- RED_RELOAD_DONE: the engine starts to synchronise and the job is done; a job whose engine left RELOADING otherwise
fails with an open status (log row 30). -/
def execRedReloadDone (s : State) : Answer :=
  whenFw s (
    let ok := s.reloading
    (if ok then s.endReload else s).forAll 4 (fun j t =>
      if t.jobRuns j && isReload (t.jobOf j).kind then
        (if ok then t.endJob j 1 0 else t.draw.endJob j 2 (t.openNat % 256))
      else t))

/-- RED_EXCHANGE (R332). -/
def execRedExchange (i : Fin 32) (s : State) : Answer :=
  ezCommand s i 0x0401 (
    if !s.grantB then s.refuse i 0x04 0x000B 0
    else if s.canExchange then s.exchange.answer i []
    else s.refuseOpen i 0x07)

/-! ### Ring ports (R238, R250, R252, R377) -/

/-- RING_CMD: the command goes to the AQR_CMD registers of port `q` and is queued; the answer follows at its end. `data` are
words of CMD_DATA for the `cells` data cells of a WRITE. -/
def execRingCmd (i : Fin 32) (q : Fin 64) (op : Fin 32) (node : Fin 512) (count : Fin 64) (arg : Word) (cells : Nat)
    (data : List Word) (s : State) : Answer :=
  ezCommand s i 0x0500 (
    if !s.grantPort q then s.refuse i 0x04 0x000B 0
    else if 4 < cells ∨ 16 < data.length then s.refuse i 0x06 0x0006 0
    else if (s.portOf q).cmdBusy then s.refuseOpen i 0x01
    else
      let s1 := s.setReg (pq AQR_CMD_HDR q) (packF [(pq AQR_CMD_HDR_OP q, op), (pq AQR_CMD_HDR_NODE q, node),
        (pq AQR_CMD_HDR_COUNT q, count)])
      let s2 := (s1.setReg (pq AQR_CMD_ARG q) arg).setFld (pq AQR_CMD_CTRL_NDATA q) cells
      let s3 := data.zipIdx.foldl (fun (t : State) x => t.setReg (pq AQR_CMD_DATA q x.2) x.1) s2
      (s3.onPort q (fun p => { p with cmdSlot := some i.val })).commandGo q)

/-- SHELF_READ: up to 126 entries of node `l` of port `q`, from point `first` on. -/
def execShelfRead (i : Fin 32) (q : Fin 64) (l : Fin 512) (first n : Nat) (s : State) : Answer :=
  ezCommand s i 0x0501 (
    if !s.grantPort q then s.refuse i 0x04 0x000B 0
    else if n < 1 ∨ 126 < n ∨ 160 < first + n then s.refuse i 0x06 0x0006 0
    else s.answer i (s.bytes (entryAddr (entryNo q l first)) (8 * n)))

/-- RING_SET_UID: FIRST_UID and LAST_UID, idle-only with their port (R238). -/
def execRingSetUid (i : Fin 32) (q : Fin 64) (first last : Word) (s : State) : Answer :=
  ezCommand s i 0x0502 (
    let same := first == s.reg (pq AQR_FIRST_UID q) && last == s.reg (pq AQR_LAST_UID q)
    if !s.grantPort q then s.refuse i 0x04 0x000B 0
    else if s.flag (pq AQR_CFG_EN q) && !same then s.refuseOpen i 0x07
    else ((s.setBoth (pq AQR_FIRST_UID q) first).setBoth (pq AQR_LAST_UID q) last).answer i [])

/-! ### Time (R303, R304) -/

/-- TIME_SET: an absolute time, with no threshold; it ends the refusal of an offset (R304). -/
def execTimeSet (i : Fin 32) (secs : BitVec 48) (ns : Word) (s : State) : Answer :=
  ezCommand s i 0x0600 (
    if nsPerSec ≤ ns.toNat then s.refuse i 0x06 0x0006 0
    else (((s.setLocal (secs.toNat * nsPerSec + ns.toNat)).stepDone).setRefused false).answer i [])

/-- TIME_STEP: a signed step in nanoseconds. A refused one leaves STEP_REFUSED and its count. -/
def execTimeStep (i : Fin 32) (d : BitVec 64) (s : State) : Answer :=
  ezCommand s i 0x0601 (
    if s.clock.step.isSome then s.stepRefused.refuseOpen i 0x07
    else if !s.stepOk d.toInt then s.stepRefused.refuse i 0x06 0x0006 0
    else (s.commitStep d.toInt).answer i [])

/-- TIME_GET: nanoseconds and seconds, as TIM_NS, TIM_S_LO and TIM_S_HI show them. -/
def execTimeGet (i : Fin 32) (s : State) : Answer :=
  ezCommand s i 0x0602 (s.answer i (leBytesN 4 s.clock.ns ++ leBytesN 8 s.clock.secs))

/-! ### Modbus/TCP (R389) -/

/-- The register of the 24-bit space that a pair of Modbus registers shows, by the even address of the pair. -/
def modbusAddr (r : Nat) : Option Nat :=
  let w := r % 0x20 / 2
  if r < 0x400 ∧ r % 0x100 < 0x40 then some (GFM_SNAP (r / 0x100) (r % 0x100 / 2))
  else if 0x1000 ≤ r ∧ r < 0x1800 ∧ w ≤ 8 then some (SHF_AGG0 ((r - 0x1000) / 0x20) + 4 * w)
  else if r = 0x2000 then some SAF_STATUS
  else if r = 0x2002 then some SAF_SIN
  else if r = 0x2004 then some SAF_SOUT
  else if 0x2010 ≤ r ∧ r < 0x2018 then some (SAF_STN ((r - 0x2010) / 2))
  else if r = 0x3000 then some SYS_DEVID
  else if r = 0x3002 then some SYS_STEPPING
  else if r = 0x3004 then some SYS_GRANT
  else if r = 0x3010 then some TIM_NS
  else if r = 0x3012 then some TIM_S_LO
  else if r = 0x3014 then some TIM_S_HI
  else none

/-- The pairs that `n` registers from `r` on lie in. -/
def modbusPairs (r n : Nat) : List Nat := (List.range ((r + n + 1) / 2 - r / 2)).map (fun k => 2 * (r / 2 + k))

/-- Words of a list of pairs, read in order. -/
def State.modbusWords (s : State) : List Nat → State × List Byte
  | [] => (s, [])
  | r :: t =>
    match modbusAddr r with
    | none => s.modbusWords t
    | some a =>
      let o := s.busRead a
      let x := o.st.modbusWords t
      (x.1, beBytes o.word ++ x.2)

/-- MODBUS_READ: function `fc` on `n` registers from `r` on, over a connection of `p`. What is sent is the function code, and
the byte count with the registers or the exception code behind bit 7 of the function code (log row 41). -/
def execModbusRead (p : Peer) (fc : Byte) (r n : Nat) (s : State) : Answer :=
  whenFw s (
    let exception (code : Byte) : State := s.send p [fc ||| 0x80, code]
    if s.fwReg 0x1011 = 0 ∨ s.monitor ∨ s.mbx.tcp = 0 then s
    else if fc ≠ 3 ∧ fc ≠ 4 then exception 1
    else if n < 1 ∨ 125 < n then exception 3
    else if (modbusPairs r n).any (fun a => (modbusAddr a).isNone) then exception 2
    else
      let x := s.modbusWords (modbusPairs r n)
      x.1.send p (fc :: BitVec.ofNat 8 (2 * n) :: (x.2.drop (2 * (r % 2))).take (2 * n)))

end Sys2Proof.Machine
end

