-- ==== Sys2Proof/Machine/Gfm.lean ====
section
/-! DEFINITION. Meanings of the period steps and of the grid-forming core's commands (chapters 01, 02, 05). -/

namespace Sys2Proof.Machine

/-- STATION_PERIOD_BOUNDARY: step 0 of R27. -/
def execStationPeriodBoundary (n : Fin 4) (s : State) : Answer :=
  whenRun s (if s.grantS n && (s.pwmOf n).run then (s.boundary n).redBoundary n else s)

/-- Converters to which trigger compare `t` of station `n` is routed (R205). -/
def State.routed (s : State) (n t k : Nat) : Bool := bit (s.reg (ADC_TRGMAP_PWM k)) (8 * n + t)

/-- Whether a trigger compare can match in the period (R174). -/
def State.trgFires (s : State) (n t : Nat) : Bool :=
  (s.pwmOf n).run && s.actFld (PWM_TRG_EN n t) == 1 &&
    (s.actFld (PWM_TRG_CS_ONLY n t) == 0 || (s.pwmOf n).j == 0) &&
    decide (s.actFld (PWM_TRG_VALUE n t) < s.periodTicks n)

/-- TRIGGER_COMPARE_MATCH: SEQ_GO of every routed converter (R174, R205). -/
def execTriggerCompareMatch (n : Fin 4) (t : Fin 8) (s : State) : Answer :=
  whenRun s (if s.grantS n && s.trgFires n t then
    s.forAll 16 (fun k u => if u.routed n t k then u.seqGo k else u) else s)

/-- ENGINE_STATION_START (R132). -/
def execEngineStationStart (n : Fin 4) (s : State) : Answer := whenRun s (if s.grantS n then s.startWork n else s)

/-- LOOP_COMPLETE (R131). -/
def execLoopComplete (n : Fin 4) (k : Fin 64) (cycles standby : Nat) (s : State) : Answer :=
  whenRun s (s.completeLoop n k cycles standby)

/-- STATE_COPY_ACK (R318 to R320). -/
def execStateCopyAck (n : Fin 4) (intact upset : Bool) (s : State) : Answer := whenRun s (s.copyAck n intact upset)

/-- SNAPSHOT_RECORD_WRITTEN (R36, R37). -/
def execSnapshotRecordWritten (n : Fin 4) (accepted : Bool) (s : State) : Answer := whenRun s (s.writeSnap n accepted)

/-- EXECUTION_DEADLINE (R154). -/
def execExecutionDeadline (n : Fin 4) (s : State) : Answer := whenRun s (s.deadline n)

/-- GFM_ENV_SEQ_WRITE by the management processor (R31, R32). -/
def execGfmEnvSeqWrite (n : Fin 4) (seq : Word) (late : Bool) (s : State) : Answer :=
  writeWindow (0x14 + n) s (s.commitEnvelope n seq late)

/-- ENV_FALLBACK: ENV_AGE has passed 200 ms (R34). -/
def execEnvFallback (n : Fin 4) (s : State) : Answer :=
  whenRun s (if (s.stnOf n).env.otp && (s.stnOf n).envWait.isNone then s
    else s.onStn n (fun u => { u with fallbackDue := true }))

/-- GFM_SNAP0_READ (R35). -/
def execGfmSnap0Read (n : Fin 4) (s : State) : Answer :=
  readWindow (0x14 + n) s { s.latchSnap n with readData := s.reg (GFM_SNAP n 0) }

/-- GFM_RUN_REQUEST: a write of GFM_CTRL with RUN_REQ = 1 (R78). -/
def execGfmRunRequest (n : Fin 4) (w : Word) (s : State) : Answer :=
  writeWindow (0x14 + n) s (s.writeCtrl n (putBit w 0 true))

/-- GFM_STOP_REQUEST: a write of GFM_CTRL with RUN_REQ = 0 (R78). -/
def execGfmStopRequest (n : Fin 4) (w : Word) (s : State) : Answer :=
  writeWindow (0x14 + n) s (s.writeCtrl n (putBit w 0 false))

/-- GFM_RESET_REQUEST: a write of GFM_CTRL with RESET_REQ = 1 (R78). -/
def execGfmResetRequest (n : Fin 4) (w : Word) (s : State) : Answer :=
  writeWindow (0x14 + n) s (s.writeCtrl n (putBit w 12 true))

/-- GFM_PAR_WRITE (R64). -/
def execGfmParWrite (n : Fin 4) (i : BitVec 8) (w : Word) (late : Bool) (s : State) : Answer :=
  writeWindow (0x14 + n) s (s.writePar n i.toNat w late)

/-- STOP_TIMEOUT: T_STOP + 1.0 s after entry to STOPPING (R488). -/
def execStopTimeout (n : Fin 4) (s : State) : Answer :=
  whenRun s (if (s.stnOf n).st == .stopping then s.completeStop n else s)

end Sys2Proof.Machine
end

