-- ==== Sys2Proof/Machine/RideThrough.lean ====
section
/-! DEFINITION. Meanings of the events of fault ride-through and current limiting (chapter 04). -/

namespace Sys2Proof.Machine

/-- LIMIT_WINDOW_CROSSING: the comparator reads a code, and its limit window forces while crossed (R112, R113, R192). -/
def execLimitWindowCrossing (n : Fin 4) (c : Fin 6) (code : BitVec 12) (s : State) : Answer :=
  let s1 := s.onWcomp n c (fun w =>
    { w with lim := windowStep w.lim (s.fld (GATE_WCMP_LIM_HI n c)) (s.fld (GATE_WCMP_LIM_LO n c)) code.toNat })
  whenRun s (if s.grantS n && s.flag (GATE_WCMP_CFG_EN n c) then s1.limitWindow n c else s)

/-- HWLIM_PERSIST (R114). -/
def execHwlimPersist (n : Fin 4) (s : State) : Answer :=
  let k := (s.pwmOf n).hwlConsec
  whenRun s (if 0 < k && decide (s.par n parHWL_CYCLES ≤ (k : Rat)) then s.tripNow n 3 else s)

/-- LIM_TIME has passed T_FC, and the ceiling has not fallen yet (R108, R120). -/
def State.ceilDue (s : State) (n : Nat) : Bool :=
  let u := s.stnOf n
  u.enHigh && u.st != .running && !u.lim.ceilAtOvl && decide (s.par n parT_FC * 1000 < u.lim.limTime)

/-- CEIL_OVL (R108): LIM_TIME passes T_FC and the ceiling falls. -/
def execCeilOvl (n : Fin 4) (s : State) : Answer :=
  whenRun s (if s.ceilDue n then
    (s.blkCeiling n).onPer n (fun p => { p with ceilNew := !s.flag (GFM_FRT_FLAGS_CEIL_OVL n) }) else s)

/-! ### The clearing of a fault (R116, R124) -/

/-- The conditions of the return from RIDE_THROUGH, and from LIMITING, have held for T_CLR. -/
def State.rideCleared (s : State) (n : Nat) : Bool :=
  let l := (s.stnOf n).lim
  l.vOk && decide (s.par n parT_CLR ≤ l.vOkTime)

def State.limitCleared (s : State) (n : Nat) : Bool :=
  let l := (s.stnOf n).lim
  !(s.stnOf n).limitingNow && l.calm && decide (s.par n parT_CLR ≤ l.calmTime)

/-- A ceiling that fell in the period of the return has not fallen (R124). -/
def State.keepCeiling (s : State) (n : Nat) : State :=
  if (s.stnOf n).per.ceilNew then
    (s.onLim n (fun l => { l with ceilAtOvl := false, iCeil := l.fcBudget })).setFld (GFM_FRT_FLAGS_CEIL_OVL n) 0
  else s

/-- The return to RUNNING under row 9 of R78. -/
def State.clearFault (s : State) (n : Nat) : State := (((s.noteTurn n 9 .running).keepCeiling n).enterRunning n)

/-- CLEAR_CONFIRMED: the condition of R116 has held for T_CLR. A stop that is called for keeps its place before the return
(R78). -/
def execClearConfirmed (n : Fin 4) (s : State) : Answer :=
  let u := s.stnOf n
  whenRun s (if s.stopWanted n || !s.mayTurn n 9 then s
    else match u.st with
    | .rideThrough =>
      if !s.rideCleared n then s
      else if u.limitingNow then s.enterLimiting n 9
      else s.clearFault n
    | .limiting => if s.limitCleared n then s.clearFault n else s
    | _ => s)

/-! ### Trips of the curve and the windows (R117, R118, R123, R160) -/

/-- The state that a trip of this period is judged in: the one that the period found the station in. -/
def Stn.inRide (u : Stn) : Bool := u.stBefore == .rideThrough || u.stHere == .rideThrough

/-- Seconds of one fundamental cycle. -/
def State.cycleSec (s : State) (n : Nat) : Rat := 1 / s.par n parF_NOM

/-- RT_CURVE_TRIP (R117): |v| stayed below the curve for a cycle, or T_RT1 has come. A return in the same period does not
stand (R123). -/
def execRtCurveTrip (n : Fin 4) (s : State) : Answer :=
  let u := s.stnOf n
  whenRun s (if u.inRide && (decide (s.par n parT_RT1 ≤ u.ride.time) || reached u.ride.below (s.cycleSec n)) then s.tripNow n 7
    else s)

/-- The windows are evaluated in RUNNING and LIMITING of an AC station (R118, R120). -/
def State.windowsOn (s : State) (n : Nat) : Bool :=
  let on (x : StnState) : Bool := x == .running || x == .limiting
  s.stnType n == 0 && (on (s.stnOf n).stHere || on (s.stnOf n).stBefore)

/-- The voltage has been outside a window for its time. -/
def State.vOutside (s : State) (n : Nat) : Bool :=
  let r := (s.stnOf n).ride
  exceeded r.vPerm (s.par n parT_V_TRANS) || reached r.vHigh (s.cycleSec n) || reached r.vLow (s.cycleSec n)

/-- ω is outside the transient window, or has been outside the permanent one for its time. -/
def State.fOutside (s : State) (n : Nat) : Bool :=
  (s.stnOf n).ride.fTrans || exceeded (s.stnOf n).ride.fPerm (s.par n parT_F_TRANS)

/-- V_WINDOW_TRIP (R118). -/
def execVWindowTrip (n : Fin 4) (s : State) : Answer :=
  whenRun s (if s.windowsOn n && s.vOutside n then s.tripNow n 8 else s)

/-- F_WINDOW_TRIP (R118). -/
def execFWindowTrip (n : Fin 4) (s : State) : Answer :=
  whenRun s (if s.windowsOn n && s.fOutside n then s.tripNow n 9 else s)

/-- OLV_TIMEOUT (R160). A restoration in the same period does not undo it (R164). -/
def execOlvTimeout (n : Fin 4) (s : State) : Answer :=
  whenRun s (if (s.stnOf n).stHere == .openLoopV then s.tripNow n 0x0A else s)

end Sys2Proof.Machine
end

