-- ==== Sys2Proof/Machine/Start.lean ====
section
/-! DEFINITION. Meanings of the start events (chapter 03). Each asserts that the time of its condition has passed; where
the state does not allow the event it changes nothing (log row 11). -/

namespace Sys2Proof.Machine

/-- DEAD_BUS_CONFIRMED (R88, R89). -/
def execDeadBusConfirmed (n : Fin 4) (s : State) : Answer :=
  let u := s.stnOf n
  whenRun s (if u.st == .deadBusStart && u.start.phase == .deadCheck && u.start.deadOk then
    (s.onStart n (fun x => { x with confirmed := true })).settleStopped n else s)

/-- DEAD_BUS_LIVE_TIMEOUT (R88). -/
def execDeadBusLiveTimeout (n : Fin 4) (s : State) : Answer :=
  let u := s.stnOf n
  whenRun s (if u.st == .deadBusStart && u.start.phase == .deadCheck && !u.start.confirmed then s.failStart n 1 else s)

/-- HOLD_TIMEOUT (R90). -/
def execHoldTimeout (n : Fin 4) (s : State) : Answer :=
  let u := s.stnOf n
  whenRun s (if (u.st == .deadBusStart || u.st == .synchronising) && u.start.holding then s.failStart n 2 else s)

/-- BIAS_DECAY_END (R91). -/
def execBiasDecayEnd (n : Fin 4) (s : State) : Answer :=
  whenRun s (if (s.stnOf n).st == .deadBusStart || (s.stnOf n).st == .synchronising then s
    else s.onStart n (fun x => { x with bias := ⟨0, 0⟩, biasAtRun := ⟨0, 0⟩ }))

/-- BUS_LIVE_CONFIRMED (R99). -/
def execBusLiveConfirmed (n : Fin 4) (s : State) : Answer :=
  let u := s.stnOf n
  whenRun s (if u.st == .synchronising && u.start.phase == .busCheck && u.start.busLiveOk then
    (s.onStart n (fun x => { x with confirmed := true })).settleStopped n else s)

/-- SYNC_WINDOW_HELD (R99). -/
def execSyncWindowHeld (n : Fin 4) (s : State) : Answer :=
  let u := s.stnOf n
  whenRun s (if u.st == .synchronising && u.start.phase == .matching && u.start.winOk then
    (s.onStart n (fun x => { x with phase := .window })).setFlag (GFM_SBS_FLAGS_SYNC_WINDOW n) else s)

/-- A number rounded to the resolution 0.0001 of F_SET (R63, R101). -/
def roundFset (x : Rat) : Rat := (roundAway (x * 10000) : Rat) / 10000

/-- The breaker closes while the rotor is steered toward the bus: the steering ends, and P_GOV restarts from 0 (R100). -/
def State.joinBus (s : State) (n : Nat) : State :=
  (s.onCores n (fun c => { c with pGov := 0 })).onStart n (fun x => { x with complete := true })

/-- Closure of the breaker in a start (R100, R101; the mean is written as it stands, log row 97). In a stop out of a start
the blocks run on as in it, and the start stays abandoned (R488). -/
def State.closeBreaker (s : State) (n : Nat) : State :=
  let u := s.stnOf n
  if u.steered && u.enHigh then
    let s1 := s.joinBus n
    if u.st == .synchronising then
      let s2 := s1.setFlagIf (u.start.phase != .window) (GFM_SBS_FLAGS_CLOSED_OUT_OF_WINDOW n)
      (if s.fld (GFM_CTRL_START_MODE n) = 2 then
        (s2.setReg (GFM_PAR n parF_SET) (f32OfRat (roundFset (meanOf u.start.wLog)))).setFlag (GFM_SBS_FLAGS_SHORE_FSET n)
      else s2).settleStopped n
    else s1
  else if u.st == .synchronising then s.failStart n 5
  else s

/-- BREAKER_INPUT_CHANGE: the assigned contact opens or closes (R88, R96, R100). -/
def execBreakerInputChange (n : Fin 4) (closed : Bool) (s : State) : Answer :=
  whenRun s (match s.brkInput n with
    | none => s
    | some c =>
      let s1 := s.onCap c (fun x => { x with level := closed })
      if closed then (if (s.stnOf n).start.complete then s1 else s1.closeBreaker n)
      else if !closed && (s.stnOf n).st == .deadBusStart then s1.failStart n 5
      else s1)

/-- BUS_GAP_TIMEOUT (R102). -/
def execBusGapTimeout (n : Fin 4) (s : State) : Answer :=
  let u := s.stnOf n
  whenRun s (if u.st == .synchronising && u.start.phase == .busGap then s.failStart n 4 else s)

/-- SYNC_TIMEOUT (R103). -/
def execSyncTimeout (n : Fin 4) (s : State) : Answer :=
  whenRun s (if (s.stnOf n).st == .synchronising then s.failStart n 3 else s)

end Sys2Proof.Machine
end

