-- ==== Sys2Proof/Machine/Dispatch.lean ====
section
/-! DEFINITION. One arm for each command: the meaning it calls. -/

namespace Sys2Proof.Machine

def exec (cmd : Instr) (s : State) : Host.Outcome State Fault Refusal :=
  match cmd with
  | .registerWrite m addr w late => Sys2Proof.Machine.execRegisterWrite m addr w late s
  | .spiReadIncrementing count addr crc notReady clocked => Sys2Proof.Machine.execSpiReadIncrementing count addr crc notReady clocked s
  | .spiWriteIncrementing count addr data crc late => Sys2Proof.Machine.execSpiWriteIncrementing count addr data crc late s
  | .spiReadFixed count addr crc notReady clocked => Sys2Proof.Machine.execSpiReadFixed count addr crc notReady clocked s
  | .spiWriteFixed count addr data crc late => Sys2Proof.Machine.execSpiWriteFixed count addr data crc late s
  | .stationPeriodBoundary n => Sys2Proof.Machine.execStationPeriodBoundary n s
  | .triggerCompareMatch n t => Sys2Proof.Machine.execTriggerCompareMatch n t s
  | .engineStationStart n => Sys2Proof.Machine.execEngineStationStart n s
  | .loopComplete n k cycles standby => Sys2Proof.Machine.execLoopComplete n k cycles standby s
  | .stateCopyAck n intact upset => Sys2Proof.Machine.execStateCopyAck n intact upset s
  | .snapshotRecordWritten n accepted => Sys2Proof.Machine.execSnapshotRecordWritten n accepted s
  | .executionDeadline n => Sys2Proof.Machine.execExecutionDeadline n s
  | .gfmEnvSeqWrite n seq late => Sys2Proof.Machine.execGfmEnvSeqWrite n seq late s
  | .envFallback n => Sys2Proof.Machine.execEnvFallback n s
  | .gfmSnap0Read n => Sys2Proof.Machine.execGfmSnap0Read n s
  | .gfmRunRequest n w => Sys2Proof.Machine.execGfmRunRequest n w s
  | .gfmStopRequest n w => Sys2Proof.Machine.execGfmStopRequest n w s
  | .gfmResetRequest n w => Sys2Proof.Machine.execGfmResetRequest n w s
  | .gfmParWrite n i w late => Sys2Proof.Machine.execGfmParWrite n i w late s
  | .stopTimeout n => Sys2Proof.Machine.execStopTimeout n s
  | .deadBusConfirmed n => Sys2Proof.Machine.execDeadBusConfirmed n s
  | .deadBusLiveTimeout n => Sys2Proof.Machine.execDeadBusLiveTimeout n s
  | .holdTimeout n => Sys2Proof.Machine.execHoldTimeout n s
  | .biasDecayEnd n => Sys2Proof.Machine.execBiasDecayEnd n s
  | .busLiveConfirmed n => Sys2Proof.Machine.execBusLiveConfirmed n s
  | .syncWindowHeld n => Sys2Proof.Machine.execSyncWindowHeld n s
  | .breakerInputChange n closed => Sys2Proof.Machine.execBreakerInputChange n closed s
  | .busGapTimeout n => Sys2Proof.Machine.execBusGapTimeout n s
  | .syncTimeout n => Sys2Proof.Machine.execSyncTimeout n s
  | .limitWindowCrossing n c code => Sys2Proof.Machine.execLimitWindowCrossing n c code s
  | .hwlimPersist n => Sys2Proof.Machine.execHwlimPersist n s
  | .ceilOvl n => Sys2Proof.Machine.execCeilOvl n s
  | .clearConfirmed n => Sys2Proof.Machine.execClearConfirmed n s
  | .rtCurveTrip n => Sys2Proof.Machine.execRtCurveTrip n s
  | .vWindowTrip n => Sys2Proof.Machine.execVWindowTrip n s
  | .fWindowTrip n => Sys2Proof.Machine.execFWindowTrip n s
  | .trsImageWrite i ofs len hash body => Sys2Proof.Machine.execTrsImageWrite i ofs len hash body s
  | .trsImageWriteDone j => Sys2Proof.Machine.execTrsImageWriteDone j s
  | .swapReq e => Sys2Proof.Machine.execSwapReq e s
  | .trsTableWrite i g ofs len hash => Sys2Proof.Machine.execTrsTableWrite i g ofs len hash s
  | .trsCompWrite i n first ofs len hash => Sys2Proof.Machine.execTrsCompWrite i n first ofs len hash s
  | .trsDmemWrite i => Sys2Proof.Machine.execTrsDmemWrite i s
  | .trsDmemDataRead e => Sys2Proof.Machine.execTrsDmemDataRead e s
  | .trsExecMaxRead e n => Sys2Proof.Machine.execTrsExecMaxRead e n s
  | .trsInCfgWrite i w => Sys2Proof.Machine.execTrsInCfgWrite i w s
  | .inputFrozen n k => Sys2Proof.Machine.execInputFrozen n k s
  | .inputRestored n k => Sys2Proof.Machine.execInputRestored n k s
  | .olvTimeout n => Sys2Proof.Machine.execOlvTimeout n s
  | .updateArm n late => Sys2Proof.Machine.execUpdateArm n late s
  | .tbHoldSet n => Sys2Proof.Machine.execTbHoldSet n s
  | .tbHoldClear n => Sys2Proof.Machine.execTbHoldClear n s
  | .pulseEdge n k => Sys2Proof.Machine.execPulseEdge n k s
  | .commutationEvent n cap level => Sys2Proof.Machine.execCommutationEvent n cap level s
  | .commutationHeldExpiry n => Sys2Proof.Machine.execCommutationHeldExpiry n s
  | .filterEdgeOut n k => Sys2Proof.Machine.execFilterEdgeOut n k s
  | .deadTimeEnd n k => Sys2Proof.Machine.execDeadTimeEnd n k s
  | .blankingEnd n k => Sys2Proof.Machine.execBlankingEnd n k s
  | .gfAssert n k level => Sys2Proof.Machine.execGfAssert n k level s
  | .tripWindowCrossing n c code => Sys2Proof.Machine.execTripWindowCrossing n c code s
  | .latchEnableRemoval n => Sys2Proof.Machine.execLatchEnableRemoval n s
  | .pwmHbEnWrite n w => Sys2Proof.Machine.execPwmHbEnWrite n w s
  | .gateTestWrite n w => Sys2Proof.Machine.execGateTestWrite n w s
  | .gateTestEnd n k => Sys2Proof.Machine.execGateTestEnd n k s
  | .adcGoWrite w => Sys2Proof.Machine.execAdcGoWrite w s
  | .adcConversionDone k raw => Sys2Proof.Machine.execAdcConversionDone k raw s
  | .plsStale p => Sys2Proof.Machine.execPlsStale p s
  | .urgGo k w => Sys2Proof.Machine.execUrgGo k w s
  | .urgentConversionDone k raw => Sys2Proof.Machine.execUrgentConversionDone k raw s
  | .calStart k => Sys2Proof.Machine.execCalStart k s
  | .coverBegin p => Sys2Proof.Machine.execCoverBegin p s
  | .calReferenceDone coefs raw => Sys2Proof.Machine.execCalReferenceDone coefs raw s
  | .calVerifyStale => Sys2Proof.Machine.execCalVerifyStale s
  | .endCover => Sys2Proof.Machine.execEndCover s
  | .sdmOutput c bits => Sys2Proof.Machine.execSdmOutput c bits s
  | .sdmAlignWait c => Sys2Proof.Machine.execSdmAlignWait c s
  | .sdmNoTransition c => Sys2Proof.Machine.execSdmNoTransition c s
  | .sdmShortFilterForce c bits => Sys2Proof.Machine.execSdmShortFilterForce c bits s
  | .captureEdge c edge => Sys2Proof.Machine.execCaptureEdge c edge s
  | .rxLock q e inverted => Sys2Proof.Machine.execRxLock q e inverted s
  | .rxLos q e => Sys2Proof.Machine.execRxLos q e s
  | .cellReceived q e c room => Sys2Proof.Machine.execCellReceived q e c room s
  | .nakReceived q e count => Sys2Proof.Machine.execNakReceived q e count s
  | .hopRetryGiveup q e => Sys2Proof.Machine.execHopRetryGiveup q e s
  | .lnkReceived q e w => Sys2Proof.Machine.execLnkReceived q e w s
  | .lnkSend q => Sys2Proof.Machine.execLnkSend q s
  | .almReceived q c1 c2 => Sys2Proof.Machine.execAlmReceived q c1 c2 s
  | .brkReceived q e c1 c2 => Sys2Proof.Machine.execBrkReceived q e c1 c2 s
  | .enumReturn q sent port e ids => Sys2Proof.Machine.execEnumReturn q sent port e ids s
  | .enumAbsent q => Sys2Proof.Machine.execEnumAbsent q s
  | .discoveryRetry q => Sys2Proof.Machine.execDiscoveryRetry q s
  | .nodeStale q l => Sys2Proof.Machine.execNodeStale q l s
  | .sweepStart q => Sys2Proof.Machine.execSweepStart q s
  | .sweepEnd q => Sys2Proof.Machine.execSweepEnd q s
  | .commandNoReply q => Sys2Proof.Machine.execCommandNoReply q s
  | .aqrCmdGo q => Sys2Proof.Machine.execAqrCmdGo q s
  | .aqrRediscover q => Sys2Proof.Machine.execAqrRediscover q s
  | .aqrSweepNow q => Sys2Proof.Machine.execAqrSweepNow q s
  | .deviceEndLinkUp q e => Sys2Proof.Machine.execDeviceEndLinkUp q e s
  | .endShort q e => Sys2Proof.Machine.execEndShort q e s
  | .endShortRetry q e still => Sys2Proof.Machine.execEndShortRetry q e still s
  | .shfClrAll => Sys2Proof.Machine.execShfClrAll s
  | .shfClrRing q => Sys2Proof.Machine.execShfClrRing q s
  | .shfAgg0Read q => Sys2Proof.Machine.execShfAgg0Read q s
  | .shelfInitDone => Sys2Proof.Machine.execShelfInitDone s
  | .envelopeCompute => Sys2Proof.Machine.execEnvelopeCompute s
  | .chsArm => Sys2Proof.Machine.execChsArm s
  | .chsStop => Sys2Proof.Machine.execChsStop s
  | .chsForce => Sys2Proof.Machine.execChsForce s
  | .chestSample k how => Sys2Proof.Machine.execChestSample k how s
  | .chestGapEnd drain => Sys2Proof.Machine.execChestGapEnd drain s
  | .postTimeout => Sys2Proof.Machine.execPostTimeout s
  | .dmaStart n => Sys2Proof.Machine.execDmaStart n s
  | .dmaStopReq n => Sys2Proof.Machine.execDmaStopReq n s
  | .dmaClearHalt => Sys2Proof.Machine.execDmaClearHalt s
  | .descriptorFetchDone n => Sys2Proof.Machine.execDescriptorFetchDone n s
  | .readBurstReturn n => Sys2Proof.Machine.execReadBurstReturn n s
  | .writeResponse n => Sys2Proof.Machine.execWriteResponse n s
  | .errorResponse kind n lastBeat addr => Sys2Proof.Machine.execErrorResponse kind n lastBeat addr s
  | .cvuData8 u w => Sys2Proof.Machine.execCvuData8 u w s
  | .cvuData16 u w => Sys2Proof.Machine.execCvuData16 u w s
  | .cvuData32 u w => Sys2Proof.Machine.execCvuData32 u w s
  | .cvuFeedDone u => Sys2Proof.Machine.execCvuFeedDone u s
  | .cvuLoadInit u => Sys2Proof.Machine.execCvuLoadInit u s
  | .cvuHiWrite u k hi => Sys2Proof.Machine.execCvuHiWrite u k hi s
  | .cvuLoRead u k => Sys2Proof.Machine.execCvuLoRead u k s
  | .timNsRead => Sys2Proof.Machine.execTimNsRead s
  | .timStepHiWrite hi => Sys2Proof.Machine.execTimStepHiWrite hi s
  | .timStepApply => Sys2Proof.Machine.execTimStepApply s
  | .timClrEst => Sys2Proof.Machine.execTimClrEst s
  | .timCapLoRead c => Sys2Proof.Machine.execTimCapLoRead c s
  | .ptpSyncReceived h => Sys2Proof.Machine.execPtpSyncReceived h s
  | .ptpFollowUpReceived h t1 => Sys2Proof.Machine.execPtpFollowUpReceived h t1 s
  | .ptpAnnounceReceived h dataset => Sys2Proof.Machine.execPtpAnnounceReceived h dataset s
  | .ptpDelayRespReceived h t4 => Sys2Proof.Machine.execPtpDelayRespReceived h t4 s
  | .ptpDelayReqSend seq => Sys2Proof.Machine.execPtpDelayReqSend seq s
  | .ptpListenFallback => Sys2Proof.Machine.execPtpListenFallback s
  | .ptpAnnounceTimeout => Sys2Proof.Machine.execPtpAnnounceTimeout s
  | .timeSet i secs ns => Sys2Proof.Machine.execTimeSet i secs ns s
  | .timeStep i d => Sys2Proof.Machine.execTimeStep i d s
  | .timeGet i => Sys2Proof.Machine.execTimeGet i s
  | .beatSlot linkA linkB toggleA toggleB => Sys2Proof.Machine.execBeatSlot linkA linkB toggleA toggleB s
  | .switchoverComplete took => Sys2Proof.Machine.execSwitchoverComplete took s
  | .bothEnginesSilent => Sys2Proof.Machine.execBothEnginesSilent s
  | .engineInternalError e cause => Sys2Proof.Machine.execEngineInternalError e cause s
  | .privResultClassify n standby cycles => Sys2Proof.Machine.execPrivResultClassify n standby cycles s
  | .privResultCompare n k upset => Sys2Proof.Machine.execPrivResultCompare n k upset s
  | .redReload i => Sys2Proof.Machine.execRedReload i s
  | .redReloadDone => Sys2Proof.Machine.execRedReloadDone s
  | .redExchange i => Sys2Proof.Machine.execRedExchange i s
  | .sinLevelChange x trackB closed => Sys2Proof.Machine.execSinLevelChange x trackB closed s
  | .sinDemandValid x => Sys2Proof.Machine.execSinDemandValid x s
  | .sinDemandEnd x => Sys2Proof.Machine.execSinDemandEnd x s
  | .sinDiscrepancy x => Sys2Proof.Machine.execSinDiscrepancy x s
  | .soutTestDue k => Sys2Proof.Machine.execSoutTestDue k s
  | .soutTestEnd k srb => Sys2Proof.Machine.execSoutTestEnd k srb s
  | .srbReadbackCheck k srb => Sys2Proof.Machine.execSrbReadbackCheck k srb s
  | .postReleaseTest k => Sys2Proof.Machine.execPostReleaseTest k s
  | .highboyTick speeds => Sys2Proof.Machine.execHighboyTick speeds s
  | .settleSnapshotReceived n words => Sys2Proof.Machine.execSettleSnapshotReceived n words s
  | .settleSilent => Sys2Proof.Machine.execSettleSilent s
  | .rcFrequencyCheck ok => Sys2Proof.Machine.execRcFrequencyCheck ok s
  | .settleCrcCheck ok => Sys2Proof.Machine.execSettleCrcCheck ok s
  | .settleLockstepFault => Sys2Proof.Machine.execSettleLockstepFault s
  | .coverTooLong => Sys2Proof.Machine.execCoverTooLong s
  | .safSs1Req mask => Sys2Proof.Machine.execSafSs1Req mask s
  | .safStoReq mask => Sys2Proof.Machine.execSafStoReq mask s
  | .safRelease mask pathOk => Sys2Proof.Machine.execSafRelease mask pathOk s
  | .releaseReadback srb => Sys2Proof.Machine.execReleaseReadback srb s
  | .mbxClaimRead => Sys2Proof.Machine.execMbxClaimRead s
  | .mbxDoorbellWrite i => Sys2Proof.Machine.execMbxDoorbellWrite i s
  | .mbxFreeWrite w => Sys2Proof.Machine.execMbxFreeWrite w s
  | .claimExpiry i => Sys2Proof.Machine.execClaimExpiry i s
  | .commandStart units => Sys2Proof.Machine.execCommandStart units s
  | .commandTimeout i => Sys2Proof.Machine.execCommandTimeout i s
  | .jobEnd j => Sys2Proof.Machine.execJobEnd j s
  | .jobHoldExpiry j => Sys2Proof.Machine.execJobHoldExpiry j s
  | .udpDatagram e v6 plain addr port dport msg => Sys2Proof.Machine.execUdpDatagram e v6 plain addr port dport msg s
  | .canFdSegment c ident fd data => Sys2Proof.Machine.execCanFdSegment c ident fd data s
  | .canSegmentTimeout c p => Sys2Proof.Machine.execCanSegmentTimeout c p s
  | .i2cWriteTransaction bs => Sys2Proof.Machine.execI2cWriteTransaction bs s
  | .i2cReadTransaction n => Sys2Proof.Machine.execI2cReadTransaction n s
  | .modbusRead p fc r n => Sys2Proof.Machine.execModbusRead p fc r n s
  | .modbusConnect => Sys2Proof.Machine.execModbusConnect s
  | .sessionTimeout p => Sys2Proof.Machine.execSessionTimeout p s
  | .ethLinkChange e up => Sys2Proof.Machine.execEthLinkChange e up s
  | .echo i => Sys2Proof.Machine.execEcho i s
  | .devInfo i => Sys2Proof.Machine.execDevInfo i s
  | .authChallenge i => Sys2Proof.Machine.execAuthChallenge i s
  | .authResponse i c => Sys2Proof.Machine.execAuthResponse i c s
  | .jobStatus i => Sys2Proof.Machine.execJobStatus i s
  | .jobCancel i => Sys2Proof.Machine.execJobCancel i s
  | .stageWrite i ofs data => Sys2Proof.Machine.execStageWrite i ofs data s
  | .stageRead i ofs len => Sys2Proof.Machine.execStageRead i ofs len s
  | .regRead i addr n => Sys2Proof.Machine.execRegRead i addr n s
  | .regWrite i addr ws late => Sys2Proof.Machine.execRegWrite i addr ws late s
  | .memRead i addr n => Sys2Proof.Machine.execMemRead i addr n s
  | .paramRead i => Sys2Proof.Machine.execParamRead i s
  | .paramWrite i late => Sys2Proof.Machine.execParamWrite i late s
  | .paramInfo i p => Sys2Proof.Machine.execParamInfo i p s
  | .ringCmd i q op node count arg cells data => Sys2Proof.Machine.execRingCmd i q op node count arg cells data s
  | .shelfRead i q l first n => Sys2Proof.Machine.execShelfRead i q l first n s
  | .ringSetUid i q first last => Sys2Proof.Machine.execRingSetUid i q first last s
  | .bureauStage i c sig => Sys2Proof.Machine.execBureauStage i c sig s
  | .bureauCountersign i supplyOk => Sys2Proof.Machine.execBureauCountersign i supplyOk s
  | .bureauAbort i => Sys2Proof.Machine.execBureauAbort i s
  | .bureauExpiry => Sys2Proof.Machine.execBureauExpiry s
  | .bureauProgramDone => Sys2Proof.Machine.execBureauProgramDone s
  | .fwStage i ofs len hash => Sys2Proof.Machine.execFwStage i ofs len hash s
  | .fwStageDone j readback => Sys2Proof.Machine.execFwStageDone j readback s
  | .fwActivate i => Sys2Proof.Machine.execFwActivate i s
  | .fwConfirm i => Sys2Proof.Machine.execFwConfirm i s
  | .fwRevert i => Sys2Proof.Machine.execFwRevert i s
  | .attest i => Sys2Proof.Machine.execAttest i s
  | .certRead i => Sys2Proof.Machine.execCertRead i s
  | .pwrStateRun i => Sys2Proof.Machine.execPwrStateRun i s
  | .pwrStateStandby i => Sys2Proof.Machine.execPwrStateStandby i s
  | .pwrStateRetain i => Sys2Proof.Machine.execPwrStateRetain i s
  | .pwrBankAck i => Sys2Proof.Machine.execPwrBankAck i s
  | .slkDistribute i kind mask ofs len hash => Sys2Proof.Machine.execSlkDistribute i kind mask ofs len hash s
  | .slkDistributeTimeout j => Sys2Proof.Machine.execSlkDistributeTimeout j s
  | .slkRecover i target actions kind ofs len hash nonce report => Sys2Proof.Machine.execSlkRecover i target actions kind ofs len hash nonce report s
  | .slkRecoverWaitTimeout j => Sys2Proof.Machine.execSlkRecoverWaitTimeout j s
  | .secDbgReq => Sys2Proof.Machine.execSecDbgReq s
  | .secDbgDataWrite ws => Sys2Proof.Machine.execSecDbgDataWrite ws s
  | .secDbgClose => Sys2Proof.Machine.execSecDbgClose s
  | .mgmtWatchdogExpiry => Sys2Proof.Machine.execMgmtWatchdogExpiry s
  | .pllLost p => Sys2Proof.Machine.execPllLost p s
  | .islandSwitchoverDone took => Sys2Proof.Machine.execIslandSwitchoverDone took s
  | .pllRestartAttempt p => Sys2Proof.Machine.execPllRestartAttempt p s
  | .digLockChange p on => Sys2Proof.Machine.execDigLockChange p on s
  | .analogLockChange p on => Sys2Proof.Machine.execAnalogLockChange p on s
  | .twinReady p => Sys2Proof.Machine.execTwinReady p s
  | .referenceLost => Sys2Proof.Machine.execReferenceLost s
  | .referenceReturned good => Sys2Proof.Machine.execReferenceReturned good s
  | .buildoutDone steps => Sys2Proof.Machine.execBuildoutDone steps s
  | .refBadRecheck good => Sys2Proof.Machine.execRefBadRecheck good s
  | .clkPhaseStepWrite p steps => Sys2Proof.Machine.execClkPhaseStepWrite p steps s
  | .phaseStepMade p => Sys2Proof.Machine.execPhaseStepMade p s
  | .avsVoltageRequest => Sys2Proof.Machine.execAvsVoltageRequest s
  | .avsStatusPoll crcOk vdone vread => Sys2Proof.Machine.execAvsStatusPoll crcOk vdone vread s
  | .avsRequestFailed => Sys2Proof.Machine.execAvsRequestFailed s
  | .retainEntryDone => Sys2Proof.Machine.execRetainEntryDone s
  | .wakeEvent src q => Sys2Proof.Machine.execWakeEvent src q s
  | .wakeComplete fails => Sys2Proof.Machine.execWakeComplete fails s
  | .wakeRegulatorRetry => Sys2Proof.Machine.execWakeRegulatorRetry s
  | .powerOnReset => Sys2Proof.Machine.execPowerOnReset s
  | .brownOut => Sys2Proof.Machine.execBrownOut s
  | .porstNAssert => Sys2Proof.Machine.execPorstNAssert s
  | .coreUndervoltage => Sys2Proof.Machine.execCoreUndervoltage s
  | .resetEnd bid wired vread => Sys2Proof.Machine.execResetEnd bid wired vread s
  | .bootImageCheckDone => Sys2Proof.Machine.execBootImageCheckDone s
  | .settleBootDone testsOk pathOk => Sys2Proof.Machine.execSettleBootDone testsOk pathOk s
  | .bootVcoreRetry vread => Sys2Proof.Machine.execBootVcoreRetry vread s
  | .slkHello p h => Sys2Proof.Machine.execSlkHello p h s
  | .slkAck p h q => Sys2Proof.Machine.execSlkAck p h q s
  | .slkNak p h q => Sys2Proof.Machine.execSlkNak p h q s
  | .slkBeat p h => Sys2Proof.Machine.execSlkBeat p h s
  | .slkData p h ofs data => Sys2Proof.Machine.execSlkData p h ofs data s
  | .slkDataEnd p h kind len hash readback body => Sys2Proof.Machine.execSlkDataEnd p h kind len hash readback body s
  | .slkResult p h status => Sys2Proof.Machine.execSlkResult p h status s
  | .slkXchk p h i tick v => Sys2Proof.Machine.execSlkXchk p h i tick v s
  | .slkAlignPacket p h phiM pulse => Sys2Proof.Machine.execSlkAlignPacket p h phiM pulse s
  | .slkAttestReq p h nonce => Sys2Proof.Machine.execSlkAttestReq p h nonce s
  | .slkAttestRep p h report => Sys2Proof.Machine.execSlkAttestRep p h report s
  | .slkMgmtRestart p h => Sys2Proof.Machine.execSlkMgmtRestart p h s
  | .slkFullReset p h => Sys2Proof.Machine.execSlkFullReset p h s
  | .slkMonitorActivate p h => Sys2Proof.Machine.execSlkMonitorActivate p h s
  | .slkUnknownPacket p h => Sys2Proof.Machine.execSlkUnknownPacket p h s
  | .slkAckTimeout p q => Sys2Proof.Machine.execSlkAckTimeout p q s
  | .slkHelloSend p => Sys2Proof.Machine.execSlkHelloSend p s
  | .slkBeatSend p => Sys2Proof.Machine.execSlkBeatSend p s
  | .slkLinkTimeout p => Sys2Proof.Machine.execSlkLinkTimeout p s
  | .slkAlignGo => Sys2Proof.Machine.execSlkAlignGo s
  | .syncEdge phiA phiB => Sys2Proof.Machine.execSyncEdge phiA phiB s
  | .alignStartPulse => Sys2Proof.Machine.execAlignStartPulse s
  | .alignTbRelease => Sys2Proof.Machine.execAlignTbRelease s
  | .alignCheckPulse => Sys2Proof.Machine.execAlignCheckPulse s
  | .xchkUnpaired i => Sys2Proof.Machine.execXchkUnpaired i s
  | .jtagInstructionLoad code => Sys2Proof.Machine.execJtagInstructionLoad code s
  | .tapReset => Sys2Proof.Machine.execTapReset s
  | .senChange n level => Sys2Proof.Machine.execSenChange n level s
  | .srbLevelChange k level => Sys2Proof.Machine.execSrbLevelChange k level s
  | .aggStaleTimeout q => Sys2Proof.Machine.execAggStaleTimeout q s
  | .wrapSilenceEnd q e => Sys2Proof.Machine.execWrapSilenceEnd q e s
  | .mgmtFirmwareReady => Sys2Proof.Machine.execMgmtFirmwareReady s
  | .lowboyOscillatorStop => Sys2Proof.Machine.execLowboyOscillatorStop s
  | .timAonLoRead => Sys2Proof.Machine.execTimAonLoRead s
  | .otpReadDataRead => Sys2Proof.Machine.execOtpReadDataRead s
  | .modbusDisconnect => Sys2Proof.Machine.execModbusDisconnect s
  | .icmpArpNdFrame e kind v6 own addr data => Sys2Proof.Machine.execIcmpArpNdFrame e kind v6 own addr data s

end Sys2Proof.Machine
end

