-- ==== Sys2Proof/Safety.lean ====
section
/-! DEFINITION. What a state that claims speak of looks like: its memories in their canonical form. -/

namespace Sys2Proof.Machine

/-- The internal memories and the pigeonholes list only what differs from their defaults, by rising address. -/
abbrev Memory.wf (s : State) : Bool := twf memDefault s.mem && twf holeDefault s.holes

end Sys2Proof.Machine
end

