-- ==== Sys2Proof/WellFormed.lean ====
section
/-! DEFINITION. Commands as the outside world can send them: bounds that its interfaces put on data, beyond what the types
of the operands say. A command that breaks one has a meaning all the same; no claim about it is a claim about the device. -/

namespace Sys2Proof

/-- A cell on a ring starts with SOF, SOC or SOR, and unless it is cut short a header cell (TYPE 0) has eight bytes of
payload and every other cell sixteen (R231, R232). -/
def RingCell.wf (c : RingCell) : Bool :=
  decide (c.start < 3) && (c.cut || c.payload.length == (if c.header.toNat / 2 ^ 14 = 0 then 8 else 16))

/-- Bounds of one command. -/
def Instr.wf : Instr → Bool
  | .spiReadIncrementing _ _ _ _ clocked | .spiReadFixed _ _ _ _ clocked => decide (clocked ≤ 64)
  | .spiWriteIncrementing _ _ data _ _ | .spiWriteFixed _ _ data _ _ => decide (data.length ≤ 256)
  | .cellReceived _ _ c _ => c.wf
  | .enumReturn _ _ _ _ ids => decide (ids.length ≤ 512)
  | .udpDatagram _ _ _ _ _ _ msg => decide (msg.length ≤ 1472)
  | .canFdSegment _ _ _ data => decide (data.length ≤ 64)
  | .icmpArpNdFrame _ _ _ _ _ data => decide (data.length ≤ 1472)
  | .sdmOutput _ bits => decide (bits.length ≤ 1024)
  | .sdmShortFilterForce _ bits => decide (bits.length ≤ 63)
  | .modbusRead _ _ r n => decide (r < 65536) && decide (n < 65536)
  | .trsImageWrite _ ofs len hash _ | .trsTableWrite _ _ ofs len hash | .trsCompWrite _ _ _ ofs len hash
  | .fwStage _ ofs len hash | .slkDistribute _ _ _ ofs len hash => decide (ofs < 2 ^ 32) && decide (len < 2 ^ 32) && hash.length == 48
  | .stageWrite _ ofs data => decide (ofs < 2 ^ 32) && decide (data.length ≤ 1008)
  | .regWrite _ addr ws _ => decide (addr < 2 ^ 32) && decide (ws.length ≤ 251)
  | .ringCmd _ _ _ _ _ _ cells data => decide (cells ≤ 4) && decide (data.length ≤ 16)
  | .slkData _ _ ofs data => decide (ofs < 2 ^ 32) && decide (data.length ≤ 1016)
  | .secDbgDataWrite ws => decide (ws.length ≤ 24)
  | _ => true

end Sys2Proof
end

