-- ==== Sys2Proof/Certificates/Slice0/Obligations.lean ====
section
/-! DEFINITION. What is claimed of the block. Each statement names the rules of the manual that it rests on. `… = .next t` says that
a command completes with exactly that state, so what is not named there stays as it was. -/

open Sys2Proof Sys2Proof.Machine

/-- What holds while the command in slot `i` with opcode `op` reaches its point of effect: the firmware runs, the slot
executes, and no job holds a unit that it names (R370). -/
def Sys2Proof.CommandRuns (s : State) (i op : Nat) : Prop :=
  s.fwRuns = true ∧ s.executes i op = true ∧ s.jobHolds (s.slotOf i).units = false

/-- What holds while a sound packet arrives on a port that is UP (R455, R456). -/
def Sys2Proof.PacketTaken (s : State) (p : Fin 3) (h : SlkHdr) : Prop :=
  s.devRuns = true ∧ s.slkOn = true ∧ s.fld (SLK_PORT_STATE p) = 2 ∧ h.crcOk = true

/-- The state with the ACK of a packet sent. -/
def Sys2Proof.acked (s : State) (p : Fin 3) (h : SlkHdr) : State := s.slkSend p 0x02 h.tag (leBytesN 4 h.seq)

/-- A condition of a start that has held long enough is noted: the enables go high at the next boundary, or at once
while the timebase is stopped (R88, R89, R99, R489). A start whose time runs out fails with its FAIL_REASON (R88, R90,
R93, R102, R103). The breaker contact of a station changes level (R88, R96, R100): in a start whose rotor is steered
toward the bus the steering ends and P_GOV restarts from 0, also in a stop out of it; a start with its enables low
fails. -/
def Obligations.Starts : Prop :=
  (∀ (n : Fin 4) (s : State), s.islandsRun = true →
     ((s.stnOf n).st = .deadBusStart → (s.stnOf n).start.phase = .deadCheck → (s.stnOf n).start.deadOk = true →
       exec (.deadBusConfirmed n) s = .next ((s.onStart n (fun x => { x with confirmed := true })).settleStopped n)) ∧
     ((s.stnOf n).st = .synchronising → (s.stnOf n).start.phase = .busCheck → (s.stnOf n).start.busLiveOk = true →
       exec (.busLiveConfirmed n) s = .next ((s.onStart n (fun x => { x with confirmed := true })).settleStopped n)) ∧
     ((s.pwmOf n).run = true → ∀ f, (s.onStart n f).settleStopped n = s.onStart n f) ∧
     ((s.stnOf n).st = .synchronising → (s.stnOf n).start.phase = .matching → (s.stnOf n).start.winOk = true →
       exec (.syncWindowHeld n) s =
         .next ((s.onStart n (fun x => { x with phase := .window })).setFlag (GFM_SBS_FLAGS_SYNC_WINDOW n))) ∧
     ((s.stnOf n).st ≠ .deadBusStart → (s.stnOf n).st ≠ .synchronising →
       exec (.biasDecayEnd n) s = .next (s.onStart n (fun x => { x with bias := ⟨0, 0⟩, biasAtRun := ⟨0, 0⟩ })))) ∧
  (∀ (n : Fin 4) (s : State), s.islandsRun = true →
     ((s.stnOf n).st = .deadBusStart → (s.stnOf n).start.phase = .deadCheck → (s.stnOf n).start.confirmed = false →
       exec (.deadBusLiveTimeout n) s = .next (s.failStart n 1)) ∧
     ((s.stnOf n).st = .deadBusStart ∨ (s.stnOf n).st = .synchronising → (s.stnOf n).start.holding = true →
       exec (.holdTimeout n) s = .next (s.failStart n 2)) ∧
     ((s.stnOf n).st = .synchronising → exec (.syncTimeout n) s = .next (s.failStart n 3)) ∧
     ((s.stnOf n).st = .synchronising → (s.stnOf n).start.phase = .busGap →
       exec (.busGapTimeout n) s = .next (s.failStart n 4))) ∧
  (∀ (n : Fin 4) (c : Nat) (s : State), s.islandsRun = true → s.brkInput n = some c →
     ((s.stnOf n).st = .synchronising → (s.stnOf n).enHigh = true → (s.stnOf n).start.complete = false →
       (s.stnOf n).start.phase = .window → s.fld (GFM_CTRL_START_MODE n) ≠ 2 →
       exec (.breakerInputChange n true) s =
         .next (((s.onCap c (fun x => { x with level := true })).joinBus n).settleStopped n)) ∧
     ((s.stnOf n).st = .stopping → (s.stnOf n).stopFrom = .synchronising → (s.stnOf n).start.complete = false →
       exec (.breakerInputChange n true) s = .next ((s.onCap c (fun x => { x with level := true })).joinBus n)) ∧
     (((s.joinBus n).stnOf n).core.pGov = 0 ∧ ((s.joinBus n).stnOf n).start.complete = true) ∧
     ((s.stnOf n).st = .synchronising → (s.stnOf n).enHigh = false → (s.stnOf n).start.complete = false →
       exec (.breakerInputChange n true) s = .next ((s.onCap c (fun x => { x with level := true })).failStart n 5)) ∧
     ((s.stnOf n).st = .deadBusStart →
       exec (.breakerInputChange n false) s = .next ((s.onCap c (fun x => { x with level := false })).failStart n 5)) ∧
     ((s.stnOf n).st = .running →
       ∀ lv, exec (.breakerInputChange n lv) s = .next (s.onCap c (fun x => { x with level := lv }))))

/-- What a failed start leaves: its reason, START_FAIL, and the station in TRIPPED with every enable low (R93, R121).
A trip with one cause: GFM_TRIP_CAUSE holds it as FIRST and as its bit of ALL, and no half-bridge stays enabled
(R121). A change that the station made in the same period is taken back first (R78, R123). Entry to RUNNING from a
fault sets CLEARED (R116), and a limiter force turns the half-bridge's level at once (R112, R185): other half-bridges
keep theirs. -/
def Obligations.TripsAndFailedStarts : Prop :=
  (∀ (n : Fin 4) (s : State) (r : Nat), r < 16 → s.pendSet = [] → (s.stnOf n).turn = none → (s.stnOf n).st ≠ .disabled →
     (s.stnOf n).st ≠ .tripped →
     ((s.failStart n r).stnOf n).st = .tripped ∧ ((s.failStart n r).stnOf n).prev = (s.stnOf n).st ∧
     (s.failStart n r).fld (GFM_START_STATUS_FAIL_REASON n) = r ∧
     (s.failStart n r).flag (GFM_SBS_FLAGS_START_FAIL n) = true ∧
     ∀ k, (s.failStart n r).effEnable n k = false) ∧
  ((∀ (n : Fin 4) (s : State) (code : Nat), 1 ≤ code → code ≤ 11 → s.pendSet = [] → (s.stnOf n).trips = [] →
     (s.stnOf n).turn = none → (s.stnOf n).st ≠ .disabled → (s.stnOf n).st ≠ .tripped →
     ((s.tripNow n code).stnOf n).st = .tripped ∧ ((s.tripNow n code).stnOf n).prev = (s.stnOf n).st ∧
     (s.tripNow n code).reg (GFM_TRIP_CAUSE n) = BitVec.ofNat 32 (code + 2 ^ (code - 1) * 65536) ∧
     ∀ k, k < 12 → ((s.tripNow n code).hbOf n k).eff = false) ∧
   (∀ (n : Fin 4) (s : State) (code : Nat) (t : Turn), (s.stnOf n).turn = some t → t.st ≠ .disabled → t.st ≠ .tripped →
     (s.stnOf n).st ≠ .disabled →
     ((s.tripNow n code).stnOf n).st = .tripped ∧ ((s.tripNow n code).stnOf n).prev = t.st)) ∧
  ((∀ (n : Fin 4) (s : State), (s.stnOf n).st = .limiting ∨ (s.stnOf n).st = .rideThrough →
     ((s.enterRunning n).stnOf n).st = .running ∧ (s.enterRunning n).flag (GFM_FRT_FLAGS_CLEARED n) = true) ∧
   (∀ (n : Fin 4) (k : Fin 12) (lv : Bool) (s : State), (s.stnOf n).enHigh = true →
     ((s.forceHb n k lv).hbOf n k).filt = lv ∧ ((s.forceHb n k lv).hbOf n k).force = some lv ∧
     ((s.forceHb n k lv).hbOf n k).pend = [] ∧ (s.forceHb n k lv).flag (GFM_FRT_FLAGS_HWLIM n) = true ∧
     ∀ j, j < 12 → j ≠ k.val → (s.forceHb n k lv).hbOf n j = s.hbOf n j))

/-- Events that trip a station name their cause (R114, R117, R118, R160). The ceiling falls after T_FC, a fault
clears, and the limit window forces (R108, R112, R116, R192). -/
def Obligations.RideThroughEvents : Prop :=
  (∀ (n : Fin 4) (s : State), s.islandsRun = true →
     (0 < (s.pwmOf n).hwlConsec → s.par n parHWL_CYCLES ≤ ((s.pwmOf n).hwlConsec : Rat) →
       exec (.hwlimPersist n) s = .next (s.tripNow n 3)) ∧
     ((s.stnOf n).inRide = true →
       s.par n parT_RT1 ≤ (s.stnOf n).ride.time ∨ reached (s.stnOf n).ride.below (s.cycleSec n) = true →
       exec (.rtCurveTrip n) s = .next (s.tripNow n 7)) ∧
     (s.windowsOn n = true → s.vOutside n = true → exec (.vWindowTrip n) s = .next (s.tripNow n 8)) ∧
     (s.windowsOn n = true → s.fOutside n = true → exec (.fWindowTrip n) s = .next (s.tripNow n 9)) ∧
     ((s.stnOf n).stHere = .openLoopV → exec (.olvTimeout n) s = .next (s.tripNow n 10)) ∧
     ((s.stnOf n).st = .rideThrough → (s.stnOf n).inRide = true) ∧
     (s.stnType n = 0 → (s.stnOf n).st = .running ∨ (s.stnOf n).st = .limiting → s.windowsOn n = true) ∧
     ((s.stnOf n).st = .openLoopV → (s.stnOf n).stHere = .openLoopV)) ∧
  (∀ (n : Fin 4) (s : State), s.islandsRun = true →
     ((s.stnOf n).enHigh = true → (s.stnOf n).st ≠ .running → (s.stnOf n).lim.ceilAtOvl = false →
       s.par n parT_FC * 1000 < (s.stnOf n).lim.limTime →
       exec (.ceilOvl n) s =
         .next (((s.onLim n (fun l =>
           { l with iCeil := ratMin l.fcBudget (s.par n parI_OVL), ceilAtOvl := true })).setFlag
             (GFM_FRT_FLAGS_CEIL_OVL n)).onPer n (fun p =>
           { p with ceilNew := !s.flag (GFM_FRT_FLAGS_CEIL_OVL n) }))) ∧
     (s.stopWanted n = false → s.mayTurn n 9 = true → (s.stnOf n).st = .rideThrough → (s.stnOf n).lim.vOk = true →
       s.par n parT_CLR ≤ (s.stnOf n).lim.vOkTime →
       exec (.clearConfirmed n) s =
         .next (if (s.stnOf n).limitingNow then s.enterLimiting n 9 else s.clearFault n)) ∧
     (s.stopWanted n = false → s.mayTurn n 9 = true → (s.stnOf n).st = .limiting → (s.stnOf n).limitingNow = false →
       (s.stnOf n).lim.calm = true → s.par n parT_CLR ≤ (s.stnOf n).lim.calmTime →
       exec (.clearConfirmed n) s = .next (s.clearFault n)) ∧
     (∀ (c : Fin 6) (code : BitVec 12), s.grantS n = true → s.flag (GATE_WCMP_CFG_EN n c) = true →
       s.fld (GATE_WCMP_LIM_LO n c) < s.fld (GATE_WCMP_LIM_HI n c) → s.fld (GATE_WCMP_LIM_HI n c) < code.toNat →
       exec (.limitWindowCrossing n c code) s =
         .next ((s.onWcomp n c (fun w => { w with lim := 1 })).forceHb n (s.fld (GATE_WCMP_CFG_HB n c)) false)))

/-- Run and stop requests write GFM_CTRL, and a reset request takes a station whose trip has gone to READY (R78). Rows
of R78 at a boundary: a wanted stop leads to STOPPING, a complete start to RUNNING, a run request that nothing refuses
to DEAD_BUS_START with the period count at 0 (R38, R78, R488). -/
def Obligations.RequestsAndRows : Prop :=
  (∀ (n : Fin 4) (w : Word) (s : State), s.islandsRun = true → s.grantS n = true → (s.pwmOf n).run = true →
     (bits w 8 2 = 1 → s.grantMachine = true) →
     ((s.stnOf n).idle = true → (s.stnOf n).st ≠ .disabled → bit w 12 = false → bits w 8 2 ≠ 3 → bits w 4 3 ≤ 2 →
       exec (.gfmRunRequest n w) s =
         .next (((s.setFld (GFM_CTRL_TYPE n) (bits w 8 2)).setFld (GFM_CTRL_START_MODE n) (bits w 4 3)).setFld
           (GFM_CTRL_RUN_REQ n) 1)) ∧
     ((s.stnOf n).idle = false → bit w 12 = false → bits w 8 2 = s.fld (GFM_CTRL_TYPE n) →
       bits w 4 3 = s.fld (GFM_CTRL_START_MODE n) → s.flag (GFM_CTRL_RUN_REQ n) = true →
       exec (.gfmStopRequest n w) s =
         .next ((((s.setFld (GFM_CTRL_TYPE n) (bits w 8 2)).setFld (GFM_CTRL_START_MODE n) (bits w 4 3)).setFld
           (GFM_CTRL_RUN_REQ n) 0).onStn n (fun u => { u with stopReq := true })))) ∧
  (∀ (n : Fin 4) (s : State), (s.stnOf n).tripDue = false →
     ((s.stnOf n).st = .running → (∀ t, (s.stnOf n).turn = some t → t.st = .running) →
       s.flag (GFM_CTRL_RUN_REQ n) = false →
       ((s.stationBoundary n).stnOf n).st = .stopping ∧ ((s.stationBoundary n).stnOf n).prev = .running) ∧
     ((s.stnOf n).st = .deadBusStart → (s.stnOf n).stopReq = false → s.flag (GFM_CTRL_RUN_REQ n) = true →
       s.sen.getLsbD n = true → (s.stnOf n).start.complete = true → ((s.stationBoundary n).stnOf n).st = .running) ∧
     ((s.stnOf n).st = .ready → s.flag (GFM_CTRL_RUN_REQ n) = true → s.sen.getLsbD n = true →
       s.fld PWR_STATUS_BANK_FAIL = 0 → s.settingsComplete n = true → s.dtM n ≤ 1 / 100 →
       s.parDec n parD * s.dtV n ≤ 1 / 5 → s.requestsHeld n = false → s.stnType n = 0 →
       s.fld (GFM_CTRL_START_MODE n) = 0 →
       ((s.stationBoundary n).stnOf n).st = .deadBusStart ∧ ((s.stationBoundary n).stnOf n).count = 0 ∧
       ((s.stationBoundary n).stnOf n).start.phase = .deadCheck))

/-- A reset request in TRIPPED, with no half-bridge latched and nothing that holds the station: TRIP_CAUSE and
FAIL_REASON clear and the station is READY (R78, R191). -/
def Obligations.ResetRequest : Prop :=
  ∀ (n : Fin 4) (w : Word) (s : State), s.islandsRun = true → s.grantS n = true → (s.pwmOf n).run = true → s.pendSet = [] →
    (bits w 8 2 = 1 → s.grantMachine = true) → bits w 8 2 = s.fld (GFM_CTRL_TYPE n) →
    (s.stnOf n).st = .tripped → s.requestsHeld n = false → s.rated n = true → s.fld (GATE_LATCH_LATCHED n) = 0 →
    ∃ t, exec (.gfmResetRequest n w) s = .next t ∧ (t.stnOf n).st = .ready ∧ t.reg (GFM_TRIP_CAUSE n) = 0 ∧
      t.fld (GFM_START_STATUS_FAIL_REASON n) = 0 ∧ t.fld (GATE_TRIP_VALID n) = 0 ∧ (t.safeOf n).follows = false

/-- A write of a station parameter: a shadowed one waits for the next boundary, an idle-only one acts at once on an
idle station, one that changes nothing is not refused, and a value that its row refuses is counted (R16, R49, R63 to
R65). -/
def Obligations.ParameterWrites : Prop :=
  ∀ (n : Fin 4) (i : BitVec 8) (w : Word) (late : Bool) (s : State) (p : ParamDesc), s.islandsRun = true →
    s.grantS n = true → parDesc i.toNat = some p → p.acc ≠ .ro →
    (∀ v, parCheck p w = some v → p.cls ≠ .idle → (i.toNat = parD → s.stnIdle n = true) →
      exec (.gfmParWrite n i w late) s =
        .next ((s.setReg (GFM_PAR n i.toNat) v).setFlagIf late (GFM_CORE_FLAGS_LATE_WRITE n))) ∧
    (∀ v, parCheck p w = some v → p.cls ≠ .idle → i.toNat = parD → s.stnIdle n = false →
      exec (.gfmParWrite n i w late) s =
        .next (if 1 / 5 < (roundAway (f32ToRat v / p.res) : Rat) * p.res * s.dtV n then
            (s.setFlag (GFM_CORE_FLAGS_PARAM_REJECTED n)).count (GFM_CORE_CNT1_PARAM_REJECT_CNT n)
          else (s.setReg (GFM_PAR n i.toNat) v).setFlagIf late (GFM_CORE_FLAGS_LATE_WRITE n))) ∧
    (∀ v, parCheck p w = some v → p.cls = .idle → v ≠ s.reg (GFM_PAR n i.toNat) → s.stnIdle n = true →
      exec (.gfmParWrite n i w late) s =
        .next (if i.toNat = parS_BASE ∨ i.toNat = parV_BASE then
            ((s.setBoth (GFM_PAR n i.toNat) v).refreshRated n).limitCodes n
          else (s.setBoth (GFM_PAR n i.toNat) v).refreshRated n)) ∧
    (∀ v, parCheck p w = some v → p.cls = .idle → v = s.reg (GFM_PAR n i.toNat) →
      exec (.gfmParWrite n i w late) s = .next s) ∧
    (∀ v, parCheck p w = some v → p.cls = .idle → v ≠ s.reg (GFM_PAR n i.toNat) → s.stnIdle n = false →
      exec (.gfmParWrite n i w late) s = .next (s.setFlag (GFM_CORE_FLAGS_WRITE_REFUSED n))) ∧
    (parCheck p w = none →
      exec (.gfmParWrite n i w late) s =
        .next ((s.setFlag (GFM_CORE_FLAGS_PARAM_REJECTED n)).count (GFM_CORE_CNT1_PARAM_REJECT_CNT n)))

/-- An envelope is committed whole or refused and counted (R32, R33); the fallback is due once the age has passed
(R34). At a boundary the committed set comes into force, else a due fallback to the OTP set does (R32, R34, R73). -/
def Obligations.EnvelopeRules : Prop :=
  (∀ (n : Fin 4) (seq : Word) (late : Bool) (s : State), s.islandsRun = true → s.grantS n = true →
     (seq ≠ s.reg (GFM_ENV_SEQ n) → envOk (s.reg (GFM_ENV_PDIS n)) 4 = true → envOk (s.reg (GFM_ENV_PCHG n)) 4 = true →
       envOk (s.reg (GFM_ENV_ERES n)) 600 = true →
       exec (.gfmEnvSeqWrite n seq late) s =
         .next (((s.setBoth (GFM_ENV_SEQ n) seq).setFlagIf late (GFM_CORE_FLAGS_LATE_WRITE n)).onStn n (fun u =>
           { u with
             envWait := some
               { pdis := f32ToRat (s.reg (GFM_ENV_PDIS n)), pchg := f32ToRat (s.reg (GFM_ENV_PCHG n)),
                 eres := f32ToRat (s.reg (GFM_ENV_ERES n)), seq := seq, otp := false } }))) ∧
     (seq ≠ s.reg (GFM_ENV_SEQ n) →
       envOk (s.reg (GFM_ENV_PDIS n)) 4 = false ∨ envOk (s.reg (GFM_ENV_PCHG n)) 4 = false ∨
         envOk (s.reg (GFM_ENV_ERES n)) 600 = false →
       exec (.gfmEnvSeqWrite n seq late) s =
         .next (((s.setBoth (GFM_ENV_SEQ n) seq).setFlagIf late (GFM_CORE_FLAGS_LATE_WRITE n)).count
           (GFM_ENV_STATUS_ENV_REJECT n))) ∧
     (exec (.gfmEnvSeqWrite n (s.reg (GFM_ENV_SEQ n)) late) s = .next s) ∧
     ((s.stnOf n).env.otp = false →
       exec (.envFallback n) s = .next (s.onStn n (fun u => { u with fallbackDue := true })))) ∧
  (∀ (n : Fin 4) (s : State),
     (∀ e, (s.stnOf n).envWait = some e →
       ((s.envBoundary n).stnOf n).env = e ∧ ((s.envBoundary n).stnOf n).envWait = none ∧
        ((s.envBoundary n).stnOf n).envAt = some s.now ∧
       (s.envBoundary n).fld (GFM_ENV_STATUS_ENV_FALLBACK n) = 0) ∧
     ((s.stnOf n).envWait = none → (s.stnOf n).fallbackDue = true →
       ((s.envBoundary n).stnOf n).env = s.otpEnvelope n ∧
       (s.envBoundary n).fld (GFM_ENV_STATUS_ENV_FALLBACK n) = 1))

/-- The speed of the rotor stays within W_MIN and W_MAX, and its angle within one turn, whatever drives them; where
the clamp acts, ω holds its value, and the flag and the counter tell (R52, R55). A limit of the governor: P_GOV never
leaves −PCHG to PDIS by more than its slew allows, and stays there once inside (R56). -/
def Obligations.CoreBounds : Prop :=
  (∀ (n : Fin 4) (s : State),
     (s.par n parW_MIN ≤ s.par n parW_MAX →
       s.par n parW_MIN ≤ ((s.blkSpeed n).coreOf n).omega ∧ ((s.blkSpeed n).coreOf n).omega ≤ s.par n parW_MAX) ∧
     (∀ w, s.par n parW_MIN ≤ s.par n parW_MAX →
       (s.stnOf n).steered = false ∨ (s.stnOf n).start.phase = .busGap →
       w = swingStep (s.coreOf n).omega (s.dtV n) (s.coreOf n).hEff (s.drivePower n) (s.coreOf n).pF (s.par n parD)
         (s.coreOf n).omegaF →
       (s.par n parW_MIN ≤ w → w ≤ s.par n parW_MAX →
         ((s.blkSpeed n).coreOf n).omega = w ∧ (s.blkSpeed n).regs = s.regs) ∧
       (w < s.par n parW_MIN ∨ s.par n parW_MAX < w →
         ((s.blkSpeed n).coreOf n).omega = (if w < s.par n parW_MIN then s.par n parW_MIN else s.par n parW_MAX) ∧
         (s.blkSpeed n).flag (GFM_CORE_FLAGS_FREQ_CLAMP n) = true ∧
         (s.blkSpeed n).fld (GFM_CORE_CNT0_FREQ_CLAMP_CNT n) =
           min (s.fld (GFM_CORE_CNT0_FREQ_CLAMP_CNT n) + 1) (2 ^ (GFM_CORE_CNT0_FREQ_CLAMP_CNT n).w - 1))) ∧
     0 ≤ ((s.blkAngle n).coreOf n).theta ∧ ((s.blkAngle n).coreOf n).theta < 1) ∧
  (∀ (lo hi step old target : Rat), lo ≤ hi → 0 ≤ step → lo ≤ old → old ≤ hi →
     lo ≤ (governorLimit lo hi step old target).1 ∧ (governorLimit lo hi step old target).1 ≤ hi ∧
     ratAbs ((governorLimit lo hi step old target).1 - old) ≤ step)

/-- A boundary acts on the timebase that runs, a trigger compare starts the converters routed to it, the engine starts
the work of the station that waits first, and a read of word 0 of the snapshot latches the others (R27, R35, R132,
R174, R205). A loop commits when it ends, in its order, and touches no other station and no memory; the deadline
counts a period in time as none of the overruns in a row; a snapshot record that was dropped is counted (R37, R131,
R154). -/
def Obligations.PeriodWork : Prop :=
  (∀ (n : Fin 4) (s : State), s.islandsRun = true → s.grantS n = true →
     ((s.pwmOf n).run = true → exec (.stationPeriodBoundary n) s = .next ((s.boundary n).redBoundary n)) ∧
     (∀ t : Fin 8, s.trgFires n t = true →
       exec (.triggerCompareMatch n t) s = .next (s.forAll 16 (fun k u => if u.routed n t k then u.seqGo k else u))) ∧
     ((s.pwmOf n).run = true → (s.stnOf n).per.started = false → (s.stnOf n).per.finished = false → s.activeUp = true →
       s.serving = none → s.ready.head?.map (fun e => e.2) = some n.val → s.stnType n = 0 → (s.stnOf n).st = .running →
       s.openLoops n ≠ [] →
       ∃ t, exec (.engineStationStart n) s = .next t ∧ t.serving = some n ∧ t.ready = s.ready.tail ∧
         (t.stnOf n).per.started = true ∧ (t.stnOf n).per.finished = false ∧ t.regs = s.regs ∧ t.mem = s.mem) ∧
     (exec (.gfmSnap0Read n) s =
       .next { s.onStn n (fun u => { u with snapCopy := (List.range 32).map (fun i => s.reg (GFM_SNAP n i)) }) with
         readData := s.reg (GFM_SNAP n 0) }) ∧
     ((s.stnOf n).st = .stopping → exec (.stopTimeout n) s = .next (s.completeStop n))) ∧
  (∀ (n : Fin 4) (s : State), s.islandsRun = true →
     (∀ (k : Fin 64) (d : LoopDesc) (cycles standby : Nat), s.stnLoop n k = some d → s.activeUp = true → s.serving = some n →
       (s.openLoops n).head? = some k.val →
       ∃ t, exec (.loopComplete n k cycles standby) s = .next t ∧ (t.stnOf n).per.loopsDone.getLsbD k = true ∧
         (∀ j, j ≠ n.val → t.stnOf j = s.stnOf j) ∧ ∀ a, t.byte a = s.byte a) ∧
     ((s.pwmOf n).run = true → s.activeUp = true → s.listComplete n = true → s.openLoops n = [] →
       exec (.executionDeadline n) s =
         .next (((s.setFld (TRS_OVR_STAT_CONSEC s.activeEng n) 0).onPer n (fun p => { p with finished := true })).leaveService
           n)) ∧
     ((s.pwmOf n).run = true → (s.stnOf n).per.finished = true → (s.stnOf n).per.snapped = false → s.copyOpen n = false →
       exec (.snapshotRecordWritten n false) s =
         .next ((s.onPer n (fun p => { p with snapped := true })).count (GFM_SNAP_DROP_DROP n))))

/-- An accepted snapshot record stands in the station's GFM_SNAP registers and in its ring of sixteen records, and no
other byte of memory changes (R35, R36). -/
def Obligations.SnapshotRecord : Prop :=
  ∀ (n : Fin 4) (s : State), s.islandsRun = true → (s.pwmOf n).run = true → (s.stnOf n).per.finished = true →
    (s.stnOf n).per.snapped = false → s.copyOpen n = false →
    ∃ t, exec (.snapshotRecordWritten n true) s = .next t ∧
      (∀ i, i < 32 → t.reg (GFM_SNAP n i) = (s.snapRecord n).getD i 0) ∧
      t.bytes (snapAddr n (s.stnOf n).count) 128 = (s.snapRecord n).flatMap leBytes ∧
      ∀ a, (a < snapAddr n (s.stnOf n).count ∨ snapAddr n (s.stnOf n).count + 128 ≤ a) → t.byte a = s.byte a

/-- A swap request is refused with its reason, or marks every station for its next boundary and switches the idle ones
at once (R136, R137, R139); a read of the data window answers the word at ADDR and moves ADDR on, and a read of
TRS_EXEC_MAX_NS clears it (R153). A write of an input-list entry: on an idle station it stands and starts the input
anew, with a value out of its range only the other fields do, elsewhere it is refused, and one that changes nothing
does nothing (R16, R161, R166). An input that shows one bit pattern N_FREEZE times is lost: its bit and the flag of
its class are set on every engine, and the station reacts by class. After 64 good samples with a change it is restored
(R158, R159, R161). -/
def Obligations.EngineAndInputCommands : Prop :=
  (∀ (e : Fin 2) (s : State), s.islandsRun = true → s.hasEngine e = true →
     (s.swapRefusal e ≠ 0 →
       exec (.swapReq e) s =
         .next ((s.setFlag (TRS_FLAGS_SWAP_REFUSED e)).setFld TRS_BANK_SWAP_REFUSE_REASON (s.swapRefusal e))) ∧
     (s.swapRefusal e = 0 →
       exec (.swapReq e) s =
         .next ((s.forAll 4 (fun n t => t.onStn n (fun u => { u with swapPending := true }))).forAll 4 (fun n t =>
           if t.stnIdle n then t.switchIdle n else t))) ∧
     (s.swapRefusal e = 0 → (∀ n, n < 4 → s.stnIdle n = false) →
       exec (.swapReq e) s = .next (s.forAll 4 (fun n t => t.onStn n (fun u => { u with swapPending := true })))) ∧
     (exec (.trsDmemDataRead e) s =
       .next { s.setFld (TRS_DMEM_ADDR_ADDR e) ((s.fld (TRS_DMEM_ADDR_ADDR e) + 1) % 65536) with
         readData := s.dmemRead e (s.fld (TRS_DMEM_ADDR_ADDR e)) }) ∧
     (∀ n : Fin 4, exec (.trsExecMaxRead e n) s =
       .next { s.setReg (TRS_EXEC_MAX e n) 0 with readData := s.reg (TRS_EXEC_MAX e n) })) ∧
  (∀ (s : State) (i : Fin 256) (w : Word), s.islandsRun = true →
     (s.stnIdle (i / 64) = true → putBits w 11 2 0 ≠ s.reg (TRS_IN_CFG i) →
       8 ≤ bits w 21 11 → bits w 21 11 ≤ 1024 → bits w 13 3 ≠ 7 →
       exec (.trsInCfgWrite i w) s =
         .next ((((s.setBoth (TRS_IN_CFG i) (putBits w 11 2 0)).onInp (i / 64) (i % 64) (fun _ => {})).clearLoss (i / 64)
           (i % 64)).noteReady (i / 64))) ∧
     (s.stnIdle (i / 64) = true → putBits w 11 2 0 ≠ s.reg (TRS_IN_CFG i) →
       bits w 21 11 < 8 ∨ 1024 < bits w 21 11 ∨ bits w 13 3 = 7 →
       ∃ t, exec (.trsInCfgWrite i w) s = .next t ∧ t.flag (TRS_FLAGS_WRITE_REFUSED 0) = true ∧
         (s.grantB = true → t.flag (TRS_FLAGS_WRITE_REFUSED 1) = true)) ∧
     (s.stnIdle (i / 64) = false → putBits w 11 2 0 ≠ s.reg (TRS_IN_CFG i) →
       exec (.trsInCfgWrite i w) s = .next (s.flagEngines TRS_FLAGS_WRITE_REFUSED)) ∧
     (putBits w 11 2 0 = s.reg (TRS_IN_CFG i) → exec (.trsInCfgWrite i w) s = .next s)) ∧
  ((∀ (n : Fin 4) (k : Fin 64) (s : State) (cls : Nat) (flag : Nat → Fld), s.islandsRun = true →
     s.flag (TRS_IN_CFG_NOISY (slotNo n k)) = true → s.flag (TRS_IN_CFG_EN (slotNo n k)) = true →
     s.fld (TRS_IN_CFG_N_FREEZE (slotNo n k)) ≤ (s.inpOf n k).same → (s.inpOf n k).lost = false →
     s.fld (TRS_IN_CFG_CLASS (slotNo n k)) = cls →
     (cls = 1 ∧ flag = TRS_FLAGS_FB_LOST_CURRENT) ∨ (cls = 2 ∧ flag = TRS_FLAGS_FB_LOST_VOLTAGE) ∨
       (cls = 3 ∧ flag = TRS_FLAGS_FB_LOST_POSITION) ∨ ((cls = 0 ∨ 3 < cls) ∧ flag = TRS_FLAGS_FB_LOST_OTHER) →
     exec (.inputFrozen n k) s =
       .next ((s.engines.foldl (fun t g => (t.setFldBit (TRS_FB_LOST_LOST g n (k / 32)) (k % 32) true).setFlag (flag g))
         (s.onInp n k (fun x => { x with lost := true, good := 0, changed := false }))).lossReaction n cls)) ∧
   (∀ (n : Fin 4) (s : State),
     ((s.stnOf n).highHere = false → ∀ cls, s.lossReaction n cls = s) ∧
     ((s.stnOf n).highHere = true → s.lossReaction n 1 = s.tripNow n 4) ∧
     ((s.stnOf n).st = .running → (s.stnOf n).turn = none → s.stnType n = 0 → s.par n parT_OLV ≠ 0 →
       s.lossReaction n 2 =
         ((s.noteTurn n 10 .openLoopV).setSt n .openLoopV).onStn n (fun u => { u with olvBack := false })) ∧
     ((s.stnOf n).highHere = true → s.stnType n ≠ 0 → s.lossReaction n 2 = s.tripNow n 10) ∧
     ((s.stnOf n).highHere = true → s.stnType n = 1 → s.lossReaction n 3 = s.tripNow n 5)) ∧
   (∀ (n : Fin 4) (k : Fin 64) (s t : State), s.islandsRun = true → (s.inpOf n k).lost = true → 64 ≤ (s.inpOf n k).good →
     (s.inpOf n k).changed = true → s.sourceStale n k = false →
     t = (s.clearLoss n k).flagEngines TRS_FLAGS_FB_RESTORED →
     ((s.stnOf n).st ≠ .openLoopV ∨ t.voltageLost n = true → exec (.inputRestored n k) s = .next t) ∧
     ((s.stnOf n).st = .openLoopV → t.voltageLost n = false →
       exec (.inputRestored n k) s = .next ((t.onStn n (fun u => { u with olvBack := true })).settleStopped n))))

/-- Words reach the input buffers of the engines; a lost input keeps its last word; a run of equal samples is counted
(R155, R158, R202). -/
def Obligations.InputWords : Prop :=
  ∀ (n : Fin 4) (i : Fin 64) (w : Word) (s : State),
    ((s.inpOf n i).lost = false → (s.deliver n i w).dmem 0 (0xE000 + n * 512 + i) = w ∧
      ((s.deliver n i w).inpOf n i).value = w ∧ (s.grantB = true → (s.deliver n i w).dmem 1 (0xE000 + n * 512 + i) = w)) ∧
    ((s.inpOf n i).lost = true → (s.deliver n i w).dmemA = s.dmemA ∧ (s.deliver n i w).dmemB = s.dmemB ∧
      ((s.deliver n i w).inpOf n i).value = (s.inpOf n i).value ∧ ((s.deliver n i w).inpOf n i).lost = true) ∧
    ((s.deliver n i w).inpOf n i).same =
      (if (s.inpOf n i).same ≠ 0 ∧ w = (s.inpOf n i).last then (s.inpOf n i).same + 1 else 1)

/-- Beats, an engine's internal error, the two classes of a privileged result, and what no standby can do (R316, R321,
R322, R325, R329). A state copy that arrives intact is what the standby holds, and a difference of the privileged
state is a disagreement; a copy that is lost is counted, takes the agreement of the station back, and leaves the
standby as it was (R318 to R320, R335). -/
def Obligations.EngineHealthAndCopies : Prop :=
  (∀ (s : State), s.islandsRun = true → s.grantB = true →
     (s.red.stA = 1 → s.red.stB = 2 → s.red.failing = false → s.red.missA = false → s.red.missB = false →
       s.red.deadA = false → s.red.deadB = false →
       exec (.beatSlot true true true true) s =
         .next { (s.setFld RED_STATUS_LINK_PATH 1).setFld RED_STATUS_TOGGLE_PATH 1 with
           red := { s.red with beatA := s.now, beatB := s.now } }) ∧
     (s.red.stA = 1 → s.red.stB = 2 → s.red.active = 0 → s.red.failing = false → s.red.missA = true → s.red.missB = false →
       s.red.deadB = false →
       ∃ t, exec (.beatSlot false true false true) s = .next t ∧ t.red.stA = 4 ∧ t.red.failing = true ∧ t.red.declared = s.now) ∧
     (exec .bothEnginesSilent s = .next (((s.setFlag RED_FLAGS_BOTH_SILENT).setFlag SAF_LB_BOTH_SILENT).holdAll 9)) ∧
     (∀ cause : Fin 4, cause.val ≠ 0 → s.red.stB = 2 → s.red.active = 0 →
       exec (.engineInternalError 1 cause) s =
         .next ({ s with red := { s.red with deadB := true } }.setReg (RED_ENG_ERR 1) (BitVec.ofNat 32 (2 ^ 31 + cause)))) ∧
     (∀ (n : Fin 4) (standby : Bool) (cycles : Nat), (s.pwmOf n).run = true → (s.stnOf n).per.classed = false →
       s.privDelivered n = true →
       exec (.privResultClassify n standby cycles) s =
         .next ((s.onPer n (fun p => { p with classed := true })).setFld (RED_STN_SUBST n) 0)) ∧
     (∀ (n : Fin 4) (k : Fin 64) (a b upsetA upsetB : Word), s.standbyRuns = true → s.activeUp = true →
       (s.stnOf n).per.overran = false → (s.stnOf n).per.silent = false → (s.stnOf n).per.copyDone = false →
       (s.stnOf n).per.outs.find? (fun e => e.1 == k.val) = some (k.val, a, b) → a ^^^ upsetA = b ^^^ upsetB →
       exec (.privResultCompare n k (upsetA, upsetB)) s =
         .next (s.onPer n (fun p =>
           { p with compared := p.compared + 1, outs := p.outs.filter (fun e => e.1 != k.val) })))) ∧
  (∀ (n : Fin 4) (s : State), s.islandsRun = true → s.standbyRuns = true → s.red.failing = false →
     (s.stnOf n).per.copyDue = true → (s.stnOf n).per.copyDone = false →
     (s.activeUp = true → (s.stnOf n).per.settled = true → s.privDiffers n = false →
       exec (.stateCopyAck n true false) s =
         .next ((s.onStn n (fun u => { u with sby := u.eng, resend := false })).onPer n (fun p =>
           { p with copyDone := true, copyOk := true }))) ∧
     (s.activeUp = true → (s.stnOf n).per.differs = false → (s.stnOf n).per.overran = false →
       (s.stnOf n).per.silent = false → s.fld (RED_STN_DIS_CONSEC n) = 0 →
       ∀ upset, upset = true ∨ s.privDiffers n = true →
       ∃ t, exec (.stateCopyAck n true upset) s = .next t ∧ (t.stnOf n).sby = (s.stnOf n).eng ∧
         t.flag RED_FLAGS_DISAGREE = true ∧ t.fld (RED_STN_AGREE n) = 0) ∧
     (∀ upset, ∃ t, exec (.stateCopyAck n false upset) s = .next t ∧ (t.stnOf n).sby = (s.stnOf n).sby ∧
         (t.stnOf n).resend = true ∧ t.fld (RED_STN_AGREE n) = 0 ∧ t.fld (RED_STN_SYNC n) = 0 ∧
         t.flag RED_FLAGS_COPY_LOST = true ∧
         t.fld RED_CNT2_COPY_LOST_CNT = min (s.fld RED_CNT2_COPY_LOST_CNT + 1) (2 ^ RED_CNT2_COPY_LOST_CNT.w - 1)))

/-- A fail-over: the standby takes the ACTIVE role, RED_LAST tells the time and the engine, and the loops go on from
the state that the standby holds (R318, R330, R332). -/
def Obligations.FailOver : Prop :=
  ∀ (took : Nat) (s : State), s.islandsRun = true → s.standbyRuns = true → s.red.failing = true → s.red.active = 0 →
    (∀ n, n < 4 → s.enabled n = true → s.synced n = true) →
    ∃ t, exec (.switchoverComplete took) s = .next t ∧ t.red.active = 1 ∧ t.red.stB = 1 ∧ t.red.failing = false ∧
      t.flag RED_FLAGS_FAILOVER = true ∧
      t.reg RED_LAST = BitVec.ofNat 32 (min took 4095 * 2 ^ 20 + min ((s.red.declared - s.red.beatA) / 4) 4095 * 2 ^ 8 + 2) ∧
      ∀ n, n < 4 → (t.stnOf n).eng = (s.stnOf n).sby ∧ (t.stnOf n).per.taken = true ∧ (t.stnOf n).st = (s.stnOf n).st

/-- UPDATE_ARM arms the set, and TB_HOLD is idle-only (R16, R170, R179). Commutation: a level change on a mask input
moves the index at once, or is held for the filter time (R176). -/
def Obligations.TimebaseAndCommutation : Prop :=
  (∀ (n : Fin 4) (s : State), s.islandsRun = true → s.grantS n = true → (s.pwmOf n).run = true →
     (∀ late, s.fld (PWM_TB_CFG_UPD_MODE n) = 0 →
       exec (.updateArm n late) s =
         .next ((s.onPwm n (fun p => { p with armed := true })).setFlagIf late (PWM_FLAGS_LATE_WRITE n))) ∧
     (s.flag (PWM_TB_CTRL_TB_HOLD n) = false → s.stnIdle n = true →
       exec (.tbHoldSet n) s = .next (s.setFld (PWM_TB_CTRL_TB_HOLD n) 1)) ∧
     (s.flag (PWM_TB_CTRL_TB_HOLD n) = true → s.stnIdle n = true →
       exec (.tbHoldClear n) s = .next (s.setFld (PWM_TB_CTRL_TB_HOLD n) 0)) ∧
     (s.flag (PWM_TB_CTRL_TB_HOLD n) = false → s.stnIdle n = false →
       exec (.tbHoldSet n) s = .next (s.setFlag (PWM_FLAGS_WRITE_REFUSED n)))) ∧
  (∀ (n : Fin 4) (cap : Fin 16) (lv : Bool) (s : State), s.islandsRun = true → s.grantS n = true → s.maskInput n cap = true →
     s.fld (PWM_TB_CFG_OVR_MODE n) = 1 → s.flag (PWM_MASK_SRC_SRC_EN n) = true →
     ((s.pwmOf n).lastEvt = none →
       exec (.commutationEvent n cap lv) s =
         .next ((s.onCap cap (fun x => { x with level := lv })).setMask n ((s.onCap cap (fun x => { x with level := lv })).capIndex n))) ∧
     (∀ t, (s.pwmOf n).lastEvt = some t → s.now - t < s.fld (PWM_MASK_SRC_FILT n) →
       exec (.commutationEvent n cap lv) s =
         .next ((s.onCap cap (fun x => { x with level := lv })).onPwm n (fun p =>
           { p with heldIdx := some ((s.onCap cap (fun x => { x with level := lv })).capIndex n) }))) ∧
     (∀ i, (s.pwmOf n).heldIdx = some i → exec (.commutationHeldExpiry n) s = .next (s.setMask n i)))

/-- The path of a pulse: an edge enters the filter, leaves it after the minimum width, turns the other switch off at
once and, one dead time later, its own on (R172, R184 to R186). -/
def Obligations.PulsePath : Prop :=
  ∀ (n : Fin 4) (k : Fin 12) (s : State), s.islandsRun = true →
    ((s.hbOf n k).force = none → s.pulseLevel n k ≠ (s.hbOf n k).raw →
      exec (.pulseEdge n k) s =
        .next (s.onHb n k (fun h => { h with raw := s.pulseLevel n k, pend := h.pend ++ [(s.now, s.pulseLevel n k)] }))) ∧
    (∀ t0 lv, (s.hbOf n k).pend = [(t0, lv)] → (s.hbOf n k).eff = true →
      exec (.filterEdgeOut n k) s =
        .next (s.onHb n k (fun h =>
          { h with
            pend := [], filt := lv, gl := if lv then false else h.gl, gh := if lv then h.gh else false,
            deadTo := some lv }))) ∧
    (∀ t0 t1 lv lv1 more, (s.hbOf n k).pend = (t0, lv) :: (t1, lv1) :: more → t1 - t0 < s.wMin n → lv = true →
      exec (.filterEdgeOut n k) s =
        .next (((s.onHb n k (fun h => { h with pend := more })).count (GATE_RMV_PULSE_RMV n k)).setFlag
          (GATE_FLAGS_PULSE_RMV n))) ∧
    (∀ side, (s.hbOf n k).deadTo = some side → (s.hbOf n k).eff = true →
      exec (.deadTimeEnd n k) s =
        .next (s.onHb n k (fun h =>
          { h with gh := side, gl := !side, deadTo := none, blank := true, gfIn := false })))

/-- No command of the pulse path turns both switches of a half-bridge on (R186). A test write that asks for both
switches is refused: no pin changes, and both blocks record it (R195). -/
def Obligations.NoShootThrough : Prop :=
  (∀ (n : Fin 4) (k : Fin 12) (s t : State), ¬ ((s.hbOf n k).gh = true ∧ (s.hbOf n k).gl = true) →
     (exec (.pulseEdge n k) s = .next t ∨ exec (.filterEdgeOut n k) s = .next t ∨ exec (.deadTimeEnd n k) s = .next t ∨
       exec (.blankingEnd n k) s = .next t ∨ exec (.gateTestEnd n k) s = .next t ∨
       exec (.latchEnableRemoval n) s = .next t ∨ ∃ w, exec (.gateTestWrite n w) s = .next t) →
     ¬ ((t.hbOf n k).gh = true ∧ (t.hbOf n k).gl = true)) ∧
  (∀ (n : Fin 4) (w : Word) (s : State), s.islandsRun = true → s.grantS n = true → bit w 4 = true → bit w 5 = true →
     exec (.gateTestWrite n w) s = .next ((s.setFlag (GATE_FLAGS_BOTH_ON_REFUSED n)).setFlag SAF_FLAGS_BOTH_ON))

/-- Faults: GF outside blanking latches, one that comes and goes within blanking is counted, and a trip window latches
its half-bridge (R188, R190, R192). The enables after a latch: 1.0 µs after the first one the station's permit goes; a
write of PWM_HB_EN stores its twelve bits; direct drive drives one switch of a READY station and ends (R190, R191,
R194, R195). -/
def Obligations.GateCommands : Prop :=
  (∀ (n : Fin 4) (k : Fin 12) (s : State), s.islandsRun = true → (s.hbOf n k).eff = true →
     ((s.hbOf n k).gf = false → (s.hbOf n k).blank = false →
       exec (.gfAssert n k true) s =
         .next ((s.onHb n k (fun h => { h with gf := true, gfIn := h.blank })).latchHb n k 0)) ∧
     ((s.hbOf n k).gf = false → (s.hbOf n k).blank = true →
       exec (.gfAssert n k true) s = .next (s.onHb n k (fun h => { h with gf := true, gfIn := h.blank }))) ∧
     ((s.hbOf n k).gf = true → (s.hbOf n k).blank = true → (s.hbOf n k).gfIn = true →
       exec (.gfAssert n k false) s =
         .next (((s.onHb n k (fun h => { h with gf := false, gfIn := false })).count (GATE_CNT_GF_BLANKED_CNT n)).setFlag
           (GATE_FLAGS_GF_BLANKED n))) ∧
     ((s.hbOf n k).gf = true → (s.hbOf n k).blank = true →
       exec (.blankingEnd n k) s = .next ((s.onHb n k (fun h => { h with blank := false })).latchHb n k 1)) ∧
     ((s.hbOf n k).gf = false →
       exec (.blankingEnd n k) s = .next (s.onHb n k (fun h => { h with blank := false }))) ∧
     (∀ (c : Fin 6) (code : BitVec 12), s.grantS n = true → s.flag (GATE_WCMP_CFG_EN n c) = true →
       s.fld (GATE_WCMP_TRIP_LO n c) < s.fld (GATE_WCMP_TRIP_HI n c) → s.fld (GATE_WCMP_TRIP_HI n c) < code.toNat →
       s.fld (GATE_WCMP_CFG_HB n c) = k →
       exec (.tripWindowCrossing n c code) s = .next ((s.onWcomp n c (fun w => { w with trip := 1 })).latchHb n k 2))) ∧
  (∀ (n : Fin 4) (s : State), s.islandsRun = true → s.grantS n = true →
     (∀ t, (s.pwmOf n).firstLatch = some t →
       exec (.latchEnableRemoval n) s =
         .next ((s.onPwm n (fun p => { p with firstLatch := none, gateRemoved := true })).lowboyFollow n)) ∧
     (∀ w, exec (.pwmHbEnWrite n w) s = .next (s.writeHbEn n w) ∧
       (s.pendSet = [] → (s.writeHbEn n w).reg (PWM_HB_EN n) = BitVec.ofNat 32 (bits w 0 12))) ∧
     (∀ w, (s.stnOf n).st = .ready → s.flag (GFM_CTRL_RUN_REQ n) = false → bits w 0 4 < 12 →
       s.fldBit (PWM_HB_EN_EN n) (bits w 0 4) = true → s.fldBit (GATE_LATCH_LATCHED n) (bits w 0 4) = false →
       s.permit n = true → 1 ≤ bits w 16 16 → bit w 4 = true → bit w 5 = false →
       exec (.gateTestWrite n w) s =
         .next (s.onHb n (bits w 0 4) (fun h => { h with test := some true, gh := true, gl := false, blank := true, gfIn := false }))) ∧
     (∀ (k : Fin 12) d, (s.hbOf n k).test = some d →
       exec (.gateTestEnd n k) s =
         .next (s.onHb n k (fun h => { h with test := none, gh := false, gl := false, blank := false }))))

/-- The first latch of a station: its bit and cause, GATE_TRIP with the half-bridge, both pins low, and the trip,
which comes at the next boundary of a running timebase (R121, R188, R190). -/
def Obligations.FirstLatch : Prop :=
  ∀ (n : Fin 4) (k : Fin 12) (cause : Fin 4) (s : State), s.pendSet = [] →
    s.fldBit (GATE_LATCH_LATCHED n) k = false → (s.pwmOf n).latchSeen = false →
    (s.latchHb n k cause).fldBit (GATE_LATCH_LATCHED n) k = true ∧
    bits ((s.latchHb n k cause).reg (GATE_LCAUSE n)) (2 * k) 2 = cause ∧
    (s.latchHb n k cause).reg (GATE_TRIP n) = BitVec.ofNat 32 (64 + cause * 16 + k) ∧
    ((s.latchHb n k cause).hbOf n k).gh = false ∧ ((s.latchHb n k cause).hbOf n k).gl = false ∧
    ((s.latchHb n k cause).pwmOf n).firstLatch = some s.now ∧ ((s.latchHb n k cause).pwmOf n).latchSeen = true ∧
    ((s.stnOf n).st ≠ .disabled → (s.stnOf n).tripHere = false → (s.pwmOf n).run = true →
      ((s.latchHb n k cause).stnOf n).tripDue = true ∧ ((s.latchHb n k cause).stnOf n).trips = 2 :: (s.stnOf n).trips)

/-- A conversion of the running sequence delivers its corrected result; the last one ends the sequence and moves the
tag on (R200 to R202). A go that reaches a converter: it starts the sequence, is counted as an overlap, or drops an
urgent conversion; sources that fire in one conversion cycle give one start (R204 to R207, R225). Urgent conversions:
an allowed request is taken by an idle converter, its result stands in ADC_URG_RES, and a request to a busy one is
dropped and counted (R199, R207). -/
def Obligations.ConverterCommands : Prop :=
  (∀ (k : Fin 16) (raw : BitVec 16) (s : State), s.islandsRun = true → (s.convOf k).seqRun = true →
     ((s.convOf k).idx + 1 < (s.convOf k).len →
       exec (.adcConversionDone k raw) s =
         .next ((s.adcResult k (s.convOf k).idx (s.correctBy k (s.actFld (ADC_SEQ_GAIN k (s.convOf k).idx)) raw)).onConv k
           (fun c => { c with idx := c.idx + 1 }))) ∧
     ((s.convOf k).idx + 1 = (s.convOf k).len → (s.convOf k).plen = 0 → (s.convOf k).pls = false → s.calState = 0 →
       exec (.adcConversionDone k raw) s =
         .next ((s.adcResult k (s.convOf k).idx (s.correctBy k (s.actFld (ADC_SEQ_GAIN k (s.convOf k).idx)) raw)).onConv k
           (fun c => { c with seqRun := false, idx := 0, tag := c.tag + 1 })))) ∧
  (∀ (k : Nat) (s : State), s.flag (ADC_CFG_EN k) = true → s.covered k = false →
     ((s.convOf k).seqRun = false → (s.convOf k).urgent = false → s.seqGo k = s.seqStart k) ∧
     ((s.convOf k).seqRun = true → (s.convOf k).goAt = some (s.now * 2 / 5) → s.seqGo k = s) ∧
     ((s.convOf k).seqRun = true → (s.convOf k).goAt ≠ some (s.now * 2 / 5) → s.seqGo k = (s.count (ADC_CNT_GO_OVERLAP_CNT k)).setFlag ADC_FLAGS_GO_OVERLAP) ∧
     ((s.convOf k).seqRun = false → (s.convOf k).urgent = true → s.seqGo k = (s.urgDrop k).seqStart k) ∧
     (s.islandsRun = true → ∀ w, exec (.adcGoWrite w) s = .next (s.forAll 16 (fun j t => if bit w j then t.seqGo j else t)))) ∧
  (∀ (k : Fin 16) (s : State), s.islandsRun = true →
     (∀ w, entryOk w = true → s.flag (ADC_CFG_EN k) = true → s.covered k = false → (s.convOf k).seqRun = false →
       (s.convOf k).urgent = false →
       exec (.urgGo k w) s =
         .next (((s.setBoth (ADC_URG k) (BitVec.ofNat 32 (bits w 0 4 + bits w 8 8 * 256 + bits w 16 3 * 65536))).onConv k
           (fun c => { c with urgent := true, urgGain := bits w 16 3 })).setFld (ADC_URG_RES_VALID k) 0)) ∧
     (∀ w, entryOk w = true → (s.convOf k).seqRun = true →
       exec (.urgGo k w) s =
         .next ((s.setBoth (ADC_URG k) (BitVec.ofNat 32 (bits w 0 4 + bits w 8 8 * 256 + bits w 16 3 * 65536))).urgDrop k)) ∧
     (∀ w, entryOk w = false → exec (.urgGo k w) s = .next (s.setFlag ADC_FLAGS_VALUE_REFUSED)) ∧
     (∀ raw, (s.convOf k).urgent = true →
       exec (.urgentConversionDone k raw) s =
         .next (((s.setReg (ADC_URG_RES k)
           (BitVec.ofNat 32 (2 ^ 31 + (s.correctBy k (s.convOf k).urgGain raw).2.toNat * 2 ^ 16 +
             unsignedOf 16 (s.correctBy k (s.convOf k).urgGain raw).1))).setFlagIf
               (s.correctBy k (s.convOf k).urgGain raw).2 ADC_FLAGS_SAT).onConv k (fun c => { c with urgent := false }))))

/-- The correction of R201: exact product, nearest value with halves away from zero, clamp to 16 bits, and SAT where
the input or the result stands at a limit. The sinc sum of R219 runs from 0 to R^N, and the output of the main filter
from −1 to 1. -/
def Obligations.ConversionArithmetic : Prop :=
  (∀ (raw ofs gcorr : Int),
     (-32768 ≤ (correct raw ofs gcorr).1 ∧ (correct raw ofs gcorr).1 ≤ 32767) ∧
     ((raw = -32768 ∨ raw = 32767) → (correct raw ofs gcorr).2 = true) ∧
     (-32768 < raw → raw < 32767 → (correct raw 0 32768) = (raw, false))) ∧
  ((∀ (r n : Nat) (l : List Bool), sincOf r n l ≤ r ^ n) ∧
   ∀ (acc r n : Nat), 0 < r → acc ≤ r ^ n →
     -1 ≤ sdmValue acc r n ∧ sdmValue acc r n ≤ 1 ∧ sdmValue 0 r n = -1 ∧ sdmValue (r ^ n) r n = 1)

/-- Calibration: accepted or refused with its code, the cover, the reference phase, a stale verification, and the
release of a held cover (R212 to R215). A pair that goes without a check disagrees: counted, and failed at its limit,
which Settle answers (R210, R211, R357). -/
def Obligations.CalibrationAndPairs : Prop :=
  (∀ (s : State), s.islandsRun = true →
     (∀ k : Fin 16, (s.setFld ADC_CAL_CTRL_TARGET k).calRefusal k = 0 →
       exec (.calStart k) s =
         .next (((({ s.setFld ADC_CAL_CTRL_TARGET k with cal := { target := k } } : State).setFld ADC_CAL_CTRL_REFUSE 0).setFld
           ADC_CAL_CTRL_FAIL 0).setFld ADC_CAL_CTRL_STATE 1)) ∧
     (∀ k : Fin 16, ∀ r, (s.setFld ADC_CAL_CTRL_TARGET k).calRefusal k = r → r ≠ 0 →
       exec (.calStart k) s =
         .next (((s.setFld ADC_CAL_CTRL_TARGET k).setFld ADC_CAL_CTRL_REFUSE r).setFlag ADC_FLAGS_CAL_REFUSED)) ∧
     (∀ p : Fin 8, s.calState = 1 → s.cal.target / 2 = p → (s.convOf (2 * p)).seqRun = false →
       (s.convOf (2 * p + 1)).seqRun = false →
       exec (.coverBegin p) s = .next ((s.setFld ADC_CAL_CTRL_STATE 2).setFld (ADC_PLS_STAT_SUSPENDED p) 1)) ∧
     (∀ coefs raw, s.calState = 2 →
       exec (.calReferenceDone coefs raw) s =
         .next (({ s with cal := { s.cal with
           coefs := coefs, verify := (correct raw.toInt (coefs.getD 0 (0, 32768)).1 (coefs.getD 0 (0, 32768)).2).1 } } : State).setFld
           ADC_CAL_CTRL_STATE 3)) ∧
     (s.calState = 3 → exec .calVerifyStale s =
       .next (((s.setFld ADC_CAL_CTRL_FAIL 3).setFld ADC_CAL_CTRL_STATE 5).setFlag ADC_FLAGS_CAL_FAIL)) ∧
     (s.calState = 5 → exec .endCover s =
       .next (({ s with cal := { s.cal with passed := false } } : State).setFld ADC_CAL_CTRL_STATE 4)) ∧
     (s.calState ≠ 5 → exec .endCover s = .next s)) ∧
  (∀ (p : Fin 8) (s : State), s.islandsRun = true → s.flag (ADC_PLS_CFG_EN p) = true →
     s.flag (ADC_PLS_STAT_SUSPENDED p) = false →
     (s.fld (ADC_PLS_STAT_CONSEC p) + 1 < s.fld ADC_PLS_OTP0_PLS_LIMIT →
       exec (.plsStale p) s =
         .next (((s.setFlag ADC_FLAGS_PLS_STALE).count (ADC_PLS_STAT_DIS_CNT p)).setFld (ADC_PLS_STAT_CONSEC p)
           (min 255 (s.fld (ADC_PLS_STAT_CONSEC p) + 1)))) ∧
     (s.fld ADC_PLS_OTP0_PLS_LIMIT ≠ 0 → s.fld ADC_PLS_OTP0_PLS_LIMIT ≤ min 255 (s.fld (ADC_PLS_STAT_CONSEC p) + 1) →
       s.flag (ADC_PLS_STAT_FAILED p) = false →
       exec (.plsStale p) s =
         .next (((((s.setFlag ADC_FLAGS_PLS_STALE).count (ADC_PLS_STAT_DIS_CNT p)).setFld (ADC_PLS_STAT_CONSEC p)
           (min 255 (s.fld (ADC_PLS_STAT_CONSEC p) + 1))).setFlag (ADC_PLS_STAT_FAILED p)).pairFailed p)))

/-- Sigma-delta channels: an output on a running channel, the wait of an aligned one, missing transitions, and the
force of a short filter (R158, R218 to R222). -/
def Obligations.SigmaDelta : Prop :=
  ∀ (c : Fin 48) (s : State), s.islandsRun = true → s.flag (SDM_CFG_EN c) = true →
    (∀ bits, (s.sdmOf c).started = true → s.flag (SDM_CLK_EN (s.fld (SDM_CFG_CLK c))) = true →
      exec (.sdmOutput c bits) s = .next (s.sdmOut c bits) ∧
      (s.sdmOut c bits).reg (SDM_RES c) =
        f32OfRat (sdmValue (sincOf (s.fld (SDM_CFG_DEC c)) (s.fld (SDM_CFG_ORDER c))
          ((((List.range (s.fld (SDM_CFG_DEC c))).map (fun i => bits.getD i false)).reverse ++ (s.sdmOf c).hist).take
            (s.fld (SDM_CFG_ORDER c) * s.fld (SDM_CFG_DEC c)))) (s.fld (SDM_CFG_DEC c)) (s.fld (SDM_CFG_ORDER c)))) ∧
    ((s.sdmOf c).waiting = true → exec (.sdmAlignWait c) s = .next (s.setFlag SDM_FLAGS_ALIGN_WAIT)) ∧
    (exec (.sdmNoTransition c) s =
      .next (((s.setFldBit (SDM_NOTRANS_NOTRANS (c / 32)) (c % 32) true).setFlag SDM_FLAGS_NO_TRANSITION).loseSource 1 c)) ∧
    (∀ bits, s.flag (SDM_SF_CFG_EN c) = true →
      signedOf 16 (s.fld (SDM_SF_LIM_LO c)) < signedOf 16 (s.fld (SDM_SF_LIM_HI c)) →
      (signedOf 16 (s.fld (SDM_SF_LIM_HI c)) : Rat) < shortOut (s.fld (SDM_SF_CFG_SR c)) bits →
      exec (.sdmShortFilterForce c bits) s =
        .next ((s.setFlag SDM_FLAGS_SF_LIMIT).forceHb (s.fld (SDM_SF_CFG_STATION c)) (s.fld (SDM_SF_CFG_HB c)) false))

/-- Chest's commands: an arm that passes its checks arms segment 0, a refused one says why, STOP ends the run in DONE,
FORCE takes a trigger of source 255 or lowers nothing that fired in the same tick, an arm while a run is on is
refused, and REARM goes on to the next segment (R266 to R268, R271, R273, R278). -/
def Obligations.ChestCommands : Prop :=
  ∀ (s : State), s.dataRuns = true → s.grantChest = true →
    (s.chestState = 0 ∨ s.chestState = 4 → s.armRefusal = 0 →
      exec .chsArm s = .next (({ s with chest := { s.chest with run := 0 } } : State).armSegment 0)) ∧
    (∀ r, s.chestState = 0 ∨ s.chestState = 4 → s.armRefusal = r → r ≠ 0 →
      exec .chsArm s = .next ((s.setFld CHS_STATUS_ARM_REFUSE r).setFlag CHS_FLAGS_ARM_REFUSED)) ∧
    (s.chestState = 1 ∨ s.chestState = 2 ∨ s.chestState = 3 →
      exec .chsArm s = .next (s.setFlag CHS_FLAGS_WRITE_REFUSED)) ∧
    (s.chestState ≠ 2 → exec .chsStop s = .next (s.setFld CHS_STATUS_STATE 4)) ∧
    (s.chestState = 2 → exec .chsStop s = .next ((s.closeSegment 64).setFld CHS_STATUS_STATE 4)) ∧
    (s.chestState = 1 → s.flag CHS_CFG_PRE_WAIT = false → s.chest.trigAt ≠ some s.now →
      exec .chsForce s = .next { s.chestTake 255 s.stamp with
        chest := { (s.chestTake 255 s.stamp).chest with trigAt := some s.now, trigTaken := true } }) ∧
    (s.chestState = 2 → s.chest.trigAt ≠ some s.now →
      exec .chsForce s = .next { (s.count CHS_CNT0_TRG_BUSY_CNT).setFlag CHS_FLAGS_TRG_MISSED with
        chest := { s.chest with trigAt := some s.now, trigTaken := false } }) ∧
    (s.chest.trigAt = some s.now → s.chest.trigTaken = true → s.chest.trigSrc ≤ 255 → exec .chsForce s = .next s) ∧
    (s.chestState = 2 → s.fld CHS_CFG_POST_TMO ≠ 0 →
      exec .postTimeout s = .next (((s.closeSegment 128).setFlag CHS_FLAGS_POST_TIMEOUT).chestNext)) ∧
    (s.chestState = 3 → s.fld CHS_STATUS_SEG < s.fld CHS_SEGS_SEGS_M1 →
      s.chestRearm = s.armSegment (s.fld CHS_STATUS_SEG + 1))

/-- A taken trigger starts the post-trigger part of every stream (R269). An element of a stream that takes every
sample goes into its staging buffer for its place of the circular block, bursts that leave the buffer reach the DRAM
there and nowhere else, a full buffer opens a gap, and 64 free words end it (R263, R270, R274). -/
def Obligations.ChestRecords : Prop :=
  (∀ (s : State) (src time : Nat),
     (s.chestTake src time).fld CHS_STATUS_STATE = 2 ∧ (s.chestTake src time).chest.trigSrc = src ∧
     (s.chestTake src time).chest.tTrig = time ∧
     (s.preFull = false → (s.chestTake src time).flag CHS_FLAGS_PRE_SHORT = true) ∧
     ∀ k, k < 32 → ((s.chestTake src time).streamOf k).post = 0 ∧
       ((s.chestTake src time).streamOf k).preValid = min (s.streamOf k).filled (s.fld CHS_PRE_PRE)) ∧
  (∀ (k : Fin 32) (s : State), s.dataRuns = true → s.grantChest = true → s.streamOn k = true →
     (s.chestState = 1 → (s.streamOf k).inGap = false → s.fld (CHS_STR_CFG_REDUCE k) = 0 → s.bufferFull k = false →
       (∀ t, t < 8 → s.actFld (CHS_TRG_EN t) = 0) →
       ∃ t, exec (.chestSample k (.sample 0)) s = .next t ∧
         (t.streamOf k).staged = (s.streamOf k).staged ++
           [(s.slotAddr + 1024 + s.blocksBelow k + (s.streamOf k).done % s.segLen * 4, s.sampleWord k)] ∧
         (t.streamOf k).done = (s.streamOf k).done + 1 ∧ (t.streamOf k).filled = (s.streamOf k).filled + 1 ∧ t.mem = s.mem) ∧
     (s.chestState = 1 → (s.streamOf k).inGap = false → s.bufferFull k = true →
       (∀ t, t < 8 → s.actFld (CHS_TRG_EN t) = 0) →
       ∃ t, exec (.chestSample k (.sample 0)) s = .next t ∧ (t.streamOf k).inGap = true ∧ t.flag CHS_FLAGS_GAP = true ∧
         (t.streamOf k).staged = (s.streamOf k).staged ∧ (t.streamOf k).filled = 0) ∧
     (∀ b l, l = (s.streamOf k).staged.take (16 * min b ((s.streamOf k).staged.length / 16)) → (s.streamOf k).inGap = false →
       exec (.chestGapEnd ⟨k, b⟩) s = .next (s.drainBursts k b) ∧
       (∀ a, (∀ p ∈ l, a < p.1 ∨ p.1 + 4 ≤ a) → (s.drainBursts k b).byte a = s.byte a) ∧
       (l.Pairwise (fun p q => p.1 + 4 ≤ q.1 ∨ q.1 + 4 ≤ p.1) → ∀ p ∈ l, (s.drainBursts k b).bytes p.1 4 = leBytes p.2)) ∧
     (∀ b, (s.streamOf k).inGap = true → ((s.drainBursts k b).streamOf k).staged.length + 64 ≤ 256 →
       exec (.chestGapEnd ⟨k, b⟩) s = .next ((s.drainBursts k b).endGap k) ∧
       ((((s.drainBursts k b).endGap k).streamOf k).inGap = false)))

/-- Channel commands: a start fetches the descriptor at CH_DESC, STOP_REQ asks a running channel to stop, and
CLEAR_HALT takes halted channels to STOPPED once no read is outstanding (R285, R286, R290). Check-value units: feeds
queue up and are processed in order, LOAD_INIT follows the feeds before it, and the halves of a 64-bit quantity move
together (R292, R293). A unit bound to a DMA channel discards writes and says which unit did (R294, R295). -/
def Obligations.DmaAndCvuCommands : Prop :=
  (∀ (n : Fin 16) (s : State), s.dataRuns = true →
     (s.chState n = 0 ∨ s.chState n = 3 ∨ s.chState n = 4 →
       exec (.dmaStart n) s = .next (((s.setChState n 1).fetchDesc n (s.reg (CH_DESC n)).toNat).issue)) ∧
     (s.chState n = 1 → exec (.dmaStart n) s = .next (s.setFlag DMA_FLAGS_WRITE_REFUSED)) ∧
     (s.chState n = 1 → exec (.dmaStopReq n) s = .next (s.setFld (CH_STATUS_STATE n) 2)) ∧
     (s.outstanding = 0 →
       exec .dmaClearHalt s =
         .next ((((s.forAll 16 (fun n t => if t.chState n = 5 then t.setChState n 3 else t)).setFld DMA_STATUS_HALTED 0).setReg
           DMA_ERR 0).issue)) ∧
     (0 < s.outstanding → exec .dmaClearHalt s = .next (s.setFlag DMA_FLAGS_WRITE_REFUSED))) ∧
  (∀ (u : Fin 8) (w : Word) (s : State), s.dataRuns = true → (s.cvuOf u).boundTo = none →
     (exec (.cvuData8 u w) s = .next (s.onCvu u (fun c => { c with feeds := c.feeds ++ [[byteOf w 0]] }))) ∧
     (exec (.cvuData16 u w) s = .next (s.onCvu u (fun c => { c with feeds := c.feeds ++ [[byteOf w 0, byteOf w 1]] }))) ∧
     (exec (.cvuData32 u w) s =
       .next (s.onCvu u (fun c => { c with feeds := c.feeds ++ [[byteOf w 0, byteOf w 1, byteOf w 2, byteOf w 3]] }))) ∧
     (∀ f rest, (s.cvuOf u).feeds = f :: rest →
       exec (.cvuFeedDone u) s = .next (s.onCvu u (fun c => { c with v := s.cvuRun u c.v f, feeds := rest }))) ∧
     (exec (.cvuLoadInit u) s = .next ((s.cvuFlush u).onCvu u (fun c => { c with v := s.cvuInit u }))) ∧
     (s.cvuIdle u = true → (s.reg (CVU_POLY_LO u) ≠ s.cvuHeld u 0 ∨ s.reg (CVU_POLY_HI u) ≠ w) →
       exec (.cvuHiWrite u 0 w) s =
         .next (((s.setCvuHeld u 0 0).setReg (CVU_POLY_LO u) (s.cvuHeld u 0)).setReg (CVU_POLY_HI u) w)) ∧
     (∀ k : Fin 4, exec (.cvuLoRead u k) s =
       .next { s.onCvu u (fun c =>
         { c with latch := (k.val, BitVec.ofNat 32 (s.cvuQuantity u k / 2 ^ 32)) :: c.latch.filter (fun p => p.1 ≠ k.val) }) with
           readData := BitVec.ofNat 32 (s.cvuQuantity u k) })) ∧
  (∀ (u : Fin 8) (w : Word) (m : Nat) (s : State), s.devRuns = true → (s.cvuOf u).boundTo = some m →
     exec (.cvuData8 u w) s = .next ((s.setFlag CVU_FLAGS_WRITE_REFUSED).setFld CVU_FLAGS_REFUSED_UNIT (2 ^ u.val)) ∧
     exec (.cvuData16 u w) s = .next ((s.setFlag CVU_FLAGS_WRITE_REFUSED).setFld CVU_FLAGS_REFUSED_UNIT (2 ^ u.val)) ∧
     exec (.cvuData32 u w) s = .next ((s.setFlag CVU_FLAGS_WRITE_REFUSED).setFld CVU_FLAGS_REFUSED_UNIT (2 ^ u.val)) ∧
     exec (.cvuLoadInit u) s = .next ((s.setFlag CVU_FLAGS_WRITE_REFUSED).setFld CVU_FLAGS_REFUSED_UNIT (2 ^ u.val)) ∧
     ∀ k : Fin 3, exec (.cvuHiWrite u k w) s =
       .next ((s.setFlag CVU_FLAGS_WRITE_REFUSED).setFld CVU_FLAGS_REFUSED_UNIT (2 ^ u.val)))

/-- A descriptor that fails a check of R283 stops its channel in ERROR with its code; the first error response halts
the engine, and DMA_ERR tells its kind; a read that is answered after the halt only drains (R283, R288, R289). A burst
of one element without a check-value unit writes that element to its destination and no other byte, and the last write
response completes the descriptor: its STATUS word in memory says so, and the channel is IDLE where NEXT is 0 (R281,
R284, R287). -/
def Obligations.DmaTransfers : Prop :=
  (∀ (n : Fin 16) (s : State), s.dataRuns = true →
     (∀ r, (s.chOf n).fetching = true → (s.chOf n).bursts ≠ [] → s.chState n = 1 → s.descRefusal n (s.chOf n).addr = r →
       r ≠ 0 →
       exec (.descriptorFetchDone n) s =
         .next (((((((s.onCh n (fun c => { c with fetching := false, bursts := [] })).setChState n 4).setFld
           (CH_STATUS_DERR n) r).setFlag DMA_FLAGS_DESC_ERR).count DMA_CNT_DESC_ERR_CNT).unbind n).issue)) ∧
     (∀ lastBeat addr, s.flag DMA_STATUS_HALTED = false →
       ∃ t, exec (.errorResponse 0 n lastBeat addr) s = .next t ∧ t.flag DMA_STATUS_HALTED = true ∧
         t.flag DMA_FLAGS_HALT = true ∧ t.reg DMA_ERR_ADDR = addr ∧ t.reg DMA_ERR = BitVec.ofNat 32 (2 ^ 28)) ∧
     (∀ lastBeat addr, s.flag DMA_STATUS_HALTED = true →
       exec (.errorResponse 0 n lastBeat addr) s =
         .next { s with dma := { s.dma with drain := s.dma.drain - 1 } })) ∧
  (∀ (n : Fin 16) (d : Desc) (s : State), s.dataRuns = true → (s.chOf n).desc = some d → (s.chOf n).bound = none →
     d.noDst = false →
     (∀ rest, (s.chOf n).bursts = 1 :: rest → (s.chOf n).returned + 1 < d.total →
       ∃ t, exec (.readBurstReturn n) s = .next t ∧ (t.chOf n).returned = (s.chOf n).returned + 1 ∧
         t.bytes (d.dstAt (s.chOf n).returned) d.esize = s.bytes (d.srcAt (s.chOf n).returned) d.esize ∧
         ∀ a, (a < d.dstAt (s.chOf n).returned ∨ d.dstAt (s.chOf n).returned + d.esize ≤ a) → t.byte a = s.byte a) ∧
     ((s.chOf n).writesOut = 1 → (s.chOf n).returned = d.total → s.chState n = 1 → d.cvuEn = false → d.next = 0 →
       d.irqDone = true →
       ∃ t, exec (.writeResponse n) s = .next t ∧ t.fldBit DMA_DONE_DONE n = true ∧ t.chState n = 0 ∧
         t.bytes ((s.chOf n).addr + 56) 4 = leBytes (BitVec.ofNat 32 (2 ^ 31)) ∧
         ∀ a, (a < (s.chOf n).addr + 56 ∨ (s.chOf n).addr + 60 ≤ a) → t.byte a = s.byte a))

/-- Safety inputs: a level, a valid demand of an STO pair, its end, a discrepancy, and the end of one, for which both
contacts read open and then close within T_DISC of each other (R343 to R345). Tests of the safe outputs: the pulse,
which waits for one on an output of the same station, its good end, a readback that differs, and the test after a
release (R346 to R348). -/
def Obligations.SafetyInputsAndOutputs : Prop :=
  (∀ (x : Fin 8) (s : State),
     (∀ trackB closed, exec (.sinLevelChange x trackB closed) s = .next (s.sinLevel x trackB closed) ∧
       ((s.sinLevel x trackB closed).sinOf x).demand = (s.sinOf x).demand ∧
       (if trackB then ((s.sinLevel x trackB closed).sinOf x).b else ((s.sinLevel x trackB closed).sinOf x).a) = closed) ∧
     (∀ t, (s.sinOf x).a = true → (s.sinOf x).b = false → (s.sinOf x).bothOpenSeen = true → (s.sinOf x).closeBy = some t →
       ((s.sinLevel x true true).sinOf x).disc = (if s.now ≤ t then false else (s.sinOf x).disc)) ∧
     ((s.sinOf x).a = false → (s.sinOf x).demand = false → s.fld (SAF_SIN_MAP_FUNC x) = 1 →
       exec (.sinDemandValid x) s =
         .next ((s.onSin x (fun p => { p with demand := true })).sinStations x (fun n t => t.holdStation n 1))) ∧
     ((s.sinOf x).a = true → (s.sinOf x).b = true → (s.sinOf x).disc = false →
       exec (.sinDemandEnd x) s = .next (s.onSin x (fun p => { p with demand := false }))) ∧
     ((s.sinOf x).a ≠ (s.sinOf x).b → (s.sinOf x).disc = false → s.fld (SAF_SIN_MAP_FUNC x) ≠ 0 →
       exec (.sinDiscrepancy x) s =
         .next ((((s.onSin x (fun p => { p with disc := true, demand := true, bothOpenSeen := false })).count
           SAF_CNT0_DISC_CNT).setFlag SAF_FLAGS_DISCREPANCY).sinStations x (fun n t => t.holdStation n 2)))) ∧
  (∀ (k : Fin 8) (s : State), s.safe.settleRuns = true →
     ((s.soutOf k).level = true → (s.soutOf k).fault = false → (s.soutOf k).testing = false → s.releasingOn k = false →
       s.testShared k = true →
       exec (.soutTestDue k) s = .next (s.onSout k (fun o => { o with deferred := true }))) ∧
     ((s.soutOf k).level = true → (s.soutOf k).fault = false → (s.soutOf k).testing = false → s.releasingOn k = false →
       s.testShared k = false →
       exec (.soutTestDue k) s = .next (s.onSout k (fun o => { o with testing := true, level := false, deferred := false })) ∧
       exec (.postReleaseTest k) s =
         .next (s.onSout k (fun o => { o with testing := true, level := false, deferred := false }))) ∧
     ((s.soutOf k).testing = true → (∀ j, j < 8 → (s.soutOf j).deferred = false) →
       exec (.soutTestEnd k false) s = .next (s.onSout k (fun o => { o with testing := false, level := true, srb := false })) ∧
       ((s.soutOf k).fault = false → s.pendSet = [] →
         ∃ t, exec (.soutTestEnd k true) s = .next t ∧ (t.soutOf k).level = false ∧ (t.soutOf k).fault = true ∧
           t.flag SAF_FLAGS_SOUT_FAULT = true)) ∧
     ((s.soutOf k).testing = false →
       exec (.srbReadbackCheck k (s.soutOf k).level) s = .next (s.onSout k (fun o => { o with srb := o.level })) ∧
       exec (.srbLevelChange k (s.soutOf k).level) s = .next (s.onSout k (fun o => { o with srb := o.level })) ∧
       exec (.srbReadbackCheck k (!(s.soutOf k).level)) s =
         .next ((s.onSout k (fun o => { o with srb := !o.level })).soutFault k)))

/-- A held removal: the station is held with its cause, its permit is gone and no half-bridge of it stays enabled; its
safe outputs are low (R339, R340, R348). Requests and diagnostics of Settle (R338, R339, R350, R354, R355, R357). -/
def Obligations.HeldRemovals : Prop :=
  (∀ (n : Fin 4) (cause : Nat) (s : State), cause < 32 → s.pendSet = [] → (s.safeOf n).held = false →
     ((s.holdStation n cause).safeOf n).held = true ∧ (s.holdStation n cause).fld (SAF_STN_CAUSE n) = cause ∧
     (s.holdStation n cause).permit n = false ∧
     (∀ k, k < 12 → ((s.holdStation n cause).hbOf n k).eff = false) ∧
     ∀ k, k < 8 → s.soutMap k n = true → ((s.holdStation n cause).soutOf k).level = false) ∧
  (∀ (s : State), s.safe.settleRuns = true →
     (∀ mask, exec (.safSs1Req mask) s =
       .next (s.forAll 4 (fun n t => if mask.toNat.testBit n && t.grantS n then t.startSafeStop n else t))) ∧
     (∀ mask, exec (.safStoReq mask) s =
       .next (s.forAll 4 (fun n t => if mask.toNat.testBit n && t.grantS n then t.holdStation n 13 else t))) ∧
     (exec .settleSilent s = .next ((s.setFlag SAF_LB_SETTLE_SILENT).holdAll 11)) ∧
     (exec (.rcFrequencyCheck true) s =
       .next (({ s with safe := { s.safe with rcBad := false } } : State).setFld SAF_STATUS_RC_OK 1)) ∧
     (exec (.rcFrequencyCheck false) s =
       .next (((({ s with safe := { s.safe with rcBad := true } } : State).setFld SAF_STATUS_RC_OK 0).setFlag
         SAF_FLAGS_RC_FAULT).holdAll 12)) ∧
     (exec (.settleCrcCheck true) s = .next s) ∧
     (exec (.settleCrcCheck false) s = .next s.settleStops) ∧ (exec .settleLockstepFault s = .next s.settleStops) ∧
     (2 ≤ s.calState → exec .coverTooLong s = .next (s.pairFailed (s.cal.target / 2))) ∧
     (exec .lowboyOscillatorStop s =
       .next (({ s with safe := { s.safe with lowboyStopped := true } } : State).forAll 4 (fun n t => t.dropGates n))))

/-- Release: outputs of the named stations go high when every condition holds, else the request is refused; good
readbacks return the permits (R358, R416). Highboy judges every granted station; a good snapshot record is kept with
its instant, and a record that repeats its sequence number changes nothing (R349, R351, R352). SENn falls: a station
that is not idle has a stop to serve; SENn rises: only the input moves (R78). -/
def Obligations.ReleaseAndMonitors : Prop :=
  (∀ (s : State), s.safe.settleRuns = true →
     (∀ mask, s.releaseSet mask.toNat ≠ [] → s.sourcePresent = false → s.debugOpen = false →
       (s.releaseSet mask.toNat).all (s.releaseOk (s.releaseSet mask.toNat)) = true →
       ∃ t, exec (.safRelease mask true) s = .next t ∧
         (∀ n, n ∈ s.releaseSet mask.toNat → (t.safeOf n).releasing = true ∧ (t.safeOf n).held = true) ∧
         ∀ k n, k < 8 → n ∈ s.releaseSet mask.toNat → s.soutMap k n = true → (t.soutOf k).level = true) ∧
     (∀ mask, s.releaseSet mask.toNat ≠ [] →
       exec (.safRelease mask false) s = .next (s.setFlag SAF_FLAGS_RELEASE_REFUSED)) ∧
     (∀ n : Fin 4, (s.safeOf n).releasing = true → n.val ∈ (s.safeOf n).party →
       ∃ t, exec (.releaseReadback (BitVec.allOnes 8)) s = .next t ∧ (t.safeOf n).held = false ∧
         (t.safeOf n).releasing = false)) ∧
  (∀ (s : State),
     (∀ speeds, s.safe.settleRuns = true →
       exec (.highboyTick speeds) s =
         .next (({ s with safe := { s.safe with
           encSpeed := (List.range 4).foldl (fun m n => tset (fun _ => 0) m n (speeds.getD n 0)) [] } } : State).forAll 4
             (fun n t => if t.grantS n then (t.monitorStop n).crossCheck n else t))) ∧
     (∀ (n : Fin 4) (ws : List Word), ws.length = 32 → ws.getD 31 0 = crc32c ((ws.take 31).flatMap leBytes) →
       (s.safeOf n).lastSeq ≠ some (ws.getD 0 0) →
       exec (.settleSnapshotReceived n ws) s =
         .next (s.onSafe n (fun f =>
           { f with
             goodAt := s.now, lastSeq := some (ws.getD 0 0), record := ws,
             lastP := (ratAbs (f32ToRat (ws.getD 10 0)) :: f.lastP).take 4 }))) ∧
     (∀ (n : Fin 4) (ws : List Word), (s.safeOf n).lastSeq = some (ws.getD 0 0) →
       exec (.settleSnapshotReceived n ws) s = .next s)) ∧
  (∀ (n : Fin 4) (s : State), s.islandsRun = true → (s.pwmOf n).run = true →
     (s.sen.getLsbD n = true → (s.stnOf n).idle = false →
       exec (.senChange n false) s =
         .next ({ s with sen := s.sen &&& ~~~(BitVec.ofNat 4 (2 ^ n.val)) }.onStn n (fun u => { u with stopReq := true }))) ∧
     exec (.senChange n true) s = .next { s with sen := s.sen ||| BitVec.ofNat 4 (2 ^ n.val) })

/-- Ends of a port: lock, loss with its wrap, the LNK messages, the driver's short and the hop that comes back (R228,
R230, R246, R247, R249). A wrapped end is silent and no longer up; BRK with the cause goes out of the other end, what
is planned moves there, and no frame is planned at a dead end any more (R230, R246, R248). -/
def Obligations.RingLinksAndWraps : Prop :=
  (∀ (q : Fin 64) (e : Fin 2) (s : State), s.dataRuns = true → s.portOn q = true →
     (∀ inv, exec (.rxLock q 0 inv) s =
       .next ((s.onEnd q 0 (fun x => { x with locked := true })).setFld (pq AQR_STATE_A_POL_INV q) inv.toNat)) ∧
     (∀ inv, exec (.rxLock q 1 inv) s =
       .next ((s.onEnd q 1 (fun x => { x with locked := true })).setFld (pq AQR_STATE_B_POL_INV q) inv.toNat)) ∧
     (exec (.rxLos q e) s =
       .next ((s.onEnd q e (fun x => { x with locked := false, linkUp := false })).wrapEnd q e 1)) ∧
     (exec (.lnkSend q) s = .next ((s.onEnd q 0 (fun x => x.sendLnk q)).onEnd q 1 (fun x => x.sendLnk q))) ∧
     (∀ w, (s.endOf q e).sentLnk.contains w = false →
       exec (.lnkReceived q e w) s =
         .next (s.onEnd q e (fun x => { x with echoRun := 0, echo := false }))) ∧
     (∀ w, (s.endOf q e).sentLnk.contains w = true → (s.endOf q e).echoRun = 7 →
       exec (.lnkReceived q e w) s =
         .next ((s.onEnd q e (fun x => { x with echoRun := 8, echo := true, linkUp := false })).wrapEnd q e 2)) ∧
     ((s.endOf q e).silent = true →
       exec (.wrapSilenceEnd q e) s =
         .next (s.onEnd q e (fun x => (({ x with silent := false }).sendLnk q).send
           (.brk (s.brkWord q e (if (s.endOf q e).echo then 2 else 1)))))) ∧
     ((s.endOf q e).wrapped = true → (s.endOf q e).locked = true → (s.endOf q e).echo = false →
       exec (.deviceEndLinkUp q e) s = .next (s.onEnd q e (fun x => { x with linkUp := true }))) ∧
     (exec (.endShort q e) s =
       .next (((s.onEnd q e (fun x => { x with short := true })).setFlag (pq AQR_FLAGS_END_SHORT q)).endOpen q e)) ∧
     (∀ still, (s.endOf q e).short = true →
       exec (.endShortRetry q e still) s = .next (s.onEnd q e (fun x => { x with short := still })))) ∧
  (∀ (q : Fin 64) (e : Fin 2) (cause : Nat) (s : State),
     ((s.wrapEnd q e cause).endOf q e).wrapped = true ∧ ((s.wrapEnd q e cause).endOf q e).linkUp = false ∧
     ((s.endOf q e).wrapped = false →
       ((s.wrapEnd q e cause).endOf q e).silent = true ∧
       ((s.endOf q (1 - e)).dead = false →
         s.wrapEnd q e cause =
           ((s.onEnd q e (fun x => { x with wrapped := true, linkUp := false, silent := true })).onEnd q (1 - e) (fun x =>
             x.send (.brk (s.brkWord q e cause)))).endOpen q e)) ∧
     (∀ k : Fin 2, (s.endOf q k).dead = true →
       ∀ f, ((s.sendFrame q e f).endOf q k).plan.length ≤ (s.endOf q k).plan.length) ∧
     (∀ k : Fin 2, (s.endOf q k).dead = true → ∀ p ∈ ((s.replan q).endOf q k).plan, p.2.sweep = false))

/-- Cells: an aborted one is counted, a bad one is asked for again up to the third bad copy within 40 µs, a header
cell sets the operation and tag of its end, a looping B-end passes a cell on and takes none; a NAK brings the copy
that the retry buffer holds (R231, R232, R240, R241, R247). Alarms and breaks count when both copies agree, and are
ignored otherwise; the first break opens a closed ring at its node, a second one of the same side at another node
segments it (R244, R247). A present node that has not been heard goes stale, and its port's inputs with it where it
measures; an ABT of the port less than 40 µs old holds the timer (R242, R254, R260). -/
def Obligations.RingTraffic : Prop :=
  (∀ (q : Fin 64) (e : Fin 2) (c : RingCell) (room : Bool) (s : State), s.dataRuns = true → s.portOn q = true →
     ((e = 0 ∨ s.flag (pq AQR_STATE_B_LOOP q) = false) →
       (c.abt = true →
         exec (.cellReceived q e c room) s =
           .next (((s.onEnd q e (fun x => x.countCell c)).count (pq AQR_CNT0_KILLED_CNT q)).onEnd q e (fun x =>
             { x with abtAt := some s.now }))) ∧
       (c.abt = false → cellGood c = false →
         exec (.cellReceived q e c room) s =
           .next ((s.onEnd q e (fun x => x.countCell c)).onEnd q e (fun x =>
             x.nakCell ((s.endOf q e).hopOf c) s.now))) ∧
       (cellGood c = true → cellTyp c = 0 → (c.payload.getD 1 0).toNat % 64 = q →
         ∃ t, exec (.cellReceived q e c room) s = .next t ∧ (t.endOf q e).op = cellIdx c ∧
           (t.endOf q e).tag = beNat ((c.payload.drop 2).take 2) ∧
           (t.endOf q e).tx = (s.endOf q e).tx ∧ t.regs = s.regs ∧ t.mem = s.mem)) ∧
     (s.flag (pq AQR_STATE_B_LOOP q) = true → cellGood c = true →
       ∃ t, exec (.cellReceived q 1 c room) s = .next t ∧
         (t.endOf q 1).tx = (.loop c :: (s.endOf q 1).tx).take 8 ∧ t.regs = s.regs ∧ t.mem = s.mem) ∧
     (∀ (x : PortEnd) (h now : Nat),
       (x.retry.find? (fun r => r.1 = h) = none →
         (x.nakCell h now).retry = x.retry ++ [(h, 1, now)] ∧ (x.nakCell h now).tx = (.nak h :: x.tx).take 8) ∧
       (∀ bad at0, x.retry.find? (fun r => r.1 = h) = some (h, bad, at0) → bad < 3 → now < at0 + usTicks 40 →
         (h, bad + 1, at0) ∈ (x.nakCell h now).retry ∧ (x.nakCell h now).tx = (.nak h :: x.tx).take 8) ∧
       (∀ bad at0, x.retry.find? (fun r => r.1 = h) = some (h, bad, at0) → 3 ≤ bad ∨ at0 + usTicks 40 ≤ now →
         (∀ r ∈ (x.nakCell h now).retry, r.1 ≠ h) ∧ (x.nakCell h now).tx = x.tx)) ∧
     (∀ (k : BitVec 4) p, ((s.flushPort q).endOf q e).kept.find? (fun p => p.1 = k.toNat) = some p →
       exec (.nakReceived q e k) s =
         .next (((s.flushPort q).count (pq AQR_CNT0_RETRY_CNT q)).onEnd q e (fun x => x.send (.copy p.2)))) ∧
     (∀ (k : BitVec 4), ((s.flushPort q).endOf q e).kept.find? (fun p => p.1 = k.toNat) = none →
       exec (.nakReceived q e k) s = .next (s.flushPort q)) ∧
     (exec (.hopRetryGiveup q e) s = .next (s.onEnd q e (fun x => { x with retry := x.retry.tail })))) ∧
  (∀ (q : Fin 64) (e : Fin 2) (c1 c2 : BitVec 16) (s : State), s.dataRuns = true → s.portOn q = true →
     (c1 ≠ c2 → exec (.almReceived q c1 c2) s = .next s ∧ exec (.brkReceived q e c1 c2) s = .next s) ∧
     (exec (.almReceived q c1 c1) s =
       .next (((((s.setReg (pq AQR_ALARM q)
         (BitVec.ofNat 32 (2 ^ 31 + c1.toNat / 128 * 65536 + c1.toNat % 128))).count (pq AQR_CNT2_ALARM_CNT q)).setFlag
           (pq AQR_FLAGS_ALARM q)).logEvent 1 q (c1.toNat / 128) (c1.toNat % 128)).chestEvent 4 q (some 64))) ∧
     (s.portState q = 3 →
       (∃ t, exec (.brkReceived q 0 c1 c1) s = .next t ∧ t.fld (pq AQR_BREAK_BREAK_A q) = c1.toNat / 128 ∧
         t.portState q = 4 ∧ t.flag (pq AQR_FLAGS_RING_OPEN q) = true ∧ (t.portOf q).endA = c1.toNat / 128 + 1) ∧
       (∃ t, exec (.brkReceived q 1 c1 c1) s = .next t ∧ t.fld (pq AQR_BREAK_BREAK_B q) = c1.toNat / 128 ∧
         t.portState q = 4 ∧ t.flag (pq AQR_FLAGS_RING_OPEN q) = true ∧ (t.portOf q).firstB = c1.toNat / 128)) ∧
     (s.portState q = 4 → s.fld (pq AQR_BREAK_BREAK_A q) ≠ 1023 → s.fld (pq AQR_BREAK_BREAK_A q) ≠ c1.toNat / 128 →
       ∃ t, exec (.brkReceived q 0 c1 c1) s = .next t ∧ t.portState q = 5 ∧ t.flag (pq AQR_FLAGS_SEGMENTED q) = true)) ∧
  (∀ (q : Fin 64) (l : Fin 512) (s : State), s.dataRuns = true → s.portOn q = true → s.nodePresent q l = true →
     s.nodeStale q l = false →
     ((∀ t, (s.portOf q).a.abtAt = some t → t + usTicks 40 ≤ s.now) → (∀ t, (s.portOf q).b.abtAt = some t → t + usTicks 40 ≤ s.now) →
       (s.nodeMeasures q l = false →
         exec (.nodeStale q l) s =
           .next ((((s.setNodeBit AQR_NODE_STALE q l true).setFlag (pq AQR_FLAGS_NODE_STALE q)).count
             (pq AQR_CNT1_STALE_CNT q)).onEntries q l (fun x => { x with stale := true }))) ∧
       (s.nodeMeasures q l = true →
         exec (.nodeStale q l) s =
           .next (((((s.setNodeBit AQR_NODE_STALE q l true).setFlag (pq AQR_FLAGS_NODE_STALE q)).count
             (pq AQR_CNT1_STALE_CNT q)).onEntries q l (fun x => { x with stale := true })).aggStale q))) ∧
     (∀ t, (s.portOf q).a.abtAt = some t ∨ (s.portOf q).b.abtAt = some t → s.now < t + usTicks 40 →
       exec (.nodeStale q l) s = .next s))

/-- One point of an accepted data cell updates its Shelf entry and no other byte (R253): a value in range becomes the
value and moves MIN and MAX, which both take it where a clear or a replacement is pending or nothing was stored yet; a
fault code of a class only sets FAULT. -/
def Obligations.ShelfPoints : Prop :=
  ∀ (q l j v : Nat) (s : State), q < 64 → l < 512 → j < 160 → v < 65536 →
    (isFaultCode (s.pointClass q j) v = false →
      ((s.shelfPoint q l j v).entry (entryNo q l j)).value = v ∧
      ((s.shelfPoint q l j v).entry (entryNo q l j)).age = 0 ∧
      ((s.shelfPoint q l j v).entry (entryNo q l j)).fault = false ∧
      ((s.shelfPoint q l j v).entry (entryNo q l j)).never = false ∧
      ((s.entry (entryNo q l j)).never = true ∨ s.restartPending q (entryNo q l j) = true →
        ((s.shelfPoint q l j v).entry (entryNo q l j)).min = v ∧ ((s.shelfPoint q l j v).entry (entryNo q l j)).max = v)) ∧
    (isFaultCode (s.pointClass q j) v = true →
      ((s.shelfPoint q l j v).entry (entryNo q l j)).fault = true ∧
      ((s.shelfPoint q l j v).entry (entryNo q l j)).value = (s.entry (entryNo q l j)).value) ∧
    ∀ a, (a < entryAddr (entryNo q l j) ∨ entryAddr (entryNo q l j) + 8 ≤ a) → (s.shelfPoint q l j v).byte a = s.byte a

/-- Discovery: a closed ring becomes CLOSED with its nodes counted and no break, an open one OPEN; frames that come
back at another port make it CROSSED; the B-end's ENUM places its nodes; ABSENT is entered when an outstanding ENUM
finds no locked receiver, and it is tried again (R237, R247). -/
def Obligations.RingDiscovery : Prop :=
  ∀ (q : Fin 64) (ids : List IdCell) (s : State), s.dataRuns = true → s.portOn q = true →
    (s.reg (pq AQR_LAST_UID q) = 0 → ids.length < 512 →
      (∃ t, exec (.enumReturn q 0 q 1 ids) s = .next t ∧ t.portState q = 3 ∧ t.fld (pq AQR_STATE_FOUND q) = ids.length ∧
        t.fld (pq AQR_BREAK_BREAK_A q) = 1023 ∧ t.fld (pq AQR_BREAK_BREAK_B q) = 1023) ∧
      (∃ t, exec (.enumReturn q 0 q 0 ids) s = .next t ∧ t.portState q = 4 ∧ t.flag (pq AQR_FLAGS_RING_OPEN q) = true)) ∧
    (∀ (sent : Fin 2) (p : Fin 64) (e : Fin 2), p ≠ q →
      ∃ t, exec (.enumReturn q sent p e ids) s = .next t ∧ t.portState q = 6 ∧ t.flag (pq AQR_FLAGS_CROSSED q) = true ∧
        t.fld (pq AQR_STATE_CROSS_PORT q) = p ∧ t.flag (pq AQR_STATE_B_LOOP q) = true) ∧
    (∀ e : Fin 2, exec (.enumReturn q 1 q e ids) s =
      .next ((s.onPort q (fun p => { p with enumOut := false })).placeFromB q ids)) ∧
    ((s.portOf q).enumOut = true → (s.portOf q).a.locked = false → (s.portOf q).b.locked = false →
      exec (.enumAbsent q) s = .next ((s.onPort q (fun p => { p with enumOut := false })).setPortState q 1)) ∧
    ((s.portOf q).enumOut = false → exec (.enumAbsent q) s = .next s) ∧
    (s.portState q = 1 → exec (.discoveryRetry q) s = .next ((s.setPortState q 2).sendEnum q 0 0 0))

/-- Sweeps: one starts when due, is late while another runs, and ends with its count and state once its frames have
gone (R250, R253); REDISCOVER waits for the next start, SWEEP_NOW does not. Commands of a port: one that expects a
status cell goes out and keeps the port busy, a broadcast goes out of every serving end and ends at once, one to a
port that knows no ring ends with its result, a busy port refuses, and no reply ends it too (R250, R260). The Shelf's
commands (R253, R254) and the envelope that firmware computes (R256). -/
def Obligations.RingAndShelfCommands : Prop :=
  (∀ (q : Fin 64) (s : State), s.dataRuns = true → s.portOn q = true →
     (s.canSweep q = true → s.flag (pq AQR_STATE_SWEEPING q) = false →
       exec (.sweepStart q) s = .next (s.beginSweep q) ∧
       (s.window (0x20 + q / 16) = some true → exec (.aqrSweepNow q) s = .next (s.beginSweep q))) ∧
     (s.canSweep q = true → s.flag (pq AQR_STATE_SWEEPING q) = true →
       exec (.sweepStart q) s =
         .next (((s.count (pq AQR_CNT2_SWEEP_LATE_CNT q)).setFlag (pq AQR_FLAGS_SWEEP_LATE q)).onPort q (fun p =>
           { p with lateDue := true }))) ∧
     (s.flag (pq AQR_STATE_SWEEPING q) = true → (s.portOf q).lateDue = false → s.nodes q = [] →
       exec (.sweepEnd q) s =
         .next (((((s.onPort q (fun _ => s.sweepSent q)).setFld (pq AQR_SWEEP_STAT_SWEEP_COUNT q) (s.portOf q).sweepNo).setFld
           (pq AQR_SWEEP_STAT_LAST_T q) (min ((s.now - (s.portOf q).sweepAt) / 4000) 65535)).setFld
             (pq AQR_STATE_SWEEPING q) 0).writeAggregate q)) ∧
     (s.window (0x20 + q / 16) = some true → s.portState q ≠ 6 →
       exec (.aqrRediscover q) s = .next (s.onPort q (fun p => { p with rediscover := true })))) ∧
  (∀ (q : Fin 64) (s u : State), s.dataRuns = true → s.window (0x20 + q / 16) = some true →
     u = ((s.setReg (pq AQR_CMD_RES q) 0).onPort q (fun p =>
       { p with readCells := 0, cmdSeq := p.cmdSeq + 1, cmdLeft := s.commandNodes q })).flushPort q →
     ((s.portOf q).cmdBusy = true → exec (.aqrCmdGo q) s = .next (s.setFlag (pq AQR_FLAGS_WRITE_REFUSED q))) ∧
     ((s.portOf q).cmdBusy = false →
       (3 ≤ s.portState q →
         (s.fld (pq AQR_CMD_HDR_OP q) = 1 ∨ s.fld (pq AQR_CMD_HDR_OP q) = 4 ∨ s.fld (pq AQR_CMD_HDR_OP q) = 5 →
           exec (.aqrCmdGo q) s =
             .next ((u.onPort q (fun p => { p with cmdBusy := true })).sendCommand q
               (s.endFor q (s.fld (pq AQR_CMD_HDR_NODE q))))) ∧
         (s.fld (pq AQR_CMD_HDR_OP q) ≠ 1 → s.fld (pq AQR_CMD_HDR_OP q) ≠ 4 → s.fld (pq AQR_CMD_HDR_OP q) ≠ 5 →
           exec (.aqrCmdGo q) s =
             .next (((s.servingEnds q).foldl (fun t e => t.sendCommand q e) u).commandEnd q 0 0))) ∧
       (s.portState q < 3 → exec (.aqrCmdGo q) s = .next (u.commandEnd q 3 0))) ∧
     (s.portOn q = true → (s.portOf q).cmdBusy = true → (s.portOf q).cmdSlot = none →
       exec (.commandNoReply q) s =
         .next ((s.setReg (pq AQR_CMD_RES q) (BitVec.ofNat 32 (2 ^ 31 + 2 ^ 28))).onPort q (fun p =>
           { p with cmdBusy := false, cmdSlot := none })))) ∧
  (∀ (q : Fin 64) (s : State), s.dataRuns = true →
     (exec .shfClrAll s = .next (s.forAll 64 (fun q t => t.onPort q (fun p => { p with clears := p.clears + 1 })))) ∧
     (exec (.shfClrRing q) s =
       .next ((s.setFld SHF_CTRL_RING q).onPort q (fun p => { p with clears := p.clears + 1 }))) ∧
     (exec (.shfAgg0Read q) s =
       .next { s.onPort q (fun p => { p with aggCopy := (List.range 9).map (fun w => s.reg (SHF_AGG0 q + 4 * w)) }) with
         readData := s.reg (SHF_AGG0 q) }) ∧
     (exec .shelfInitDone s = .next (s.setFld SHF_STATUS_INIT_DONE 1)) ∧
     (s.grantPort q = true → exec (.aggStaleTimeout q) s = .next (s.aggStale q)) ∧
     (s.mgmtRuns = true → s.islandsRun = true →
       exec .envelopeCompute s = .next (s.forAll 4 (fun n t => if t.grantS n then t.computeEnvelope n else t))))

/-- The increment that TIM_INCR holds after reset moves the clock by 2.5 ns a tick: two ticks make 5 ns and leave the
fraction as it was (R297, R298). -/
def Obligations.ClockTicks : Prop :=
  ∀ (c : Clock), c.frac < 2 ^ 28 →
    ((c.tick 0x28000000).tick 0x28000000).frac = c.frac ∧
    (((c.tick 0x28000000).tick 0x28000000).secs * nsPerSec + ((c.tick 0x28000000).tick 0x28000000).ns) % (2 ^ 48 * nsPerSec) =
      (c.secs * nsPerSec + c.ns + 5) % (2 ^ 48 * nsPerSec)

/-- A read of TIM_NS latches the seconds: TIM_S_LO and TIM_S_HI show them as they were, while time passes, until the
next such read (R299). Reads that latch: nanoseconds with their seconds, the always-on count, and the oldest stamp of
a capture input (R299, R305, R308). Steps: one waits for its tick, one while another waits is refused and counted; the
tick applies it within the window and refuses it outside; CLR_EST clears TIME_ESTIMATED (R303, R306, R314). -/
def Obligations.TimeCommands : Prop :=
  (∀ (s : State), s.devRuns = true →
     ∃ t, exec .timNsRead s = .next t ∧ t.readData = BitVec.ofNat 32 s.clock.ns ∧
       t.regView TIM_S_LO = BitVec.ofNat 32 s.clock.secs ∧ t.regView TIM_S_HI = BitVec.ofNat 32 (s.clock.secs / 2 ^ 32 % 2 ^ 16) ∧
       (t.tick).regView TIM_S_LO = t.regView TIM_S_LO ∧ (t.tick).regView TIM_S_HI = t.regView TIM_S_HI) ∧
  (∀ (s : State), s.devRuns = true →
     (exec .timNsRead s =
       .next { s with clock := { s.clock with latched := s.clock.secs }, readData := BitVec.ofNat 32 s.clock.ns }) ∧
     (exec .timAonLoRead s =
       .next { s with clock := { s.clock with aonHi := s.clock.aon / 2 ^ 32 }, readData := BitVec.ofNat 32 s.clock.aon }) ∧
     (∀ c : Fin 16, (s.capOf c).fifo = [] →
       exec (.timCapLoRead c) s = .next { s.setReg (TIM_CAP_INFO c) 0 with readData := 0 }) ∧
     (∀ (c : Fin 16) (e : Stamp), (s.capOf c).fifo = [e] →
       exec (.timCapLoRead c) s =
         .next { ((((s.onCap c (fun x => { x with fifo := [] })).setFldBit TIM_CAP_STATUS_NONEMPTY c false).setReg (TIM_CAP_HI c)
           (BitVec.ofNat 32 (e.time / 2 ^ 32))).setReg (TIM_CAP_INFO c) (BitVec.ofNat 32 (256 + e.rising.toNat))) with
             readData := BitVec.ofNat 32 e.time })) ∧
  (∀ (s : State), s.devRuns = true →
     (∀ hi, s.clock.step = none →
       exec (.timStepHiWrite hi) s =
         .next ({ s with clock := { s.clock with
           step := some (signedOf 64 (hi.toNat * 2 ^ 32 + s.clock.stepLo.toNat)) } }.setFld TIM_STATUS_STEP_PENDING 1)) ∧
     (∀ hi d, s.clock.step = some d →
       exec (.timStepHiWrite hi) s = .next ((s.setFlag TIM_FLAGS_STEP_REFUSED).count TIM_CNT0_STEP_REFUSED_CNT)) ∧
     (∀ d, s.clockRuns = true → s.clock.step = some d → s.stepOk d = true →
       ∃ t, exec .timStepApply s = .next t ∧ t.localNs = (s.localNs + d) % (2 ^ 48 * 1000000000) ∧ t.clock.step = none ∧
         t.fld TIM_STATUS_STEP_PENDING = 0 ∧ t.fld TIM_STATUS_UNSET = 0 ∧ t.flag TIM_FLAGS_STEP_DONE = true) ∧
     (∀ d, s.clockRuns = true → s.clock.step = some d → s.stepOk d = false →
       ∃ t, exec .timStepApply s = .next t ∧ t.localNs = s.localNs ∧ t.clock.step = none ∧
         t.fld TIM_STATUS_STEP_PENDING = 0 ∧ t.flag TIM_FLAGS_STEP_REFUSED = true) ∧
     (exec .timClrEst s = .next (s.setFld TIM_STATUS_TIME_ESTIMATED 0)))

/-- An edge of a capture input that its filter accepts: its level, with its EDGE bit set a stamp in the FIFO or the
loss of one, and the word of the Trestle inputs that name it; in RETAIN the stamp alone; one that the filter drops
changes nothing (R155, R307, R308, R435). Routes and triggers are off. -/
def Obligations.CaptureEdges : Prop :=
  ∀ (c : Fin 16) (rising : Bool) (held : Nat) (s u : State), s.edgeAccepted c rising held = true →
    u = s.onCap c (fun x => { x with level := rising }) →
    (s.islandsRun = true → s.dataRuns = true →
      (∀ k, k < 16 → s.reg (ADC_TRGMAP_CAP k) = 0) → (∀ t, t < 8 → s.actFld (CHS_TRG_EN t) = 0) →
      ((s.fld (TIM_CAP_CFG_EDGE c)).testBit (if rising then 0 else 1) = true → (s.capOf c).fifo.length < 4 →
        exec (.captureEdge c ⟨rising, held⟩) s =
          .next (((u.onCap c (fun x => { x with fifo := x.fifo ++ [⟨s.stamp, rising⟩] })).setFldBit TIM_CAP_STATUS_NONEMPTY c
            true).deliverAll 2 c (Config.captureWord rising s.stamp))) ∧
      ((s.fld (TIM_CAP_CFG_EDGE c)).testBit (if rising then 0 else 1) = true → 4 ≤ (s.capOf c).fifo.length →
        exec (.captureEdge c ⟨rising, held⟩) s =
          .next ((((u.setFldBit TIM_CAP_STATUS_CAP_OVF c true).setFlag TIM_FLAGS_CAP_OVF).count
            TIM_CNT1_CAP_OVF_CNT).deliverAll 2 c (Config.captureWord rising s.stamp))) ∧
      ((s.fld (TIM_CAP_CFG_EDGE c)).testBit (if rising then 0 else 1) = false →
        exec (.captureEdge c ⟨rising, held⟩) s = .next (u.deliverAll 2 c (Config.captureWord rising s.stamp)))) ∧
    (s.devRuns = true → s.islandsRun = false → s.dataRuns = false →
      exec (.captureEdge c ⟨rising, held⟩) s = .next (u.captureStamp c rising)) ∧
    (∀ k, s.edgeAccepted c rising k = false → exec (.captureEdge c ⟨rising, k⟩) s = .next s)

/-- The IEEE 1588 slave: Sync and Follow_Up of the chosen master make an offset, Announce chooses the master,
Delay_Req and Delay_Resp the path delay, silence the fallback and the holdover (R310 to R312). -/
def Obligations.PtpSlave : Prop :=
  ∀ (h : PtpHdr) (s : State), s.mgmtRuns = true → s.ptpMode = 1 →
    (s.ptpAccepts h (-3) 1 = true → h.twoStep = true → s.ptp.master = some h.source →
      exec (.ptpSyncReceived h) s = .next { s with ptp := { s.ptp with sync := some (h.seq, s.localNs) } }) ∧
    (s.ptpAccepts h (-3) 1 = false ∨ h.twoStep = false → exec (.ptpSyncReceived h) s = .next s.ptpIgnore) ∧
    (∀ t1 t2 d, s.ptpAccepts h (-3) 1 = true → s.ptp.master = some h.source → s.ptp.sync = some (h.seq, t2) →
      s.ptp.fallback = false → s.ptp.pathDelay = some d →
      exec (.ptpFollowUpReceived h t1) s =
        .next (({ s with ptp := { s.ptp with sync := none, d21 := some (t2 - t1) } } : State).ptpOffset ((t2 - t1 : Int) - d))) ∧
    (∀ ds, s.ptpAccepts h (-128) 127 = true → s.ptp.master = none → s.ptp.refused = false →
      ∃ t, exec (.ptpAnnounceReceived h ds) s = .next t ∧ t.ptp.master = some h.source ∧ t.ptp.dataset = ds ∧
        t.regs = s.regs ∧ t.fwReg 0x1808 = f32OfRat 2) ∧
    (∀ t3 t4 d, s.ptpAccepts h 0 5 = true → s.ptp.master = some h.source → s.ptp.req = some (h.seq, t3) →
      s.ptp.d21 = some d → s.ptp.fallback = false →
      exec (.ptpDelayRespReceived h t4) s =
        .next { s with ptp := { s.ptp with
          req := none, unanswered := 0, fallback := false, pathDelay := some ((d + (t4 - t3) : Int) / 2) } }) ∧
    (∀ seq, s.ptp.master = some h.source →
      exec (.ptpDelayReqSend seq) s =
        .next { s with ptp := { s.ptp with req := some (seq, s.localNs), unanswered := s.ptp.unanswered + 1 } }) ∧
    (8 ≤ s.ptp.unanswered → s.ptp.fallback = false →
      exec .ptpListenFallback s = .next (({ s with ptp := { s.ptp with fallback := true } } : State).setPtpState 3)) ∧
    (exec .ptpAnnounceTimeout s =
      .next (({ s with ptp := { s.ptp with master := none, dataset := [], sync := none, d21 := none, req := none } } : State).setPtpState 4))

/-- What a write leaves in a field, by its access and timing class: reads and write-only bits stay, a flag falls where
a 1 is written, a counter falls on all ones, a stored field takes its bits, and an idle-only one only on an idle block
(R11, R12, R16). -/
def Obligations.FieldClasses : Prop :=
  ∀ (r : RegDesc) (f : FieldDesc) (idle : Bool) (wr old : Word), r ∈ regMap → f ∈ r.fields →
    (f.acc = .ro ∨ f.acc = .wo ∨ f.acc = .rc → bits (applyWrite r idle wr old) f.lo f.w = bits old f.lo f.w) ∧
    (f.acc = .w1c →
      bits (applyWrite r idle wr old) f.lo f.w = bits old f.lo f.w - (bits old f.lo f.w &&& bits wr f.lo f.w)) ∧
    (f.acc = .cnt →
      bits (applyWrite r idle wr old) f.lo f.w = if bits wr f.lo f.w = 2 ^ f.w - 1 then 0 else bits old f.lo f.w) ∧
    (f.acc = .rw → f.cls ≠ .idle ∨ idle = true → bits (applyWrite r idle wr old) f.lo f.w = bits wr f.lo f.w) ∧
    (f.acc = .rw → f.cls = .idle → idle = false → bits (applyWrite r idle wr old) f.lo f.w = bits old f.lo f.w)

/-- One write by its address: misaligned or unlisted sets ADDR_ERR, an ungranted window GRANT_MISS, a gated window and
a closed register take nothing, any other register takes the write, and the aperture stores one word of memory and no
other byte (R7, R26, R31, R39 to R41). A read by its address: an ungranted window reads 0 and sets GRANT_MISS, which a
write of its bit clears; a gated window reads 0 and changes nothing; the aperture shows the region that BASE selects,
and outside SRAM and DRAM it reads 0 and sets APERTURE_ERR (R7, R26, R40). A row that is one access of a register
follows the same rules: on a unit that is not granted it sets GRANT_MISS and does nothing else, on a gated island it
does nothing, and a read gives 0 in both cases (R7, R26). -/
def Obligations.BusAccesses : Prop :=
  (∀ (m : Master) (addr : BitVec 24) (w : Word) (late : Bool) (s : State), s.devRuns = true →
     (addr.toNat % 4 ≠ 0 → exec (.registerWrite m addr w late) s = .next (s.setFlag SYS_STATUS_ADDR_ERR)) ∧
     (addr.toNat % 4 = 0 → addr.toNat < 0x800000 →
       (s.window (addr.toNat / 0x10000) = none →
         exec (.registerWrite m addr w late) s = .next (s.setFlag SYS_STATUS_ADDR_ERR)) ∧
       (s.window (addr.toNat / 0x10000) = some false →
         exec (.registerWrite m addr w late) s = .next (s.setFlag SYS_STATUS_GRANT_MISS)) ∧
       (s.window (addr.toNat / 0x10000) = some true → s.gatedWindow (addr.toNat / 0x10000) = true →
         exec (.registerWrite m addr w late) s = .next s) ∧
       (s.window (addr.toNat / 0x10000) = some true → m ≠ .mgmt → regClosed addr.toNat = true →
         exec (.registerWrite m addr w late) s = .next s) ∧
       (s.window (addr.toNat / 0x10000) = some true → s.gatedWindow (addr.toNat / 0x10000) = false →
         s.mayWrite m addr.toNat = true →
         exec (.registerWrite m addr w late) s = .next (s.regWrite m addr.toNat w late))) ∧
     (addr.toNat % 4 = 0 → 0x800000 ≤ addr.toNat →
       (inMemory (s.apertureAt addr.toNat) = false →
         exec (.registerWrite m addr w late) s = .next (s.setFlag SYS_STATUS_APERTURE_ERR)) ∧
       (inMemory (s.apertureAt addr.toNat) = true → m ≠ .mgmt → memClosed (s.apertureAt addr.toNat) = true →
         exec (.registerWrite m addr w late) s = .next s) ∧
       (inMemory (s.apertureAt addr.toNat) = true → m = .mgmt ∨ memClosed (s.apertureAt addr.toNat) = false →
         ∃ t, exec (.registerWrite m addr w late) s = .next t ∧ t.word (s.apertureAt addr.toNat) = w ∧ t.regs = s.regs ∧
           ∀ a, (a < s.apertureAt addr.toNat ∨ s.apertureAt addr.toNat + 4 ≤ a) → t.byte a = s.byte a))) ∧
  (∀ (a : Nat) (s : State),
     (a < 0x800000 → s.window (a / 0x10000) = some false →
       s.busRead a = ⟨s.setFlag SYS_STATUS_GRANT_MISS, 0, .ungranted⟩) ∧
     (∀ (m : Master) (late : Bool), (s.busWrite m SYS_STATUS (BitVec.ofNat 32 (2 ^ SYS_STATUS_GRANT_MISS.lo)) late).st.flag
       SYS_STATUS_GRANT_MISS = false) ∧
     (a < 0x800000 → s.window (a / 0x10000) = some true → s.gatedWindow (a / 0x10000) = true →
       s.busRead a = ⟨s, 0, .gated⟩ ∧ accessPrev (s.busRead a).access = 1) ∧
     (0x800000 ≤ a → s.apertureAt a = s.fld SYS_APERTURE_BASE * 2 ^ 23 + (a - 0x800000)) ∧
     (0x800000 ≤ a → inMemory (s.apertureAt a) = true → s.busRead a = ⟨s, s.word (s.apertureAt a), .reached⟩) ∧
     (0x800000 ≤ a → inMemory (s.apertureAt a) = false →
       s.busRead a = ⟨s.setFlag SYS_STATUS_APERTURE_ERR, 0, .aperture⟩ ∧
       ∀ (m : Master) (w : Word) (late : Bool),
         s.busWrite m a w late = ⟨s.setFlag SYS_STATUS_APERTURE_ERR, 0, .aperture⟩)) ∧
  (∀ (s : State), s.devRuns = true →
     (∀ (n : Fin 4), s.grantS n = false →
       (∀ w, exec (.gfmRunRequest n w) s = .next (s.setFlag SYS_STATUS_GRANT_MISS)) ∧
       (∀ i w late, exec (.gfmParWrite n i w late) s = .next (s.setFlag SYS_STATUS_GRANT_MISS)) ∧
       (∀ w, exec (.pwmHbEnWrite n w) s = .next (s.setFlag SYS_STATUS_GRANT_MISS)) ∧
       exec (.gfmSnap0Read n) s = .next { s.setFlag SYS_STATUS_GRANT_MISS with readData := 0 }) ∧
     (s.grantB = false → exec (.trsDmemDataRead 1) s = .next { s.setFlag SYS_STATUS_GRANT_MISS with readData := 0 }) ∧
     (s.grantChest = false → exec .chsArm s = .next (s.setFlag SYS_STATUS_GRANT_MISS)) ∧
     (s.grantSlk = false → exec .slkAlignGo s = .next (s.setFlag SYS_STATUS_GRANT_MISS)) ∧
     (∀ (q : Fin 64), s.grantPort (16 * (q / 16)) = false → exec (.aqrCmdGo q) s = .next (s.setFlag SYS_STATUS_GRANT_MISS)) ∧
     (s.fld PWR_STATUS_STATE ≠ 0 →
       (∀ (n : Fin 4), s.grantS n = true →
         (∀ w, exec (.pwmHbEnWrite n w) s = .next s) ∧ exec (.gfmSnap0Read n) s = .next { s with readData := 0 }) ∧
       (∀ w, exec (.adcGoWrite w) s = .next s) ∧
       exec (.trsDmemDataRead 0) s = .next { s with readData := 0 } ∧
       (∀ n, exec (.trsExecMaxRead 0 n) s = .next { s with readData := 0 })))

/-- SPI frames: a read answers status, words and CRC-8 and counts; a write is applied in address order, or discarded
whole where its length or its CRC-8 is wrong (R42 to R45). A read frame whose header fails its CRC-8 reads nothing:
every word is 0, no register but SYS_STATUS changes, and the status word of the same frame reports it (R44). -/
def Obligations.SpiFrames : Prop :=
  (∀ (count : Fin 64) (addr : BitVec 24) (s : State), s.devRuns = true →
     (∀ notReady, addr.toNat % 4 = 0 → addr.toNat % 0x10000 + 4 * (count.val + 1) ≤ 0x10000 →
       exec (.spiReadIncrementing count addr (crc8 (spiHeader 0 count addr)) notReady (count.val + 1)) s =
         .next ((s.spiReadWords true addr.toNat notReady (count.val + 1)).1.spiEnd
           (s.spiReadWords true addr.toNat notReady (count.val + 1)).2.2 true
           ((beBytes (s.spiStatus false) ++ (s.spiReadWords true addr.toNat notReady (count.val + 1)).2.1.flatMap beBytes) ++
             [crc8 (beBytes (s.spiStatus false) ++
               (s.spiReadWords true addr.toNat notReady (count.val + 1)).2.1.flatMap beBytes)]))) ∧
     (∀ notReady, addr.toNat % 4 = 0 →
       exec (.spiReadFixed count addr (crc8 (spiHeader 2 count addr)) notReady (count.val + 1)) s =
         .next ((s.spiReadWords false addr.toNat notReady (count.val + 1)).1.spiEnd
           (s.spiReadWords false addr.toNat notReady (count.val + 1)).2.2 true
           ((beBytes (s.spiStatus false) ++ (s.spiReadWords false addr.toNat notReady (count.val + 1)).2.1.flatMap beBytes) ++
             [crc8 (beBytes (s.spiStatus false) ++
               (s.spiReadWords false addr.toNat notReady (count.val + 1)).2.1.flatMap beBytes)]))) ∧
     (∀ (data : List Byte) (late : BitVec 64), data.length = 4 * (count.val + 1) → addr.toNat % 4 = 0 → addr.toNat % 0x10000 + 4 * (count.val + 1) ≤ 0x10000 →
       ∃ t, exec (.spiWriteIncrementing count addr data (crc8 (spiHeader 1 count addr ++ data)) late) s = .next t ∧
         t.regs = (s.spiWriteWords 4 addr.toNat (fun k => late.getLsbD k) 0 (beWords data)).1.regs ∧
         t.mem = (s.spiWriteWords 4 addr.toNat (fun k => late.getLsbD k) 0 (beWords data)).1.mem ∧
         t.spi.prev = (s.spiWriteWords 4 addr.toNat (fun k => late.getLsbD k) 0 (beWords data)).2) ∧
     (∀ (data : List Byte) (late : BitVec 64), data.length = 4 * (count.val + 1) → addr.toNat % 4 = 0 →
       ∃ t, exec (.spiWriteFixed count addr data (crc8 (spiHeader 3 count addr ++ data)) late) s = .next t ∧
         t.regs = (s.spiWriteWords 0 addr.toNat (fun k => late.getLsbD k) 0 (beWords data)).1.regs ∧
         t.mem = (s.spiWriteWords 0 addr.toNat (fun k => late.getLsbD k) 0 (beWords data)).1.mem ∧
         t.spi.prev = (s.spiWriteWords 0 addr.toNat (fun k => late.getLsbD k) 0 (beWords data)).2) ∧
     (∀ (data : List Byte) (crc : Byte) (late : BitVec 64), data.length = 4 * (count.val + 1) → crc8 (spiHeader 1 count addr ++ data) ≠ crc →
       ∃ t, exec (.spiWriteIncrementing count addr data crc late) s = .next t ∧
         t.regs = (s.setFlag SYS_STATUS_SPI_CRC).regs ∧ t.mem = s.mem ∧ t.spi.prev = 32 ∧ t.spi.count = s.spi.count) ∧
     (∀ (data : List Byte) (crc : Byte) (late : BitVec 64), data.length ≠ 4 * (count.val + 1) →
       ∃ t, exec (.spiWriteIncrementing count addr data crc late) s = .next t ∧
         t.regs = s.regs ∧ t.mem = s.mem ∧ t.spi.prev = 16 ∧ t.spi.count = s.spi.count)) ∧
  (∀ (count : Fin 64) (addr : BitVec 24) (crc : Byte) (notReady : BitVec 64) (s : State), s.devRuns = true →
     (s.spiStatus true).getLsbD 23 = true ∧ (s.spiStatus false).getLsbD 23 = false ∧
     (crc8 (spiHeader 0 count addr) ≠ crc →
       exec (.spiReadIncrementing count addr crc notReady (count.val + 1)) s =
         .next ((s.setFlag SYS_STATUS_SPI_CRC).spiEnd 0 false
           ((beBytes (s.spiStatus true) ++ (List.replicate (count.val + 1) (0 : Word)).flatMap beBytes) ++
             [crc8 (beBytes (s.spiStatus true) ++ (List.replicate (count.val + 1) (0 : Word)).flatMap beBytes)]))) ∧
     (crc8 (spiHeader 2 count addr) ≠ crc →
       exec (.spiReadFixed count addr crc notReady (count.val + 1)) s =
         .next ((s.setFlag SYS_STATUS_SPI_CRC).spiEnd 0 false
           ((beBytes (s.spiStatus true) ++ (List.replicate (count.val + 1) (0 : Word)).flatMap beBytes) ++
             [crc8 (beBytes (s.spiStatus true) ++ (List.replicate (count.val + 1) (0 : Word)).flatMap beBytes)]))))

/-- Pigeonholes: a claim takes the lowest FREE slot or tells that there is none, the doorbell posts a claimed slot, a
free write empties DONE slots, an unused claim lapses (R367, R368). The response to a pigeonhole posted over SPI
stands in its slot, which is DONE with its MBX_DONE bit; no byte of another slot changes (R364, R365, R367). -/
def Obligations.Pigeonholes : Prop :=
  (∀ (s : State), s.devRuns = true →
     (∀ i, s.freeHole = some i →
       exec .mbxClaimRead s =
         .next { s.onSlot i (fun _ => { st := 1 }) with readData := BitVec.ofNat 32 (2 ^ 31 + i) }) ∧
     (s.freeHole = none →
       exec .mbxClaimRead s = .next { (s.count MBX_CNT0_NO_SLOT_CNT).setFlag MBX_FLAGS_NO_SLOT with readData := 0 }) ∧
     (∀ i : Fin 32, (s.slotOf i).st = 1 → (s.slotOf i).peer = .spi →
       exec (.mbxDoorbellWrite i) s =
         .next ((s.onSlot i (fun _ => { st := 2, peer := .spi, got := 1024 })).onMbx (fun m =>
           { m with order := m.order ++ [i.val] })) ∧
       exec (.claimExpiry i) s =
         .next (((s.freeSlot i).setFlag MBX_FLAGS_CLAIM_EXPIRED).count MBX_CNT1_CLAIM_EXP_CNT)) ∧
     (∀ i : Fin 32, (s.slotOf i).st ≠ 1 →
       exec (.mbxDoorbellWrite i) s = .next (s.setFlag MBX_FLAGS_DOORBELL_REFUSED) ∧ exec (.claimExpiry i) s = .next s) ∧
     (∀ w, ∃ t, exec (.mbxFreeWrite w) s = .next t ∧
       (∀ i, i < 32 → bit w i = true → (s.slotOf i).st = 3 → (s.slotOf i).peer = .spi →
         (t.slotOf i).st = 0 ∧ t.fldBit MBX_DONE_DONE i = false) ∧
       ∀ i, i < 32 → bit w i = false ∨ (s.slotOf i).st ≠ 3 → t.slotOf i = s.slotOf i ∧
         t.fldBit MBX_DONE_DONE i = s.fldBit MBX_DONE_DONE i)) ∧
  (∀ (i : Nat) (payload : List Byte) (s : State), i < 32 → payload.length ≤ 1008 → (s.slotOf i).peer = .spi →
     ((s.answer i payload).slotOf i).st = 3 ∧ (s.answer i payload).fldBit MBX_DONE_DONE i = true ∧
     (s.answer i payload).holeBytes (1024 * i) (16 + payload.length) =
       message (s.hdrOp i) (s.hdrSeq i) 1 (s.hdrAuth i) 0 payload ∧
     (∀ o, (o < 1024 * i ∨ 1024 * i + 1024 ≤ o) → (s.answer i payload).hole o = s.hole o) ∧
     (∀ j, j < 32 → j ≠ i → (s.answer i payload).slotOf j = s.slotOf j))

/-- A command starts, or is answered with the first check of R366 that it fails; it times out; jobs end, are asked for
and lapse; sessions end (R366, R370 to R375). A unit that a job holds makes a command answer BUSY, and a slot that
does not execute the opcode changes nothing (R370, R373). -/
def Obligations.CommandsAndJobs : Prop :=
  (∀ (s : State), s.fwRuns = true →
     (∀ i rest units, s.mbx.order = i :: rest → s.mbx.started.length < 8 →
       ((s.onMbx (fun m => { m with order := rest })).onSession (s.slotOf i).peer id).headerCheck i = none →
       exec (.commandStart units) s =
         .next ((((s.onMbx (fun m => { m with order := rest })).onSession (s.slotOf i).peer id).onSlot i (fun x =>
           { x with
             running := true, units := units
             selected := (List.range 64).any (fun g => units.contains (EzUnit.gainSlot g) && s.slotBusy g) })).onMbx (fun m => { m with started := m.started ++ [i] }))) ∧
     (∀ i rest units st d a, s.mbx.order = i :: rest → s.mbx.started.length < 8 →
       ((s.onMbx (fun m => { m with order := rest })).onSession (s.slotOf i).peer id).headerCheck i = some (st, d, a) →
       exec (.commandStart units) s =
         .next (((s.onMbx (fun m => { m with order := rest })).onSession (s.slotOf i).peer id).refuseHeader i st d a)) ∧
     (∀ units, 8 ≤ s.mbx.started.length → exec (.commandStart units) s = .next s) ∧
     (∀ i : Fin 32, (s.slotOf i).st = 2 → (s.slotOf i).running = true →
       exec (.commandTimeout i) s =
         .next ((s.forAll 64 (fun q t =>
           if (t.portOf q).cmdSlot = some i.val then t.onPort q (fun p => { p with cmdSlot := none }) else t)).refuseOpen i 8)) ∧
     (∀ j : Fin 4, (s.jobOf j).held = true → (s.jobOf j).st = 0 → (s.jobOf j).ended = false → (s.jobOf j).cancel = true →
       ∃ t, exec (.jobEnd j) s = .next t ∧ (t.jobOf j).st = 3 ∧ t.fldBit MBX_JOB_DONE_JOB_DONE j = true ∧ t.mem = s.mem) ∧
     (∀ j : Fin 4, (s.jobOf j).held = true → (s.jobOf j).st ≠ 0 →
       exec (.jobHoldExpiry j) s = .next (s.onJob j (fun x => { x with held := false }))) ∧
     (∀ (i : Fin 32) (j : Nat), CommandRuns s i 0x0020 → s.jobNamed (fieldAt (s.payload i) 0 4) = some j →
       ((s.jobOf j).st ≠ 0 →
         exec (.jobStatus i) s =
           .next ((s.draw.answer i [BitVec.ofNat 8 (s.jobOf j).st, 100, BitVec.ofNat 8 (s.jobOf j).status]).onJob j (fun x =>
             { x with held := false }))) ∧
       ((s.jobOf j).st = 0 → ∃ p : Byte,
         exec (.jobStatus i) s = .next (s.draw.answer i [0, p, BitVec.ofNat 8 (s.jobOf j).status]) ∧ p.toNat ≤ 100)) ∧
     (∀ (i : Fin 32) (j : Nat), CommandRuns s i 0x0021 → s.jobNamed (fieldAt (s.payload i) 0 4) = some j →
       (jobFixed (s.jobOf j).kind = true → exec (.jobCancel i) s = .next (s.refuseOpen i 7)) ∧
       (jobFixed (s.jobOf j).kind = false → (s.jobOf j).st = 0 →
         exec (.jobCancel i) s = .next ((s.onJob j (fun x => { x with cancel := true })).answer i []))) ∧
     (∀ p, exec (.sessionTimeout p) s =
       .next (s.onMbx (fun m => { m with sessions := m.sessions.filter (fun x => !(x.peer == p)) }))) ∧
     (∀ e : Fin 2, exec (.ethLinkChange e true) s =
       .next (s.onMbx (fun m => { m with links := m.links ||| BitVec.ofNat 2 (2 ^ e.val) })))) ∧
  (∀ (i : Fin 32) (s : State), s.fwRuns = true →
     (s.executes i 0x0001 = true → s.jobHolds (s.slotOf i).units = true →
       exec (.echo i) s = .next (s.refuseOpen i 1)) ∧
     (s.executes i 0x0001 = false → exec (.echo i) s = .next s) ∧
     (s.executes i 0x0400 = true → s.jobHolds (s.slotOf i).units = true →
       exec (.redReload i) s = .next (s.refuseOpen i 1)) ∧
     (s.executes i 0x0400 = false → exec (.redReload i) s = .next s))

/-- Requests over the networks: a datagram, a CAN FD message of one segment and an I²C write take the lowest FREE
slot; what is not a message is dropped; reads, echoes and Modbus connections are answered (R385 to R389). -/
def Obligations.Transports : Prop :=
  ∀ (s : State), s.fwRuns = true → s.monitor = false →
    (∀ (e : Fin 2) (v6 : Bool) (addr port dport : Nat) (msg : List Byte), s.macTakes e v6 true = true →
      (s.fwReg 0x1010).toNat = dport →
      (datagramOk msg = false →
        exec (.udpDatagram e v6 true addr port dport msg) s =
          .next ((s.count MBX_CNT1_NET_DROP_CNT).setFlag MBX_FLAGS_NET_DROP)) ∧
      (∀ k, datagramOk msg = true → s.keptFor (.udp e v6 addr port) msg = some k →
        exec (.udpDatagram e v6 true addr port dport msg) s = .next (s.send (.udp e v6 addr port) k.reply)) ∧
      (∀ i, datagramOk msg = true → s.keptFor (.udp e v6 addr port) msg = none → s.freeHole = some i →
        exec (.udpDatagram e v6 true addr port dport msg) s =
          .next ((s.setHoles (1024 * i) msg).post i (.udp e v6 addr port) msg.length))) ∧
    (∀ (c : Fin 4) (p : Fin 64) (ident : BitVec 29) (body : List Byte), s.fwReg (0x1023 + 4 * c) ≠ 0 →
      s.fwReg (0x1022 + 4 * c) ≠ 0 → ident.toNat = (s.fwReg (0x1020 + 4 * c)).toNat + 2 * p →
      (s.canRxOf (canKey c p)).next = 0 → body.length ≤ 63 →
      exec (.canFdSegment c ident true (0xC0 :: body)) s =
        .next ((s.setCanRx (canKey c p) {}).receive (.can c p) (canMessage body) (canMessage body).length) ∧
      exec (.canFdSegment c ident true (0x80 :: body)) s = .next (s.setCanRx (canKey c p) { bytes := body, next := 1 }) ∧
      exec (.canFdSegment c ident false (0xC0 :: body)) s = .next s) ∧
    (∀ (c : Fin 4) (p : Fin 64), (s.canRxOf (canKey c p)).next ≠ 0 →
      exec (.canSegmentTimeout c p) s =
        .next (((s.setCanRx (canKey c p) {}).count MBX_CNT1_NET_DROP_CNT).setFlag MBX_FLAGS_NET_DROP)) ∧
    (∀ bs i, 16 ≤ bs.length → 16 + fieldAt bs 4 2 ≤ bs.length → s.i2cDrop.freeHole = some i →
      exec (.i2cWriteTransaction bs) s =
        .next (((s.i2cDrop.setHoles (1024 * i) (bs.take 1024)).post i .i2c bs.length).onMbx (fun m =>
          { m with i2cState := 1, i2cSlot := some i }))) ∧
    (∀ n, s.mbx.i2cState = 1 →
      exec (.i2cReadTransaction (n + 1)) s = .next (s.send .i2c (1 :: List.replicate n 0xFF))) ∧
    (∀ n, s.mbx.i2cState = 2 → n ≤ s.mbx.i2cReply.length →
      exec (.i2cReadTransaction n) s = .next (s.send .i2c ((2 :: s.mbx.i2cReply).take n))) ∧
    (∀ (e : Fin 2) (addr : Nat) (data : List Byte), s.macTakes e false true = true →
      exec (.icmpArpNdFrame e 0 false true addr data) s = .next (s.send (.udp e false addr 0) data)) ∧
    (s.fwReg 0x1011 ≠ 0 →
      (s.mbx.tcp < 4 → exec .modbusConnect s = .next (s.onMbx (fun m => { m with tcp := m.tcp + 1 }))) ∧
      (4 ≤ s.mbx.tcp → exec .modbusConnect s = .next s) ∧
      (exec .modbusDisconnect s = .next (s.onMbx (fun m => { m with tcp := m.tcp - 1 }))) ∧
      (∀ p fc r n, s.mbx.tcp ≠ 0 → fc ≠ 3 → fc ≠ 4 →
        exec (.modbusRead p fc r n) s = .next (s.send p [fc ||| 0x80, 1])) ∧
      (∀ p n, s.mbx.tcp ≠ 0 → 1 ≤ n → n ≤ 125 → (modbusPairs 0x3000 n).any (fun a => (modbusAddr a).isNone) = false →
        exec (.modbusRead p 3 0x3000 n) s =
          .next ((s.modbusWords (modbusPairs 0x3000 n)).1.send p
            (3 :: BitVec.ofNat 8 (2 * n) :: ((s.modbusWords (modbusPairs 0x3000 n)).2.drop 0).take (2 * n)))))

/-- Commands about the device, the staging area and the local clock: each answers what it names, or says that its
operands lie outside their range (R303, R304, R377, R378). Registers, memory, parameters and ring ports over Eznel:
words are read and written in order, a closed register and a parameter that no table lists are refused by name (R250,
R376, R380, R381). -/
def Obligations.EznelAccess : Prop :=
  (∀ (i : Fin 32) (s : State),
     (CommandRuns s i 0x0001 → exec (.echo i) s = .next (s.answer i (s.payload i))) ∧
     (CommandRuns s i 0x0002 → s.monitor = false →
       exec (.devInfo i) s =
         .next (s.answer i (leBytes (s.reg SYS_DEVID) ++ leBytes (s.reg SYS_STEPPING) ++ leBytes (s.reg SYS_GRANT) ++
           leBytesN 4 (imgVersion (s.flashSlot s.runningSlot))))) ∧
     (∀ ofs data, CommandRuns s i 0x0030 → data.length ≤ 1000 → ofs + data.length ≤ 25165824 →
       ∃ t, exec (.stageWrite i ofs data) s = .next t ∧ t.bytes (0x8B800000 + ofs) data.length = data ∧
         ∀ a, (a < 0x8B800000 + ofs ∨ 0x8B800000 + ofs + data.length ≤ a) → t.byte a = s.byte a) ∧
     (∀ ofs data, CommandRuns s i 0x0030 → 25165824 < ofs + data.length →
       exec (.stageWrite i ofs data) s = .next (s.refuse i 6 6 0)) ∧
     (∀ ofs len, CommandRuns s i 0x0031 → len ≤ 1008 → ofs + len ≤ 25165824 →
       exec (.stageRead i ofs len) s = .next (s.answer i (s.bytes (0x8B800000 + ofs) len))) ∧
     (∀ secs ns, CommandRuns s i 0x0600 → ns.toNat < 1000000000 →
       exec (.timeSet i secs ns) s =
         .next ((((s.setLocal (secs.toNat * 1000000000 + ns.toNat)).stepDone).setRefused false).answer i [])) ∧
     (∀ d, CommandRuns s i 0x0601 → s.clock.step = none → s.stepOk d.toInt = true →
       exec (.timeStep i d) s = .next ((s.commitStep d.toInt).answer i [])) ∧
     (∀ d, CommandRuns s i 0x0601 → s.clock.step = none → s.stepOk d.toInt = false →
       exec (.timeStep i d) s = .next (s.stepRefused.refuse i 6 6 0)) ∧
     (CommandRuns s i 0x0602 →
       exec (.timeGet i) s = .next (s.answer i (leBytesN 4 s.clock.ns ++ leBytesN 8 s.clock.secs)))) ∧
  (∀ (i : Fin 32) (s : State),
     (∀ addr n, CommandRuns s i 0x0100 → wordsIn 0x1000000 addr n = true →
       exec (.regRead i addr n) s =
         .next ((s.readWords addr n).1.answer i ((s.readWords addr n).2.flatMap leBytes))) ∧
     (∀ addr ws late, CommandRuns s i 0x0101 → wordsIn 0x1000000 addr ws.length = true →
       s.regWriteCheck (s.hdrAuth i) addr 0 ws = none →
       exec (.regWrite i addr ws late) s = .next ((s.writeWords addr late 0 ws).answer i [])) ∧
     (∀ addr w late, CommandRuns s i 0x0101 → wordsIn 0x1000000 addr 1 = true → addr < 0x800000 → 2 ≤ s.hdrAuth i →
       s.window (addr / 0x10000) = some true → regClosed addr = true →
       exec (.regWrite i addr [w] late) s = .next (s.refuse i 4 9 addr)) ∧
     (∀ addr n, CommandRuns s i 0x0102 → wordsIn 0x100000000 addr n = true →
       (∀ k, k < n → inMemory (addr + 4 * k) = true) →
       exec (.memRead i addr n) s =
         .next (s.answer i (((List.range n).map (fun k => s.word (addr + 4 * k))).flatMap leBytes))) ∧
     (∀ es, CommandRuns s i 0x0200 → paramEntries (s.payload i) = some es → s.readFault 0 es = none →
       exec (.paramRead i) s =
         .next (s.answer i (es.flatMap (fun e => leBytesN 2 e.num ++ leBytesN 2 0 ++ leBytes (s.paramWord e.num))))) ∧
     (∀ es t late, CommandRuns s i 0x0201 → paramEntries (s.payload i) = some es →
       s.paramAll (s.hdrAuth i) late 0 es = .ok t → exec (.paramWrite i late) s = .next (t.answer i [])) ∧
     (∀ e es late, CommandRuns s i 0x0201 → paramEntries (s.payload i) = some (e :: es) → assigned e.num = false →
       exec (.paramWrite i late) s = .next (s.refuse i 6 5 0)) ∧
     (∀ p, CommandRuns s i 0x0202 → paramInfo p = none → exec (.paramInfo i p) s = .next (s.refuse i 6 5 0)) ∧
     (∀ p d, CommandRuns s i 0x0202 → paramInfo p = some d →
       ∃ body, exec (.paramInfo i p) s = .next (s.draw.draw.draw.draw.answer i body) ∧ body.length = 28 ∧
         body.take 4 = leBytesN 4 d.u32.toNat ∧ body.drop 20 = leBytesN 4 (classCode d.cls) ++ leBytesN 4 (paramLevel p) ∧
         ∀ lo, d.lo = some lo → d.u32 = false → (body.drop 4).take 4 = leBytes (f32OfRat lo)) ∧
     (∀ (q : Fin 64) op node count arg cells data, CommandRuns s i 0x0500 → s.grantPort q = true → (s.portOf q).cmdBusy = true →
       cells ≤ 4 → data.length ≤ 16 → exec (.ringCmd i q op node count arg cells data) s = .next (s.refuseOpen i 1)) ∧
     (∀ (q : Fin 64) op node count arg, CommandRuns s i 0x0500 → s.grantPort q = true → (s.portOf q).cmdBusy = false →
       exec (.ringCmd i q op node count arg 0 []) s =
         .next (((((s.setReg (pq AQR_CMD_HDR q) (packF [(pq AQR_CMD_HDR_OP q, op), (pq AQR_CMD_HDR_NODE q, node),
           (pq AQR_CMD_HDR_COUNT q, count)])).setReg (pq AQR_CMD_ARG q) arg).setFld (pq AQR_CMD_CTRL_NDATA q) 0).onPort q
             (fun p => { p with cmdSlot := some i.val })).commandGo q)) ∧
     (∀ (q : Fin 64) (l : Fin 512) first n, CommandRuns s i 0x0501 → s.grantPort q = true → 1 ≤ n → n ≤ 126 →
       first + n ≤ 160 →
       exec (.shelfRead i q l first n) s = .next (s.answer i (s.bytes (entryAddr (entryNo q l first)) (8 * n)))) ∧
     (∀ (q : Fin 64) first last, CommandRuns s i 0x0502 → s.grantPort q = true → s.flag (pq AQR_CFG_EN q) = false →
       exec (.ringSetUid i q first last) s =
         .next (((s.setBoth (pq AQR_FIRST_UID q) first).setBoth (pq AQR_LAST_UID q) last).answer i [])))

/-- Engines, images and tables over Eznel: jobs start and end, an exchange of roles is done at once, and tables reach
every engine (R133, R134, R145 to R148, R332, R334, R372). -/
def Obligations.EngineJobs : Prop :=
  ∀ (i : Fin 32) (s : State),
    (CommandRuns s i 0x0400 → s.grantB = false → exec (.redReload i) s = .next (s.refuse i 4 11 0)) ∧
    (CommandRuns s i 0x0400 → s.grantB = true → s.freeJob ≠ none → s.canReload = true →
      exec (.redReload i) s =
        .next (s.startReload.startJob i (.reload s.standbyEngine) [.engine s.standbyEngine])) ∧
    (∀ j, CommandRuns s i 0x0400 → s.grantB = true → s.freeJob = some j → s.canReload = true →
      ∃ t, exec (.redReload i) s = .next t ∧ (t.jobOf j).held = true ∧ (t.jobOf j).st = 0 ∧
        (t.jobOf j).kind = .reload s.standbyEngine ∧ t.standbyState = 5) ∧
    (s.fwRuns = true → s.grantB = true → s.red.active = 0 → s.red.stB = 5 →
      ∃ t, exec .redReloadDone s = .next t ∧ t.red.stB = 3 ∧ t.dmemB = s.dmemA ∧
        ∀ j, j < 4 → s.jobRuns j = true → isReload (s.jobOf j).kind = true →
          (t.jobOf j).st = 1 ∧ t.fldBit MBX_JOB_DONE_JOB_DONE j = true) ∧
    (CommandRuns s i 0x0401 → s.canExchange = true → exec (.redExchange i) s = .next (s.exchange.answer i [])) ∧
    (∀ ofs len hash body, CommandRuns s i 0x0300 → s.freeJob ≠ none → s.swapping = false → ofs + len ≤ 25165824 →
      Config.sha384 (s.staged ofs len) = hash →
      (s.imageCheck 3 (s.staged ofs len) = 0 → headerOk (imgPayload (s.staged ofs len)) body = true →
        imageRefused (imageOfPayload (imgPayload (s.staged ofs len)) body) = false →
        exec (.trsImageWrite i ofs len hash body) s =
          .next (s.startJob i (.image (imageOfPayload (imgPayload (s.staged ofs len)) body)) (s.engines.map EzUnit.engine))) ∧
      (s.imageCheck 3 (s.staged ofs len) ≠ 0 →
        exec (.trsImageWrite i ofs len hash body) s =
          .next ((s.setFlag SEC_FLAGS_IMAGE_REFUSED).refuseArg i 5 (s.imageCheck 3 (s.staged ofs len)))) ∧
      (s.imageCheck 3 (s.staged ofs len) = 0 →
        headerOk (imgPayload (s.staged ofs len)) body = false ∨
          imageRefused (imageOfPayload (imgPayload (s.staged ofs len)) body) = true →
        exec (.trsImageWrite i ofs len hash body) s = .next (s.refuseOpen i 6))) ∧
    (∀ (j : Fin 4) img, s.fwRuns = true → (s.jobOf j).kind = .image img → s.jobRuns j = true → s.swapping = false →
      exec (.trsImageWriteDone j) s = .next ((s.loadImage img).endJob j 1 0)) ∧
    (∀ g ofs hash, CommandRuns s i 0x0301 → g < 64 → ofs + 2048 ≤ 25165824 → Config.sha384 (s.staged ofs 2048) = hash →
      s.tableBusy i g = false →
      (∀ k, k < 1024 → gainOk (BitVec.ofNat 16 (fieldAt (s.staged ofs 2048) (2 * k) 2)) = true) →
      exec (.trsTableWrite i g ofs 2048 hash) s =
        .next ((s.fillDmem (g * 512) (wordsOf (s.staged ofs 2048) 512)).answer i [])) ∧
    (∀ n first ofs len hash, CommandRuns s i 0x0302 → n < 4 → len % 4 = 0 → first + len / 4 ≤ 4096 → s.grantS n = true →
      ofs + len ≤ 25165824 → Config.sha384 (s.staged ofs len) = hash →
      (∀ w, w ∈ wordsOf (s.staged ofs len) (len / 4) → compOk w = true) →
      exec (.trsCompWrite i n first ofs len hash) s =
        .next ((s.fillDmem (0x8000 + n * 0x1000 + first) (wordsOf (s.staged ofs len) (len / 4))).answer i [])) ∧
    (∀ k d x, CommandRuns s i 0x0303 → s.hdrLen i = 12 → fieldAt (s.payload i) 4 2 = 1 → fieldAt (s.payload i) 6 2 = 0 →
      fieldAt (s.payload i) 0 4 % 4 = 0 → 0x30000 ≤ fieldAt (s.payload i) 0 4 → fieldAt (s.payload i) 0 4 + 4 ≤ 0x38000 →
      s.stateWord (fieldAt (s.payload i) 0 4 / 4) = some (k, d, x) →
      s.stnIdle d.station = true →
      exec (.trsDmemWrite i) s =
        .next ((s.writeStateWord (fieldAt (s.payload i) 0 4 / 4)
          (BitVec.ofNat 32 (fieldAt ((s.payload i).drop 8) 0 4))).answer i []))

/-- Identity, sessions and the debug lock: the certificate and the report, a challenge that lasts 60 s, a certificate
that raises the session's level, the unlock of the debug port (R400 to R402, R415, R416). The test access port: IDCODE
and an unassigned code load at once, a boundary-scan instruction only while every granted station is idle and held,
which it leaves them with their outputs low; a release that fails ends for its station; a TAP reset selects IDCODE
(R358, R465, R466). -/
def Obligations.TrustAndTestAccess : Prop :=
  (∀ (s : State),
     (∀ i : Fin 32, CommandRuns s i 0x0721 → exec (.certRead i) s = .next (s.answer i s.otp.cert)) ∧
     (∀ i : Fin 32, CommandRuns s i 0x0720 → exec (.attest i) s = .next (s.answer i (s.attestReport (s.payload i)))) ∧
     (∀ i : Fin 32, CommandRuns s i 0x0010 →
       exec (.authChallenge i) s =
         .next ((s.draw.onSession (s.slotOf i).peer (fun x =>
           { x with nonce := nonceBytes 32 s.draws, nonceAt := s.now })).answer i (nonceBytes 32 s.draws))) ∧
     (∀ (i : Fin 32) c x, CommandRuns s i 0x0011 → s.sessionOf (s.slotOf i).peer = some x → s.flag TIM_STATUS_UNSET = false →
       exec (.authResponse i c) s =
         .next (if s.certOk c x ((s.payload i).drop ((s.payload i).length - 96)) = true then
           (s.onSession (s.slotOf i).peer (fun x =>
             { x with level := max x.level (min (c.level.getD 0) 3), nonce := [] })).answer i []
         else s.refuseOpen i 5)) ∧
     (s.devRuns = true →
       (∃ t, exec .secDbgReq s = .next t ∧ t.trust.dbgNonce.length = 8 ∧ t.trust.dbgAt = s.now ∧ t.trust.dbgSig = [] ∧
         t.regs = s.regs) ∧
       (∀ ws, s.trust.dbgSig.length + ws.length < 24 →
         exec (.secDbgDataWrite ws) s =
           .next { s with trust := { s.trust with dbgSig := s.trust.dbgSig ++ ws } }) ∧
       (∀ ws, s.trust.dbgSig = [] → ws.length = 24 → s.fld SEC_DBG_STATE = 1 → s.allIdleHeld = true →
         s.trust.dbgNonce ≠ [] → s.now ≤ s.trust.dbgAt + 60000000 * 400 →
         exec (.secDbgDataWrite ws) s =
           .next (if signedBy (s.keyOf 3) (s.otp.uid ++ s.trust.dbgNonce.flatMap leBytes) (ws.flatMap leBytes) = true then
             ({ s with trust := { s.trust with dbgSig := [], dbgNonce := [] } } : State).setFld SEC_DBG_STATE 2
           else ({ s with trust := { s.trust with dbgSig := [], dbgNonce := [] } } : State).setFlag SEC_FLAGS_DBG_REFUSED)) ∧
       (∀ ws, s.trust.dbgSig = [] → ws.length = 24 → s.allIdleHeld = false →
         exec (.secDbgDataWrite ws) s =
           .next (({ s with trust := { s.trust with dbgSig := [], dbgNonce := [] } } : State).setFlag SEC_FLAGS_DBG_REFUSED)) ∧
       (s.fld SEC_DBG_STATE = 2 → exec .secDbgClose s = .next (s.setFld SEC_DBG_STATE 1)) ∧
       (exec .otpReadDataRead s =
         .next { s.setFld OTP_READ_ADDR_WORD
             ((s.fld OTP_READ_ADDR_WORD + 1) % max (rowWords (s.fld OTP_READ_ADDR_ROW)) 1) with
           readData := s.otpWord (s.fld OTP_READ_ADDR_ROW) (s.fld OTP_READ_ADDR_WORD) }))) ∧
  (∀ (s : State),
     (exec (.jtagInstructionLoad 1) s = .next { s with slk := { s.slk with ir := 1 } }) ∧
     (exec (.jtagInstructionLoad 0x55) s = .next { s with slk := { s.slk with ir := 0xFF } }) ∧
     (∀ code : Byte, code = 3 ∨ code = 4 ∨ code = 5 → s.allIdleHeld = false →
       exec (.jtagInstructionLoad code) s =
         .next (({ s with slk := { s.slk with ir := 0xFF } } : State).setFlag SLK_FLAGS_SCAN_REFUSED)) ∧
     (∀ code : Byte, code = 3 ∨ code = 4 ∨ code = 5 → s.allIdleHeld = true →
       ∃ t, exec (.jtagInstructionLoad code) s = .next t ∧ t.slk.ir = code ∧ t.stn = s.stn ∧
         (∀ n, n < 4 → (t.safeOf n).held = (s.safeOf n).held) ∧
         ((∀ n, n < 4 → (s.safeOf n).releasing = false) →
           ∀ n k, n < 4 → k < 8 → s.soutMap k n = true → (t.soutOf k).level = false)) ∧
     (∀ n, n < 4 → (s.safeOf n).releasing = true → n ∈ (s.safeOf n).party →
       ((s.failRelease (s.safeOf n).party).safeOf n).releasing = false ∧
       (s.failRelease (s.safeOf n).party).flag SAF_FLAGS_RELEASE_REFUSED = true) ∧
     (exec .tapReset s = .next { s with slk := { s.slk with ir := 1 } }))

/-- The Bureau: one request at a time is staged, countersigned, given up, expires unless a countersignature that
started in time still executes, and its result is programmed (R405 to R410). -/
def Obligations.BureauProcedure : Prop :=
  ∀ (i : Fin 32) (s : State),
    (∀ c sig r, CommandRuns s i 0x0700 → s.trust.req = some r → exec (.bureauStage i c sig) s = .next (s.refuseOpen i 1)) ∧
    (∀ b sig, CommandRuns s i 0x0700 → s.trust.req = none → s.enrolled = true →
      ∃ t, exec (.bureauStage i (.grant b) sig) s = .next t ∧ t.otp = s.otp ∧
        (signedBy (s.keyOf 2) (Config.bureauBytes (.grant b)) sig = true →
          t.fld OTP_BUREAU_STATE = 1 ∧ ∃ r, t.trust.req = some r ∧ r.change = .grant b ∧ r.stagedAt = s.now ∧
            r.programming = false) ∧
        (signedBy (s.keyOf 2) (Config.bureauBytes (.grant b)) sig = false → t = s.refuseOpen i 5)) ∧
    (∀ r, CommandRuns s i 0x0701 → s.trust.req = some r → r.programming = false → r.late = none →
      r.handle % 2 ^ 32 = fieldAt (s.payload i) 0 4 →
      (s.commissioningKey r.change ≠ [] → s.safe.settleRuns = true → kindCode r.change ≤ 1 →
        s.settleRefuses r.body r.inForce = none → r.fails < 2 →
        exec (.bureauCountersign i true) s =
          .next (if Config.ecdsaVerify (s.commissioningKey r.change) r.digest (((s.payload i).drop 4).take 96) = true then
            (({ s with trust := { s.trust with req := some { r with programming := true } } } : State).setFld
              OTP_BUREAU_STATE 3).answer i []
          else ({ s.count OTP_CNT_BAD_CSIGN_CNT with
            trust := { s.trust with req := some { r with fails := r.fails + 1 } } } : State).refuseOpen i 5)) ∧
      (s.commissioningKey r.change = [] → r.fails < 2 → ∀ ok,
        exec (.bureauCountersign i ok) s =
          .next (({ s.count OTP_CNT_BAD_CSIGN_CNT with
            trust := { s.trust with req := some { r with fails := r.fails + 1 } } } : State).refuseOpen i 5)) ∧
      (s.commissioningKey r.change = [] → r.fails = 2 →
        ∀ ok, ∃ t, exec (.bureauCountersign i ok) s = .next t ∧ t.trust.req = none)) ∧
    (∀ r, CommandRuns s i 0x0702 → s.trust.req = some r → r.programming = false →
      r.handle % 2 ^ 32 = fieldAt (s.payload i) 0 4 →
      exec (.bureauAbort i) s =
        .next ((({ s with trust := { s.trust with req := none } } : State).setReg OTP_BUREAU 0).answer i [])) ∧
    (∀ r, s.fwRuns = true → s.trust.req = some r → r.programming = false →
      ((∀ i ∈ s.mbx.started, s.hdrOp i ≠ 0x0701) →
        ∃ t, exec .bureauExpiry s = .next t ∧ t.trust.req = none ∧ t.flag OTP_FLAGS_BUREAU_EXPIRED = true ∧ t.otp = s.otp) ∧
      (∀ i ∈ s.mbx.started, s.hdrOp i = 0x0701 →
        exec .bureauExpiry s = .next { s with trust := { s.trust with
          req := some { r with late := some (s.mbx.started.filter (fun i => s.hdrOp i == 0x0701)) } } })) ∧
    (∀ r b, s.devRuns = true → s.trust.req = some r → r.programming = true → r.change = .grant b →
      ∃ t, exec .bureauProgramDone s = .next t ∧ t.trust.req = none ∧ t.otp.grant = s.otp.grant ||| b ∧
        t.flag OTP_FLAGS_BUREAU_DONE = true ∧ t.grants = s.grants)

/-- Firmware: staged by a job, activated for a trial, confirmed or given up; the processor restarts on the slot named
(R394, R397 to R399). Boot: a slot that passes is started, one that fails is followed by the other and then by the ROM
monitor; the firmware answers; a watchdog restarts the processor alone (R396, R398, R445, R448). -/
def Obligations.FirmwareAndBoot : Prop :=
  (∀ (i : Fin 32) (s : State),
     (∀ ofs len hash, CommandRuns s i 0x0710 → s.freeJob ≠ none →
       (∀ j, j < 4 → s.jobRuns j = true → isFwStage (s.jobOf j).kind = false) → ofs + len ≤ 25165824 →
       Config.sha384 (s.staged ofs len) = hash →
       exec (.fwStage i ofs len hash) s =
         .next (if s.packageCheck (s.staged ofs len) = 0 then
           (s.stageFirmware (s.staged ofs len)).startJob i (.fwStage ofs len) []
         else (s.setFlag SEC_FLAGS_IMAGE_REFUSED).refuseArg i 5 (s.packageCheck (s.staged ofs len)))) ∧
     (∀ (j : Fin 4) ofs len, s.fwRuns = true → (s.jobOf j).kind = .fwStage ofs len → s.jobRuns j = true →
       ∃ t, exec (.fwStageDone j (s.staged ofs len)) s = .next t ∧ t.trust.staged = some (!s.runningSlot) ∧
         t.flashSlot (!s.runningSlot) = s.staged ofs len ∧ t.flashSlot s.runningSlot = s.flashSlot s.runningSlot ∧
         (t.jobOf j).st = 1) ∧
     (∀ b, CommandRuns s i 0x0711 → s.action i = 0 → s.activatable = some b → s.canRestartOn b = true →
       s.settleDiffers b = false → (s.slotOf i).peer = .spi →
       ∃ t, exec (.fwActivate i) s = .next t ∧ t.flash.preferred = b ∧ t.flash.trial = true ∧
         t.flash.before = s.flash.preferred ∧ t.boot.fw = false ∧ t.boot.checking = some b ∧ t.mbx.slots = [] ∧
         t.stn = s.stn) ∧
     (CommandRuns s i 0x0711 → s.action i = 0 → s.activatable = none → exec (.fwActivate i) s = .next (s.refuseOpen i 7)) ∧
     (CommandRuns s i 0x0711 → s.action i = 1 → s.trust.req = none → s.flag SEC_BOOT_TRIAL = true →
       exec (.fwConfirm i) s =
         .next ((({ s with flash := { s.flash with trial := false } } : State).setFld SEC_BOOT_TRIAL 0).answer i [])) ∧
     (CommandRuns s i 0x0711 → s.action i = 2 → s.canRestartOn (!s.runningSlot) = true →
       s.settleDiffers (!s.runningSlot) = false → (s.slotOf i).peer = .spi →
       ∃ t, exec (.fwRevert i) s = .next t ∧ t.flash.preferred = (!s.runningSlot) ∧ t.flash.trial = false ∧
         t.boot.fw = false ∧ t.boot.checking = some (!s.runningSlot) ∧ t.stn = s.stn)) ∧
  (∀ (s : State), s.devRuns = true →
     (∀ b, s.boot.checking = some b →
       ∃ t, exec .bootImageCheckDone s = .next t ∧
         (s.packageCheck (s.flashSlot b) = 0 →
           t.boot.accepted = true ∧ t.boot.checking = none ∧ t.fld SEC_BOOT_SLOT = b.toNat ∧
           t.fld SEC_BOOT_TRIAL = s.flash.trial.toNat ∧ t.boot.fw = s.boot.fw) ∧
         (s.packageCheck (s.flashSlot b) ≠ 0 → s.boot.second = false →
           t.boot.checking = some (!b) ∧ t.boot.second = true ∧ t.fld SEC_BOOT_FALLBACK = 1 ∧
           t.flag SEC_FLAGS_IMAGE_REFUSED = true) ∧
         (s.packageCheck (s.flashSlot b) ≠ 0 → s.boot.second = true →
           t.flag SEC_BOOT_MONITOR = true ∧ t.boot.fw = true ∧ t.boot.checking = none)) ∧
     (∀ pathOk, s.boot.settleTests = true →
       ∃ t, exec (.settleBootDone true pathOk) s = .next t ∧ t.safe.settleRuns = true ∧ t.boot.settleTests = false ∧
         (pathOk = false → t.flag SAF_FLAGS_RELEASE_REFUSED = true)) ∧
     (s.boot.accepted = true → s.boot.fw = false → s.boot.answered = true →
       exec .mgmtFirmwareReady s = .next { s with boot := { s.boot with fw := true } }) ∧
     (s.trust.req = none → s.flash.trial = false →
       ∃ t, exec .mgmtWatchdogExpiry s = .next t ∧ t.boot.fw = false ∧ t.boot.accepted = false ∧
         t.boot.checking = some s.flash.preferred ∧ t.mbx.slots = [] ∧ t.stn = s.stn ∧ t.mem = s.mem ∧
         t.fld SYS_RST_CAUSE_WDOG_CNT = min (s.fld SYS_RST_CAUSE_WDOG_CNT + 1) (2 ^ SYS_RST_CAUSE_WDOG_CNT.w - 1)) ∧
     (s.trust.req = none → s.flash.trial = true →
       ∃ t, exec .mgmtWatchdogExpiry s = .next t ∧ t.boot.checking = some s.flash.before ∧ t.flash.trial = false ∧
         t.flag SEC_FLAGS_TRIAL_REVERTED = true))

/-- A reset source resets the device: SYS_RST_CAUSE names it, every other register takes its reset value, one-time
rows, flash and the queue stay, and power-on and PORST_N read the bank levels; a source that comes during a reset is
recorded with it; the end of the reset brings the grants into force and names the slot to be checked (R445 to R450,
R471). -/
def Obligations.DeviceReset : Prop :=
  ∀ (s : State),
    (s.dev.inReset = false →
      exec .powerOnReset s = .next (s.enterReset 0).readVsel ∧ exec .brownOut s = .next (s.enterReset 1) ∧
      exec .porstNAssert s = .next (s.enterReset 2).readVsel) ∧
    (s.dev.inReset = false → s.dev.retain = false → s.power.active = none →
      exec .coreUndervoltage s = .next (s.enterReset 3)) ∧
    (s.dev.inReset = true → s.boot.vcoreBad = false →
      exec .brownOut s = .next (s.setFldBit SYS_RST_CAUSE_CAUSE 1 true)) ∧
    (∀ cause, cause < 6 → s.trust.req = none →
      (s.enterReset cause).reg SYS_RST_CAUSE = BitVec.ofNat 32 (2 ^ cause) ∧
      (∀ a, a ≠ SYS_RST_CAUSE → (s.enterReset cause).reg a = regReset a) ∧ (s.enterReset cause).dev.inReset = true ∧
      (s.enterReset cause).otp = s.otp ∧ (s.enterReset cause).flash = s.flash ∧ (s.enterReset cause).mem = [] ∧
      (s.enterReset cause).stn = [] ∧ (s.enterReset cause).pending = s.pending ∧
      (s.enterReset cause).vioA = s.vioA ∧ (s.enterReset cause).vioB = s.vioB ∧
      ∀ x, x < 8 → ((s.enterReset cause).sinOf x).a = (s.sinOf x).a ∧ ((s.enterReset cause).sinOf x).b = (s.sinOf x).b) ∧
    (∀ (bid : BitVec 2) (wired : BitVec 3) (v : BitVec 16), s.dev.inReset = true → s.boot.vcoreBad = false →
      v.toNat ≤ s.otp.vRun + 15 → s.otp.vRun ≤ v.toNat + 15 → s.flash.recordOk = true → s.flash.trial = false →
      ∃ t, exec (.resetEnd bid wired (some v)) s = .next t ∧ t.dev.inReset = false ∧ t.now = 0 ∧
        t.grants = BitVec.ofNat 11 s.otp.grant.toNat ∧ t.boot.checking = some s.flash.preferred ∧
        (s.topGen = none → t.fld SYS_POS_POS = bid.toNat)) ∧
    (∀ (bid : BitVec 2) (wired : BitVec 3), s.dev.inReset = true → s.boot.vcoreBad = false →
      ∃ t, exec (.resetEnd bid wired none) s = .next t ∧ t.dev.inReset = true ∧ t.boot.vcoreBad = true ∧
        t.flag PMB_FLAGS_REG_NO_ACK = true) ∧
    (∀ v : BitVec 16, s.dev.inReset = true → s.boot.vcoreBad = true → v.toNat ≤ s.otp.vRun + 15 →
      s.otp.vRun ≤ v.toNat + 15 →
      ∃ t, exec (.bootVcoreRetry (some v)) s = .next t ∧ t.dev.inReset = false ∧ t.boot.vcoreBad = false)

/-- The PLLs: a lost one that drives nothing only shows it, one that drives islands hands them to its twin, the loss
of both holds every station; locks, phase steps and the reference (R421 to R430). -/
def Obligations.Clocks : Prop :=
  ∀ (p : Fin 2) (s : State), s.dev.inReset = false → s.dev.retain = false →
    (s.pllLostNow p = false → s.islandsOn p = 0 →
      exec (.pllLost p) s =
        .next (((((s.setPllLost p true).setFld (CLK_PRESENT p) 0).setFld (CLK_DIG_LOCK p) 0).setFld (CLK_TWIN_READY p) 0).setFlag
          (if p.val = 0 then CLK_FLAGS_PLLA_LOST else CLK_FLAGS_PLLB_LOST))) ∧
    (s.pllLostNow p = false → s.islandsOn p ≠ 0 → s.twinServes (1 - p.val) = true →
      ∃ t, exec (.pllLost p) s = .next t ∧ t.clk.moving = BitVec.ofNat 7 (s.islandsOn p) ∧ t.clk.toB = (p == 0) ∧
        t.stn = s.stn ∧ t.safeStn = s.safeStn) ∧
    (s.pllLostNow p = false → s.islandsOn p ≠ 0 → s.twinServes (1 - p.val) = false →
      ∃ t, exec (.pllLost p) s = .next t ∧ t.clk.lostA = true ∧ t.clk.lostB = true ∧
        ∀ n, n < 4 → (t.safeOf n).held = true) ∧
    (∀ took, s.clk.moving ≠ 0 → s.clk.toB = true →
      ∃ t, exec (.islandSwitchoverDone took) s = .next t ∧ t.clk.moving = 0 ∧ t.flag CLK_FLAGS_SWITCHED = true ∧
        t.fld CLK_LAST_LOST = min took 65535 ∧ t.fld CLK_STATUS_SRC_B = s.fld CLK_STATUS_SRC_B ||| s.clk.moving.toNat) ∧
    (s.clk.lostA = true →
      exec (.pllRestartAttempt 0) s = .next { s with clk := { s.clk with startedA := true } }) ∧
    (s.pllLostNow p = false →
      exec (.digLockChange p true) s = .next ((s.setFld (CLK_DIG_LOCK p) 1).setFld (CLK_PRESENT p) 1)) ∧
    (exec (.digLockChange p false) s = .next ((s.setFld (CLK_DIG_LOCK p) 0).setFld (CLK_TWIN_READY p) 0)) ∧
    (exec (.analogLockChange p true) s = .next (s.setFld (CLK_ANALOG_LOCK p) 1)) ∧
    (s.flag (CLK_ANALOG_LOCK p) = true →
      exec (.analogLockChange p false) s =
        .next (((s.setFld (CLK_ANALOG_LOCK p) 0).setFld (CLK_TWIN_READY p) 0).setFlag CLK_FLAGS_LOCK_PIN_FALL)) ∧
    (s.flag (CLK_PRESENT p) = true → s.flag (CLK_DIG_LOCK p) = true → s.flag (CLK_ANALOG_LOCK p) = true →
      exec (.twinReady p) s = .next (s.setFld (CLK_TWIN_READY p) 1)) ∧
    (∀ steps, s.devRuns = true →
      ∃ t, exec (.clkPhaseStepWrite p steps) s = .next t ∧ t.fld (CLK_PHASE_STEP_PENDING p) = steps.toNat ∧
        t.clk = s.clk ∧ t.clock = s.clock) ∧
    (s.flag (CLK_COASTING p) = false → s.pllLostNow p = false → s.slk.slewA = 0 → s.slk.slewB = 0 →
      1 ≤ s.fld (CLK_PHASE_STEP_PENDING p) → s.fld (CLK_PHASE_STEP_PENDING p) < 4096 →
      ∃ t, exec (.phaseStepMade p) s = .next t ∧
        t.fld (CLK_PHASE_STEP_PENDING p) = s.fld (CLK_PHASE_STEP_PENDING p) - 1) ∧
    (s.clk.refLost = false → s.slk.busy = false →
      ∃ t, exec .referenceLost s = .next t ∧ t.clk.refLost = true ∧ t.flag (CLK_COASTING 0) = true ∧
        t.flag (CLK_COASTING 1) = true ∧ t.flag CLK_FLAGS_REF_LOST = true ∧ t.stn = s.stn) ∧
    (s.refBack = true → ∀ good, exec (.referenceReturned good) s = .next s ∧ exec (.refBadRecheck good) s = .next s) ∧
    (s.clk.refLost = true → s.refBack = false →
      (exec (.referenceReturned false) s = .next (s.setFlag CLK_FLAGS_REF_BAD)) ∧
      (exec (.refBadRecheck false) s = .next (s.setFlag CLK_FLAGS_REF_BAD)) ∧
      (s.clk.moving = 0 →
        exec (.referenceReturned true) s = .next ((s.setFld (CLK_BUILDOUT 0) 1).setFld (CLK_BUILDOUT 1) 1) ∧
        exec (.refBadRecheck true) s = .next ((s.setFld (CLK_BUILDOUT 0) 1).setFld (CLK_BUILDOUT 1) 1)) ∧
      (s.clk.moving ≠ 0 →
        exec (.referenceReturned true) s = .next { s with clk := { s.clk with buildoutDue := true } })) ∧
    (∀ steps, s.clk.refLost = true → s.flag (CLK_BUILDOUT 0) = true →
      ∃ t, exec (.buildoutDone steps) s = .next t ∧ t.clk.refLost = false ∧ t.flag (CLK_COASTING 0) = false ∧
        t.flag (CLK_COASTING 1) = false ∧ t.fld CLK_LAST_BUILDOUT = min steps 512)

/-- The regulator: a request becomes active, its polls end it where the read-back agrees within 2 ms, and a failed one
leaves the old target; in an entry to RETAIN the local clock freezes (R305, R431 to R433, R437). Power states: RUN and
STANDBY are entered at once, RETAIN is refused by its first condition or begun; entry, wake events and the wake itself
(R434 to R443). -/
def Obligations.SupplyAndPower : Prop :=
  (∀ (s : State) (v : Nat),
     (s.power.want = some v → s.fld PWR_STATUS_STATE ≠ 2 →
       exec .avsVoltageRequest s =
         .next (({ s with power := { s.power with want := none, active := some v, writtenAt := s.now, outside := false } } :
           State).count PMB_CNT_REQ_CNT)) ∧
     (s.power.want = some v → s.fld PWR_STATUS_STATE = 2 → s.clock.frozen = false →
       ∃ t, exec .avsVoltageRequest s = .next t ∧ t.power.active = some v ∧ t.clock.frozen = true ∧
         t.clock.aonAtSleep = (s.clock.aon + 1) % 2 ^ 48) ∧
     (s.power.active = some v →
       (∀ vdone vread, exec (.avsStatusPoll false vdone vread) s = .next (s.setFlag PMB_FLAGS_FRAME_ERR)) ∧
       (∀ vread, exec (.avsStatusPoll true false vread) s = .next s) ∧
       (∀ vread : BitVec 16, v < 65536 → vread.toNat ≤ v + 15 → v ≤ vread.toNat + 15 → s.now ≤ s.power.writtenAt + 800000 →
         ∃ t, exec (.avsStatusPoll true true vread) s = .next t ∧ t.power.active = none ∧ t.fld PMB_STATUS_TARGET = v ∧
           t.fld PMB_VREAD_VOUT = vread.toNat ∧
           t.fld PMB_LAST_T_DONE = min ((s.now - s.power.writtenAt) / 400) 65535) ∧
       (∀ vread : BitVec 16, vread.toNat ≤ v + 15 → v ≤ vread.toNat + 15 → s.power.writtenAt + 800000 < s.now →
         ∃ t, exec (.avsStatusPoll true true vread) s = .next t ∧ t.power.active = some v ∧ t.power.outside = false ∧
           t.fld PMB_STATUS_TARGET = s.fld PMB_STATUS_TARGET) ∧
       (∀ vread : BitVec 16, v + 15 < vread.toNat →
         ∃ t, exec (.avsStatusPoll true true vread) s = .next t ∧ t.power.active = some v ∧ t.power.outside = true ∧
           t.fld PMB_STATUS_TARGET = s.fld PMB_STATUS_TARGET) ∧
       (s.fld PWR_STATUS_STATE ≠ 2 →
         exec .avsRequestFailed s =
           .next ((((({ s with power := { s.power with active := none } } : State).setFlag PMB_FLAGS_REG_NO_ACK).count
             PMB_CNT_NO_ACK_CNT).setFlagIf s.power.outside PMB_FLAGS_REG_VOUT_ERR))))) ∧
  (∀ (i : Fin 32) (s : State),
     (CommandRuns s i 0x0800 → s.powerTarget i = 0 →
       exec (.pwrStateRun i) s = .next (((s.takeWake i).setFld PWR_STATUS_STATE 0).answer i [])) ∧
     (CommandRuns s i 0x0800 → s.powerTarget i = 1 → s.fld PWR_STATUS_STATE = 1 →
       exec (.pwrStateStandby i) s = .next (s.answer i [])) ∧
     (CommandRuns s i 0x0800 → s.powerTarget i = 1 → s.fld PWR_STATUS_STATE ≠ 1 →
       (∀ n, n < 4 → s.grantS n = true → s.flag (GFM_CTRL_RUN_REQ n) = false ∧
         ((s.stnOf n).st = .disabled ∨ (s.stnOf n).st = .ready ∨ (s.stnOf n).st = .tripped)) →
       exec (.pwrStateStandby i) s = .next (((s.takeWake i).setFld PWR_STATUS_STATE 1).answer i [])) ∧
     (CommandRuns s i 0x0800 → s.powerTarget i = 2 → s.retainRefusal i = none →
       exec (.pwrStateRetain i) s = .next (((s.takeWake i).answer i []).enterRetain)) ∧
     (∀ d, CommandRuns s i 0x0800 → s.powerTarget i = 2 → s.retainRefusal i = some d →
       ∃ arg, exec (.pwrStateRetain i) s = .next (s.draw.refuse i 7 d arg)) ∧
     (CommandRuns s i 0x0801 →
       exec (.pwrBankAck i) s =
         .next ((s.setFld PWR_STATUS_BANK_FAIL (s.fld PWR_STATUS_BANK_FAIL -
           (s.fld PWR_STATUS_BANK_FAIL &&& fieldAt (s.payload i) 0 2))).answer i [])) ∧
     (s.fld PWR_STATUS_STATE = 2 → s.dev.retain = false → s.clock.frozen = true → s.clock.thaw = false →
       s.fld PMB_STATUS_TARGET = 550 → s.power.wakeLatched = false →
       exec .retainEntryDone s =
         .next (({ s.powerDown with dev := { s.dev with retain := true } } : State).count PWR_CNT_RETAIN_CNT)) ∧
     (s.fld PWR_STATUS_STATE = 2 → s.dev.retain = true → ∀ q,
       ∃ t, exec (.wakeEvent 0 q) s = .next t ∧ t.fld PWR_STATUS_STATE = 3 ∧ t.flag PWR_WAKE_SRC_SIN = true ∧
         t.power.want = some (s.fld PMB_STATUS_V_RUN)) ∧
     (s.fld PWR_STATUS_STATE = 2 → s.dev.retain = false → ∀ q,
       ∃ t, exec (.wakeEvent 0 q) s = .next t ∧ t.power.wakeLatched = true ∧ t.flag PWR_FLAGS_WAKE_DURING_ENTRY = true) ∧
     (s.fld PWR_STATUS_STATE ≤ 1 → ∀ src q, exec (.wakeEvent src q) s = .next s) ∧
     (s.fld PWR_STATUS_STATE = 3 → s.power.want = none → s.power.active = none →
       (s.fld PMB_STATUS_TARGET = s.fld PMB_STATUS_V_RUN →
         ∃ t, exec (.wakeComplete 0) s = .next t ∧ t.dev.retain = false ∧ t.fld PWR_STATUS_STATE = 0 ∧
           t.flag PWR_FLAGS_WOKE = true ∧ t.stn = s.stn ∧ t.mem = s.mem) ∧
       (s.fld PMB_STATUS_TARGET ≠ s.fld PMB_STATUS_V_RUN →
         exec .wakeRegulatorRetry s =
           .next (({ s with power := { s.power with
             active := some (s.fld PMB_STATUS_V_RUN), writtenAt := s.now, outside := false } } : State).count
               PMB_CNT_REQ_CNT))))

/-- Packets of the link: HELLO from the expected source makes a port UP, from another one MISWIRED; a packet with a
bad CRC is answered with NAK, a sound one with ACK, an unknown one is counted besides; an ACK ends the wait of its
packet; a NAK, or no ACK in time, repeats the packet up to three times within 20 µs, and then the port trains again;
HELLO and BEAT are sent, and 1 ms of silence trains the port again (R453 to R456). Alignment: GO at position 0 sends
the measure pulse, and is refused elsewhere and while an alignment runs; position 0 sends its phase behind the measure
pulse, then the start pulse, and each check pulse; a follower steps both PLLs by its phases and waits for the start
edge; at the release the timebases of the named stations start, and ALIGN_DONE and ALIGNED are set; a follower's error
of one step stays, a larger one is slewed away, and one above 256,000 steps ends the alignment (R457 to R460).
Cross-checks: a sample of a peer waits for its partner, or meets it within 2 ticks and is judged by its tolerance; one
without a partner is dropped and counted (R464). -/
def Obligations.LinkAndAlignment : Prop :=
  (∀ (p : Fin 3) (h : SlkHdr) (s : State), s.devRuns = true → s.slkOn = true →
     (s.fld (SLK_PORT_STATE p) = 1 → h.crcOk = true → h.source = s.fld (SLK_PORT_PEER p) →
       exec (.slkHello p h) s = .next (((acked s p h).setSlkState p 2).slkUpAgain p)) ∧
     (s.fld (SLK_PORT_STATE p) = 1 → h.crcOk = true → h.source ≠ s.fld (SLK_PORT_PEER p) →
       exec (.slkHello p h) s = .next ((((acked s p h).slkTrain p).setSlkState p 3).setFlag SLK_FLAGS_MISWIRED)) ∧
     (s.fld (SLK_PORT_STATE p) = 2 → h.crcOk = false →
       exec (.slkBeat p h) s = .next (s.slkSend p 0x03 h.tag (leBytesN 4 h.seq))) ∧
     (PacketTaken s p h → exec (.slkBeat p h) s = .next (acked s p h)) ∧
     (PacketTaken s p h → exec (.slkUnknownPacket p h) s = .next ((acked s p h).count SLK_CNT_DISCARD_CNT)) ∧
     (∀ (q : Byte) w, PacketTaken s p h → (s.slkPortOf p).waits.find? (fun w => w.pkt.seq == q.toNat) = some w →
       w.pkt.typ ≠ 0x10 →
       exec (.slkAck p h q) s = .next (s.onSlkPort p (fun u => { u with waits := u.waits.erase w }))) ∧
     (∀ (q : Byte) w u, PacketTaken s p h → (s.slkPortOf p).waits.find? (fun w => w.pkt.seq == q.toNat) = some w →
       w.repeats < 3 → s.now ≤ w.firstAt + 20 * 400 →
       u = (s.onSlkPort p (fun u =>
           { u with
             tx := (w.pkt :: u.tx).take 8,
             waits := u.waits.map (fun x => if x = w then { x with repeats := x.repeats + 1 } else x) })).count
               SLK_CNT_RETRY_CNT →
       exec (.slkNak p h q) s = .next u ∧ exec (.slkAckTimeout p q) s = .next u) ∧
     (∀ (q : Byte) w, PacketTaken s p h → (s.slkPortOf p).waits.find? (fun w => w.pkt.seq == q.toNat) = some w → w.repeats = 3 →
       w.pkt.typ = 0x04 →
       exec (.slkNak p h q) s = .next ((s.slkTrain p).setFlag SLK_FLAGS_RETRY_FAIL) ∧
       exec (.slkAckTimeout p q) s = .next ((s.slkTrain p).setFlag SLK_FLAGS_RETRY_FAIL)) ∧
     (s.fld (SLK_PORT_STATE p) = 1 →
       exec (.slkHelloSend p) s =
         .next (s.slkSend p 0x01 0 (s.otp.uid ++ leBytesN 4 s.position ++ leBytes (s.reg SYS_GRANT) ++
           leBytes (s.reg SEC_BOOT)))) ∧
     (s.fld (SLK_PORT_STATE p) = 2 →
       exec (.slkBeatSend p) s = .next (s.slkSend p 0x04 0 []) ∧
       exec (.slkLinkTimeout p) s = .next ((s.slkTrain p).setFlag SLK_FLAGS_LINK_DOWN))) ∧
  (∀ (s : State), s.grantSlk = true →
     (s.devRuns = true → s.position = 0 → s.slk.busy = false → s.alignIdle = true → s.slkUp 0 = true →
       exec .slkAlignGo s =
         .next { s with slk := { s.slk with
           busy := true, sent := 1, checks := 0, measured := false, startNext := false, releaseDue := false } }) ∧
     (s.devRuns = true → s.position ≠ 0 ∨ s.slk.busy = true →
       exec .slkAlignGo s = .next (s.setFlag SLK_FLAGS_WRITE_REFUSED)) ∧
     (∀ a b : Fin 64, s.islandsRun = true → s.position = 0 → s.slk.sent = 1 →
       exec (.syncEdge a b) s =
         .next (({ s.setFld SLK_ALIGN_STAT_PHI a with slk := { s.slk with
           phiB := b, edgeAt := s.now, sent := 0, measured := true } } : State).sendAlign a 0)) ∧
     (∀ a b : Fin 64, s.islandsRun = true → s.position ≠ 0 → s.slk.busy = true → s.slk.startNext = true →
       exec (.syncEdge a b) s =
         .next { s.setFld SLK_ALIGN_STAT_PHI a with slk := { s.slk with
           phiB := b, edgeAt := s.now, startNext := false, startEdge := s.now, releaseDue := true } }) ∧
     (s.islandsRun = true → s.position = 0 → s.slk.busy = true → s.slk.measured = true →
       exec .alignStartPulse s = .next { s with slk := { s.slk with measured := false, sent := 2 } }) ∧
     (s.islandsRun = true → s.slk.busy = true → s.slk.releaseDue = true →
       exec .alignTbRelease s =
         .next (((({ s with slk := { s.slk with busy := false, releaseDue := false, checks := 0 } } : State).forAll 4 (fun n t =>
           if t.fldBit SLK_ALIGN_STN n then (t.setFld (PWM_TB_CTRL_TB_HOLD n) 0).startTimebase n else t)).setFlag
             SLK_FLAGS_ALIGN_DONE).setFld SLK_STATUS_ALIGNED 1)) ∧
     (s.islandsRun = true → s.position = 0 → s.flag SLK_STATUS_ALIGNED = true →
       exec .alignCheckPulse s = .next { s with slk := { s.slk with sent := 3, checks := s.slk.checks + 1 } }) ∧
     (∀ (p : Fin 3) (h : SlkHdr) (phi : Fin 64), PacketTaken s p h → s.position ≠ 0 →
       (∃ t, exec (.slkAlignPacket p h phi 0) s = .next t ∧ t.slk.busy = true ∧ t.slk.startNext = true ∧
         t.fld (CLK_PHASE_STEP_PENDING 0) = unsignedOf 13 (phaseWrap ((phi.val : Int) - s.fld SLK_ALIGN_STAT_PHI)) ∧
         t.fld (CLK_PHASE_STEP_PENDING 1) = unsignedOf 13 (phaseWrap ((phi.val : Int) - s.slk.phiB))) ∧
       (∀ k, k ≠ 0 → s.flag SLK_STATUS_ALIGNED = true →
         exec (.slkAlignPacket p h phi k) s = .next ((acked s p h).alignCheck (s.alignError phi k)))) ∧
     (∀ (e : Int), e.natAbs ≤ 1 → s.alignCheck e = s.setFld SLK_ALIGN_STAT_ERR (unsignedOf 24 e)) ∧
     (∀ (e : Int), 1 < e.natAbs → e.natAbs ≤ 4095 →
       (s.alignCheck e).fld (CLK_PHASE_STEP_PENDING 0) = unsignedOf 13 (-e) ∧
       (s.alignCheck e).fld (CLK_PHASE_STEP_PENDING 1) = unsignedOf 13 (-e) ∧
       (s.alignCheck e).slk.slewA = 0 ∧ (s.alignCheck e).slk.slewB = 0) ∧
     (∀ (e : Int), 256000 < e.natAbs →
       (s.alignCheck e).flag SLK_FLAGS_ALIGN_LOST = true ∧ (s.alignCheck e).flag SLK_STATUS_ALIGNED = false)) ∧
  (∀ (k : Fin 8) (s : State),
     (∀ (p : Fin 3) (h : SlkHdr) (tick : Nat) (v : Int), PacketTaken s p h → s.xchkOn k = true →
       s.fld (SLK_XCHK_PEER k) = s.fld (SLK_PORT_PEER p) → s.slk.samples = [] →
       exec (.slkXchk p h k tick v) s =
         .next { acked s p h with slk := { (acked s p h).slk with samples := [⟨k, false, tick, v⟩] } }) ∧
     (∀ (p : Fin 3) (h : SlkHdr) (tick t0 : Nat) (v w : Int), PacketTaken s p h → s.xchkOn k = true →
       s.fld (SLK_XCHK_PEER k) = s.fld (SLK_PORT_PEER p) → s.slk.samples = [⟨k, true, t0, w⟩] → t0 ≤ tick + 2 → tick ≤ t0 + 2 →
       (s.fld (SLK_XCHK_TOL k) < (v - w).natAbs →
         ∃ t, exec (.slkXchk p h k tick v) s = .next t ∧ t.slk.samples = [] ∧ t.flag SLK_FLAGS_XCHK_MISMATCH = true) ∧
       ((v - w).natAbs ≤ s.fld (SLK_XCHK_TOL k) →
         exec (.slkXchk p h k tick v) s =
           .next { acked s p h with slk := { (acked s p h).slk with samples := [] } })) ∧
     (∀ x rest, s.devRuns = true → s.slk.samples = x :: rest → x.entry = k →
       exec (.xchkUnpaired k) s =
         .next (({ s with slk := { s.slk with samples := rest } } : State).count (SLK_XCHK_CNT_UNPAIRED_CNT k))))

/-- What a peer asks for: data go into the staging area, an image is checked and staged, a report is sent, a restart
or a reset is made or refused; results move the jobs that asked (R397, R447, R461 to R463). Distribution and recovery:
the job starts with its list of targets or actions, and ends in failure at its time-out; a device without SUNDLINK
refuses both (R462, R463). -/
def Obligations.PeerOperations : Prop :=
  (∀ (p : Fin 3) (h : SlkHdr) (s : State), PacketTaken s p h →
     (∀ ofs data, ofs + data.length ≤ 25165824 →
       ∃ t, exec (.slkData p h ofs data) s = .next t ∧ t.bytes (0x8B800000 + ofs) data.length = data ∧
         (∀ a, (a < 0x8B800000 + ofs ∨ 0x8B800000 + ofs + data.length ≤ a) → t.byte a = s.byte a) ∧ t.regs = s.regs) ∧
     (∀ len hash readback body, len ≤ 25165824 → (s.slkPortOf p).base = some 0 → Config.sha384 (s.staged 0 len) = hash →
       s.swapping = false → headerOk (imgPayload (s.staged 0 len)) body = true →
       imageRefused (imageOfPayload (imgPayload (s.staged 0 len)) body) = false →
       ∃ t, exec (.slkDataEnd p h 3 len hash readback body) s = .next t ∧
         (s.imageCheck 3 (s.staged 0 len) = 0 →
           t = (((acked s p h).onSlkPort p (fun u => { u with base := none })).loadImage
             (imageOfPayload (imgPayload (s.staged 0 len)) body)).slkResult p h.tag 0 0 0) ∧
         (s.imageCheck 3 (s.staged 0 len) ≠ 0 →
           t.flag SEC_FLAGS_IMAGE_REFUSED = true ∧ t.banksA = s.banksA ∧ t.banksB = s.banksB)) ∧
     (∀ kind len hash readback body, kind ≠ 1 → kind ≠ 3 →
       exec (.slkDataEnd p h kind len hash readback body) s =
         .next (((acked s p h).onSlkPort p (fun u => { u with base := none })).slkResult p h.tag 6 6 0)) ∧
     (∀ nonce, exec (.slkAttestReq p h nonce) s =
       .next (((acked s p h).slkSend p 0x40 h.tag ((acked s p h).attestReport nonce)).slkResult p h.tag 0 0 0)) ∧
     (∀ report j target actions kind ofs len nonce area, s.slkJob h.tag = some j →
       (s.jobOf j).kind = .recover target actions kind ofs len nonce area →
       exec (.slkAttestRep p h report) s = .next ((acked s p h).setBytes (0x8B800000 + area) (report.take 296))) ∧
     (s.boot.restartAt = none → s.trust.req = none → s.flash.trial = false →
       ∃ t, exec (.slkMgmtRestart p h) s = .next t ∧ t.boot.fw = false ∧ t.boot.checking = some s.flash.preferred ∧
         t.boot.restartAt = some s.now ∧ t.fldBit SYS_RST_CAUSE_CAUSE 5 = true ∧ t.stn = s.stn) ∧
     (∀ at0, s.boot.restartAt = some at0 → s.now < at0 + 10000000 * 400 → at0 ≤ s.now →
       exec (.slkMgmtRestart p h) s = .next (((acked s p h).setFlag SLK_FLAGS_RESTART_REFUSED).slkRefuse p h.tag 7)) ∧
     (s.anyEnable = true →
       exec (.slkFullReset p h) s = .next (((acked s p h).setFlag SLK_FLAGS_RESTART_REFUSED).slkRefuse p h.tag 7)) ∧
     (s.anyEnable = false → s.dev.inReset = false →
       exec (.slkFullReset p h) s = .next (((acked s p h).slkResult p h.tag 0 0 0).enterReset 4)) ∧
     (s.activatable = none → exec (.slkMonitorActivate p h) s = .next ((acked s p h).slkRefuse p h.tag 7)) ∧
     (∀ b, s.activatable = some b → s.monitor = true → s.canRestartOn b = true →
       exec (.slkMonitorActivate p h) s = .next (((acked s p h).slkResult p h.tag 0 0 0).activate b)) ∧
     (∀ status : Byte, s.slkJob h.tag = none →
       exec (.slkResult p h status) s = .next ((acked s p h).setFld (SLK_PORT_RESULT p) status.toNat)) ∧
     (∀ (status : Byte) j target actions kind ofs len nonce area, s.slkJob h.tag = some j →
       (s.jobOf j).kind = .recover target actions kind ofs len nonce area → status ≠ 0 →
       exec (.slkResult p h status) s =
         .next (((acked s p h).setFld (SLK_PORT_RESULT p) status.toNat).endJob j 2 status.toNat))) ∧
  (∀ (i : Fin 32) (s : State),
     (∀ kind mask ofs len hash, CommandRuns s i 0x0B00 → s.grantSlk = false →
       exec (.slkDistribute i kind mask ofs len hash) s = .next (s.refuse i 4 11 0)) ∧
     (∀ mask ofs len hash, CommandRuns s i 0x0B00 → s.grantSlk = true → s.freeJob ≠ none → ofs + len ≤ 25165824 →
       Config.sha384 (s.staged ofs len) = hash →
       exec (.slkDistribute i 3 mask ofs len hash) s =
         .next (s.slkStartJob i (.distribute 3 mask ofs len)
           ((List.range 4).filter (fun t => mask.testBit t && t != s.position)))) ∧
     (∀ target actions kind ofs len hash nonce area, CommandRuns s i 0x0B01 → s.grantSlk = true → s.freeJob ≠ none →
       target < 4 → target ≠ s.position → actions < 32 → actions.testBit 2 = false → area + 296 ≤ 25165824 →
       exec (.slkRecover i target actions kind ofs len hash nonce area) s =
         .next (s.slkStartJob i (.recover target actions kind ofs len nonce area)
           ((List.range 5).filter (fun a => actions.testBit a)))) ∧
     (∀ (j : Fin 4) kind mask ofs len, s.fwRuns = true → (s.jobOf j).kind = .distribute kind mask ofs len →
       s.jobRuns j = true →
       ∃ t, exec (.slkDistributeTimeout j) s = .next t ∧ (t.jobOf j).st = 2 ∧
         t.fldBit MBX_JOB_DONE_JOB_DONE j = true ∧ t.mem = s.mem) ∧
     (∀ j : Fin 4, s.fwRuns = true → s.jobRuns j = true → (s.jobOf j).waitUp = true →
       ∃ t, exec (.slkRecoverWaitTimeout j) s = .next t ∧ (t.jobOf j).st = 2 ∧
         t.fldBit MBX_JOB_DONE_JOB_DONE j = true ∧ t.mem = s.mem))

/-- A step takes the command at the front of the queue and runs it with the rest; on an empty queue one tick of time
passes, no station changes, and no register and no memory but while Chest is in REARM, which the tick ends (the tick
of an empty queue is the model's choice, log rows 12 and 103). -/
def Obligations.StepRunsFrontCommand : Prop :=
  (∀ (c : Instr) (rest : List Instr) (s : State), s.pending = c :: rest → step s = exec c { s with pending := rest }) ∧
  (∀ (s : State), s.pending = [] →
    step s = .next s.tick ∧ s.tick.pending = [] ∧ s.tick.stn = s.stn ∧ s.tick.now = s.now + 1 ∧
      (s.chestState ≠ 3 ∨ s.dataRuns = false → s.tick.regs = s.regs ∧ s.tick.act = s.act ∧ s.tick.mem = s.mem))

/-- Every command completes: whatever the state, it answers a next state and leaves the queue as it found it. -/
def Obligations.EveryCommandCompletes : Prop :=
  ∀ (c : Instr) (s : State), ∃ t, exec c s = .next t ∧ t.pending = s.pending

/-- What is programmed once stays: no command clears a grant bit, lowers a floor of a security version, takes back a
revocation or opens a port that is off for good (R4). -/
def Obligations.OneTimeRowsOnlyRise : Prop :=
  ∀ (c : Instr) (s t : State), exec c s = .next t →
    (∀ i, s.otp.grant.getLsbD i = true → t.otp.grant.getLsbD i = true) ∧
    s.otp.svnFw ≤ t.otp.svnFw ∧ s.otp.svnSettle ≤ t.otp.svnSettle ∧ s.otp.svnTrestle ≤ t.otp.svnTrestle ∧
    (∀ i, s.otp.revoked.getLsbD i = true → t.otp.revoked.getLsbD i = true) ∧
    (s.otp.dbgPerm = true → t.otp.dbgPerm = true)

/-- The state after reset: no command waits, both memories are in canonical form, stations are DISABLED, every gate is
off, IRQ_EN is 0 and SYS_DEVID reads as the spec gives it. -/
def Obligations.ResetState : Prop :=
  State.reset.pending = [] ∧ Memory.wf State.reset = true ∧ (∀ a, State.reset.reg a = regReset a) ∧
  (∀ n, (State.reset.stnOf n).st = .disabled) ∧
  (∀ n k, (State.reset.hbOf n k).gh = false ∧ (State.reset.hbOf n k).gl = false) ∧
  State.reset.reg SYS_DEVID = 0x4B524848 ∧ State.reset.reg IRQ_EN = 0 ∧ State.reset.reg TIM_INCR = 0x28000000

/-- Every step keeps the memories in their canonical form: rising addresses and no entry that equals what an unlisted
address reads as. -/
def Obligations.StepKeepsMemoryCanonical : Prop :=
  ∀ (s t : State), Memory.wf s = true → step s = .next t → Memory.wf t = true
end

