-- ==== Sys2Proof/Laws/Sparse.lean ====
section
/-! SUPPORT. What a sparse table answers after a write, and that writes keep the canonical form. -/

namespace Sys2Proof.Machine

variable {α : Type}

theorem tget_tdrop_self (d : Nat → α) (m : List (Nat × α)) (k : Nat) : tget d (tdrop m k) k = d k := by
  induction m with
  | nil => rfl
  | cons e t ih =>
    obtain ⟨j, v⟩ := e
    by_cases h : j = k
    · simpa [tdrop, h] using ih
    · simpa [tdrop, h, tget] using ih

theorem tget_tdrop_ne (d : Nat → α) (m : List (Nat × α)) {k a : Nat} (h : a ≠ k) :
    tget d (tdrop m k) a = tget d m a := by
  induction m with
  | nil => rfl
  | cons e t ih =>
    obtain ⟨j, v⟩ := e
    by_cases hj : j = k
    · have : j ≠ a := fun e => h (by omega)
      simpa [tdrop, hj, tget, Ne.symm h] using ih
    · by_cases ha : j = a
      · subst ha; simp [tdrop, hj, tget]
      · simpa [tdrop, hj, tget, ha] using ih

theorem tget_tput_self (d : Nat → α) (m : List (Nat × α)) (k : Nat) (v : α) (h : ∀ e ∈ m, e.1 ≠ k) :
    tget d (tput m k v) k = v := by
  induction m with
  | nil => simp [tput, tget]
  | cons e t ih =>
    obtain ⟨j, w⟩ := e
    have hj : j ≠ k := h (j, w) (by simp)
    by_cases hk : k < j
    · simp [tput, hk, tget]
    · simp [tput, hk, tget, hj]
      exact ih (fun e he => h e (by simp [he]))

theorem tget_tput_ne (d : Nat → α) (m : List (Nat × α)) {k a : Nat} (v : α) (h : a ≠ k) :
    tget d (tput m k v) a = tget d m a := by
  induction m with
  | nil => simp [tput, tget, Ne.symm h]
  | cons e t ih =>
    obtain ⟨j, w⟩ := e
    by_cases hk : k < j
    · simp [tput, hk, tget, Ne.symm h]
    · by_cases hj : j = a
      · subst hj; simp [tput, hk, tget]
      · simp [tput, hk, tget, hj, ih]

theorem tdrop_ne_key (m : List (Nat × α)) (k : Nat) : ∀ e ∈ tdrop m k, e.1 ≠ k := by
  intro e he
  simpa using (List.mem_filter.mp he).2

@[simp] theorem tget_tset_self [DecidableEq α] (d : Nat → α) (m : List (Nat × α)) (k : Nat) (v : α) :
    tget d (tset d m k v) k = v := by
  unfold tset
  split
  · rename_i h; rw [tget_tdrop_self, h]
  · exact tget_tput_self d _ k v (tdrop_ne_key m k)

theorem tget_tset_ne [DecidableEq α] (d : Nat → α) (m : List (Nat × α)) {k a : Nat} (v : α) (h : a ≠ k) :
    tget d (tset d m k v) a = tget d m a := by
  unfold tset
  split
  · exact tget_tdrop_ne d m h
  · rw [tget_tput_ne d _ v h, tget_tdrop_ne d m h]

/-- Rising keys, as a property of the list of keys. -/
theorem trising_some_iff (b : Nat) (m : List (Nat × α)) :
    trising (some b) m = true ↔ (b :: m.map Prod.fst).Pairwise (· < ·) := by
  induction m generalizing b with
  | nil => simp [trising]
  | cons e t ih =>
    obtain ⟨j, v⟩ := e
    simp only [trising, Bool.and_eq_true, decide_eq_true_eq, ih j, List.map_cons, List.pairwise_cons,
      List.mem_cons]
    constructor
    · rintro ⟨hb, hj, ht⟩
      refine ⟨?_, hj, ht⟩
      rintro a (rfl | ha)
      · exact hb
      · exact lt_trans hb (hj a ha)
    · rintro ⟨hb, hj, ht⟩
      exact ⟨hb j (Or.inl rfl), hj, ht⟩

theorem trising_none_iff (m : List (Nat × α)) :
    trising none m = true ↔ (m.map Prod.fst).Pairwise (· < ·) := by
  cases m with
  | nil => simp [trising]
  | cons e t => obtain ⟨j, v⟩ := e; simp only [trising]; rw [trising_some_iff]; simp

theorem twf_iff [DecidableEq α] (d : Nat → α) (m : List (Nat × α)) :
    twf d m = true ↔ (m.map Prod.fst).Pairwise (· < ·) ∧ ∀ e ∈ m, e.2 ≠ d e.1 := by
  simp only [twf, Bool.and_eq_true, trising_none_iff, List.all_eq_true, decide_eq_true_eq]

theorem mem_tput {m : List (Nat × α)} {k : Nat} {v : α} {e : Nat × α} (h : e ∈ tput m k v) : e = (k, v) ∨ e ∈ m := by
  induction m with
  | nil => left; simpa [tput] using h
  | cons f t ih =>
    obtain ⟨j, w⟩ := f
    by_cases hk : k < j
    · simp only [tput, hk, if_true, List.mem_cons] at h
      rcases h with h | h | h
      · exact Or.inl h
      · exact Or.inr (by simp [h])
      · exact Or.inr (by simp [h])
    · simp only [tput, hk, if_false, List.mem_cons] at h
      rcases h with h | h
      · exact Or.inr (by simp [h])
      · rcases ih h with h | h
        · exact Or.inl h
        · exact Or.inr (by simp [h])

theorem tput_rising (m : List (Nat × α)) (k : Nat) (v : α) (hs : (m.map Prod.fst).Pairwise (· < ·))
    (hk : ∀ e ∈ m, e.1 ≠ k) : ((tput m k v).map Prod.fst).Pairwise (· < ·) := by
  induction m with
  | nil => simp [tput]
  | cons f t ih =>
    obtain ⟨j, w⟩ := f
    have hj : j ≠ k := hk (j, w) (by simp)
    simp only [List.map_cons, List.pairwise_cons] at hs
    by_cases h : k < j
    · simp only [tput, h, if_true, List.map_cons, List.pairwise_cons, List.mem_cons]
      refine ⟨?_, hs.1, hs.2⟩
      rintro a (rfl | ha)
      · exact h
      · exact lt_trans h (hs.1 a ha)
    · simp only [tput, h, if_false, List.map_cons, List.pairwise_cons]
      refine ⟨?_, ih hs.2 (fun e he => hk e (by simp [he]))⟩
      intro a ha
      obtain ⟨e, he, rfl⟩ := List.mem_map.mp ha
      rcases mem_tput he with rfl | he
      · exact lt_of_le_of_ne (Nat.le_of_not_lt h) hj
      · exact hs.1 e.1 (List.mem_map.mpr ⟨e, he, rfl⟩)

/-- A write keeps the canonical form. -/
theorem twf_tset [DecidableEq α] (d : Nat → α) (m : List (Nat × α)) (k : Nat) (v : α) (h : twf d m = true) :
    twf d (tset d m k v) = true := by
  rw [twf_iff] at *
  have hd : ((tdrop m k).map Prod.fst).Pairwise (· < ·) :=
    h.1.sublist (List.Sublist.map _ List.filter_sublist)
  have hn : ∀ e ∈ tdrop m k, e.2 ≠ d e.1 := fun e he => h.2 e (List.mem_filter.mp he).1
  unfold tset
  split
  · exact ⟨hd, hn⟩
  · rename_i hv
    refine ⟨tput_rising _ k v hd (tdrop_ne_key m k), fun e he => ?_⟩
    rcases mem_tput he with rfl | he
    · exact hv
    · exact hn e he

/-- Dropping entries keeps the canonical form. -/
theorem twf_filter [DecidableEq α] (d : Nat → α) (p : Nat × α → Bool) (m : List (Nat × α)) (h : twf d m = true) :
    twf d (m.filter p) = true := by
  rw [twf_iff] at h ⊢
  exact ⟨h.1.sublist (List.filter_sublist.map _), fun e he => h.2 e (List.mem_filter.mp he).1⟩

@[simp] theorem twf_nil [DecidableEq α] (d : Nat → α) : twf d [] = true := rfl

end Sys2Proof.Machine
end

