-- ==== Sys2Proof/Laws/Keeps.lean ====
section
/-! SUPPORT. What every command leaves as it finds it: the queue, and the canonical form of the memories. The files Keeps… hold
one lemma for each definition that changes the state. -/

namespace Sys2Proof.Machine

/-- A meaning completes: it answers a next state, with the queue as it was and the memories in canonical form. -/
def Completes (s : State) (a : Answer) : Prop :=
  ∃ t, a = .next t ∧ t.pending = s.pending ∧ (twf memDefault s.mem = true → twf memDefault t.mem = true) ∧
    (twf holeDefault s.holes = true → twf holeDefault t.holes = true)

theorem next_ok {s t : State} (hp : t.pending = s.pending) (hm : twf memDefault s.mem = true → twf memDefault t.mem = true)
    (hh : twf holeDefault s.holes = true → twf holeDefault t.holes = true) : Completes s (.next t) :=
  ⟨t, rfl, hp, hm, hh⟩

theorem next_if_ok {s t : State} {b : Bool} (hp : t.pending = s.pending)
    (hm : twf memDefault s.mem = true → twf memDefault t.mem = true)
    (hh : twf holeDefault s.holes = true → twf holeDefault t.holes = true) : Completes s (.next (if b then t else s)) := by
  cases b
  · exact ⟨s, rfl, rfl, id, id⟩
  · exact ⟨t, rfl, hp, hm, hh⟩

theorem whenRun_ok {s t : State} (hp : t.pending = s.pending) (hm : twf memDefault s.mem = true → twf memDefault t.mem = true)
    (hh : twf holeDefault s.holes = true → twf holeDefault t.holes = true) : Completes s (whenRun s t) :=
  next_if_ok hp hm hh

theorem whenDev_ok {s t : State} (hp : t.pending = s.pending) (hm : twf memDefault s.mem = true → twf memDefault t.mem = true)
    (hh : twf holeDefault s.holes = true → twf holeDefault t.holes = true) : Completes s (whenDev s t) :=
  next_if_ok hp hm hh

theorem whenFw_ok {s t : State} (hp : t.pending = s.pending) (hm : twf memDefault s.mem = true → twf memDefault t.mem = true)
    (hh : twf holeDefault s.holes = true → twf holeDefault t.holes = true) : Completes s (whenFw s t) :=
  next_if_ok hp hm hh

theorem whenMgmt_ok {s t : State} (hp : t.pending = s.pending) (hm : twf memDefault s.mem = true → twf memDefault t.mem = true)
    (hh : twf holeDefault s.holes = true → twf holeDefault t.holes = true) : Completes s (whenMgmt s t) :=
  next_if_ok hp hm hh

theorem whenData_ok {s t : State} (hp : t.pending = s.pending) (hm : twf memDefault s.mem = true → twf memDefault t.mem = true)
    (hh : twf holeDefault s.holes = true → twf holeDefault t.holes = true) : Completes s (whenData s t) :=
  next_if_ok hp hm hh

theorem writeWindow_ok {x : Nat} {s t : State} (hp : t.pending = s.pending)
    (hm : twf memDefault s.mem = true → twf memDefault t.mem = true)
    (hh : twf holeDefault s.holes = true → twf holeDefault t.holes = true) : Completes s (writeWindow x s t) := by
  unfold writeWindow
  repeat' split
  · exact next_ok rfl id id
  · exact next_ok rfl id id
  · exact next_ok hp hm hh
  · exact next_ok rfl id id

theorem readWindow_ok {x : Nat} {s t : State} (hp : t.pending = s.pending)
    (hm : twf memDefault s.mem = true → twf memDefault t.mem = true)
    (hh : twf holeDefault s.holes = true → twf holeDefault t.holes = true) : Completes s (readWindow x s t) := by
  unfold readWindow
  repeat' split
  · exact next_ok rfl id id
  · exact next_ok rfl id id
  · exact next_ok hp hm hh
  · exact next_ok rfl id id

/-! ### Choices -/

@[simp] theorem ite_pending (c : Prop) [Decidable c] (a b : State) :
    (if c then a else b).pending = if c then a.pending else b.pending := apply_ite State.pending c a b

@[simp] theorem ite_mem (c : Prop) [Decidable c] (a b : State) : (if c then a else b).mem = if c then a.mem else b.mem :=
  apply_ite State.mem c a b

@[simp] theorem ite_holes (c : Prop) [Decidable c] (a b : State) :
    (if c then a else b).holes = if c then a.holes else b.holes := apply_ite State.holes c a b

@[simp] theorem ite_twf (c : Prop) [Decidable c] (d : Nat → Byte) (a b : List Host.Cell) :
    twf d (if c then a else b) = if c then twf d a else twf d b := apply_ite (twf d) c a b

/-! ### Repetition -/

section
variable {β : Type}

theorem foldl_rel (R : State → State → Prop) (hr : ∀ s, R s s) (ht : ∀ a b c, R a b → R b c → R a c) (f : State → β → State)
    (h : ∀ t x, R t (f t x)) (l : List β) (s : State) : R s (l.foldl f s) := by
  induction l generalizing s with
  | nil => exact hr s
  | cons x l ih => exact ht _ _ _ (h s x) (ih _)

@[simp] theorem foldl_pending (f : State → β → State) (h : ∀ t x, (f t x).pending = t.pending) (l : List β) (s : State) :
    (l.foldl f s).pending = s.pending :=
  foldl_rel (fun a b => b.pending = a.pending) (fun _ => rfl) (fun _ _ _ h1 h2 => h2.trans h1) f h l s

@[simp] theorem foldl_mem (f : State → β → State) (h : ∀ t x, (f t x).mem = t.mem) (l : List β) (s : State) :
    (l.foldl f s).mem = s.mem :=
  foldl_rel (fun a b => b.mem = a.mem) (fun _ => rfl) (fun _ _ _ h1 h2 => h2.trans h1) f h l s

@[simp] theorem foldl_holes (f : State → β → State) (h : ∀ t x, (f t x).holes = t.holes) (l : List β) (s : State) :
    (l.foldl f s).holes = s.holes :=
  foldl_rel (fun a b => b.holes = a.holes) (fun _ => rfl) (fun _ _ _ h1 h2 => h2.trans h1) f h l s

@[simp] theorem foldl_mwf (f : State → β → State) (h : ∀ t x, twf memDefault t.mem = true → twf memDefault (f t x).mem = true)
    (l : List β) (s : State) (hs : twf memDefault s.mem = true) : twf memDefault (l.foldl f s).mem = true :=
  foldl_rel (fun a b => twf memDefault a.mem = true → twf memDefault b.mem = true) (fun _ => id)
    (fun _ _ _ h1 h2 h => h2 (h1 h)) f h l s hs

@[simp] theorem foldl_hwf (f : State → β → State)
    (h : ∀ t x, twf holeDefault t.holes = true → twf holeDefault (f t x).holes = true)
    (l : List β) (s : State) (hs : twf holeDefault s.holes = true) : twf holeDefault (l.foldl f s).holes = true :=
  foldl_rel (fun a b => twf holeDefault a.holes = true → twf holeDefault b.holes = true) (fun _ => id)
    (fun _ _ _ h1 h2 h => h2 (h1 h)) f h l s hs

theorem forAll_rel (R : State → State → Prop) (hr : ∀ s, R s s) (ht : ∀ a b c, R a b → R b c → R a c) (f : Nat → State → State)
    (h : ∀ i t, R t (f i t)) (n : Nat) (s : State) : R s (s.forAll n f) := by
  induction n with
  | zero => exact hr s
  | succ k ih => exact ht _ _ _ ih (h k _)

@[simp] theorem State.forAll_pending (f : Nat → State → State) (h : ∀ i t, (f i t).pending = t.pending) (n : Nat) (s : State) :
    (s.forAll n f).pending = s.pending :=
  forAll_rel (fun a b => b.pending = a.pending) (fun _ => rfl) (fun _ _ _ h1 h2 => h2.trans h1) f h n s

@[simp] theorem State.forAll_mem (f : Nat → State → State) (h : ∀ i t, (f i t).mem = t.mem) (n : Nat) (s : State) :
    (s.forAll n f).mem = s.mem :=
  forAll_rel (fun a b => b.mem = a.mem) (fun _ => rfl) (fun _ _ _ h1 h2 => h2.trans h1) f h n s

@[simp] theorem State.forAll_holes (f : Nat → State → State) (h : ∀ i t, (f i t).holes = t.holes) (n : Nat) (s : State) :
    (s.forAll n f).holes = s.holes :=
  forAll_rel (fun a b => b.holes = a.holes) (fun _ => rfl) (fun _ _ _ h1 h2 => h2.trans h1) f h n s

@[simp] theorem State.forAll_mwf (f : Nat → State → State)
    (h : ∀ i t, twf memDefault t.mem = true → twf memDefault (f i t).mem = true) (n : Nat) (s : State)
    (hs : twf memDefault s.mem = true) : twf memDefault (s.forAll n f).mem = true :=
  forAll_rel (fun a b => twf memDefault a.mem = true → twf memDefault b.mem = true) (fun _ => id)
    (fun _ _ _ h1 h2 h => h2 (h1 h)) f h n s hs

@[simp] theorem State.forAll_hwf (f : Nat → State → State)
    (h : ∀ i t, twf holeDefault t.holes = true → twf holeDefault (f i t).holes = true) (n : Nat) (s : State)
    (hs : twf holeDefault s.holes = true) : twf holeDefault (s.forAll n f).holes = true :=
  forAll_rel (fun a b => twf holeDefault a.holes = true → twf holeDefault b.holes = true) (fun _ => id)
    (fun _ _ _ h1 h2 h => h2 (h1 h)) f h n s hs

end

end Sys2Proof.Machine
end

