-- ==== Sys2Proof/Laws/KeepsOps.lean ====
section
/-! SUPPORT. What the definitions of Machine/Ops.lean leave of the queue and the memories. -/

namespace Sys2Proof.Machine

@[simp] theorem State.setReg_keeps (s : State) (a : Nat) (w : Word) :
    (State.setReg s a w).pending = s.pending ∧ (State.setReg s a w).mem = s.mem ∧
      (State.setReg s a w).holes = s.holes := by
  simp [State.setReg]

@[simp] theorem State.setAct_keeps (s : State) (a : Nat) (w : Word) :
    (State.setAct s a w).pending = s.pending ∧ (State.setAct s a w).mem = s.mem ∧
      (State.setAct s a w).holes = s.holes := by
  simp [State.setAct]

@[simp] theorem State.setBoth_keeps (s : State) (a : Nat) (w : Word) :
    (State.setBoth s a w).pending = s.pending ∧ (State.setBoth s a w).mem = s.mem ∧
      (State.setBoth s a w).holes = s.holes := by
  simp [State.setBoth]

@[simp] theorem State.setFld_keeps (s : State) (f : Fld) (n : Nat) :
    (State.setFld s f n).pending = s.pending ∧ (State.setFld s f n).mem = s.mem ∧
      (State.setFld s f n).holes = s.holes := by
  simp [State.setFld]

@[simp] theorem State.setActFld_keeps (s : State) (f : Fld) (n : Nat) :
    (State.setActFld s f n).pending = s.pending ∧ (State.setActFld s f n).mem = s.mem ∧
      (State.setActFld s f n).holes = s.holes := by
  simp [State.setActFld]

@[simp] theorem State.setFldBit_keeps (s : State) (f : Fld) (i : Nat) (b : Bool) :
    (State.setFldBit s f i b).pending = s.pending ∧ (State.setFldBit s f i b).mem = s.mem ∧
      (State.setFldBit s f i b).holes = s.holes := by
  simp [State.setFldBit]

@[simp] theorem State.setByte_keeps (s : State) (a : Nat) (b : Byte) :
    (s.setByte a b).pending = s.pending ∧ (s.setByte a b).holes = s.holes := ⟨rfl, rfl⟩

@[simp] theorem State.setByte_mwf (s : State) (a : Nat) (b : Byte) (hw : twf memDefault s.mem = true) :
    twf memDefault (s.setByte a b).mem = true := twf_tset _ _ _ _ hw


@[simp] theorem State.setBytes_keeps (s : State) (a : Nat) (l : List Byte) :
    (s.setBytes a l).pending = s.pending ∧ (s.setBytes a l).holes = s.holes := by
  induction l generalizing s a with
  | nil => exact ⟨rfl, rfl⟩
  | cons b t ih => simpa [State.setBytes] using ih (s.setByte a b) (a + 1)

@[simp] theorem State.setBytes_mwf (s : State) (a : Nat) (l : List Byte) (hw : twf memDefault s.mem = true) :
    twf memDefault (s.setBytes a l).mem = true := by
  induction l generalizing s a with
  | nil => exact hw
  | cons b t ih => exact ih (s.setByte a b) (a + 1) (State.setByte_mwf s a b hw)


@[simp] theorem State.setWord_keeps (s : State) (a : Nat) (w : Word) :
    (State.setWord s a w).pending = s.pending ∧ (State.setWord s a w).holes = s.holes := by
  simp [State.setWord]

@[simp] theorem State.setWord_mwf (s : State) (a : Nat) (w : Word) (hw : twf memDefault s.mem = true) :
    twf memDefault (State.setWord s a w).mem = true := by
  simp (maxDischargeDepth := 12) +contextual [State.setWord, hw]

@[simp] theorem State.setHole_keeps (s : State) (a : Nat) (b : Byte) :
    (s.setHole a b).pending = s.pending ∧ (s.setHole a b).mem = s.mem := ⟨rfl, rfl⟩

@[simp] theorem State.setHole_hwf (s : State) (a : Nat) (b : Byte) (hw : twf holeDefault s.holes = true) :
    twf holeDefault (s.setHole a b).holes = true := twf_tset _ _ _ _ hw


@[simp] theorem State.setHoles_keeps (s : State) (a : Nat) (l : List Byte) :
    (s.setHoles a l).pending = s.pending ∧ (s.setHoles a l).mem = s.mem := by
  induction l generalizing s a with
  | nil => exact ⟨rfl, rfl⟩
  | cons b t ih => simpa [State.setHoles] using ih (s.setHole a b) (a + 1)

@[simp] theorem State.setHoles_hwf (s : State) (a : Nat) (l : List Byte) (hw : twf holeDefault s.holes = true) :
    twf holeDefault (s.setHoles a l).holes = true := by
  induction l generalizing s a with
  | nil => exact hw
  | cons b t ih => exact ih (s.setHole a b) (a + 1) (State.setHole_hwf s a b hw)


@[simp] theorem State.setDmem_keeps (s : State) (e : Nat) (i : Nat) (w : Word) :
    (State.setDmem s e i w).pending = s.pending ∧ (State.setDmem s e i w).mem = s.mem ∧
      (State.setDmem s e i w).holes = s.holes := by
  simp [State.setDmem]

@[simp] theorem State.onStn_keeps (s : State) (n : Nat) (f : Stn → Stn) :
    (State.onStn s n f).pending = s.pending ∧ (State.onStn s n f).mem = s.mem ∧
      (State.onStn s n f).holes = s.holes := by
  simp [State.onStn]

@[simp] theorem State.onPwm_keeps (s : State) (n : Nat) (f : PwmUnit → PwmUnit) :
    (State.onPwm s n f).pending = s.pending ∧ (State.onPwm s n f).mem = s.mem ∧
      (State.onPwm s n f).holes = s.holes := by
  simp [State.onPwm]

@[simp] theorem State.onHb_keeps (s : State) (n : Nat) (k : Nat) (f : HalfBridge → HalfBridge) :
    (State.onHb s n k f).pending = s.pending ∧ (State.onHb s n k f).mem = s.mem ∧
      (State.onHb s n k f).holes = s.holes := by
  simp [State.onHb]

@[simp] theorem State.onWcomp_keeps (s : State) (n : Nat) (c : Nat) (f : WindowComp → WindowComp) :
    (State.onWcomp s n c f).pending = s.pending ∧ (State.onWcomp s n c f).mem = s.mem ∧
      (State.onWcomp s n c f).holes = s.holes := by
  simp [State.onWcomp]

@[simp] theorem State.onInp_keeps (s : State) (n : Nat) (i : Nat) (f : InputWatch → InputWatch) :
    (State.onInp s n i f).pending = s.pending ∧ (State.onInp s n i f).mem = s.mem ∧
      (State.onInp s n i f).holes = s.holes := by
  simp [State.onInp]

@[simp] theorem State.onConv_keeps (s : State) (k : Nat) (f : Conv → Conv) :
    (State.onConv s k f).pending = s.pending ∧ (State.onConv s k f).mem = s.mem ∧
      (State.onConv s k f).holes = s.holes := by
  simp [State.onConv]

@[simp] theorem State.onPair_keeps (s : State) (p : Nat) (f : Pair → Pair) :
    (State.onPair s p f).pending = s.pending ∧ (State.onPair s p f).mem = s.mem ∧
      (State.onPair s p f).holes = s.holes := by
  simp [State.onPair]

@[simp] theorem State.onSdm_keeps (s : State) (c : Nat) (f : SdmCh → SdmCh) :
    (State.onSdm s c f).pending = s.pending ∧ (State.onSdm s c f).mem = s.mem ∧
      (State.onSdm s c f).holes = s.holes := by
  simp [State.onSdm]

@[simp] theorem State.onCap_keeps (s : State) (c : Nat) (f : Cap → Cap) :
    (State.onCap s c f).pending = s.pending ∧ (State.onCap s c f).mem = s.mem ∧
      (State.onCap s c f).holes = s.holes := by
  simp [State.onCap]

@[simp] theorem State.onStream_keeps (s : State) (k : Nat) (f : ChestStream → ChestStream) :
    (State.onStream s k f).pending = s.pending ∧ (State.onStream s k f).mem = s.mem ∧
      (State.onStream s k f).holes = s.holes := by
  simp [State.onStream]

@[simp] theorem State.onTrig_keeps (s : State) (t : Nat) (f : ChestTrig → ChestTrig) :
    (State.onTrig s t f).pending = s.pending ∧ (State.onTrig s t f).mem = s.mem ∧
      (State.onTrig s t f).holes = s.holes := by
  simp [State.onTrig]

@[simp] theorem State.onSafe_keeps (s : State) (n : Nat) (f : SafeStn → SafeStn) :
    (State.onSafe s n f).pending = s.pending ∧ (State.onSafe s n f).mem = s.mem ∧
      (State.onSafe s n f).holes = s.holes := by
  simp [State.onSafe]

@[simp] theorem State.onSin_keeps (s : State) (x : Nat) (f : SinPair → SinPair) :
    (State.onSin s x f).pending = s.pending ∧ (State.onSin s x f).mem = s.mem ∧
      (State.onSin s x f).holes = s.holes := by
  simp [State.onSin]

@[simp] theorem State.onSout_keeps (s : State) (k : Nat) (f : SoutOut → SoutOut) :
    (State.onSout s k f).pending = s.pending ∧ (State.onSout s k f).mem = s.mem ∧
      (State.onSout s k f).holes = s.holes := by
  simp [State.onSout]

@[simp] theorem State.onPort_keeps (s : State) (q : Nat) (f : PortUnit → PortUnit) :
    (State.onPort s q f).pending = s.pending ∧ (State.onPort s q f).mem = s.mem ∧
      (State.onPort s q f).holes = s.holes := by
  simp [State.onPort]

@[simp] theorem State.onCh_keeps (s : State) (n : Nat) (f : DmaCh → DmaCh) :
    (State.onCh s n f).pending = s.pending ∧ (State.onCh s n f).mem = s.mem ∧ (State.onCh s n f).holes = s.holes := by
  simp [State.onCh]

@[simp] theorem State.onCvu_keeps (s : State) (u : Nat) (f : Cvu → Cvu) :
    (State.onCvu s u f).pending = s.pending ∧ (State.onCvu s u f).mem = s.mem ∧
      (State.onCvu s u f).holes = s.holes := by
  simp [State.onCvu]

@[simp] theorem State.onMbx_keeps (s : State) (f : MbxUnit → MbxUnit) :
    (State.onMbx s f).pending = s.pending ∧ (State.onMbx s f).mem = s.mem ∧ (State.onMbx s f).holes = s.holes := by
  simp [State.onMbx]

@[simp] theorem State.onSlot_keeps (s : State) (i : Nat) (f : Slot → Slot) :
    (State.onSlot s i f).pending = s.pending ∧ (State.onSlot s i f).mem = s.mem ∧
      (State.onSlot s i f).holes = s.holes := by
  simp [State.onSlot]

@[simp] theorem State.onJob_keeps (s : State) (j : Nat) (f : Job → Job) :
    (State.onJob s j f).pending = s.pending ∧ (State.onJob s j f).mem = s.mem ∧
      (State.onJob s j f).holes = s.holes := by
  simp [State.onJob]

@[simp] theorem State.onSlkPort_keeps (s : State) (p : Nat) (f : SlkPort → SlkPort) :
    (State.onSlkPort s p f).pending = s.pending ∧ (State.onSlkPort s p f).mem = s.mem ∧
      (State.onSlkPort s p f).holes = s.holes := by
  simp [State.onSlkPort]

@[simp] theorem State.onSlk_keeps (s : State) (f : SlkUnit → SlkUnit) :
    (State.onSlk s f).pending = s.pending ∧ (State.onSlk s f).mem = s.mem ∧ (State.onSlk s f).holes = s.holes := by
  simp [State.onSlk]

@[simp] theorem State.onCore_keeps (s : State) (n : Nat) (f : Core → Core) :
    (State.onCore s n f).pending = s.pending ∧ (State.onCore s n f).mem = s.mem ∧
      (State.onCore s n f).holes = s.holes := by
  simp [State.onCore]

@[simp] theorem State.onLim_keeps (s : State) (n : Nat) (f : Limiting → Limiting) :
    (State.onLim s n f).pending = s.pending ∧ (State.onLim s n f).mem = s.mem ∧
      (State.onLim s n f).holes = s.holes := by
  simp [State.onLim]

@[simp] theorem State.onStart_keeps (s : State) (n : Nat) (f : Start → Start) :
    (State.onStart s n f).pending = s.pending ∧ (State.onStart s n f).mem = s.mem ∧
      (State.onStart s n f).holes = s.holes := by
  simp [State.onStart]

@[simp] theorem State.onPer_keeps (s : State) (n : Nat) (f : Period → Period) :
    (State.onPer s n f).pending = s.pending ∧ (State.onPer s n f).mem = s.mem ∧
      (State.onPer s n f).holes = s.holes := by
  simp [State.onPer]



@[simp] theorem State.forEach_eq (s : State) (l : List Nat) (f : Nat → State → State) :
    s.forEach l f = l.foldl (fun t i => f i t) s := rfl


@[simp] theorem State.draw_keeps (s : State) :
    (State.draw s).pending = s.pending ∧ (State.draw s).mem = s.mem ∧ (State.draw s).holes = s.holes := by
  simp [State.draw]

end Sys2Proof.Machine
end

