-- ==== Sys2Proof/Laws/KeepsFlags.lean ====
section
/-! SUPPORT. What the definitions of Machine/Flags.lean leave of the queue and the memories. -/

namespace Sys2Proof.Machine

@[simp] theorem State.setFlag_keeps (s : State) (f : Fld) :
    (State.setFlag s f).pending = s.pending ∧ (State.setFlag s f).mem = s.mem ∧
      (State.setFlag s f).holes = s.holes := by
  simp [State.setFlag]

@[simp] theorem State.setFlagIf_keeps (s : State) (c : Bool) (f : Fld) :
    (State.setFlagIf s c f).pending = s.pending ∧ (State.setFlagIf s c f).mem = s.mem ∧
      (State.setFlagIf s c f).holes = s.holes := by
  simp [State.setFlagIf]

@[simp] theorem State.countBy_keeps (s : State) (f : Fld) (n : Nat) :
    (State.countBy s f n).pending = s.pending ∧ (State.countBy s f n).mem = s.mem ∧
      (State.countBy s f n).holes = s.holes := by
  simp [State.countBy]

@[simp] theorem State.count_keeps (s : State) (f : Fld) :
    (State.count s f).pending = s.pending ∧ (State.count s f).mem = s.mem ∧ (State.count s f).holes = s.holes := by
  simp [State.count]

end Sys2Proof.Machine
end

