-- ==== Sys2Proof/Laws/KeepsControl.lean ====
section
/-! SUPPORT. What the definitions of Machine/Control.lean leave of the queue and the memories. -/

namespace Sys2Proof.Machine

set_option linter.unusedTactic false

@[simp] theorem State.logEvent_keeps (s : State) (typ : Nat) (unit : Nat) (index : Nat) (code : Nat) :
    (State.logEvent s typ unit index code).pending = s.pending ∧
      (State.logEvent s typ unit index code).holes = s.holes := by
  simp [State.logEvent]

@[simp] theorem State.logEvent_mwf (s : State) (typ : Nat) (unit : Nat) (index : Nat) (code : Nat)
    (hw : twf memDefault s.mem = true) :
    twf memDefault (State.logEvent s typ unit index code).mem = true := by
  simp (maxDischargeDepth := 12) +contextual [State.logEvent, hw]

@[simp] theorem State.chestTake_keeps (s : State) (src : Nat) (time : Nat) :
    (State.chestTake s src time).pending = s.pending ∧ (State.chestTake s src time).mem = s.mem ∧
      (State.chestTake s src time).holes = s.holes := by
  simp [State.chestTake]

@[simp] theorem State.chestRecognise_keeps (s : State) (src : Nat) (time : Nat) :
    (State.chestRecognise s src time).pending = s.pending ∧ (State.chestRecognise s src time).mem = s.mem ∧
      (State.chestRecognise s src time).holes = s.holes := by
  simp only [State.chestRecognise]
  repeat' (first | (simp; done) | split)

@[simp] theorem State.chestTrigger_keeps (s : State) (src : Nat) (time : Nat) :
    (State.chestTrigger s src time).pending = s.pending ∧ (State.chestTrigger s src time).mem = s.mem ∧
      (State.chestTrigger s src time).holes = s.holes := by
  simp [State.chestTrigger]

@[simp] theorem State.chestEvent_keeps (s : State) (typ : Nat) (src : Nat) (any : Option Nat) :
    (State.chestEvent s typ src any).pending = s.pending ∧ (State.chestEvent s typ src any).mem = s.mem ∧
      (State.chestEvent s typ src any).holes = s.holes := by
  simp only [State.chestEvent]
  repeat' (first | (simp; done) | split)

@[simp] theorem State.dropGates_keeps (s : State) (n : Nat) :
    (State.dropGates s n).pending = s.pending ∧ (State.dropGates s n).mem = s.mem ∧
      (State.dropGates s n).holes = s.holes := by
  simp [State.dropGates]

@[simp] theorem State.applySettings_keeps (s : State) :
    (State.applySettings s).pending = s.pending ∧ (State.applySettings s).mem = s.mem ∧
      (State.applySettings s).holes = s.holes := by
  simp [State.applySettings]

@[simp] theorem State.setSt_keeps (s : State) (n : Nat) (st : StnState) :
    (State.setSt s n st).pending = s.pending ∧ (State.setSt s n st).mem = s.mem ∧
      (State.setSt s n st).holes = s.holes := by
  simp [State.setSt]

@[simp] theorem State.backFld_keeps (s : State) (f : Option Fld) (x : Nat) :
    (State.backFld s f x).pending = s.pending ∧ (State.backFld s f x).mem = s.mem ∧
      (State.backFld s f x).holes = s.holes := by
  simp only [State.backFld]
  repeat' (first | (simp; done) | split)

@[simp] theorem State.undoTurn_keeps (s : State) (n : Nat) :
    (State.undoTurn s n).pending = s.pending ∧ (State.undoTurn s n).mem = s.mem ∧
      (State.undoTurn s n).holes = s.holes := by
  simp only [State.undoTurn]
  repeat' (first | (simp; done) | split)

@[simp] theorem State.noteTurn_keeps (s : State) (n : Nat) (row : Nat) (st : StnState) :
    (State.noteTurn s n row st).pending = s.pending ∧ (State.noteTurn s n row st).mem = s.mem ∧
      (State.noteTurn s n row st).holes = s.holes := by
  simp [State.noteTurn]

@[simp] theorem State.lowboyFollow_keeps (s : State) (n : Nat) :
    (State.lowboyFollow s n).pending = s.pending ∧ (State.lowboyFollow s n).mem = s.mem ∧
      (State.lowboyFollow s n).holes = s.holes := by
  simp [State.lowboyFollow]

@[simp] theorem State.onCores_keeps (s : State) (n : Nat) (f : Core → Core) :
    (State.onCores s n f).pending = s.pending ∧ (State.onCores s n f).mem = s.mem ∧
      (State.onCores s n f).holes = s.holes := by
  simp [State.onCores]

@[simp] theorem State.calmLimits_keeps (s : State) (n : Nat) :
    (State.calmLimits s n).pending = s.pending ∧ (State.calmLimits s n).mem = s.mem ∧
      (State.calmLimits s n).holes = s.holes := by
  simp [State.calmLimits]

@[simp] theorem State.addCauses_keeps (s : State) (n : Nat) (codes : List Nat) :
    (State.addCauses s n codes).pending = s.pending ∧ (State.addCauses s n codes).mem = s.mem ∧
      (State.addCauses s n codes).holes = s.holes := by
  simp [State.addCauses]

@[simp] theorem State.enterTripped_keeps (s0 : State) (n : Nat) (within : Bool) :
    (State.enterTripped s0 n within).pending = s0.pending ∧ (State.enterTripped s0 n within).holes = s0.holes := by
  simp [State.enterTripped]

@[simp] theorem State.enterTripped_mwf (s0 : State) (n : Nat) (within : Bool) (hw : twf memDefault s0.mem = true) :
    twf memDefault (State.enterTripped s0 n within).mem = true := by
  simp (maxDischargeDepth := 12) +contextual [State.enterTripped, hw]

@[simp] theorem State.tripNow_keeps (s : State) (n : Nat) (code : Nat) :
    (State.tripNow s n code).pending = s.pending ∧ (State.tripNow s n code).holes = s.holes := by
  simp [State.tripNow]

@[simp] theorem State.tripNow_mwf (s : State) (n : Nat) (code : Nat) (hw : twf memDefault s.mem = true) :
    twf memDefault (State.tripNow s n code).mem = true := by
  simp (maxDischargeDepth := 12) +contextual [State.tripNow, hw]

@[simp] theorem State.tripSoon_keeps (s : State) (n : Nat) (code : Nat) :
    (State.tripSoon s n code).pending = s.pending ∧ (State.tripSoon s n code).holes = s.holes := by
  simp [State.tripSoon]

@[simp] theorem State.tripSoon_mwf (s : State) (n : Nat) (code : Nat) (hw : twf memDefault s.mem = true) :
    twf memDefault (State.tripSoon s n code).mem = true := by
  simp (maxDischargeDepth := 12) +contextual [State.tripSoon, hw]

@[simp] theorem State.testDue_keeps (s : State) (k : Nat) :
    (State.testDue s k).pending = s.pending ∧ (State.testDue s k).mem = s.mem ∧
      (State.testDue s k).holes = s.holes := by
  simp [State.testDue]

@[simp] theorem State.runDeferred_keeps (s : State) :
    (State.runDeferred s).pending = s.pending ∧ (State.runDeferred s).mem = s.mem ∧
      (State.runDeferred s).holes = s.holes := by
  simp [State.runDeferred]

@[simp] theorem State.soutsLow_keeps (s : State) (n : Nat) :
    (State.soutsLow s n).pending = s.pending ∧ (State.soutsLow s n).mem = s.mem ∧
      (State.soutsLow s n).holes = s.holes := by
  simp [State.soutsLow]

@[simp] theorem State.failRelease_keeps (s : State) (set : List Nat) :
    (State.failRelease s set).pending = s.pending ∧ (State.failRelease s set).mem = s.mem ∧
      (State.failRelease s set).holes = s.holes := by
  simp [State.failRelease]

@[simp] theorem State.holdStation_keeps (s0 : State) (n : Nat) (cause : Nat) :
    (State.holdStation s0 n cause).pending = s0.pending ∧ (State.holdStation s0 n cause).holes = s0.holes := by
  simp [State.holdStation]

@[simp] theorem State.holdStation_mwf (s0 : State) (n : Nat) (cause : Nat) (hw : twf memDefault s0.mem = true) :
    twf memDefault (State.holdStation s0 n cause).mem = true := by
  simp (maxDischargeDepth := 12) +contextual [State.holdStation, hw]

@[simp] theorem State.holdAll_keeps (s : State) (cause : Nat) :
    (State.holdAll s cause).pending = s.pending ∧ (State.holdAll s cause).holes = s.holes := by
  simp [State.holdAll]

@[simp] theorem State.holdAll_mwf (s : State) (cause : Nat) (hw : twf memDefault s.mem = true) :
    twf memDefault (State.holdAll s cause).mem = true := by
  simp (maxDischargeDepth := 12) +contextual [State.holdAll, hw]

end Sys2Proof.Machine
end

