-- ==== Sys2Proof/Laws/KeepsFwParams.lean ====
section
/-! SUPPORT. What the definitions of Machine/FwParams.lean leave of the queue and the memories. -/

namespace Sys2Proof.Machine

@[simp] theorem State.setFw_keeps (s : State) (p : Nat) (w : Word) :
    (State.setFw s p w).pending = s.pending ∧ (State.setFw s p w).mem = s.mem ∧
      (State.setFw s p w).holes = s.holes := by
  simp [State.setFw]

@[simp] theorem State.setClip_keeps (s : State) (p : Nat) (i : Nat) (b : Bool) :
    (State.setClip s p i b).pending = s.pending ∧ (State.setClip s p i b).mem = s.mem ∧
      (State.setClip s p i b).holes = s.holes := by
  simp [State.setClip]

@[simp] theorem State.cmpCodes_keeps (s : State) (n : Nat) (c : Nat) :
    (State.cmpCodes s n c).pending = s.pending ∧ (State.cmpCodes s n c).mem = s.mem ∧
      (State.cmpCodes s n c).holes = s.holes := by
  simp [State.cmpCodes]

@[simp] theorem State.sfCodes_keeps (s : State) (c : Nat) :
    (State.sfCodes s c).pending = s.pending ∧ (State.sfCodes s c).mem = s.mem ∧
      (State.sfCodes s c).holes = s.holes := by
  simp [State.sfCodes]

@[simp] theorem State.limitCodes_keeps (s : State) (n : Nat) :
    (State.limitCodes s n).pending = s.pending ∧ (State.limitCodes s n).mem = s.mem ∧
      (State.limitCodes s n).holes = s.holes := by
  simp [State.limitCodes]

end Sys2Proof.Machine
end

