-- ==== Sys2Proof/Laws/KeepsMbx.lean ====
section
/-! SUPPORT. What the definitions of Machine/Mbx.lean leave of the queue and the memories. -/

namespace Sys2Proof.Machine

set_option linter.unusedTactic false

@[simp] theorem State.send_keeps (s : State) (p : Peer) (bs : List Byte) :
    (State.send s p bs).pending = s.pending ∧ (State.send s p bs).mem = s.mem ∧
      (State.send s p bs).holes = s.holes := by
  simp [State.send]

@[simp] theorem State.freeSlot_keeps (s : State) (i : Nat) :
    (State.freeSlot s i).pending = s.pending ∧ (State.freeSlot s i).mem = s.mem ∧
      (State.freeSlot s i).holes = s.holes := by
  simp [State.freeSlot]

@[simp] theorem State.keep_keeps (s : State) (p : Peer) (seq : Nat) (crc : Nat) (reply : List Byte) :
    (State.keep s p seq crc reply).pending = s.pending ∧ (State.keep s p seq crc reply).mem = s.mem ∧
      (State.keep s p seq crc reply).holes = s.holes := by
  simp [State.keep]

@[simp] theorem State.reply_keeps (s : State) (i : Nat) (msg : List Byte) :
    (State.reply s i msg).pending = s.pending ∧ (State.reply s i msg).mem = s.mem := by
  simp only [State.reply]
  repeat' (first | (simp; done) | split)

@[simp] theorem State.reply_hwf (s : State) (i : Nat) (msg : List Byte) (hw : twf holeDefault s.holes = true) :
    twf holeDefault (State.reply s i msg).holes = true := by
  simp only [State.reply]
  repeat' (first | (simp (maxDischargeDepth := 12) +contextual [hw]; done) | split)

@[simp] theorem State.respond_keeps (s : State) (i : Nat) (flags : Nat) (payload : List Byte) :
    (State.respond s i flags payload).pending = s.pending ∧ (State.respond s i flags payload).mem = s.mem := by
  simp [State.respond]

@[simp] theorem State.respond_hwf (s : State) (i : Nat) (flags : Nat) (payload : List Byte)
    (hw : twf holeDefault s.holes = true) :
    twf holeDefault (State.respond s i flags payload).holes = true := by
  simp (maxDischargeDepth := 12) +contextual [State.respond, hw]

@[simp] theorem State.answer_keeps (s : State) (i : Nat) (payload : List Byte) :
    (State.answer s i payload).pending = s.pending ∧ (State.answer s i payload).mem = s.mem := by
  simp [State.answer]

@[simp] theorem State.answer_hwf (s : State) (i : Nat) (payload : List Byte) (hw : twf holeDefault s.holes = true) :
    twf holeDefault (State.answer s i payload).holes = true := by
  simp (maxDischargeDepth := 12) +contextual [State.answer, hw]

@[simp] theorem State.refuse_keeps (s : State) (i : Nat) (status : Nat) (detail : Nat) (arg : Nat) :
    (State.refuse s i status detail arg).pending = s.pending ∧ (State.refuse s i status detail arg).mem = s.mem := by
  simp [State.refuse]

@[simp] theorem State.refuse_hwf (s : State) (i : Nat) (status : Nat) (detail : Nat) (arg : Nat)
    (hw : twf holeDefault s.holes = true) :
    twf holeDefault (State.refuse s i status detail arg).holes = true := by
  simp (maxDischargeDepth := 12) +contextual [State.refuse, hw]

@[simp] theorem State.refuseArg_keeps (s : State) (i : Nat) (status : Nat) (arg : Nat) :
    (State.refuseArg s i status arg).pending = s.pending ∧ (State.refuseArg s i status arg).mem = s.mem := by
  simp [State.refuseArg]

@[simp] theorem State.refuseArg_hwf (s : State) (i : Nat) (status : Nat) (arg : Nat)
    (hw : twf holeDefault s.holes = true) :
    twf holeDefault (State.refuseArg s i status arg).holes = true := by
  simp (maxDischargeDepth := 12) +contextual [State.refuseArg, hw]

@[simp] theorem State.refuseOpen_keeps (s : State) (i : Nat) (status : Nat) :
    (State.refuseOpen s i status).pending = s.pending ∧ (State.refuseOpen s i status).mem = s.mem := by
  simp [State.refuseOpen]

@[simp] theorem State.refuseOpen_hwf (s : State) (i : Nat) (status : Nat) (hw : twf holeDefault s.holes = true) :
    twf holeDefault (State.refuseOpen s i status).holes = true := by
  simp (maxDischargeDepth := 12) +contextual [State.refuseOpen, hw]

@[simp] theorem State.refuseHeader_keeps (s : State) (i : Nat) (status : Nat) (detail : Nat) (arg : Nat) :
    (State.refuseHeader s i status detail arg).pending = s.pending ∧
      (State.refuseHeader s i status detail arg).mem = s.mem := by
  simp [State.refuseHeader]

@[simp] theorem State.refuseHeader_hwf (s : State) (i : Nat) (status : Nat) (detail : Nat) (arg : Nat)
    (hw : twf holeDefault s.holes = true) :
    twf holeDefault (State.refuseHeader s i status detail arg).holes = true := by
  simp (maxDischargeDepth := 12) +contextual [State.refuseHeader, hw]

@[simp] theorem State.noSlot_keeps (s : State) :
    (State.noSlot s).pending = s.pending ∧ (State.noSlot s).mem = s.mem ∧ (State.noSlot s).holes = s.holes := by
  simp [State.noSlot]

@[simp] theorem State.claim_keeps (s : State) :
    (State.claim s).pending = s.pending ∧ (State.claim s).mem = s.mem ∧ (State.claim s).holes = s.holes := by
  simp only [State.claim]
  repeat' (first | (simp; done) | split)

@[simp] theorem State.post_keeps (s : State) (i : Nat) (p : Peer) (got : Nat) :
    (State.post s i p got).pending = s.pending ∧ (State.post s i p got).mem = s.mem ∧
      (State.post s i p got).holes = s.holes := by
  simp [State.post]

@[simp] theorem State.doorbell_keeps (s : State) (i : Nat) :
    (State.doorbell s i).pending = s.pending ∧ (State.doorbell s i).mem = s.mem ∧
      (State.doorbell s i).holes = s.holes := by
  simp [State.doorbell]

@[simp] theorem State.freeHoles_keeps (s : State) (w : Word) :
    (State.freeHoles s w).pending = s.pending ∧ (State.freeHoles s w).mem = s.mem ∧
      (State.freeHoles s w).holes = s.holes := by
  simp [State.freeHoles]

@[simp] theorem State.onSession_keeps (s : State) (p : Peer) (f : Session → Session) :
    (State.onSession s p f).pending = s.pending ∧ (State.onSession s p f).mem = s.mem ∧
      (State.onSession s p f).holes = s.holes := by
  simp [State.onSession]

@[simp] theorem State.endSessions_keeps (s : State) (f : Peer → Bool) :
    (State.endSessions s f).pending = s.pending ∧ (State.endSessions s f).mem = s.mem ∧
      (State.endSessions s f).holes = s.holes := by
  simp [State.endSessions]

@[simp] theorem State.jobLimit_keeps (s : State) (i : Nat) :
    (State.jobLimit s i).pending = s.pending ∧ (State.jobLimit s i).mem = s.mem := by
  simp [State.jobLimit]

@[simp] theorem State.jobLimit_hwf (s : State) (i : Nat) (hw : twf holeDefault s.holes = true) :
    twf holeDefault (State.jobLimit s i).holes = true := by
  simp (maxDischargeDepth := 12) +contextual [State.jobLimit, hw]

@[simp] theorem State.startJob_keeps (s : State) (i : Nat) (k : JobKind) (units : List EzUnit) :
    (State.startJob s i k units).pending = s.pending ∧ (State.startJob s i k units).mem = s.mem := by
  simp only [State.startJob]
  repeat' (first | (simp; done) | split)

@[simp] theorem State.startJob_hwf (s : State) (i : Nat) (k : JobKind) (units : List EzUnit)
    (hw : twf holeDefault s.holes = true) :
    twf holeDefault (State.startJob s i k units).holes = true := by
  simp only [State.startJob]
  repeat' (first | (simp (maxDischargeDepth := 12) +contextual [hw]; done) | split)

@[simp] theorem State.endJob_keeps (s : State) (j : Nat) (st : Nat) (status : Nat) :
    (State.endJob s j st status).pending = s.pending ∧ (State.endJob s j st status).mem = s.mem ∧
      (State.endJob s j st status).holes = s.holes := by
  simp [State.endJob]

@[simp] theorem State.arrive_keeps (s : State) (p : Peer) (msg : List Byte) (got : Nat) :
    (State.arrive s p msg got).pending = s.pending ∧ (State.arrive s p msg got).mem = s.mem := by
  simp only [State.arrive]
  repeat' (first | (simp; done) | split)

@[simp] theorem State.arrive_hwf (s : State) (p : Peer) (msg : List Byte) (got : Nat)
    (hw : twf holeDefault s.holes = true) :
    twf holeDefault (State.arrive s p msg got).holes = true := by
  simp only [State.arrive]
  repeat' (first | (simp (maxDischargeDepth := 12) +contextual [hw]; done) | split)

@[simp] theorem State.netDrop_keeps (s : State) :
    (State.netDrop s).pending = s.pending ∧ (State.netDrop s).mem = s.mem ∧ (State.netDrop s).holes = s.holes := by
  simp [State.netDrop]

@[simp] theorem State.receive_keeps (s : State) (p : Peer) (msg : List Byte) (got : Nat) :
    (State.receive s p msg got).pending = s.pending ∧ (State.receive s p msg got).mem = s.mem := by
  simp only [State.receive]
  repeat' (first | (simp; done) | split)

@[simp] theorem State.receive_hwf (s : State) (p : Peer) (msg : List Byte) (got : Nat)
    (hw : twf holeDefault s.holes = true) :
    twf holeDefault (State.receive s p msg got).holes = true := by
  simp only [State.receive]
  repeat' (first | (simp (maxDischargeDepth := 12) +contextual [hw]; done) | split)

@[simp] theorem State.setCanRx_keeps (s : State) (k : Nat) (r : CanRx) :
    (State.setCanRx s k r).pending = s.pending ∧ (State.setCanRx s k r).mem = s.mem ∧
      (State.setCanRx s k r).holes = s.holes := by
  simp [State.setCanRx]

@[simp] theorem State.canDrop_keeps (s : State) (k : Nat) :
    (State.canDrop s k).pending = s.pending ∧ (State.canDrop s k).mem = s.mem ∧
      (State.canDrop s k).holes = s.holes := by
  simp [State.canDrop]

@[simp] theorem State.canSegment_keeps (s : State) (c : Nat) (p : Nat) (bs : List Byte) (last : Bool) (next : Nat) :
    (State.canSegment s c p bs last next).pending = s.pending ∧ (State.canSegment s c p bs last next).mem = s.mem := by
  simp [State.canSegment]

@[simp] theorem State.canSegment_hwf (s : State) (c : Nat) (p : Nat) (bs : List Byte) (last : Bool) (next : Nat)
    (hw : twf holeDefault s.holes = true) :
    twf holeDefault (State.canSegment s c p bs last next).holes = true := by
  simp (maxDischargeDepth := 12) +contextual [State.canSegment, hw]

@[simp] theorem State.i2cDrop_keeps (s : State) :
    (State.i2cDrop s).pending = s.pending ∧ (State.i2cDrop s).mem = s.mem ∧ (State.i2cDrop s).holes = s.holes := by
  simp only [State.i2cDrop]
  repeat' (first | (simp; done) | split)

@[simp] theorem State.dropMessages_keeps (s : State) :
    (State.dropMessages s).pending = s.pending ∧ (State.dropMessages s).mem = s.mem ∧
      (State.dropMessages s).holes = s.holes := by
  simp [State.dropMessages]

end Sys2Proof.Machine
end

