-- ==== Sys2Proof/Laws/KeepsLink.lean ====
section
/-! SUPPORT. What the definitions of Machine/Link.lean leave of the queue and the memories. -/

namespace Sys2Proof.Machine

set_option linter.unusedTactic false

@[simp] theorem State.setSlkState_keeps (s : State) (p : Nat) (st : Nat) :
    (State.setSlkState s p st).pending = s.pending ∧ (State.setSlkState s p st).mem = s.mem ∧
      (State.setSlkState s p st).holes = s.holes := by
  simp [State.setSlkState]

@[simp] theorem State.slkSend_keeps (s : State) (p : Nat) (typ : Nat) (tag : Nat) (payload : List Byte) :
    (State.slkSend s p typ tag payload).pending = s.pending ∧ (State.slkSend s p typ tag payload).mem = s.mem ∧
      (State.slkSend s p typ tag payload).holes = s.holes := by
  simp [State.slkSend]

@[simp] theorem State.slkSendTo_keeps (s : State) (pos : Nat) (typ : Nat) (tag : Nat) (payload : List Byte) :
    (State.slkSendTo s pos typ tag payload).pending = s.pending ∧ (State.slkSendTo s pos typ tag payload).mem = s.mem ∧
      (State.slkSendTo s pos typ tag payload).holes = s.holes := by
  simp only [State.slkSendTo]
  repeat' (first | (simp; done) | split)

@[simp] theorem State.xchkSample_keeps (s : State) (i : Nat) (own : Bool) (tick : Nat) (v : Int) :
    (State.xchkSample s i own tick v).pending = s.pending ∧ (State.xchkSample s i own tick v).mem = s.mem ∧
      (State.xchkSample s i own tick v).holes = s.holes := by
  simp only [State.xchkSample]
  repeat' (first | (simp; done) | split)

@[simp] theorem State.xchkLocal_keeps (s : State) (src : Nat) (v : Int) :
    (State.xchkLocal s src v).pending = s.pending ∧ (State.xchkLocal s src v).mem = s.mem ∧
      (State.xchkLocal s src v).holes = s.holes := by
  simp [State.xchkLocal]

end Sys2Proof.Machine
end

