-- ==== Sys2Proof/Laws/KeepsOperands.lean ====
section
/-! SUPPORT. What the definitions of Machine/Operands.lean leave of the queue and the memories. -/

namespace Sys2Proof.Machine

set_option linter.unusedTactic false

@[simp] theorem State.writeReg_keeps (s : State) (a : Nat) (wr : Word) (idle : Bool) (late : Bool)
    (refused : Option Fld) (lateFlag : Option Fld) :
    (State.writeReg s a wr idle late refused lateFlag).pending = s.pending ∧
      (State.writeReg s a wr idle late refused lateFlag).mem = s.mem ∧
      (State.writeReg s a wr idle late refused lateFlag).holes = s.holes := by
  simp only [State.writeReg]
  repeat' (first | (simp; done) | split)

@[simp] theorem State.transfer_keeps (s : State) (a : Nat) :
    (State.transfer s a).pending = s.pending ∧ (State.transfer s a).mem = s.mem ∧
      (State.transfer s a).holes = s.holes := by
  simp [State.transfer]

end Sys2Proof.Machine
end

