-- ==== Sys2Proof/Laws/KeepsVm.lean ====
section
/-! SUPPORT. What the definitions of Machine/Vm.lean leave of the queue and the memories. -/

namespace Sys2Proof.Machine

set_option linter.unusedTactic false

@[simp] theorem State.takeBudget_keeps (s : State) (n : Nat) (x : Rat) :
    (State.takeBudget s n x).pending = s.pending ∧ (State.takeBudget s n x).mem = s.mem ∧
      (State.takeBudget s n x).holes = s.holes := by
  simp [State.takeBudget]

@[simp] theorem State.blkEnvelope_keeps (s : State) (n : Nat) :
    (State.blkEnvelope s n).pending = s.pending ∧ (State.blkEnvelope s n).mem = s.mem ∧
      (State.blkEnvelope s n).holes = s.holes := by
  simp [State.blkEnvelope]

@[simp] theorem State.blkGovernor_keeps (s : State) (n : Nat) :
    (State.blkGovernor s n).pending = s.pending ∧ (State.blkGovernor s n).mem = s.mem ∧
      (State.blkGovernor s n).holes = s.holes := by
  simp [State.blkGovernor]

@[simp] theorem State.markEmf_keeps (s : State) (n : Nat) (clamped : Bool) :
    (State.markEmf s n clamped).pending = s.pending ∧ (State.markEmf s n clamped).mem = s.mem ∧
      (State.markEmf s n clamped).holes = s.holes := by
  simp [State.markEmf]

@[simp] theorem State.rampStep_keeps (s : State) (n : Nat) (target : Rat) (tRamp : Rat) :
    (State.rampStep s n target tRamp).pending = s.pending ∧ (State.rampStep s n target tRamp).mem = s.mem ∧
      (State.rampStep s n target tRamp).holes = s.holes := by
  simp [State.rampStep]

@[simp] theorem State.exciteStep_keeps (s : State) (n : Nat) :
    (State.exciteStep s n).pending = s.pending ∧ (State.exciteStep s n).mem = s.mem ∧
      (State.exciteStep s n).holes = s.holes := by
  simp [State.exciteStep]

@[simp] theorem State.matchStep_keeps (s : State) (n : Nat) :
    (State.matchStep s n).pending = s.pending ∧ (State.matchStep s n).mem = s.mem ∧
      (State.matchStep s n).holes = s.holes := by
  simp [State.matchStep]

@[simp] theorem State.blkExcitation_keeps (s : State) (n : Nat) :
    (State.blkExcitation s n).pending = s.pending ∧ (State.blkExcitation s n).mem = s.mem ∧
      (State.blkExcitation s n).holes = s.holes := by
  simp only [State.blkExcitation]
  repeat' (first | (simp; done) | split)

@[simp] theorem State.blkDamping_keeps (s : State) (n : Nat) :
    (State.blkDamping s n).pending = s.pending ∧ (State.blkDamping s n).mem = s.mem ∧
      (State.blkDamping s n).holes = s.holes := by
  simp [State.blkDamping]

@[simp] theorem State.blkPower_keeps (s : State) (n : Nat) :
    (State.blkPower s n).pending = s.pending ∧ (State.blkPower s n).mem = s.mem ∧
      (State.blkPower s n).holes = s.holes := by
  simp [State.blkPower]

@[simp] theorem State.blkSpeed_keeps (s : State) (n : Nat) :
    (State.blkSpeed s n).pending = s.pending ∧ (State.blkSpeed s n).mem = s.mem ∧
      (State.blkSpeed s n).holes = s.holes := by
  simp [State.blkSpeed]

@[simp] theorem State.blkAngle_keeps (s : State) (n : Nat) :
    (State.blkAngle s n).pending = s.pending ∧ (State.blkAngle s n).mem = s.mem ∧
      (State.blkAngle s n).holes = s.holes := by
  simp [State.blkAngle]

@[simp] theorem State.blkAbcDq_keeps (s : State) (n : Nat) (v : Abc) (i : Abc) (vdc : Rat) :
    (State.blkAbcDq s n v i vdc).pending = s.pending ∧ (State.blkAbcDq s n v i vdc).mem = s.mem ∧
      (State.blkAbcDq s n v i vdc).holes = s.holes := by
  simp [State.blkAbcDq]

@[simp] theorem State.blkCeiling_keeps (s : State) (n : Nat) :
    (State.blkCeiling s n).pending = s.pending ∧ (State.blkCeiling s n).mem = s.mem ∧
      (State.blkCeiling s n).holes = s.holes := by
  simp [State.blkCeiling]

@[simp] theorem State.countLimTime_keeps (s : State) (n : Nat) :
    (State.countLimTime s n).pending = s.pending ∧ (State.countLimTime s n).mem = s.mem ∧
      (State.countLimTime s n).holes = s.holes := by
  simp [State.countLimTime]

@[simp] theorem State.blkCurLimit_keeps (s0 : State) (n : Nat) :
    (State.blkCurLimit s0 n).pending = s0.pending ∧ (State.blkCurLimit s0 n).mem = s0.mem ∧
      (State.blkCurLimit s0 n).holes = s0.holes := by
  simp [State.blkCurLimit]

@[simp] theorem State.blkVirtImp_keeps (s : State) (n : Nat) :
    (State.blkVirtImp s n).pending = s.pending ∧ (State.blkVirtImp s n).mem = s.mem ∧
      (State.blkVirtImp s n).holes = s.holes := by
  simp [State.blkVirtImp]

@[simp] theorem State.blkHarmonic_keeps (s : State) (n : Nat) (ch : Nat) :
    (State.blkHarmonic s n ch).pending = s.pending ∧ (State.blkHarmonic s n ch).mem = s.mem ∧
      (State.blkHarmonic s n ch).holes = s.holes := by
  simp [State.blkHarmonic]

@[simp] theorem State.setLoc_keeps (s : State) (n : Nat) (k : Nat) (j : Nat) (x : Rat) :
    (State.setLoc s n k j x).pending = s.pending ∧ (State.setLoc s n k j x).mem = s.mem ∧
      (State.setLoc s n k j x).holes = s.holes := by
  simp [State.setLoc]

@[simp] theorem State.setLoc2_keeps (s : State) (n : Nat) (k : Nat) (j : Nat) (v : Vec2) :
    (State.setLoc2 s n k j v).pending = s.pending ∧ (State.setLoc2 s n k j v).mem = s.mem ∧
      (State.setLoc2 s n k j v).holes = s.holes := by
  simp [State.setLoc2]

@[simp] theorem State.runPiPair_keeps (s : State) (n : Nat) (k : Nat) (j : Nat) (e : Vec2) (ff : Vec2) (dt : Rat)
    (lo : Rat) (hi : Rat) (hold : Bool) :
    (State.runPiPair s n k j e ff dt lo hi hold).2.pending = s.pending ∧
      (State.runPiPair s n k j e ff dt lo hi hold).2.mem = s.mem ∧
      (State.runPiPair s n k j e ff dt lo hi hold).2.holes = s.holes := by
  simp [State.runPiPair]

@[simp] theorem State.markClamp_keeps (s : State) (n : Nat) (acts : Bool) :
    (State.markClamp s n acts).pending = s.pending ∧ (State.markClamp s n acts).mem = s.mem ∧
      (State.markClamp s n acts).holes = s.holes := by
  simp [State.markClamp]

@[simp] theorem State.refClamp_keeps (s : State) (n : Nat) :
    (State.refClamp s n).pending = s.pending ∧ (State.refClamp s n).mem = s.mem ∧
      (State.refClamp s n).holes = s.holes := by
  simp [State.refClamp]

@[simp] theorem State.blkVoltageLoop_keeps (s : State) (n : Nat) (k : Nat) (j : Nat) (dt : Rat) (lo : Rat) (hi : Rat) :
    (State.blkVoltageLoop s n k j dt lo hi).pending = s.pending ∧ (State.blkVoltageLoop s n k j dt lo hi).mem = s.mem ∧
      (State.blkVoltageLoop s n k j dt lo hi).holes = s.holes := by
  simp [State.blkVoltageLoop]

@[simp] theorem State.shadowPwm_keeps (s : State) (n : Nat) (a : Nat) (w : Word) :
    (State.shadowPwm s n a w).pending = s.pending ∧ (State.shadowPwm s n a w).mem = s.mem ∧
      (State.shadowPwm s n a w).holes = s.holes := by
  simp [State.shadowPwm]

@[simp] theorem State.armUpdate_keeps (s : State) (n : Nat) :
    (State.armUpdate s n).pending = s.pending ∧ (State.armUpdate s n).mem = s.mem ∧
      (State.armUpdate s n).holes = s.holes := by
  simp [State.armUpdate]

@[simp] theorem State.markOvermod_keeps (s : State) (n : Nat) (acts : Bool) :
    (State.markOvermod s n acts).pending = s.pending ∧ (State.markOvermod s n acts).mem = s.mem ∧
      (State.markOvermod s n acts).holes = s.holes := by
  simp [State.markOvermod]

@[simp] theorem State.writeCompares_keeps (s : State) (n : Nat) (l : List (Nat × Rat)) :
    (State.writeCompares s n l).pending = s.pending ∧ (State.writeCompares s n l).mem = s.mem ∧
      (State.writeCompares s n l).holes = s.holes := by
  simp [State.writeCompares]

@[simp] theorem State.blkModulate_keeps (s : State) (n : Nat) (v : Vec2) (hbs : List Nat) :
    (State.blkModulate s n v hbs).pending = s.pending ∧ (State.blkModulate s n v hbs).mem = s.mem ∧
      (State.blkModulate s n v hbs).holes = s.holes := by
  simp [State.blkModulate]

@[simp] theorem State.blkSyncAngle_keeps (s : State) (n : Nat) (vbus : Abc) :
    (State.blkSyncAngle s n vbus).pending = s.pending ∧ (State.blkSyncAngle s n vbus).mem = s.mem ∧
      (State.blkSyncAngle s n vbus).holes = s.holes := by
  simp [State.blkSyncAngle]

@[simp] theorem State.setVar_keeps (s : State) (n : Nat) (i : Nat) (x : Rat) :
    (State.setVar s n i x).pending = s.pending ∧ (State.setVar s n i x).mem = s.mem ∧
      (State.setVar s n i x).holes = s.holes := by
  simp [State.setVar]

@[simp] theorem State.putVar_keeps (s : State) (n : Nat) (k : Nat) (x : Rat) (x4 : Var) :
    (State.putVar s n k x x4).pending = s.pending ∧ (State.putVar s n k x x4).mem = s.mem ∧
      (State.putVar s n k x x4).holes = s.holes := by
  simp only [State.putVar]
  repeat' (first | (simp; done) | split)

@[simp] theorem State.put2_keeps (s : State) (n : Nat) (k : Nat) (x : Vec2) (v : Var2) :
    (State.put2 s n k x v).pending = s.pending ∧ (State.put2 s n k x v).mem = s.mem ∧
      (State.put2 s n k x v).holes = s.holes := by
  simp [State.put2]

@[simp] theorem State.put3_keeps (s : State) (n : Nat) (k : Nat) (x : Abc) (v : Var3) :
    (State.put3 s n k x v).pending = s.pending ∧ (State.put3 s n k x v).mem = s.mem ∧
      (State.put3 s n k x v).holes = s.holes := by
  simp [State.put3]

@[simp] theorem State.scaleInputs_keeps (s : State) (n : Nat) (k : Nat) (l : List InScale) :
    (State.scaleInputs s n k l).pending = s.pending ∧ (State.scaleInputs s n k l).mem = s.mem ∧
      (State.scaleInputs s n k l).holes = s.holes := by
  simp [State.scaleInputs]

@[simp] theorem State.runBlock_keeps (s : State) (n : Nat) (k : Nat) (dt : Rat) (j : Nat) (hold : Bool) (x6 : Block) :
    (State.runBlock s n k dt j hold x6).pending = s.pending ∧ (State.runBlock s n k dt j hold x6).mem = s.mem ∧
      (State.runBlock s n k dt j hold x6).holes = s.holes := by
  simp only [State.runBlock]
  repeat' (first | (simp; done) | split)

@[simp] theorem State.runBlocks_keeps (s : State) (n k : Nat) (dt : Rat) (held : List Var) (j : Nat) (l : List Block) :
    (s.runBlocks n k dt held j l).1.pending = s.pending ∧ (s.runBlocks n k dt held j l).1.mem = s.mem ∧
      (s.runBlocks n k dt held j l).1.holes = s.holes := by
  induction l generalizing s j with
  | nil => exact ⟨rfl, rfl, rfl⟩
  | cons b t ih =>
    rw [State.runBlocks]
    obtain ⟨h1, h2, h3⟩ := ih (if s.blockActs n b then s.runBlock n k dt j (heldBy held b) b else s) (j + blockLocals b)
    simp only [h1, h2, h3]
    split <;> simp


@[simp] theorem State.runLoop_keeps (s : State) (n k : Nat) (dt : Rat) (l : List Block) :
    (s.runLoop n k dt l).pending = s.pending ∧
    (s.runLoop n k dt l).mem = s.mem ∧ (s.runLoop n k dt l).holes = s.holes := by
  unfold State.runLoop
  dsimp only
  cases (s.runBlocks n k dt [] 0 l).2 <;> simp


end Sys2Proof.Machine
end

