-- ==== Sys2Proof/Laws/KeepsStation.lean ====
section
/-! SUPPORT. What the definitions of Machine/Station.lean leave of the queue and the memories. -/

namespace Sys2Proof.Machine

set_option linter.unusedTactic false

@[simp] theorem State.standDown_keeps (s : State) (n : Nat) :
    (State.standDown s n).pending = s.pending ∧ (State.standDown s n).mem = s.mem ∧
      (State.standDown s n).holes = s.holes := by
  simp [State.standDown]

@[simp] theorem State.enterReady_keeps (s : State) (n : Nat) :
    (State.enterReady s n).pending = s.pending ∧ (State.enterReady s n).mem = s.mem ∧
      (State.enterReady s n).holes = s.holes := by
  simp [State.enterReady]

@[simp] theorem State.refreshRated_keeps (s : State) (n : Nat) :
    (State.refreshRated s n).pending = s.pending ∧ (State.refreshRated s n).mem = s.mem ∧
      (State.refreshRated s n).holes = s.holes := by
  simp only [State.refreshRated]
  repeat' (first | (simp; done) | split)

@[simp] theorem State.hchCheck_keeps (s : State) (n : Nat) (c : Nat) :
    (State.hchCheck s n c).pending = s.pending ∧ (State.hchCheck s n c).mem = s.mem ∧
      (State.hchCheck s n c).holes = s.holes := by
  simp [State.hchCheck]

@[simp] theorem State.enterRunning_keeps (s : State) (n : Nat) :
    (State.enterRunning s n).pending = s.pending ∧ (State.enterRunning s n).mem = s.mem ∧
      (State.enterRunning s n).holes = s.holes := by
  simp [State.enterRunning]

@[simp] theorem State.commitEnvelope_keeps (s : State) (n : Nat) (seq : Word) (late : Bool) :
    (State.commitEnvelope s n seq late).pending = s.pending ∧ (State.commitEnvelope s n seq late).mem = s.mem ∧
      (State.commitEnvelope s n seq late).holes = s.holes := by
  simp [State.commitEnvelope]

@[simp] theorem State.envBoundary_keeps (s : State) (n : Nat) :
    (State.envBoundary s n).pending = s.pending ∧ (State.envBoundary s n).mem = s.mem ∧
      (State.envBoundary s n).holes = s.holes := by
  simp only [State.envBoundary]
  repeat' (first | (simp; done) | split)

@[simp] theorem State.failStart_keeps (s : State) (n : Nat) (reason : Nat) :
    (State.failStart s n reason).pending = s.pending ∧ (State.failStart s n reason).holes = s.holes := by
  simp [State.failStart]

@[simp] theorem State.failStart_mwf (s : State) (n : Nat) (reason : Nat) (hw : twf memDefault s.mem = true) :
    twf memDefault (State.failStart s n reason).mem = true := by
  simp (maxDischargeDepth := 12) +contextual [State.failStart, hw]

@[simp] theorem State.acceptRun_keeps (s : State) (n : Nat) :
    (State.acceptRun s n).pending = s.pending ∧ (State.acceptRun s n).mem = s.mem ∧
      (State.acceptRun s n).holes = s.holes := by
  simp [State.acceptRun]

@[simp] theorem State.judgeRun_keeps (s : State) (n : Nat) :
    (State.judgeRun s n).pending = s.pending ∧ (State.judgeRun s n).mem = s.mem ∧
      (State.judgeRun s n).holes = s.holes := by
  simp [State.judgeRun]

@[simp] theorem State.enterStopping_keeps (s : State) (n : Nat) :
    (State.enterStopping s n).pending = s.pending ∧ (State.enterStopping s n).mem = s.mem ∧
      (State.enterStopping s n).holes = s.holes := by
  simp [State.enterStopping]

@[simp] theorem State.serveStop_keeps (s0 : State) (n : Nat) :
    (State.serveStop s0 n).pending = s0.pending ∧ (State.serveStop s0 n).mem = s0.mem ∧
      (State.serveStop s0 n).holes = s0.holes := by
  simp only [State.serveStop]
  repeat' (first | (simp; done) | split)

@[simp] theorem State.completeStop_keeps (s : State) (n : Nat) :
    (State.completeStop s n).pending = s.pending ∧ (State.completeStop s n).mem = s.mem ∧
      (State.completeStop s n).holes = s.holes := by
  simp [State.completeStop]

@[simp] theorem State.serveRows_keeps (s : State) (n : Nat) :
    (State.serveRows s n).pending = s.pending ∧ (State.serveRows s n).holes = s.holes := by
  simp only [State.serveRows]
  repeat' (first | (simp; done) | split)

@[simp] theorem State.serveRows_mwf (s : State) (n : Nat) (hw : twf memDefault s.mem = true) :
    twf memDefault (State.serveRows s n).mem = true := by
  simp only [State.serveRows]
  repeat' (first | (simp (maxDischargeDepth := 12) +contextual [hw]; done) | split)

@[simp] theorem State.settleStopped_keeps (s : State) (n : Nat) :
    (State.settleStopped s n).pending = s.pending ∧ (State.settleStopped s n).holes = s.holes := by
  simp [State.settleStopped]

@[simp] theorem State.settleStopped_mwf (s : State) (n : Nat) (hw : twf memDefault s.mem = true) :
    twf memDefault (State.settleStopped s n).mem = true := by
  simp (maxDischargeDepth := 12) +contextual [State.settleStopped, hw]

@[simp] theorem State.resetRequest_keeps (s : State) (n : Nat) :
    (State.resetRequest s n).pending = s.pending ∧ (State.resetRequest s n).mem = s.mem ∧
      (State.resetRequest s n).holes = s.holes := by
  simp [State.resetRequest]

@[simp] theorem State.writeCtrl_keeps (s : State) (n : Nat) (w : Word) :
    (State.writeCtrl s n w).pending = s.pending ∧ (State.writeCtrl s n w).holes = s.holes := by
  simp [State.writeCtrl]

@[simp] theorem State.writeCtrl_mwf (s : State) (n : Nat) (w : Word) (hw : twf memDefault s.mem = true) :
    twf memDefault (State.writeCtrl s n w).mem = true := by
  simp (maxDischargeDepth := 12) +contextual [State.writeCtrl, hw]

@[simp] theorem State.writePar_keeps (s : State) (n : Nat) (i : Nat) (w : Word) (late : Bool) :
    (State.writePar s n i w late).pending = s.pending ∧ (State.writePar s n i w late).mem = s.mem ∧
      (State.writePar s n i w late).holes = s.holes := by
  simp only [State.writePar]
  repeat' (first | (simp; done) | split)

@[simp] theorem State.transferGfm_keeps (s : State) (n : Nat) :
    (State.transferGfm s n).pending = s.pending ∧ (State.transferGfm s n).mem = s.mem ∧
      (State.transferGfm s n).holes = s.holes := by
  simp [State.transferGfm]

@[simp] theorem State.stationBoundary_keeps (s0 : State) (n : Nat) :
    (State.stationBoundary s0 n).pending = s0.pending ∧ (State.stationBoundary s0 n).holes = s0.holes := by
  simp [State.stationBoundary]

@[simp] theorem State.stationBoundary_mwf (s0 : State) (n : Nat) (hw : twf memDefault s0.mem = true) :
    twf memDefault (State.stationBoundary s0 n).mem = true := by
  simp (maxDischargeDepth := 12) +contextual [State.stationBoundary, hw]

@[simp] theorem State.periodTimes_keeps (s : State) (n : Nat) :
    (State.periodTimes s n).pending = s.pending ∧ (State.periodTimes s n).mem = s.mem ∧
      (State.periodTimes s n).holes = s.holes := by
  simp [State.periodTimes]

end Sys2Proof.Machine
end

