-- ==== Sys2Proof/Laws/KeepsPulse.lean ====
section
/-! SUPPORT. What the definitions of Machine/Pulse.lean leave of the queue and the memories. -/

namespace Sys2Proof.Machine

set_option linter.unusedTactic false

@[simp] theorem State.latchHb_keeps (s : State) (n : Nat) (k : Nat) (cause : Nat) :
    (State.latchHb s n k cause).pending = s.pending ∧ (State.latchHb s n k cause).holes = s.holes := by
  simp [State.latchHb]

@[simp] theorem State.latchHb_mwf (s : State) (n : Nat) (k : Nat) (cause : Nat) (hw : twf memDefault s.mem = true) :
    twf memDefault (State.latchHb s n k cause).mem = true := by
  simp (maxDischargeDepth := 12) +contextual [State.latchHb, hw]

@[simp] theorem State.raiseGates_keeps (s : State) (n : Nat) :
    (State.raiseGates s n).pending = s.pending ∧ (State.raiseGates s n).holes = s.holes := by
  simp [State.raiseGates]

@[simp] theorem State.raiseGates_mwf (s : State) (n : Nat) (hw : twf memDefault s.mem = true) :
    twf memDefault (State.raiseGates s n).mem = true := by
  simp (maxDischargeDepth := 12) +contextual [State.raiseGates, hw]

@[simp] theorem State.updGates_keeps (s : State) (n : Nat) :
    (State.updGates s n).pending = s.pending ∧ (State.updGates s n).holes = s.holes := by
  simp [State.updGates]

@[simp] theorem State.updGates_mwf (s : State) (n : Nat) (hw : twf memDefault s.mem = true) :
    twf memDefault (State.updGates s n).mem = true := by
  simp (maxDischargeDepth := 12) +contextual [State.updGates, hw]

@[simp] theorem State.forceHb_keeps (s : State) (n : Nat) (k : Nat) (lv : Bool) :
    (State.forceHb s n k lv).pending = s.pending ∧ (State.forceHb s n k lv).mem = s.mem ∧
      (State.forceHb s n k lv).holes = s.holes := by
  simp [State.forceHb]

@[simp] theorem State.limitWindow_keeps (s : State) (n : Nat) (c : Nat) :
    (State.limitWindow s n c).pending = s.pending ∧ (State.limitWindow s n c).mem = s.mem ∧
      (State.limitWindow s n c).holes = s.holes := by
  simp only [State.limitWindow]
  repeat' (first | (simp; done) | split)

theorem unforce_keeps (n k : Nat) (t : State) :
    let u := match (t.hbOf n k).force with
      | some lv => t.onHb n k (fun h => { h with force := none, raw := lv, pend := [] })
      | none => t
    u.pending = t.pending ∧ u.mem = t.mem ∧ u.holes = t.holes := by
  dsimp only
  split <;> simp

@[simp] theorem State.carrierEnd_keeps (s : State) (n : Nat) : (s.carrierEnd n).pending = s.pending ∧
    (s.carrierEnd n).mem = s.mem ∧ (s.carrierEnd n).holes = s.holes := by
  unfold State.carrierEnd
  refine ⟨?_, ?_, ?_⟩
  · simp only [State.setFld_keeps, State.onPwm_keeps]
    exact State.forAll_pending _ (fun k t => (unforce_keeps n k t).1) 12 s
  · simp only [State.setFld_keeps, State.onPwm_keeps]
    exact State.forAll_mem _ (fun k t => (unforce_keeps n k t).2.1) 12 s
  · simp only [State.setFld_keeps, State.onPwm_keeps]
    exact State.forAll_holes _ (fun k t => (unforce_keeps n k t).2.2) 12 s


@[simp] theorem State.transferAll_keeps (s : State) (l : List Nat) :
    (State.transferAll s l).pending = s.pending ∧ (State.transferAll s l).mem = s.mem ∧
      (State.transferAll s l).holes = s.holes := by
  simp [State.transferAll]

@[simp] theorem State.pwmTransfer_keeps (s : State) (n : Nat) (cs : Bool) (passed : Bool) :
    (State.pwmTransfer s n cs passed).pending = s.pending ∧ (State.pwmTransfer s n cs passed).mem = s.mem ∧
      (State.pwmTransfer s n cs passed).holes = s.holes := by
  simp [State.pwmTransfer]

end Sys2Proof.Machine
end

