-- ==== Sys2Proof/Laws/KeepsTrestle.lean ====
section
/-! SUPPORT. What the definitions of Machine/Trestle.lean leave of the queue and the memories. -/

namespace Sys2Proof.Machine

set_option linter.unusedTactic false

@[simp] theorem State.asStandby_keeps (s : State) (n : Nat) :
    (State.asStandby s n).pending = s.pending ∧ (State.asStandby s n).mem = s.mem ∧
      (State.asStandby s n).holes = s.holes := by
  simp [State.asStandby]

@[simp] theorem State.keepStandby_keeps (s : State) (t : State) (n : Nat) :
    (State.keepStandby s t n).pending = s.pending ∧ (State.keepStandby s t n).mem = s.mem ∧
      (State.keepStandby s t n).holes = s.holes := by
  simp [State.keepStandby]

@[simp] theorem State.putBothVar_keeps (s : State) (n : Nat) (k : Nat) (x : Rat) (v : Var) :
    (State.putBothVar s n k x v).pending = s.pending ∧ (State.putBothVar s n k x v).mem = s.mem ∧
      (State.putBothVar s n k x v).holes = s.holes := by
  simp [State.putBothVar]

@[simp] theorem State.onBanks_keeps (s : State) (e : Nat) (f : Banks → Banks) :
    (State.onBanks s e f).pending = s.pending ∧ (State.onBanks s e f).mem = s.mem ∧
      (State.onBanks s e f).holes = s.holes := by
  simp [State.onBanks]

theorem fillWords_keeps (e w : Nat) (ws : List Word) (t : State) :
    (ws.foldl (fun (a : State × Nat) x => (a.1.setDmem e a.2 x, a.2 + 1)) (t, w)).1.pending = t.pending ∧
    (ws.foldl (fun (a : State × Nat) x => (a.1.setDmem e a.2 x, a.2 + 1)) (t, w)).1.mem = t.mem ∧
    (ws.foldl (fun (a : State × Nat) x => (a.1.setDmem e a.2 x, a.2 + 1)) (t, w)).1.holes = t.holes := by
  induction ws generalizing t w with
  | nil => exact ⟨rfl, rfl, rfl⟩
  | cons x l ih => simpa using ih (w + 1) (t.setDmem e w x)

@[simp] theorem State.fillDmem_keeps (s : State) (w : Nat) (ws : List Word) : (s.fillDmem w ws).pending = s.pending ∧
    (s.fillDmem w ws).mem = s.mem ∧ (s.fillDmem w ws).holes = s.holes :=
  ⟨foldl_pending _ (fun t e => (fillWords_keeps e w ws t).1) _ _, foldl_mem _ (fun t e => (fillWords_keeps e w ws t).2.1) _ _,
    foldl_holes _ (fun t e => (fillWords_keeps e w ws t).2.2) _ _⟩


@[simp] theorem State.loadConsts_keeps (s : State) :
    (State.loadConsts s).pending = s.pending ∧ (State.loadConsts s).mem = s.mem ∧
      (State.loadConsts s).holes = s.holes := by
  simp only [State.loadConsts]
  repeat' (first | (simp; done) | split)

@[simp] theorem State.sendSetPoints_keeps (s : State) (n : Nat) (k : Nat) (d : LoopDesc) :
    (State.sendSetPoints s n k d).pending = s.pending ∧ (State.sendSetPoints s n k d).mem = s.mem ∧
      (State.sendSetPoints s n k d).holes = s.holes := by
  simp only [State.sendSetPoints]
  repeat' (first | (simp; done) | split)

@[simp] theorem State.loadLoopRegs_keeps (s : State) (k : Nat) (d : LoopDesc) :
    (State.loadLoopRegs s k d).pending = s.pending ∧ (State.loadLoopRegs s k d).mem = s.mem ∧
      (State.loadLoopRegs s k d).holes = s.holes := by
  simp [State.loadLoopRegs]

@[simp] theorem State.clearLoopRegs_keeps (s : State) (k : Nat) :
    (State.clearLoopRegs s k).pending = s.pending ∧ (State.clearLoopRegs s k).mem = s.mem ∧
      (State.clearLoopRegs s k).holes = s.holes := by
  simp [State.clearLoopRegs]

@[simp] theorem State.flagEngines_keeps (s : State) (f : Nat → Fld) :
    (State.flagEngines s f).pending = s.pending ∧ (State.flagEngines s f).mem = s.mem ∧
      (State.flagEngines s f).holes = s.holes := by
  simp [State.flagEngines]

@[simp] theorem State.takeLoop_keeps (s : State) (n : Nat) (k : Nat) (old : Option LoopDesc) (d : LoopDesc) :
    (State.takeLoop s n k old d).pending = s.pending ∧ (State.takeLoop s n k old d).mem = s.mem ∧
      (State.takeLoop s n k old d).holes = s.holes := by
  simp [State.takeLoop]

@[simp] theorem State.finishSwap_keeps (s : State) :
    (State.finishSwap s).pending = s.pending ∧ (State.finishSwap s).mem = s.mem ∧
      (State.finishSwap s).holes = s.holes := by
  simp [State.finishSwap]

theorem switchLoop_keeps (n : Nat) (old new : Option Image) (k : Nat) (t : State) :
    let u := match loopOf new n k with
      | some d => t.takeLoop n k (loopOf old n k) d
      | none => if t.fld (TRS_LOOP_CFG_STATION k) = n then t.clearLoopRegs k else t
    u.pending = t.pending ∧ u.mem = t.mem ∧ u.holes = t.holes := by
  dsimp only
  split
  · simp
  · split <;> simp

@[simp] theorem State.switchBank_keeps (s : State) (n : Nat) : (s.switchBank n).pending = s.pending ∧
    (s.switchBank n).mem = s.mem ∧ (s.switchBank n).holes = s.holes := by
  unfold State.switchBank
  split
  · refine ⟨?_, ?_, ?_⟩
    · simp only [State.finishSwap_keeps, State.onStn_keeps, State.forEach_eq]
      exact (foldl_pending _ (fun t k => (switchLoop_keeps n _ _ k t).1) _ _).trans (by simp)
    · simp only [State.finishSwap_keeps, State.onStn_keeps, State.forEach_eq]
      exact (foldl_mem _ (fun t k => (switchLoop_keeps n _ _ k t).2.1) _ _).trans (by simp)
    · simp only [State.finishSwap_keeps, State.onStn_keeps, State.forEach_eq]
      exact (foldl_holes _ (fun t k => (switchLoop_keeps n _ _ k t).2.2) _ _).trans (by simp)
  · exact ⟨rfl, rfl, rfl⟩


@[simp] theorem State.transferCfg_keeps (s : State) (k : Nat) :
    (State.transferCfg s k).pending = s.pending ∧ (State.transferCfg s k).mem = s.mem ∧
      (State.transferCfg s k).holes = s.holes := by
  simp [State.transferCfg]

@[simp] theorem State.transferLoops_keeps (s : State) (n : Nat) :
    (State.transferLoops s n).pending = s.pending ∧ (State.transferLoops s n).mem = s.mem ∧
      (State.transferLoops s n).holes = s.holes := by
  simp [State.transferLoops]

@[simp] theorem State.leaveService_keeps (s : State) (n : Nat) :
    (State.leaveService s n).pending = s.pending ∧ (State.leaveService s n).mem = s.mem ∧
      (State.leaveService s n).holes = s.holes := by
  simp [State.leaveService]

@[simp] theorem State.switchIdle_keeps (s : State) (n : Nat) :
    (State.switchIdle s n).pending = s.pending ∧ (State.switchIdle s n).mem = s.mem ∧
      (State.switchIdle s n).holes = s.holes := by
  simp [State.switchIdle]

@[simp] theorem State.requestSwap_keeps (s : State) (e : Nat) :
    (State.requestSwap s e).pending = s.pending ∧ (State.requestSwap s e).mem = s.mem ∧
      (State.requestSwap s e).holes = s.holes := by
  simp only [State.requestSwap]
  repeat' (first | (simp; done) | split)

@[simp] theorem State.noteReady_keeps (s : State) (n : Nat) :
    (State.noteReady s n).pending = s.pending ∧ (State.noteReady s n).mem = s.mem ∧
      (State.noteReady s n).holes = s.holes := by
  simp [State.noteReady]

@[simp] theorem State.watchSample_keeps (s : State) (n : Nat) (i : Nat) (w : Word) :
    (State.watchSample s n i w).pending = s.pending ∧ (State.watchSample s n i w).mem = s.mem ∧
      (State.watchSample s n i w).holes = s.holes := by
  simp [State.watchSample]

@[simp] theorem State.deliver_keeps (s : State) (n : Nat) (i : Nat) (w : Word) :
    (State.deliver s n i w).pending = s.pending ∧ (State.deliver s n i w).mem = s.mem ∧
      (State.deliver s n i w).holes = s.holes := by
  simp [State.deliver]

@[simp] theorem State.deliverAll_keeps (s : State) (srcType : Nat) (srcIndex : Nat) (w : Word) :
    (State.deliverAll s srcType srcIndex w).pending = s.pending ∧ (State.deliverAll s srcType srcIndex w).mem = s.mem ∧
      (State.deliverAll s srcType srcIndex w).holes = s.holes := by
  simp [State.deliverAll]

@[simp] theorem State.internalInputs_keeps (s : State) (n : Nat) :
    (State.internalInputs s n).pending = s.pending ∧ (State.internalInputs s n).mem = s.mem ∧
      (State.internalInputs s n).holes = s.holes := by
  simp [State.internalInputs]

@[simp] theorem State.enterOpenLoop_keeps (s : State) (n : Nat) :
    (State.enterOpenLoop s n).pending = s.pending ∧ (State.enterOpenLoop s n).holes = s.holes := by
  simp [State.enterOpenLoop]

@[simp] theorem State.enterOpenLoop_mwf (s : State) (n : Nat) (hw : twf memDefault s.mem = true) :
    twf memDefault (State.enterOpenLoop s n).mem = true := by
  simp (maxDischargeDepth := 12) +contextual [State.enterOpenLoop, hw]

@[simp] theorem State.lossReaction_keeps (s : State) (n : Nat) (cls : Nat) :
    (State.lossReaction s n cls).pending = s.pending ∧ (State.lossReaction s n cls).holes = s.holes := by
  simp only [State.lossReaction]
  repeat' (first | (simp; done) | split)

@[simp] theorem State.lossReaction_mwf (s : State) (n : Nat) (cls : Nat) (hw : twf memDefault s.mem = true) :
    twf memDefault (State.lossReaction s n cls).mem = true := by
  simp only [State.lossReaction]
  repeat' (first | (simp (maxDischargeDepth := 12) +contextual [hw]; done) | split)

@[simp] theorem State.loseInput_keeps (s : State) (n : Nat) (i : Nat) :
    (State.loseInput s n i).pending = s.pending ∧ (State.loseInput s n i).holes = s.holes := by
  simp [State.loseInput]

@[simp] theorem State.loseInput_mwf (s : State) (n : Nat) (i : Nat) (hw : twf memDefault s.mem = true) :
    twf memDefault (State.loseInput s n i).mem = true := by
  simp (maxDischargeDepth := 12) +contextual [State.loseInput, hw]

@[simp] theorem State.loseSource_keeps (s : State) (srcType : Nat) (srcIndex : Nat) :
    (State.loseSource s srcType srcIndex).pending = s.pending ∧
      (State.loseSource s srcType srcIndex).holes = s.holes := by
  simp [State.loseSource]

@[simp] theorem State.loseSource_mwf (s : State) (srcType : Nat) (srcIndex : Nat) (hw : twf memDefault s.mem = true) :
    twf memDefault (State.loseSource s srcType srcIndex).mem = true := by
  simp (maxDischargeDepth := 12) +contextual [State.loseSource, hw]

@[simp] theorem State.staleInputs_keeps (s : State) (n : Nat) : (s.staleInputs n).pending = s.pending ∧
    (s.staleInputs n).holes = s.holes := by
  unfold State.staleInputs
  exact ⟨foldl_pending _ (fun t i => by split <;> simp) _ _, foldl_holes _ (fun t i => by split <;> simp) _ _⟩

@[simp] theorem State.staleInputs_mwf (s : State) (n : Nat) (hw : twf memDefault s.mem = true) :
    twf memDefault (s.staleInputs n).mem = true := by
  unfold State.staleInputs
  exact foldl_mwf _ (fun t i h => by split <;> simp [h]) _ _ hw


@[simp] theorem State.clearLoss_keeps (s : State) (n : Nat) (i : Nat) :
    (State.clearLoss s n i).pending = s.pending ∧ (State.clearLoss s n i).mem = s.mem ∧
      (State.clearLoss s n i).holes = s.holes := by
  simp [State.clearLoss]

@[simp] theorem State.restoreInput_keeps (s : State) (n : Nat) (i : Nat) :
    (State.restoreInput s n i).pending = s.pending ∧ (State.restoreInput s n i).holes = s.holes := by
  simp [State.restoreInput]

@[simp] theorem State.restoreInput_mwf (s : State) (n : Nat) (i : Nat) (hw : twf memDefault s.mem = true) :
    twf memDefault (State.restoreInput s n i).mem = true := by
  simp (maxDischargeDepth := 12) +contextual [State.restoreInput, hw]

@[simp] theorem State.startChecks_keeps (s : State) (n : Nat) :
    (State.startChecks s n).pending = s.pending ∧ (State.startChecks s n).holes = s.holes := by
  simp only [State.startChecks]
  repeat' (first | (simp; done) | split)

@[simp] theorem State.startChecks_mwf (s : State) (n : Nat) (hw : twf memDefault s.mem = true) :
    twf memDefault (State.startChecks s n).mem = true := by
  simp only [State.startChecks]
  repeat' (first | (simp (maxDischargeDepth := 12) +contextual [hw]; done) | split)

@[simp] theorem State.watchVoltage_keeps (s : State) (n : Nat) :
    (State.watchVoltage s n).pending = s.pending ∧ (State.watchVoltage s n).mem = s.mem ∧
      (State.watchVoltage s n).holes = s.holes := by
  simp [State.watchVoltage]

@[simp] theorem State.enterRide_keeps (s0 : State) (n : Nat) :
    (State.enterRide s0 n).pending = s0.pending ∧ (State.enterRide s0 n).mem = s0.mem ∧
      (State.enterRide s0 n).holes = s0.holes := by
  simp [State.enterRide]

@[simp] theorem State.enterLimiting_keeps (s : State) (n : Nat) (row : Nat) :
    (State.enterLimiting s n row).pending = s.pending ∧ (State.enterLimiting s n row).mem = s.mem ∧
      (State.enterLimiting s n row).holes = s.holes := by
  simp [State.enterLimiting]

@[simp] theorem State.voltageChecks_keeps (s0 : State) (n : Nat) :
    (State.voltageChecks s0 n).pending = s0.pending ∧ (State.voltageChecks s0 n).mem = s0.mem ∧
      (State.voltageChecks s0 n).holes = s0.holes := by
  simp [State.voltageChecks]

@[simp] theorem State.limitChecks_keeps (s0 : State) (n : Nat) :
    (State.limitChecks s0 n).pending = s0.pending ∧ (State.limitChecks s0 n).mem = s0.mem ∧
      (State.limitChecks s0 n).holes = s0.holes := by
  simp [State.limitChecks]

@[simp] theorem State.finishWork_keeps (s : State) (n : Nat) :
    (State.finishWork s n).pending = s.pending ∧ (State.finishWork s n).mem = s.mem ∧
      (State.finishWork s n).holes = s.holes := by
  simp [State.finishWork]

@[simp] theorem State.startWork_keeps (s : State) (n : Nat) :
    (State.startWork s n).pending = s.pending ∧ (State.startWork s n).holes = s.holes := by
  simp [State.startWork]

@[simp] theorem State.startWork_mwf (s : State) (n : Nat) (hw : twf memDefault s.mem = true) :
    twf memDefault (State.startWork s n).mem = true := by
  simp (maxDischargeDepth := 12) +contextual [State.startWork, hw]

@[simp] theorem State.runBoth_keeps (s t : State) (n k : Nat) (dt : Rat) (d : LoopDesc) :
    (s.runBoth t n k dt d).pending = t.pending ∧ (s.runBoth t n k dt d).mem = t.mem ∧
      (s.runBoth t n k dt d).holes = t.holes := by
  unfold State.runBoth
  split <;> simp


@[simp] theorem State.noteFinish_keeps (s : State) (e n cycles : Nat) :
    (State.noteFinish s e n cycles).pending = s.pending ∧ (State.noteFinish s e n cycles).mem = s.mem ∧
      (State.noteFinish s e n cycles).holes = s.holes := by
  unfold State.noteFinish
  split <;> simp

@[simp] theorem State.completeLoop_keeps (s : State) (n k cycles standby : Nat) :
    (State.completeLoop s n k cycles standby).pending = s.pending ∧ (State.completeLoop s n k cycles standby).mem = s.mem ∧
      (State.completeLoop s n k cycles standby).holes = s.holes := by
  simp only [State.completeLoop]
  repeat' (first | (simp; done) | split)

@[simp] theorem State.deadline_keeps (s : State) (n : Nat) :
    (State.deadline s n).pending = s.pending ∧ (State.deadline s n).holes = s.holes := by
  simp [State.deadline]

@[simp] theorem State.deadline_mwf (s : State) (n : Nat) (hw : twf memDefault s.mem = true) :
    twf memDefault (State.deadline s n).mem = true := by
  simp (maxDischargeDepth := 12) +contextual [State.deadline, hw]

end Sys2Proof.Machine
end

