-- ==== Sys2Proof/Laws/KeepsConversion.lean ====
section
/-! SUPPORT. What the definitions of Machine/Conversion.lean leave of the queue and the memories. -/

namespace Sys2Proof.Machine

set_option linter.unusedTactic false

@[simp] theorem State.startSafeStop_keeps (s : State) (n : Nat) :
    (State.startSafeStop s n).pending = s.pending ∧ (State.startSafeStop s n).holes = s.holes := by
  simp only [State.startSafeStop]
  repeat' (first | (simp; done) | split)

@[simp] theorem State.startSafeStop_mwf (s : State) (n : Nat) (hw : twf memDefault s.mem = true) :
    twf memDefault (State.startSafeStop s n).mem = true := by
  simp only [State.startSafeStop]
  repeat' (first | (simp (maxDischargeDepth := 12) +contextual [hw]; done) | split)

@[simp] theorem State.pairFailed_keeps (s : State) (p : Nat) :
    (State.pairFailed s p).pending = s.pending ∧ (State.pairFailed s p).holes = s.holes := by
  simp [State.pairFailed]

@[simp] theorem State.pairFailed_mwf (s : State) (p : Nat) (hw : twf memDefault s.mem = true) :
    twf memDefault (State.pairFailed s p).mem = true := by
  simp (maxDischargeDepth := 12) +contextual [State.pairFailed, hw]

@[simp] theorem State.adcTransfer_keeps (s : State) (k : Nat) :
    (State.adcTransfer s k).pending = s.pending ∧ (State.adcTransfer s k).mem = s.mem ∧
      (State.adcTransfer s k).holes = s.holes := by
  simp [State.adcTransfer]

@[simp] theorem State.seqStart_keeps (s : State) (k : Nat) :
    (State.seqStart s k).pending = s.pending ∧ (State.seqStart s k).mem = s.mem ∧
      (State.seqStart s k).holes = s.holes := by
  simp [State.seqStart]

@[simp] theorem State.urgDrop_keeps (s : State) (k : Nat) :
    (State.urgDrop s k).pending = s.pending ∧ (State.urgDrop s k).mem = s.mem ∧
      (State.urgDrop s k).holes = s.holes := by
  simp [State.urgDrop]

@[simp] theorem State.seqGo_keeps (s : State) (k : Nat) :
    (State.seqGo s k).pending = s.pending ∧ (State.seqGo s k).mem = s.mem ∧ (State.seqGo s k).holes = s.holes := by
  simp [State.seqGo]

@[simp] theorem State.adcResult_keeps (s : State) (k : Nat) (e : Nat) (r : Int × Bool) :
    (State.adcResult s k e r).pending = s.pending ∧ (State.adcResult s k e r).mem = s.mem ∧
      (State.adcResult s k e r).holes = s.holes := by
  simp [State.adcResult]

@[simp] theorem State.plsDisagree_keeps (s : State) (p : Nat) (flag : Fld) :
    (State.plsDisagree s p flag).pending = s.pending ∧ (State.plsDisagree s p flag).holes = s.holes := by
  simp [State.plsDisagree]

@[simp] theorem State.plsDisagree_mwf (s : State) (p : Nat) (flag : Fld) (hw : twf memDefault s.mem = true) :
    twf memDefault (State.plsDisagree s p flag).mem = true := by
  simp (maxDischargeDepth := 12) +contextual [State.plsDisagree, hw]

@[simp] theorem State.coverEnd_keeps (s : State) :
    (State.coverEnd s).pending = s.pending ∧ (State.coverEnd s).mem = s.mem ∧ (State.coverEnd s).holes = s.holes := by
  simp [State.coverEnd]

@[simp] theorem State.calFail_keeps (s : State) (code : Nat) :
    (State.calFail s code).pending = s.pending ∧ (State.calFail s code).mem = s.mem ∧
      (State.calFail s code).holes = s.holes := by
  simp [State.calFail]

@[simp] theorem State.calVerify_keeps (s : State) (v : Int) :
    (State.calVerify s v).pending = s.pending ∧ (State.calVerify s v).mem = s.mem ∧
      (State.calVerify s v).holes = s.holes := by
  simp [State.calVerify]

@[simp] theorem State.plsResult_keeps (s : State) (k : Nat) (v : Int) :
    (State.plsResult s k v).pending = s.pending ∧ (State.plsResult s k v).holes = s.holes := by
  simp only [State.plsResult]
  repeat' (first | (simp; done) | split)

@[simp] theorem State.plsResult_mwf (s : State) (k : Nat) (v : Int) (hw : twf memDefault s.mem = true) :
    twf memDefault (State.plsResult s k v).mem = true := by
  simp only [State.plsResult]
  repeat' (first | (simp (maxDischargeDepth := 12) +contextual [hw]; done) | split)

@[simp] theorem State.convDone_keeps (s : State) (k : Nat) (raw : BitVec 16) :
    (State.convDone s k raw).pending = s.pending ∧ (State.convDone s k raw).holes = s.holes := by
  simp [State.convDone]

@[simp] theorem State.convDone_mwf (s : State) (k : Nat) (raw : BitVec 16) (hw : twf memDefault s.mem = true) :
    twf memDefault (State.convDone s k raw).mem = true := by
  simp (maxDischargeDepth := 12) +contextual [State.convDone, hw]

@[simp] theorem State.calRequest_keeps (s : State) (k : Nat) :
    (State.calRequest s k).pending = s.pending ∧ (State.calRequest s k).mem = s.mem ∧
      (State.calRequest s k).holes = s.holes := by
  simp only [State.calRequest]
  repeat' (first | (simp; done) | split)

@[simp] theorem State.sdmRestart_keeps (s : State) (c : Nat) :
    (State.sdmRestart s c).pending = s.pending ∧ (State.sdmRestart s c).mem = s.mem ∧
      (State.sdmRestart s c).holes = s.holes := by
  simp [State.sdmRestart]

@[simp] theorem State.alignStart_keeps (s : State) (n : Nat) :
    (State.alignStart s n).pending = s.pending ∧ (State.alignStart s n).mem = s.mem ∧
      (State.alignStart s n).holes = s.holes := by
  simp [State.alignStart]

@[simp] theorem State.sdmEnable_keeps (s : State) (c : Nat) (was : Bool) :
    (State.sdmEnable s c was).pending = s.pending ∧ (State.sdmEnable s c was).mem = s.mem ∧
      (State.sdmEnable s c was).holes = s.holes := by
  simp [State.sdmEnable]

end Sys2Proof.Machine
end

