-- ==== Sys2Proof/Laws/KeepsTime.lean ====
section
/-! SUPPORT. What the definitions of Machine/Time.lean leave of the queue and the memories. -/

namespace Sys2Proof.Machine

set_option linter.unusedTactic false

@[simp] theorem State.tickClock_keeps (s : State) :
    (State.tickClock s).pending = s.pending ∧ (State.tickClock s).mem = s.mem ∧
      (State.tickClock s).holes = s.holes := by
  simp [State.tickClock]

@[simp] theorem State.stepRefused_keeps (s : State) :
    (State.stepRefused s).pending = s.pending ∧ (State.stepRefused s).mem = s.mem ∧
      (State.stepRefused s).holes = s.holes := by
  simp [State.stepRefused]

@[simp] theorem State.commitStep_keeps (s : State) (d : Int) :
    (State.commitStep s d).pending = s.pending ∧ (State.commitStep s d).mem = s.mem ∧
      (State.commitStep s d).holes = s.holes := by
  simp [State.commitStep]

@[simp] theorem State.setLocal_keeps (s : State) (t : Nat) :
    (State.setLocal s t).pending = s.pending ∧ (State.setLocal s t).mem = s.mem ∧
      (State.setLocal s t).holes = s.holes := by
  simp [State.setLocal]

@[simp] theorem State.stepDone_keeps (s : State) :
    (State.stepDone s).pending = s.pending ∧ (State.stepDone s).mem = s.mem ∧ (State.stepDone s).holes = s.holes := by
  simp [State.stepDone]

@[simp] theorem State.clearEst_keeps (s : State) :
    (State.clearEst s).pending = s.pending ∧ (State.clearEst s).mem = s.mem ∧ (State.clearEst s).holes = s.holes := by
  simp [State.clearEst]

@[simp] theorem State.applyStep_keeps (s : State) :
    (State.applyStep s).pending = s.pending ∧ (State.applyStep s).mem = s.mem ∧
      (State.applyStep s).holes = s.holes := by
  simp only [State.applyStep]
  repeat' (first | (simp; done) | split)

@[simp] theorem State.writeIncr_keeps (s : State) (w : Word) :
    (State.writeIncr s w).pending = s.pending ∧ (State.writeIncr s w).mem = s.mem ∧
      (State.writeIncr s w).holes = s.holes := by
  simp [State.writeIncr]

@[simp] theorem State.readNs_keeps (s : State) :
    (State.readNs s).pending = s.pending ∧ (State.readNs s).mem = s.mem ∧ (State.readNs s).holes = s.holes := by
  simp [State.readNs]

@[simp] theorem State.writeStepHi_keeps (s : State) (hi : Word) :
    (State.writeStepHi s hi).pending = s.pending ∧ (State.writeStepHi s hi).mem = s.mem ∧
      (State.writeStepHi s hi).holes = s.holes := by
  simp [State.writeStepHi]

@[simp] theorem State.readAon_keeps (s : State) :
    (State.readAon s).pending = s.pending ∧ (State.readAon s).mem = s.mem ∧ (State.readAon s).holes = s.holes := by
  simp [State.readAon]

@[simp] theorem State.captureStamp_keeps (s : State) (c : Nat) (rising : Bool) :
    (State.captureStamp s c rising).pending = s.pending ∧ (State.captureStamp s c rising).mem = s.mem ∧
      (State.captureStamp s c rising).holes = s.holes := by
  simp [State.captureStamp]

@[simp] theorem State.captureRoute_keeps (s : State) (c : Nat) (rising : Bool) :
    (State.captureRoute s c rising).pending = s.pending ∧ (State.captureRoute s c rising).mem = s.mem ∧
      (State.captureRoute s c rising).holes = s.holes := by
  simp [State.captureRoute]

@[simp] theorem State.captureTrigger_keeps (s : State) (c : Nat) (rising : Bool) :
    (State.captureTrigger s c rising).pending = s.pending ∧ (State.captureTrigger s c rising).mem = s.mem ∧
      (State.captureTrigger s c rising).holes = s.holes := by
  simp only [State.captureTrigger]
  repeat' (first | (simp; done) | split)

@[simp] theorem State.captureEdge_keeps (s : State) (c : Nat) (rising : Bool) :
    (State.captureEdge s c rising).pending = s.pending ∧ (State.captureEdge s c rising).mem = s.mem ∧
      (State.captureEdge s c rising).holes = s.holes := by
  simp [State.captureEdge]

@[simp] theorem State.readCap_keeps (s : State) (c : Nat) :
    (State.readCap s c).pending = s.pending ∧ (State.readCap s c).mem = s.mem ∧
      (State.readCap s c).holes = s.holes := by
  simp only [State.readCap]
  repeat' (first | (simp; done) | split)

@[simp] theorem State.onPtp_keeps (s : State) (f : PtpUnit → PtpUnit) :
    (State.onPtp s f).pending = s.pending ∧ (State.onPtp s f).mem = s.mem ∧ (State.onPtp s f).holes = s.holes := by
  simp [State.onPtp]

@[simp] theorem State.setPtpState_keeps (s : State) (k : Nat) :
    (State.setPtpState s k).pending = s.pending ∧ (State.setPtpState s k).mem = s.mem ∧
      (State.setPtpState s k).holes = s.holes := by
  simp [State.setPtpState]

@[simp] theorem State.setRefused_keeps (s : State) (b : Bool) :
    (State.setRefused s b).pending = s.pending ∧ (State.setRefused s b).mem = s.mem ∧
      (State.setRefused s b).holes = s.holes := by
  simp [State.setRefused]

@[simp] theorem State.ptpIgnore_keeps (s : State) :
    (State.ptpIgnore s).pending = s.pending ∧ (State.ptpIgnore s).mem = s.mem ∧
      (State.ptpIgnore s).holes = s.holes := by
  simp [State.ptpIgnore]

@[simp] theorem State.ptpMessage_pending (s : State) (x : PtpHdr) (lo hi : Int) (f : State → State) (h : ∀ t,
    (f t).pending = t.pending) :

    (s.ptpMessage x lo hi f).pending = s.pending := by
  unfold State.ptpMessage
  repeat' split
  all_goals simp [h]

@[simp] theorem State.ptpMessage_mem (s : State) (x : PtpHdr) (lo hi : Int) (f : State → State) (h : ∀ t,
    (f t).mem = t.mem) :

    (s.ptpMessage x lo hi f).mem = s.mem := by
  unfold State.ptpMessage
  repeat' split
  all_goals simp [h]

@[simp] theorem State.ptpMessage_holes (s : State) (x : PtpHdr) (lo hi : Int) (f : State → State) (h : ∀ t,
    (f t).holes = t.holes) :

    (s.ptpMessage x lo hi f).holes = s.holes := by
  unfold State.ptpMessage
  repeat' split
  all_goals simp [h]


@[simp] theorem State.ptpFollow_keeps (s : State) :
    (State.ptpFollow s).pending = s.pending ∧ (State.ptpFollow s).mem = s.mem ∧
      (State.ptpFollow s).holes = s.holes := by
  simp [State.ptpFollow]

@[simp] theorem State.slew_keeps (s : State) :
    (State.slew s).pending = s.pending ∧ (State.slew s).mem = s.mem ∧ (State.slew s).holes = s.holes := by
  simp [State.slew]

@[simp] theorem State.ptpOffset_keeps (s : State) (off : Rat) :
    (State.ptpOffset s off).pending = s.pending ∧ (State.ptpOffset s off).mem = s.mem ∧
      (State.ptpOffset s off).holes = s.holes := by
  simp [State.ptpOffset]

@[simp] theorem State.ptpRestart_keeps (s : State) :
    (State.ptpRestart s).pending = s.pending ∧ (State.ptpRestart s).mem = s.mem ∧
      (State.ptpRestart s).holes = s.holes := by
  simp [State.ptpRestart]

end Sys2Proof.Machine
end

