-- ==== Sys2Proof/Laws/KeepsChest.lean ====
section
/-! SUPPORT. What the definitions of Machine/Chest.lean leave of the queue and the memories. -/

namespace Sys2Proof.Machine

set_option linter.unusedTactic false

@[simp] theorem State.sampleTriggers_keeps (s : State) (k : Nat) (w : Word) :
    (State.sampleTriggers s k w).pending = s.pending ∧ (State.sampleTriggers s k w).mem = s.mem ∧
      (State.sampleTriggers s k w).holes = s.holes := by
  simp only [State.sampleTriggers]
  repeat' (first | (simp; done) | split)

@[simp] theorem State.drain_keeps (s : State) (k : Nat) (n : Nat) :
    (State.drain s k n).pending = s.pending ∧ (State.drain s k n).holes = s.holes := by
  simp [State.drain]

@[simp] theorem State.drain_mwf (s : State) (k : Nat) (n : Nat) (hw : twf memDefault s.mem = true) :
    twf memDefault (State.drain s k n).mem = true := by
  simp (maxDischargeDepth := 12) +contextual [State.drain, hw]

@[simp] theorem State.drainBursts_keeps (s : State) (k : Nat) (bursts : Nat) :
    (State.drainBursts s k bursts).pending = s.pending ∧ (State.drainBursts s k bursts).holes = s.holes := by
  simp [State.drainBursts]

@[simp] theorem State.drainBursts_mwf (s : State) (k : Nat) (bursts : Nat) (hw : twf memDefault s.mem = true) :
    twf memDefault (State.drainBursts s k bursts).mem = true := by
  simp (maxDischargeDepth := 12) +contextual [State.drainBursts, hw]

@[simp] theorem State.putElement_keeps (s : State) (k : Nat) (words : List Word) :
    (State.putElement s k words).pending = s.pending ∧ (State.putElement s k words).mem = s.mem ∧
      (State.putElement s k words).holes = s.holes := by
  simp [State.putElement]

@[simp] theorem State.storeSample_keeps (s : State) (k : Nat) (w : Word) :
    (State.storeSample s k w).pending = s.pending ∧ (State.storeSample s k w).mem = s.mem ∧
      (State.storeSample s k w).holes = s.holes := by
  simp [State.storeSample]

@[simp] theorem State.closeGap_keeps (s : State) (k : Nat) :
    (State.closeGap s k).pending = s.pending ∧ (State.closeGap s k).mem = s.mem ∧
      (State.closeGap s k).holes = s.holes := by
  simp [State.closeGap]

@[simp] theorem State.openGap_keeps (s : State) (k : Nat) :
    (State.openGap s k).pending = s.pending ∧ (State.openGap s k).holes = s.holes := by
  simp [State.openGap]

@[simp] theorem State.openGap_mwf (s : State) (k : Nat) (hw : twf memDefault s.mem = true) :
    twf memDefault (State.openGap s k).mem = true := by
  simp (maxDischargeDepth := 12) +contextual [State.openGap, hw]

@[simp] theorem State.armSegment_keeps (s : State) (g : Nat) :
    (State.armSegment s g).pending = s.pending ∧ (State.armSegment s g).holes = s.holes := by
  simp [State.armSegment]

@[simp] theorem State.armSegment_mwf (s : State) (g : Nat) (hw : twf memDefault s.mem = true) :
    twf memDefault (State.armSegment s g).mem = true := by
  simp (maxDischargeDepth := 12) +contextual [State.armSegment, hw]

@[simp] theorem State.closeSegment_keeps (s : State) (extra : Nat) :
    (State.closeSegment s extra).pending = s.pending ∧ (State.closeSegment s extra).holes = s.holes := by
  simp [State.closeSegment]

@[simp] theorem State.closeSegment_mwf (s : State) (extra : Nat) (hw : twf memDefault s.mem = true) :
    twf memDefault (State.closeSegment s extra).mem = true := by
  simp (maxDischargeDepth := 12) +contextual [State.closeSegment, hw]

@[simp] theorem State.chestNext_keeps (s : State) :
    (State.chestNext s).pending = s.pending ∧ (State.chestNext s).mem = s.mem ∧
      (State.chestNext s).holes = s.holes := by
  simp [State.chestNext]

@[simp] theorem State.chestRearm_keeps (s : State) :
    (State.chestRearm s).pending = s.pending ∧ (State.chestRearm s).holes = s.holes := by
  simp [State.chestRearm]

@[simp] theorem State.chestRearm_mwf (s : State) (hw : twf memDefault s.mem = true) :
    twf memDefault (State.chestRearm s).mem = true := by
  simp (maxDischargeDepth := 12) +contextual [State.chestRearm, hw]

@[simp] theorem State.tick_keeps (s : State) : (State.tick s).pending = s.pending ∧ (State.tick s).holes = s.holes := by
  simp [State.tick]

@[simp] theorem State.tick_mwf (s : State) (hw : twf memDefault s.mem = true) :
    twf memDefault (State.tick s).mem = true := by
  simp (maxDischargeDepth := 12) +contextual [State.tick, hw]

@[simp] theorem State.segmentCheck_keeps (s : State) :
    (State.segmentCheck s).pending = s.pending ∧ (State.segmentCheck s).holes = s.holes := by
  simp [State.segmentCheck]

@[simp] theorem State.segmentCheck_mwf (s : State) (hw : twf memDefault s.mem = true) :
    twf memDefault (State.segmentCheck s).mem = true := by
  simp (maxDischargeDepth := 12) +contextual [State.segmentCheck, hw]

@[simp] theorem State.chestArm_keeps (s : State) :
    (State.chestArm s).pending = s.pending ∧ (State.chestArm s).holes = s.holes := by
  simp only [State.chestArm]
  repeat' (first | (simp; done) | split)

@[simp] theorem State.chestArm_mwf (s : State) (hw : twf memDefault s.mem = true) :
    twf memDefault (State.chestArm s).mem = true := by
  simp only [State.chestArm]
  repeat' (first | (simp (maxDischargeDepth := 12) +contextual [hw]; done) | split)

@[simp] theorem State.chestStop_keeps (s : State) :
    (State.chestStop s).pending = s.pending ∧ (State.chestStop s).holes = s.holes := by
  simp [State.chestStop]

@[simp] theorem State.chestStop_mwf (s : State) (hw : twf memDefault s.mem = true) :
    twf memDefault (State.chestStop s).mem = true := by
  simp (maxDischargeDepth := 12) +contextual [State.chestStop, hw]

@[simp] theorem State.chestForce_keeps (s : State) :
    (State.chestForce s).pending = s.pending ∧ (State.chestForce s).mem = s.mem ∧
      (State.chestForce s).holes = s.holes := by
  simp [State.chestForce]

@[simp] theorem State.endGap_keeps (s : State) (k : Nat) :
    (State.endGap s k).pending = s.pending ∧ (State.endGap s k).mem = s.mem ∧ (State.endGap s k).holes = s.holes := by
  simp [State.endGap]

@[simp] theorem State.gapOver_keeps (s : State) (k : Nat) :
    (State.gapOver s k).pending = s.pending ∧ (State.gapOver s k).mem = s.mem ∧
      (State.gapOver s k).holes = s.holes := by
  simp [State.gapOver]

@[simp] theorem State.takeSample_keeps (s : State) (k : Nat) (w : Word) :
    (State.takeSample s k w).pending = s.pending ∧ (State.takeSample s k w).holes = s.holes := by
  simp [State.takeSample]

@[simp] theorem State.takeSample_mwf (s : State) (k : Nat) (w : Word) (hw : twf memDefault s.mem = true) :
    twf memDefault (State.takeSample s k w).mem = true := by
  simp (maxDischargeDepth := 12) +contextual [State.takeSample, hw]

@[simp] theorem State.missSample_keeps (s : State) (k : Nat) :
    (State.missSample s k).pending = s.pending ∧ (State.missSample s k).holes = s.holes := by
  simp [State.missSample]

@[simp] theorem State.missSample_mwf (s : State) (k : Nat) (hw : twf memDefault s.mem = true) :
    twf memDefault (State.missSample s k).mem = true := by
  simp (maxDischargeDepth := 12) +contextual [State.missSample, hw]

@[simp] theorem State.chestSample_keeps (s : State) (k : Nat) (how : ChestInput) :
    (State.chestSample s k how).pending = s.pending ∧ (State.chestSample s k how).holes = s.holes := by
  simp only [State.chestSample]
  repeat' (first | (simp; done) | split)

@[simp] theorem State.chestSample_mwf (s : State) (k : Nat) (how : ChestInput) (hw : twf memDefault s.mem = true) :
    twf memDefault (State.chestSample s k how).mem = true := by
  simp only [State.chestSample]
  repeat' (first | (simp (maxDischargeDepth := 12) +contextual [hw]; done) | split)

end Sys2Proof.Machine
end

