-- ==== Sys2Proof/Laws/KeepsShelf.lean ====
section
/-! SUPPORT. What the definitions of Machine/Shelf.lean leave of the queue and the memories. -/

namespace Sys2Proof.Machine

@[simp] theorem State.setPortState_keeps (s : State) (q : Nat) (k : Nat) :
    (State.setPortState s q k).pending = s.pending ∧ (State.setPortState s q k).mem = s.mem ∧
      (State.setPortState s q k).holes = s.holes := by
  simp [State.setPortState]

@[simp] theorem State.onEnd_keeps (s : State) (q : Nat) (e : Nat) (f : PortEnd → PortEnd) :
    (State.onEnd s q e f).pending = s.pending ∧ (State.onEnd s q e f).mem = s.mem ∧
      (State.onEnd s q e f).holes = s.holes := by
  simp [State.onEnd]

@[simp] theorem State.setNodeBit_keeps (s : State) (f : Nat → Nat → Nat → Nat) (q : Nat) (l : Nat) (b : Bool) :
    (State.setNodeBit s f q l b).pending = s.pending ∧ (State.setNodeBit s f q l b).mem = s.mem ∧
      (State.setNodeBit s f q l b).holes = s.holes := by
  simp [State.setNodeBit]

@[simp] theorem State.setEntry_keeps (s : State) (e : Nat) (x : ShelfEntry) :
    (State.setEntry s e x).pending = s.pending ∧ (State.setEntry s e x).holes = s.holes := by
  simp [State.setEntry]

@[simp] theorem State.setEntry_mwf (s : State) (e : Nat) (x : ShelfEntry) (hw : twf memDefault s.mem = true) :
    twf memDefault (State.setEntry s e x).mem = true := by
  simp (maxDischargeDepth := 12) +contextual [State.setEntry, hw]

@[simp] theorem State.shelfPoint_keeps (s : State) (q : Nat) (l : Nat) (j : Nat) (v : Nat) :
    (State.shelfPoint s q l j v).pending = s.pending ∧ (State.shelfPoint s q l j v).holes = s.holes := by
  simp [State.shelfPoint]

@[simp] theorem State.shelfPoint_mwf (s : State) (q : Nat) (l : Nat) (j : Nat) (v : Nat)
    (hw : twf memDefault s.mem = true) :
    twf memDefault (State.shelfPoint s q l j v).mem = true := by
  simp (maxDischargeDepth := 12) +contextual [State.shelfPoint, hw]

@[simp] theorem State.shelfCell_keeps (s : State) (q : Nat) (l : Nat) (idx : Nat) (payload : List Byte) :
    (State.shelfCell s q l idx payload).pending = s.pending ∧ (State.shelfCell s q l idx payload).holes = s.holes := by
  simp [State.shelfCell]

@[simp] theorem State.shelfCell_mwf (s : State) (q : Nat) (l : Nat) (idx : Nat) (payload : List Byte)
    (hw : twf memDefault s.mem = true) :
    twf memDefault (State.shelfCell s q l idx payload).mem = true := by
  simp (maxDischargeDepth := 12) +contextual [State.shelfCell, hw]

@[simp] theorem State.onEntries_keeps (s : State) (q : Nat) (l : Nat) (f : ShelfEntry → ShelfEntry) :
    (State.onEntries s q l f).pending = s.pending ∧ (State.onEntries s q l f).holes = s.holes := by
  simp [State.onEntries]

@[simp] theorem State.onEntries_mwf (s : State) (q : Nat) (l : Nat) (f : ShelfEntry → ShelfEntry)
    (hw : twf memDefault s.mem = true) :
    twf memDefault (State.onEntries s q l f).mem = true := by
  simp (maxDischargeDepth := 12) +contextual [State.onEntries, hw]

@[simp] theorem State.ageEntries_keeps (s : State) (q : Nat) :
    (State.ageEntries s q).pending = s.pending ∧ (State.ageEntries s q).holes = s.holes := by
  simp [State.ageEntries]

@[simp] theorem State.ageEntries_mwf (s : State) (q : Nat) (hw : twf memDefault s.mem = true) :
    twf memDefault (State.ageEntries s q).mem = true := by
  simp (maxDischargeDepth := 12) +contextual [State.ageEntries, hw]

@[simp] theorem State.replaceNode_keeps (s : State) (q : Nat) (l : Nat) (uid : Word) :
    (State.replaceNode s q l uid).pending = s.pending ∧ (State.replaceNode s q l uid).holes = s.holes := by
  simp [State.replaceNode]

@[simp] theorem State.replaceNode_mwf (s : State) (q : Nat) (l : Nat) (uid : Word) (hw : twf memDefault s.mem = true) :
    twf memDefault (State.replaceNode s q l uid).mem = true := by
  simp (maxDischargeDepth := 12) +contextual [State.replaceNode, hw]

@[simp] theorem State.aggStale_keeps (s : State) (q : Nat) :
    (State.aggStale s q).pending = s.pending ∧ (State.aggStale s q).holes = s.holes := by
  simp [State.aggStale]

@[simp] theorem State.aggStale_mwf (s : State) (q : Nat) (hw : twf memDefault s.mem = true) :
    twf memDefault (State.aggStale s q).mem = true := by
  simp (maxDischargeDepth := 12) +contextual [State.aggStale, hw]

set_option maxRecDepth 4000 in
@[simp] theorem State.writeAggregate_keeps (s : State) (q : Nat) : (s.writeAggregate q).pending = s.pending ∧
    (s.writeAggregate q).holes = s.holes := by
  unfold State.writeAggregate
  dsimp only
  split <;> simp only [State.aggStale_keeps, State.onPort_keeps, State.deliverAll_keeps, State.setFld_keeps,
    State.setReg_keeps, and_self]

set_option maxRecDepth 4000 in
@[simp] theorem State.writeAggregate_mwf (s : State) (q : Nat) (hw : twf memDefault s.mem = true) :
    twf memDefault (s.writeAggregate q).mem = true := by
  unfold State.writeAggregate
  dsimp only
  split
  · refine State.aggStale_mwf _ _ ?_
    simp only [State.onPort_keeps, State.deliverAll_keeps, State.setFld_keeps, State.setReg_keeps, hw]
  · simp only [State.onPort_keeps, State.deliverAll_keeps, State.setFld_keeps, State.setReg_keeps, hw]


@[simp] theorem State.latchAgg_keeps (s : State) (q : Nat) :
    (State.latchAgg s q).pending = s.pending ∧ (State.latchAgg s q).mem = s.mem ∧
      (State.latchAgg s q).holes = s.holes := by
  simp [State.latchAgg]

@[simp] theorem State.clearShelf_keeps (s : State) :
    (State.clearShelf s).pending = s.pending ∧ (State.clearShelf s).mem = s.mem ∧
      (State.clearShelf s).holes = s.holes := by
  simp [State.clearShelf]

@[simp] theorem State.clearRing_keeps (s : State) (q : Nat) :
    (State.clearRing s q).pending = s.pending ∧ (State.clearRing s q).mem = s.mem ∧
      (State.clearRing s q).holes = s.holes := by
  simp [State.clearRing]

@[simp] theorem State.computeEnvelope_keeps (s : State) (n : Nat) :
    (State.computeEnvelope s n).pending = s.pending ∧ (State.computeEnvelope s n).mem = s.mem ∧
      (State.computeEnvelope s n).holes = s.holes := by
  simp [State.computeEnvelope]

end Sys2Proof.Machine
end

