-- ==== Sys2Proof/Laws/KeepsRing.lean ====
section
/-! SUPPORT. What the definitions of Machine/Ring.lean leave of the queue and the memories. -/

namespace Sys2Proof.Machine

set_option linter.unusedTactic false

@[simp] theorem State.flushPort_keeps (s : State) (q : Nat) :
    (State.flushPort s q).pending = s.pending ∧ (State.flushPort s q).mem = s.mem ∧
      (State.flushPort s q).holes = s.holes := by
  simp [State.flushPort]

@[simp] theorem State.sendFrame_keeps (s : State) (q : Nat) (e : Nat) (f : RingFrame) :
    (State.sendFrame s q e f).pending = s.pending ∧ (State.sendFrame s q e f).mem = s.mem ∧
      (State.sendFrame s q e f).holes = s.holes := by
  simp only [State.sendFrame]
  repeat' (first | (simp; done) | split)

@[simp] theorem State.sendBroadcast_keeps (s : State) (q : Nat) (e : Nat) (op : Nat) (arg : Word) :
    (State.sendBroadcast s q e op arg).pending = s.pending ∧ (State.sendBroadcast s q e op arg).mem = s.mem ∧
      (State.sendBroadcast s q e op arg).holes = s.holes := by
  simp [State.sendBroadcast]

@[simp] theorem State.replan_keeps (s : State) (q : Nat) : (s.replan q).pending = s.pending ∧ (s.replan q).mem = s.mem ∧
    (s.replan q).holes = s.holes := by
  unfold State.replan
  dsimp only
  refine ⟨?_, ?_, ?_⟩
  · rw [foldl_pending _ (fun t e => foldl_pending _ (fun u r => by split <;> simp) _ _)]; simp
  · rw [foldl_mem _ (fun t e => foldl_mem _ (fun u r => by split <;> simp) _ _)]; simp
  · rw [foldl_holes _ (fun t e => foldl_holes _ (fun u r => by split <;> simp) _ _)]; simp


@[simp] theorem State.breakRing_keeps (s : State) (q : Nat) (e : Nat) (cut : Nat) (second : Bool) (otherKnown : Bool) :
    (State.breakRing s q e cut second otherKnown).pending = s.pending ∧
      (State.breakRing s q e cut second otherKnown).mem = s.mem ∧
      (State.breakRing s q e cut second otherKnown).holes = s.holes := by
  simp [State.breakRing]

@[simp] theorem State.endOpen_keeps (s : State) (q : Nat) (e : Nat) :
    (State.endOpen s q e).pending = s.pending ∧ (State.endOpen s q e).mem = s.mem ∧
      (State.endOpen s q e).holes = s.holes := by
  simp [State.endOpen]

@[simp] theorem State.wrapEnd_keeps (s : State) (q : Nat) (e : Nat) (cause : Nat) :
    (State.wrapEnd s q e cause).pending = s.pending ∧ (State.wrapEnd s q e cause).mem = s.mem ∧
      (State.wrapEnd s q e cause).holes = s.holes := by
  simp [State.wrapEnd]

@[simp] theorem State.sendEnum_keeps (s : State) (q : Nat) (e : Nat) (start : Nat) (dir : Nat) :
    (State.sendEnum s q e start dir).pending = s.pending ∧ (State.sendEnum s q e start dir).mem = s.mem ∧
      (State.sendEnum s q e start dir).holes = s.holes := by
  simp [State.sendEnum]

@[simp] theorem State.startDiscovery_keeps (s : State) (q : Nat) :
    (State.startDiscovery s q).pending = s.pending ∧ (State.startDiscovery s q).mem = s.mem ∧
      (State.startDiscovery s q).holes = s.holes := by
  simp [State.startDiscovery]

@[simp] theorem State.placeNodes_keeps (s : State) (q : Nat) (ids : List (Nat × IdCell)) :
    (State.placeNodes s q ids).pending = s.pending ∧ (State.placeNodes s q ids).mem = s.mem ∧
      (State.placeNodes s q ids).holes = s.holes := by
  simp [State.placeNodes]

@[simp] theorem State.clearPresent_keeps (s : State) (q : Nat) :
    (State.clearPresent s q).pending = s.pending ∧ (State.clearPresent s q).mem = s.mem ∧
      (State.clearPresent s q).holes = s.holes := by
  simp [State.clearPresent]

@[simp] theorem State.placeFromA_keeps (s : State) (q : Nat) (ids : List IdCell) :
    (State.placeFromA s q ids).pending = s.pending ∧ (State.placeFromA s q ids).mem = s.mem ∧
      (State.placeFromA s q ids).holes = s.holes := by
  simp [State.placeFromA]

@[simp] theorem State.ringClosed_keeps (s : State) (q : Nat) (ids : List IdCell) :
    (State.ringClosed s q ids).pending = s.pending ∧ (State.ringClosed s q ids).mem = s.mem ∧
      (State.ringClosed s q ids).holes = s.holes := by
  simp [State.ringClosed]

@[simp] theorem State.ringOpen_keeps (s : State) (q : Nat) (ids : List IdCell) :
    (State.ringOpen s q ids).pending = s.pending ∧ (State.ringOpen s q ids).mem = s.mem ∧
      (State.ringOpen s q ids).holes = s.holes := by
  simp [State.ringOpen]

@[simp] theorem State.portCrossed_keeps (s : State) (q : Nat) (other : Nat) :
    (State.portCrossed s q other).pending = s.pending ∧ (State.portCrossed s q other).mem = s.mem ∧
      (State.portCrossed s q other).holes = s.holes := by
  simp [State.portCrossed]

@[simp] theorem State.crossPorts_keeps (s : State) (q : Nat) (other : Nat) :
    (State.crossPorts s q other).pending = s.pending ∧ (State.crossPorts s q other).mem = s.mem ∧
      (State.crossPorts s q other).holes = s.holes := by
  simp [State.crossPorts]

@[simp] theorem State.swapEnds_keeps (s : State) (q : Nat) :
    (State.swapEnds s q).pending = s.pending ∧ (State.swapEnds s q).mem = s.mem ∧
      (State.swapEnds s q).holes = s.holes := by
  simp [State.swapEnds]

@[simp] theorem State.placeFromB_keeps (s : State) (q : Nat) (ids : List IdCell) :
    (State.placeFromB s q ids).pending = s.pending ∧ (State.placeFromB s q ids).mem = s.mem ∧
      (State.placeFromB s q ids).holes = s.holes := by
  simp [State.placeFromB]

@[simp] theorem State.enumReturn_keeps (s : State) (q : Nat) (sent : Nat) (port : Nat) (e : Nat) (ids : List IdCell) :
    (State.enumReturn s q sent port e ids).pending = s.pending ∧ (State.enumReturn s q sent port e ids).mem = s.mem ∧
      (State.enumReturn s q sent port e ids).holes = s.holes := by
  simp [State.enumReturn]

@[simp] theorem State.enumAbsent_keeps (s : State) (q : Nat) :
    (State.enumAbsent s q).pending = s.pending ∧ (State.enumAbsent s q).mem = s.mem ∧
      (State.enumAbsent s q).holes = s.holes := by
  simp [State.enumAbsent]

@[simp] theorem State.brkReceived_keeps (s : State) (q : Nat) (e : Nat) (w : BitVec 16) :
    (State.brkReceived s q e w).pending = s.pending ∧ (State.brkReceived s q e w).holes = s.holes := by
  simp [State.brkReceived]

@[simp] theorem State.brkReceived_mwf (s : State) (q : Nat) (e : Nat) (w : BitVec 16)
    (hw : twf memDefault s.mem = true) :
    twf memDefault (State.brkReceived s q e w).mem = true := by
  simp (maxDischargeDepth := 12) +contextual [State.brkReceived, hw]

@[simp] theorem State.commandEnd_keeps (s : State) (q : Nat) (result : Nat) (node : Nat) :
    (State.commandEnd s q result node).pending = s.pending ∧ (State.commandEnd s q result node).mem = s.mem := by
  simp only [State.commandEnd]
  repeat' (first | (simp; done) | split)

@[simp] theorem State.commandEnd_hwf (s : State) (q : Nat) (result : Nat) (node : Nat)
    (hw : twf holeDefault s.holes = true) :
    twf holeDefault (State.commandEnd s q result node).holes = true := by
  simp only [State.commandEnd]
  repeat' (first | (simp (maxDischargeDepth := 12) +contextual [hw]; done) | split)

@[simp] theorem State.commandStatus_keeps (s : State) (q : Nat) (e : Nat) (l : Nat) (result : Nat) :
    (State.commandStatus s q e l result).pending = s.pending ∧ (State.commandStatus s q e l result).mem = s.mem := by
  simp [State.commandStatus]

@[simp] theorem State.commandStatus_hwf (s : State) (q : Nat) (e : Nat) (l : Nat) (result : Nat)
    (hw : twf holeDefault s.holes = true) :
    twf holeDefault (State.commandStatus s q e l result).holes = true := by
  simp (maxDischargeDepth := 12) +contextual [State.commandStatus, hw]

@[simp] theorem State.statusCell_keeps (s : State) (q : Nat) (e : Nat) (c : RingCell) :
    (State.statusCell s q e c).pending = s.pending := by
  simp [State.statusCell]

@[simp] theorem State.statusCell_mwf (s : State) (q : Nat) (e : Nat) (c : RingCell) (hw : twf memDefault s.mem = true) :
    twf memDefault (State.statusCell s q e c).mem = true := by
  simp (maxDischargeDepth := 12) +contextual [State.statusCell, hw]

@[simp] theorem State.statusCell_hwf (s : State) (q : Nat) (e : Nat) (c : RingCell)
    (hw : twf holeDefault s.holes = true) :
    twf holeDefault (State.statusCell s q e c).holes = true := by
  simp (maxDischargeDepth := 12) +contextual [State.statusCell, hw]

@[simp] theorem State.readCell_keeps (s : State) (q : Nat) (payload : List Byte) :
    (State.readCell s q payload).pending = s.pending ∧ (State.readCell s q payload).mem = s.mem ∧
      (State.readCell s q payload).holes = s.holes := by
  simp [State.readCell]

@[simp] theorem State.headerCell_keeps (s : State) (q : Nat) (e : Nat) (c : RingCell) :
    (State.headerCell s q e c).pending = s.pending ∧ (State.headerCell s q e c).mem = s.mem ∧
      (State.headerCell s q e c).holes = s.holes := by
  simp [State.headerCell]

@[simp] theorem State.dataCell_keeps (s : State) (q : Nat) (c : RingCell) (room : Bool) :
    (State.dataCell s q c room).pending = s.pending ∧ (State.dataCell s q c room).holes = s.holes := by
  simp [State.dataCell]

@[simp] theorem State.dataCell_mwf (s : State) (q : Nat) (c : RingCell) (room : Bool)
    (hw : twf memDefault s.mem = true) :
    twf memDefault (State.dataCell s q c room).mem = true := by
  simp (maxDischargeDepth := 12) +contextual [State.dataCell, hw]

@[simp] theorem State.acceptCell_keeps (s : State) (q : Nat) (e : Nat) (c : RingCell) (room : Bool) :
    (State.acceptCell s q e c room).pending = s.pending := by
  simp [State.acceptCell]

@[simp] theorem State.acceptCell_mwf (s : State) (q : Nat) (e : Nat) (c : RingCell) (room : Bool)
    (hw : twf memDefault s.mem = true) :
    twf memDefault (State.acceptCell s q e c room).mem = true := by
  simp (maxDischargeDepth := 12) +contextual [State.acceptCell, hw]

@[simp] theorem State.acceptCell_hwf (s : State) (q : Nat) (e : Nat) (c : RingCell) (room : Bool)
    (hw : twf holeDefault s.holes = true) :
    twf holeDefault (State.acceptCell s q e c room).holes = true := by
  simp (maxDischargeDepth := 12) +contextual [State.acceptCell, hw]

@[simp] theorem State.receiveCell_keeps (s : State) (q : Nat) (e : Nat) (c : RingCell) (room : Bool) :
    (State.receiveCell s q e c room).pending = s.pending := by
  simp [State.receiveCell]

@[simp] theorem State.receiveCell_mwf (s : State) (q : Nat) (e : Nat) (c : RingCell) (room : Bool)
    (hw : twf memDefault s.mem = true) :
    twf memDefault (State.receiveCell s q e c room).mem = true := by
  simp (maxDischargeDepth := 12) +contextual [State.receiveCell, hw]

@[simp] theorem State.receiveCell_hwf (s : State) (q : Nat) (e : Nat) (c : RingCell) (room : Bool)
    (hw : twf holeDefault s.holes = true) :
    twf holeDefault (State.receiveCell s q e c room).holes = true := by
  simp (maxDischargeDepth := 12) +contextual [State.receiveCell, hw]

@[simp] theorem State.nakReceived_keeps (s : State) (q : Nat) (e : Nat) (count : Nat) :
    (State.nakReceived s q e count).pending = s.pending ∧ (State.nakReceived s q e count).mem = s.mem ∧
      (State.nakReceived s q e count).holes = s.holes := by
  simp only [State.nakReceived]
  repeat' (first | (simp; done) | split)

@[simp] theorem State.goStale_keeps (s : State) (q : Nat) (l : Nat) :
    (State.goStale s q l).pending = s.pending ∧ (State.goStale s q l).holes = s.holes := by
  simp [State.goStale]

@[simp] theorem State.goStale_mwf (s : State) (q : Nat) (l : Nat) (hw : twf memDefault s.mem = true) :
    twf memDefault (State.goStale s q l).mem = true := by
  simp (maxDischargeDepth := 12) +contextual [State.goStale, hw]

@[simp] theorem State.sweepRepair_keeps (s : State) (q : Nat) :
    (State.sweepRepair s q).pending = s.pending ∧ (State.sweepRepair s q).mem = s.mem ∧
      (State.sweepRepair s q).holes = s.holes := by
  simp [State.sweepRepair]

@[simp] theorem State.sendSnap_keeps (s : State) (q : Nat) (e : Nat) :
    (State.sendSnap s q e).pending = s.pending ∧ (State.sendSnap s q e).mem = s.mem ∧
      (State.sendSnap s q e).holes = s.holes := by
  simp only [State.sendSnap]
  repeat' (first | (simp; done) | split)

@[simp] theorem State.endSweep_keeps (s : State) (q : Nat) (e : Nat) :
    (State.endSweep s q e).pending = s.pending ∧ (State.endSweep s q e).mem = s.mem ∧
      (State.endSweep s q e).holes = s.holes := by
  simp [State.endSweep]

@[simp] theorem State.beginSweep_keeps (s : State) (q : Nat) :
    (State.beginSweep s q).pending = s.pending ∧ (State.beginSweep s q).mem = s.mem ∧
      (State.beginSweep s q).holes = s.holes := by
  simp [State.beginSweep]

@[simp] theorem State.sweepStart_keeps (s : State) (q : Nat) :
    (State.sweepStart s q).pending = s.pending ∧ (State.sweepStart s q).mem = s.mem ∧
      (State.sweepStart s q).holes = s.holes := by
  simp [State.sweepStart]

@[simp] theorem State.sweepEnd_keeps (s : State) (q : Nat) :
    (State.sweepEnd s q).pending = s.pending ∧ (State.sweepEnd s q).holes = s.holes := by
  simp [State.sweepEnd]

@[simp] theorem State.sweepEnd_mwf (s : State) (q : Nat) (hw : twf memDefault s.mem = true) :
    twf memDefault (State.sweepEnd s q).mem = true := by
  simp (maxDischargeDepth := 12) +contextual [State.sweepEnd, hw]

@[simp] theorem State.rediscover_keeps (s : State) (q : Nat) :
    (State.rediscover s q).pending = s.pending ∧ (State.rediscover s q).mem = s.mem ∧
      (State.rediscover s q).holes = s.holes := by
  simp [State.rediscover]

@[simp] theorem State.sweepNow_keeps (s : State) (q : Nat) :
    (State.sweepNow s q).pending = s.pending ∧ (State.sweepNow s q).mem = s.mem ∧
      (State.sweepNow s q).holes = s.holes := by
  simp [State.sweepNow]

@[simp] theorem State.sendCommand_keeps (s : State) (q : Nat) (e : Nat) :
    (State.sendCommand s q e).pending = s.pending ∧ (State.sendCommand s q e).mem = s.mem ∧
      (State.sendCommand s q e).holes = s.holes := by
  simp only [State.sendCommand]
  repeat' (first | (simp; done) | split)

@[simp] theorem State.commandGo_keeps (s : State) (q : Nat) :
    (State.commandGo s q).pending = s.pending ∧ (State.commandGo s q).mem = s.mem := by
  simp [State.commandGo]

@[simp] theorem State.commandGo_hwf (s : State) (q : Nat) (hw : twf holeDefault s.holes = true) :
    twf holeDefault (State.commandGo s q).holes = true := by
  simp (maxDischargeDepth := 12) +contextual [State.commandGo, hw]

@[simp] theorem State.portEnable_keeps (s : State) (q : Nat) (was : Bool) :
    (State.portEnable s q was).pending = s.pending ∧ (State.portEnable s q was).mem = s.mem ∧
      (State.portEnable s q was).holes = s.holes := by
  simp [State.portEnable]

@[simp] theorem State.sleepPorts_keeps (s : State) :
    (State.sleepPorts s).pending = s.pending ∧ (State.sleepPorts s).mem = s.mem ∧
      (State.sleepPorts s).holes = s.holes := by
  simp [State.sleepPorts]

@[simp] theorem State.discoverAll_keeps (s : State) :
    (State.discoverAll s).pending = s.pending ∧ (State.discoverAll s).mem = s.mem ∧
      (State.discoverAll s).holes = s.holes := by
  simp [State.discoverAll]

end Sys2Proof.Machine
end

