-- ==== Sys2Proof/Laws/KeepsBoundary.lean ====
section
/-! SUPPORT. What the definitions of Machine/Boundary.lean leave of the queue and the memories. -/

namespace Sys2Proof.Machine

@[simp] theorem State.newPeriod_keeps (s : State) (n : Nat) :
    (State.newPeriod s n).pending = s.pending ∧ (State.newPeriod s n).mem = s.mem ∧
      (State.newPeriod s n).holes = s.holes := by
  simp [State.newPeriod]

@[simp] theorem State.endTurn_keeps (s : State) (n : Nat) :
    (State.endTurn s n).pending = s.pending ∧ (State.endTurn s n).mem = s.mem ∧
      (State.endTurn s n).holes = s.holes := by
  simp [State.endTurn]

@[simp] theorem State.stopTimebase_keeps (s : State) (n : Nat) :
    (State.stopTimebase s n).pending = s.pending ∧ (State.stopTimebase s n).holes = s.holes := by
  simp [State.stopTimebase]

@[simp] theorem State.stopTimebase_mwf (s : State) (n : Nat) (hw : twf memDefault s.mem = true) :
    twf memDefault (State.stopTimebase s n).mem = true := by
  simp (maxDischargeDepth := 12) +contextual [State.stopTimebase, hw]

@[simp] theorem State.reforce_keeps (s : State) (n : Nat) :
    (State.reforce s n).pending = s.pending ∧ (State.reforce s n).mem = s.mem ∧
      (State.reforce s n).holes = s.holes := by
  simp [State.reforce]

@[simp] theorem State.boundaryAt_keeps (s : State) (n : Nat) (j : Nat) (passed : Bool) :
    (State.boundaryAt s n j passed).pending = s.pending ∧ (State.boundaryAt s n j passed).holes = s.holes := by
  simp [State.boundaryAt]

@[simp] theorem State.boundaryAt_mwf (s : State) (n : Nat) (j : Nat) (passed : Bool)
    (hw : twf memDefault s.mem = true) :
    twf memDefault (State.boundaryAt s n j passed).mem = true := by
  simp (maxDischargeDepth := 12) +contextual [State.boundaryAt, hw]

@[simp] theorem State.startTimebase_keeps (s : State) (n : Nat) :
    (State.startTimebase s n).pending = s.pending ∧ (State.startTimebase s n).holes = s.holes := by
  simp [State.startTimebase]

@[simp] theorem State.startTimebase_mwf (s : State) (n : Nat) (hw : twf memDefault s.mem = true) :
    twf memDefault (State.startTimebase s n).mem = true := by
  simp (maxDischargeDepth := 12) +contextual [State.startTimebase, hw]

@[simp] theorem State.boundary_keeps (s : State) (n : Nat) :
    (State.boundary s n).pending = s.pending ∧ (State.boundary s n).holes = s.holes := by
  simp [State.boundary]

@[simp] theorem State.boundary_mwf (s : State) (n : Nat) (hw : twf memDefault s.mem = true) :
    twf memDefault (State.boundary s n).mem = true := by
  simp (maxDischargeDepth := 12) +contextual [State.boundary, hw]

@[simp] theorem State.stoppedTransfer_keeps (s : State) (n : Nat) :
    (State.stoppedTransfer s n).pending = s.pending ∧ (State.stoppedTransfer s n).holes = s.holes := by
  simp [State.stoppedTransfer]

@[simp] theorem State.stoppedTransfer_mwf (s : State) (n : Nat) (hw : twf memDefault s.mem = true) :
    twf memDefault (State.stoppedTransfer s n).mem = true := by
  simp (maxDischargeDepth := 12) +contextual [State.stoppedTransfer, hw]

@[simp] theorem State.writeShadow_keeps (s : State) (n : Nat) (a : Nat) (w : Word) (late : Bool) :
    (State.writeShadow s n a w late).pending = s.pending ∧ (State.writeShadow s n a w late).holes = s.holes := by
  simp [State.writeShadow]

@[simp] theorem State.writeShadow_mwf (s : State) (n : Nat) (a : Nat) (w : Word) (late : Bool)
    (hw : twf memDefault s.mem = true) :
    twf memDefault (State.writeShadow s n a w late).mem = true := by
  simp (maxDischargeDepth := 12) +contextual [State.writeShadow, hw]

@[simp] theorem State.writeArm_keeps (s : State) (n : Nat) (late : Bool) :
    (State.writeArm s n late).pending = s.pending ∧ (State.writeArm s n late).holes = s.holes := by
  simp [State.writeArm]

@[simp] theorem State.writeArm_mwf (s : State) (n : Nat) (late : Bool) (hw : twf memDefault s.mem = true) :
    twf memDefault (State.writeArm s n late).mem = true := by
  simp (maxDischargeDepth := 12) +contextual [State.writeArm, hw]

@[simp] theorem State.writeHold_keeps (s : State) (n : Nat) (hold : Bool) :
    (State.writeHold s n hold).pending = s.pending ∧ (State.writeHold s n hold).holes = s.holes := by
  simp [State.writeHold]

@[simp] theorem State.writeHold_mwf (s : State) (n : Nat) (hold : Bool) (hw : twf memDefault s.mem = true) :
    twf memDefault (State.writeHold s n hold).mem = true := by
  simp (maxDischargeDepth := 12) +contextual [State.writeHold, hw]

end Sys2Proof.Machine
end

