-- ==== Sys2Proof/Laws/KeepsRedundancy.lean ====
section
/-! SUPPORT. What the definitions of Machine/Redundancy.lean leave of the queue and the memories. -/

namespace Sys2Proof.Machine

set_option linter.unusedTactic false

@[simp] theorem State.setStandby_keeps (s : State) (c : Nat) :
    (State.setStandby s c).pending = s.pending ∧ (State.setStandby s c).mem = s.mem ∧
      (State.setStandby s c).holes = s.holes := by
  simp [State.setStandby]

@[simp] theorem State.setAgree_keeps (s : State) (n : Nat) (a : Nat) :
    (State.setAgree s n a).pending = s.pending ∧ (State.setAgree s n a).mem = s.mem ∧
      (State.setAgree s n a).holes = s.holes := by
  simp [State.setAgree]

@[simp] theorem State.standbyBack_keeps (s : State) :
    (State.standbyBack s).pending = s.pending ∧ (State.standbyBack s).mem = s.mem ∧
      (State.standbyBack s).holes = s.holes := by
  simp [State.standbyBack]

@[simp] theorem State.standbyRefresh_keeps (s : State) :
    (State.standbyRefresh s).pending = s.pending ∧ (State.standbyRefresh s).mem = s.mem ∧
      (State.standbyRefresh s).holes = s.holes := by
  simp [State.standbyRefresh]

@[simp] theorem State.copyState_keeps (s : State) (n : Nat) :
    (State.copyState s n).pending = s.pending ∧ (State.copyState s n).mem = s.mem ∧
      (State.copyState s n).holes = s.holes := by
  simp [State.copyState]

@[simp] theorem State.redBoundary_keeps (s : State) (n : Nat) :
    (State.redBoundary s n).pending = s.pending ∧ (State.redBoundary s n).mem = s.mem ∧
      (State.redBoundary s n).holes = s.holes := by
  simp [State.redBoundary]

@[simp] theorem State.settlePeriod_keeps (s : State) (n : Nat) :
    (State.settlePeriod s n).pending = s.pending ∧ (State.settlePeriod s n).mem = s.mem ∧
      (State.settlePeriod s n).holes = s.holes := by
  simp [State.settlePeriod]

@[simp] theorem State.disagree_keeps (s : State) (n : Nat) :
    (State.disagree s n).pending = s.pending ∧ (State.disagree s n).holes = s.holes := by
  simp [State.disagree]

@[simp] theorem State.disagree_mwf (s : State) (n : Nat) (hw : twf memDefault s.mem = true) :
    twf memDefault (State.disagree s n).mem = true := by
  simp (maxDischargeDepth := 12) +contextual [State.disagree, hw]

@[simp] theorem State.undoDisagree_keeps (s : State) (n : Nat) :
    (State.undoDisagree s n).pending = s.pending ∧ (State.undoDisagree s n).mem = s.mem ∧
      (State.undoDisagree s n).holes = s.holes := by
  simp only [State.undoDisagree]
  repeat' (first | (simp; done) | split)

@[simp] theorem State.loseCopy_keeps (s : State) (n : Nat) :
    (State.loseCopy s n).pending = s.pending ∧ (State.loseCopy s n).mem = s.mem ∧
      (State.loseCopy s n).holes = s.holes := by
  simp [State.loseCopy]

@[simp] theorem State.undoLost_keeps (s : State) (n : Nat) :
    (State.undoLost s n).pending = s.pending ∧ (State.undoLost s n).mem = s.mem ∧
      (State.undoLost s n).holes = s.holes := by
  simp only [State.undoLost]
  repeat' (first | (simp; done) | split)

@[simp] theorem State.copyAck_keeps (s : State) (n : Nat) (intact : Bool) (upset : Bool) :
    (State.copyAck s n intact upset).pending = s.pending ∧ (State.copyAck s n intact upset).holes = s.holes := by
  simp [State.copyAck]

@[simp] theorem State.copyAck_mwf (s : State) (n : Nat) (intact : Bool) (upset : Bool)
    (hw : twf memDefault s.mem = true) :
    twf memDefault (State.copyAck s n intact upset).mem = true := by
  simp (maxDischargeDepth := 12) +contextual [State.copyAck, hw]

@[simp] theorem State.runSubst_keeps (s : State) (n : Nat) (k : Nat) :
    (State.runSubst s n k).pending = s.pending ∧ (State.runSubst s n k).mem = s.mem ∧
      (State.runSubst s n k).holes = s.holes := by
  simp only [State.runSubst]
  repeat' (first | (simp; done) | split)

@[simp] theorem State.classify_keeps (s : State) (n : Nat) (standby : Bool) (cycles : Nat) :
    (State.classify s n standby cycles).pending = s.pending ∧ (State.classify s n standby cycles).mem = s.mem ∧
      (State.classify s n standby cycles).holes = s.holes := by
  simp [State.classify]

@[simp] theorem State.comparePriv_keeps (s : State) (n : Nat) (k : Nat) (upsetA : Word) (upsetB : Word) :
    (State.comparePriv s n k upsetA upsetB).pending = s.pending ∧
      (State.comparePriv s n k upsetA upsetB).holes = s.holes := by
  simp only [State.comparePriv]
  repeat' (first | (simp; done) | split)

@[simp] theorem State.comparePriv_mwf (s : State) (n : Nat) (k : Nat) (upsetA : Word) (upsetB : Word)
    (hw : twf memDefault s.mem = true) :
    twf memDefault (State.comparePriv s n k upsetA upsetB).mem = true := by
  simp only [State.comparePriv]
  repeat' (first | (simp (maxDischargeDepth := 12) +contextual [hw]; done) | split)

@[simp] theorem State.undoFailing_keeps (s : State) :
    (State.undoFailing s).pending = s.pending ∧ (State.undoFailing s).mem = s.mem ∧
      (State.undoFailing s).holes = s.holes := by
  simp [State.undoFailing]

@[simp] theorem State.declareFailed_keeps (s : State) (x : Nat) :
    (State.declareFailed s x).pending = s.pending ∧ (State.declareFailed s x).mem = s.mem ∧
      (State.declareFailed s x).holes = s.holes := by
  simp [State.declareFailed]

@[simp] theorem State.beatSlot_keeps (s : State) (x : Nat) (link : Bool) (toggle : Bool) (fault : Bool) :
    (State.beatSlot s x link toggle fault).pending = s.pending ∧ (State.beatSlot s x link toggle fault).mem = s.mem ∧
      (State.beatSlot s x link toggle fault).holes = s.holes := by
  simp [State.beatSlot]

@[simp] theorem State.beats_keeps (s : State) (linkA : Bool) (linkB : Bool) (toggleA : Bool) (toggleB : Bool) :
    (State.beats s linkA linkB toggleA toggleB).pending = s.pending ∧
      (State.beats s linkA linkB toggleA toggleB).mem = s.mem ∧
      (State.beats s linkA linkB toggleA toggleB).holes = s.holes := by
  simp [State.beats]

@[simp] theorem State.takeRole_keeps (s : State) :
    (State.takeRole s).pending = s.pending ∧ (State.takeRole s).mem = s.mem ∧ (State.takeRole s).holes = s.holes := by
  simp [State.takeRole]

@[simp] theorem State.switchover_keeps (s : State) (took : Nat) :
    (State.switchover s took).pending = s.pending ∧ (State.switchover s took).holes = s.holes := by
  simp [State.switchover]

@[simp] theorem State.switchover_mwf (s : State) (took : Nat) (hw : twf memDefault s.mem = true) :
    twf memDefault (State.switchover s took).mem = true := by
  simp (maxDischargeDepth := 12) +contextual [State.switchover, hw]

@[simp] theorem State.exchange_keeps (s : State) :
    (State.exchange s).pending = s.pending ∧ (State.exchange s).mem = s.mem ∧ (State.exchange s).holes = s.holes := by
  simp [State.exchange]

@[simp] theorem State.startReload_keeps (s0 : State) :
    (State.startReload s0).pending = s0.pending ∧ (State.startReload s0).mem = s0.mem ∧
      (State.startReload s0).holes = s0.holes := by
  simp [State.startReload]

@[simp] theorem State.endReload_keeps (s : State) :
    (State.endReload s).pending = s.pending ∧ (State.endReload s).mem = s.mem ∧
      (State.endReload s).holes = s.holes := by
  simp [State.endReload]

@[simp] theorem State.engineStops_keeps (s : State) (e : Nat) (cause : Nat) :
    (State.engineStops s e cause).pending = s.pending ∧ (State.engineStops s e cause).mem = s.mem ∧
      (State.engineStops s e cause).holes = s.holes := by
  simp [State.engineStops]

end Sys2Proof.Machine
end

