-- ==== Sys2Proof/Laws/KeepsSnapshot.lean ====
section
/-! SUPPORT. What the definitions of Machine/Snapshot.lean leave of the queue and the memories. -/

namespace Sys2Proof.Machine

@[simp] theorem State.writeSnap_keeps (s : State) (n : Nat) (accepted : Bool) :
    (State.writeSnap s n accepted).pending = s.pending ∧ (State.writeSnap s n accepted).holes = s.holes := by
  simp [State.writeSnap]

@[simp] theorem State.writeSnap_mwf (s : State) (n : Nat) (accepted : Bool) (hw : twf memDefault s.mem = true) :
    twf memDefault (State.writeSnap s n accepted).mem = true := by
  simp (maxDischargeDepth := 12) +contextual [State.writeSnap, hw]

@[simp] theorem State.latchSnap_keeps (s : State) (n : Nat) :
    (State.latchSnap s n).pending = s.pending ∧ (State.latchSnap s n).mem = s.mem ∧
      (State.latchSnap s n).holes = s.holes := by
  simp [State.latchSnap]

end Sys2Proof.Machine
end

