-- ==== Sys2Proof/Laws/KeepsSupervision.lean ====
section
/-! SUPPORT. What the definitions of Machine/Supervision.lean leave of the queue and the memories. -/

namespace Sys2Proof.Machine

set_option linter.unusedTactic false

@[simp] theorem State.sinStations_pending (s : State) (x : Nat) (f : Nat → State → State) (h : ∀ n t,
    (f n t).pending = t.pending) :

    (s.sinStations x f).pending = s.pending := by
  unfold State.sinStations
  exact State.forAll_pending _ (fun n t => by split <;> simp [h]) 4 s

@[simp] theorem State.sinStations_mem (s : State) (x : Nat) (f : Nat → State → State) (h : ∀ n t, (f n t).mem = t.mem) :
    (s.sinStations x f).mem = s.mem := by
  unfold State.sinStations
  exact State.forAll_mem _ (fun n t => by split <;> simp [h]) 4 s

@[simp] theorem State.sinStations_holes (s : State) (x : Nat) (f : Nat → State → State) (h : ∀ n t,
    (f n t).holes = t.holes) :

    (s.sinStations x f).holes = s.holes := by
  unfold State.sinStations
  exact State.forAll_holes _ (fun n t => by split <;> simp [h]) 4 s

@[simp] theorem State.sinStations_mwf (s : State) (x : Nat) (f : Nat → State → State)
    (h : ∀ n t, twf memDefault t.mem = true → twf memDefault (f n t).mem = true) (hw : twf memDefault s.mem = true) :
    twf memDefault (s.sinStations x f).mem = true := by
  unfold State.sinStations
  exact State.forAll_mwf _ (fun n t ht => by split <;> simp [h, ht]) 4 s hw


@[simp] theorem State.sinLevel_keeps (s : State) (x : Nat) (trackB : Bool) (closed : Bool) :
    (State.sinLevel s x trackB closed).pending = s.pending ∧ (State.sinLevel s x trackB closed).mem = s.mem ∧
      (State.sinLevel s x trackB closed).holes = s.holes := by
  simp [State.sinLevel]

@[simp] theorem State.sinDemand_keeps (s : State) (x : Nat) : (s.sinDemand x).pending = s.pending ∧
    (s.sinDemand x).holes = s.holes := by
  unfold State.sinDemand
  split
  · exact ⟨rfl, rfl⟩
  · split
    · exact ⟨State.sinStations_pending _ _ _ (by simp), State.sinStations_holes _ _ _ (by simp)⟩
    · exact ⟨rfl, rfl⟩
  · exact ⟨State.sinStations_pending _ _ _ (by simp), State.sinStations_holes _ _ _ (by simp)⟩

@[simp] theorem State.sinDemand_mwf (s : State) (x : Nat) (hw : twf memDefault s.mem = true) :
    twf memDefault (s.sinDemand x).mem = true := by
  unfold State.sinDemand
  split
  · exact hw
  · split
    · exact State.sinStations_mwf _ _ _ (by simp +contextual) hw
    · exact hw
  · exact State.sinStations_mwf _ _ _ (by simp +contextual) hw


@[simp] theorem State.soutFault_keeps (s : State) (k : Nat) :
    (State.soutFault s k).pending = s.pending ∧ (State.soutFault s k).holes = s.holes := by
  simp [State.soutFault]

@[simp] theorem State.soutFault_mwf (s : State) (k : Nat) (hw : twf memDefault s.mem = true) :
    twf memDefault (State.soutFault s k).mem = true := by
  simp (maxDischargeDepth := 12) +contextual [State.soutFault, hw]

@[simp] theorem State.readback_keeps (s : State) (k : Nat) (srb : Bool) :
    (State.readback s k srb).pending = s.pending ∧ (State.readback s k srb).holes = s.holes := by
  simp [State.readback]

@[simp] theorem State.readback_mwf (s : State) (k : Nat) (srb : Bool) (hw : twf memDefault s.mem = true) :
    twf memDefault (State.readback s k srb).mem = true := by
  simp (maxDischargeDepth := 12) +contextual [State.readback, hw]

@[simp] theorem State.highboyHold_keeps (s : State) (n : Nat) (cause : Nat) :
    (State.highboyHold s n cause).pending = s.pending ∧ (State.highboyHold s n cause).holes = s.holes := by
  simp [State.highboyHold]

@[simp] theorem State.highboyHold_mwf (s : State) (n : Nat) (cause : Nat) (hw : twf memDefault s.mem = true) :
    twf memDefault (State.highboyHold s n cause).mem = true := by
  simp (maxDischargeDepth := 12) +contextual [State.highboyHold, hw]

@[simp] theorem State.monitorStop_keeps (s : State) (n : Nat) : (s.monitorStop n).pending = s.pending ∧
    (s.monitorStop n).holes = s.holes := by
  unfold State.monitorStop
  dsimp only
  repeat' split
  all_goals simp

@[simp] theorem State.monitorStop_mwf (s : State) (n : Nat) (hw : twf memDefault s.mem = true) :
    twf memDefault (s.monitorStop n).mem = true := by
  unfold State.monitorStop
  dsimp only
  repeat' split
  all_goals simp [hw]


@[simp] theorem State.crossCheck_keeps (s : State) (n : Nat) :
    (State.crossCheck s n).pending = s.pending ∧ (State.crossCheck s n).holes = s.holes := by
  simp only [State.crossCheck]
  repeat' (first | (simp; done) | split)

@[simp] theorem State.crossCheck_mwf (s : State) (n : Nat) (hw : twf memDefault s.mem = true) :
    twf memDefault (State.crossCheck s n).mem = true := by
  simp only [State.crossCheck]
  repeat' (first | (simp (maxDischargeDepth := 12) +contextual [hw]; done) | split)

@[simp] theorem State.settleStops_keeps (s : State) :
    (State.settleStops s).pending = s.pending ∧ (State.settleStops s).mem = s.mem ∧
      (State.settleStops s).holes = s.holes := by
  simp [State.settleStops]

@[simp] theorem State.requestSs1_keeps (s : State) (mask : Nat) :
    (State.requestSs1 s mask).pending = s.pending ∧ (State.requestSs1 s mask).holes = s.holes := by
  simp [State.requestSs1]

@[simp] theorem State.requestSs1_mwf (s : State) (mask : Nat) (hw : twf memDefault s.mem = true) :
    twf memDefault (State.requestSs1 s mask).mem = true := by
  simp (maxDischargeDepth := 12) +contextual [State.requestSs1, hw]

@[simp] theorem State.requestSto_keeps (s : State) (mask : Nat) :
    (State.requestSto s mask).pending = s.pending ∧ (State.requestSto s mask).holes = s.holes := by
  simp [State.requestSto]

@[simp] theorem State.requestSto_mwf (s : State) (mask : Nat) (hw : twf memDefault s.mem = true) :
    twf memDefault (State.requestSto s mask).mem = true := by
  simp (maxDischargeDepth := 12) +contextual [State.requestSto, hw]

@[simp] theorem State.requestRelease_keeps (s : State) (mask : Nat) (pathOk : Bool) :
    (State.requestRelease s mask pathOk).pending = s.pending ∧ (State.requestRelease s mask pathOk).mem = s.mem ∧
      (State.requestRelease s mask pathOk).holes = s.holes := by
  simp [State.requestRelease]

@[simp] theorem State.permitsReturn_keeps (s : State) (set : List Nat) :
    (State.permitsReturn s set).pending = s.pending ∧ (State.permitsReturn s set).holes = s.holes := by
  simp [State.permitsReturn]

@[simp] theorem State.permitsReturn_mwf (s : State) (set : List Nat) (hw : twf memDefault s.mem = true) :
    twf memDefault (State.permitsReturn s set).mem = true := by
  simp (maxDischargeDepth := 12) +contextual [State.permitsReturn, hw]

@[simp] theorem State.releaseRead_keeps (s : State) (set : List Nat) (srb : BitVec 8) :
    (s.releaseRead set srb).pending = s.pending ∧ (s.releaseRead set srb).holes = s.holes := by
  simp [State.releaseRead]

@[simp] theorem State.releaseRead_mwf (s : State) (set : List Nat) (srb : BitVec 8) (hw : twf memDefault s.mem = true) :
    twf memDefault (s.releaseRead set srb).mem = true := by
  have h1 : ∀ outs : List Nat, twf memDefault
      (outs.foldl (fun (t : State) k => t.onSout k (fun o => { o with srb := srb.getLsbD k })) s).mem = true :=
    fun outs => foldl_mwf _ (fun t x ht => by simpa using ht) outs s hw
  unfold State.releaseRead
  dsimp only
  split
  · exact State.permitsReturn_mwf _ _ (h1 _)
  · exact foldl_mwf _ (fun t k ht => State.soutFault_mwf _ _ ht) _ _ (by rw [(State.failRelease_keeps _ _).2.1]; exact h1 _)


end Sys2Proof.Machine
end

