-- ==== Sys2Proof/Laws/KeepsTrust.lean ====
section
/-! SUPPORT. What the definitions of Machine/Trust.lean leave of the queue and the memories. -/

namespace Sys2Proof.Machine

set_option linter.unusedTactic false

@[simp] theorem State.setFlashSlot_keeps (s : State) (b : Bool) (bs : List Byte) :
    (State.setFlashSlot s b bs).pending = s.pending ∧ (State.setFlashSlot s b bs).mem = s.mem ∧
      (State.setFlashSlot s b bs).holes = s.holes := by
  simp [State.setFlashSlot]

@[simp] theorem State.showVersions_keeps (s : State) :
    (State.showVersions s).pending = s.pending ∧ (State.showVersions s).mem = s.mem ∧
      (State.showVersions s).holes = s.holes := by
  simp [State.showVersions]

@[simp] theorem State.takeRecords_keeps (s : State) (l : List (Nat × Word)) :
    (State.takeRecords s l).pending = s.pending ∧ (State.takeRecords s l).mem = s.mem ∧
      (State.takeRecords s l).holes = s.holes := by
  simp [State.takeRecords]

@[simp] theorem State.onGen_keeps (s : State) (g : Nat) (f : Gen → Gen) :
    (State.onGen s g f).pending = s.pending ∧ (State.onGen s g f).mem = s.mem ∧
      (State.onGen s g f).holes = s.holes := by
  simp [State.onGen]

@[simp] theorem State.showOtp_keeps (s : State) (gen : Nat) (ovl : Bool) :
    (State.showOtp s gen ovl).pending = s.pending ∧ (State.showOtp s gen ovl).mem = s.mem ∧
      (State.showOtp s gen ovl).holes = s.holes := by
  simp [State.showOtp]

@[simp] theorem State.endBureau_keeps (s : State) :
    (State.endBureau s).pending = s.pending ∧ (State.endBureau s).mem = s.mem ∧
      (State.endBureau s).holes = s.holes := by
  simp only [State.endBureau]
  repeat' (first | (simp; done) | split)

@[simp] theorem State.setOverlay_keeps (s : State) (v : Nat) (l : List (Nat × Word)) (inForce : List (Nat × Word)) :
    (State.setOverlay s v l inForce).pending = s.pending ∧ (State.setOverlay s v l inForce).mem = s.mem ∧
      (State.setOverlay s v l inForce).holes = s.holes := by
  simp [State.setOverlay]

@[simp] theorem State.countersigned_keeps (s : State) (i : Nat) :
    (State.countersigned s i).pending = s.pending ∧ (State.countersigned s i).mem = s.mem ∧
      (State.countersigned s i).holes = s.holes := by
  simp only [State.countersigned]
  repeat' (first | (simp; done) | split)

@[simp] theorem State.countersign_keeps (s : State) (i : Nat) (supplyOk : Bool) :
    (State.countersign s i supplyOk).pending = s.pending ∧ (State.countersign s i supplyOk).mem = s.mem := by
  simp only [State.countersign]
  repeat' (first | (simp; done) | split)

@[simp] theorem State.countersign_hwf (s : State) (i : Nat) (supplyOk : Bool) (hw : twf holeDefault s.holes = true) :
    twf holeDefault (State.countersign s i supplyOk).holes = true := by
  simp only [State.countersign]
  repeat' (first | (simp (maxDischargeDepth := 12) +contextual [hw]; done) | split)

@[simp] theorem State.programChange_keeps (s : State) (r : BureauReq) :
    (State.programChange s r).pending = s.pending ∧ (State.programChange s r).mem = s.mem ∧
      (State.programChange s r).holes = s.holes := by
  simp only [State.programChange]
  repeat' (first | (simp; done) | split)

@[simp] theorem State.readOtp_keeps (s : State) :
    (State.readOtp s).2.pending = s.pending ∧ (State.readOtp s).2.mem = s.mem ∧
      (State.readOtp s).2.holes = s.holes := by
  simp [State.readOtp]

@[simp] theorem State.debugRequest_keeps (s : State) :
    (State.debugRequest s).pending = s.pending ∧ (State.debugRequest s).mem = s.mem ∧
      (State.debugRequest s).holes = s.holes := by
  simp [State.debugRequest]

@[simp] theorem State.debugRead_keeps (s : State) :
    (State.debugRead s).2.pending = s.pending ∧ (State.debugRead s).2.mem = s.mem ∧
      (State.debugRead s).2.holes = s.holes := by
  simp [State.debugRead]

@[simp] theorem State.debugUnlock_keeps (s : State) (sig : List Word) :
    (State.debugUnlock s sig).pending = s.pending ∧ (State.debugUnlock s sig).mem = s.mem ∧
      (State.debugUnlock s sig).holes = s.holes := by
  simp [State.debugUnlock]

@[simp] theorem State.debugWrite_keeps (s : State) (w : Word) :
    (State.debugWrite s w).pending = s.pending ∧ (State.debugWrite s w).mem = s.mem ∧
      (State.debugWrite s w).holes = s.holes := by
  simp [State.debugWrite]

@[simp] theorem State.debugClose_keeps (s : State) :
    (State.debugClose s).pending = s.pending ∧ (State.debugClose s).mem = s.mem ∧
      (State.debugClose s).holes = s.holes := by
  simp [State.debugClose]

end Sys2Proof.Machine
end

