-- ==== Sys2Proof/Laws/KeepsBoot.lean ====
section
/-! SUPPORT. What the definitions of Machine/Boot.lean leave of the queue and the memories. -/

namespace Sys2Proof.Machine

set_option linter.unusedTactic false

@[simp] theorem State.keepPins_keeps (s t : State) : (s.keepPins t).pending = t.pending ∧ (s.keepPins t).mem = t.mem ∧
    (s.keepPins t).holes = t.holes := by
  simp [State.keepPins]


@[simp] theorem State.enterReset_keeps (s : State) (cause : Nat) : (s.enterReset cause).pending = s.pending ∧
    (s.enterReset cause).mem = [] ∧ (s.enterReset cause).holes = [] := by
  simp [State.enterReset]


@[simp] theorem State.deviceReset_keeps (s : State) (cause : Nat) :
    (State.deviceReset s cause).pending = s.pending := by
  simp [State.deviceReset]

@[simp] theorem State.deviceReset_mwf (s : State) (cause : Nat) (hw : twf memDefault s.mem = true) :
    twf memDefault (State.deviceReset s cause).mem = true := by
  simp (maxDischargeDepth := 12) +contextual [State.deviceReset, hw]

@[simp] theorem State.deviceReset_hwf (s : State) (cause : Nat) (hw : twf holeDefault s.holes = true) :
    twf holeDefault (State.deviceReset s cause).holes = true := by
  simp (maxDischargeDepth := 12) +contextual [State.deviceReset, hw]

@[simp] theorem State.readVsel_keeps (s : State) :
    (State.readVsel s).pending = s.pending ∧ (State.readVsel s).mem = s.mem ∧ (State.readVsel s).holes = s.holes := by
  simp [State.readVsel]

@[simp] theorem State.selectSettings_keeps (s : State) :
    (State.selectSettings s).pending = s.pending ∧ (State.selectSettings s).mem = s.mem ∧
      (State.selectSettings s).holes = s.holes := by
  simp only [State.selectSettings]
  repeat' (first | (simp; done) | split)

@[simp] theorem State.applyOtp_keeps (s : State) (bid : BitVec 2) (wired : BitVec 3) :
    (State.applyOtp s bid wired).pending = s.pending ∧ (State.applyOtp s bid wired).mem = s.mem ∧
      (State.applyOtp s bid wired).holes = s.holes := by
  simp [State.applyOtp]

@[simp] theorem State.readBootRecord_keeps (s : State) :
    (State.readBootRecord s).pending = s.pending ∧ (State.readBootRecord s).mem = s.mem ∧
      (State.readBootRecord s).holes = s.holes := by
  simp [State.readBootRecord]

@[simp] theorem State.bootVcore_keeps (s : State) (vread : Option (BitVec 16)) :
    (State.bootVcore s vread).pending = s.pending ∧ (State.bootVcore s vread).mem = s.mem ∧
      (State.bootVcore s vread).holes = s.holes := by
  simp only [State.bootVcore]
  repeat' (first | (simp; done) | split)

@[simp] theorem State.firstAnswer_keeps (s : State) :
    (State.firstAnswer s).pending = s.pending ∧ (State.firstAnswer s).mem = s.mem ∧
      (State.firstAnswer s).holes = s.holes := by
  simp [State.firstAnswer]

@[simp] theorem State.acceptSlot_keeps (s : State) (b : Bool) :
    (State.acceptSlot s b).pending = s.pending ∧ (State.acceptSlot s b).mem = s.mem ∧
      (State.acceptSlot s b).holes = s.holes := by
  simp [State.acceptSlot]

@[simp] theorem State.startMonitor_keeps (s : State) :
    (State.startMonitor s).pending = s.pending ∧ (State.startMonitor s).mem = s.mem ∧
      (State.startMonitor s).holes = s.holes := by
  simp [State.startMonitor]

@[simp] theorem State.mgmtRestart_keeps (s : State) (activation : Bool) :
    (State.mgmtRestart s activation).pending = s.pending ∧ (State.mgmtRestart s activation).mem = s.mem ∧
      (State.mgmtRestart s activation).holes = s.holes := by
  simp [State.mgmtRestart]

@[simp] theorem State.restartOn_keeps (s : State) (b : Bool) :
    (State.restartOn s b).pending = s.pending ∧ (State.restartOn s b).mem = s.mem ∧
      (State.restartOn s b).holes = s.holes := by
  simp [State.restartOn]

@[simp] theorem State.activate_keeps (s : State) (b : Bool) :
    (State.activate s b).pending = s.pending ∧ (State.activate s b).mem = s.mem ∧
      (State.activate s b).holes = s.holes := by
  simp [State.activate]

@[simp] theorem State.withStaged_pending (s : State) (i ofs len : Nat) (hash : List Byte) (f : List Byte → State)
    (h : ∀ l, (f l).pending = s.pending) :

    (s.withStaged i ofs len hash f).pending = s.pending := by
  unfold State.withStaged
  repeat' split
  all_goals simp [h]

@[simp] theorem State.withStaged_mem (s : State) (i ofs len : Nat) (hash : List Byte) (f : List Byte → State)
    (h : ∀ l, (f l).mem = s.mem) :

    (s.withStaged i ofs len hash f).mem = s.mem := by
  unfold State.withStaged
  repeat' split
  all_goals simp [h]

@[simp] theorem State.withStaged_mwf (s : State) (i ofs len : Nat) (hash : List Byte) (f : List Byte → State)
    (hw : twf memDefault s.mem = true) (h : ∀ l, twf memDefault (f l).mem = true) :

    twf memDefault (s.withStaged i ofs len hash f).mem = true := by
  unfold State.withStaged
  repeat' split
  all_goals simp [h, hw]

@[simp] theorem State.withStaged_hwf (s : State) (i ofs len : Nat) (hash : List Byte) (f : List Byte → State)
    (hw : twf holeDefault s.holes = true) (h : ∀ l, twf holeDefault (f l).holes = true) :

    twf holeDefault (s.withStaged i ofs len hash f).holes = true := by
  unfold State.withStaged
  repeat' split
  all_goals simp [h, hw]


@[simp] theorem State.stageFirmware_keeps (s : State) (bs : List Byte) :
    (State.stageFirmware s bs).pending = s.pending ∧ (State.stageFirmware s bs).mem = s.mem ∧
      (State.stageFirmware s bs).holes = s.holes := by
  simp [State.stageFirmware]

end Sys2Proof.Machine
end

