-- ==== Sys2Proof/Laws/KeepsConverters.lean ====
section
/-! SUPPORT. What the definitions of Machine/Converters.lean leave of the queue and the memories. -/

namespace Sys2Proof.Machine

@[simp] theorem State.writeGo_keeps (s : State) (w : Word) :
    (State.writeGo s w).pending = s.pending ∧ (State.writeGo s w).mem = s.mem ∧
      (State.writeGo s w).holes = s.holes := by
  simp [State.writeGo]

@[simp] theorem State.writeUrg_keeps (s : State) (k : Nat) (w : Word) (go : Bool) :
    (State.writeUrg s k w go).pending = s.pending ∧ (State.writeUrg s k w go).mem = s.mem ∧
      (State.writeUrg s k w go).holes = s.holes := by
  simp [State.writeUrg]

@[simp] theorem State.writeEndCover_keeps (s : State) :
    (State.writeEndCover s).pending = s.pending ∧ (State.writeEndCover s).mem = s.mem ∧
      (State.writeEndCover s).holes = s.holes := by
  simp [State.writeEndCover]

@[simp] theorem State.sdmOut_keeps (s : State) (c : Nat) (bits : List Bool) :
    (State.sdmOut s c bits).pending = s.pending ∧ (State.sdmOut s c bits).mem = s.mem ∧
      (State.sdmOut s c bits).holes = s.holes := by
  simp [State.sdmOut]

end Sys2Proof.Machine
end

