-- ==== Sys2Proof/Laws/KeepsGates.lean ====
section
/-! SUPPORT. What the definitions of Machine/Gates.lean leave of the queue and the memories. -/

namespace Sys2Proof.Machine

set_option linter.unusedTactic false

@[simp] theorem State.pulseEdge_keeps (s : State) (n : Nat) (k : Nat) :
    (State.pulseEdge s n k).pending = s.pending ∧ (State.pulseEdge s n k).mem = s.mem ∧
      (State.pulseEdge s n k).holes = s.holes := by
  simp [State.pulseEdge]

@[simp] theorem State.setMask_keeps (s : State) (n : Nat) (idx : BitVec 3) :
    (State.setMask s n idx).pending = s.pending ∧ (State.setMask s n idx).holes = s.holes := by
  simp [State.setMask]

@[simp] theorem State.setMask_mwf (s : State) (n : Nat) (idx : BitVec 3) (hw : twf memDefault s.mem = true) :
    twf memDefault (State.setMask s n idx).mem = true := by
  simp (maxDischargeDepth := 12) +contextual [State.setMask, hw]

@[simp] theorem State.commutate_keeps (s : State) (n : Nat) :
    (State.commutate s n).pending = s.pending ∧ (State.commutate s n).holes = s.holes := by
  simp only [State.commutate]
  repeat' (first | (simp; done) | split)

@[simp] theorem State.commutate_mwf (s : State) (n : Nat) (hw : twf memDefault s.mem = true) :
    twf memDefault (State.commutate s n).mem = true := by
  simp only [State.commutate]
  repeat' (first | (simp (maxDischargeDepth := 12) +contextual [hw]; done) | split)

@[simp] theorem State.filterOut_keeps (s : State) (n : Nat) (k : Nat) :
    (State.filterOut s n k).pending = s.pending ∧ (State.filterOut s n k).mem = s.mem ∧
      (State.filterOut s n k).holes = s.holes := by
  simp only [State.filterOut]
  repeat' (first | (simp; done) | split)

@[simp] theorem State.toggleHb_keeps (s : State) (n : Nat) (k : Nat) (was : Bool) (new : Bool) :
    (State.toggleHb s n k was new).pending = s.pending ∧ (State.toggleHb s n k was new).mem = s.mem ∧
      (State.toggleHb s n k was new).holes = s.holes := by
  simp only [State.toggleHb]
  repeat' (first | (simp; done) | split)

@[simp] theorem State.writeHbEn_keeps (s : State) (n : Nat) (w : Word) :
    (State.writeHbEn s n w).pending = s.pending ∧ (State.writeHbEn s n w).holes = s.holes := by
  simp [State.writeHbEn]

@[simp] theorem State.writeHbEn_mwf (s : State) (n : Nat) (w : Word) (hw : twf memDefault s.mem = true) :
    twf memDefault (State.writeHbEn s n w).mem = true := by
  simp (maxDischargeDepth := 12) +contextual [State.writeHbEn, hw]

@[simp] theorem State.writeTest_keeps (s : State) (n : Nat) (w : Word) :
    (State.writeTest s n w).pending = s.pending ∧ (State.writeTest s n w).mem = s.mem ∧
      (State.writeTest s n w).holes = s.holes := by
  simp [State.writeTest]

end Sys2Proof.Machine
end

