-- ==== Sys2Proof/Laws/KeepsInputs.lean ====
section
/-! SUPPORT. What the definitions of Machine/Inputs.lean leave of the queue and the memories. -/

namespace Sys2Proof.Machine

@[simp] theorem State.readDmem_keeps (s : State) (e : Nat) :
    (State.readDmem s e).pending = s.pending ∧ (State.readDmem s e).mem = s.mem ∧
      (State.readDmem s e).holes = s.holes := by
  simp [State.readDmem]

@[simp] theorem State.readExecMax_keeps (s : State) (e : Nat) (n : Nat) :
    (State.readExecMax s e n).pending = s.pending ∧ (State.readExecMax s e n).mem = s.mem ∧
      (State.readExecMax s e n).holes = s.holes := by
  simp [State.readExecMax]

@[simp] theorem State.writeInCfg_keeps (s : State) (i : Nat) (w : Word) :
    (State.writeInCfg s i w).pending = s.pending ∧ (State.writeInCfg s i w).mem = s.mem ∧
      (State.writeInCfg s i w).holes = s.holes := by
  simp [State.writeInCfg]

end Sys2Proof.Machine
end

