-- ==== Sys2Proof/Laws/KeepsImages.lean ====
section
/-! SUPPORT. What the definitions of Machine/Images.lean leave of the queue and the memories. -/

namespace Sys2Proof.Machine

set_option linter.unusedTactic false

@[simp] theorem State.loadImage_keeps (s : State) (i : Image) :
    (State.loadImage s i).pending = s.pending ∧ (State.loadImage s i).mem = s.mem ∧
      (State.loadImage s i).holes = s.holes := by
  simp [State.loadImage]

@[simp] theorem State.writeStateWord_keeps (s : State) (w : Nat) (v : Word) :
    (State.writeStateWord s w v).pending = s.pending ∧ (State.writeStateWord s w v).mem = s.mem ∧
      (State.writeStateWord s w v).holes = s.holes := by
  simp only [State.writeStateWord]
  repeat' (first | (simp; done) | split)

end Sys2Proof.Machine
end

