-- ==== Sys2Proof/Laws/KeepsCvu.lean ====
section
/-! SUPPORT. What the definitions of Machine/Cvu.lean leave of the queue and the memories. -/

namespace Sys2Proof.Machine

set_option linter.unusedTactic false

@[simp] theorem State.cvuFlush_keeps (s : State) (u : Nat) :
    (State.cvuFlush s u).pending = s.pending ∧ (State.cvuFlush s u).mem = s.mem ∧
      (State.cvuFlush s u).holes = s.holes := by
  simp [State.cvuFlush]

@[simp] theorem State.cvuRefuse_keeps (s : State) (u : Nat) :
    (State.cvuRefuse s u).pending = s.pending ∧ (State.cvuRefuse s u).mem = s.mem ∧
      (State.cvuRefuse s u).holes = s.holes := by
  simp [State.cvuRefuse]

@[simp] theorem State.cvuWrite_pending (s : State) (u : Nat) (f : State → State) (h : ∀ t, (f t).pending = t.pending) :
    (s.cvuWrite u f).pending = s.pending := by
  unfold State.cvuWrite
  split <;> simp [h]

@[simp] theorem State.cvuWrite_mem (s : State) (u : Nat) (f : State → State) (h : ∀ t, (f t).mem = t.mem) :
    (s.cvuWrite u f).mem = s.mem := by
  unfold State.cvuWrite
  split <;> simp [h]

@[simp] theorem State.cvuWrite_holes (s : State) (u : Nat) (f : State → State) (h : ∀ t, (f t).holes = t.holes) :
    (s.cvuWrite u f).holes = s.holes := by
  unfold State.cvuWrite
  split <;> simp [h]


@[simp] theorem State.cvuFeed_keeps (s : State) (u : Nat) (n : Nat) (w : Word) :
    (State.cvuFeed s u n w).pending = s.pending ∧ (State.cvuFeed s u n w).mem = s.mem ∧
      (State.cvuFeed s u n w).holes = s.holes := by
  simp [State.cvuFeed]

@[simp] theorem State.cvuLoadInit_keeps (s : State) (u : Nat) :
    (State.cvuLoadInit s u).pending = s.pending ∧ (State.cvuLoadInit s u).mem = s.mem ∧
      (State.cvuLoadInit s u).holes = s.holes := by
  simp [State.cvuLoadInit]

@[simp] theorem State.setCvuHeld_keeps (s : State) (u : Nat) (k : Nat) (w : Word) :
    (State.setCvuHeld s u k w).pending = s.pending ∧ (State.setCvuHeld s u k w).mem = s.mem ∧
      (State.setCvuHeld s u k w).holes = s.holes := by
  simp [State.setCvuHeld]

@[simp] theorem State.cvuWriteLo_keeps (s : State) (u : Nat) (k : Nat) (w : Word) :
    (State.cvuWriteLo s u k w).pending = s.pending ∧ (State.cvuWriteLo s u k w).mem = s.mem ∧
      (State.cvuWriteLo s u k w).holes = s.holes := by
  simp [State.cvuWriteLo]

@[simp] theorem State.cvuWriteHi_keeps (s : State) (u : Nat) (k : Nat) (hi : Word) :
    (State.cvuWriteHi s u k hi).pending = s.pending ∧ (State.cvuWriteHi s u k hi).mem = s.mem ∧
      (State.cvuWriteHi s u k hi).holes = s.holes := by
  simp only [State.cvuWriteHi]
  repeat' (first | (simp; done) | split)

@[simp] theorem State.cvuReadLo_keeps (s : State) (u : Nat) (k : Nat) :
    (State.cvuReadLo s u k).pending = s.pending ∧ (State.cvuReadLo s u k).mem = s.mem ∧
      (State.cvuReadLo s u k).holes = s.holes := by
  simp [State.cvuReadLo]

@[simp] theorem State.cvuReadHi_keeps (s : State) (u : Nat) (k : Nat) :
    (State.cvuReadHi s u k).2.pending = s.pending ∧ (State.cvuReadHi s u k).2.mem = s.mem ∧
      (State.cvuReadHi s u k).2.holes = s.holes := by
  simp only [State.cvuReadHi]
  repeat' (first | (simp; done) | split)

end Sys2Proof.Machine
end

