-- ==== Sys2Proof/Laws/KeepsDma.lean ====
section
/-! SUPPORT. What the definitions of Machine/Dma.lean leave of the queue and the memories. -/

namespace Sys2Proof.Machine

set_option linter.unusedTactic false

@[simp] theorem State.setChState_keeps (s : State) (n : Nat) (k : Nat) :
    (State.setChState s n k).pending = s.pending ∧ (State.setChState s n k).mem = s.mem ∧
      (State.setChState s n k).holes = s.holes := by
  simp [State.setChState]

@[simp] theorem State.issueOne_keeps (s : State) (n : Nat) :
    (State.issueOne s n).pending = s.pending ∧ (State.issueOne s n).mem = s.mem ∧
      (State.issueOne s n).holes = s.holes := by
  simp [State.issueOne]

theorem stallAll_keeps (s : State) (l : List Nat) :
    let u := l.foldl (fun (t : State) n =>
      if t.wantsRead n && !(t.chOf n).stalled then
        ((t.onCh n (fun c => { c with stalled := true })).count DMA_CNT_BURST_STALL_CNT).setFlag DMA_FLAGS_BURST_STALL
      else t) s
    u.pending = s.pending ∧ u.mem = s.mem ∧ u.holes = s.holes := by
  dsimp only
  exact ⟨foldl_pending _ (fun t i => by split <;> simp) _ _, foldl_mem _ (fun t i => by split <;> simp) _ _,
    foldl_holes _ (fun t i => by split <;> simp) _ _⟩

@[simp] theorem State.issueReads_keeps (k : Nat) (s : State) : (State.issueReads k s).pending = s.pending ∧
    (State.issueReads k s).mem = s.mem ∧ (State.issueReads k s).holes = s.holes := by
  induction k generalizing s with
  | zero => exact ⟨rfl, rfl, rfl⟩
  | succ k ih =>
    unfold State.issueReads
    split
    · exact ⟨rfl, rfl, rfl⟩
    · split
      · exact ⟨rfl, rfl, rfl⟩
      · split
        · simp [ih]
        · exact stallAll_keeps s _


@[simp] theorem State.issue_keeps (s : State) :
    (State.issue s).pending = s.pending ∧ (State.issue s).mem = s.mem ∧ (State.issue s).holes = s.holes := by
  simp [State.issue]

@[simp] theorem State.bindUnit_keeps (s : State) (n : Nat) (u : Nat) (load : Bool) :
    (State.bindUnit s n u load).pending = s.pending ∧ (State.bindUnit s n u load).mem = s.mem ∧
      (State.bindUnit s n u load).holes = s.holes := by
  simp [State.bindUnit]

@[simp] theorem State.unbind_keeps (s : State) (n : Nat) :
    (State.unbind s n).pending = s.pending ∧ (State.unbind s n).mem = s.mem ∧ (State.unbind s n).holes = s.holes := by
  simp only [State.unbind]
  repeat' (first | (simp; done) | split)

@[simp] theorem State.bindDesc_keeps (s : State) (n : Nat) (d : Desc) :
    (State.bindDesc s n d).pending = s.pending ∧ (State.bindDesc s n d).mem = s.mem ∧
      (State.bindDesc s n d).holes = s.holes := by
  simp only [State.bindDesc]
  repeat' (first | (simp; done) | split)

@[simp] theorem State.fetchDesc_keeps (s : State) (n : Nat) (a : Nat) :
    (State.fetchDesc s n a).pending = s.pending ∧ (State.fetchDesc s n a).mem = s.mem ∧
      (State.fetchDesc s n a).holes = s.holes := by
  simp [State.fetchDesc]

@[simp] theorem State.dmaStart_keeps (s : State) (n : Nat) :
    (State.dmaStart s n).pending = s.pending ∧ (State.dmaStart s n).mem = s.mem ∧
      (State.dmaStart s n).holes = s.holes := by
  simp only [State.dmaStart]
  repeat' (first | (simp; done) | split)

@[simp] theorem State.dmaStop_keeps (s : State) (n : Nat) :
    (State.dmaStop s n).pending = s.pending ∧ (State.dmaStop s n).mem = s.mem ∧
      (State.dmaStop s n).holes = s.holes := by
  simp [State.dmaStop]

@[simp] theorem State.drainOne_keeps (s : State) :
    (State.drainOne s).pending = s.pending ∧ (State.drainOne s).mem = s.mem ∧ (State.drainOne s).holes = s.holes := by
  simp [State.drainOne]

@[simp] theorem State.fetchDone_keeps (s : State) (n : Nat) :
    (State.fetchDone s n).pending = s.pending ∧ (State.fetchDone s n).mem = s.mem ∧
      (State.fetchDone s n).holes = s.holes := by
  simp only [State.fetchDone]
  repeat' (first | (simp; done) | split)

@[simp] theorem State.descComplete_keeps (s : State) (n : Nat) (d : Desc) :
    (State.descComplete s n d).pending = s.pending ∧ (State.descComplete s n d).holes = s.holes := by
  simp [State.descComplete]

@[simp] theorem State.descComplete_mwf (s : State) (n : Nat) (d : Desc) (hw : twf memDefault s.mem = true) :
    twf memDefault (State.descComplete s n d).mem = true := by
  simp (maxDischargeDepth := 12) +contextual [State.descComplete, hw]

@[simp] theorem State.descCheck_keeps (s : State) (n : Nat) :
    (State.descCheck s n).pending = s.pending ∧ (State.descCheck s n).holes = s.holes := by
  simp only [State.descCheck]
  repeat' (first | (simp; done) | split)

@[simp] theorem State.descCheck_mwf (s : State) (n : Nat) (hw : twf memDefault s.mem = true) :
    twf memDefault (State.descCheck s n).mem = true := by
  simp only [State.descCheck]
  repeat' (first | (simp (maxDischargeDepth := 12) +contextual [hw]; done) | split)

@[simp] theorem State.moveElement_keeps (s : State) (n : Nat) (d : Desc) (i : Nat) :
    (State.moveElement s n d i).pending = s.pending ∧ (State.moveElement s n d i).holes = s.holes := by
  simp only [State.moveElement]
  repeat' (first | (simp; done) | split)

@[simp] theorem State.moveElement_mwf (s : State) (n : Nat) (d : Desc) (i : Nat) (hw : twf memDefault s.mem = true) :
    twf memDefault (State.moveElement s n d i).mem = true := by
  simp only [State.moveElement]
  repeat' (first | (simp (maxDischargeDepth := 12) +contextual [hw]; done) | split)

@[simp] theorem State.burstReturn_keeps (s : State) (n : Nat) :
    (State.burstReturn s n).pending = s.pending ∧ (State.burstReturn s n).holes = s.holes := by
  simp only [State.burstReturn]
  repeat' (first | (simp; done) | split)

@[simp] theorem State.burstReturn_mwf (s : State) (n : Nat) (hw : twf memDefault s.mem = true) :
    twf memDefault (State.burstReturn s n).mem = true := by
  simp only [State.burstReturn]
  repeat' (first | (simp (maxDischargeDepth := 12) +contextual [hw]; done) | split)

@[simp] theorem State.writeReturn_keeps (s : State) (n : Nat) :
    (State.writeReturn s n).pending = s.pending ∧ (State.writeReturn s n).holes = s.holes := by
  simp [State.writeReturn]

@[simp] theorem State.writeReturn_mwf (s : State) (n : Nat) (hw : twf memDefault s.mem = true) :
    twf memDefault (State.writeReturn s n).mem = true := by
  simp (maxDischargeDepth := 12) +contextual [State.writeReturn, hw]

@[simp] theorem State.haltChannel_keeps (s : State) (n : Nat) :
    (State.haltChannel s n).pending = s.pending ∧ (State.haltChannel s n).mem = s.mem ∧
      (State.haltChannel s n).holes = s.holes := by
  simp [State.haltChannel]

@[simp] theorem State.haltAll_keeps (s : State) :
    (State.haltAll s).pending = s.pending ∧ (State.haltAll s).mem = s.mem ∧ (State.haltAll s).holes = s.holes := by
  simp [State.haltAll]

@[simp] theorem State.dmaError_keeps (s : State) (kind : Nat) (n : Nat) (lastBeat : Bool) (addr : Word) :
    (State.dmaError s kind n lastBeat addr).pending = s.pending ∧ (State.dmaError s kind n lastBeat addr).mem = s.mem ∧
      (State.dmaError s kind n lastBeat addr).holes = s.holes := by
  simp [State.dmaError]

@[simp] theorem State.clearHalt_keeps (s : State) :
    (State.clearHalt s).pending = s.pending ∧ (State.clearHalt s).mem = s.mem ∧
      (State.clearHalt s).holes = s.holes := by
  simp [State.clearHalt]

end Sys2Proof.Machine
end

