-- ==== Sys2Proof/Laws/KeepsPower.lean ====
section
/-! SUPPORT. What the definitions of Machine/Power.lean leave of the queue and the memories. -/

namespace Sys2Proof.Machine

set_option linter.unusedTactic false

@[simp] theorem State.setPllLost_keeps (s : State) (p : Nat) (b : Bool) :
    (State.setPllLost s p b).pending = s.pending ∧ (State.setPllLost s p b).mem = s.mem ∧
      (State.setPllLost s p b).holes = s.holes := by
  simp [State.setPllLost]

@[simp] theorem State.bothLost_keeps (s : State) :
    (State.bothLost s).pending = s.pending ∧ (State.bothLost s).holes = s.holes := by
  simp [State.bothLost]

@[simp] theorem State.bothLost_mwf (s : State) (hw : twf memDefault s.mem = true) :
    twf memDefault (State.bothLost s).mem = true := by
  simp (maxDischargeDepth := 12) +contextual [State.bothLost, hw]

@[simp] theorem State.losePll_keeps (s : State) (p : Nat) :
    (State.losePll s p).pending = s.pending ∧ (State.losePll s p).holes = s.holes := by
  simp [State.losePll]

@[simp] theorem State.losePll_mwf (s : State) (p : Nat) (hw : twf memDefault s.mem = true) :
    twf memDefault (State.losePll s p).mem = true := by
  simp (maxDischargeDepth := 12) +contextual [State.losePll, hw]

@[simp] theorem State.startBuildout_keeps (s : State) :
    (State.startBuildout s).pending = s.pending ∧ (State.startBuildout s).mem = s.mem ∧
      (State.startBuildout s).holes = s.holes := by
  simp [State.startBuildout]

@[simp] theorem State.digLocks_keeps (s : State) (p : Nat) :
    (State.digLocks s p).pending = s.pending ∧ (State.digLocks s p).mem = s.mem ∧
      (State.digLocks s p).holes = s.holes := by
  simp [State.digLocks]

@[simp] theorem State.writePhaseStep_keeps (s : State) (p : Nat) (steps : Nat) :
    (State.writePhaseStep s p steps).pending = s.pending ∧ (State.writePhaseStep s p steps).mem = s.mem ∧
      (State.writePhaseStep s p steps).holes = s.holes := by
  simp [State.writePhaseStep]

@[simp] theorem State.nextSlew_keeps (s : State) (p : Nat) :
    (State.nextSlew s p).pending = s.pending ∧ (State.nextSlew s p).mem = s.mem ∧
      (State.nextSlew s p).holes = s.holes := by
  simp [State.nextSlew]

@[simp] theorem State.stepMade_keeps (s : State) (p : Nat) :
    (State.stepMade s p).pending = s.pending ∧ (State.stepMade s p).mem = s.mem ∧
      (State.stepMade s p).holes = s.holes := by
  simp [State.stepMade]

@[simp] theorem State.refReturns_keeps (s : State) (good : Bool) :
    (State.refReturns s good).pending = s.pending ∧ (State.refReturns s good).mem = s.mem ∧
      (State.refReturns s good).holes = s.holes := by
  simp [State.refReturns]

@[simp] theorem State.pollStatus_keeps (s : State) (crcOk : Bool) (vdone : Bool) (vread : Nat) :
    (State.pollStatus s crcOk vdone vread).pending = s.pending ∧ (State.pollStatus s crcOk vdone vread).mem = s.mem ∧
      (State.pollStatus s crcOk vdone vread).holes = s.holes := by
  simp only [State.pollStatus]
  repeat' (first | (simp; done) | split)

@[simp] theorem State.resumeClock_keeps (s : State) :
    (State.resumeClock s).pending = s.pending ∧ (State.resumeClock s).mem = s.mem ∧
      (State.resumeClock s).holes = s.holes := by
  simp [State.resumeClock]

@[simp] theorem State.abandonRetain_keeps (s : State) :
    (State.abandonRetain s).pending = s.pending ∧ (State.abandonRetain s).mem = s.mem ∧
      (State.abandonRetain s).holes = s.holes := by
  simp [State.abandonRetain]

@[simp] theorem State.takeWake_keeps (s : State) (i : Nat) :
    (State.takeWake s i).pending = s.pending ∧ (State.takeWake s i).mem = s.mem ∧
      (State.takeWake s i).holes = s.holes := by
  simp [State.takeWake]

@[simp] theorem State.enterRetain_keeps (s : State) :
    (State.enterRetain s).pending = s.pending ∧ (State.enterRetain s).holes = s.holes := by
  simp [State.enterRetain]

@[simp] theorem State.enterRetain_mwf (s : State) (hw : twf memDefault s.mem = true) :
    twf memDefault (State.enterRetain s).mem = true := by
  simp (maxDischargeDepth := 12) +contextual [State.enterRetain, hw]

@[simp] theorem State.beginWake_keeps (s : State) :
    (State.beginWake s).pending = s.pending ∧ (State.beginWake s).mem = s.mem ∧
      (State.beginWake s).holes = s.holes := by
  simp [State.beginWake]

@[simp] theorem State.powerDown_keeps (s : State) :
    (State.powerDown s).pending = s.pending ∧ (State.powerDown s).mem = s.mem ∧
      (State.powerDown s).holes = s.holes := by
  simp [State.powerDown]

@[simp] theorem State.clocksNormal_keeps (s : State) :
    (State.clocksNormal s).pending = s.pending ∧ (State.clocksNormal s).mem = s.mem ∧
      (State.clocksNormal s).holes = s.holes := by
  simp [State.clocksNormal]

@[simp] theorem State.recordWake_keeps (s : State) (src : Nat) (q : Nat) :
    (State.recordWake s src q).pending = s.pending ∧ (State.recordWake s src q).mem = s.mem ∧
      (State.recordWake s src q).holes = s.holes := by
  simp only [State.recordWake]
  repeat' (first | (simp; done) | split)

@[simp] theorem State.resetWindows_keeps (s : State) (lo : Nat) (hi : Nat) :
    (State.resetWindows s lo hi).pending = s.pending ∧ (State.resetWindows s lo hi).mem = s.mem ∧
      (State.resetWindows s lo hi).holes = s.holes := by
  simp [State.resetWindows]

@[simp] theorem State.blankMemory_keeps (s : State) (lo hi : Nat) : (s.blankMemory lo hi).pending = s.pending ∧
    (s.blankMemory lo hi).holes = s.holes := ⟨rfl, rfl⟩

@[simp] theorem State.blankMemory_mwf (s : State) (lo hi : Nat) (hw : twf memDefault s.mem = true) :
    twf memDefault (s.blankMemory lo hi).mem = true := twf_filter _ _ _ hw


@[simp] theorem State.resetBank_keeps (s : State) (b : Nat) :
    (State.resetBank s b).pending = s.pending ∧ (State.resetBank s b).holes = s.holes := by
  simp only [State.resetBank]
  repeat' (first | (simp; done) | split)

@[simp] theorem State.resetBank_mwf (s : State) (b : Nat) (hw : twf memDefault s.mem = true) :
    twf memDefault (State.resetBank s b).mem = true := by
  simp only [State.resetBank]
  repeat' (first | (simp (maxDischargeDepth := 12) +contextual [hw]; done) | split)

end Sys2Proof.Machine
end

