-- ==== Sys2Proof/Laws/KeepsSlk.lean ====
section
/-! SUPPORT. What the definitions of Machine/Slk.lean leave of the queue and the memories. -/

namespace Sys2Proof.Machine

set_option linter.unusedTactic false

@[simp] theorem State.slkTrain_keeps (s : State) (p : Nat) :
    (State.slkTrain s p).pending = s.pending ∧ (State.slkTrain s p).mem = s.mem ∧
      (State.slkTrain s p).holes = s.holes := by
  simp [State.slkTrain]

@[simp] theorem State.slkImageNext_keeps (s : State) (j : Nat) (target : Nat) (kind : Nat) (ofs : Nat) (len : Nat) :
    (State.slkImageNext s j target kind ofs len).pending = s.pending ∧
      (State.slkImageNext s j target kind ofs len).mem = s.mem ∧
      (State.slkImageNext s j target kind ofs len).holes = s.holes := by
  simp [State.slkImageNext]

@[simp] theorem State.slkBegin_keeps (s : State) (j : Nat) :
    (State.slkBegin s j).pending = s.pending ∧ (State.slkBegin s j).mem = s.mem ∧
      (State.slkBegin s j).holes = s.holes := by
  simp only [State.slkBegin]
  repeat' (first | (simp; done) | split)

@[simp] theorem State.slkAdvance_keeps (s : State) (j : Nat) :
    (State.slkAdvance s j).pending = s.pending ∧ (State.slkAdvance s j).mem = s.mem ∧
      (State.slkAdvance s j).holes = s.holes := by
  simp [State.slkAdvance]

@[simp] theorem State.slkRefusal_pending (s : State) (i kind : Nat) (f : State) (h : f.pending = s.pending) :
    (s.slkRefusal i kind f).pending = s.pending := by
  unfold State.slkRefusal
  repeat' split
  all_goals simp [h]

@[simp] theorem State.slkRefusal_mem (s : State) (i kind : Nat) (f : State) (h : f.mem = s.mem) :
    (s.slkRefusal i kind f).mem = s.mem := by
  unfold State.slkRefusal
  repeat' split
  all_goals simp [h]

@[simp] theorem State.slkRefusal_mwf (s : State) (i kind : Nat) (f : State) (hw : twf memDefault s.mem = true)
    (h : twf memDefault f.mem = true) :

    twf memDefault (s.slkRefusal i kind f).mem = true := by
  unfold State.slkRefusal
  repeat' split
  all_goals simp [h, hw]

@[simp] theorem State.slkRefusal_hwf (s : State) (i kind : Nat) (f : State) (hw : twf holeDefault s.holes = true)
    (h : twf holeDefault f.holes = true) :

    twf holeDefault (s.slkRefusal i kind f).holes = true := by
  unfold State.slkRefusal
  repeat' split
  all_goals simp [h, hw]


@[simp] theorem State.slkStartJob_keeps (s : State) (i : Nat) (k : JobKind) (todo : List Nat) :
    (State.slkStartJob s i k todo).pending = s.pending ∧ (State.slkStartJob s i k todo).mem = s.mem := by
  simp only [State.slkStartJob]
  repeat' (first | (simp; done) | split)

@[simp] theorem State.slkStartJob_hwf (s : State) (i : Nat) (k : JobKind) (todo : List Nat)
    (hw : twf holeDefault s.holes = true) :
    twf holeDefault (State.slkStartJob s i k todo).holes = true := by
  simp only [State.slkStartJob]
  repeat' (first | (simp (maxDischargeDepth := 12) +contextual [hw]; done) | split)

theorem upAgainJob_keeps (p j : Nat) (t : State) :
    let u := match (t.jobOf j).kind with
      | .recover target .. =>
        if t.jobRuns j && (t.jobOf j).waitUp && t.fld (SLK_PORT_PEER p) == target then t.slkAdvance j else t
      | _ => t
    u.pending = t.pending ∧ u.mem = t.mem ∧ u.holes = t.holes := by
  dsimp only
  repeat' split
  all_goals simp

@[simp] theorem State.slkUpAgain_keeps (s : State) (p : Nat) : (s.slkUpAgain p).pending = s.pending ∧
    (s.slkUpAgain p).mem = s.mem ∧ (s.slkUpAgain p).holes = s.holes :=
  ⟨State.forAll_pending _ (fun j t => (upAgainJob_keeps p j t).1) 4 s, State.forAll_mem _ (fun j t => (upAgainJob_keeps p j t).2.1) 4 s,
    State.forAll_holes _ (fun j t => (upAgainJob_keeps p j t).2.2) 4 s⟩


@[simp] theorem State.slkAccepted_keeps (s : State) (j : Nat) (p : Nat) :
    (State.slkAccepted s j p).pending = s.pending ∧ (State.slkAccepted s j p).mem = s.mem ∧
      (State.slkAccepted s j p).holes = s.holes := by
  simp only [State.slkAccepted]
  repeat' (first | (simp; done) | split)

@[simp] theorem State.slkAcked_keeps (s : State) (p : Nat) (q : Nat) :
    (State.slkAcked s p q).pending = s.pending ∧ (State.slkAcked s p q).mem = s.mem ∧
      (State.slkAcked s p q).holes = s.holes := by
  simp only [State.slkAcked]
  repeat' (first | (simp; done) | split)

@[simp] theorem State.slkOperationFails_keeps (s : State) (k : SlkPacket) :
    (State.slkOperationFails s k).pending = s.pending ∧ (State.slkOperationFails s k).mem = s.mem ∧
      (State.slkOperationFails s k).holes = s.holes := by
  simp only [State.slkOperationFails]
  repeat' (first | (simp; done) | split)

@[simp] theorem State.slkRepeat_keeps (s : State) (p : Nat) (q : Nat) :
    (State.slkRepeat s p q).pending = s.pending ∧ (State.slkRepeat s p q).mem = s.mem ∧
      (State.slkRepeat s p q).holes = s.holes := by
  simp only [State.slkRepeat]
  repeat' (first | (simp; done) | split)

@[simp] theorem State.slkResult_keeps (s : State) (p : Nat) (tag : Nat) (status : Nat) (detail : Nat) (arg : Nat) :
    (State.slkResult s p tag status detail arg).pending = s.pending ∧
      (State.slkResult s p tag status detail arg).mem = s.mem ∧
      (State.slkResult s p tag status detail arg).holes = s.holes := by
  simp [State.slkResult]

@[simp] theorem State.slkRefuse_keeps (s : State) (p : Nat) (tag : Nat) (status : Nat) :
    (State.slkRefuse s p tag status).pending = s.pending ∧ (State.slkRefuse s p tag status).mem = s.mem ∧
      (State.slkRefuse s p tag status).holes = s.holes := by
  simp [State.slkRefuse]

@[simp] theorem State.peerFirmware_keeps (s : State) (p : Nat) (tag : Nat) (bs : List Byte) (readback : List Byte) :
    (State.peerFirmware s p tag bs readback).pending = s.pending ∧
      (State.peerFirmware s p tag bs readback).mem = s.mem ∧
      (State.peerFirmware s p tag bs readback).holes = s.holes := by
  simp [State.peerFirmware]

@[simp] theorem State.peerImage_keeps (s : State) (p : Nat) (tag : Nat) (bs : List Byte) (body : ImageBody) :
    (State.peerImage s p tag bs body).pending = s.pending ∧ (State.peerImage s p tag bs body).mem = s.mem ∧
      (State.peerImage s p tag bs body).holes = s.holes := by
  simp [State.peerImage]

@[simp] theorem State.sendAlign_keeps (s : State) (phi : Nat) (pulse : Nat) :
    (State.sendAlign s phi pulse).pending = s.pending ∧ (State.sendAlign s phi pulse).mem = s.mem ∧
      (State.sendAlign s phi pulse).holes = s.holes := by
  simp [State.sendAlign]

@[simp] theorem State.alignGo_keeps (s : State) :
    (State.alignGo s).pending = s.pending ∧ (State.alignGo s).mem = s.mem ∧ (State.alignGo s).holes = s.holes := by
  simp [State.alignGo]

@[simp] theorem State.syncEdge_keeps (s : State) (phiA : Nat) (phiB : Nat) :
    (State.syncEdge s phiA phiB).pending = s.pending ∧ (State.syncEdge s phiA phiB).mem = s.mem ∧
      (State.syncEdge s phiA phiB).holes = s.holes := by
  simp only [State.syncEdge]
  repeat' (first | (simp; done) | split)

@[simp] theorem State.alignCheck_keeps (s : State) (e : Int) :
    (State.alignCheck s e).pending = s.pending ∧ (State.alignCheck s e).mem = s.mem ∧
      (State.alignCheck s e).holes = s.holes := by
  simp [State.alignCheck]

end Sys2Proof.Machine
end

