-- ==== Sys2Proof/Laws/KeepsWriteControl.lean ====
section
/-! SUPPORT. What the definitions of Machine/WriteControl.lean leave of the queue and the memories. -/

namespace Sys2Proof.Machine

set_option linter.unusedTactic false

@[simp] theorem State.refreshMask_keeps (s : State) (n : Nat) (anew : Bool) :
    (State.refreshMask s n anew).pending = s.pending ∧ (State.refreshMask s n anew).holes = s.holes := by
  simp [State.refreshMask]

@[simp] theorem State.refreshMask_mwf (s : State) (n : Nat) (anew : Bool) (hw : twf memDefault s.mem = true) :
    twf memDefault (State.refreshMask s n anew).mem = true := by
  simp (maxDischargeDepth := 12) +contextual [State.refreshMask, hw]

@[simp] theorem State.rebase_keeps (s : State) (n : Nat) (k : Nat) :
    (State.rebase s n k).pending = s.pending ∧ (State.rebase s n k).mem = s.mem ∧
      (State.rebase s n k).holes = s.holes := by
  simp [State.rebase]

@[simp] theorem State.writeTbCfg_keeps (s : State) (n : Nat) (w : Word) :
    (State.writeTbCfg s n w).pending = s.pending ∧ (State.writeTbCfg s n w).holes = s.holes := by
  simp [State.writeTbCfg]

@[simp] theorem State.writeTbCfg_mwf (s : State) (n : Nat) (w : Word) (hw : twf memDefault s.mem = true) :
    twf memDefault (State.writeTbCfg s n w).mem = true := by
  simp (maxDischargeDepth := 12) +contextual [State.writeTbCfg, hw]

@[simp] theorem State.writePwm_keeps (s : State) (n : Nat) (a : Nat) (w : Word) (late : Bool) :
    (State.writePwm s n a w late).pending = s.pending ∧ (State.writePwm s n a w late).holes = s.holes := by
  simp [State.writePwm]

@[simp] theorem State.writePwm_mwf (s : State) (n : Nat) (a : Nat) (w : Word) (late : Bool)
    (hw : twf memDefault s.mem = true) :
    twf memDefault (State.writePwm s n a w late).mem = true := by
  simp (maxDischargeDepth := 12) +contextual [State.writePwm, hw]

@[simp] theorem State.writeGate_keeps (s : State) (n : Nat) (a : Nat) (w : Word) :
    (State.writeGate s n a w).pending = s.pending ∧ (State.writeGate s n a w).mem = s.mem ∧
      (State.writeGate s n a w).holes = s.holes := by
  simp [State.writeGate]

@[simp] theorem State.writeAdcCfg_keeps (s : State) (k : Nat) (w : Word) (late : Bool) :
    (State.writeAdcCfg s k w late).pending = s.pending ∧ (State.writeAdcCfg s k w late).mem = s.mem ∧
      (State.writeAdcCfg s k w late).holes = s.holes := by
  simp [State.writeAdcCfg]

@[simp] theorem State.writeCal_keeps (s : State) (w : Word) :
    (State.writeCal s w).pending = s.pending ∧ (State.writeCal s w).mem = s.mem ∧
      (State.writeCal s w).holes = s.holes := by
  simp [State.writeCal]

@[simp] theorem State.writeAdc_keeps (s : State) (a : Nat) (w : Word) (late : Bool) :
    (State.writeAdc s a w late).pending = s.pending ∧ (State.writeAdc s a w late).mem = s.mem ∧
      (State.writeAdc s a w late).holes = s.holes := by
  simp [State.writeAdc]

@[simp] theorem State.writeSdmClk_keeps (s : State) (m : Nat) (w : Word) :
    (State.writeSdmClk s m w).pending = s.pending ∧ (State.writeSdmClk s m w).mem = s.mem ∧
      (State.writeSdmClk s m w).holes = s.holes := by
  simp [State.writeSdmClk]

@[simp] theorem State.writeSdmCfg_keeps (s : State) (c : Nat) (w : Word) :
    (State.writeSdmCfg s c w).pending = s.pending ∧ (State.writeSdmCfg s c w).mem = s.mem ∧
      (State.writeSdmCfg s c w).holes = s.holes := by
  simp [State.writeSdmCfg]

@[simp] theorem State.writeSfCfg_keeps (s : State) (c : Nat) (w : Word) :
    (State.writeSfCfg s c w).pending = s.pending ∧ (State.writeSfCfg s c w).mem = s.mem ∧
      (State.writeSfCfg s c w).holes = s.holes := by
  simp [State.writeSfCfg]

@[simp] theorem State.writeSdm_keeps (s : State) (a : Nat) (w : Word) :
    (State.writeSdm s a w).pending = s.pending ∧ (State.writeSdm s a w).mem = s.mem ∧
      (State.writeSdm s a w).holes = s.holes := by
  simp [State.writeSdm]

@[simp] theorem State.trsFlag_keeps (s : State) (f : Nat → Fld) :
    (State.trsFlag s f).pending = s.pending ∧ (State.trsFlag s f).mem = s.mem ∧
      (State.trsFlag s f).holes = s.holes := by
  simp [State.trsFlag]

@[simp] theorem State.writeLoop_keeps (s : State) (a : Nat) (w : Word) (late : Bool) :
    (State.writeLoop s a w late).pending = s.pending ∧ (State.writeLoop s a w late).mem = s.mem ∧
      (State.writeLoop s a w late).holes = s.holes := by
  simp [State.writeLoop]

@[simp] theorem State.writeTrs_keeps (s : State) (e : Nat) (a : Nat) (w : Word) (late : Bool) :
    (State.writeTrs s e a w late).pending = s.pending ∧ (State.writeTrs s e a w late).mem = s.mem ∧
      (State.writeTrs s e a w late).holes = s.holes := by
  simp [State.writeTrs]

@[simp] theorem State.writeHch_keeps (s : State) (n : Nat) (c : Nat) (w : Word) (late : Bool) :
    (State.writeHch s n c w late).pending = s.pending ∧ (State.writeHch s n c w late).mem = s.mem ∧
      (State.writeHch s n c w late).holes = s.holes := by
  simp [State.writeHch]

@[simp] theorem State.writeGfm_keeps (s : State) (n : Nat) (a : Nat) (w : Word) (late : Bool) :
    (State.writeGfm s n a w late).pending = s.pending ∧ (State.writeGfm s n a w late).holes = s.holes := by
  simp only [State.writeGfm]
  repeat' (first | (simp; done) | split)

@[simp] theorem State.writeGfm_mwf (s : State) (n : Nat) (a : Nat) (w : Word) (late : Bool)
    (hw : twf memDefault s.mem = true) :
    twf memDefault (State.writeGfm s n a w late).mem = true := by
  simp only [State.writeGfm]
  repeat' (first | (simp (maxDischargeDepth := 12) +contextual [hw]; done) | split)

@[simp] theorem State.writeRedCtrl_keeps (s : State) (w : Word) :
    (State.writeRedCtrl s w).pending = s.pending ∧ (State.writeRedCtrl s w).mem = s.mem ∧
      (State.writeRedCtrl s w).holes = s.holes := by
  simp [State.writeRedCtrl]

@[simp] theorem State.writeRed_keeps (s : State) (a : Nat) (w : Word) :
    (State.writeRed s a w).pending = s.pending ∧ (State.writeRed s a w).mem = s.mem ∧
      (State.writeRed s a w).holes = s.holes := by
  simp [State.writeRed]

@[simp] theorem State.writeSafReq_keeps (s : State) (w : Word) :
    (State.writeSafReq s w).pending = s.pending ∧ (State.writeSafReq s w).holes = s.holes := by
  simp [State.writeSafReq]

@[simp] theorem State.writeSafReq_mwf (s : State) (w : Word) (hw : twf memDefault s.mem = true) :
    twf memDefault (State.writeSafReq s w).mem = true := by
  simp (maxDischargeDepth := 12) +contextual [State.writeSafReq, hw]

@[simp] theorem State.writeSaf_keeps (s : State) (a : Nat) (w : Word) :
    (State.writeSaf s a w).pending = s.pending ∧ (State.writeSaf s a w).holes = s.holes := by
  simp [State.writeSaf]

@[simp] theorem State.writeSaf_mwf (s : State) (a : Nat) (w : Word) (hw : twf memDefault s.mem = true) :
    twf memDefault (State.writeSaf s a w).mem = true := by
  simp (maxDischargeDepth := 12) +contextual [State.writeSaf, hw]

end Sys2Proof.Machine
end

