-- ==== Sys2Proof/Laws/KeepsWriteData.lean ====
section
/-! SUPPORT. What the definitions of Machine/WriteData.lean leave of the queue and the memories. -/

namespace Sys2Proof.Machine

set_option linter.unusedTactic false

@[simp] theorem State.writeCapCfg_keeps (s : State) (c : Nat) (w : Word) :
    (State.writeCapCfg s c w).pending = s.pending ∧ (State.writeCapCfg s c w).mem = s.mem ∧
      (State.writeCapCfg s c w).holes = s.holes := by
  simp [State.writeCapCfg]

@[simp] theorem State.writeSystem_keeps (s : State) (a : Nat) (w : Word) :
    (State.writeSystem s a w).pending = s.pending ∧ (State.writeSystem s a w).mem = s.mem ∧
      (State.writeSystem s a w).holes = s.holes := by
  simp [State.writeSystem]

@[simp] theorem State.writeMbx_keeps (s : State) (a : Nat) (w : Word) :
    (State.writeMbx s a w).pending = s.pending ∧ (State.writeMbx s a w).mem = s.mem := by
  simp [State.writeMbx]

@[simp] theorem State.writeMbx_hwf (s : State) (a : Nat) (w : Word) (hw : twf holeDefault s.holes = true) :
    twf holeDefault (State.writeMbx s a w).holes = true := by
  simp (maxDischargeDepth := 12) +contextual [State.writeMbx, hw]

@[simp] theorem State.writeDma_keeps (s : State) (a : Nat) (w : Word) :
    (State.writeDma s a w).pending = s.pending ∧ (State.writeDma s a w).mem = s.mem ∧
      (State.writeDma s a w).holes = s.holes := by
  simp [State.writeDma]

@[simp] theorem State.writeCvuCfg_keeps (s : State) (u : Nat) (w : Word) :
    (State.writeCvuCfg s u w).pending = s.pending ∧ (State.writeCvuCfg s u w).mem = s.mem ∧
      (State.writeCvuCfg s u w).holes = s.holes := by
  simp only [State.writeCvuCfg]
  repeat' (first | (simp; done) | split)

@[simp] theorem State.writeCvu_keeps (s : State) (a : Nat) (w : Word) :
    (State.writeCvu s a w).pending = s.pending ∧ (State.writeCvu s a w).mem = s.mem ∧
      (State.writeCvu s a w).holes = s.holes := by
  simp only [State.writeCvu]
  repeat' (first | (simp; done) | split)

@[simp] theorem State.writeChs_keeps (s : State) (a : Nat) (w : Word) (late : Bool) :
    (State.writeChs s a w late).pending = s.pending ∧ (State.writeChs s a w late).holes = s.holes := by
  simp [State.writeChs]

@[simp] theorem State.writeChs_mwf (s : State) (a : Nat) (w : Word) (late : Bool) (hw : twf memDefault s.mem = true) :
    twf memDefault (State.writeChs s a w late).mem = true := by
  simp (maxDischargeDepth := 12) +contextual [State.writeChs, hw]

@[simp] theorem State.writeAlign_keeps (s : State) (mgmt : Bool) (w : Word) :
    (State.writeAlign s mgmt w).pending = s.pending ∧ (State.writeAlign s mgmt w).mem = s.mem ∧
      (State.writeAlign s mgmt w).holes = s.holes := by
  simp [State.writeAlign]

@[simp] theorem State.writeSlk_keeps (s : State) (mgmt : Bool) (a : Nat) (w : Word) :
    (State.writeSlk s mgmt a w).pending = s.pending ∧ (State.writeSlk s mgmt a w).mem = s.mem ∧
      (State.writeSlk s mgmt a w).holes = s.holes := by
  simp [State.writeSlk]

@[simp] theorem State.writeShf_keeps (s : State) (a : Nat) (w : Word) (late : Bool) :
    (State.writeShf s a w late).pending = s.pending ∧ (State.writeShf s a w late).mem = s.mem ∧
      (State.writeShf s a w late).holes = s.holes := by
  simp [State.writeShf]

@[simp] theorem State.writeAqrCfg_keeps (s : State) (q : Nat) (w : Word) (late : Bool) :
    (State.writeAqrCfg s q w late).pending = s.pending ∧ (State.writeAqrCfg s q w late).mem = s.mem ∧
      (State.writeAqrCfg s q w late).holes = s.holes := by
  simp [State.writeAqrCfg]

@[simp] theorem State.writeAqrSweep_keeps (s : State) (q : Nat) (w : Word) (late : Bool) :
    (State.writeAqrSweep s q w late).pending = s.pending ∧ (State.writeAqrSweep s q w late).mem = s.mem ∧
      (State.writeAqrSweep s q w late).holes = s.holes := by
  simp [State.writeAqrSweep]

@[simp] theorem State.writeAqrStale_keeps (s : State) (q : Nat) (w : Word) (late : Bool) :
    (State.writeAqrStale s q w late).pending = s.pending ∧ (State.writeAqrStale s q w late).mem = s.mem ∧
      (State.writeAqrStale s q w late).holes = s.holes := by
  simp [State.writeAqrStale]

@[simp] theorem State.writeAqr_keeps (s : State) (a : Nat) (w : Word) (late : Bool) :
    (s.writeAqr a w late).pending = s.pending ∧ (s.writeAqr a w late).mem = s.mem := by
  unfold State.writeAqr
  dsimp only
  repeat' split
  all_goals simp

@[simp] theorem State.writeAqr_hwf (s : State) (a : Nat) (w : Word) (late : Bool)
    (hw : twf holeDefault s.holes = true) :

    twf holeDefault (s.writeAqr a w late).holes = true := by
  unfold State.writeAqr
  dsimp only
  repeat' split
  all_goals simp [hw]


@[simp] theorem State.regWrite_keeps (s : State) (m : Master) (a : Nat) (w : Word) (late : Bool) :
    (s.regWrite m a w late).pending = s.pending := by
  unfold State.regWrite
  dsimp only
  repeat' split
  all_goals simp

@[simp] theorem State.regWrite_mwf (s : State) (m : Master) (a : Nat) (w : Word) (late : Bool)
    (hw : twf memDefault s.mem = true) :

    twf memDefault (s.regWrite m a w late).mem = true := by
  unfold State.regWrite
  dsimp only
  repeat' split
  all_goals simp [hw]

@[simp] theorem State.regWrite_hwf (s : State) (m : Master) (a : Nat) (w : Word) (late : Bool)
    (hw : twf holeDefault s.holes = true) : twf holeDefault (s.regWrite m a w late).holes = true := by
  unfold State.regWrite
  dsimp only
  repeat' split
  all_goals simp [hw]


end Sys2Proof.Machine
end

