-- ==== Sys2Proof/Laws/KeepsBus.lean ====
section
/-! SUPPORT. What the definitions of Machine/Bus.lean leave of the queue and the memories. -/

namespace Sys2Proof.Machine

set_option linter.unusedTactic false

@[simp] theorem State.regRead_pending (s : State) (a : Nat) : (s.regRead a).2.pending = s.pending := by
  unfold State.regRead
  simp only [apply_ite Prod.snd, apply_ite State.pending]
  simp

@[simp] theorem State.regRead_mem (s : State) (a : Nat) : (s.regRead a).2.mem = s.mem := by
  unfold State.regRead
  simp only [apply_ite Prod.snd, apply_ite State.mem]
  simp

@[simp] theorem State.regRead_holes (s : State) (a : Nat) : (s.regRead a).2.holes = s.holes := by
  unfold State.regRead
  simp only [apply_ite Prod.snd, apply_ite State.holes]
  simp


@[simp] theorem State.busRead_keeps (s : State) (a : Nat) :
    (State.busRead s a).st.pending = s.pending ∧ (State.busRead s a).st.mem = s.mem ∧
      (State.busRead s a).st.holes = s.holes := by
  simp only [State.busRead]
  repeat' (first | (simp; done) | split)

@[simp] theorem State.busWrite_keeps (s : State) (m : Master) (a : Nat) (w : Word) (late : Bool) :
    (State.busWrite s m a w late).st.pending = s.pending := by
  simp only [State.busWrite]
  repeat' (first | (simp; done) | split)

@[simp] theorem State.busWrite_mwf (s : State) (m : Master) (a : Nat) (w : Word) (late : Bool)
    (hw : twf memDefault s.mem = true) :
    twf memDefault (State.busWrite s m a w late).st.mem = true := by
  simp only [State.busWrite]
  repeat' (first | (simp (maxDischargeDepth := 12) +contextual [hw]; done) | split)

@[simp] theorem State.busWrite_hwf (s : State) (m : Master) (a : Nat) (w : Word) (late : Bool)
    (hw : twf holeDefault s.holes = true) :
    twf holeDefault (State.busWrite s m a w late).st.holes = true := by
  simp only [State.busWrite]
  repeat' (first | (simp (maxDischargeDepth := 12) +contextual [hw]; done) | split)

@[simp] theorem State.spiReadWords_keeps (s : State) (incr : Bool) (addr : Nat) (notReady : BitVec 64) (k : Nat) :
    (s.spiReadWords incr addr notReady k).1.pending = s.pending ∧ (s.spiReadWords incr addr notReady k).1.mem = s.mem ∧
      (s.spiReadWords incr addr notReady k).1.holes = s.holes := by
  induction k with
  | zero => exact ⟨rfl, rfl, rfl⟩
  | succ k ih => simpa [State.spiReadWords] using ih


@[simp] theorem State.spiEnd_keeps (s : State) (prev : BitVec 6) (accepted : Bool) (miso : List Byte) :
    (State.spiEnd s prev accepted miso).pending = s.pending ∧ (State.spiEnd s prev accepted miso).mem = s.mem ∧
      (State.spiEnd s prev accepted miso).holes = s.holes := by
  simp [State.spiEnd]

@[simp] theorem State.spiRead_keeps (s : State) (incr : Bool) (count : Nat) (addr : BitVec 24) (crc : Byte)
    (notReady : BitVec 64) (clocked : Nat) :
    (State.spiRead s incr count addr crc notReady clocked).pending = s.pending ∧
      (State.spiRead s incr count addr crc notReady clocked).mem = s.mem ∧
      (State.spiRead s incr count addr crc notReady clocked).holes = s.holes := by
  simp [State.spiRead]

@[simp] theorem State.spiWriteWords_keeps (s : State) (step addr : Nat) (late : Nat → Bool) (k : Nat) (l : List Word) :
    (s.spiWriteWords step addr late k l).1.pending = s.pending := by
  induction l generalizing s k with
  | nil => rfl
  | cons w t ih => simp [State.spiWriteWords, ih]

@[simp] theorem State.spiWriteWords_mwf (s : State) (step addr : Nat) (late : Nat → Bool) (k : Nat) (l : List Word)
    (hw : twf memDefault s.mem = true) :

    twf memDefault (s.spiWriteWords step addr late k l).1.mem = true := by
  induction l generalizing s k with
  | nil => exact hw
  | cons w t ih => simp [State.spiWriteWords, ih, hw]

@[simp] theorem State.spiWriteWords_hwf (s : State) (step addr : Nat) (late : Nat → Bool) (k : Nat) (l : List Word)
    (hw : twf holeDefault s.holes = true) :

    twf holeDefault (s.spiWriteWords step addr late k l).1.holes = true := by
  induction l generalizing s k with
  | nil => exact hw
  | cons w t ih => simp [State.spiWriteWords, ih, hw]


@[simp] theorem State.spiWrite_keeps (s : State) (incr : Bool) (count : Nat) (addr : BitVec 24) (data : List Byte)
    (crc : Byte) (late : BitVec 64) :
    (State.spiWrite s incr count addr data crc late).pending = s.pending := by
  simp [State.spiWrite]

@[simp] theorem State.spiWrite_mwf (s : State) (incr : Bool) (count : Nat) (addr : BitVec 24) (data : List Byte)
    (crc : Byte) (late : BitVec 64) (hw : twf memDefault s.mem = true) :
    twf memDefault (State.spiWrite s incr count addr data crc late).mem = true := by
  simp (maxDischargeDepth := 12) +contextual [State.spiWrite, hw]

@[simp] theorem State.spiWrite_hwf (s : State) (incr : Bool) (count : Nat) (addr : BitVec 24) (data : List Byte)
    (crc : Byte) (late : BitVec 64) (hw : twf holeDefault s.holes = true) :
    twf holeDefault (State.spiWrite s incr count addr data crc late).holes = true := by
  simp (maxDischargeDepth := 12) +contextual [State.spiWrite, hw]

end Sys2Proof.Machine
end

