-- ==== Sys2Proof/Laws/KeepsEznel.lean ====
section
/-! SUPPORT. What the definitions of Machine/Eznel.lean leave of the queue and the memories. -/

namespace Sys2Proof.Machine

set_option linter.unusedTactic false

@[simp] theorem State.readWords_keeps (s : State) (addr k : Nat) : (s.readWords addr k).1.pending = s.pending ∧
    (s.readWords addr k).1.mem = s.mem ∧ (s.readWords addr k).1.holes = s.holes := by
  induction k with
  | zero => exact ⟨rfl, rfl, rfl⟩
  | succ k ih => simpa [State.readWords] using ih


@[simp] theorem State.writeWords_keeps (s : State) (addr : Nat) (late : Bool) (k : Nat) (l : List Word) :
    (s.writeWords addr late k l).pending = s.pending := by
  induction l generalizing s k with
  | nil => rfl
  | cons w t ih => simp [State.writeWords, ih]

@[simp] theorem State.writeWords_mwf (s : State) (addr : Nat) (late : Bool) (k : Nat) (l : List Word)
    (hw : twf memDefault s.mem = true) :

    twf memDefault (s.writeWords addr late k l).mem = true := by
  induction l generalizing s k with
  | nil => exact hw
  | cons w t ih => simp [State.writeWords, ih, hw]

@[simp] theorem State.writeWords_hwf (s : State) (addr : Nat) (late : Bool) (k : Nat) (l : List Word)
    (hw : twf holeDefault s.holes = true) :

    twf holeDefault (s.writeWords addr late k l).holes = true := by
  induction l generalizing s k with
  | nil => exact hw
  | cons w t ih => simp [State.writeWords, ih, hw]


@[simp] theorem State.paramPut_keeps (s : State) (p : Nat) (w : Word) (v : Word) (late : Bool) :
    (State.paramPut s p w v late).pending = s.pending ∧ (State.paramPut s p w v late).mem = s.mem ∧
      (State.paramPut s p w v late).holes = s.holes := by
  simp only [State.paramPut]
  repeat' (first | (simp; done) | split)

@[simp] theorem State.paramRejected_keeps (s : State) (p : Nat) :
    (State.paramRejected s p).pending = s.pending ∧ (State.paramRejected s p).mem = s.mem ∧
      (State.paramRejected s p).holes = s.holes := by
  simp only [State.paramRejected]
  repeat' (first | (simp; done) | split)

@[simp] theorem State.refuseParam_keeps (s : State) (i : Nat) (k : Nat) (p : Nat) (f : ParamFault) :
    (State.refuseParam s i k p f).pending = s.pending ∧ (State.refuseParam s i k p f).mem = s.mem := by
  simp only [State.refuseParam]
  repeat' (first | (simp; done) | split)

@[simp] theorem State.refuseParam_hwf (s : State) (i : Nat) (k : Nat) (p : Nat) (f : ParamFault)
    (hw : twf holeDefault s.holes = true) :
    twf holeDefault (State.refuseParam s i k p f).holes = true := by
  simp only [State.refuseParam]
  repeat' (first | (simp (maxDischargeDepth := 12) +contextual [hw]; done) | split)

@[simp] theorem State.modbusWords_keeps (s : State) (l : List Nat) : (s.modbusWords l).1.pending = s.pending ∧
    (s.modbusWords l).1.mem = s.mem ∧ (s.modbusWords l).1.holes = s.holes := by
  induction l generalizing s with
  | nil => exact ⟨rfl, rfl, rfl⟩
  | cons a l ih =>
    rw [State.modbusWords]
    split <;> simp [ih]


end Sys2Proof.Machine
end

