-- ==== Sys2Proof/Laws/KeepsRideThrough.lean ====
section
/-! SUPPORT. What the definitions of Machine/RideThrough.lean leave of the queue and the memories. -/

namespace Sys2Proof.Machine

@[simp] theorem State.keepCeiling_keeps (s : State) (n : Nat) :
    (State.keepCeiling s n).pending = s.pending ∧ (State.keepCeiling s n).mem = s.mem ∧
      (State.keepCeiling s n).holes = s.holes := by
  simp [State.keepCeiling]

@[simp] theorem State.clearFault_keeps (s : State) (n : Nat) :
    (State.clearFault s n).pending = s.pending ∧ (State.clearFault s n).mem = s.mem ∧
      (State.clearFault s n).holes = s.holes := by
  simp [State.clearFault]

end Sys2Proof.Machine
end

