-- ==== Sys2Proof/Laws/KeepsStart.lean ====
section
/-! SUPPORT. What the definitions of Machine/Start.lean leave of the queue and the memories. -/

namespace Sys2Proof.Machine

@[simp] theorem State.joinBus_keeps (s : State) (n : Nat) :
    (State.joinBus s n).pending = s.pending ∧ (State.joinBus s n).mem = s.mem ∧
      (State.joinBus s n).holes = s.holes := by
  simp [State.joinBus]

@[simp] theorem State.closeBreaker_keeps (s : State) (n : Nat) :
    (State.closeBreaker s n).pending = s.pending ∧ (State.closeBreaker s n).holes = s.holes := by
  simp [State.closeBreaker]

@[simp] theorem State.closeBreaker_mwf (s : State) (n : Nat) (hw : twf memDefault s.mem = true) :
    twf memDefault (State.closeBreaker s n).mem = true := by
  simp (maxDischargeDepth := 12) +contextual [State.closeBreaker, hw]

end Sys2Proof.Machine
end

