-- ==== Sys2Proof/Laws/State.lean ====
section
/-! SUPPORT. What each elementary update leaves as it was, and what a read answers after it. -/

namespace Sys2Proof.Machine

variable (s : State)

/-! ### Other fields -/

@[simp] theorem State.setReg_rest (a : Nat) (w : Word) :
    (s.setReg a w).act = s.act ∧ (s.setReg a w).mem = s.mem ∧ (s.setReg a w).holes = s.holes ∧
    (s.setReg a w).dmemA = s.dmemA ∧ (s.setReg a w).dmemB = s.dmemB ∧ (s.setReg a w).now = s.now ∧
    (s.setReg a w).draws = s.draws ∧ (s.setReg a w).grants = s.grants ∧ (s.setReg a w).spi = s.spi ∧
    (s.setReg a w).stn = s.stn ∧ (s.setReg a w).pwm = s.pwm ∧ (s.setReg a w).hb = s.hb ∧
    (s.setReg a w).wcomp = s.wcomp ∧ (s.setReg a w).inp = s.inp ∧ (s.setReg a w).conv = s.conv ∧
    (s.setReg a w).pair = s.pair ∧ (s.setReg a w).cal = s.cal ∧ (s.setReg a w).sdm = s.sdm ∧
    (s.setReg a w).banksA = s.banksA ∧ (s.setReg a w).banksB = s.banksB ∧ (s.setReg a w).serving = s.serving ∧
    (s.setReg a w).ready = s.ready ∧ (s.setReg a w).red = s.red ∧ (s.setReg a w).clock = s.clock ∧
    (s.setReg a w).ptp = s.ptp ∧ (s.setReg a w).fw = s.fw ∧ (s.setReg a w).caps = s.caps ∧
    (s.setReg a w).chest = s.chest ∧ (s.setReg a w).streams = s.streams ∧ (s.setReg a w).trigs = s.trigs ∧
    (s.setReg a w).safe = s.safe ∧ (s.setReg a w).safeStn = s.safeStn ∧ (s.setReg a w).sin = s.sin ∧
    (s.setReg a w).sout = s.sout ∧ (s.setReg a w).pendSet = s.pendSet ∧ (s.setReg a w).readData = s.readData ∧
    (s.setReg a w).clk = s.clk ∧ (s.setReg a w).dev = s.dev ∧ (s.setReg a w).vioA = s.vioA ∧
    (s.setReg a w).vioB = s.vioB ∧ (s.setReg a w).ports = s.ports ∧ (s.setReg a w).shelfSeen = s.shelfSeen ∧
    (s.setReg a w).shelfFresh = s.shelfFresh ∧ (s.setReg a w).dmaCh = s.dmaCh ∧ (s.setReg a w).dma = s.dma ∧
    (s.setReg a w).cvu = s.cvu ∧ (s.setReg a w).mbx = s.mbx ∧ (s.setReg a w).otp = s.otp ∧
    (s.setReg a w).flash = s.flash ∧ (s.setReg a w).trust = s.trust ∧ (s.setReg a w).boot = s.boot ∧
    (s.setReg a w).power = s.power ∧ (s.setReg a w).slkPort = s.slkPort ∧ (s.setReg a w).slk = s.slk ∧
    (s.setReg a w).sen = s.sen ∧ (s.setReg a w).pending = s.pending := by
  repeat' apply And.intro
  all_goals rfl

@[simp] theorem State.setAct_rest (a : Nat) (w : Word) :
    (s.setAct a w).regs = s.regs ∧ (s.setAct a w).mem = s.mem ∧ (s.setAct a w).holes = s.holes ∧
    (s.setAct a w).dmemA = s.dmemA ∧ (s.setAct a w).dmemB = s.dmemB ∧ (s.setAct a w).now = s.now ∧
    (s.setAct a w).draws = s.draws ∧ (s.setAct a w).grants = s.grants ∧ (s.setAct a w).spi = s.spi ∧
    (s.setAct a w).stn = s.stn ∧ (s.setAct a w).pwm = s.pwm ∧ (s.setAct a w).hb = s.hb ∧
    (s.setAct a w).wcomp = s.wcomp ∧ (s.setAct a w).inp = s.inp ∧ (s.setAct a w).conv = s.conv ∧
    (s.setAct a w).pair = s.pair ∧ (s.setAct a w).cal = s.cal ∧ (s.setAct a w).sdm = s.sdm ∧
    (s.setAct a w).banksA = s.banksA ∧ (s.setAct a w).banksB = s.banksB ∧ (s.setAct a w).serving = s.serving ∧
    (s.setAct a w).ready = s.ready ∧ (s.setAct a w).red = s.red ∧ (s.setAct a w).clock = s.clock ∧
    (s.setAct a w).ptp = s.ptp ∧ (s.setAct a w).fw = s.fw ∧ (s.setAct a w).caps = s.caps ∧
    (s.setAct a w).chest = s.chest ∧ (s.setAct a w).streams = s.streams ∧ (s.setAct a w).trigs = s.trigs ∧
    (s.setAct a w).safe = s.safe ∧ (s.setAct a w).safeStn = s.safeStn ∧ (s.setAct a w).sin = s.sin ∧
    (s.setAct a w).sout = s.sout ∧ (s.setAct a w).pendSet = s.pendSet ∧ (s.setAct a w).readData = s.readData ∧
    (s.setAct a w).clk = s.clk ∧ (s.setAct a w).dev = s.dev ∧ (s.setAct a w).vioA = s.vioA ∧
    (s.setAct a w).vioB = s.vioB ∧ (s.setAct a w).ports = s.ports ∧ (s.setAct a w).shelfSeen = s.shelfSeen ∧
    (s.setAct a w).shelfFresh = s.shelfFresh ∧ (s.setAct a w).dmaCh = s.dmaCh ∧ (s.setAct a w).dma = s.dma ∧
    (s.setAct a w).cvu = s.cvu ∧ (s.setAct a w).mbx = s.mbx ∧ (s.setAct a w).otp = s.otp ∧
    (s.setAct a w).flash = s.flash ∧ (s.setAct a w).trust = s.trust ∧ (s.setAct a w).boot = s.boot ∧
    (s.setAct a w).power = s.power ∧ (s.setAct a w).slkPort = s.slkPort ∧ (s.setAct a w).slk = s.slk ∧
    (s.setAct a w).sen = s.sen ∧ (s.setAct a w).pending = s.pending := by
  repeat' apply And.intro
  all_goals rfl

@[simp] theorem State.setFld_rest (f : Fld) (n : Nat) :
    (s.setFld f n).act = s.act ∧ (s.setFld f n).mem = s.mem ∧ (s.setFld f n).holes = s.holes ∧
    (s.setFld f n).dmemA = s.dmemA ∧ (s.setFld f n).dmemB = s.dmemB ∧ (s.setFld f n).now = s.now ∧
    (s.setFld f n).draws = s.draws ∧ (s.setFld f n).grants = s.grants ∧ (s.setFld f n).spi = s.spi ∧
    (s.setFld f n).stn = s.stn ∧ (s.setFld f n).pwm = s.pwm ∧ (s.setFld f n).hb = s.hb ∧
    (s.setFld f n).wcomp = s.wcomp ∧ (s.setFld f n).inp = s.inp ∧ (s.setFld f n).conv = s.conv ∧
    (s.setFld f n).pair = s.pair ∧ (s.setFld f n).cal = s.cal ∧ (s.setFld f n).sdm = s.sdm ∧
    (s.setFld f n).banksA = s.banksA ∧ (s.setFld f n).banksB = s.banksB ∧ (s.setFld f n).serving = s.serving ∧
    (s.setFld f n).ready = s.ready ∧ (s.setFld f n).red = s.red ∧ (s.setFld f n).clock = s.clock ∧
    (s.setFld f n).ptp = s.ptp ∧ (s.setFld f n).fw = s.fw ∧ (s.setFld f n).caps = s.caps ∧
    (s.setFld f n).chest = s.chest ∧ (s.setFld f n).streams = s.streams ∧ (s.setFld f n).trigs = s.trigs ∧
    (s.setFld f n).safe = s.safe ∧ (s.setFld f n).safeStn = s.safeStn ∧ (s.setFld f n).sin = s.sin ∧
    (s.setFld f n).sout = s.sout ∧ (s.setFld f n).pendSet = s.pendSet ∧ (s.setFld f n).readData = s.readData ∧
    (s.setFld f n).clk = s.clk ∧ (s.setFld f n).dev = s.dev ∧ (s.setFld f n).vioA = s.vioA ∧
    (s.setFld f n).vioB = s.vioB ∧ (s.setFld f n).ports = s.ports ∧ (s.setFld f n).shelfSeen = s.shelfSeen ∧
    (s.setFld f n).shelfFresh = s.shelfFresh ∧ (s.setFld f n).dmaCh = s.dmaCh ∧ (s.setFld f n).dma = s.dma ∧
    (s.setFld f n).cvu = s.cvu ∧ (s.setFld f n).mbx = s.mbx ∧ (s.setFld f n).otp = s.otp ∧
    (s.setFld f n).flash = s.flash ∧ (s.setFld f n).trust = s.trust ∧ (s.setFld f n).boot = s.boot ∧
    (s.setFld f n).power = s.power ∧ (s.setFld f n).slkPort = s.slkPort ∧ (s.setFld f n).slk = s.slk ∧
    (s.setFld f n).sen = s.sen ∧ (s.setFld f n).pending = s.pending := by
  repeat' apply And.intro
  all_goals rfl

@[simp] theorem State.setActFld_rest (f : Fld) (n : Nat) :
    (s.setActFld f n).regs = s.regs ∧ (s.setActFld f n).mem = s.mem ∧ (s.setActFld f n).holes = s.holes ∧
    (s.setActFld f n).dmemA = s.dmemA ∧ (s.setActFld f n).dmemB = s.dmemB ∧ (s.setActFld f n).now = s.now ∧
    (s.setActFld f n).draws = s.draws ∧ (s.setActFld f n).grants = s.grants ∧ (s.setActFld f n).spi = s.spi ∧
    (s.setActFld f n).stn = s.stn ∧ (s.setActFld f n).pwm = s.pwm ∧ (s.setActFld f n).hb = s.hb ∧
    (s.setActFld f n).wcomp = s.wcomp ∧ (s.setActFld f n).inp = s.inp ∧ (s.setActFld f n).conv = s.conv ∧
    (s.setActFld f n).pair = s.pair ∧ (s.setActFld f n).cal = s.cal ∧ (s.setActFld f n).sdm = s.sdm ∧
    (s.setActFld f n).banksA = s.banksA ∧ (s.setActFld f n).banksB = s.banksB ∧ (s.setActFld f n).serving = s.serving ∧
    (s.setActFld f n).ready = s.ready ∧ (s.setActFld f n).red = s.red ∧ (s.setActFld f n).clock = s.clock ∧
    (s.setActFld f n).ptp = s.ptp ∧ (s.setActFld f n).fw = s.fw ∧ (s.setActFld f n).caps = s.caps ∧
    (s.setActFld f n).chest = s.chest ∧ (s.setActFld f n).streams = s.streams ∧ (s.setActFld f n).trigs = s.trigs ∧
    (s.setActFld f n).safe = s.safe ∧ (s.setActFld f n).safeStn = s.safeStn ∧ (s.setActFld f n).sin = s.sin ∧
    (s.setActFld f n).sout = s.sout ∧ (s.setActFld f n).pendSet = s.pendSet ∧ (s.setActFld f n).readData = s.readData ∧
    (s.setActFld f n).clk = s.clk ∧ (s.setActFld f n).dev = s.dev ∧ (s.setActFld f n).vioA = s.vioA ∧
    (s.setActFld f n).vioB = s.vioB ∧ (s.setActFld f n).ports = s.ports ∧ (s.setActFld f n).shelfSeen = s.shelfSeen ∧
    (s.setActFld f n).shelfFresh = s.shelfFresh ∧ (s.setActFld f n).dmaCh = s.dmaCh ∧ (s.setActFld f n).dma = s.dma ∧
    (s.setActFld f n).cvu = s.cvu ∧ (s.setActFld f n).mbx = s.mbx ∧ (s.setActFld f n).otp = s.otp ∧
    (s.setActFld f n).flash = s.flash ∧ (s.setActFld f n).trust = s.trust ∧ (s.setActFld f n).boot = s.boot ∧
    (s.setActFld f n).power = s.power ∧ (s.setActFld f n).slkPort = s.slkPort ∧ (s.setActFld f n).slk = s.slk ∧
    (s.setActFld f n).sen = s.sen ∧ (s.setActFld f n).pending = s.pending := by
  repeat' apply And.intro
  all_goals rfl

@[simp] theorem State.setFldBit_rest (f : Fld) (i : Nat) (b : Bool) :
    (s.setFldBit f i b).act = s.act ∧ (s.setFldBit f i b).mem = s.mem ∧ (s.setFldBit f i b).holes = s.holes ∧
    (s.setFldBit f i b).dmemA = s.dmemA ∧ (s.setFldBit f i b).dmemB = s.dmemB ∧ (s.setFldBit f i b).now = s.now ∧
    (s.setFldBit f i b).draws = s.draws ∧ (s.setFldBit f i b).grants = s.grants ∧ (s.setFldBit f i b).spi = s.spi ∧
    (s.setFldBit f i b).stn = s.stn ∧ (s.setFldBit f i b).pwm = s.pwm ∧ (s.setFldBit f i b).hb = s.hb ∧
    (s.setFldBit f i b).wcomp = s.wcomp ∧ (s.setFldBit f i b).inp = s.inp ∧ (s.setFldBit f i b).conv = s.conv ∧
    (s.setFldBit f i b).pair = s.pair ∧ (s.setFldBit f i b).cal = s.cal ∧ (s.setFldBit f i b).sdm = s.sdm ∧
    (s.setFldBit f i b).banksA = s.banksA ∧ (s.setFldBit f i b).banksB = s.banksB ∧
    (s.setFldBit f i b).serving = s.serving ∧ (s.setFldBit f i b).ready = s.ready ∧ (s.setFldBit f i b).red = s.red ∧
    (s.setFldBit f i b).clock = s.clock ∧ (s.setFldBit f i b).ptp = s.ptp ∧ (s.setFldBit f i b).fw = s.fw ∧
    (s.setFldBit f i b).caps = s.caps ∧ (s.setFldBit f i b).chest = s.chest ∧ (s.setFldBit f i b).streams = s.streams ∧
    (s.setFldBit f i b).trigs = s.trigs ∧ (s.setFldBit f i b).safe = s.safe ∧ (s.setFldBit f i b).safeStn = s.safeStn ∧
    (s.setFldBit f i b).sin = s.sin ∧ (s.setFldBit f i b).sout = s.sout ∧ (s.setFldBit f i b).pendSet = s.pendSet ∧
    (s.setFldBit f i b).readData = s.readData ∧ (s.setFldBit f i b).clk = s.clk ∧ (s.setFldBit f i b).dev = s.dev ∧
    (s.setFldBit f i b).vioA = s.vioA ∧ (s.setFldBit f i b).vioB = s.vioB ∧ (s.setFldBit f i b).ports = s.ports ∧
    (s.setFldBit f i b).shelfSeen = s.shelfSeen ∧ (s.setFldBit f i b).shelfFresh = s.shelfFresh ∧
    (s.setFldBit f i b).dmaCh = s.dmaCh ∧ (s.setFldBit f i b).dma = s.dma ∧ (s.setFldBit f i b).cvu = s.cvu ∧
    (s.setFldBit f i b).mbx = s.mbx ∧ (s.setFldBit f i b).otp = s.otp ∧ (s.setFldBit f i b).flash = s.flash ∧
    (s.setFldBit f i b).trust = s.trust ∧ (s.setFldBit f i b).boot = s.boot ∧ (s.setFldBit f i b).power = s.power ∧
    (s.setFldBit f i b).slkPort = s.slkPort ∧ (s.setFldBit f i b).slk = s.slk ∧ (s.setFldBit f i b).sen = s.sen ∧
    (s.setFldBit f i b).pending = s.pending := by
  repeat' apply And.intro
  all_goals rfl

@[simp] theorem State.setBoth_rest (a : Nat) (w : Word) :
    (s.setBoth a w).mem = s.mem ∧ (s.setBoth a w).holes = s.holes ∧ (s.setBoth a w).dmemA = s.dmemA ∧
    (s.setBoth a w).dmemB = s.dmemB ∧ (s.setBoth a w).now = s.now ∧ (s.setBoth a w).draws = s.draws ∧
    (s.setBoth a w).grants = s.grants ∧ (s.setBoth a w).spi = s.spi ∧ (s.setBoth a w).stn = s.stn ∧
    (s.setBoth a w).pwm = s.pwm ∧ (s.setBoth a w).hb = s.hb ∧ (s.setBoth a w).wcomp = s.wcomp ∧
    (s.setBoth a w).inp = s.inp ∧ (s.setBoth a w).conv = s.conv ∧ (s.setBoth a w).pair = s.pair ∧
    (s.setBoth a w).cal = s.cal ∧ (s.setBoth a w).sdm = s.sdm ∧ (s.setBoth a w).banksA = s.banksA ∧
    (s.setBoth a w).banksB = s.banksB ∧ (s.setBoth a w).serving = s.serving ∧ (s.setBoth a w).ready = s.ready ∧
    (s.setBoth a w).red = s.red ∧ (s.setBoth a w).clock = s.clock ∧ (s.setBoth a w).ptp = s.ptp ∧
    (s.setBoth a w).fw = s.fw ∧ (s.setBoth a w).caps = s.caps ∧ (s.setBoth a w).chest = s.chest ∧
    (s.setBoth a w).streams = s.streams ∧ (s.setBoth a w).trigs = s.trigs ∧ (s.setBoth a w).safe = s.safe ∧
    (s.setBoth a w).safeStn = s.safeStn ∧ (s.setBoth a w).sin = s.sin ∧ (s.setBoth a w).sout = s.sout ∧
    (s.setBoth a w).pendSet = s.pendSet ∧ (s.setBoth a w).readData = s.readData ∧ (s.setBoth a w).clk = s.clk ∧
    (s.setBoth a w).dev = s.dev ∧ (s.setBoth a w).vioA = s.vioA ∧ (s.setBoth a w).vioB = s.vioB ∧
    (s.setBoth a w).ports = s.ports ∧ (s.setBoth a w).shelfSeen = s.shelfSeen ∧
    (s.setBoth a w).shelfFresh = s.shelfFresh ∧ (s.setBoth a w).dmaCh = s.dmaCh ∧ (s.setBoth a w).dma = s.dma ∧
    (s.setBoth a w).cvu = s.cvu ∧ (s.setBoth a w).mbx = s.mbx ∧ (s.setBoth a w).otp = s.otp ∧
    (s.setBoth a w).flash = s.flash ∧ (s.setBoth a w).trust = s.trust ∧ (s.setBoth a w).boot = s.boot ∧
    (s.setBoth a w).power = s.power ∧ (s.setBoth a w).slkPort = s.slkPort ∧ (s.setBoth a w).slk = s.slk ∧
    (s.setBoth a w).sen = s.sen ∧ (s.setBoth a w).pending = s.pending := by
  repeat' apply And.intro
  all_goals rfl

@[simp] theorem State.setFlag_rest (f : Fld) :
    (s.setFlag f).act = s.act ∧ (s.setFlag f).mem = s.mem ∧ (s.setFlag f).holes = s.holes ∧
    (s.setFlag f).dmemA = s.dmemA ∧ (s.setFlag f).dmemB = s.dmemB ∧ (s.setFlag f).now = s.now ∧
    (s.setFlag f).draws = s.draws ∧ (s.setFlag f).grants = s.grants ∧ (s.setFlag f).spi = s.spi ∧
    (s.setFlag f).stn = s.stn ∧ (s.setFlag f).pwm = s.pwm ∧ (s.setFlag f).hb = s.hb ∧ (s.setFlag f).wcomp = s.wcomp ∧
    (s.setFlag f).inp = s.inp ∧ (s.setFlag f).conv = s.conv ∧ (s.setFlag f).pair = s.pair ∧ (s.setFlag f).cal = s.cal ∧
    (s.setFlag f).sdm = s.sdm ∧ (s.setFlag f).banksA = s.banksA ∧ (s.setFlag f).banksB = s.banksB ∧
    (s.setFlag f).serving = s.serving ∧ (s.setFlag f).ready = s.ready ∧ (s.setFlag f).red = s.red ∧
    (s.setFlag f).clock = s.clock ∧ (s.setFlag f).ptp = s.ptp ∧ (s.setFlag f).fw = s.fw ∧ (s.setFlag f).caps = s.caps ∧
    (s.setFlag f).chest = s.chest ∧ (s.setFlag f).streams = s.streams ∧ (s.setFlag f).trigs = s.trigs ∧
    (s.setFlag f).safe = s.safe ∧ (s.setFlag f).safeStn = s.safeStn ∧ (s.setFlag f).sin = s.sin ∧
    (s.setFlag f).sout = s.sout ∧ (s.setFlag f).pendSet = s.pendSet ∧ (s.setFlag f).readData = s.readData ∧
    (s.setFlag f).clk = s.clk ∧ (s.setFlag f).dev = s.dev ∧ (s.setFlag f).vioA = s.vioA ∧ (s.setFlag f).vioB = s.vioB ∧
    (s.setFlag f).ports = s.ports ∧ (s.setFlag f).shelfSeen = s.shelfSeen ∧ (s.setFlag f).shelfFresh = s.shelfFresh ∧
    (s.setFlag f).dmaCh = s.dmaCh ∧ (s.setFlag f).dma = s.dma ∧ (s.setFlag f).cvu = s.cvu ∧ (s.setFlag f).mbx = s.mbx ∧
    (s.setFlag f).otp = s.otp ∧ (s.setFlag f).flash = s.flash ∧ (s.setFlag f).trust = s.trust ∧
    (s.setFlag f).boot = s.boot ∧ (s.setFlag f).power = s.power ∧ (s.setFlag f).slkPort = s.slkPort ∧
    (s.setFlag f).slk = s.slk ∧ (s.setFlag f).sen = s.sen ∧ (s.setFlag f).pending = s.pending := by
  repeat' apply And.intro
  all_goals rfl

@[simp] theorem State.countBy_rest (f : Fld) (n : Nat) :
    (s.countBy f n).act = s.act ∧ (s.countBy f n).mem = s.mem ∧ (s.countBy f n).holes = s.holes ∧
    (s.countBy f n).dmemA = s.dmemA ∧ (s.countBy f n).dmemB = s.dmemB ∧ (s.countBy f n).now = s.now ∧
    (s.countBy f n).draws = s.draws ∧ (s.countBy f n).grants = s.grants ∧ (s.countBy f n).spi = s.spi ∧
    (s.countBy f n).stn = s.stn ∧ (s.countBy f n).pwm = s.pwm ∧ (s.countBy f n).hb = s.hb ∧
    (s.countBy f n).wcomp = s.wcomp ∧ (s.countBy f n).inp = s.inp ∧ (s.countBy f n).conv = s.conv ∧
    (s.countBy f n).pair = s.pair ∧ (s.countBy f n).cal = s.cal ∧ (s.countBy f n).sdm = s.sdm ∧
    (s.countBy f n).banksA = s.banksA ∧ (s.countBy f n).banksB = s.banksB ∧ (s.countBy f n).serving = s.serving ∧
    (s.countBy f n).ready = s.ready ∧ (s.countBy f n).red = s.red ∧ (s.countBy f n).clock = s.clock ∧
    (s.countBy f n).ptp = s.ptp ∧ (s.countBy f n).fw = s.fw ∧ (s.countBy f n).caps = s.caps ∧
    (s.countBy f n).chest = s.chest ∧ (s.countBy f n).streams = s.streams ∧ (s.countBy f n).trigs = s.trigs ∧
    (s.countBy f n).safe = s.safe ∧ (s.countBy f n).safeStn = s.safeStn ∧ (s.countBy f n).sin = s.sin ∧
    (s.countBy f n).sout = s.sout ∧ (s.countBy f n).pendSet = s.pendSet ∧ (s.countBy f n).readData = s.readData ∧
    (s.countBy f n).clk = s.clk ∧ (s.countBy f n).dev = s.dev ∧ (s.countBy f n).vioA = s.vioA ∧
    (s.countBy f n).vioB = s.vioB ∧ (s.countBy f n).ports = s.ports ∧ (s.countBy f n).shelfSeen = s.shelfSeen ∧
    (s.countBy f n).shelfFresh = s.shelfFresh ∧ (s.countBy f n).dmaCh = s.dmaCh ∧ (s.countBy f n).dma = s.dma ∧
    (s.countBy f n).cvu = s.cvu ∧ (s.countBy f n).mbx = s.mbx ∧ (s.countBy f n).otp = s.otp ∧
    (s.countBy f n).flash = s.flash ∧ (s.countBy f n).trust = s.trust ∧ (s.countBy f n).boot = s.boot ∧
    (s.countBy f n).power = s.power ∧ (s.countBy f n).slkPort = s.slkPort ∧ (s.countBy f n).slk = s.slk ∧
    (s.countBy f n).sen = s.sen ∧ (s.countBy f n).pending = s.pending := by
  repeat' apply And.intro
  all_goals rfl

@[simp] theorem State.count_rest (f : Fld) :
    (s.count f).act = s.act ∧ (s.count f).mem = s.mem ∧ (s.count f).holes = s.holes ∧ (s.count f).dmemA = s.dmemA ∧
    (s.count f).dmemB = s.dmemB ∧ (s.count f).now = s.now ∧ (s.count f).draws = s.draws ∧
    (s.count f).grants = s.grants ∧ (s.count f).spi = s.spi ∧ (s.count f).stn = s.stn ∧ (s.count f).pwm = s.pwm ∧
    (s.count f).hb = s.hb ∧ (s.count f).wcomp = s.wcomp ∧ (s.count f).inp = s.inp ∧ (s.count f).conv = s.conv ∧
    (s.count f).pair = s.pair ∧ (s.count f).cal = s.cal ∧ (s.count f).sdm = s.sdm ∧ (s.count f).banksA = s.banksA ∧
    (s.count f).banksB = s.banksB ∧ (s.count f).serving = s.serving ∧ (s.count f).ready = s.ready ∧
    (s.count f).red = s.red ∧ (s.count f).clock = s.clock ∧ (s.count f).ptp = s.ptp ∧ (s.count f).fw = s.fw ∧
    (s.count f).caps = s.caps ∧ (s.count f).chest = s.chest ∧ (s.count f).streams = s.streams ∧
    (s.count f).trigs = s.trigs ∧ (s.count f).safe = s.safe ∧ (s.count f).safeStn = s.safeStn ∧
    (s.count f).sin = s.sin ∧ (s.count f).sout = s.sout ∧ (s.count f).pendSet = s.pendSet ∧
    (s.count f).readData = s.readData ∧ (s.count f).clk = s.clk ∧ (s.count f).dev = s.dev ∧ (s.count f).vioA = s.vioA ∧
    (s.count f).vioB = s.vioB ∧ (s.count f).ports = s.ports ∧ (s.count f).shelfSeen = s.shelfSeen ∧
    (s.count f).shelfFresh = s.shelfFresh ∧ (s.count f).dmaCh = s.dmaCh ∧ (s.count f).dma = s.dma ∧
    (s.count f).cvu = s.cvu ∧ (s.count f).mbx = s.mbx ∧ (s.count f).otp = s.otp ∧ (s.count f).flash = s.flash ∧
    (s.count f).trust = s.trust ∧ (s.count f).boot = s.boot ∧ (s.count f).power = s.power ∧
    (s.count f).slkPort = s.slkPort ∧ (s.count f).slk = s.slk ∧ (s.count f).sen = s.sen ∧
    (s.count f).pending = s.pending := by
  repeat' apply And.intro
  all_goals rfl

@[simp] theorem State.setByte_rest (a : Nat) (b : Byte) :
    (s.setByte a b).regs = s.regs ∧ (s.setByte a b).act = s.act ∧ (s.setByte a b).holes = s.holes ∧
    (s.setByte a b).dmemA = s.dmemA ∧ (s.setByte a b).dmemB = s.dmemB ∧ (s.setByte a b).now = s.now ∧
    (s.setByte a b).draws = s.draws ∧ (s.setByte a b).grants = s.grants ∧ (s.setByte a b).spi = s.spi ∧
    (s.setByte a b).stn = s.stn ∧ (s.setByte a b).pwm = s.pwm ∧ (s.setByte a b).hb = s.hb ∧
    (s.setByte a b).wcomp = s.wcomp ∧ (s.setByte a b).inp = s.inp ∧ (s.setByte a b).conv = s.conv ∧
    (s.setByte a b).pair = s.pair ∧ (s.setByte a b).cal = s.cal ∧ (s.setByte a b).sdm = s.sdm ∧
    (s.setByte a b).banksA = s.banksA ∧ (s.setByte a b).banksB = s.banksB ∧ (s.setByte a b).serving = s.serving ∧
    (s.setByte a b).ready = s.ready ∧ (s.setByte a b).red = s.red ∧ (s.setByte a b).clock = s.clock ∧
    (s.setByte a b).ptp = s.ptp ∧ (s.setByte a b).fw = s.fw ∧ (s.setByte a b).caps = s.caps ∧
    (s.setByte a b).chest = s.chest ∧ (s.setByte a b).streams = s.streams ∧ (s.setByte a b).trigs = s.trigs ∧
    (s.setByte a b).safe = s.safe ∧ (s.setByte a b).safeStn = s.safeStn ∧ (s.setByte a b).sin = s.sin ∧
    (s.setByte a b).sout = s.sout ∧ (s.setByte a b).pendSet = s.pendSet ∧ (s.setByte a b).readData = s.readData ∧
    (s.setByte a b).clk = s.clk ∧ (s.setByte a b).dev = s.dev ∧ (s.setByte a b).vioA = s.vioA ∧
    (s.setByte a b).vioB = s.vioB ∧ (s.setByte a b).ports = s.ports ∧ (s.setByte a b).shelfSeen = s.shelfSeen ∧
    (s.setByte a b).shelfFresh = s.shelfFresh ∧ (s.setByte a b).dmaCh = s.dmaCh ∧ (s.setByte a b).dma = s.dma ∧
    (s.setByte a b).cvu = s.cvu ∧ (s.setByte a b).mbx = s.mbx ∧ (s.setByte a b).otp = s.otp ∧
    (s.setByte a b).flash = s.flash ∧ (s.setByte a b).trust = s.trust ∧ (s.setByte a b).boot = s.boot ∧
    (s.setByte a b).power = s.power ∧ (s.setByte a b).slkPort = s.slkPort ∧ (s.setByte a b).slk = s.slk ∧
    (s.setByte a b).sen = s.sen ∧ (s.setByte a b).pending = s.pending := by
  repeat' apply And.intro
  all_goals rfl

@[simp] theorem State.setHole_rest (o : Nat) (b : Byte) :
    (s.setHole o b).regs = s.regs ∧ (s.setHole o b).act = s.act ∧ (s.setHole o b).mem = s.mem ∧
    (s.setHole o b).dmemA = s.dmemA ∧ (s.setHole o b).dmemB = s.dmemB ∧ (s.setHole o b).now = s.now ∧
    (s.setHole o b).draws = s.draws ∧ (s.setHole o b).grants = s.grants ∧ (s.setHole o b).spi = s.spi ∧
    (s.setHole o b).stn = s.stn ∧ (s.setHole o b).pwm = s.pwm ∧ (s.setHole o b).hb = s.hb ∧
    (s.setHole o b).wcomp = s.wcomp ∧ (s.setHole o b).inp = s.inp ∧ (s.setHole o b).conv = s.conv ∧
    (s.setHole o b).pair = s.pair ∧ (s.setHole o b).cal = s.cal ∧ (s.setHole o b).sdm = s.sdm ∧
    (s.setHole o b).banksA = s.banksA ∧ (s.setHole o b).banksB = s.banksB ∧ (s.setHole o b).serving = s.serving ∧
    (s.setHole o b).ready = s.ready ∧ (s.setHole o b).red = s.red ∧ (s.setHole o b).clock = s.clock ∧
    (s.setHole o b).ptp = s.ptp ∧ (s.setHole o b).fw = s.fw ∧ (s.setHole o b).caps = s.caps ∧
    (s.setHole o b).chest = s.chest ∧ (s.setHole o b).streams = s.streams ∧ (s.setHole o b).trigs = s.trigs ∧
    (s.setHole o b).safe = s.safe ∧ (s.setHole o b).safeStn = s.safeStn ∧ (s.setHole o b).sin = s.sin ∧
    (s.setHole o b).sout = s.sout ∧ (s.setHole o b).pendSet = s.pendSet ∧ (s.setHole o b).readData = s.readData ∧
    (s.setHole o b).clk = s.clk ∧ (s.setHole o b).dev = s.dev ∧ (s.setHole o b).vioA = s.vioA ∧
    (s.setHole o b).vioB = s.vioB ∧ (s.setHole o b).ports = s.ports ∧ (s.setHole o b).shelfSeen = s.shelfSeen ∧
    (s.setHole o b).shelfFresh = s.shelfFresh ∧ (s.setHole o b).dmaCh = s.dmaCh ∧ (s.setHole o b).dma = s.dma ∧
    (s.setHole o b).cvu = s.cvu ∧ (s.setHole o b).mbx = s.mbx ∧ (s.setHole o b).otp = s.otp ∧
    (s.setHole o b).flash = s.flash ∧ (s.setHole o b).trust = s.trust ∧ (s.setHole o b).boot = s.boot ∧
    (s.setHole o b).power = s.power ∧ (s.setHole o b).slkPort = s.slkPort ∧ (s.setHole o b).slk = s.slk ∧
    (s.setHole o b).sen = s.sen ∧ (s.setHole o b).pending = s.pending := by
  repeat' apply And.intro
  all_goals rfl

@[simp] theorem State.draw_rest  :
    (s.draw).regs = s.regs ∧ (s.draw).act = s.act ∧ (s.draw).mem = s.mem ∧ (s.draw).holes = s.holes ∧
    (s.draw).dmemA = s.dmemA ∧ (s.draw).dmemB = s.dmemB ∧ (s.draw).now = s.now ∧ (s.draw).grants = s.grants ∧
    (s.draw).spi = s.spi ∧ (s.draw).stn = s.stn ∧ (s.draw).pwm = s.pwm ∧ (s.draw).hb = s.hb ∧ (s.draw).wcomp = s.wcomp ∧
    (s.draw).inp = s.inp ∧ (s.draw).conv = s.conv ∧ (s.draw).pair = s.pair ∧ (s.draw).cal = s.cal ∧
    (s.draw).sdm = s.sdm ∧ (s.draw).banksA = s.banksA ∧ (s.draw).banksB = s.banksB ∧ (s.draw).serving = s.serving ∧
    (s.draw).ready = s.ready ∧ (s.draw).red = s.red ∧ (s.draw).clock = s.clock ∧ (s.draw).ptp = s.ptp ∧
    (s.draw).fw = s.fw ∧ (s.draw).caps = s.caps ∧ (s.draw).chest = s.chest ∧ (s.draw).streams = s.streams ∧
    (s.draw).trigs = s.trigs ∧ (s.draw).safe = s.safe ∧ (s.draw).safeStn = s.safeStn ∧ (s.draw).sin = s.sin ∧
    (s.draw).sout = s.sout ∧ (s.draw).pendSet = s.pendSet ∧ (s.draw).readData = s.readData ∧ (s.draw).clk = s.clk ∧
    (s.draw).dev = s.dev ∧ (s.draw).vioA = s.vioA ∧ (s.draw).vioB = s.vioB ∧ (s.draw).ports = s.ports ∧
    (s.draw).shelfSeen = s.shelfSeen ∧ (s.draw).shelfFresh = s.shelfFresh ∧ (s.draw).dmaCh = s.dmaCh ∧
    (s.draw).dma = s.dma ∧ (s.draw).cvu = s.cvu ∧ (s.draw).mbx = s.mbx ∧ (s.draw).otp = s.otp ∧
    (s.draw).flash = s.flash ∧ (s.draw).trust = s.trust ∧ (s.draw).boot = s.boot ∧ (s.draw).power = s.power ∧
    (s.draw).slkPort = s.slkPort ∧ (s.draw).slk = s.slk ∧ (s.draw).sen = s.sen ∧ (s.draw).pending = s.pending := by
  repeat' apply And.intro
  all_goals rfl

@[simp] theorem State.onStn_rest (n : Nat) (f : Stn → Stn) :
    (s.onStn n f).regs = s.regs ∧ (s.onStn n f).act = s.act ∧ (s.onStn n f).mem = s.mem ∧
    (s.onStn n f).holes = s.holes ∧ (s.onStn n f).dmemA = s.dmemA ∧ (s.onStn n f).dmemB = s.dmemB ∧
    (s.onStn n f).now = s.now ∧ (s.onStn n f).draws = s.draws ∧ (s.onStn n f).grants = s.grants ∧
    (s.onStn n f).spi = s.spi ∧ (s.onStn n f).pwm = s.pwm ∧ (s.onStn n f).hb = s.hb ∧ (s.onStn n f).wcomp = s.wcomp ∧
    (s.onStn n f).inp = s.inp ∧ (s.onStn n f).conv = s.conv ∧ (s.onStn n f).pair = s.pair ∧ (s.onStn n f).cal = s.cal ∧
    (s.onStn n f).sdm = s.sdm ∧ (s.onStn n f).banksA = s.banksA ∧ (s.onStn n f).banksB = s.banksB ∧
    (s.onStn n f).serving = s.serving ∧ (s.onStn n f).ready = s.ready ∧ (s.onStn n f).red = s.red ∧
    (s.onStn n f).clock = s.clock ∧ (s.onStn n f).ptp = s.ptp ∧ (s.onStn n f).fw = s.fw ∧ (s.onStn n f).caps = s.caps ∧
    (s.onStn n f).chest = s.chest ∧ (s.onStn n f).streams = s.streams ∧ (s.onStn n f).trigs = s.trigs ∧
    (s.onStn n f).safe = s.safe ∧ (s.onStn n f).safeStn = s.safeStn ∧ (s.onStn n f).sin = s.sin ∧
    (s.onStn n f).sout = s.sout ∧ (s.onStn n f).pendSet = s.pendSet ∧ (s.onStn n f).readData = s.readData ∧
    (s.onStn n f).clk = s.clk ∧ (s.onStn n f).dev = s.dev ∧ (s.onStn n f).vioA = s.vioA ∧ (s.onStn n f).vioB = s.vioB ∧
    (s.onStn n f).ports = s.ports ∧ (s.onStn n f).shelfSeen = s.shelfSeen ∧ (s.onStn n f).shelfFresh = s.shelfFresh ∧
    (s.onStn n f).dmaCh = s.dmaCh ∧ (s.onStn n f).dma = s.dma ∧ (s.onStn n f).cvu = s.cvu ∧ (s.onStn n f).mbx = s.mbx ∧
    (s.onStn n f).otp = s.otp ∧ (s.onStn n f).flash = s.flash ∧ (s.onStn n f).trust = s.trust ∧
    (s.onStn n f).boot = s.boot ∧ (s.onStn n f).power = s.power ∧ (s.onStn n f).slkPort = s.slkPort ∧
    (s.onStn n f).slk = s.slk ∧ (s.onStn n f).sen = s.sen ∧ (s.onStn n f).pending = s.pending := by
  repeat' apply And.intro
  all_goals rfl

@[simp] theorem State.onPwm_rest (n : Nat) (f : PwmUnit → PwmUnit) :
    (s.onPwm n f).regs = s.regs ∧ (s.onPwm n f).act = s.act ∧ (s.onPwm n f).mem = s.mem ∧
    (s.onPwm n f).holes = s.holes ∧ (s.onPwm n f).dmemA = s.dmemA ∧ (s.onPwm n f).dmemB = s.dmemB ∧
    (s.onPwm n f).now = s.now ∧ (s.onPwm n f).draws = s.draws ∧ (s.onPwm n f).grants = s.grants ∧
    (s.onPwm n f).spi = s.spi ∧ (s.onPwm n f).stn = s.stn ∧ (s.onPwm n f).hb = s.hb ∧ (s.onPwm n f).wcomp = s.wcomp ∧
    (s.onPwm n f).inp = s.inp ∧ (s.onPwm n f).conv = s.conv ∧ (s.onPwm n f).pair = s.pair ∧ (s.onPwm n f).cal = s.cal ∧
    (s.onPwm n f).sdm = s.sdm ∧ (s.onPwm n f).banksA = s.banksA ∧ (s.onPwm n f).banksB = s.banksB ∧
    (s.onPwm n f).serving = s.serving ∧ (s.onPwm n f).ready = s.ready ∧ (s.onPwm n f).red = s.red ∧
    (s.onPwm n f).clock = s.clock ∧ (s.onPwm n f).ptp = s.ptp ∧ (s.onPwm n f).fw = s.fw ∧ (s.onPwm n f).caps = s.caps ∧
    (s.onPwm n f).chest = s.chest ∧ (s.onPwm n f).streams = s.streams ∧ (s.onPwm n f).trigs = s.trigs ∧
    (s.onPwm n f).safe = s.safe ∧ (s.onPwm n f).safeStn = s.safeStn ∧ (s.onPwm n f).sin = s.sin ∧
    (s.onPwm n f).sout = s.sout ∧ (s.onPwm n f).pendSet = s.pendSet ∧ (s.onPwm n f).readData = s.readData ∧
    (s.onPwm n f).clk = s.clk ∧ (s.onPwm n f).dev = s.dev ∧ (s.onPwm n f).vioA = s.vioA ∧ (s.onPwm n f).vioB = s.vioB ∧
    (s.onPwm n f).ports = s.ports ∧ (s.onPwm n f).shelfSeen = s.shelfSeen ∧ (s.onPwm n f).shelfFresh = s.shelfFresh ∧
    (s.onPwm n f).dmaCh = s.dmaCh ∧ (s.onPwm n f).dma = s.dma ∧ (s.onPwm n f).cvu = s.cvu ∧ (s.onPwm n f).mbx = s.mbx ∧
    (s.onPwm n f).otp = s.otp ∧ (s.onPwm n f).flash = s.flash ∧ (s.onPwm n f).trust = s.trust ∧
    (s.onPwm n f).boot = s.boot ∧ (s.onPwm n f).power = s.power ∧ (s.onPwm n f).slkPort = s.slkPort ∧
    (s.onPwm n f).slk = s.slk ∧ (s.onPwm n f).sen = s.sen ∧ (s.onPwm n f).pending = s.pending := by
  repeat' apply And.intro
  all_goals rfl

@[simp] theorem State.onHb_rest (n k : Nat) (f : HalfBridge → HalfBridge) :
    (s.onHb n k f).regs = s.regs ∧ (s.onHb n k f).act = s.act ∧ (s.onHb n k f).mem = s.mem ∧
    (s.onHb n k f).holes = s.holes ∧ (s.onHb n k f).dmemA = s.dmemA ∧ (s.onHb n k f).dmemB = s.dmemB ∧
    (s.onHb n k f).now = s.now ∧ (s.onHb n k f).draws = s.draws ∧ (s.onHb n k f).grants = s.grants ∧
    (s.onHb n k f).spi = s.spi ∧ (s.onHb n k f).stn = s.stn ∧ (s.onHb n k f).pwm = s.pwm ∧
    (s.onHb n k f).wcomp = s.wcomp ∧ (s.onHb n k f).inp = s.inp ∧ (s.onHb n k f).conv = s.conv ∧
    (s.onHb n k f).pair = s.pair ∧ (s.onHb n k f).cal = s.cal ∧ (s.onHb n k f).sdm = s.sdm ∧
    (s.onHb n k f).banksA = s.banksA ∧ (s.onHb n k f).banksB = s.banksB ∧ (s.onHb n k f).serving = s.serving ∧
    (s.onHb n k f).ready = s.ready ∧ (s.onHb n k f).red = s.red ∧ (s.onHb n k f).clock = s.clock ∧
    (s.onHb n k f).ptp = s.ptp ∧ (s.onHb n k f).fw = s.fw ∧ (s.onHb n k f).caps = s.caps ∧
    (s.onHb n k f).chest = s.chest ∧ (s.onHb n k f).streams = s.streams ∧ (s.onHb n k f).trigs = s.trigs ∧
    (s.onHb n k f).safe = s.safe ∧ (s.onHb n k f).safeStn = s.safeStn ∧ (s.onHb n k f).sin = s.sin ∧
    (s.onHb n k f).sout = s.sout ∧ (s.onHb n k f).pendSet = s.pendSet ∧ (s.onHb n k f).readData = s.readData ∧
    (s.onHb n k f).clk = s.clk ∧ (s.onHb n k f).dev = s.dev ∧ (s.onHb n k f).vioA = s.vioA ∧
    (s.onHb n k f).vioB = s.vioB ∧ (s.onHb n k f).ports = s.ports ∧ (s.onHb n k f).shelfSeen = s.shelfSeen ∧
    (s.onHb n k f).shelfFresh = s.shelfFresh ∧ (s.onHb n k f).dmaCh = s.dmaCh ∧ (s.onHb n k f).dma = s.dma ∧
    (s.onHb n k f).cvu = s.cvu ∧ (s.onHb n k f).mbx = s.mbx ∧ (s.onHb n k f).otp = s.otp ∧
    (s.onHb n k f).flash = s.flash ∧ (s.onHb n k f).trust = s.trust ∧ (s.onHb n k f).boot = s.boot ∧
    (s.onHb n k f).power = s.power ∧ (s.onHb n k f).slkPort = s.slkPort ∧ (s.onHb n k f).slk = s.slk ∧
    (s.onHb n k f).sen = s.sen ∧ (s.onHb n k f).pending = s.pending := by
  repeat' apply And.intro
  all_goals rfl

@[simp] theorem State.onWcomp_rest (n k : Nat) (f : WindowComp → WindowComp) :
    (s.onWcomp n k f).regs = s.regs ∧ (s.onWcomp n k f).act = s.act ∧ (s.onWcomp n k f).mem = s.mem ∧
    (s.onWcomp n k f).holes = s.holes ∧ (s.onWcomp n k f).dmemA = s.dmemA ∧ (s.onWcomp n k f).dmemB = s.dmemB ∧
    (s.onWcomp n k f).now = s.now ∧ (s.onWcomp n k f).draws = s.draws ∧ (s.onWcomp n k f).grants = s.grants ∧
    (s.onWcomp n k f).spi = s.spi ∧ (s.onWcomp n k f).stn = s.stn ∧ (s.onWcomp n k f).pwm = s.pwm ∧
    (s.onWcomp n k f).hb = s.hb ∧ (s.onWcomp n k f).inp = s.inp ∧ (s.onWcomp n k f).conv = s.conv ∧
    (s.onWcomp n k f).pair = s.pair ∧ (s.onWcomp n k f).cal = s.cal ∧ (s.onWcomp n k f).sdm = s.sdm ∧
    (s.onWcomp n k f).banksA = s.banksA ∧ (s.onWcomp n k f).banksB = s.banksB ∧ (s.onWcomp n k f).serving = s.serving ∧
    (s.onWcomp n k f).ready = s.ready ∧ (s.onWcomp n k f).red = s.red ∧ (s.onWcomp n k f).clock = s.clock ∧
    (s.onWcomp n k f).ptp = s.ptp ∧ (s.onWcomp n k f).fw = s.fw ∧ (s.onWcomp n k f).caps = s.caps ∧
    (s.onWcomp n k f).chest = s.chest ∧ (s.onWcomp n k f).streams = s.streams ∧ (s.onWcomp n k f).trigs = s.trigs ∧
    (s.onWcomp n k f).safe = s.safe ∧ (s.onWcomp n k f).safeStn = s.safeStn ∧ (s.onWcomp n k f).sin = s.sin ∧
    (s.onWcomp n k f).sout = s.sout ∧ (s.onWcomp n k f).pendSet = s.pendSet ∧ (s.onWcomp n k f).readData = s.readData ∧
    (s.onWcomp n k f).clk = s.clk ∧ (s.onWcomp n k f).dev = s.dev ∧ (s.onWcomp n k f).vioA = s.vioA ∧
    (s.onWcomp n k f).vioB = s.vioB ∧ (s.onWcomp n k f).ports = s.ports ∧ (s.onWcomp n k f).shelfSeen = s.shelfSeen ∧
    (s.onWcomp n k f).shelfFresh = s.shelfFresh ∧ (s.onWcomp n k f).dmaCh = s.dmaCh ∧ (s.onWcomp n k f).dma = s.dma ∧
    (s.onWcomp n k f).cvu = s.cvu ∧ (s.onWcomp n k f).mbx = s.mbx ∧ (s.onWcomp n k f).otp = s.otp ∧
    (s.onWcomp n k f).flash = s.flash ∧ (s.onWcomp n k f).trust = s.trust ∧ (s.onWcomp n k f).boot = s.boot ∧
    (s.onWcomp n k f).power = s.power ∧ (s.onWcomp n k f).slkPort = s.slkPort ∧ (s.onWcomp n k f).slk = s.slk ∧
    (s.onWcomp n k f).sen = s.sen ∧ (s.onWcomp n k f).pending = s.pending := by
  repeat' apply And.intro
  all_goals rfl

@[simp] theorem State.onInp_rest (n k : Nat) (f : InputWatch → InputWatch) :
    (s.onInp n k f).regs = s.regs ∧ (s.onInp n k f).act = s.act ∧ (s.onInp n k f).mem = s.mem ∧
    (s.onInp n k f).holes = s.holes ∧ (s.onInp n k f).dmemA = s.dmemA ∧ (s.onInp n k f).dmemB = s.dmemB ∧
    (s.onInp n k f).now = s.now ∧ (s.onInp n k f).draws = s.draws ∧ (s.onInp n k f).grants = s.grants ∧
    (s.onInp n k f).spi = s.spi ∧ (s.onInp n k f).stn = s.stn ∧ (s.onInp n k f).pwm = s.pwm ∧
    (s.onInp n k f).hb = s.hb ∧ (s.onInp n k f).wcomp = s.wcomp ∧ (s.onInp n k f).conv = s.conv ∧
    (s.onInp n k f).pair = s.pair ∧ (s.onInp n k f).cal = s.cal ∧ (s.onInp n k f).sdm = s.sdm ∧
    (s.onInp n k f).banksA = s.banksA ∧ (s.onInp n k f).banksB = s.banksB ∧ (s.onInp n k f).serving = s.serving ∧
    (s.onInp n k f).ready = s.ready ∧ (s.onInp n k f).red = s.red ∧ (s.onInp n k f).clock = s.clock ∧
    (s.onInp n k f).ptp = s.ptp ∧ (s.onInp n k f).fw = s.fw ∧ (s.onInp n k f).caps = s.caps ∧
    (s.onInp n k f).chest = s.chest ∧ (s.onInp n k f).streams = s.streams ∧ (s.onInp n k f).trigs = s.trigs ∧
    (s.onInp n k f).safe = s.safe ∧ (s.onInp n k f).safeStn = s.safeStn ∧ (s.onInp n k f).sin = s.sin ∧
    (s.onInp n k f).sout = s.sout ∧ (s.onInp n k f).pendSet = s.pendSet ∧ (s.onInp n k f).readData = s.readData ∧
    (s.onInp n k f).clk = s.clk ∧ (s.onInp n k f).dev = s.dev ∧ (s.onInp n k f).vioA = s.vioA ∧
    (s.onInp n k f).vioB = s.vioB ∧ (s.onInp n k f).ports = s.ports ∧ (s.onInp n k f).shelfSeen = s.shelfSeen ∧
    (s.onInp n k f).shelfFresh = s.shelfFresh ∧ (s.onInp n k f).dmaCh = s.dmaCh ∧ (s.onInp n k f).dma = s.dma ∧
    (s.onInp n k f).cvu = s.cvu ∧ (s.onInp n k f).mbx = s.mbx ∧ (s.onInp n k f).otp = s.otp ∧
    (s.onInp n k f).flash = s.flash ∧ (s.onInp n k f).trust = s.trust ∧ (s.onInp n k f).boot = s.boot ∧
    (s.onInp n k f).power = s.power ∧ (s.onInp n k f).slkPort = s.slkPort ∧ (s.onInp n k f).slk = s.slk ∧
    (s.onInp n k f).sen = s.sen ∧ (s.onInp n k f).pending = s.pending := by
  repeat' apply And.intro
  all_goals rfl

@[simp] theorem State.onConv_rest (n : Nat) (f : Conv → Conv) :
    (s.onConv n f).regs = s.regs ∧ (s.onConv n f).act = s.act ∧ (s.onConv n f).mem = s.mem ∧
    (s.onConv n f).holes = s.holes ∧ (s.onConv n f).dmemA = s.dmemA ∧ (s.onConv n f).dmemB = s.dmemB ∧
    (s.onConv n f).now = s.now ∧ (s.onConv n f).draws = s.draws ∧ (s.onConv n f).grants = s.grants ∧
    (s.onConv n f).spi = s.spi ∧ (s.onConv n f).stn = s.stn ∧ (s.onConv n f).pwm = s.pwm ∧ (s.onConv n f).hb = s.hb ∧
    (s.onConv n f).wcomp = s.wcomp ∧ (s.onConv n f).inp = s.inp ∧ (s.onConv n f).pair = s.pair ∧
    (s.onConv n f).cal = s.cal ∧ (s.onConv n f).sdm = s.sdm ∧ (s.onConv n f).banksA = s.banksA ∧
    (s.onConv n f).banksB = s.banksB ∧ (s.onConv n f).serving = s.serving ∧ (s.onConv n f).ready = s.ready ∧
    (s.onConv n f).red = s.red ∧ (s.onConv n f).clock = s.clock ∧ (s.onConv n f).ptp = s.ptp ∧
    (s.onConv n f).fw = s.fw ∧ (s.onConv n f).caps = s.caps ∧ (s.onConv n f).chest = s.chest ∧
    (s.onConv n f).streams = s.streams ∧ (s.onConv n f).trigs = s.trigs ∧ (s.onConv n f).safe = s.safe ∧
    (s.onConv n f).safeStn = s.safeStn ∧ (s.onConv n f).sin = s.sin ∧ (s.onConv n f).sout = s.sout ∧
    (s.onConv n f).pendSet = s.pendSet ∧ (s.onConv n f).readData = s.readData ∧ (s.onConv n f).clk = s.clk ∧
    (s.onConv n f).dev = s.dev ∧ (s.onConv n f).vioA = s.vioA ∧ (s.onConv n f).vioB = s.vioB ∧
    (s.onConv n f).ports = s.ports ∧ (s.onConv n f).shelfSeen = s.shelfSeen ∧ (s.onConv n f).shelfFresh = s.shelfFresh ∧
    (s.onConv n f).dmaCh = s.dmaCh ∧ (s.onConv n f).dma = s.dma ∧ (s.onConv n f).cvu = s.cvu ∧
    (s.onConv n f).mbx = s.mbx ∧ (s.onConv n f).otp = s.otp ∧ (s.onConv n f).flash = s.flash ∧
    (s.onConv n f).trust = s.trust ∧ (s.onConv n f).boot = s.boot ∧ (s.onConv n f).power = s.power ∧
    (s.onConv n f).slkPort = s.slkPort ∧ (s.onConv n f).slk = s.slk ∧ (s.onConv n f).sen = s.sen ∧
    (s.onConv n f).pending = s.pending := by
  repeat' apply And.intro
  all_goals rfl

@[simp] theorem State.onPair_rest (n : Nat) (f : Pair → Pair) :
    (s.onPair n f).regs = s.regs ∧ (s.onPair n f).act = s.act ∧ (s.onPair n f).mem = s.mem ∧
    (s.onPair n f).holes = s.holes ∧ (s.onPair n f).dmemA = s.dmemA ∧ (s.onPair n f).dmemB = s.dmemB ∧
    (s.onPair n f).now = s.now ∧ (s.onPair n f).draws = s.draws ∧ (s.onPair n f).grants = s.grants ∧
    (s.onPair n f).spi = s.spi ∧ (s.onPair n f).stn = s.stn ∧ (s.onPair n f).pwm = s.pwm ∧ (s.onPair n f).hb = s.hb ∧
    (s.onPair n f).wcomp = s.wcomp ∧ (s.onPair n f).inp = s.inp ∧ (s.onPair n f).conv = s.conv ∧
    (s.onPair n f).cal = s.cal ∧ (s.onPair n f).sdm = s.sdm ∧ (s.onPair n f).banksA = s.banksA ∧
    (s.onPair n f).banksB = s.banksB ∧ (s.onPair n f).serving = s.serving ∧ (s.onPair n f).ready = s.ready ∧
    (s.onPair n f).red = s.red ∧ (s.onPair n f).clock = s.clock ∧ (s.onPair n f).ptp = s.ptp ∧
    (s.onPair n f).fw = s.fw ∧ (s.onPair n f).caps = s.caps ∧ (s.onPair n f).chest = s.chest ∧
    (s.onPair n f).streams = s.streams ∧ (s.onPair n f).trigs = s.trigs ∧ (s.onPair n f).safe = s.safe ∧
    (s.onPair n f).safeStn = s.safeStn ∧ (s.onPair n f).sin = s.sin ∧ (s.onPair n f).sout = s.sout ∧
    (s.onPair n f).pendSet = s.pendSet ∧ (s.onPair n f).readData = s.readData ∧ (s.onPair n f).clk = s.clk ∧
    (s.onPair n f).dev = s.dev ∧ (s.onPair n f).vioA = s.vioA ∧ (s.onPair n f).vioB = s.vioB ∧
    (s.onPair n f).ports = s.ports ∧ (s.onPair n f).shelfSeen = s.shelfSeen ∧ (s.onPair n f).shelfFresh = s.shelfFresh ∧
    (s.onPair n f).dmaCh = s.dmaCh ∧ (s.onPair n f).dma = s.dma ∧ (s.onPair n f).cvu = s.cvu ∧
    (s.onPair n f).mbx = s.mbx ∧ (s.onPair n f).otp = s.otp ∧ (s.onPair n f).flash = s.flash ∧
    (s.onPair n f).trust = s.trust ∧ (s.onPair n f).boot = s.boot ∧ (s.onPair n f).power = s.power ∧
    (s.onPair n f).slkPort = s.slkPort ∧ (s.onPair n f).slk = s.slk ∧ (s.onPair n f).sen = s.sen ∧
    (s.onPair n f).pending = s.pending := by
  repeat' apply And.intro
  all_goals rfl

@[simp] theorem State.onSdm_rest (n : Nat) (f : SdmCh → SdmCh) :
    (s.onSdm n f).regs = s.regs ∧ (s.onSdm n f).act = s.act ∧ (s.onSdm n f).mem = s.mem ∧
    (s.onSdm n f).holes = s.holes ∧ (s.onSdm n f).dmemA = s.dmemA ∧ (s.onSdm n f).dmemB = s.dmemB ∧
    (s.onSdm n f).now = s.now ∧ (s.onSdm n f).draws = s.draws ∧ (s.onSdm n f).grants = s.grants ∧
    (s.onSdm n f).spi = s.spi ∧ (s.onSdm n f).stn = s.stn ∧ (s.onSdm n f).pwm = s.pwm ∧ (s.onSdm n f).hb = s.hb ∧
    (s.onSdm n f).wcomp = s.wcomp ∧ (s.onSdm n f).inp = s.inp ∧ (s.onSdm n f).conv = s.conv ∧
    (s.onSdm n f).pair = s.pair ∧ (s.onSdm n f).cal = s.cal ∧ (s.onSdm n f).banksA = s.banksA ∧
    (s.onSdm n f).banksB = s.banksB ∧ (s.onSdm n f).serving = s.serving ∧ (s.onSdm n f).ready = s.ready ∧
    (s.onSdm n f).red = s.red ∧ (s.onSdm n f).clock = s.clock ∧ (s.onSdm n f).ptp = s.ptp ∧ (s.onSdm n f).fw = s.fw ∧
    (s.onSdm n f).caps = s.caps ∧ (s.onSdm n f).chest = s.chest ∧ (s.onSdm n f).streams = s.streams ∧
    (s.onSdm n f).trigs = s.trigs ∧ (s.onSdm n f).safe = s.safe ∧ (s.onSdm n f).safeStn = s.safeStn ∧
    (s.onSdm n f).sin = s.sin ∧ (s.onSdm n f).sout = s.sout ∧ (s.onSdm n f).pendSet = s.pendSet ∧
    (s.onSdm n f).readData = s.readData ∧ (s.onSdm n f).clk = s.clk ∧ (s.onSdm n f).dev = s.dev ∧
    (s.onSdm n f).vioA = s.vioA ∧ (s.onSdm n f).vioB = s.vioB ∧ (s.onSdm n f).ports = s.ports ∧
    (s.onSdm n f).shelfSeen = s.shelfSeen ∧ (s.onSdm n f).shelfFresh = s.shelfFresh ∧ (s.onSdm n f).dmaCh = s.dmaCh ∧
    (s.onSdm n f).dma = s.dma ∧ (s.onSdm n f).cvu = s.cvu ∧ (s.onSdm n f).mbx = s.mbx ∧ (s.onSdm n f).otp = s.otp ∧
    (s.onSdm n f).flash = s.flash ∧ (s.onSdm n f).trust = s.trust ∧ (s.onSdm n f).boot = s.boot ∧
    (s.onSdm n f).power = s.power ∧ (s.onSdm n f).slkPort = s.slkPort ∧ (s.onSdm n f).slk = s.slk ∧
    (s.onSdm n f).sen = s.sen ∧ (s.onSdm n f).pending = s.pending := by
  repeat' apply And.intro
  all_goals rfl

@[simp] theorem State.onCap_rest (n : Nat) (f : Cap → Cap) :
    (s.onCap n f).regs = s.regs ∧ (s.onCap n f).act = s.act ∧ (s.onCap n f).mem = s.mem ∧
    (s.onCap n f).holes = s.holes ∧ (s.onCap n f).dmemA = s.dmemA ∧ (s.onCap n f).dmemB = s.dmemB ∧
    (s.onCap n f).now = s.now ∧ (s.onCap n f).draws = s.draws ∧ (s.onCap n f).grants = s.grants ∧
    (s.onCap n f).spi = s.spi ∧ (s.onCap n f).stn = s.stn ∧ (s.onCap n f).pwm = s.pwm ∧ (s.onCap n f).hb = s.hb ∧
    (s.onCap n f).wcomp = s.wcomp ∧ (s.onCap n f).inp = s.inp ∧ (s.onCap n f).conv = s.conv ∧
    (s.onCap n f).pair = s.pair ∧ (s.onCap n f).cal = s.cal ∧ (s.onCap n f).sdm = s.sdm ∧
    (s.onCap n f).banksA = s.banksA ∧ (s.onCap n f).banksB = s.banksB ∧ (s.onCap n f).serving = s.serving ∧
    (s.onCap n f).ready = s.ready ∧ (s.onCap n f).red = s.red ∧ (s.onCap n f).clock = s.clock ∧
    (s.onCap n f).ptp = s.ptp ∧ (s.onCap n f).fw = s.fw ∧ (s.onCap n f).chest = s.chest ∧
    (s.onCap n f).streams = s.streams ∧ (s.onCap n f).trigs = s.trigs ∧ (s.onCap n f).safe = s.safe ∧
    (s.onCap n f).safeStn = s.safeStn ∧ (s.onCap n f).sin = s.sin ∧ (s.onCap n f).sout = s.sout ∧
    (s.onCap n f).pendSet = s.pendSet ∧ (s.onCap n f).readData = s.readData ∧ (s.onCap n f).clk = s.clk ∧
    (s.onCap n f).dev = s.dev ∧ (s.onCap n f).vioA = s.vioA ∧ (s.onCap n f).vioB = s.vioB ∧
    (s.onCap n f).ports = s.ports ∧ (s.onCap n f).shelfSeen = s.shelfSeen ∧ (s.onCap n f).shelfFresh = s.shelfFresh ∧
    (s.onCap n f).dmaCh = s.dmaCh ∧ (s.onCap n f).dma = s.dma ∧ (s.onCap n f).cvu = s.cvu ∧ (s.onCap n f).mbx = s.mbx ∧
    (s.onCap n f).otp = s.otp ∧ (s.onCap n f).flash = s.flash ∧ (s.onCap n f).trust = s.trust ∧
    (s.onCap n f).boot = s.boot ∧ (s.onCap n f).power = s.power ∧ (s.onCap n f).slkPort = s.slkPort ∧
    (s.onCap n f).slk = s.slk ∧ (s.onCap n f).sen = s.sen ∧ (s.onCap n f).pending = s.pending := by
  repeat' apply And.intro
  all_goals rfl

@[simp] theorem State.onStream_rest (n : Nat) (f : ChestStream → ChestStream) :
    (s.onStream n f).regs = s.regs ∧ (s.onStream n f).act = s.act ∧ (s.onStream n f).mem = s.mem ∧
    (s.onStream n f).holes = s.holes ∧ (s.onStream n f).dmemA = s.dmemA ∧ (s.onStream n f).dmemB = s.dmemB ∧
    (s.onStream n f).now = s.now ∧ (s.onStream n f).draws = s.draws ∧ (s.onStream n f).grants = s.grants ∧
    (s.onStream n f).spi = s.spi ∧ (s.onStream n f).stn = s.stn ∧ (s.onStream n f).pwm = s.pwm ∧
    (s.onStream n f).hb = s.hb ∧ (s.onStream n f).wcomp = s.wcomp ∧ (s.onStream n f).inp = s.inp ∧
    (s.onStream n f).conv = s.conv ∧ (s.onStream n f).pair = s.pair ∧ (s.onStream n f).cal = s.cal ∧
    (s.onStream n f).sdm = s.sdm ∧ (s.onStream n f).banksA = s.banksA ∧ (s.onStream n f).banksB = s.banksB ∧
    (s.onStream n f).serving = s.serving ∧ (s.onStream n f).ready = s.ready ∧ (s.onStream n f).red = s.red ∧
    (s.onStream n f).clock = s.clock ∧ (s.onStream n f).ptp = s.ptp ∧ (s.onStream n f).fw = s.fw ∧
    (s.onStream n f).caps = s.caps ∧ (s.onStream n f).chest = s.chest ∧ (s.onStream n f).trigs = s.trigs ∧
    (s.onStream n f).safe = s.safe ∧ (s.onStream n f).safeStn = s.safeStn ∧ (s.onStream n f).sin = s.sin ∧
    (s.onStream n f).sout = s.sout ∧ (s.onStream n f).pendSet = s.pendSet ∧ (s.onStream n f).readData = s.readData ∧
    (s.onStream n f).clk = s.clk ∧ (s.onStream n f).dev = s.dev ∧ (s.onStream n f).vioA = s.vioA ∧
    (s.onStream n f).vioB = s.vioB ∧ (s.onStream n f).ports = s.ports ∧ (s.onStream n f).shelfSeen = s.shelfSeen ∧
    (s.onStream n f).shelfFresh = s.shelfFresh ∧ (s.onStream n f).dmaCh = s.dmaCh ∧ (s.onStream n f).dma = s.dma ∧
    (s.onStream n f).cvu = s.cvu ∧ (s.onStream n f).mbx = s.mbx ∧ (s.onStream n f).otp = s.otp ∧
    (s.onStream n f).flash = s.flash ∧ (s.onStream n f).trust = s.trust ∧ (s.onStream n f).boot = s.boot ∧
    (s.onStream n f).power = s.power ∧ (s.onStream n f).slkPort = s.slkPort ∧ (s.onStream n f).slk = s.slk ∧
    (s.onStream n f).sen = s.sen ∧ (s.onStream n f).pending = s.pending := by
  repeat' apply And.intro
  all_goals rfl

@[simp] theorem State.onTrig_rest (n : Nat) (f : ChestTrig → ChestTrig) :
    (s.onTrig n f).regs = s.regs ∧ (s.onTrig n f).act = s.act ∧ (s.onTrig n f).mem = s.mem ∧
    (s.onTrig n f).holes = s.holes ∧ (s.onTrig n f).dmemA = s.dmemA ∧ (s.onTrig n f).dmemB = s.dmemB ∧
    (s.onTrig n f).now = s.now ∧ (s.onTrig n f).draws = s.draws ∧ (s.onTrig n f).grants = s.grants ∧
    (s.onTrig n f).spi = s.spi ∧ (s.onTrig n f).stn = s.stn ∧ (s.onTrig n f).pwm = s.pwm ∧ (s.onTrig n f).hb = s.hb ∧
    (s.onTrig n f).wcomp = s.wcomp ∧ (s.onTrig n f).inp = s.inp ∧ (s.onTrig n f).conv = s.conv ∧
    (s.onTrig n f).pair = s.pair ∧ (s.onTrig n f).cal = s.cal ∧ (s.onTrig n f).sdm = s.sdm ∧
    (s.onTrig n f).banksA = s.banksA ∧ (s.onTrig n f).banksB = s.banksB ∧ (s.onTrig n f).serving = s.serving ∧
    (s.onTrig n f).ready = s.ready ∧ (s.onTrig n f).red = s.red ∧ (s.onTrig n f).clock = s.clock ∧
    (s.onTrig n f).ptp = s.ptp ∧ (s.onTrig n f).fw = s.fw ∧ (s.onTrig n f).caps = s.caps ∧
    (s.onTrig n f).chest = s.chest ∧ (s.onTrig n f).streams = s.streams ∧ (s.onTrig n f).safe = s.safe ∧
    (s.onTrig n f).safeStn = s.safeStn ∧ (s.onTrig n f).sin = s.sin ∧ (s.onTrig n f).sout = s.sout ∧
    (s.onTrig n f).pendSet = s.pendSet ∧ (s.onTrig n f).readData = s.readData ∧ (s.onTrig n f).clk = s.clk ∧
    (s.onTrig n f).dev = s.dev ∧ (s.onTrig n f).vioA = s.vioA ∧ (s.onTrig n f).vioB = s.vioB ∧
    (s.onTrig n f).ports = s.ports ∧ (s.onTrig n f).shelfSeen = s.shelfSeen ∧ (s.onTrig n f).shelfFresh = s.shelfFresh ∧
    (s.onTrig n f).dmaCh = s.dmaCh ∧ (s.onTrig n f).dma = s.dma ∧ (s.onTrig n f).cvu = s.cvu ∧
    (s.onTrig n f).mbx = s.mbx ∧ (s.onTrig n f).otp = s.otp ∧ (s.onTrig n f).flash = s.flash ∧
    (s.onTrig n f).trust = s.trust ∧ (s.onTrig n f).boot = s.boot ∧ (s.onTrig n f).power = s.power ∧
    (s.onTrig n f).slkPort = s.slkPort ∧ (s.onTrig n f).slk = s.slk ∧ (s.onTrig n f).sen = s.sen ∧
    (s.onTrig n f).pending = s.pending := by
  repeat' apply And.intro
  all_goals rfl

@[simp] theorem State.onSafe_rest (n : Nat) (f : SafeStn → SafeStn) :
    (s.onSafe n f).regs = s.regs ∧ (s.onSafe n f).act = s.act ∧ (s.onSafe n f).mem = s.mem ∧
    (s.onSafe n f).holes = s.holes ∧ (s.onSafe n f).dmemA = s.dmemA ∧ (s.onSafe n f).dmemB = s.dmemB ∧
    (s.onSafe n f).now = s.now ∧ (s.onSafe n f).draws = s.draws ∧ (s.onSafe n f).grants = s.grants ∧
    (s.onSafe n f).spi = s.spi ∧ (s.onSafe n f).stn = s.stn ∧ (s.onSafe n f).pwm = s.pwm ∧ (s.onSafe n f).hb = s.hb ∧
    (s.onSafe n f).wcomp = s.wcomp ∧ (s.onSafe n f).inp = s.inp ∧ (s.onSafe n f).conv = s.conv ∧
    (s.onSafe n f).pair = s.pair ∧ (s.onSafe n f).cal = s.cal ∧ (s.onSafe n f).sdm = s.sdm ∧
    (s.onSafe n f).banksA = s.banksA ∧ (s.onSafe n f).banksB = s.banksB ∧ (s.onSafe n f).serving = s.serving ∧
    (s.onSafe n f).ready = s.ready ∧ (s.onSafe n f).red = s.red ∧ (s.onSafe n f).clock = s.clock ∧
    (s.onSafe n f).ptp = s.ptp ∧ (s.onSafe n f).fw = s.fw ∧ (s.onSafe n f).caps = s.caps ∧
    (s.onSafe n f).chest = s.chest ∧ (s.onSafe n f).streams = s.streams ∧ (s.onSafe n f).trigs = s.trigs ∧
    (s.onSafe n f).safe = s.safe ∧ (s.onSafe n f).sin = s.sin ∧ (s.onSafe n f).sout = s.sout ∧
    (s.onSafe n f).pendSet = s.pendSet ∧ (s.onSafe n f).readData = s.readData ∧ (s.onSafe n f).clk = s.clk ∧
    (s.onSafe n f).dev = s.dev ∧ (s.onSafe n f).vioA = s.vioA ∧ (s.onSafe n f).vioB = s.vioB ∧
    (s.onSafe n f).ports = s.ports ∧ (s.onSafe n f).shelfSeen = s.shelfSeen ∧ (s.onSafe n f).shelfFresh = s.shelfFresh ∧
    (s.onSafe n f).dmaCh = s.dmaCh ∧ (s.onSafe n f).dma = s.dma ∧ (s.onSafe n f).cvu = s.cvu ∧
    (s.onSafe n f).mbx = s.mbx ∧ (s.onSafe n f).otp = s.otp ∧ (s.onSafe n f).flash = s.flash ∧
    (s.onSafe n f).trust = s.trust ∧ (s.onSafe n f).boot = s.boot ∧ (s.onSafe n f).power = s.power ∧
    (s.onSafe n f).slkPort = s.slkPort ∧ (s.onSafe n f).slk = s.slk ∧ (s.onSafe n f).sen = s.sen ∧
    (s.onSafe n f).pending = s.pending := by
  repeat' apply And.intro
  all_goals rfl

@[simp] theorem State.onSin_rest (n : Nat) (f : SinPair → SinPair) :
    (s.onSin n f).regs = s.regs ∧ (s.onSin n f).act = s.act ∧ (s.onSin n f).mem = s.mem ∧
    (s.onSin n f).holes = s.holes ∧ (s.onSin n f).dmemA = s.dmemA ∧ (s.onSin n f).dmemB = s.dmemB ∧
    (s.onSin n f).now = s.now ∧ (s.onSin n f).draws = s.draws ∧ (s.onSin n f).grants = s.grants ∧
    (s.onSin n f).spi = s.spi ∧ (s.onSin n f).stn = s.stn ∧ (s.onSin n f).pwm = s.pwm ∧ (s.onSin n f).hb = s.hb ∧
    (s.onSin n f).wcomp = s.wcomp ∧ (s.onSin n f).inp = s.inp ∧ (s.onSin n f).conv = s.conv ∧
    (s.onSin n f).pair = s.pair ∧ (s.onSin n f).cal = s.cal ∧ (s.onSin n f).sdm = s.sdm ∧
    (s.onSin n f).banksA = s.banksA ∧ (s.onSin n f).banksB = s.banksB ∧ (s.onSin n f).serving = s.serving ∧
    (s.onSin n f).ready = s.ready ∧ (s.onSin n f).red = s.red ∧ (s.onSin n f).clock = s.clock ∧
    (s.onSin n f).ptp = s.ptp ∧ (s.onSin n f).fw = s.fw ∧ (s.onSin n f).caps = s.caps ∧ (s.onSin n f).chest = s.chest ∧
    (s.onSin n f).streams = s.streams ∧ (s.onSin n f).trigs = s.trigs ∧ (s.onSin n f).safe = s.safe ∧
    (s.onSin n f).safeStn = s.safeStn ∧ (s.onSin n f).sout = s.sout ∧ (s.onSin n f).pendSet = s.pendSet ∧
    (s.onSin n f).readData = s.readData ∧ (s.onSin n f).clk = s.clk ∧ (s.onSin n f).dev = s.dev ∧
    (s.onSin n f).vioA = s.vioA ∧ (s.onSin n f).vioB = s.vioB ∧ (s.onSin n f).ports = s.ports ∧
    (s.onSin n f).shelfSeen = s.shelfSeen ∧ (s.onSin n f).shelfFresh = s.shelfFresh ∧ (s.onSin n f).dmaCh = s.dmaCh ∧
    (s.onSin n f).dma = s.dma ∧ (s.onSin n f).cvu = s.cvu ∧ (s.onSin n f).mbx = s.mbx ∧ (s.onSin n f).otp = s.otp ∧
    (s.onSin n f).flash = s.flash ∧ (s.onSin n f).trust = s.trust ∧ (s.onSin n f).boot = s.boot ∧
    (s.onSin n f).power = s.power ∧ (s.onSin n f).slkPort = s.slkPort ∧ (s.onSin n f).slk = s.slk ∧
    (s.onSin n f).sen = s.sen ∧ (s.onSin n f).pending = s.pending := by
  repeat' apply And.intro
  all_goals rfl

@[simp] theorem State.onSout_rest (n : Nat) (f : SoutOut → SoutOut) :
    (s.onSout n f).regs = s.regs ∧ (s.onSout n f).act = s.act ∧ (s.onSout n f).mem = s.mem ∧
    (s.onSout n f).holes = s.holes ∧ (s.onSout n f).dmemA = s.dmemA ∧ (s.onSout n f).dmemB = s.dmemB ∧
    (s.onSout n f).now = s.now ∧ (s.onSout n f).draws = s.draws ∧ (s.onSout n f).grants = s.grants ∧
    (s.onSout n f).spi = s.spi ∧ (s.onSout n f).stn = s.stn ∧ (s.onSout n f).pwm = s.pwm ∧ (s.onSout n f).hb = s.hb ∧
    (s.onSout n f).wcomp = s.wcomp ∧ (s.onSout n f).inp = s.inp ∧ (s.onSout n f).conv = s.conv ∧
    (s.onSout n f).pair = s.pair ∧ (s.onSout n f).cal = s.cal ∧ (s.onSout n f).sdm = s.sdm ∧
    (s.onSout n f).banksA = s.banksA ∧ (s.onSout n f).banksB = s.banksB ∧ (s.onSout n f).serving = s.serving ∧
    (s.onSout n f).ready = s.ready ∧ (s.onSout n f).red = s.red ∧ (s.onSout n f).clock = s.clock ∧
    (s.onSout n f).ptp = s.ptp ∧ (s.onSout n f).fw = s.fw ∧ (s.onSout n f).caps = s.caps ∧
    (s.onSout n f).chest = s.chest ∧ (s.onSout n f).streams = s.streams ∧ (s.onSout n f).trigs = s.trigs ∧
    (s.onSout n f).safe = s.safe ∧ (s.onSout n f).safeStn = s.safeStn ∧ (s.onSout n f).sin = s.sin ∧
    (s.onSout n f).pendSet = s.pendSet ∧ (s.onSout n f).readData = s.readData ∧ (s.onSout n f).clk = s.clk ∧
    (s.onSout n f).dev = s.dev ∧ (s.onSout n f).vioA = s.vioA ∧ (s.onSout n f).vioB = s.vioB ∧
    (s.onSout n f).ports = s.ports ∧ (s.onSout n f).shelfSeen = s.shelfSeen ∧ (s.onSout n f).shelfFresh = s.shelfFresh ∧
    (s.onSout n f).dmaCh = s.dmaCh ∧ (s.onSout n f).dma = s.dma ∧ (s.onSout n f).cvu = s.cvu ∧
    (s.onSout n f).mbx = s.mbx ∧ (s.onSout n f).otp = s.otp ∧ (s.onSout n f).flash = s.flash ∧
    (s.onSout n f).trust = s.trust ∧ (s.onSout n f).boot = s.boot ∧ (s.onSout n f).power = s.power ∧
    (s.onSout n f).slkPort = s.slkPort ∧ (s.onSout n f).slk = s.slk ∧ (s.onSout n f).sen = s.sen ∧
    (s.onSout n f).pending = s.pending := by
  repeat' apply And.intro
  all_goals rfl

@[simp] theorem State.onPort_rest (n : Nat) (f : PortUnit → PortUnit) :
    (s.onPort n f).regs = s.regs ∧ (s.onPort n f).act = s.act ∧ (s.onPort n f).mem = s.mem ∧
    (s.onPort n f).holes = s.holes ∧ (s.onPort n f).dmemA = s.dmemA ∧ (s.onPort n f).dmemB = s.dmemB ∧
    (s.onPort n f).now = s.now ∧ (s.onPort n f).draws = s.draws ∧ (s.onPort n f).grants = s.grants ∧
    (s.onPort n f).spi = s.spi ∧ (s.onPort n f).stn = s.stn ∧ (s.onPort n f).pwm = s.pwm ∧ (s.onPort n f).hb = s.hb ∧
    (s.onPort n f).wcomp = s.wcomp ∧ (s.onPort n f).inp = s.inp ∧ (s.onPort n f).conv = s.conv ∧
    (s.onPort n f).pair = s.pair ∧ (s.onPort n f).cal = s.cal ∧ (s.onPort n f).sdm = s.sdm ∧
    (s.onPort n f).banksA = s.banksA ∧ (s.onPort n f).banksB = s.banksB ∧ (s.onPort n f).serving = s.serving ∧
    (s.onPort n f).ready = s.ready ∧ (s.onPort n f).red = s.red ∧ (s.onPort n f).clock = s.clock ∧
    (s.onPort n f).ptp = s.ptp ∧ (s.onPort n f).fw = s.fw ∧ (s.onPort n f).caps = s.caps ∧
    (s.onPort n f).chest = s.chest ∧ (s.onPort n f).streams = s.streams ∧ (s.onPort n f).trigs = s.trigs ∧
    (s.onPort n f).safe = s.safe ∧ (s.onPort n f).safeStn = s.safeStn ∧ (s.onPort n f).sin = s.sin ∧
    (s.onPort n f).sout = s.sout ∧ (s.onPort n f).pendSet = s.pendSet ∧ (s.onPort n f).readData = s.readData ∧
    (s.onPort n f).clk = s.clk ∧ (s.onPort n f).dev = s.dev ∧ (s.onPort n f).vioA = s.vioA ∧
    (s.onPort n f).vioB = s.vioB ∧ (s.onPort n f).shelfSeen = s.shelfSeen ∧ (s.onPort n f).shelfFresh = s.shelfFresh ∧
    (s.onPort n f).dmaCh = s.dmaCh ∧ (s.onPort n f).dma = s.dma ∧ (s.onPort n f).cvu = s.cvu ∧
    (s.onPort n f).mbx = s.mbx ∧ (s.onPort n f).otp = s.otp ∧ (s.onPort n f).flash = s.flash ∧
    (s.onPort n f).trust = s.trust ∧ (s.onPort n f).boot = s.boot ∧ (s.onPort n f).power = s.power ∧
    (s.onPort n f).slkPort = s.slkPort ∧ (s.onPort n f).slk = s.slk ∧ (s.onPort n f).sen = s.sen ∧
    (s.onPort n f).pending = s.pending := by
  repeat' apply And.intro
  all_goals rfl

@[simp] theorem State.onCh_rest (n : Nat) (f : DmaCh → DmaCh) :
    (s.onCh n f).regs = s.regs ∧ (s.onCh n f).act = s.act ∧ (s.onCh n f).mem = s.mem ∧ (s.onCh n f).holes = s.holes ∧
    (s.onCh n f).dmemA = s.dmemA ∧ (s.onCh n f).dmemB = s.dmemB ∧ (s.onCh n f).now = s.now ∧
    (s.onCh n f).draws = s.draws ∧ (s.onCh n f).grants = s.grants ∧ (s.onCh n f).spi = s.spi ∧
    (s.onCh n f).stn = s.stn ∧ (s.onCh n f).pwm = s.pwm ∧ (s.onCh n f).hb = s.hb ∧ (s.onCh n f).wcomp = s.wcomp ∧
    (s.onCh n f).inp = s.inp ∧ (s.onCh n f).conv = s.conv ∧ (s.onCh n f).pair = s.pair ∧ (s.onCh n f).cal = s.cal ∧
    (s.onCh n f).sdm = s.sdm ∧ (s.onCh n f).banksA = s.banksA ∧ (s.onCh n f).banksB = s.banksB ∧
    (s.onCh n f).serving = s.serving ∧ (s.onCh n f).ready = s.ready ∧ (s.onCh n f).red = s.red ∧
    (s.onCh n f).clock = s.clock ∧ (s.onCh n f).ptp = s.ptp ∧ (s.onCh n f).fw = s.fw ∧ (s.onCh n f).caps = s.caps ∧
    (s.onCh n f).chest = s.chest ∧ (s.onCh n f).streams = s.streams ∧ (s.onCh n f).trigs = s.trigs ∧
    (s.onCh n f).safe = s.safe ∧ (s.onCh n f).safeStn = s.safeStn ∧ (s.onCh n f).sin = s.sin ∧
    (s.onCh n f).sout = s.sout ∧ (s.onCh n f).pendSet = s.pendSet ∧ (s.onCh n f).readData = s.readData ∧
    (s.onCh n f).clk = s.clk ∧ (s.onCh n f).dev = s.dev ∧ (s.onCh n f).vioA = s.vioA ∧ (s.onCh n f).vioB = s.vioB ∧
    (s.onCh n f).ports = s.ports ∧ (s.onCh n f).shelfSeen = s.shelfSeen ∧ (s.onCh n f).shelfFresh = s.shelfFresh ∧
    (s.onCh n f).dma = s.dma ∧ (s.onCh n f).cvu = s.cvu ∧ (s.onCh n f).mbx = s.mbx ∧ (s.onCh n f).otp = s.otp ∧
    (s.onCh n f).flash = s.flash ∧ (s.onCh n f).trust = s.trust ∧ (s.onCh n f).boot = s.boot ∧
    (s.onCh n f).power = s.power ∧ (s.onCh n f).slkPort = s.slkPort ∧ (s.onCh n f).slk = s.slk ∧
    (s.onCh n f).sen = s.sen ∧ (s.onCh n f).pending = s.pending := by
  repeat' apply And.intro
  all_goals rfl

@[simp] theorem State.onCvu_rest (n : Nat) (f : Cvu → Cvu) :
    (s.onCvu n f).regs = s.regs ∧ (s.onCvu n f).act = s.act ∧ (s.onCvu n f).mem = s.mem ∧
    (s.onCvu n f).holes = s.holes ∧ (s.onCvu n f).dmemA = s.dmemA ∧ (s.onCvu n f).dmemB = s.dmemB ∧
    (s.onCvu n f).now = s.now ∧ (s.onCvu n f).draws = s.draws ∧ (s.onCvu n f).grants = s.grants ∧
    (s.onCvu n f).spi = s.spi ∧ (s.onCvu n f).stn = s.stn ∧ (s.onCvu n f).pwm = s.pwm ∧ (s.onCvu n f).hb = s.hb ∧
    (s.onCvu n f).wcomp = s.wcomp ∧ (s.onCvu n f).inp = s.inp ∧ (s.onCvu n f).conv = s.conv ∧
    (s.onCvu n f).pair = s.pair ∧ (s.onCvu n f).cal = s.cal ∧ (s.onCvu n f).sdm = s.sdm ∧
    (s.onCvu n f).banksA = s.banksA ∧ (s.onCvu n f).banksB = s.banksB ∧ (s.onCvu n f).serving = s.serving ∧
    (s.onCvu n f).ready = s.ready ∧ (s.onCvu n f).red = s.red ∧ (s.onCvu n f).clock = s.clock ∧
    (s.onCvu n f).ptp = s.ptp ∧ (s.onCvu n f).fw = s.fw ∧ (s.onCvu n f).caps = s.caps ∧ (s.onCvu n f).chest = s.chest ∧
    (s.onCvu n f).streams = s.streams ∧ (s.onCvu n f).trigs = s.trigs ∧ (s.onCvu n f).safe = s.safe ∧
    (s.onCvu n f).safeStn = s.safeStn ∧ (s.onCvu n f).sin = s.sin ∧ (s.onCvu n f).sout = s.sout ∧
    (s.onCvu n f).pendSet = s.pendSet ∧ (s.onCvu n f).readData = s.readData ∧ (s.onCvu n f).clk = s.clk ∧
    (s.onCvu n f).dev = s.dev ∧ (s.onCvu n f).vioA = s.vioA ∧ (s.onCvu n f).vioB = s.vioB ∧
    (s.onCvu n f).ports = s.ports ∧ (s.onCvu n f).shelfSeen = s.shelfSeen ∧ (s.onCvu n f).shelfFresh = s.shelfFresh ∧
    (s.onCvu n f).dmaCh = s.dmaCh ∧ (s.onCvu n f).dma = s.dma ∧ (s.onCvu n f).mbx = s.mbx ∧ (s.onCvu n f).otp = s.otp ∧
    (s.onCvu n f).flash = s.flash ∧ (s.onCvu n f).trust = s.trust ∧ (s.onCvu n f).boot = s.boot ∧
    (s.onCvu n f).power = s.power ∧ (s.onCvu n f).slkPort = s.slkPort ∧ (s.onCvu n f).slk = s.slk ∧
    (s.onCvu n f).sen = s.sen ∧ (s.onCvu n f).pending = s.pending := by
  repeat' apply And.intro
  all_goals rfl

@[simp] theorem State.onSlkPort_rest (n : Nat) (f : SlkPort → SlkPort) :
    (s.onSlkPort n f).regs = s.regs ∧ (s.onSlkPort n f).act = s.act ∧ (s.onSlkPort n f).mem = s.mem ∧
    (s.onSlkPort n f).holes = s.holes ∧ (s.onSlkPort n f).dmemA = s.dmemA ∧ (s.onSlkPort n f).dmemB = s.dmemB ∧
    (s.onSlkPort n f).now = s.now ∧ (s.onSlkPort n f).draws = s.draws ∧ (s.onSlkPort n f).grants = s.grants ∧
    (s.onSlkPort n f).spi = s.spi ∧ (s.onSlkPort n f).stn = s.stn ∧ (s.onSlkPort n f).pwm = s.pwm ∧
    (s.onSlkPort n f).hb = s.hb ∧ (s.onSlkPort n f).wcomp = s.wcomp ∧ (s.onSlkPort n f).inp = s.inp ∧
    (s.onSlkPort n f).conv = s.conv ∧ (s.onSlkPort n f).pair = s.pair ∧ (s.onSlkPort n f).cal = s.cal ∧
    (s.onSlkPort n f).sdm = s.sdm ∧ (s.onSlkPort n f).banksA = s.banksA ∧ (s.onSlkPort n f).banksB = s.banksB ∧
    (s.onSlkPort n f).serving = s.serving ∧ (s.onSlkPort n f).ready = s.ready ∧ (s.onSlkPort n f).red = s.red ∧
    (s.onSlkPort n f).clock = s.clock ∧ (s.onSlkPort n f).ptp = s.ptp ∧ (s.onSlkPort n f).fw = s.fw ∧
    (s.onSlkPort n f).caps = s.caps ∧ (s.onSlkPort n f).chest = s.chest ∧ (s.onSlkPort n f).streams = s.streams ∧
    (s.onSlkPort n f).trigs = s.trigs ∧ (s.onSlkPort n f).safe = s.safe ∧ (s.onSlkPort n f).safeStn = s.safeStn ∧
    (s.onSlkPort n f).sin = s.sin ∧ (s.onSlkPort n f).sout = s.sout ∧ (s.onSlkPort n f).pendSet = s.pendSet ∧
    (s.onSlkPort n f).readData = s.readData ∧ (s.onSlkPort n f).clk = s.clk ∧ (s.onSlkPort n f).dev = s.dev ∧
    (s.onSlkPort n f).vioA = s.vioA ∧ (s.onSlkPort n f).vioB = s.vioB ∧ (s.onSlkPort n f).ports = s.ports ∧
    (s.onSlkPort n f).shelfSeen = s.shelfSeen ∧ (s.onSlkPort n f).shelfFresh = s.shelfFresh ∧
    (s.onSlkPort n f).dmaCh = s.dmaCh ∧ (s.onSlkPort n f).dma = s.dma ∧ (s.onSlkPort n f).cvu = s.cvu ∧
    (s.onSlkPort n f).mbx = s.mbx ∧ (s.onSlkPort n f).otp = s.otp ∧ (s.onSlkPort n f).flash = s.flash ∧
    (s.onSlkPort n f).trust = s.trust ∧ (s.onSlkPort n f).boot = s.boot ∧ (s.onSlkPort n f).power = s.power ∧
    (s.onSlkPort n f).slk = s.slk ∧ (s.onSlkPort n f).sen = s.sen ∧ (s.onSlkPort n f).pending = s.pending := by
  repeat' apply And.intro
  all_goals rfl

@[simp] theorem State.onCores_rest (n : Nat) (f : Core → Core) :
    (s.onCores n f).regs = s.regs ∧ (s.onCores n f).act = s.act ∧ (s.onCores n f).mem = s.mem ∧
    (s.onCores n f).holes = s.holes ∧ (s.onCores n f).dmemA = s.dmemA ∧ (s.onCores n f).dmemB = s.dmemB ∧
    (s.onCores n f).now = s.now ∧ (s.onCores n f).draws = s.draws ∧ (s.onCores n f).grants = s.grants ∧
    (s.onCores n f).spi = s.spi ∧ (s.onCores n f).pwm = s.pwm ∧ (s.onCores n f).hb = s.hb ∧
    (s.onCores n f).wcomp = s.wcomp ∧ (s.onCores n f).inp = s.inp ∧ (s.onCores n f).conv = s.conv ∧
    (s.onCores n f).pair = s.pair ∧ (s.onCores n f).cal = s.cal ∧ (s.onCores n f).sdm = s.sdm ∧
    (s.onCores n f).banksA = s.banksA ∧ (s.onCores n f).banksB = s.banksB ∧ (s.onCores n f).serving = s.serving ∧
    (s.onCores n f).ready = s.ready ∧ (s.onCores n f).red = s.red ∧ (s.onCores n f).clock = s.clock ∧
    (s.onCores n f).ptp = s.ptp ∧ (s.onCores n f).fw = s.fw ∧ (s.onCores n f).caps = s.caps ∧
    (s.onCores n f).chest = s.chest ∧ (s.onCores n f).streams = s.streams ∧ (s.onCores n f).trigs = s.trigs ∧
    (s.onCores n f).safe = s.safe ∧ (s.onCores n f).safeStn = s.safeStn ∧ (s.onCores n f).sin = s.sin ∧
    (s.onCores n f).sout = s.sout ∧ (s.onCores n f).pendSet = s.pendSet ∧ (s.onCores n f).readData = s.readData ∧
    (s.onCores n f).clk = s.clk ∧ (s.onCores n f).dev = s.dev ∧ (s.onCores n f).vioA = s.vioA ∧
    (s.onCores n f).vioB = s.vioB ∧ (s.onCores n f).ports = s.ports ∧ (s.onCores n f).shelfSeen = s.shelfSeen ∧
    (s.onCores n f).shelfFresh = s.shelfFresh ∧ (s.onCores n f).dmaCh = s.dmaCh ∧ (s.onCores n f).dma = s.dma ∧
    (s.onCores n f).cvu = s.cvu ∧ (s.onCores n f).mbx = s.mbx ∧ (s.onCores n f).otp = s.otp ∧
    (s.onCores n f).flash = s.flash ∧ (s.onCores n f).trust = s.trust ∧ (s.onCores n f).boot = s.boot ∧
    (s.onCores n f).power = s.power ∧ (s.onCores n f).slkPort = s.slkPort ∧ (s.onCores n f).slk = s.slk ∧
    (s.onCores n f).sen = s.sen ∧ (s.onCores n f).pending = s.pending := by
  repeat' apply And.intro
  all_goals rfl

@[simp] theorem State.onMbx_rest (f : MbxUnit → MbxUnit) :
    (s.onMbx f).regs = s.regs ∧ (s.onMbx f).act = s.act ∧ (s.onMbx f).mem = s.mem ∧ (s.onMbx f).holes = s.holes ∧
    (s.onMbx f).dmemA = s.dmemA ∧ (s.onMbx f).dmemB = s.dmemB ∧ (s.onMbx f).now = s.now ∧ (s.onMbx f).draws = s.draws ∧
    (s.onMbx f).grants = s.grants ∧ (s.onMbx f).spi = s.spi ∧ (s.onMbx f).stn = s.stn ∧ (s.onMbx f).pwm = s.pwm ∧
    (s.onMbx f).hb = s.hb ∧ (s.onMbx f).wcomp = s.wcomp ∧ (s.onMbx f).inp = s.inp ∧ (s.onMbx f).conv = s.conv ∧
    (s.onMbx f).pair = s.pair ∧ (s.onMbx f).cal = s.cal ∧ (s.onMbx f).sdm = s.sdm ∧ (s.onMbx f).banksA = s.banksA ∧
    (s.onMbx f).banksB = s.banksB ∧ (s.onMbx f).serving = s.serving ∧ (s.onMbx f).ready = s.ready ∧
    (s.onMbx f).red = s.red ∧ (s.onMbx f).clock = s.clock ∧ (s.onMbx f).ptp = s.ptp ∧ (s.onMbx f).fw = s.fw ∧
    (s.onMbx f).caps = s.caps ∧ (s.onMbx f).chest = s.chest ∧ (s.onMbx f).streams = s.streams ∧
    (s.onMbx f).trigs = s.trigs ∧ (s.onMbx f).safe = s.safe ∧ (s.onMbx f).safeStn = s.safeStn ∧
    (s.onMbx f).sin = s.sin ∧ (s.onMbx f).sout = s.sout ∧ (s.onMbx f).pendSet = s.pendSet ∧
    (s.onMbx f).readData = s.readData ∧ (s.onMbx f).clk = s.clk ∧ (s.onMbx f).dev = s.dev ∧ (s.onMbx f).vioA = s.vioA ∧
    (s.onMbx f).vioB = s.vioB ∧ (s.onMbx f).ports = s.ports ∧ (s.onMbx f).shelfSeen = s.shelfSeen ∧
    (s.onMbx f).shelfFresh = s.shelfFresh ∧ (s.onMbx f).dmaCh = s.dmaCh ∧ (s.onMbx f).dma = s.dma ∧
    (s.onMbx f).cvu = s.cvu ∧ (s.onMbx f).otp = s.otp ∧ (s.onMbx f).flash = s.flash ∧ (s.onMbx f).trust = s.trust ∧
    (s.onMbx f).boot = s.boot ∧ (s.onMbx f).power = s.power ∧ (s.onMbx f).slkPort = s.slkPort ∧
    (s.onMbx f).slk = s.slk ∧ (s.onMbx f).sen = s.sen ∧ (s.onMbx f).pending = s.pending := by
  repeat' apply And.intro
  all_goals rfl

@[simp] theorem State.onSlot_rest (i : Nat) (f : Slot → Slot) :
    (s.onSlot i f).regs = s.regs ∧ (s.onSlot i f).act = s.act ∧ (s.onSlot i f).mem = s.mem ∧
    (s.onSlot i f).holes = s.holes ∧ (s.onSlot i f).dmemA = s.dmemA ∧ (s.onSlot i f).dmemB = s.dmemB ∧
    (s.onSlot i f).now = s.now ∧ (s.onSlot i f).draws = s.draws ∧ (s.onSlot i f).grants = s.grants ∧
    (s.onSlot i f).spi = s.spi ∧ (s.onSlot i f).stn = s.stn ∧ (s.onSlot i f).pwm = s.pwm ∧ (s.onSlot i f).hb = s.hb ∧
    (s.onSlot i f).wcomp = s.wcomp ∧ (s.onSlot i f).inp = s.inp ∧ (s.onSlot i f).conv = s.conv ∧
    (s.onSlot i f).pair = s.pair ∧ (s.onSlot i f).cal = s.cal ∧ (s.onSlot i f).sdm = s.sdm ∧
    (s.onSlot i f).banksA = s.banksA ∧ (s.onSlot i f).banksB = s.banksB ∧ (s.onSlot i f).serving = s.serving ∧
    (s.onSlot i f).ready = s.ready ∧ (s.onSlot i f).red = s.red ∧ (s.onSlot i f).clock = s.clock ∧
    (s.onSlot i f).ptp = s.ptp ∧ (s.onSlot i f).fw = s.fw ∧ (s.onSlot i f).caps = s.caps ∧
    (s.onSlot i f).chest = s.chest ∧ (s.onSlot i f).streams = s.streams ∧ (s.onSlot i f).trigs = s.trigs ∧
    (s.onSlot i f).safe = s.safe ∧ (s.onSlot i f).safeStn = s.safeStn ∧ (s.onSlot i f).sin = s.sin ∧
    (s.onSlot i f).sout = s.sout ∧ (s.onSlot i f).pendSet = s.pendSet ∧ (s.onSlot i f).readData = s.readData ∧
    (s.onSlot i f).clk = s.clk ∧ (s.onSlot i f).dev = s.dev ∧ (s.onSlot i f).vioA = s.vioA ∧
    (s.onSlot i f).vioB = s.vioB ∧ (s.onSlot i f).ports = s.ports ∧ (s.onSlot i f).shelfSeen = s.shelfSeen ∧
    (s.onSlot i f).shelfFresh = s.shelfFresh ∧ (s.onSlot i f).dmaCh = s.dmaCh ∧ (s.onSlot i f).dma = s.dma ∧
    (s.onSlot i f).cvu = s.cvu ∧ (s.onSlot i f).otp = s.otp ∧ (s.onSlot i f).flash = s.flash ∧
    (s.onSlot i f).trust = s.trust ∧ (s.onSlot i f).boot = s.boot ∧ (s.onSlot i f).power = s.power ∧
    (s.onSlot i f).slkPort = s.slkPort ∧ (s.onSlot i f).slk = s.slk ∧ (s.onSlot i f).sen = s.sen ∧
    (s.onSlot i f).pending = s.pending := by
  repeat' apply And.intro
  all_goals rfl

@[simp] theorem State.onJob_rest (i : Nat) (f : Job → Job) :
    (s.onJob i f).regs = s.regs ∧ (s.onJob i f).act = s.act ∧ (s.onJob i f).mem = s.mem ∧
    (s.onJob i f).holes = s.holes ∧ (s.onJob i f).dmemA = s.dmemA ∧ (s.onJob i f).dmemB = s.dmemB ∧
    (s.onJob i f).now = s.now ∧ (s.onJob i f).draws = s.draws ∧ (s.onJob i f).grants = s.grants ∧
    (s.onJob i f).spi = s.spi ∧ (s.onJob i f).stn = s.stn ∧ (s.onJob i f).pwm = s.pwm ∧ (s.onJob i f).hb = s.hb ∧
    (s.onJob i f).wcomp = s.wcomp ∧ (s.onJob i f).inp = s.inp ∧ (s.onJob i f).conv = s.conv ∧
    (s.onJob i f).pair = s.pair ∧ (s.onJob i f).cal = s.cal ∧ (s.onJob i f).sdm = s.sdm ∧
    (s.onJob i f).banksA = s.banksA ∧ (s.onJob i f).banksB = s.banksB ∧ (s.onJob i f).serving = s.serving ∧
    (s.onJob i f).ready = s.ready ∧ (s.onJob i f).red = s.red ∧ (s.onJob i f).clock = s.clock ∧
    (s.onJob i f).ptp = s.ptp ∧ (s.onJob i f).fw = s.fw ∧ (s.onJob i f).caps = s.caps ∧ (s.onJob i f).chest = s.chest ∧
    (s.onJob i f).streams = s.streams ∧ (s.onJob i f).trigs = s.trigs ∧ (s.onJob i f).safe = s.safe ∧
    (s.onJob i f).safeStn = s.safeStn ∧ (s.onJob i f).sin = s.sin ∧ (s.onJob i f).sout = s.sout ∧
    (s.onJob i f).pendSet = s.pendSet ∧ (s.onJob i f).readData = s.readData ∧ (s.onJob i f).clk = s.clk ∧
    (s.onJob i f).dev = s.dev ∧ (s.onJob i f).vioA = s.vioA ∧ (s.onJob i f).vioB = s.vioB ∧
    (s.onJob i f).ports = s.ports ∧ (s.onJob i f).shelfSeen = s.shelfSeen ∧ (s.onJob i f).shelfFresh = s.shelfFresh ∧
    (s.onJob i f).dmaCh = s.dmaCh ∧ (s.onJob i f).dma = s.dma ∧ (s.onJob i f).cvu = s.cvu ∧ (s.onJob i f).otp = s.otp ∧
    (s.onJob i f).flash = s.flash ∧ (s.onJob i f).trust = s.trust ∧ (s.onJob i f).boot = s.boot ∧
    (s.onJob i f).power = s.power ∧ (s.onJob i f).slkPort = s.slkPort ∧ (s.onJob i f).slk = s.slk ∧
    (s.onJob i f).sen = s.sen ∧ (s.onJob i f).pending = s.pending := by
  repeat' apply And.intro
  all_goals rfl

@[simp] theorem State.onSlk_rest (f : SlkUnit → SlkUnit) :
    (s.onSlk f).regs = s.regs ∧ (s.onSlk f).act = s.act ∧ (s.onSlk f).mem = s.mem ∧ (s.onSlk f).holes = s.holes ∧
    (s.onSlk f).dmemA = s.dmemA ∧ (s.onSlk f).dmemB = s.dmemB ∧ (s.onSlk f).now = s.now ∧ (s.onSlk f).draws = s.draws ∧
    (s.onSlk f).grants = s.grants ∧ (s.onSlk f).spi = s.spi ∧ (s.onSlk f).stn = s.stn ∧ (s.onSlk f).pwm = s.pwm ∧
    (s.onSlk f).hb = s.hb ∧ (s.onSlk f).wcomp = s.wcomp ∧ (s.onSlk f).inp = s.inp ∧ (s.onSlk f).conv = s.conv ∧
    (s.onSlk f).pair = s.pair ∧ (s.onSlk f).cal = s.cal ∧ (s.onSlk f).sdm = s.sdm ∧ (s.onSlk f).banksA = s.banksA ∧
    (s.onSlk f).banksB = s.banksB ∧ (s.onSlk f).serving = s.serving ∧ (s.onSlk f).ready = s.ready ∧
    (s.onSlk f).red = s.red ∧ (s.onSlk f).clock = s.clock ∧ (s.onSlk f).ptp = s.ptp ∧ (s.onSlk f).fw = s.fw ∧
    (s.onSlk f).caps = s.caps ∧ (s.onSlk f).chest = s.chest ∧ (s.onSlk f).streams = s.streams ∧
    (s.onSlk f).trigs = s.trigs ∧ (s.onSlk f).safe = s.safe ∧ (s.onSlk f).safeStn = s.safeStn ∧
    (s.onSlk f).sin = s.sin ∧ (s.onSlk f).sout = s.sout ∧ (s.onSlk f).pendSet = s.pendSet ∧
    (s.onSlk f).readData = s.readData ∧ (s.onSlk f).clk = s.clk ∧ (s.onSlk f).dev = s.dev ∧ (s.onSlk f).vioA = s.vioA ∧
    (s.onSlk f).vioB = s.vioB ∧ (s.onSlk f).ports = s.ports ∧ (s.onSlk f).shelfSeen = s.shelfSeen ∧
    (s.onSlk f).shelfFresh = s.shelfFresh ∧ (s.onSlk f).dmaCh = s.dmaCh ∧ (s.onSlk f).dma = s.dma ∧
    (s.onSlk f).cvu = s.cvu ∧ (s.onSlk f).mbx = s.mbx ∧ (s.onSlk f).otp = s.otp ∧ (s.onSlk f).flash = s.flash ∧
    (s.onSlk f).trust = s.trust ∧ (s.onSlk f).boot = s.boot ∧ (s.onSlk f).power = s.power ∧
    (s.onSlk f).slkPort = s.slkPort ∧ (s.onSlk f).sen = s.sen ∧ (s.onSlk f).pending = s.pending := by
  repeat' apply And.intro
  all_goals rfl

@[simp] theorem State.onCore_rest (n : Nat) (f : Core → Core) :
    (s.onCore n f).regs = s.regs ∧ (s.onCore n f).act = s.act ∧ (s.onCore n f).mem = s.mem ∧
    (s.onCore n f).holes = s.holes ∧ (s.onCore n f).dmemA = s.dmemA ∧ (s.onCore n f).dmemB = s.dmemB ∧
    (s.onCore n f).now = s.now ∧ (s.onCore n f).draws = s.draws ∧ (s.onCore n f).grants = s.grants ∧
    (s.onCore n f).spi = s.spi ∧ (s.onCore n f).pwm = s.pwm ∧ (s.onCore n f).hb = s.hb ∧
    (s.onCore n f).wcomp = s.wcomp ∧ (s.onCore n f).inp = s.inp ∧ (s.onCore n f).conv = s.conv ∧
    (s.onCore n f).pair = s.pair ∧ (s.onCore n f).cal = s.cal ∧ (s.onCore n f).sdm = s.sdm ∧
    (s.onCore n f).banksA = s.banksA ∧ (s.onCore n f).banksB = s.banksB ∧ (s.onCore n f).serving = s.serving ∧
    (s.onCore n f).ready = s.ready ∧ (s.onCore n f).red = s.red ∧ (s.onCore n f).clock = s.clock ∧
    (s.onCore n f).ptp = s.ptp ∧ (s.onCore n f).fw = s.fw ∧ (s.onCore n f).caps = s.caps ∧
    (s.onCore n f).chest = s.chest ∧ (s.onCore n f).streams = s.streams ∧ (s.onCore n f).trigs = s.trigs ∧
    (s.onCore n f).safe = s.safe ∧ (s.onCore n f).safeStn = s.safeStn ∧ (s.onCore n f).sin = s.sin ∧
    (s.onCore n f).sout = s.sout ∧ (s.onCore n f).pendSet = s.pendSet ∧ (s.onCore n f).readData = s.readData ∧
    (s.onCore n f).clk = s.clk ∧ (s.onCore n f).dev = s.dev ∧ (s.onCore n f).vioA = s.vioA ∧
    (s.onCore n f).vioB = s.vioB ∧ (s.onCore n f).ports = s.ports ∧ (s.onCore n f).shelfSeen = s.shelfSeen ∧
    (s.onCore n f).shelfFresh = s.shelfFresh ∧ (s.onCore n f).dmaCh = s.dmaCh ∧ (s.onCore n f).dma = s.dma ∧
    (s.onCore n f).cvu = s.cvu ∧ (s.onCore n f).mbx = s.mbx ∧ (s.onCore n f).otp = s.otp ∧
    (s.onCore n f).flash = s.flash ∧ (s.onCore n f).trust = s.trust ∧ (s.onCore n f).boot = s.boot ∧
    (s.onCore n f).power = s.power ∧ (s.onCore n f).slkPort = s.slkPort ∧ (s.onCore n f).slk = s.slk ∧
    (s.onCore n f).sen = s.sen ∧ (s.onCore n f).pending = s.pending := by
  repeat' apply And.intro
  all_goals rfl

@[simp] theorem State.onLim_rest (n : Nat) (f : Limiting → Limiting) :
    (s.onLim n f).regs = s.regs ∧ (s.onLim n f).act = s.act ∧ (s.onLim n f).mem = s.mem ∧
    (s.onLim n f).holes = s.holes ∧ (s.onLim n f).dmemA = s.dmemA ∧ (s.onLim n f).dmemB = s.dmemB ∧
    (s.onLim n f).now = s.now ∧ (s.onLim n f).draws = s.draws ∧ (s.onLim n f).grants = s.grants ∧
    (s.onLim n f).spi = s.spi ∧ (s.onLim n f).pwm = s.pwm ∧ (s.onLim n f).hb = s.hb ∧ (s.onLim n f).wcomp = s.wcomp ∧
    (s.onLim n f).inp = s.inp ∧ (s.onLim n f).conv = s.conv ∧ (s.onLim n f).pair = s.pair ∧ (s.onLim n f).cal = s.cal ∧
    (s.onLim n f).sdm = s.sdm ∧ (s.onLim n f).banksA = s.banksA ∧ (s.onLim n f).banksB = s.banksB ∧
    (s.onLim n f).serving = s.serving ∧ (s.onLim n f).ready = s.ready ∧ (s.onLim n f).red = s.red ∧
    (s.onLim n f).clock = s.clock ∧ (s.onLim n f).ptp = s.ptp ∧ (s.onLim n f).fw = s.fw ∧ (s.onLim n f).caps = s.caps ∧
    (s.onLim n f).chest = s.chest ∧ (s.onLim n f).streams = s.streams ∧ (s.onLim n f).trigs = s.trigs ∧
    (s.onLim n f).safe = s.safe ∧ (s.onLim n f).safeStn = s.safeStn ∧ (s.onLim n f).sin = s.sin ∧
    (s.onLim n f).sout = s.sout ∧ (s.onLim n f).pendSet = s.pendSet ∧ (s.onLim n f).readData = s.readData ∧
    (s.onLim n f).clk = s.clk ∧ (s.onLim n f).dev = s.dev ∧ (s.onLim n f).vioA = s.vioA ∧ (s.onLim n f).vioB = s.vioB ∧
    (s.onLim n f).ports = s.ports ∧ (s.onLim n f).shelfSeen = s.shelfSeen ∧ (s.onLim n f).shelfFresh = s.shelfFresh ∧
    (s.onLim n f).dmaCh = s.dmaCh ∧ (s.onLim n f).dma = s.dma ∧ (s.onLim n f).cvu = s.cvu ∧ (s.onLim n f).mbx = s.mbx ∧
    (s.onLim n f).otp = s.otp ∧ (s.onLim n f).flash = s.flash ∧ (s.onLim n f).trust = s.trust ∧
    (s.onLim n f).boot = s.boot ∧ (s.onLim n f).power = s.power ∧ (s.onLim n f).slkPort = s.slkPort ∧
    (s.onLim n f).slk = s.slk ∧ (s.onLim n f).sen = s.sen ∧ (s.onLim n f).pending = s.pending := by
  repeat' apply And.intro
  all_goals rfl

@[simp] theorem State.onStart_rest (n : Nat) (f : Start → Start) :
    (s.onStart n f).regs = s.regs ∧ (s.onStart n f).act = s.act ∧ (s.onStart n f).mem = s.mem ∧
    (s.onStart n f).holes = s.holes ∧ (s.onStart n f).dmemA = s.dmemA ∧ (s.onStart n f).dmemB = s.dmemB ∧
    (s.onStart n f).now = s.now ∧ (s.onStart n f).draws = s.draws ∧ (s.onStart n f).grants = s.grants ∧
    (s.onStart n f).spi = s.spi ∧ (s.onStart n f).pwm = s.pwm ∧ (s.onStart n f).hb = s.hb ∧
    (s.onStart n f).wcomp = s.wcomp ∧ (s.onStart n f).inp = s.inp ∧ (s.onStart n f).conv = s.conv ∧
    (s.onStart n f).pair = s.pair ∧ (s.onStart n f).cal = s.cal ∧ (s.onStart n f).sdm = s.sdm ∧
    (s.onStart n f).banksA = s.banksA ∧ (s.onStart n f).banksB = s.banksB ∧ (s.onStart n f).serving = s.serving ∧
    (s.onStart n f).ready = s.ready ∧ (s.onStart n f).red = s.red ∧ (s.onStart n f).clock = s.clock ∧
    (s.onStart n f).ptp = s.ptp ∧ (s.onStart n f).fw = s.fw ∧ (s.onStart n f).caps = s.caps ∧
    (s.onStart n f).chest = s.chest ∧ (s.onStart n f).streams = s.streams ∧ (s.onStart n f).trigs = s.trigs ∧
    (s.onStart n f).safe = s.safe ∧ (s.onStart n f).safeStn = s.safeStn ∧ (s.onStart n f).sin = s.sin ∧
    (s.onStart n f).sout = s.sout ∧ (s.onStart n f).pendSet = s.pendSet ∧ (s.onStart n f).readData = s.readData ∧
    (s.onStart n f).clk = s.clk ∧ (s.onStart n f).dev = s.dev ∧ (s.onStart n f).vioA = s.vioA ∧
    (s.onStart n f).vioB = s.vioB ∧ (s.onStart n f).ports = s.ports ∧ (s.onStart n f).shelfSeen = s.shelfSeen ∧
    (s.onStart n f).shelfFresh = s.shelfFresh ∧ (s.onStart n f).dmaCh = s.dmaCh ∧ (s.onStart n f).dma = s.dma ∧
    (s.onStart n f).cvu = s.cvu ∧ (s.onStart n f).mbx = s.mbx ∧ (s.onStart n f).otp = s.otp ∧
    (s.onStart n f).flash = s.flash ∧ (s.onStart n f).trust = s.trust ∧ (s.onStart n f).boot = s.boot ∧
    (s.onStart n f).power = s.power ∧ (s.onStart n f).slkPort = s.slkPort ∧ (s.onStart n f).slk = s.slk ∧
    (s.onStart n f).sen = s.sen ∧ (s.onStart n f).pending = s.pending := by
  repeat' apply And.intro
  all_goals rfl

@[simp] theorem State.onPer_rest (n : Nat) (f : Period → Period) :
    (s.onPer n f).regs = s.regs ∧ (s.onPer n f).act = s.act ∧ (s.onPer n f).mem = s.mem ∧
    (s.onPer n f).holes = s.holes ∧ (s.onPer n f).dmemA = s.dmemA ∧ (s.onPer n f).dmemB = s.dmemB ∧
    (s.onPer n f).now = s.now ∧ (s.onPer n f).draws = s.draws ∧ (s.onPer n f).grants = s.grants ∧
    (s.onPer n f).spi = s.spi ∧ (s.onPer n f).pwm = s.pwm ∧ (s.onPer n f).hb = s.hb ∧ (s.onPer n f).wcomp = s.wcomp ∧
    (s.onPer n f).inp = s.inp ∧ (s.onPer n f).conv = s.conv ∧ (s.onPer n f).pair = s.pair ∧ (s.onPer n f).cal = s.cal ∧
    (s.onPer n f).sdm = s.sdm ∧ (s.onPer n f).banksA = s.banksA ∧ (s.onPer n f).banksB = s.banksB ∧
    (s.onPer n f).serving = s.serving ∧ (s.onPer n f).ready = s.ready ∧ (s.onPer n f).red = s.red ∧
    (s.onPer n f).clock = s.clock ∧ (s.onPer n f).ptp = s.ptp ∧ (s.onPer n f).fw = s.fw ∧ (s.onPer n f).caps = s.caps ∧
    (s.onPer n f).chest = s.chest ∧ (s.onPer n f).streams = s.streams ∧ (s.onPer n f).trigs = s.trigs ∧
    (s.onPer n f).safe = s.safe ∧ (s.onPer n f).safeStn = s.safeStn ∧ (s.onPer n f).sin = s.sin ∧
    (s.onPer n f).sout = s.sout ∧ (s.onPer n f).pendSet = s.pendSet ∧ (s.onPer n f).readData = s.readData ∧
    (s.onPer n f).clk = s.clk ∧ (s.onPer n f).dev = s.dev ∧ (s.onPer n f).vioA = s.vioA ∧ (s.onPer n f).vioB = s.vioB ∧
    (s.onPer n f).ports = s.ports ∧ (s.onPer n f).shelfSeen = s.shelfSeen ∧ (s.onPer n f).shelfFresh = s.shelfFresh ∧
    (s.onPer n f).dmaCh = s.dmaCh ∧ (s.onPer n f).dma = s.dma ∧ (s.onPer n f).cvu = s.cvu ∧ (s.onPer n f).mbx = s.mbx ∧
    (s.onPer n f).otp = s.otp ∧ (s.onPer n f).flash = s.flash ∧ (s.onPer n f).trust = s.trust ∧
    (s.onPer n f).boot = s.boot ∧ (s.onPer n f).power = s.power ∧ (s.onPer n f).slkPort = s.slkPort ∧
    (s.onPer n f).slk = s.slk ∧ (s.onPer n f).sen = s.sen ∧ (s.onPer n f).pending = s.pending := by
  repeat' apply And.intro
  all_goals rfl

end Sys2Proof.Machine
end

