-- ==== Sys2Proof/Laws/Reg.lean ====
section
/-! SUPPORT. Fields of words and of the register file: what a field reads as after a write of it, or of another. -/

namespace Sys2Proof.Machine

/-! ### Fields of a word -/

/-- A number split around a field. -/
theorem split_at (x lo w : Nat) : x = x / 2 ^ (lo + w) * 2 ^ (lo + w) + x / 2 ^ lo % 2 ^ w * 2 ^ lo + x % 2 ^ lo := by
  have h1 := Nat.div_add_mod x (2 ^ lo)
  have h2 := Nat.div_add_mod (x / 2 ^ lo) (2 ^ w)
  rw [Nat.div_div_eq_div_mul, ← pow_add] at h2
  calc x = 2 ^ lo * (x / 2 ^ lo) + x % 2 ^ lo := h1.symm
    _ = 2 ^ lo * (2 ^ w * (x / 2 ^ (lo + w)) + x / 2 ^ lo % 2 ^ w) + x % 2 ^ lo := by rw [h2]
    _ = _ := by rw [pow_add]; ring

theorem putBits_toNat (v : Word) {lo w : Nat} (n : Nat) (h : lo + w ≤ 32) :
    (putBits v lo w n).toNat = v.toNat / 2 ^ (lo + w) * 2 ^ (lo + w) + n % 2 ^ w * 2 ^ lo + v.toNat % 2 ^ lo := by
  have hs := split_at v.toNat lo w
  have hx : v.toNat < 2 ^ 32 := v.isLt
  have hb : v.toNat - bits v lo w * 2 ^ lo + n % 2 ^ w * 2 ^ lo =
      v.toNat / 2 ^ (lo + w) * 2 ^ (lo + w) + n % 2 ^ w * 2 ^ lo + v.toNat % 2 ^ lo := by unfold bits; omega
  have hp : (2 : Nat) ^ (lo + w) = 2 ^ w * 2 ^ lo := by rw [pow_add]; ring
  have hlo : v.toNat % 2 ^ lo < 2 ^ lo := Nat.mod_lt _ (by positivity)
  have hn : n % 2 ^ w < 2 ^ w := Nat.mod_lt _ (by positivity)
  have hf : n % 2 ^ w * 2 ^ lo + v.toNat % 2 ^ lo < 2 ^ (lo + w) := by
    calc n % 2 ^ w * 2 ^ lo + v.toNat % 2 ^ lo < n % 2 ^ w * 2 ^ lo + 2 ^ lo := by omega
      _ = (n % 2 ^ w + 1) * 2 ^ lo := by ring
      _ ≤ 2 ^ w * 2 ^ lo := Nat.mul_le_mul_right _ hn
      _ = _ := hp.symm
  have hq : v.toNat / 2 ^ (lo + w) + 1 ≤ 2 ^ (32 - (lo + w)) := by
    have : v.toNat / 2 ^ (lo + w) < 2 ^ (32 - (lo + w)) := by
      rw [Nat.div_lt_iff_lt_mul (by positivity), ← pow_add]
      rwa [show 32 - (lo + w) + (lo + w) = 32 by omega]
    omega
  have ht : v.toNat / 2 ^ (lo + w) * 2 ^ (lo + w) + n % 2 ^ w * 2 ^ lo + v.toNat % 2 ^ lo < 2 ^ 32 := by
    have := Nat.mul_le_mul_right (2 ^ (lo + w)) hq
    rw [← pow_add, show 32 - (lo + w) + (lo + w) = 32 by omega, Nat.add_mul] at this
    omega
  simp only [putBits, hb, BitVec.toNat_ofNat]
  exact Nat.mod_eq_of_lt ht

theorem bits_lt (v : Word) (lo w : Nat) : bits v lo w < 2 ^ w := Nat.mod_lt _ (by positivity)

theorem bits_putBits_self (v : Word) {lo w : Nat} (n : Nat) (h : lo + w ≤ 32) : bits (putBits v lo w n) lo w = n % 2 ^ w := by
  have hlo : v.toNat % 2 ^ lo < 2 ^ lo := Nat.mod_lt _ (by positivity)
  have hp : (2 : Nat) ^ (lo + w) = 2 ^ w * 2 ^ lo := by rw [pow_add]; ring
  unfold bits
  rw [putBits_toNat v n h, hp,
    show v.toNat / (2 ^ w * 2 ^ lo) * (2 ^ w * 2 ^ lo) + n % 2 ^ w * 2 ^ lo + v.toNat % 2 ^ lo =
      v.toNat % 2 ^ lo + 2 ^ lo * (n % 2 ^ w + 2 ^ w * (v.toNat / (2 ^ w * 2 ^ lo))) by ring,
    Nat.add_mul_div_left _ _ (by positivity), Nat.div_eq_of_lt hlo, zero_add, Nat.add_mul_mod_self_left, Nat.mod_mod]

/-- A bit outside the field written keeps its value. -/
theorem testBit_putBits (v : Word) {lo w : Nat} (n : Nat) (h : lo + w ≤ 32) (i : Nat) (hi : i < lo ∨ lo + w ≤ i) :
    (putBits v lo w n).toNat.testBit i = v.toNat.testBit i := by
  have hlo : v.toNat % 2 ^ lo < 2 ^ lo := Nat.mod_lt _ (by positivity)
  have hp : (2 : Nat) ^ (lo + w) = 2 ^ w * 2 ^ lo := by rw [pow_add]; ring
  have hn : n % 2 ^ w < 2 ^ w := Nat.mod_lt _ (by positivity)
  rw [putBits_toNat v n h]
  rcases hi with hi | hi
  · rw [show v.toNat / 2 ^ (lo + w) * 2 ^ (lo + w) + n % 2 ^ w * 2 ^ lo + v.toNat % 2 ^ lo =
      2 ^ lo * (n % 2 ^ w + 2 ^ w * (v.toNat / 2 ^ (lo + w))) + v.toNat % 2 ^ lo by rw [hp]; ring,
      Nat.testBit_two_pow_mul_add _ hlo, if_pos hi, Nat.testBit_mod_two_pow]
    simp [hi]
  · have hf : n % 2 ^ w * 2 ^ lo + v.toNat % 2 ^ lo < 2 ^ (lo + w) := by
      calc n % 2 ^ w * 2 ^ lo + v.toNat % 2 ^ lo < n % 2 ^ w * 2 ^ lo + 2 ^ lo := by omega
        _ = (n % 2 ^ w + 1) * 2 ^ lo := by ring
        _ ≤ 2 ^ w * 2 ^ lo := Nat.mul_le_mul_right _ hn
        _ = _ := hp.symm
    rw [show v.toNat / 2 ^ (lo + w) * 2 ^ (lo + w) + n % 2 ^ w * 2 ^ lo + v.toNat % 2 ^ lo =
      2 ^ (lo + w) * (v.toNat / 2 ^ (lo + w)) + (n % 2 ^ w * 2 ^ lo + v.toNat % 2 ^ lo) by ring,
      Nat.testBit_two_pow_mul_add _ hf, if_neg (by omega), Nat.testBit_div_two_pow]
    congr 1; omega

/-- Two numbers with the same bits in a field have the same field. -/
theorem field_ext {x y lo w : Nat} (h : ∀ i, lo ≤ i → i < lo + w → x.testBit i = y.testBit i) :
    x / 2 ^ lo % 2 ^ w = y / 2 ^ lo % 2 ^ w := by
  apply Nat.eq_of_testBit_eq
  intro i
  rw [Nat.testBit_mod_two_pow, Nat.testBit_mod_two_pow, Nat.testBit_div_two_pow, Nat.testBit_div_two_pow]
  by_cases hi : i < w
  · simp only [hi, decide_true, Bool.true_and]; exact h _ (by omega) (by omega)
  · simp [hi]

/-- A field apart from the one written keeps its value. -/
theorem bits_putBits_ne (v : Word) {lo w lo' w' : Nat} (n : Nat) (h : lo + w ≤ 32) (hd : lo' + w' ≤ lo ∨ lo + w ≤ lo') :
    bits (putBits v lo w n) lo' w' = bits v lo' w' :=
  field_ext (fun i h1 h2 => testBit_putBits v n h i (by omega))

/-! ### The register file -/

variable (s : State)

@[simp] theorem State.reg_setReg_self (a : Nat) (w : Word) : (s.setReg a w).reg a = w := tget_tset_self _ _ _ _

theorem State.reg_setReg_ne {a b : Nat} (w : Word) (h : b ≠ a) : (s.setReg a w).reg b = s.reg b := tget_tset_ne _ _ _ h

@[simp] theorem State.actReg_setAct_self (a : Nat) (w : Word) : (s.setAct a w).actReg a = w := tget_tset_self _ _ _ _

theorem State.actReg_setAct_ne {a b : Nat} (w : Word) (h : b ≠ a) : (s.setAct a w).actReg b = s.actReg b :=
  tget_tset_ne _ _ _ h

@[simp] theorem State.actReg_setReg (a b : Nat) (w : Word) : (s.setReg a w).actReg b = s.actReg b := rfl

@[simp] theorem State.reg_setAct (a b : Nat) (w : Word) : (s.setAct a w).reg b = s.reg b := rfl

@[simp] theorem State.reg_setBoth_self (a : Nat) (w : Word) : (s.setBoth a w).reg a = w := by simp [State.setBoth]

@[simp] theorem State.actReg_setBoth_self (a : Nat) (w : Word) : (s.setBoth a w).actReg a = w := by simp [State.setBoth]

theorem State.fld_setFld_self {f : Fld} (n : Nat) (h : f.lo + f.w ≤ 32) : (s.setFld f n).fld f = n % 2 ^ f.w := by
  simp [State.fld, State.setFld, bits_putBits_self _ _ h]

theorem State.fld_setFld_addr {f g : Fld} (n : Nat) (h : g.addr ≠ f.addr) : (s.setFld f n).fld g = s.fld g := by
  simp [State.fld, State.setFld, State.reg_setReg_ne _ _ h]

theorem State.fld_setFld_ne {f g : Fld} (n : Nat) (hw : f.lo + f.w ≤ 32) (h : g.lo + g.w ≤ f.lo ∨ f.lo + f.w ≤ g.lo) :
    (s.setFld f n).fld g = s.fld g := by
  by_cases ha : g.addr = f.addr
  · simp [State.fld, State.setFld, ha, bits_putBits_ne _ _ hw h]
  · exact s.fld_setFld_addr n ha

theorem State.reg_setFld_ne {f : Fld} {a : Nat} (n : Nat) (h : a ≠ f.addr) : (s.setFld f n).reg a = s.reg a :=
  s.reg_setReg_ne _ h

theorem State.flag_setFlag_self {f : Fld} (h : f.lo + f.w ≤ 32) (hw : 0 < f.w) : (s.setFlag f).flag f = true := by
  have : 1 < 2 ^ f.w := Nat.one_lt_two_pow (by omega)
  simp [State.flag, State.setFlag, State.fld_setFld_self _ _ h, Nat.mod_eq_of_lt this]

/-! ### Arrays of units -/

@[simp] theorem State.stnOf_onStn (n : Nat) (f : Stn → Stn) : (s.onStn n f).stnOf n = f (s.stnOf n) := tget_tset_self _ _ _ _
theorem State.stnOf_onStn_ne {n m : Nat} (f : Stn → Stn) (h : m ≠ n) : (s.onStn n f).stnOf m = s.stnOf m := tget_tset_ne _ _ _ h
@[simp] theorem State.pwmOf_onPwm (n : Nat) (f : PwmUnit → PwmUnit) : (s.onPwm n f).pwmOf n = f (s.pwmOf n) := tget_tset_self _ _ _ _
@[simp] theorem State.convOf_onConv (n : Nat) (f : Conv → Conv) : (s.onConv n f).convOf n = f (s.convOf n) := tget_tset_self _ _ _ _
@[simp] theorem State.sdmOf_onSdm (n : Nat) (f : SdmCh → SdmCh) : (s.onSdm n f).sdmOf n = f (s.sdmOf n) := tget_tset_self _ _ _ _
@[simp] theorem State.capOf_onCap (n : Nat) (f : Cap → Cap) : (s.onCap n f).capOf n = f (s.capOf n) := tget_tset_self _ _ _ _
@[simp] theorem State.portOf_onPort (n : Nat) (f : PortUnit → PortUnit) : (s.onPort n f).portOf n = f (s.portOf n) :=
  tget_tset_self _ _ _ _
@[simp] theorem State.chOf_onCh (n : Nat) (f : DmaCh → DmaCh) : (s.onCh n f).chOf n = f (s.chOf n) := tget_tset_self _ _ _ _
@[simp] theorem State.cvuOf_onCvu (n : Nat) (f : Cvu → Cvu) : (s.onCvu n f).cvuOf n = f (s.cvuOf n) := tget_tset_self _ _ _ _
@[simp] theorem State.slotOf_onSlot (n : Nat) (f : Slot → Slot) : (s.onSlot n f).slotOf n = f (s.slotOf n) := tget_tset_self _ _ _ _
@[simp] theorem State.jobOf_onJob (n : Nat) (f : Job → Job) : (s.onJob n f).jobOf n = f (s.jobOf n) := tget_tset_self _ _ _ _
@[simp] theorem State.safeOf_onSafe (n : Nat) (f : SafeStn → SafeStn) : (s.onSafe n f).safeOf n = f (s.safeOf n) :=
  tget_tset_self _ _ _ _
@[simp] theorem State.slkPortOf_onSlkPort (n : Nat) (f : SlkPort → SlkPort) : (s.onSlkPort n f).slkPortOf n = f (s.slkPortOf n) :=
  tget_tset_self _ _ _ _

/-! ### Memory -/

@[simp] theorem State.byte_setByte_self (a : Nat) (b : Byte) : (s.setByte a b).byte a = b := tget_tset_self _ _ _ _

theorem State.byte_setByte_ne {a c : Nat} (b : Byte) (h : c ≠ a) : (s.setByte a b).byte c = s.byte c := tget_tset_ne _ _ _ h

/-- Bytes outside those written keep their value. -/
theorem State.byte_setBytes_ne (l : List Byte) (a c : Nat) (h : c < a ∨ a + l.length ≤ c) : (s.setBytes a l).byte c = s.byte c := by
  induction l generalizing s a with
  | nil => rfl
  | cons b t ih =>
    simp only [List.length_cons] at h
    rw [State.setBytes, ih _ _ (by omega), State.byte_setByte_ne _ _ (by omega)]

/-- What has been written reads back. -/
theorem State.bytes_setBytes (l : List Byte) (a : Nat) : (s.setBytes a l).bytes a l.length = l := by
  induction l generalizing s a with
  | nil => rfl
  | cons b t ih =>
    simp only [List.length_cons, State.bytes, State.setBytes, ih, List.cons.injEq, and_true]
    rw [State.byte_setBytes_ne _ _ _ _ (by omega), State.byte_setByte_self]

/-! ### Conditions under which a block acts -/

@[simp] theorem whenRun_run {t : State} (h : s.islandsRun = true) : whenRun s t = .next t := by simp [whenRun, h]
@[simp] theorem whenDev_run {t : State} (h : s.devRuns = true) : whenDev s t = .next t := by simp [whenDev, h]
@[simp] theorem whenFw_run {t : State} (h : s.fwRuns = true) : whenFw s t = .next t := by simp [whenFw, h]
@[simp] theorem whenMgmt_run {t : State} (h : s.mgmtRuns = true) : whenMgmt s t = .next t := by simp [whenMgmt, h]

end Sys2Proof.Machine
end

