-- ==== Sys2Proof/Tests/Slice0.lean ====
section
/-! SUPPORT. Tests of the model: worked examples of the manual, ill-formed commands that the check of a command refuses, and
for each clause of each statement a state and operands that meet its hypotheses together. -/

set_option Elab.async false
open Sys2Proof Sys2Proof.Machine
namespace Sys2Proof.Tests

/-- The state that an answer goes on with. -/
def after : Answer → State
  | .next t => t
  | _ => State.reset

/-! ### Commands that no interface can send -/

theorem test_wf_refuses_long_clocking : (Instr.spiReadIncrementing 0 0 0 0 65).wf = false := by decide
theorem test_wf_refuses_long_frame : (Instr.spiWriteFixed 0 0 (List.replicate 257 0) 0 0).wf = false := by decide +kernel
theorem test_wf_refuses_bad_start : (Instr.cellReceived 0 0 ⟨3, 0, [], 0, false, true, 0⟩ true).wf = false := by decide
theorem test_wf_refuses_short_cell : (Instr.cellReceived 0 0 ⟨1, 0, [], 0, false, false, 0⟩ true).wf = false := by decide
theorem test_wf_refuses_long_segment : (Instr.canFdSegment 0 0 0 (List.replicate 65 0)).wf = false := by decide +kernel
theorem test_wf_refuses_wide_modbus : (Instr.modbusRead .i2c 3 65536 1).wf = false := by decide +kernel
theorem test_wf_refuses_short_hash : (Instr.fwStage 0 0 0 []).wf = false := by decide +kernel
theorem test_wf_refuses_wide_offset : (Instr.stageWrite 0 (2 ^ 32) []).wf = false := by decide +kernel
theorem test_wf_refuses_many_words : (Instr.regWrite 0 0 (List.replicate 252 0) false).wf = false := by decide +kernel
theorem test_wf_refuses_many_cells : (Instr.ringCmd 0 0 0 0 0 0 5 []).wf = false := by decide +kernel
theorem test_wf_refuses_long_signature : (Instr.secDbgDataWrite (List.replicate 25 0)).wf = false := by decide +kernel

/-! ### Worked examples of the manual -/

/-- 01_architecture.md: the CRC-8 of the header that reads SYS_DEVID. -/
theorem test_crc8_of_devid_read : crc8 [0, 0, 0, 0] = 0xED := by decide +kernel

/-- 01_architecture.md: the frame returns SYNC 0xA5, then SYS_DEVID, then its CRC; five of the 14 bytes are the header. -/
theorem test_spi_reads_devid :
    (after (exec (.spiReadIncrementing 0 0 0xED 0 1) State.reset)).spi.miso.take 1 = [0xA5] ∧
    ((after (exec (.spiReadIncrementing 0 0 0xED 0 1) State.reset)).spi.miso.drop 4).take 4 = [0x4B, 0x52, 0x48, 0x48] ∧
    (after (exec (.spiReadIncrementing 0 0 0xED 0 1) State.reset)).spi.miso.length = 9 := by decide +kernel

/-- 02_grid_forming_core.md (R64): H 0.196 rounds to 0.20 and is accepted, 0.194 is refused. -/
theorem test_r64_rounds_before_range :
    (parDesc parH).map (fun p => parCheck p 0x3E48B439) = some (some 0x3E4CCCCD) ∧
    (parDesc parH).map (fun p => parCheck p 0x3E46A7F0) = some none := by decide +kernel

/-- 06_pwm_gate.md, the narrowest pulse: DT 500 ns and MINP 200 ns make W_MIN 280 ticks. -/
theorem test_narrowest_pulse :
    ((State.reset.setFld (GATE_OTP_DT 0) 50).setFld (GATE_OTP_MINP 0) 20).wMin 0 = 280 := by decide +kernel

/-- 07_conversion.md: 3,000 kVA at 690 V on a 15,000 A scale make the short filter's limit 27,143. -/
theorem test_short_filter_limit :
    ((State.reset.setBoth (GFM_PAR 0 parS_BASE) (f32OfRat 3000)).setBoth (GFM_PAR 0 parV_BASE) (f32OfRat 690)).limSteps 0 15000 32768 =
      27143 := by decide +kernel

/-- 03_sharing_black_start.md, station B's fifth harmonic: RH 0.010 is not below 0.1 × XH with XH 0.100, so no rule
refuses the channel. -/
theorem test_xr_ratio_holds :
    let s := (((State.reset.setBoth (GFM_PAR 0 (parHch 0 0)) (f32OfRat (1 / 100))).setBoth (GFM_PAR 0 (parHch 0 1))
      (f32OfRat (1 / 10))).setBoth (GFM_PAR 0 (parHch 0 2)) (f32OfRat 5)).setBoth (PWM_PRD 0) 100
    s.hchRule 0 0 ≠ 3 := by decide +kernel

/-- 08_battery_rings.md (R247): a removed node breaks the ring at the nodes on both sides of it, as an open wire does: no
second break. -/
theorem test_removed_node_leaves_open :
    let s := (((State.reset.setFld (pq AQR_CFG_EN 0) 1).setFld (pq AQR_STATE_STATE 0) 4).setFld (pq AQR_STATE_FOUND 0) 10).setFld
      (pq AQR_BREAK_BREAK_A 0) 4 |>.onPort 0 (fun p => { p with endA := 5, firstB := 5 })
    (after (exec (.brkReceived 0 1 0x300 0x300) s)).fld (pq AQR_STATE_STATE 0) = 4 ∧
    (after (exec (.brkReceived 0 1 0x300 0x300) s)).fld (pq AQR_BREAK_BREAK_B 0) = 6 := by decide +kernel

/-- 10_dma_check_values.md: CRC-32C of the nine digits is 0xE306_9283. -/
theorem test_crc32c_of_digits : crc32c [0x31, 0x32, 0x33, 0x34, 0x35, 0x36, 0x37, 0x38, 0x39] = 0xE3069283 := by decide +kernel

/-- 11_time.md, eight hours in RETAIN, woken just before the always-on edge 1,043,718,400: 943,718,400 ticks are 28,800 s;
TIM_FREE then reads 0x85C5_0000. -/
theorem test_eight_hours_in_retain :
    let c := { State.reset with clock := { secs := 812345, ns := 250000000, aon := 1043718399, aonAtSleep := 100000000, frozen := true } }
    let t := c.resumeClock
    t.clock.secs = 841145 ∧ t.clock.ns = 250000000 ∧ t.clock.free = 0x85C50000 ∧ t.flag TIM_STATUS_TIME_ESTIMATED = true := by
  decide +kernel

/-- 14_eznel_host.md, two parameters over SPI: 0.05 s is 0x3D4C_CCCD, and the first word names PARAM_WRITE with SEQUENCE 0x17. -/
theorem test_param_message :
    f32OfRat (1 / 20) = 0x3D4CCCCD ∧ f32OfRat 3 = 0x40400000 ∧
    leBytes 0x00170201 = leBytesN 2 0x0201 ++ leBytesN 2 0x0017 := by decide +kernel

/-- 17_startup_multidevice.md: φ_M = 30 and φ = 51 ask for −21 steps. -/
theorem test_alignment_steps : phaseWrap (30 - 51) = -21 := by decide +kernel

/-- 01_architecture.md: the SPI bus cannot reach the Shelf region through the aperture. -/
theorem test_shelf_closed_to_spi : memClosed 0x80000000 = true ∧ memClosed 0x10000000 = false := by decide

/-- 02_grid_forming_core.md: a run request is stored in GFM_CTRL of its station alone. -/
theorem test_run_request_sets_one_station :
    let t := after (exec (.registerWrite .spi 0x140020 1 false) State.reset)
    t.flag (GFM_CTRL_RUN_REQ 0) = true ∧ t.flag (GFM_CTRL_RUN_REQ 1) = false := by decide +kernel

/-- R7: a write to the window of a station that is not granted changes no register and sets UNGRANTED. -/
theorem test_ungranted_window :
    let t := after (exec (.registerWrite .spi 0x150020 1 false) State.reset)
    t.flag (GFM_CTRL_RUN_REQ 1) = false ∧ t.flag SYS_STATUS_GRANT_MISS = true := by decide +kernel

/-- MBX_CLAIM: the first free slot is CLAIMED and named with bit 31 (14_eznel_host.md). -/
theorem test_claim_names_slot : (after (exec .mbxClaimRead State.reset)).readData = 0x80000000 := by decide +kernel

/-- The first command of the queue runs, and the rest waits. -/
theorem test_step_takes_front :
    (after (step { State.reset with pending := [.mbxClaimRead, .timStepApply] })).pending = [.timStepApply] := by decide +kernel

/-! ### States that meet the hypotheses of the statements -/

def w0 : State := { State.reset with grants := 0x7FF, boot := { fw := true }, safe := { settleRuns := true } }
def wHdr : SlkHdr := ⟨0, 0, 0, 0, true⟩
def wPtp : PtpHdr := ⟨0, 0, 0, 0, 0, 0, true⟩
def wCell : RingCell := ⟨1, 0, [], 0, false, false, 0⟩
/-- An intact header cell of port 0. -/
def wHead : RingCell := { wCell with payload := List.replicate 8 0, crc := crc16 (List.replicate 10 0) }
/-- Slot `i` holds a running request with this opcode, level and payload. -/
def wCmd (s : State) (i op auth : Nat) (payload : List Byte) : State :=
  ((s.onSlot i (fun z => { z with st := 2, running := true })).setHoles (1024 * i)
    (leBytesN 2 op ++ [0, 0] ++ leBytesN 2 payload.length ++ [0, 0, BitVec.ofNat 8 auth])).setHoles (1024 * i + 16) payload
def wBrk : Word := 0x26400
/-- Station 0 in READY with every one-time setting in range, not held, and a run request. -/
def wReady : State :=
  let s := (((((((((w0.setFld OTP_STATUS_SEALED 1).setFld (GATE_OTP_DT 0) 1).setFld (GATE_OTP_MINP 0) 1).setFld (GATE_OTP_BLANK 0) 1).setReg
    (GFM_ENV_OTP_PDIS 0) 0x3F800000).setReg (GFM_ENV_OTP_PCHG 0) 0x3F800000).setReg (GFM_ENV_OTP_ERES 0) 0x3F800000).setFld
    SAF_TIM0_SIN_FILT 1).setFld SAF_TIM0_T_DISC 5).setFld SAF_TIM1_TEST_P 1
  let s := (((s.setFld SAF_TIM1_TEST_W 10).setFld (SAF_SOUT_MAP_STN 0) 1).setFld ADC_PLS_OTP0_PLS_LIMIT 1).setFld ADC_PLS_OTP1_PLS_HI 1
  let s := s.forAll 13 (fun i t => match parDesc (0x30 + i) with
    | some p => t.setBoth (GFM_PAR 0 (0x30 + i)) (f32OfRat p.hi)
    | none => t)
  let s := s.forAll 14 (fun i t => t.setReg (SAF_PAR 0 i) (f32OfRat (safParRange.getD i (0, 0, true)).2.1))
  let s := (s.setBoth (GFM_PAR 0 parS_BASE) 0x3F800000).setBoth (GFM_PAR 0 parV_BASE) 0x42C80000
  ((s.setBoth (GFM_PAR 0 parVDC_BASE) 0x42C80000).onSafe 0 (fun x => { x with held := false })).onStn 0 (fun x => { x with st := .ready })
def wPar : ParamDesc := ⟨parH, (1 / 5), 20, (1 / 100), 4, false, .rw, .shadowed⟩
def wPar2 : ParamDesc := ⟨parF_NOM, 50, 60, 0, 50, false, .rw, .idle⟩
def wLoop : LoopDesc := ⟨0, 1, 0, false, 0, 0, [.theta], 0, false, 0, 0, 0, 0, [], []⟩
def wImg : Image := ⟨1, 1, 0, [], [], ⟨[wLoop], []⟩⟩
def wDesc : Desc := ⟨0x400, 0, 0, 0, 2, 1, 1, [0, 0, 0], [0, 0, 0]⟩
/-- One 16-bit stream, a segment of 64 elements and an area of 64 KB. -/
def wChest : State :=
  (((w0.setFld (CHS_STR_CFG_EN 0) 1).setFld CHS_SEG_LEN_SEG_LEN 64).setFld CHS_AREA_REC_SIZE 1)
def wRow (i : Nat) : RegDesc := regMap.getD i ⟨"", 0, [], []⟩
def wKept : Kept := ⟨.udp 0 true 0 0, 0, fieldAt (message 1 0 0 0 0 []) 12 4, [], 0⟩
def wEntry (n : Nat) : List Byte := leBytesN 2 n ++ [0, 0, 0, 0, 0x80, 0x3F]
def wReq (ch : BureauChange) (fails : Nat) (prog : Bool) : BureauReq := ⟨0, ch, [], [], [], false, 0, 0, fails, prog, none⟩
def wPkt (typ : Nat) : SlkPacket := ⟨typ, 0, 0, 0, 0, []⟩
/-- Both engines granted, the second one a STANDBY beside an ACTIVE first. -/
def wPairEng (stB : Nat) : State := { w0 with red := { stA := 1, stB := stB } }
theorem leNat_zeros : ∀ n, leNat (List.replicate n (0 : Byte)) = 0
  | 0 => rfl
  | n + 1 => by rw [List.replicate_succ, leNat, leNat_zeros n]; rfl

theorem bytes_zeros (s : State) (h : s.mem = []) : ∀ n a, 0x82800000 ≤ a → s.bytes a n = List.replicate n 0
  | 0, _, _ => rfl
  | n + 1, a, ha => by
    have hb : s.byte a = 0 := by
      have hn : ¬ (0x80000000 ≤ a ∧ a < 0x82800000 ∧ a % 8 = 7) := by omega
      simp only [State.byte, h, tget, memDefault, hn, if_false]
    simp [State.bytes, hb, bytes_zeros s h n (a + 1) (by omega), List.replicate_succ]

theorem gains_zeros (s : State) (h : s.mem = []) (k : Nat) :
    gainOk (BitVec.ofNat 16 (fieldAt (s.staged 0 2048) (2 * k) 2)) = true := by
  have hs : s.staged 0 2048 = List.replicate 2048 0 := bytes_zeros s h 2048 _ (by decide)
  rw [hs, fieldAt, List.drop_replicate, List.take_replicate, leNat_zeros]
  decide +kernel

theorem nodes_none (s : State) (q : Nat) (h : ∀ k, k < 16 → s.reg (pq AQR_NODE_PRESENT q k) = 0) : s.nodes q = [] := by
  simp only [State.nodes, List.filter_eq_nil_iff]
  intro l hl
  have := h (l / 32) (by have := List.mem_range.mp hl; omega)
  simp [State.nodePresent, this, bit]
def wRec : List Word := List.replicate 31 0 ++ [crc32c ((List.replicate 31 (0 : Word)).flatMap leBytes)]
theorem wRec_crc : wRec.getD 31 0 = crc32c ((wRec.take 31).flatMap leBytes) := by
  have h : wRec.take 31 = List.replicate 31 0 := by
    rw [wRec, List.take_append_of_le_length (by simp)]; simp
  rw [h]; rfl
def wPE (p : Nat) : ParamEntry := ⟨p, 0, 0x3F800000⟩
def wImgOk : Image := { wImg with body := ⟨[{ wLoop with stateOfs := 0x30000 }], []⟩ }
theorem except_ok {e : Except (Nat × Nat × ParamFault) State} (h : e.toBool = true) : ∃ t, e = .ok t := by
  cases e with
  | error _ => exact absurd h (by simp [Except.toBool])
  | ok t => exact ⟨t, rfl⟩
/-- An image with one loop of station 0, as the staged bytes hold it. -/
def wImageBytes : List Byte :=
  leBytesN 4 0x4D494B49 ++ leBytesN 2 3 ++ List.replicate 10 0 ++ leBytesN 4 33 ++ List.replicate 252 0 ++
    (leBytesN 4 0x53455254 ++ leBytesN 4 1 ++ [1, 1] ++ List.replicate 18 0 ++ leBytesN 4 0x20 ++ [1])
def wStaged : State := w0.setBytes 0x8B800000 wImageBytes

theorem test_StartConfirmations_met :
    (∃ (n : Fin 4) (s : State), s.islandsRun = true ∧ (s.stnOf n).st = .deadBusStart ∧ (s.stnOf n).start.phase = .deadCheck ∧ (s.stnOf n).start.deadOk = true) ∧
    (∃ (n : Fin 4) (s : State), s.islandsRun = true ∧ (s.stnOf n).st = .synchronising ∧ (s.stnOf n).start.phase = .busCheck ∧ (s.stnOf n).start.busLiveOk = true) ∧
    (∃ (n : Fin 4) (s : State), s.islandsRun = true ∧ (s.pwmOf n).run = true) ∧
    (∃ (n : Fin 4) (s : State), s.islandsRun = true ∧ (s.stnOf n).st = .synchronising ∧ (s.stnOf n).start.phase = .matching ∧ (s.stnOf n).start.winOk = true) ∧
    (∃ (n : Fin 4) (s : State), s.islandsRun = true ∧ (s.stnOf n).st ≠ .deadBusStart ∧ (s.stnOf n).st ≠ .synchronising) :=
  ⟨⟨0, w0.onStn 0 (fun z => { z with st := .deadBusStart, start.phase := .deadCheck, start.deadOk := true }), by decide +kernel⟩,
    ⟨0, w0.onStn 0 (fun z => { z with st := .synchronising, start.phase := .busCheck, start.busLiveOk := true }), by decide +kernel⟩,
    ⟨0, w0.onPwm 0 (fun z => { z with run := true }), by decide +kernel⟩,
    ⟨0, w0.onStn 0 (fun z => { z with st := .synchronising, start.phase := .matching, start.winOk := true }), by decide +kernel⟩,
    ⟨0, w0, by decide +kernel⟩⟩

theorem test_StartTimeouts_met :
    (∃ (n : Fin 4) (s : State), s.islandsRun = true ∧ (s.stnOf n).st = .deadBusStart ∧ (s.stnOf n).start.phase = .deadCheck ∧ (s.stnOf n).start.confirmed = false) ∧
    (∃ (n : Fin 4) (s : State), s.islandsRun = true ∧ ((s.stnOf n).st = .deadBusStart ∨ (s.stnOf n).st = .synchronising) ∧ (s.stnOf n).start.holding = true) ∧
    (∃ (n : Fin 4) (s : State), s.islandsRun = true ∧ (s.stnOf n).st = .synchronising) ∧
    (∃ (n : Fin 4) (s : State), s.islandsRun = true ∧ (s.stnOf n).st = .synchronising ∧ (s.stnOf n).start.phase = .busGap) :=
  ⟨⟨0, w0.onStn 0 (fun z => { z with st := .deadBusStart, start.phase := .deadCheck }), by decide +kernel⟩,
    ⟨0, (w0.onStn 0 (fun z => { z with start.holding := true })).onStn 0 (fun z => { z with st := .deadBusStart }), by decide +kernel⟩,
    ⟨0, w0.onStn 0 (fun z => { z with st := .synchronising }), by decide +kernel⟩,
    ⟨0, w0.onStn 0 (fun z => { z with st := .synchronising, start.phase := .busGap }), by decide +kernel⟩⟩

theorem test_BreakerContact_met :
    (∃ (n : Fin 4) (c : Nat) (s : State), s.islandsRun = true ∧ s.brkInput n = some c ∧ (s.stnOf n).st = .synchronising ∧ (s.stnOf n).enHigh = true ∧ (s.stnOf n).start.complete = false ∧ (s.stnOf n).start.phase = .window ∧ s.fld (GFM_CTRL_START_MODE n) ≠ 2) ∧
    (∃ (n : Fin 4) (c : Nat) (s : State), s.islandsRun = true ∧ s.brkInput n = some c ∧ (s.stnOf n).st = .stopping ∧ (s.stnOf n).stopFrom = .synchronising ∧ (s.stnOf n).start.complete = false) ∧
    (∃ (n : Fin 4) (c : Nat) (s : State), s.islandsRun = true ∧ s.brkInput n = some c ∧ (s.stnOf n).st = .synchronising ∧ (s.stnOf n).enHigh = false ∧ (s.stnOf n).start.complete = false) ∧
    (∃ (n : Fin 4) (c : Nat) (s : State), s.islandsRun = true ∧ s.brkInput n = some c ∧ (s.stnOf n).st = .deadBusStart) ∧
    (∃ (n : Fin 4) (c : Nat) (s : State), s.islandsRun = true ∧ s.brkInput n = some c ∧ (s.stnOf n).st = .running) ∧
    (∃ (n : Fin 4) (c : Nat) (s : State), s.islandsRun = true ∧ s.brkInput n = some c) :=
  ⟨⟨0, 0, (w0.onStn 0 (fun z => { z with st := .synchronising, start.phase := .window })).setReg (TRS_IN_CFG 0) wBrk, by decide +kernel⟩,
    ⟨0, 0, (w0.onStn 0 (fun z => { z with st := .stopping, stopFrom := .synchronising })).setReg (TRS_IN_CFG 0) wBrk, by decide +kernel⟩,
    ⟨0, 0, (w0.onStn 0 (fun z => { z with st := .synchronising })).setReg (TRS_IN_CFG 0) wBrk, by decide +kernel⟩,
    ⟨0, 0, (w0.onStn 0 (fun z => { z with st := .deadBusStart })).setReg (TRS_IN_CFG 0) wBrk, by decide +kernel⟩,
    ⟨0, 0, (w0.onStn 0 (fun z => { z with st := .running })).setReg (TRS_IN_CFG 0) wBrk, by decide +kernel⟩,
    ⟨0, 0, w0.setReg (TRS_IN_CFG 0) wBrk, by decide +kernel⟩⟩

theorem test_FailedStartTrips_met : ∃ (n : Fin 4) (s : State) (r : Nat), r < 16 ∧ s.pendSet = [] ∧ (s.stnOf n).turn = none ∧ (s.stnOf n).st ≠ .disabled ∧ (s.stnOf n).st ≠ .tripped :=
  ⟨0, w0.onStn 0 (fun z => { z with st := .running }), 0, by decide +kernel⟩

theorem test_TripEntersTripped_met :
    (∃ (n : Fin 4) (s : State) (code : Nat), 1 ≤ code ∧ code ≤ 11 ∧ s.pendSet = [] ∧ (s.stnOf n).trips = [] ∧ (s.stnOf n).turn = none ∧ (s.stnOf n).st ≠ .disabled ∧ (s.stnOf n).st ≠ .tripped) ∧
    (∃ (n : Fin 4) (s : State) (t : Turn), (s.stnOf n).turn = some t ∧ t.st ≠ .disabled ∧ t.st ≠ .tripped ∧ (s.stnOf n).st ≠ .disabled) :=
  ⟨⟨0, w0.onStn 0 (fun z => { z with st := .running }), 1, by decide +kernel⟩,
    ⟨0, w0.onStn 0 (fun z => { z with st := .running, turn := some ⟨9, .running, .ready, [], {}, {}, 0, 0⟩ }), ⟨9, .running, .ready, [], {}, {}, 0, 0⟩, by decide +kernel⟩⟩

theorem test_RunningAndForce_met :
    (∃ (n : Fin 4) (s : State), ((s.stnOf n).st = .limiting ∨ (s.stnOf n).st = .rideThrough)) ∧
    (∃ (n : Fin 4) (k : Fin 12) (s : State), (s.stnOf n).enHigh = true ∧ (∃ j, j < 12 ∧ j ≠ k.val)) :=
  ⟨⟨0, w0.onStn 0 (fun z => { z with st := .limiting }), by decide +kernel⟩,
    ⟨0, 0, w0.onStn 0 (fun z => { z with st := .running }), by exact ⟨by decide +kernel, ⟨1, by decide, by decide⟩⟩⟩⟩

theorem test_RideThroughTrips_met :
    (∃ (n : Fin 4) (s : State), s.islandsRun = true ∧ 0 < (s.pwmOf n).hwlConsec ∧ s.par n parHWL_CYCLES ≤ ((s.pwmOf n).hwlConsec : Rat)) ∧
    (∃ (n : Fin 4) (s : State), s.islandsRun = true ∧ (s.stnOf n).inRide = true ∧ (s.par n parT_RT1 ≤ (s.stnOf n).ride.time ∨ reached (s.stnOf n).ride.below (s.cycleSec n) = true)) ∧
    (∃ (n : Fin 4) (s : State), s.islandsRun = true ∧ s.windowsOn n = true ∧ s.vOutside n = true) ∧
    (∃ (n : Fin 4) (s : State), s.islandsRun = true ∧ s.windowsOn n = true ∧ s.fOutside n = true) ∧
    (∃ (n : Fin 4) (s : State), s.islandsRun = true ∧ (s.stnOf n).stHere = .openLoopV) ∧
    (∃ (n : Fin 4) (s : State), s.islandsRun = true ∧ (s.stnOf n).st = .rideThrough) ∧
    (∃ (n : Fin 4) (s : State), s.islandsRun = true ∧ s.stnType n = 0 ∧ ((s.stnOf n).st = .running ∨ (s.stnOf n).st = .limiting)) ∧
    (∃ (n : Fin 4) (s : State), s.islandsRun = true ∧ (s.stnOf n).st = .openLoopV) :=
  ⟨⟨0, w0.onPwm 0 (fun z => { z with hwlConsec := 1 }), by decide +kernel⟩,
    ⟨0, w0.onStn 0 (fun z => { z with st := .rideThrough, ride.time := 100 }), by decide +kernel⟩,
    ⟨0, w0.onStn 0 (fun z => { z with st := .running, ride.vPerm := some 1000 }), by decide +kernel⟩,
    ⟨0, w0.onStn 0 (fun z => { z with st := .running, ride.fTrans := true }), by decide +kernel⟩,
    ⟨0, w0.onStn 0 (fun z => { z with st := .openLoopV }), by decide +kernel⟩,
    ⟨0, w0.onStn 0 (fun z => { z with st := .rideThrough }), by decide +kernel⟩,
    ⟨0, w0.onStn 0 (fun z => { z with st := .running }), by decide +kernel⟩,
    ⟨0, w0.onStn 0 (fun z => { z with st := .openLoopV }), by decide +kernel⟩⟩

theorem test_LimitingEvents_met :
    (∃ (n : Fin 4) (s : State), s.islandsRun = true ∧ (s.stnOf n).enHigh = true ∧ (s.stnOf n).st ≠ .running ∧ (s.stnOf n).lim.ceilAtOvl = false ∧ s.par n parT_FC * 1000 < (s.stnOf n).lim.limTime) ∧
    (∃ (n : Fin 4) (s : State), s.islandsRun = true ∧ s.stopWanted n = false ∧ s.mayTurn n 9 = true ∧ (s.stnOf n).st = .rideThrough ∧ (s.stnOf n).lim.vOk = true ∧ s.par n parT_CLR ≤ (s.stnOf n).lim.vOkTime) ∧
    (∃ (n : Fin 4) (s : State), s.islandsRun = true ∧ s.stopWanted n = false ∧ s.mayTurn n 9 = true ∧ (s.stnOf n).st = .limiting ∧ (s.stnOf n).limitingNow = false ∧ (s.stnOf n).lim.calm = true ∧ s.par n parT_CLR ≤ (s.stnOf n).lim.calmTime) ∧
    (∃ (n : Fin 4) (s : State) (c : Fin 6) (code : BitVec 12), s.islandsRun = true ∧ s.grantS n = true ∧ s.flag (GATE_WCMP_CFG_EN n c) = true ∧ s.fld (GATE_WCMP_LIM_LO n c) < s.fld (GATE_WCMP_LIM_HI n c) ∧ s.fld (GATE_WCMP_LIM_HI n c) < code.toNat) :=
  ⟨⟨0, w0.onStn 0 (fun z => { z with st := .limiting, lim.limTime := 1000000 }), by decide +kernel⟩,
    ⟨0, ({ (w0.onStn 0 (fun z => { z with st := .rideThrough, lim.vOk := true })).onStn 0 (fun z => { z with lim.vOkTime := 100 }) with sen := 15 }).setFld (GFM_CTRL_RUN_REQ 0) 1, by decide +kernel⟩,
    ⟨0, ({ (w0.onStn 0 (fun z => { z with st := .limiting, lim.calm := true })).onStn 0 (fun z => { z with lim.calmTime := 100 }) with sen := 15 }).setFld (GFM_CTRL_RUN_REQ 0) 1, by decide +kernel⟩,
    ⟨0, (w0.setFld (GATE_WCMP_CFG_EN 0 0) 1).setFld (GATE_WCMP_LIM_HI 0 0) 1, 0, 2, by decide +kernel⟩⟩

theorem test_StationRequests_met :
    (∃ (n : Fin 4) (w : Word) (s : State), s.islandsRun = true ∧ s.grantS n = true ∧ (s.pwmOf n).run = true ∧ (bits w 8 2 = 1 → s.grantMachine = true) ∧ (s.stnOf n).idle = true ∧ (s.stnOf n).st ≠ .disabled ∧ bit w 12 = false ∧ bits w 8 2 ≠ 3 ∧ bits w 4 3 ≤ 2) ∧
    (∃ (n : Fin 4) (w : Word) (s : State), s.islandsRun = true ∧ s.grantS n = true ∧ (s.pwmOf n).run = true ∧ (bits w 8 2 = 1 → s.grantMachine = true) ∧ (s.stnOf n).idle = false ∧ bit w 12 = false ∧ bits w 8 2 = s.fld (GFM_CTRL_TYPE n) ∧ bits w 4 3 = s.fld (GFM_CTRL_START_MODE n) ∧ s.flag (GFM_CTRL_RUN_REQ n) = true) :=
  ⟨⟨0, 0, (w0.onStn 0 (fun z => { z with st := .ready })).onPwm 0 (fun z => { z with run := true }), by decide +kernel⟩,
    ⟨0, 0, ((w0.onStn 0 (fun z => { z with st := .running })).onPwm 0 (fun z => { z with run := true })).setFld (GFM_CTRL_RUN_REQ 0) 1, by decide +kernel⟩⟩

theorem test_StationRows_met :
    (∃ (n : Fin 4) (s : State), (s.stnOf n).tripDue = false ∧ (s.stnOf n).st = .running ∧ (∀ t, (s.stnOf n).turn = some t → t.st = .running) ∧ s.flag (GFM_CTRL_RUN_REQ n) = false) ∧
    (∃ (n : Fin 4) (s : State), (s.stnOf n).tripDue = false ∧ (s.stnOf n).st = .deadBusStart ∧ (s.stnOf n).stopReq = false ∧ s.flag (GFM_CTRL_RUN_REQ n) = true ∧ s.sen.getLsbD n = true ∧ (s.stnOf n).start.complete = true) ∧
    (∃ (n : Fin 4) (s : State), (s.stnOf n).tripDue = false ∧ (s.stnOf n).st = .ready ∧ s.flag (GFM_CTRL_RUN_REQ n) = true ∧ s.sen.getLsbD n = true ∧ s.fld PWR_STATUS_BANK_FAIL = 0 ∧ s.settingsComplete n = true ∧ s.dtM n ≤ 1 / 100 ∧ s.parDec n parD * s.dtV n ≤ 1 / 5 ∧ s.requestsHeld n = false ∧ s.stnType n = 0 ∧ s.fld (GFM_CTRL_START_MODE n) = 0) :=
  ⟨⟨0, w0.onStn 0 (fun z => { z with st := .running }), by decide +kernel⟩,
    ⟨0, { (w0.onStn 0 (fun z => { z with st := .deadBusStart, start.complete := true })).setFld (GFM_CTRL_RUN_REQ 0) 1 with sen := 15 }, by decide +kernel⟩,
    ⟨0, { (wReady.onStn 0 (fun z => { z with st := .ready })).setFld (GFM_CTRL_RUN_REQ 0) 1 with sen := 15 }, by decide +kernel⟩⟩

theorem test_ResetRequest_met : ∃ (n : Fin 4) (w : Word) (s : State), s.islandsRun = true ∧ s.grantS n = true ∧ (s.pwmOf n).run = true ∧ s.pendSet = [] ∧ (bits w 8 2 = 1 → s.grantMachine = true) ∧ bits w 8 2 = s.fld (GFM_CTRL_TYPE n) ∧ (s.stnOf n).st = .tripped ∧ s.requestsHeld n = false ∧ s.rated n = true ∧ s.fld (GATE_LATCH_LATCHED n) = 0 :=
  ⟨0, 0, (wReady.onPwm 0 (fun z => { z with run := true })).onStn 0 (fun z => { z with st := .tripped }), by decide +kernel⟩

theorem test_ParameterWrites_met :
    (∃ (n : Fin 4) (i : BitVec 8) (w : Word) (s : State) (p : ParamDesc) (v : Word), s.islandsRun = true ∧ s.grantS n = true ∧ parDesc i.toNat = some p ∧ p.acc ≠ .ro ∧ parCheck p w = some v ∧ p.cls ≠ .idle ∧ (i.toNat = parD → s.stnIdle n = true)) ∧
    (∃ (n : Fin 4) (i : BitVec 8) (w : Word) (s : State) (p : ParamDesc) (v : Word), s.islandsRun = true ∧ s.grantS n = true ∧ parDesc i.toNat = some p ∧ p.acc ≠ .ro ∧ parCheck p w = some v ∧ p.cls ≠ .idle ∧ i.toNat = parD ∧ s.stnIdle n = false) ∧
    (∃ (n : Fin 4) (i : BitVec 8) (w : Word) (s : State) (p : ParamDesc) (v : _), s.islandsRun = true ∧ s.grantS n = true ∧ parDesc i.toNat = some p ∧ p.acc ≠ .ro ∧ parCheck p w = some v ∧ p.cls = .idle ∧ v ≠ s.reg (GFM_PAR n i.toNat) ∧ s.stnIdle n = true) ∧
    (∃ (n : Fin 4) (i : BitVec 8) (w : Word) (s : State) (p : ParamDesc) (v : Word), s.islandsRun = true ∧ s.grantS n = true ∧ parDesc i.toNat = some p ∧ p.acc ≠ .ro ∧ parCheck p w = some v ∧ p.cls = .idle ∧ v = s.reg (GFM_PAR n i.toNat)) ∧
    (∃ (n : Fin 4) (i : BitVec 8) (w : Word) (s : State) (p : ParamDesc) (v : _), s.islandsRun = true ∧ s.grantS n = true ∧ parDesc i.toNat = some p ∧ p.acc ≠ .ro ∧ parCheck p w = some v ∧ p.cls = .idle ∧ v ≠ s.reg (GFM_PAR n i.toNat) ∧ s.stnIdle n = false) ∧
    (∃ (n : Fin 4) (i : BitVec 8) (w : Word) (s : State) (p : ParamDesc), s.islandsRun = true ∧ s.grantS n = true ∧ parDesc i.toNat = some p ∧ p.acc ≠ .ro ∧ parCheck p w = none) :=
  ⟨⟨0, 0x10, 0x3F800000, w0, wPar, 0x3F800000, by decide +kernel⟩,
    ⟨0, 0x11, 0x41200000, w0.onStn 0 (fun z => { z with st := .running }), ((parDesc 0x11).get (by decide +kernel)), 0x41200000, by decide +kernel⟩,
    ⟨0, 2, 0x42700000, w0, wPar2, 0x42700000, by decide +kernel⟩,
    ⟨0, 2, 0x42480000, w0.setReg (GFM_PAR 0 2) 0x42480000, wPar2, 0x42480000, by decide +kernel⟩,
    ⟨0, 2, 0x42700000, w0.onStn 0 (fun z => { z with st := .running }), wPar2, 0x42700000, by decide +kernel⟩,
    ⟨0, 2, 0, w0, wPar2, by decide +kernel⟩⟩

theorem test_EnvelopeCommit_met :
    (∃ (n : Fin 4) (seq : Word) (s : State), s.islandsRun = true ∧ s.grantS n = true ∧ seq ≠ s.reg (GFM_ENV_SEQ n) ∧ envOk (s.reg (GFM_ENV_PDIS n)) 4 = true ∧ envOk (s.reg (GFM_ENV_PCHG n)) 4 = true ∧ envOk (s.reg (GFM_ENV_ERES n)) 600 = true) ∧
    (∃ (n : Fin 4) (seq : Word) (s : State), s.islandsRun = true ∧ s.grantS n = true ∧ seq ≠ s.reg (GFM_ENV_SEQ n) ∧ (envOk (s.reg (GFM_ENV_PDIS n)) 4 = false ∨ envOk (s.reg (GFM_ENV_PCHG n)) 4 = false ∨ envOk (s.reg (GFM_ENV_ERES n)) 600 = false)) ∧
    (∃ (n : Fin 4) (s : State), s.islandsRun = true ∧ s.grantS n = true ∧ (s.stnOf n).env.otp = false) ∧
    (∃ (n : Fin 4) (s : State), s.islandsRun = true ∧ s.grantS n = true) :=
  ⟨⟨0, 1, ((w0.setReg (GFM_ENV_PDIS 0) 0x3F800000).setReg (GFM_ENV_PCHG 0) 0x3F800000).setReg (GFM_ENV_ERES 0) 0x3F800000, by decide +kernel⟩,
    ⟨0, 1, w0.setReg (GFM_ENV_PDIS 0) 0xBF800000, by decide +kernel⟩,
    ⟨0, w0.onStn 0 (fun z => { z with env.otp := false }), by decide +kernel⟩,
    ⟨0, w0, by decide +kernel⟩⟩

theorem test_EnvelopeAtBoundary_met :
    (∃ (n : Fin 4) (s : State) (e : Envelope), (s.stnOf n).envWait = some e) ∧
    (∃ (n : Fin 4) (s : State), (s.stnOf n).envWait = none ∧ (s.stnOf n).fallbackDue = true) :=
  ⟨⟨0, w0.onStn 0 (fun z => { z with envWait := some ({}) }), {}, by decide +kernel⟩,
    ⟨0, w0.onStn 0 (fun z => { z with fallbackDue := true }), by decide +kernel⟩⟩

theorem test_RotorBounds_met :
    (∃ (n : Fin 4) (s : State), s.par n parW_MIN ≤ s.par n parW_MAX) ∧
    (∃ (n : Fin 4) (s : State) (w : _), s.par n parW_MIN ≤ s.par n parW_MAX ∧ ((s.stnOf n).steered = false ∨ (s.stnOf n).start.phase = .busGap) ∧ w = swingStep (s.coreOf n).omega (s.dtV n) (s.coreOf n).hEff (s.drivePower n) (s.coreOf n).pF (s.par n parD) (s.coreOf n).omegaF ∧ s.par n parW_MIN ≤ w ∧ w ≤ s.par n parW_MAX) ∧
    (∃ (n : Fin 4) (s : State) (w : _), s.par n parW_MIN ≤ s.par n parW_MAX ∧ ((s.stnOf n).steered = false ∨ (s.stnOf n).start.phase = .busGap) ∧ w = swingStep (s.coreOf n).omega (s.dtV n) (s.coreOf n).hEff (s.drivePower n) (s.coreOf n).pF (s.par n parD) (s.coreOf n).omegaF ∧ (w < s.par n parW_MIN ∨ s.par n parW_MAX < w)) :=
  ⟨⟨0, w0, by decide +kernel⟩,
    ⟨0, w0, 1, by decide +kernel⟩,
    ⟨0, w0.onCore 0 (fun z => { z with omega := 2 }), 2, by decide +kernel⟩⟩

theorem test_GovernorBounds_met : ∃ (lo : Rat) (hi : Rat) (step : Rat) (old : Rat), lo ≤ hi ∧ 0 ≤ step ∧ lo ≤ old ∧ old ≤ hi :=
  ⟨0, 0, 0, 0, by decide +kernel⟩

theorem test_PeriodEvents_met :
    (∃ (n : Fin 4) (s : State), s.islandsRun = true ∧ s.grantS n = true ∧ (s.pwmOf n).run = true) ∧
    (∃ (n : Fin 4) (s : State) (t : Fin 8), s.islandsRun = true ∧ s.grantS n = true ∧ s.trgFires n t = true) ∧
    (∃ (n : Fin 4) (s : State), s.islandsRun = true ∧ s.grantS n = true ∧ (s.pwmOf n).run = true ∧ (s.stnOf n).per.started = false ∧ (s.stnOf n).per.finished = false ∧ s.activeUp = true ∧ s.serving = none ∧ s.ready.head?.map (fun e => e.2) = some n.val ∧ s.stnType n = 0 ∧ (s.stnOf n).st = .running ∧ s.openLoops n ≠ []) ∧
    (∃ (n : Fin 4) (s : State), s.islandsRun = true ∧ s.grantS n = true ∧ (s.stnOf n).st = .stopping) ∧
    (∃ (n : Fin 4) (s : State), s.islandsRun = true ∧ s.grantS n = true) :=
  ⟨⟨0, w0.onPwm 0 (fun z => { z with run := true }), by decide +kernel⟩,
    ⟨0, ((w0.onPwm 0 (fun z => { z with run := true })).setActFld (PWM_TRG_EN 0 0) 1).setBoth (PWM_PRD 0) 100, 0, by decide +kernel⟩,
    ⟨0, { { ({ w0.onPwm 0 (fun z => { z with run := true }) with serving := none }).onStn 0 (fun z => { z with st := .running }) with banksA := { bank0 := some wImg } } with ready := [(0, 0)] }, by decide +kernel⟩,
    ⟨0, w0.onStn 0 (fun z => { z with st := .stopping }), by decide +kernel⟩,
    ⟨0, w0, by decide +kernel⟩⟩

theorem test_WorkOfAPeriod_met :
    (∃ (n : Fin 4) (s : State) (k : Fin 64) (d : LoopDesc), s.islandsRun = true ∧ s.stnLoop n k = some d ∧ s.activeUp = true ∧ s.serving = some n ∧ (s.openLoops n).head? = some k.val) ∧
    (∃ (n : Fin 4) (s : State), s.islandsRun = true ∧ (s.pwmOf n).run = true ∧ s.activeUp = true ∧ s.listComplete n = true ∧ s.openLoops n = []) ∧
    (∃ (n : Fin 4) (s : State), s.islandsRun = true ∧ (s.pwmOf n).run = true ∧ (s.stnOf n).per.finished = true ∧ (s.stnOf n).per.snapped = false ∧ s.copyOpen n = false) :=
  ⟨⟨0, { { { w0 with serving := some 0 } with banksA := { bank0 := some wImg } } with serving := some 0 }, 0, wLoop, by decide +kernel⟩,
    ⟨0, w0.onPwm 0 (fun z => { z with run := true }), by decide +kernel⟩,
    ⟨0, (w0.onPwm 0 (fun z => { z with run := true })).onStn 0 (fun z => { z with per.finished := true }), by decide +kernel⟩⟩

theorem test_SnapshotRecord_met : ∃ (n : Fin 4) (s : State), s.islandsRun = true ∧ (s.pwmOf n).run = true ∧ (s.stnOf n).per.finished = true ∧ (s.stnOf n).per.snapped = false ∧ s.copyOpen n = false :=
  ⟨0, (w0.onPwm 0 (fun z => { z with run := true })).onStn 0 (fun z => { z with per.finished := true }), by decide +kernel⟩

theorem test_EngineWindow_met :
    (∃ (e : Fin 2) (s : State), s.islandsRun = true ∧ s.hasEngine e = true ∧ s.swapRefusal e ≠ 0) ∧
    (∃ (e : Fin 2) (s : State), s.islandsRun = true ∧ s.hasEngine e = true ∧ s.swapRefusal e = 0) ∧
    (∃ (e : Fin 2) (s : State), s.islandsRun = true ∧ s.hasEngine e = true ∧ s.swapRefusal e = 0 ∧ (∀ n, n < 4 → s.stnIdle n = false)) ∧
    (∃ (e : Fin 2) (s : State), s.islandsRun = true ∧ s.hasEngine e = true) ∧
    (∃ (e : Fin 2) (s : State), s.islandsRun = true ∧ s.hasEngine e = true) :=
  ⟨⟨0, w0, by decide +kernel⟩,
    ⟨0, { { w0 with banksA := { shdValid := true, bank1 := some wImg } } with banksB := { shdValid := true, bank1 := some wImg } }, by decide +kernel⟩,
    ⟨0, ({ { w0 with banksA := { shdValid := true, bank1 := some wImg } } with banksB := { shdValid := true, bank1 := some wImg } }).forAll 4 (fun n s => s.onStn n (fun z => { z with st := .running })), by decide +kernel⟩,
    ⟨0, w0, by decide +kernel⟩,
    ⟨0, w0, by decide +kernel⟩⟩

theorem test_InputList_met :
    (∃ (s : State) (i : Fin 256) (w : Word), s.islandsRun = true ∧ s.stnIdle (i / 64) = true ∧ putBits w 11 2 0 ≠ s.reg (TRS_IN_CFG i) ∧ 8 ≤ bits w 21 11 ∧ bits w 21 11 ≤ 1024 ∧ bits w 13 3 ≠ 7) ∧
    (∃ (s : State) (i : Fin 256) (w : Word), s.islandsRun = true ∧ s.stnIdle (i / 64) = true ∧ putBits w 11 2 0 ≠ s.reg (TRS_IN_CFG i) ∧ (bits w 21 11 < 8 ∨ 1024 < bits w 21 11 ∨ bits w 13 3 = 7)) ∧
    (∃ (s : State) (i : Fin 256) (w : Word), s.islandsRun = true ∧ s.stnIdle (i / 64) = false ∧ putBits w 11 2 0 ≠ s.reg (TRS_IN_CFG i)) ∧
    (∃ (s : State) (i : Fin 256) (w : Word), s.islandsRun = true ∧ putBits w 11 2 0 = s.reg (TRS_IN_CFG i)) :=
  ⟨⟨w0, 0, 0x1000400, by decide +kernel⟩,
    ⟨w0, 0, 0, by decide +kernel⟩,
    ⟨w0.onStn 0 (fun z => { z with st := .running }), 0, 0x1000400, by decide +kernel⟩,
    ⟨w0.setReg (TRS_IN_CFG 0) 0x1000400, 0, 0x1000400, by decide +kernel⟩⟩

theorem test_InputLoss_met :
    (∃ (n : Fin 4) (k : Fin 64) (s : State) (cls : Nat) (flag : Nat → Fld), s.islandsRun = true ∧ s.flag (TRS_IN_CFG_NOISY (slotNo n k)) = true ∧ s.flag (TRS_IN_CFG_EN (slotNo n k)) = true ∧ s.fld (TRS_IN_CFG_N_FREEZE (slotNo n k)) ≤ (s.inpOf n k).same ∧ (s.inpOf n k).lost = false ∧ s.fld (TRS_IN_CFG_CLASS (slotNo n k)) = cls ∧ ((cls = 1 ∧ flag = TRS_FLAGS_FB_LOST_CURRENT) ∨ (cls = 2 ∧ flag = TRS_FLAGS_FB_LOST_VOLTAGE) ∨ (cls = 3 ∧ flag = TRS_FLAGS_FB_LOST_POSITION) ∨ ((cls = 0 ∨ 3 < cls) ∧ flag = TRS_FLAGS_FB_LOST_OTHER))) ∧
    (∃ (n : Fin 4) (s : State), (s.stnOf n).highHere = false) ∧
    (∃ (n : Fin 4) (s : State), (s.stnOf n).highHere = true) ∧
    (∃ (n : Fin 4) (s : State), (s.stnOf n).st = .running ∧ (s.stnOf n).turn = none ∧ s.stnType n = 0 ∧ s.par n parT_OLV ≠ 0) ∧
    (∃ (n : Fin 4) (s : State), (s.stnOf n).highHere = true ∧ s.stnType n ≠ 0) ∧
    (∃ (n : Fin 4) (s : State), (s.stnOf n).highHere = true ∧ s.stnType n = 1) ∧
    (∃ (n : Fin 4) (k : Fin 64) (s : State) (t : State), s.islandsRun = true ∧ (s.inpOf n k).lost = true ∧ 64 ≤ (s.inpOf n k).good ∧ (s.inpOf n k).changed = true ∧ s.sourceStale n k = false ∧ t = (s.clearLoss n k).flagEngines TRS_FLAGS_FB_RESTORED ∧ ((s.stnOf n).st ≠ .openLoopV ∨ t.voltageLost n = true)) ∧
    (∃ (n : Fin 4) (k : Fin 64) (s : State) (t : State), s.islandsRun = true ∧ (s.inpOf n k).lost = true ∧ 64 ≤ (s.inpOf n k).good ∧ (s.inpOf n k).changed = true ∧ s.sourceStale n k = false ∧ t = (s.clearLoss n k).flagEngines TRS_FLAGS_FB_RESTORED ∧ (s.stnOf n).st = .openLoopV ∧ t.voltageLost n = false) :=
  ⟨⟨0, 0, (((w0.setFld (TRS_IN_CFG_NOISY (slotNo 0 0)) 1).setFld (TRS_IN_CFG_EN (slotNo 0 0)) 1).setFld (TRS_IN_CFG_CLASS (slotNo 0 0)) 0).onInp 0 0 (fun z => { z with same := 2048 }), 0, TRS_FLAGS_FB_LOST_OTHER, by refine ⟨?_, ?_, ?_, ?_, ?_, ?_, .inr (.inr (.inr ⟨.inl rfl, rfl⟩))⟩ <;> decide +kernel⟩,
    ⟨0, w0, by decide +kernel⟩,
    ⟨0, w0.onStn 0 (fun z => { z with st := .running }), by decide +kernel⟩,
    ⟨0, w0.onStn 0 (fun z => { z with st := .running }), by decide +kernel⟩,
    ⟨0, (w0.onStn 0 (fun z => { z with st := .running })).setFld (GFM_CTRL_TYPE 0) 1, by decide +kernel⟩,
    ⟨0, (w0.onStn 0 (fun z => { z with st := .running })).setFld (GFM_CTRL_TYPE 0) 1, by decide +kernel⟩,
    ⟨0, 0, (w0.onInp 0 0 (fun z => { z with lost := true, changed := true, good := 64 })), ((State.clearLoss (w0.onInp 0 0 (fun z => { z with lost := true, changed := true, good := 64 })) 0 0).flagEngines TRS_FLAGS_FB_RESTORED), by refine ⟨?_, ?_, ?_, ?_, ?_, rfl, ?_⟩ <;> decide +kernel⟩,
    ⟨0, 0, ((w0.onInp 0 0 (fun z => { z with lost := true, changed := true, good := 64 })).onStn 0 (fun z => { z with st := .openLoopV })), ((State.clearLoss ((w0.onInp 0 0 (fun z => { z with lost := true, changed := true, good := 64 })).onStn 0 (fun z => { z with st := .openLoopV })) 0 0).flagEngines TRS_FLAGS_FB_RESTORED), by refine ⟨?_, ?_, ?_, ?_, ?_, rfl, ?_, ?_⟩ <;> decide +kernel⟩⟩

theorem test_InputWords_met :
    (∃ (n : Fin 4) (i : Fin 64) (s : State), (s.inpOf n i).lost = false ∧ s.grantB = true) ∧
    (∃ (n : Fin 4) (i : Fin 64) (s : State), (s.inpOf n i).lost = false) ∧
    (∃ (n : Fin 4) (i : Fin 64) (s : State), (s.inpOf n i).lost = true) :=
  ⟨⟨0, 0, w0, by decide +kernel⟩,
    ⟨0, 0, w0, by decide +kernel⟩,
    ⟨0, 0, w0.onInp 0 0 (fun z => { z with lost := true }), by decide +kernel⟩⟩

theorem test_EngineHealth_met :
    (∃ (s : State), s.islandsRun = true ∧ s.grantB = true ∧ s.red.stA = 1 ∧ s.red.stB = 2 ∧ s.red.failing = false ∧ s.red.missA = false ∧ s.red.missB = false ∧ s.red.deadA = false ∧ s.red.deadB = false) ∧
    (∃ (s : State), s.islandsRun = true ∧ s.grantB = true ∧ s.red.stA = 1 ∧ s.red.stB = 2 ∧ s.red.active = 0 ∧ s.red.failing = false ∧ s.red.missA = true ∧ s.red.missB = false ∧ s.red.deadB = false) ∧
    (∃ (s : State) (cause : Fin 4), s.islandsRun = true ∧ s.grantB = true ∧ cause.val ≠ 0 ∧ s.red.stB = 2 ∧ s.red.active = 0) ∧
    (∃ (s : State) (n : Fin 4), s.islandsRun = true ∧ s.grantB = true ∧ (s.pwmOf n).run = true ∧ (s.stnOf n).per.classed = false ∧ s.privDelivered n = true) ∧
    (∃ (s : State) (n : Fin 4) (k : Fin 64) (a : Word) (b : Word) (upsetA : Word) (upsetB : Word), s.islandsRun = true ∧ s.grantB = true ∧ s.standbyRuns = true ∧ s.activeUp = true ∧ (s.stnOf n).per.overran = false ∧ (s.stnOf n).per.silent = false ∧ (s.stnOf n).per.copyDone = false ∧ (s.stnOf n).per.outs.find? (fun e => e.1 == k.val) = some (k.val, a, b) ∧ a ^^^ upsetA = b ^^^ upsetB) ∧
    (∃ (s : State), s.islandsRun = true ∧ s.grantB = true) :=
  ⟨⟨{ { { { { { { w0 with red.stA := 1 } with red.stB := 2 } with red.failing := false } with red.missA := false } with red.missB := false } with red.deadA := false } with red.deadB := false }, by decide +kernel⟩,
    ⟨{ { { { { { { w0 with red.stA := 1 } with red.stB := 2 } with red.active := 0 } with red.failing := false } with red.missA := true } with red.missB := false } with red.deadB := false }, by decide +kernel⟩,
    ⟨{ { w0 with red.stB := 2 } with red.active := 0 }, 1, by decide +kernel⟩,
    ⟨w0.onPwm 0 (fun z => { z with run := true }), 0, by decide +kernel⟩,
    ⟨((wPairEng 3)).onStn 0 (fun z => { z with per.outs := [(0, 0, 0)] }), 0, 0, 0, 0, 0, 0, by decide +kernel⟩,
    ⟨w0, by decide +kernel⟩⟩

theorem test_StateCopies_met :
    (∃ (n : Fin 4) (s : State), s.islandsRun = true ∧ s.standbyRuns = true ∧ s.red.failing = false ∧ (s.stnOf n).per.copyDue = true ∧ (s.stnOf n).per.copyDone = false ∧ s.activeUp = true ∧ (s.stnOf n).per.settled = true ∧ s.privDiffers n = false) ∧
    (∃ (n : Fin 4) (s : State) (upset : Bool), s.islandsRun = true ∧ s.standbyRuns = true ∧ s.red.failing = false ∧ (s.stnOf n).per.copyDue = true ∧ (s.stnOf n).per.copyDone = false ∧ s.activeUp = true ∧ (s.stnOf n).per.differs = false ∧ (s.stnOf n).per.overran = false ∧ (s.stnOf n).per.silent = false ∧ s.fld (RED_STN_DIS_CONSEC n) = 0 ∧ (upset = true ∨ s.privDiffers n = true)) ∧
    (∃ (n : Fin 4) (s : State), s.islandsRun = true ∧ s.standbyRuns = true ∧ s.red.failing = false ∧ (s.stnOf n).per.copyDue = true ∧ (s.stnOf n).per.copyDone = false) :=
  ⟨⟨0, ({ w0 with red.failing := false }).onStn 0 (fun z => { z with per.copyDue := true, per.settled := true }), by decide +kernel⟩,
    ⟨0, ((wPairEng 3)).onStn 0 (fun z => { z with per.copyDue := true }), true, by decide +kernel⟩,
    ⟨0, ({ w0 with red.failing := false }).onStn 0 (fun z => { z with per.copyDue := true }), by decide +kernel⟩⟩

theorem test_FailOver_met : ∃ (s : State), s.islandsRun = true ∧ s.standbyRuns = true ∧ s.red.failing = true ∧ s.red.active = 0 ∧ (∀ n, n < 4 → s.enabled n = true → s.synced n = true) :=
  ⟨{ { w0 with red.failing := true } with red.active := 0 }, by decide +kernel⟩

theorem test_TimebaseCommands_met :
    (∃ (n : Fin 4) (s : State), s.islandsRun = true ∧ s.grantS n = true ∧ (s.pwmOf n).run = true ∧ s.fld (PWM_TB_CFG_UPD_MODE n) = 0) ∧
    (∃ (n : Fin 4) (s : State), s.islandsRun = true ∧ s.grantS n = true ∧ (s.pwmOf n).run = true ∧ s.flag (PWM_TB_CTRL_TB_HOLD n) = false ∧ s.stnIdle n = true) ∧
    (∃ (n : Fin 4) (s : State), s.islandsRun = true ∧ s.grantS n = true ∧ (s.pwmOf n).run = true ∧ s.flag (PWM_TB_CTRL_TB_HOLD n) = true ∧ s.stnIdle n = true) ∧
    (∃ (n : Fin 4) (s : State), s.islandsRun = true ∧ s.grantS n = true ∧ (s.pwmOf n).run = true ∧ s.flag (PWM_TB_CTRL_TB_HOLD n) = false ∧ s.stnIdle n = false) :=
  ⟨⟨0, w0.onPwm 0 (fun z => { z with run := true }), by decide +kernel⟩,
    ⟨0, w0.onPwm 0 (fun z => { z with run := true }), by decide +kernel⟩,
    ⟨0, (w0.onPwm 0 (fun z => { z with run := true })).setFld (PWM_TB_CTRL_TB_HOLD 0) 1, by decide +kernel⟩,
    ⟨0, (w0.onPwm 0 (fun z => { z with run := true })).onStn 0 (fun z => { z with st := .running }), by decide +kernel⟩⟩

theorem test_Commutation_met :
    (∃ (n : Fin 4) (cap : Fin 16) (s : State), s.islandsRun = true ∧ s.grantS n = true ∧ s.maskInput n cap = true ∧ s.fld (PWM_TB_CFG_OVR_MODE n) = 1 ∧ s.flag (PWM_MASK_SRC_SRC_EN n) = true ∧ (s.pwmOf n).lastEvt = none) ∧
    (∃ (n : Fin 4) (cap : Fin 16) (s : State) (t : _), s.islandsRun = true ∧ s.grantS n = true ∧ s.maskInput n cap = true ∧ s.fld (PWM_TB_CFG_OVR_MODE n) = 1 ∧ s.flag (PWM_MASK_SRC_SRC_EN n) = true ∧ (s.pwmOf n).lastEvt = some t ∧ s.now - t < s.fld (PWM_MASK_SRC_FILT n)) ∧
    (∃ (n : Fin 4) (cap : Fin 16) (s : State) (i : _), s.islandsRun = true ∧ s.grantS n = true ∧ s.maskInput n cap = true ∧ s.fld (PWM_TB_CFG_OVR_MODE n) = 1 ∧ s.flag (PWM_MASK_SRC_SRC_EN n) = true ∧ (s.pwmOf n).heldIdx = some i) :=
  ⟨⟨0, 0, (w0.setFld (PWM_TB_CFG_OVR_MODE 0) 1).setFld (PWM_MASK_SRC_SRC_EN 0) 1, by decide +kernel⟩,
    ⟨0, 0, (((w0.setFld (PWM_TB_CFG_OVR_MODE 0) 1).setFld (PWM_MASK_SRC_SRC_EN 0) 1).onPwm 0 (fun z => { z with lastEvt := some 0 })).setFld (PWM_MASK_SRC_FILT 0) 1, 0, by decide +kernel⟩,
    ⟨0, 0, ((w0.setFld (PWM_TB_CFG_OVR_MODE 0) 1).setFld (PWM_MASK_SRC_SRC_EN 0) 1).onPwm 0 (fun z => { z with heldIdx := some 0 }), 0, by decide +kernel⟩⟩

theorem test_PulsePath_met :
    (∃ (n : Fin 4) (k : Fin 12) (s : State), s.islandsRun = true ∧ (s.hbOf n k).force = none ∧ s.pulseLevel n k ≠ (s.hbOf n k).raw) ∧
    (∃ (n : Fin 4) (k : Fin 12) (s : State) (t0 : _) (lv : _), s.islandsRun = true ∧ (s.hbOf n k).pend = [(t0, lv)] ∧ (s.hbOf n k).eff = true) ∧
    (∃ (n : Fin 4) (k : Fin 12) (s : State) (t0 : Nat) (t1 : Nat) (lv : _) (lv1 : Bool) (more : List (Nat × Bool)), s.islandsRun = true ∧ (s.hbOf n k).pend = (t0, lv) :: (t1, lv1) :: more ∧ t1 - t0 < s.wMin n ∧ lv = true) ∧
    (∃ (n : Fin 4) (k : Fin 12) (s : State) (side : _), s.islandsRun = true ∧ (s.hbOf n k).deadTo = some side ∧ (s.hbOf n k).eff = true) :=
  ⟨⟨0, 0, (w0.setFld (PWM_TB_CFG_OVR_MODE 0) 2).setAct (PWM_OVR 0) 0x10000, by decide +kernel⟩,
    ⟨0, 0, w0.onHb 0 0 (fun z => { z with pend := [(0, 0)], eff := true }), 0, 0, by decide +kernel⟩,
    ⟨0, 0, (w0.onHb 0 0 (fun z => { z with pend := (0, true) :: (0, false) :: ([]) })).setFld (GATE_OTP_MINP 0) 1, 0, 0, true, false, [], by decide +kernel⟩,
    ⟨0, 0, w0.onHb 0 0 (fun z => { z with deadTo := some 0, eff := true }), 0, by decide +kernel⟩⟩

theorem test_BothOnRefused_met : ∃ (n : Fin 4) (w : Word) (s : State), s.islandsRun = true ∧ s.grantS n = true ∧ bit w 4 = true ∧ bit w 5 = true :=
  ⟨0, 0x30, w0, by decide +kernel⟩

theorem test_GateFaults_met :
    (∃ (n : Fin 4) (k : Fin 12) (s : State), s.islandsRun = true ∧ (s.hbOf n k).eff = true ∧ (s.hbOf n k).gf = false ∧ (s.hbOf n k).blank = false) ∧
    (∃ (n : Fin 4) (k : Fin 12) (s : State), s.islandsRun = true ∧ (s.hbOf n k).eff = true ∧ (s.hbOf n k).gf = false ∧ (s.hbOf n k).blank = true) ∧
    (∃ (n : Fin 4) (k : Fin 12) (s : State), s.islandsRun = true ∧ (s.hbOf n k).eff = true ∧ (s.hbOf n k).gf = true ∧ (s.hbOf n k).blank = true ∧ (s.hbOf n k).gfIn = true) ∧
    (∃ (n : Fin 4) (k : Fin 12) (s : State), s.islandsRun = true ∧ (s.hbOf n k).eff = true ∧ (s.hbOf n k).gf = true ∧ (s.hbOf n k).blank = true) ∧
    (∃ (n : Fin 4) (k : Fin 12) (s : State), s.islandsRun = true ∧ (s.hbOf n k).eff = true ∧ (s.hbOf n k).gf = false) ∧
    (∃ (n : Fin 4) (k : Fin 12) (s : State) (c : Fin 6) (code : BitVec 12), s.islandsRun = true ∧ (s.hbOf n k).eff = true ∧ s.grantS n = true ∧ s.flag (GATE_WCMP_CFG_EN n c) = true ∧ s.fld (GATE_WCMP_TRIP_LO n c) < s.fld (GATE_WCMP_TRIP_HI n c) ∧ s.fld (GATE_WCMP_TRIP_HI n c) < code.toNat ∧ s.fld (GATE_WCMP_CFG_HB n c) = k) :=
  ⟨⟨0, 0, w0.onHb 0 0 (fun z => { z with eff := true }), by decide +kernel⟩,
    ⟨0, 0, w0.onHb 0 0 (fun z => { z with eff := true, blank := true }), by decide +kernel⟩,
    ⟨0, 0, w0.onHb 0 0 (fun z => { z with eff := true, gf := true, blank := true, gfIn := true }), by decide +kernel⟩,
    ⟨0, 0, w0.onHb 0 0 (fun z => { z with eff := true, gf := true, blank := true }), by decide +kernel⟩,
    ⟨0, 0, w0.onHb 0 0 (fun z => { z with eff := true }), by decide +kernel⟩,
    ⟨0, 0, (((w0.onHb 0 0 (fun z => { z with eff := true })).setFld (GATE_WCMP_CFG_EN 0 0) 1).setFld (GATE_WCMP_CFG_HB 0 0) 0).setFld (GATE_WCMP_TRIP_HI 0 0) 1, 0, 2, by decide +kernel⟩⟩

theorem test_GateEnables_met :
    (∃ (n : Fin 4) (s : State) (t : _), s.islandsRun = true ∧ s.grantS n = true ∧ (s.pwmOf n).firstLatch = some t) ∧
    (∃ (n : Fin 4) (s : State), s.islandsRun = true ∧ s.grantS n = true ∧ s.pendSet = []) ∧
    (∃ (n : Fin 4) (s : State), s.islandsRun = true ∧ s.grantS n = true) ∧
    (∃ (n : Fin 4) (s : State) (w : _), s.islandsRun = true ∧ s.grantS n = true ∧ (s.stnOf n).st = .ready ∧ s.flag (GFM_CTRL_RUN_REQ n) = false ∧ bits w 0 4 < 12 ∧ s.fldBit (PWM_HB_EN_EN n) (bits w 0 4) = true ∧ s.fldBit (GATE_LATCH_LATCHED n) (bits w 0 4) = false ∧ s.permit n = true ∧ 1 ≤ bits w 16 16 ∧ bit w 4 = true ∧ bit w 5 = false) ∧
    (∃ (n : Fin 4) (s : State) (k : Fin 12) (d : _), s.islandsRun = true ∧ s.grantS n = true ∧ (s.hbOf n k).test = some d) :=
  ⟨⟨0, w0.onPwm 0 (fun z => { z with firstLatch := some 0 }), 0, by decide +kernel⟩,
    ⟨0, w0, by decide +kernel⟩,
    ⟨0, w0, by decide +kernel⟩,
    ⟨0, ((w0.onStn 0 (fun z => { z with st := .ready })).setFldBit (PWM_HB_EN_EN 0) 0 true).onSafe 0 (fun z => { z with held := false }), 0x10010, by decide +kernel⟩,
    ⟨0, w0.onHb 0 0 (fun z => { z with test := some 0 }), 0, 0, by decide +kernel⟩⟩

theorem test_FirstLatch_met :
    (∃ (n : Fin 4) (k : Fin 12) (s : State), s.pendSet = [] ∧ s.fldBit (GATE_LATCH_LATCHED n) k = false ∧ (s.pwmOf n).latchSeen = false ∧ (s.stnOf n).st ≠ .disabled ∧ (s.stnOf n).tripHere = false ∧ (s.pwmOf n).run = true) ∧
    (∃ (n : Fin 4) (k : Fin 12) (s : State), s.pendSet = [] ∧ s.fldBit (GATE_LATCH_LATCHED n) k = false ∧ (s.pwmOf n).latchSeen = false) :=
  ⟨⟨0, 0, (w0.onPwm 0 (fun z => { z with run := true })).onStn 0 (fun z => { z with st := .running }), by decide +kernel⟩,
    ⟨0, 0, w0, by decide +kernel⟩⟩

theorem test_SequenceResults_met :
    (∃ (k : Fin 16) (s : State), s.islandsRun = true ∧ (s.convOf k).seqRun = true ∧ (s.convOf k).idx + 1 < (s.convOf k).len) ∧
    (∃ (k : Fin 16) (s : State), s.islandsRun = true ∧ (s.convOf k).seqRun = true ∧ (s.convOf k).idx + 1 = (s.convOf k).len ∧ (s.convOf k).plen = 0 ∧ (s.convOf k).pls = false ∧ s.calState = 0) :=
  ⟨⟨0, (w0.onConv 0 (fun z => { z with seqRun := true })).onConv 0 (fun z => { z with len := 2 }), by decide +kernel⟩,
    ⟨0, ((w0.onConv 0 (fun z => { z with seqRun := true, plen := 0 })).setFld ADC_CAL_CTRL_STATE 0).onConv 0 (fun z => { z with len := 1 }), by decide +kernel⟩⟩

theorem test_SequenceGo_met :
    (∃ (k : Nat) (s : State), s.flag (ADC_CFG_EN k) = true ∧ s.covered k = false ∧ (s.convOf k).seqRun = false ∧ (s.convOf k).urgent = false) ∧
    (∃ (k : Nat) (s : State), s.flag (ADC_CFG_EN k) = true ∧ s.covered k = false ∧ (s.convOf k).seqRun = true ∧ (s.convOf k).goAt = some (s.now * 2 / 5)) ∧
    (∃ (k : Nat) (s : State), s.flag (ADC_CFG_EN k) = true ∧ s.covered k = false ∧ (s.convOf k).seqRun = true ∧ (s.convOf k).goAt ≠ some (s.now * 2 / 5)) ∧
    (∃ (k : Nat) (s : State), s.flag (ADC_CFG_EN k) = true ∧ s.covered k = false ∧ (s.convOf k).seqRun = false ∧ (s.convOf k).urgent = true) ∧
    (∃ (k : Nat) (s : State), s.flag (ADC_CFG_EN k) = true ∧ s.covered k = false ∧ s.islandsRun = true) :=
  ⟨⟨0, w0.setFld (ADC_CFG_EN 0) 1, by decide +kernel⟩,
    ⟨0, (w0.setFld (ADC_CFG_EN 0) 1).onConv 0 (fun z => { z with seqRun := true, goAt := some 0 }), by decide +kernel⟩,
    ⟨0, (w0.setFld (ADC_CFG_EN 0) 1).onConv 0 (fun z => { z with seqRun := true }), by decide +kernel⟩,
    ⟨0, (w0.setFld (ADC_CFG_EN 0) 1).onConv 0 (fun z => { z with urgent := true }), by decide +kernel⟩,
    ⟨0, w0.setFld (ADC_CFG_EN 0) 1, by decide +kernel⟩⟩

theorem test_UrgentConversions_met :
    (∃ (k : Fin 16) (s : State) (w : _), s.islandsRun = true ∧ entryOk w = true ∧ s.flag (ADC_CFG_EN k) = true ∧ s.covered k = false ∧ (s.convOf k).seqRun = false ∧ (s.convOf k).urgent = false) ∧
    (∃ (k : Fin 16) (s : State) (w : _), s.islandsRun = true ∧ entryOk w = true ∧ (s.convOf k).seqRun = true) ∧
    (∃ (s : State) (w : _), s.islandsRun = true ∧ entryOk w = false) ∧
    (∃ (k : Fin 16) (s : State), s.islandsRun = true ∧ (s.convOf k).urgent = true) :=
  ⟨⟨0, w0.setFld (ADC_CFG_EN 0) 1, 0x10800, by decide +kernel⟩,
    ⟨0, w0.onConv 0 (fun z => { z with seqRun := true }), 0x10800, by decide +kernel⟩,
    ⟨w0, 15, by decide +kernel⟩,
    ⟨0, w0.onConv 0 (fun z => { z with urgent := true }), by decide +kernel⟩⟩

theorem test_Correction_met :
    (∃ (raw : Int), (raw = -32768 ∨ raw = 32767)) ∧
    (∃ (raw : Int), -32768 < raw ∧ raw < 32767) :=
  ⟨⟨32767, by decide +kernel⟩,
    ⟨0, by decide +kernel⟩⟩

theorem test_SigmaDeltaValue_met : ∃ r n acc : Nat, 0 < r ∧ acc ≤ r ^ n :=
  ⟨1, 0, 0, by decide, by decide⟩

theorem test_Calibration_met :
    (∃ (s : State) (k : Fin 16), s.islandsRun = true ∧ (s.setFld ADC_CAL_CTRL_TARGET k).calRefusal k = 0) ∧
    (∃ (s : State) (k : Fin 16) (r : _), s.islandsRun = true ∧ (s.setFld ADC_CAL_CTRL_TARGET k).calRefusal k = r ∧ r ≠ 0) ∧
    (∃ (s : State) (p : Fin 8), s.islandsRun = true ∧ s.calState = 1 ∧ s.cal.target / 2 = p ∧ (s.convOf (2 * p)).seqRun = false ∧ (s.convOf (2 * p + 1)).seqRun = false) ∧
    (∃ (s : State), s.islandsRun = true ∧ s.calState = 2) ∧
    (∃ (s : State), s.islandsRun = true ∧ s.calState = 3) ∧
    (∃ (s : State), s.islandsRun = true ∧ s.calState = 5) ∧
    (∃ (s : State), s.islandsRun = true ∧ s.calState ≠ 5) :=
  ⟨⟨((w0.setFld (ADC_CFG_EN 0) 1).setFld (ADC_CFG_EN 1) 1).setFld (ADC_PLS_CFG_EN 0) 1, 0, by decide +kernel⟩,
    ⟨w0, 0, 1, by decide +kernel⟩,
    ⟨w0.setFld ADC_CAL_CTRL_STATE 1, 0, by decide +kernel⟩,
    ⟨w0.setFld ADC_CAL_CTRL_STATE 2, by decide +kernel⟩,
    ⟨w0.setFld ADC_CAL_CTRL_STATE 3, by decide +kernel⟩,
    ⟨w0.setFld ADC_CAL_CTRL_STATE 5, by decide +kernel⟩,
    ⟨w0, by decide +kernel⟩⟩

theorem test_PairFailure_met :
    (∃ (p : Fin 8) (s : State), s.islandsRun = true ∧ s.flag (ADC_PLS_CFG_EN p) = true ∧ s.flag (ADC_PLS_STAT_SUSPENDED p) = false ∧ s.fld (ADC_PLS_STAT_CONSEC p) + 1 < s.fld ADC_PLS_OTP0_PLS_LIMIT) ∧
    (∃ (p : Fin 8) (s : State), s.islandsRun = true ∧ s.flag (ADC_PLS_CFG_EN p) = true ∧ s.flag (ADC_PLS_STAT_SUSPENDED p) = false ∧ s.fld ADC_PLS_OTP0_PLS_LIMIT ≠ 0 ∧ s.fld ADC_PLS_OTP0_PLS_LIMIT ≤ min 255 (s.fld (ADC_PLS_STAT_CONSEC p) + 1) ∧ s.flag (ADC_PLS_STAT_FAILED p) = false) :=
  ⟨⟨0, (w0.setFld (ADC_PLS_CFG_EN 0) 1).setFld ADC_PLS_OTP0_PLS_LIMIT 2, by decide +kernel⟩,
    ⟨0, (w0.setFld (ADC_PLS_CFG_EN 0) 1).setFld ADC_PLS_OTP0_PLS_LIMIT 1, by decide +kernel⟩⟩

theorem test_SigmaDelta_met :
    (∃ (c : Fin 48) (s : State), s.islandsRun = true ∧ s.flag (SDM_CFG_EN c) = true ∧ (s.sdmOf c).started = true ∧ s.flag (SDM_CLK_EN (s.fld (SDM_CFG_CLK c))) = true) ∧
    (∃ (c : Fin 48) (s : State), s.islandsRun = true ∧ s.flag (SDM_CFG_EN c) = true ∧ (s.sdmOf c).waiting = true) ∧
    (∃ (c : Fin 48) (s : State) (bits : List Bool), s.islandsRun = true ∧ s.flag (SDM_CFG_EN c) = true ∧ s.flag (SDM_SF_CFG_EN c) = true ∧ signedOf 16 (s.fld (SDM_SF_LIM_LO c)) < signedOf 16 (s.fld (SDM_SF_LIM_HI c)) ∧ (signedOf 16 (s.fld (SDM_SF_LIM_HI c)) : Rat) < shortOut (s.fld (SDM_SF_CFG_SR c)) bits) ∧
    (∃ (c : Fin 48) (s : State), s.islandsRun = true ∧ s.flag (SDM_CFG_EN c) = true) :=
  ⟨⟨0, ((w0.setFld (SDM_CFG_EN 0) 1).onSdm 0 (fun z => { z with started := true })).setFld (SDM_CLK_EN 0) 1, by decide +kernel⟩,
    ⟨0, (w0.setFld (SDM_CFG_EN 0) 1).onSdm 0 (fun z => { z with waiting := true }), by decide +kernel⟩,
    ⟨0, ((w0.setFld (SDM_CFG_EN 0) 1).setFld (SDM_SF_CFG_EN 0) 1).setFld (SDM_SF_LIM_HI 0) 1, List.replicate 16 true, by decide +kernel⟩,
    ⟨0, w0.setFld (SDM_CFG_EN 0) 1, by decide +kernel⟩⟩

theorem test_ChestCommands_met :
    (∃ (s : State), s.dataRuns = true ∧ s.grantChest = true ∧ (s.chestState = 0 ∨ s.chestState = 4) ∧ s.armRefusal = 0) ∧
    (∃ (s : State) (r : _), s.dataRuns = true ∧ s.grantChest = true ∧ (s.chestState = 0 ∨ s.chestState = 4) ∧ s.armRefusal = r ∧ r ≠ 0) ∧
    (∃ (s : State), s.dataRuns = true ∧ s.grantChest = true ∧ (s.chestState = 1 ∨ s.chestState = 2 ∨ s.chestState = 3)) ∧
    (∃ (s : State), s.dataRuns = true ∧ s.grantChest = true ∧ s.chestState ≠ 2) ∧
    (∃ (s : State), s.dataRuns = true ∧ s.grantChest = true ∧ s.chestState = 2) ∧
    (∃ (s : State), s.dataRuns = true ∧ s.grantChest = true ∧ s.chestState = 1 ∧ s.flag CHS_CFG_PRE_WAIT = false ∧ s.chest.trigAt ≠ some s.now) ∧
    (∃ (s : State), s.dataRuns = true ∧ s.grantChest = true ∧ s.chestState = 2 ∧ s.chest.trigAt ≠ some s.now) ∧
    (∃ (s : State), s.dataRuns = true ∧ s.grantChest = true ∧ s.chest.trigAt = some s.now ∧ s.chest.trigTaken = true ∧ s.chest.trigSrc ≤ 255) ∧
    (∃ (s : State), s.dataRuns = true ∧ s.grantChest = true ∧ s.chestState = 2 ∧ s.fld CHS_CFG_POST_TMO ≠ 0) ∧
    (∃ (s : State), s.dataRuns = true ∧ s.grantChest = true ∧ s.chestState = 3 ∧ s.fld CHS_STATUS_SEG < s.fld CHS_SEGS_SEGS_M1) :=
  ⟨⟨wChest.setFld CHS_STATUS_STATE 0, by decide +kernel⟩,
    ⟨w0.setFld CHS_STATUS_STATE 0, 1, by decide +kernel⟩,
    ⟨w0.setFld CHS_STATUS_STATE 1, by decide +kernel⟩,
    ⟨w0, by decide +kernel⟩,
    ⟨w0.setFld CHS_STATUS_STATE 2, by decide +kernel⟩,
    ⟨w0.setFld CHS_STATUS_STATE 1, by decide +kernel⟩,
    ⟨w0.setFld CHS_STATUS_STATE 2, by decide +kernel⟩,
    ⟨{ { w0 with chest.trigTaken := true } with chest := { trigAt := some 0, trigTaken := true } }, by decide +kernel⟩,
    ⟨(w0.setFld CHS_STATUS_STATE 2).setFld CHS_CFG_POST_TMO 1, by decide +kernel⟩,
    ⟨(w0.setFld CHS_STATUS_STATE 3).setFld CHS_SEGS_SEGS_M1 1, by decide +kernel⟩⟩

theorem test_ChestTrigger_met : ∃ (s : State), s.preFull = false :=
  ⟨(w0.setFld (CHS_STR_CFG_EN 0) 1).setFld CHS_PRE_PRE 1, by decide +kernel⟩

theorem test_ChestSamples_met :
    (∃ (k : Fin 32) (s : State), s.dataRuns = true ∧ s.grantChest = true ∧ s.streamOn k = true ∧ s.chestState = 1 ∧ (s.streamOf k).inGap = false ∧ s.fld (CHS_STR_CFG_REDUCE k) = 0 ∧ s.bufferFull k = false ∧ (∀ t, t < 8 → s.actFld (CHS_TRG_EN t) = 0)) ∧
    (∃ (k : Fin 32) (s : State), s.dataRuns = true ∧ s.grantChest = true ∧ s.streamOn k = true ∧ s.chestState = 1 ∧ (s.streamOf k).inGap = false ∧ s.bufferFull k = true ∧ (∀ t, t < 8 → s.actFld (CHS_TRG_EN t) = 0)) ∧
    (∃ (k : Fin 32) (s : State) (b : Nat) (l : List (Nat × Word)) (a : Nat), s.dataRuns = true ∧ s.grantChest = true ∧ s.streamOn k = true ∧ l = (s.streamOf k).staged.take (16 * min b ((s.streamOf k).staged.length / 16)) ∧ (s.streamOf k).inGap = false ∧ (∀ p ∈ l, a < p.1 ∨ p.1 + 4 ≤ a) ∧ (l.Pairwise (fun p q => p.1 + 4 ≤ q.1 ∨ q.1 + 4 ≤ p.1))) ∧
    (∃ (k : Fin 32) (s : State) (b : _), s.dataRuns = true ∧ s.grantChest = true ∧ s.streamOn k = true ∧ (s.streamOf k).inGap = true ∧ ((s.drainBursts k b).streamOf k).staged.length + 64 ≤ 256) :=
  ⟨⟨0, (w0.setFld (CHS_STR_CFG_EN 0) 1).setFld CHS_STATUS_STATE 1, by decide +kernel⟩,
    ⟨0, ((w0.setFld (CHS_STR_CFG_EN 0) 1).setFld CHS_STATUS_STATE 1).onStream 0 (fun z => { z with staged := List.replicate 256 (0, 0) }), by decide +kernel⟩,
    ⟨0, (w0.setFld (CHS_STR_CFG_EN 0) 1).onStream 0 (fun z => { z with staged := (List.range 16).map (fun i => (0x82800000 + 4 * i, 1)) }), 1, (List.range 16).map (fun i => (0x82800000 + 4 * i, 1)), 0, by decide +kernel⟩,
    ⟨0, (w0.setFld (CHS_STR_CFG_EN 0) 1).onStream 0 (fun z => { z with inGap := true }), 0, by decide +kernel⟩⟩

theorem test_DmaCommands_met :
    (∃ (n : Fin 16) (s : State), s.dataRuns = true ∧ (s.chState n = 0 ∨ s.chState n = 3 ∨ s.chState n = 4)) ∧
    (∃ (n : Fin 16) (s : State), s.dataRuns = true ∧ s.chState n = 1) ∧
    (∃ (s : State), s.dataRuns = true ∧ s.outstanding = 0) ∧
    (∃ (s : State), s.dataRuns = true ∧ 0 < s.outstanding) :=
  ⟨⟨0, w0.setFld (CH_STATUS_STATE 0) 0, by decide +kernel⟩,
    ⟨0, w0.setFld (CH_STATUS_STATE 0) 1, by decide +kernel⟩,
    ⟨w0, by decide +kernel⟩,
    ⟨{ w0 with dma := { drain := 1 } }, by decide +kernel⟩⟩

theorem test_CheckValueUnits_met :
    (∃ (u : Fin 8) (s : State) (f : List Byte) (rest : List (List Byte)), s.dataRuns = true ∧ (s.cvuOf u).boundTo = none ∧ (s.cvuOf u).feeds = f :: rest) ∧
    (∃ (u : Fin 8) (w : Word) (s : State), s.dataRuns = true ∧ (s.cvuOf u).boundTo = none ∧ s.cvuIdle u = true ∧ (s.reg (CVU_POLY_LO u) ≠ s.cvuHeld u 0 ∨ s.reg (CVU_POLY_HI u) ≠ w)) ∧
    (∃ (u : Fin 8) (s : State), s.dataRuns = true ∧ (s.cvuOf u).boundTo = none) ∧
    (∃ (u : Fin 8) (s : State), s.dataRuns = true ∧ (s.cvuOf u).boundTo = none) :=
  ⟨⟨0, w0.onCvu 0 (fun z => { z with feeds := ([]) :: ([]) }), [], [], by decide +kernel⟩,
    ⟨0, 0, w0.setReg (CVU_POLY_LO 0) 1, by decide +kernel⟩,
    ⟨0, w0, by decide +kernel⟩,
    ⟨0, w0, by decide +kernel⟩⟩

theorem test_BoundUnitRefuses_met : ∃ (u : Fin 8) (m : Nat) (s : State), s.devRuns = true ∧ (s.cvuOf u).boundTo = some m :=
  ⟨0, 0, w0.onCvu 0 (fun z => { z with boundTo := some 0 }), by decide +kernel⟩

theorem test_DmaErrors_met :
    (∃ (n : Fin 16) (s : State) (r : _), s.dataRuns = true ∧ (s.chOf n).fetching = true ∧ (s.chOf n).bursts ≠ [] ∧ s.chState n = 1 ∧ s.descRefusal n (s.chOf n).addr = r ∧ r ≠ 0) ∧
    (∃ (s : State), s.dataRuns = true ∧ s.flag DMA_STATUS_HALTED = false) ∧
    (∃ (s : State), s.dataRuns = true ∧ s.flag DMA_STATUS_HALTED = true) :=
  ⟨⟨0, ((w0.onCh 0 (fun z => { z with fetching := true })).setFld (CH_STATUS_STATE 0) 1).onCh 0 (fun z => { z with bursts := [0], addr := 0x10000000 }), 2, by decide +kernel⟩,
    ⟨w0, by decide +kernel⟩,
    ⟨w0.setFld DMA_STATUS_HALTED 1, by decide +kernel⟩⟩

theorem test_DmaTransfers_met :
    (∃ (n : Fin 16) (d : Desc) (s : State) (rest : List Nat), s.dataRuns = true ∧ (s.chOf n).desc = some d ∧ (s.chOf n).bound = none ∧ d.noDst = false ∧ (s.chOf n).bursts = 1 :: rest ∧ (s.chOf n).returned + 1 < d.total) ∧
    (∃ (n : Fin 16) (d : Desc) (s : State), s.devRuns = true ∧ (s.chOf n).desc = some d ∧ (s.chOf n).bound = none ∧ d.noDst = false ∧ (s.chOf n).writesOut = 1 ∧ (s.chOf n).returned = d.total ∧ s.chState n = 1 ∧ d.cvuEn = false ∧ d.next = 0 ∧ d.irqDone = true) :=
  ⟨⟨0, wDesc, w0.onCh 0 (fun z => { z with desc := some wDesc, bursts := 1 :: ([]) }), [], by decide +kernel⟩,
    ⟨0, wDesc, (((w0.setFld (CH_STATUS_STATE 0) 1).onCh 0 (fun z => { z with returned := 2 })).setFld (CH_STATUS_STATE 0) 1).onCh 0 (fun z => { z with desc := some wDesc, writesOut := 1 }), by decide +kernel⟩⟩

theorem test_SafetyInputs_met :
    (∃ (x : Fin 8) (s : State) (t : _), (s.sinOf x).a = true ∧ (s.sinOf x).b = false ∧ (s.sinOf x).bothOpenSeen = true ∧ (s.sinOf x).closeBy = some t) ∧
    (∃ (x : Fin 8) (s : State), (s.sinOf x).a = false ∧ (s.sinOf x).demand = false ∧ s.fld (SAF_SIN_MAP_FUNC x) = 1) ∧
    (∃ (x : Fin 8) (s : State), (s.sinOf x).a = true ∧ (s.sinOf x).b = true ∧ (s.sinOf x).disc = false) ∧
    (∃ (x : Fin 8) (s : State), (s.sinOf x).a ≠ (s.sinOf x).b ∧ (s.sinOf x).disc = false ∧ s.fld (SAF_SIN_MAP_FUNC x) ≠ 0) :=
  ⟨⟨0, w0.onSin 0 (fun z => { z with a := true, bothOpenSeen := true, closeBy := some 0 }), 0, by decide +kernel⟩,
    ⟨0, w0.setFld (SAF_SIN_MAP_FUNC 0) 1, by decide +kernel⟩,
    ⟨0, w0.onSin 0 (fun z => { z with a := true, b := true }), by decide +kernel⟩,
    ⟨0, (w0.onSin 0 (fun z => { z with a := true })).setFld (SAF_SIN_MAP_FUNC 0) 1, by decide +kernel⟩⟩

theorem test_SafeOutputTests_met :
    (∃ (k : Fin 8) (s : State), s.safe.settleRuns = true ∧ (s.soutOf k).level = true ∧ (s.soutOf k).fault = false ∧ (s.soutOf k).testing = false ∧ s.releasingOn k = false ∧ s.testShared k = true) ∧
    (∃ (k : Fin 8) (s : State), s.safe.settleRuns = true ∧ (s.soutOf k).level = true ∧ (s.soutOf k).fault = false ∧ (s.soutOf k).testing = false ∧ s.releasingOn k = false ∧ s.testShared k = false) ∧
    (∃ (k : Fin 8) (s : State), s.safe.settleRuns = true ∧ (s.soutOf k).testing = true ∧ (∀ j, j < 8 → (s.soutOf j).deferred = false) ∧ (s.soutOf k).fault = false ∧ s.pendSet = []) ∧
    (∃ (k : Fin 8) (s : State), s.safe.settleRuns = true ∧ (s.soutOf k).testing = true ∧ (∀ j, j < 8 → (s.soutOf j).deferred = false)) ∧
    (∃ (k : Fin 8) (s : State), s.safe.settleRuns = true ∧ (s.soutOf k).testing = false) :=
  ⟨⟨0, (((({ w0 with safe.settleRuns := true }).onSout 0 (fun z => { z with level := true })).onSout 1 (fun z => { z with testing := true })).setFld (SAF_SOUT_MAP_STN 0) 1).setFld (SAF_SOUT_MAP_STN 1) 1, by decide +kernel⟩,
    ⟨0, ({ w0 with safe.settleRuns := true }).onSout 0 (fun z => { z with level := true }), by decide +kernel⟩,
    ⟨0, ({ w0 with safe.settleRuns := true }).onSout 0 (fun z => { z with testing := true }), by decide +kernel⟩,
    ⟨0, ({ w0 with safe.settleRuns := true }).onSout 0 (fun z => { z with testing := true }), by decide +kernel⟩,
    ⟨0, { w0 with safe.settleRuns := true }, by decide +kernel⟩⟩

theorem test_HeldRemoval_met : ∃ (n : Fin 4) (cause : Nat) (s : State), cause < 32 ∧ s.pendSet = [] ∧ (s.safeOf n).held = false ∧ s.soutMap 0 n = true :=
  ⟨0, 0, ((w0.onSafe 0 (fun z => { z with held := false })).onSafe 0 (fun z => { z with held := false })).setFld (SAF_SOUT_MAP_STN 0) 1, by decide +kernel⟩

theorem test_SettleEvents_met :
    (∃ (s : State), s.safe.settleRuns = true) ∧
    (∃ (s : State), s.safe.settleRuns = true ∧ 2 ≤ s.calState) ∧
    (∃ (s : State), s.safe.settleRuns = true) :=
  ⟨⟨{ w0 with safe.settleRuns := true }, by decide +kernel⟩,
    ⟨({ w0 with safe.settleRuns := true }).setFld ADC_CAL_CTRL_STATE 2, by decide +kernel⟩,
    ⟨{ w0 with safe.settleRuns := true }, by decide +kernel⟩⟩

theorem test_Release_met :
    (∃ (s : State) (mask : BitVec 4), s.safe.settleRuns = true ∧ s.releaseSet mask.toNat ≠ [] ∧ s.sourcePresent = false ∧ s.debugOpen = false ∧ (s.releaseSet mask.toNat).all (s.releaseOk (s.releaseSet mask.toNat)) = true) ∧
    (∃ (s : State) (mask : BitVec 4), s.safe.settleRuns = true ∧ s.releaseSet mask.toNat ≠ []) ∧
    (∃ (s : State) (n : Fin 4), s.safe.settleRuns = true ∧ (s.safeOf n).releasing = true ∧ n.val ∈ (s.safeOf n).party) :=
  ⟨⟨(({ wReady with safe.settleRuns := true }).onSafe 0 (fun z => { z with held := true })).setFld SEC_DBG_STATE 1, 1, by decide +kernel⟩,
    ⟨{ w0 with safe.settleRuns := true }, 1, by decide +kernel⟩,
    ⟨(({ w0 with safe.settleRuns := true }).onSafe 0 (fun z => { z with releasing := true })).onSafe 0 (fun z => { z with releasing := true, party := [0] }), 0, by decide +kernel⟩⟩

theorem test_Highboy_met :
    (∃ (s : State), s.safe.settleRuns = true) ∧
    (∃ (s : State) (n : Fin 4) (ws : List Word), ws.length = 32 ∧ ws.getD 31 0 = crc32c ((ws.take 31).flatMap leBytes) ∧ (s.safeOf n).lastSeq ≠ some (ws.getD 0 0)) ∧
    (∃ (s : State) (n : Fin 4) (ws : List Word), (s.safeOf n).lastSeq = some (ws.getD 0 0)) :=
  ⟨⟨{ w0 with safe.settleRuns := true }, by decide +kernel⟩,
    ⟨w0, 0, wRec, by decide +kernel, wRec_crc, by decide +kernel⟩,
    ⟨w0.onSafe 0 (fun z => { z with lastSeq := some (([]).getD 0 0) }), 0, [], by decide +kernel⟩⟩

theorem test_StationEnableInputs_met :
    (∃ (n : Fin 4) (s : State), s.islandsRun = true ∧ (s.pwmOf n).run = true ∧ s.sen.getLsbD n = true ∧ (s.stnOf n).idle = false) ∧
    (∃ (n : Fin 4) (s : State), s.islandsRun = true ∧ (s.pwmOf n).run = true) :=
  ⟨⟨0, { (w0.onStn 0 (fun z => { z with st := .running })).onPwm 0 (fun z => { z with run := true }) with sen := 15 }, by decide +kernel⟩,
    ⟨0, w0.onPwm 0 (fun z => { z with run := true }), by decide +kernel⟩⟩

theorem test_RingLinks_met :
    (∃ (q : Fin 64) (s : State), s.dataRuns = true ∧ s.portOn q = true) ∧
    (∃ (q : Fin 64) (e : Fin 2) (s : State) (w : _), s.dataRuns = true ∧ s.portOn q = true ∧ (s.endOf q e).sentLnk.contains w = false) ∧
    (∃ (q : Fin 64) (e : Fin 2) (s : State) (w : BitVec 16), s.dataRuns = true ∧ s.portOn q = true ∧ (s.endOf q e).sentLnk.contains w = true ∧ (s.endOf q e).echoRun = 7) ∧
    (∃ (q : Fin 64) (e : Fin 2) (s : State), s.dataRuns = true ∧ s.portOn q = true ∧ (s.endOf q e).silent = true) ∧
    (∃ (q : Fin 64) (e : Fin 2) (s : State), s.dataRuns = true ∧ s.portOn q = true ∧ (s.endOf q e).wrapped = true ∧ (s.endOf q e).locked = true ∧ (s.endOf q e).echo = false) ∧
    (∃ (q : Fin 64) (e : Fin 2) (s : State), s.dataRuns = true ∧ s.portOn q = true ∧ (s.endOf q e).short = true) ∧
    (∃ (q : Fin 64) (s : State), s.dataRuns = true ∧ s.portOn q = true) :=
  ⟨⟨0, (w0.setFld (pq AQR_STATE_STATE 0) 3).setFld (pq AQR_CFG_EN 0) 1, by decide +kernel⟩,
    ⟨0, 0, (w0.setFld (pq AQR_STATE_STATE 0) 3).setFld (pq AQR_CFG_EN 0) 1, 0, by decide +kernel⟩,
    ⟨0, 0, (((w0.setFld (pq AQR_STATE_STATE 0) 3).setFld (pq AQR_CFG_EN 0) 1).onEnd 0 0 (fun z => { z with echoRun := 7 })).onEnd 0 0 (fun z => { z with sentLnk := [1] }), 1, by decide +kernel⟩,
    ⟨0, 0, ((w0.setFld (pq AQR_STATE_STATE 0) 3).setFld (pq AQR_CFG_EN 0) 1).onEnd 0 0 (fun z => { z with silent := true }), by decide +kernel⟩,
    ⟨0, 0, ((w0.setFld (pq AQR_STATE_STATE 0) 3).setFld (pq AQR_CFG_EN 0) 1).onEnd 0 0 (fun z => { z with wrapped := true, locked := true }), by decide +kernel⟩,
    ⟨0, 0, ((w0.setFld (pq AQR_STATE_STATE 0) 3).setFld (pq AQR_CFG_EN 0) 1).onEnd 0 0 (fun z => { z with short := true }), by decide +kernel⟩,
    ⟨0, (w0.setFld (pq AQR_STATE_STATE 0) 3).setFld (pq AQR_CFG_EN 0) 1, by decide +kernel⟩⟩

theorem test_RingWrap_met :
    (∃ (q : Fin 64) (e : Fin 2) (s : State), (s.endOf q e).wrapped = false ∧ (s.endOf q (1 - e)).dead = false) ∧
    (∃ (q : Fin 64) (e : Fin 2) (s : State), (s.endOf q e).wrapped = false) ∧
    (∃ (q : Fin 64) (s : State) (k : Fin 2), (s.endOf q k).dead = true) :=
  ⟨⟨0, 0, w0, by decide +kernel⟩,
    ⟨0, 0, w0, by decide +kernel⟩,
    ⟨0, w0.onEnd 0 0 (fun z => { z with wrapped := true }), 0, by decide +kernel⟩⟩

theorem test_RingCells_met :
    (∃ (q : Fin 64) (e : Fin 2) (c : RingCell) (s : State), s.dataRuns = true ∧ s.portOn q = true ∧ (e = 0 ∨ s.flag (pq AQR_STATE_B_LOOP q) = false) ∧ c.abt = true) ∧
    (∃ (q : Fin 64) (e : Fin 2) (c : RingCell) (s : State), s.dataRuns = true ∧ s.portOn q = true ∧ (e = 0 ∨ s.flag (pq AQR_STATE_B_LOOP q) = false) ∧ c.abt = false ∧ cellGood c = false) ∧
    (∃ (q : Fin 64) (e : Fin 2) (c : RingCell) (s : State), s.dataRuns = true ∧ s.portOn q = true ∧ (e = 0 ∨ s.flag (pq AQR_STATE_B_LOOP q) = false) ∧ cellGood c = true ∧ cellTyp c = 0 ∧ (c.payload.getD 1 0).toNat % 64 = q) ∧
    (∃ (q : Fin 64) (c : RingCell) (s : State), s.dataRuns = true ∧ s.portOn q = true ∧ s.flag (pq AQR_STATE_B_LOOP q) = true ∧ cellGood c = true) ∧
    (∃ (q : Fin 64) (s : State) (x : PortEnd) (h : Nat), s.dataRuns = true ∧ s.portOn q = true ∧ x.retry.find? (fun r => r.1 = h) = none) ∧
    (∃ (q : Fin 64) (s : State) (x : PortEnd) (h : Nat) (now : Nat) (bad : Nat) (at0 : Nat), s.dataRuns = true ∧ s.portOn q = true ∧ x.retry.find? (fun r => r.1 = h) = some (h, bad, at0) ∧ bad < 3 ∧ now < at0 + usTicks 40) ∧
    (∃ (q : Fin 64) (s : State) (x : PortEnd) (h : Nat) (now : Nat) (bad : Nat) (at0 : Nat), s.dataRuns = true ∧ s.portOn q = true ∧ x.retry.find? (fun r => r.1 = h) = some (h, bad, at0) ∧ (3 ≤ bad ∨ at0 + usTicks 40 ≤ now)) ∧
    (∃ (q : Fin 64) (e : Fin 2) (s : State) (k : BitVec 4) (p : Nat × TxCell), s.dataRuns = true ∧ s.portOn q = true ∧ ((s.flushPort q).endOf q e).kept.find? (fun p => p.1 = k.toNat) = some p) ∧
    (∃ (q : Fin 64) (e : Fin 2) (s : State) (k : BitVec 4), s.dataRuns = true ∧ s.portOn q = true ∧ ((s.flushPort q).endOf q e).kept.find? (fun p => p.1 = k.toNat) = none) ∧
    (∃ (q : Fin 64) (s : State), s.dataRuns = true ∧ s.portOn q = true) :=
  ⟨⟨0, 0, { wCell with abt := true }, (w0.setFld (pq AQR_STATE_STATE 0) 3).setFld (pq AQR_CFG_EN 0) 1, by decide +kernel⟩,
    ⟨0, 0, wCell, (w0.setFld (pq AQR_STATE_STATE 0) 3).setFld (pq AQR_CFG_EN 0) 1, by decide +kernel⟩,
    ⟨0, 0, wHead, (w0.setFld (pq AQR_STATE_STATE 0) 3).setFld (pq AQR_CFG_EN 0) 1, by decide +kernel⟩,
    ⟨0, wHead, ((w0.setFld (pq AQR_STATE_STATE 0) 3).setFld (pq AQR_CFG_EN 0) 1).setFld (pq AQR_STATE_B_LOOP 0) 1, by decide +kernel⟩,
    ⟨0, (w0.setFld (pq AQR_STATE_STATE 0) 3).setFld (pq AQR_CFG_EN 0) 1, {}, 0, by decide +kernel⟩,
    ⟨0, (w0.setFld (pq AQR_STATE_STATE 0) 3).setFld (pq AQR_CFG_EN 0) 1, { retry := [(0, 1, 0)] }, 0, 0, 1, 0, by decide +kernel⟩,
    ⟨0, (w0.setFld (pq AQR_STATE_STATE 0) 3).setFld (pq AQR_CFG_EN 0) 1, { retry := [(0, 3, 0)] }, 0, 0, 3, 0, by decide +kernel⟩,
    ⟨0, 0, ((w0.setFld (pq AQR_STATE_STATE 0) 3).setFld (pq AQR_CFG_EN 0) 1).onEnd 0 0 (fun z => { z with kept := [(0, ⟨0, [], 0⟩)] }), 0, (0, ⟨0, [], 0⟩), by decide +kernel⟩,
    ⟨0, 0, (w0.setFld (pq AQR_STATE_STATE 0) 3).setFld (pq AQR_CFG_EN 0) 1, 0, by decide +kernel⟩,
    ⟨0, (w0.setFld (pq AQR_STATE_STATE 0) 3).setFld (pq AQR_CFG_EN 0) 1, by decide +kernel⟩⟩

theorem test_RingReports_met :
    (∃ (q : Fin 64) (c1 : BitVec 16) (c2 : BitVec 16) (s : State), s.dataRuns = true ∧ s.portOn q = true ∧ c1 ≠ c2) ∧
    (∃ (q : Fin 64) (s : State), s.dataRuns = true ∧ s.portOn q = true ∧ s.portState q = 3) ∧
    (∃ (q : Fin 64) (c1 : BitVec 16) (s : State), s.dataRuns = true ∧ s.portOn q = true ∧ s.portState q = 4 ∧ s.fld (pq AQR_BREAK_BREAK_A q) ≠ 1023 ∧ s.fld (pq AQR_BREAK_BREAK_A q) ≠ c1.toNat / 128) ∧
    (∃ (q : Fin 64) (s : State), s.dataRuns = true ∧ s.portOn q = true) :=
  ⟨⟨0, 1, 0, (w0.setFld (pq AQR_STATE_STATE 0) 3).setFld (pq AQR_CFG_EN 0) 1, by decide +kernel⟩,
    ⟨0, ((w0.setFld (pq AQR_STATE_STATE 0) 3).setFld (pq AQR_CFG_EN 0) 1).setFld (pq AQR_STATE_STATE 0) 3, by decide +kernel⟩,
    ⟨0, 0, (((w0.setFld (pq AQR_STATE_STATE 0) 3).setFld (pq AQR_CFG_EN 0) 1).setFld (pq AQR_STATE_STATE 0) 4).setFld (pq AQR_BREAK_BREAK_A 0) 5, by decide +kernel⟩,
    ⟨0, (w0.setFld (pq AQR_STATE_STATE 0) 3).setFld (pq AQR_CFG_EN 0) 1, by decide +kernel⟩⟩

theorem test_NodeStale_met :
    (∃ (q : Fin 64) (l : Fin 512) (s : State), s.dataRuns = true ∧ s.portOn q = true ∧ s.nodePresent q l = true ∧ s.nodeStale q l = false ∧ (∀ t, (s.portOf q).a.abtAt = some t → t + usTicks 40 ≤ s.now) ∧ (∀ t, (s.portOf q).b.abtAt = some t → t + usTicks 40 ≤ s.now) ∧ s.nodeMeasures q l = false) ∧
    (∃ (q : Fin 64) (l : Fin 512) (s : State), s.dataRuns = true ∧ s.portOn q = true ∧ s.nodePresent q l = true ∧ s.nodeStale q l = false ∧ (∀ t, (s.portOf q).a.abtAt = some t → t + usTicks 40 ≤ s.now) ∧ (∀ t, (s.portOf q).b.abtAt = some t → t + usTicks 40 ≤ s.now) ∧ s.nodeMeasures q l = true) ∧
    (∃ (q : Fin 64) (l : Fin 512) (s : State) (t : Nat), s.dataRuns = true ∧ s.portOn q = true ∧ s.nodePresent q l = true ∧ s.nodeStale q l = false ∧ ((s.portOf q).a.abtAt = some t ∨ (s.portOf q).b.abtAt = some t) ∧ s.now < t + usTicks 40) :=
  ⟨⟨0, 0, ((w0.setFld (pq AQR_STATE_STATE 0) 3).setFld (pq AQR_CFG_EN 0) 1).setReg (pq AQR_NODE_PRESENT 0 0) 1, by refine ⟨by decide +kernel, by decide +kernel, by decide +kernel, by decide +kernel, ?_, ?_, by decide +kernel⟩ <;> exact fun t h => nomatch (show (none : Option Nat) = some t from h)⟩,
    ⟨0, 0, (((w0.setFld (pq AQR_STATE_STATE 0) 3).setFld (pq AQR_CFG_EN 0) 1).setReg (pq AQR_NODE_PRESENT 0 0) 1).onPort 0 (fun z => { z with points := [(0, 1)], pclass := [1] }), by decide +kernel⟩,
    ⟨0, 0, (((w0.setFld (pq AQR_STATE_STATE 0) 3).setFld (pq AQR_CFG_EN 0) 1).setReg (pq AQR_NODE_PRESENT 0 0) 1).onPort 0 (fun z => { z with a := { abtAt := some 0 } }), 0, by decide +kernel⟩⟩

theorem test_ShelfPoints_met : ∃ (q : Nat) (l : Nat) (j : Nat) (v : Nat), q < 64 ∧ l < 512 ∧ j < 160 ∧ v < 65536 :=
  ⟨0, 0, 0, 0, by decide +kernel⟩

theorem test_RingDiscovery_met :
    (∃ (q : Fin 64) (ids : List IdCell) (s : State), s.dataRuns = true ∧ s.portOn q = true ∧ s.reg (pq AQR_LAST_UID q) = 0 ∧ ids.length < 512) ∧
    (∃ (q : Fin 64) (s : State) (p : Fin 64), s.dataRuns = true ∧ s.portOn q = true ∧ p ≠ q) ∧
    (∃ (q : Fin 64) (s : State), s.dataRuns = true ∧ s.portOn q = true) ∧
    (∃ (q : Fin 64) (s : State), s.dataRuns = true ∧ s.portOn q = true ∧ (s.portOf q).enumOut = true ∧ (s.portOf q).a.locked = false ∧ (s.portOf q).b.locked = false) ∧
    (∃ (q : Fin 64) (s : State), s.dataRuns = true ∧ s.portOn q = true ∧ (s.portOf q).enumOut = false) ∧
    (∃ (q : Fin 64) (s : State), s.dataRuns = true ∧ s.portOn q = true ∧ s.portState q = 1) :=
  ⟨⟨0, [], (w0.setFld (pq AQR_STATE_STATE 0) 3).setFld (pq AQR_CFG_EN 0) 1, by decide +kernel⟩,
    ⟨0, (w0.setFld (pq AQR_STATE_STATE 0) 3).setFld (pq AQR_CFG_EN 0) 1, 1, by decide +kernel⟩,
    ⟨0, (w0.setFld (pq AQR_STATE_STATE 0) 3).setFld (pq AQR_CFG_EN 0) 1, by decide +kernel⟩,
    ⟨0, ((w0.setFld (pq AQR_STATE_STATE 0) 3).setFld (pq AQR_CFG_EN 0) 1).onPort 0 (fun z => { z with enumOut := true }), by decide +kernel⟩,
    ⟨0, (w0.setFld (pq AQR_STATE_STATE 0) 3).setFld (pq AQR_CFG_EN 0) 1, by decide +kernel⟩,
    ⟨0, ((w0.setFld (pq AQR_STATE_STATE 0) 3).setFld (pq AQR_CFG_EN 0) 1).setFld (pq AQR_STATE_STATE 0) 1, by decide +kernel⟩⟩

theorem test_RingSweeps_met :
    (∃ (q : Fin 64) (s : State), s.dataRuns = true ∧ s.portOn q = true ∧ s.canSweep q = true ∧ s.flag (pq AQR_STATE_SWEEPING q) = false ∧ s.window (0x20 + q / 16) = some true) ∧
    (∃ (q : Fin 64) (s : State), s.dataRuns = true ∧ s.portOn q = true ∧ s.canSweep q = true ∧ s.flag (pq AQR_STATE_SWEEPING q) = false) ∧
    (∃ (q : Fin 64) (s : State), s.dataRuns = true ∧ s.portOn q = true ∧ s.canSweep q = true ∧ s.flag (pq AQR_STATE_SWEEPING q) = true) ∧
    (∃ (q : Fin 64) (s : State), s.dataRuns = true ∧ s.portOn q = true ∧ s.flag (pq AQR_STATE_SWEEPING q) = true ∧ (s.portOf q).lateDue = false ∧ s.nodes q = []) ∧
    (∃ (q : Fin 64) (s : State), s.dataRuns = true ∧ s.portOn q = true ∧ s.window (0x20 + q / 16) = some true ∧ s.portState q ≠ 6) :=
  ⟨⟨0, (((w0.setFld (pq AQR_STATE_STATE 0) 3).setFld (pq AQR_CFG_EN 0) 1).setFld (pq AQR_STATE_SWEEPING 0) 0).setFld SHF_STATUS_INIT_DONE 1, by decide +kernel⟩,
    ⟨0, ((((w0.setFld (pq AQR_STATE_STATE 0) 3).setFld (pq AQR_CFG_EN 0) 1).setFld (pq AQR_STATE_SWEEPING 0) 0).setFld SHF_STATUS_INIT_DONE 1).setFld (pq AQR_STATE_STATE 0) 3, by decide +kernel⟩,
    ⟨0, ((((w0.setFld (pq AQR_STATE_STATE 0) 3).setFld (pq AQR_CFG_EN 0) 1).setFld (pq AQR_STATE_SWEEPING 0) 1).setFld SHF_STATUS_INIT_DONE 1).setFld (pq AQR_STATE_STATE 0) 3, by decide +kernel⟩,
    ⟨0, ((w0.setFld (pq AQR_CFG_EN 0) 1).setFld (pq AQR_STATE_STATE 0) 3).setFld (pq AQR_STATE_SWEEPING 0) 1, by decide +kernel, by decide +kernel, by decide +kernel, by decide +kernel, nodes_none _ _ (by decide +kernel)⟩,
    ⟨0, (w0.setFld (pq AQR_STATE_STATE 0) 3).setFld (pq AQR_CFG_EN 0) 1, by decide +kernel⟩⟩

theorem test_RingCommands_met :
    (∃ (q : Fin 64) (s : State) (u : State), s.dataRuns = true ∧ s.window (0x20 + q / 16) = some true ∧ u = ((s.setReg (pq AQR_CMD_RES q) 0).onPort q (fun p => { p with readCells := 0, cmdSeq := p.cmdSeq + 1, cmdLeft := s.commandNodes q })).flushPort q ∧ (s.portOf q).cmdBusy = true) ∧
    (∃ (q : Fin 64) (s : State) (u : State), s.dataRuns = true ∧ s.window (0x20 + q / 16) = some true ∧ u = ((s.setReg (pq AQR_CMD_RES q) 0).onPort q (fun p => { p with readCells := 0, cmdSeq := p.cmdSeq + 1, cmdLeft := s.commandNodes q })).flushPort q ∧ (s.portOf q).cmdBusy = false ∧ 3 ≤ s.portState q ∧ (s.fld (pq AQR_CMD_HDR_OP q) = 1 ∨ s.fld (pq AQR_CMD_HDR_OP q) = 4 ∨ s.fld (pq AQR_CMD_HDR_OP q) = 5)) ∧
    (∃ (q : Fin 64) (s : State) (u : State), s.dataRuns = true ∧ s.window (0x20 + q / 16) = some true ∧ u = ((s.setReg (pq AQR_CMD_RES q) 0).onPort q (fun p => { p with readCells := 0, cmdSeq := p.cmdSeq + 1, cmdLeft := s.commandNodes q })).flushPort q ∧ (s.portOf q).cmdBusy = false ∧ 3 ≤ s.portState q ∧ s.fld (pq AQR_CMD_HDR_OP q) ≠ 1 ∧ s.fld (pq AQR_CMD_HDR_OP q) ≠ 4 ∧ s.fld (pq AQR_CMD_HDR_OP q) ≠ 5) ∧
    (∃ (q : Fin 64) (s : State) (u : State), s.dataRuns = true ∧ s.window (0x20 + q / 16) = some true ∧ u = ((s.setReg (pq AQR_CMD_RES q) 0).onPort q (fun p => { p with readCells := 0, cmdSeq := p.cmdSeq + 1, cmdLeft := s.commandNodes q })).flushPort q ∧ (s.portOf q).cmdBusy = false ∧ s.portState q < 3) ∧
    (∃ (q : Fin 64) (s : State) (u : State), s.dataRuns = true ∧ s.window (0x20 + q / 16) = some true ∧ u = ((s.setReg (pq AQR_CMD_RES q) 0).onPort q (fun p => { p with readCells := 0, cmdSeq := p.cmdSeq + 1, cmdLeft := s.commandNodes q })).flushPort q ∧ s.portOn q = true ∧ (s.portOf q).cmdBusy = true ∧ (s.portOf q).cmdSlot = none) :=
  ⟨⟨0, w0.onPort 0 (fun z => { z with cmdBusy := true }), ((((w0.onPort 0 (fun z => { z with cmdBusy := true })).setReg (pq AQR_CMD_RES 0) 0).onPort 0 (fun p => { p with readCells := 0, cmdSeq := p.cmdSeq + 1, cmdLeft := (w0.onPort 0 (fun z => { z with cmdBusy := true })).commandNodes 0 })).flushPort 0), by refine ⟨?_, ?_, rfl, ?_⟩ <;> decide +kernel⟩,
    ⟨0, (w0.setFld (pq AQR_STATE_STATE 0) 3).setFld (pq AQR_CMD_HDR_OP 0) 4, (((((w0.setFld (pq AQR_STATE_STATE 0) 3).setFld (pq AQR_CMD_HDR_OP 0) 4).setReg (pq AQR_CMD_RES 0) 0).onPort 0 (fun p => { p with readCells := 0, cmdSeq := p.cmdSeq + 1, cmdLeft := ((w0.setFld (pq AQR_STATE_STATE 0) 3).setFld (pq AQR_CMD_HDR_OP 0) 4).commandNodes 0 })).flushPort 0), by refine ⟨?_, ?_, rfl, ?_, ?_, ?_⟩ <;> decide +kernel⟩,
    ⟨0, (w0.setFld (pq AQR_STATE_STATE 0) 3).setFld (pq AQR_CMD_HDR_OP 0) 2, (((((w0.setFld (pq AQR_STATE_STATE 0) 3).setFld (pq AQR_CMD_HDR_OP 0) 2).setReg (pq AQR_CMD_RES 0) 0).onPort 0 (fun p => { p with readCells := 0, cmdSeq := p.cmdSeq + 1, cmdLeft := ((w0.setFld (pq AQR_STATE_STATE 0) 3).setFld (pq AQR_CMD_HDR_OP 0) 2).commandNodes 0 })).flushPort 0), by refine ⟨?_, ?_, rfl, ?_, ?_, ?_, ?_, ?_⟩ <;> decide +kernel⟩,
    ⟨0, w0, ((((w0).setReg (pq AQR_CMD_RES 0) 0).onPort 0 (fun p => { p with readCells := 0, cmdSeq := p.cmdSeq + 1, cmdLeft := (w0).commandNodes 0 })).flushPort 0), by refine ⟨?_, ?_, rfl, ?_, ?_⟩ <;> decide +kernel⟩,
    ⟨0, ((w0.setFld (pq AQR_STATE_STATE 0) 3).setFld (pq AQR_CFG_EN 0) 1).onPort 0 (fun z => { z with cmdBusy := true }), ((((((w0.setFld (pq AQR_STATE_STATE 0) 3).setFld (pq AQR_CFG_EN 0) 1).onPort 0 (fun z => { z with cmdBusy := true })).setReg (pq AQR_CMD_RES 0) 0).onPort 0 (fun p => { p with readCells := 0, cmdSeq := p.cmdSeq + 1, cmdLeft := (((w0.setFld (pq AQR_STATE_STATE 0) 3).setFld (pq AQR_CFG_EN 0) 1).onPort 0 (fun z => { z with cmdBusy := true })).commandNodes 0 })).flushPort 0), by refine ⟨?_, ?_, rfl, ?_, ?_, ?_⟩ <;> decide +kernel⟩⟩

theorem test_ShelfCommands_met :
    (∃ (q : Fin 64) (s : State), s.dataRuns = true ∧ s.grantPort q = true) ∧
    (∃ (s : State), s.dataRuns = true ∧ s.mgmtRuns = true ∧ s.islandsRun = true) ∧
    (∃ (s : State), s.dataRuns = true) :=
  ⟨⟨0, w0, by decide +kernel⟩,
    ⟨w0, by decide +kernel⟩,
    ⟨w0, by decide +kernel⟩⟩

theorem test_ClockTicks_met : ∃ (c : Clock), c.frac < 2 ^ 28 :=
  ⟨{}, by decide +kernel⟩

theorem test_TimeLatch_met : ∃ (s : State), s.devRuns = true :=
  ⟨w0, by decide +kernel⟩

theorem test_TimeReads_met :
    (∃ (s : State) (c : Fin 16), s.devRuns = true ∧ (s.capOf c).fifo = []) ∧
    (∃ (s : State) (c : Fin 16) (e : Stamp), s.devRuns = true ∧ (s.capOf c).fifo = [e]) ∧
    (∃ (s : State), s.devRuns = true) :=
  ⟨⟨w0, 0, by decide +kernel⟩,
    ⟨w0.onCap 0 (fun z => { z with fifo := [(⟨0, true⟩)] }), 0, ⟨0, true⟩, by decide +kernel⟩,
    ⟨w0, by decide +kernel⟩⟩

theorem test_TimeSteps_met :
    (∃ (s : State), s.devRuns = true ∧ s.clock.step = none) ∧
    (∃ (s : State) (d : _), s.devRuns = true ∧ s.clock.step = some d) ∧
    (∃ (s : State) (d : _), s.devRuns = true ∧ s.clockRuns = true ∧ s.clock.step = some d ∧ s.stepOk d = true) ∧
    (∃ (s : State) (d : Int), s.devRuns = true ∧ s.clockRuns = true ∧ s.clock.step = some d ∧ s.stepOk d = false) ∧
    (∃ (s : State), s.devRuns = true) :=
  ⟨⟨{ w0 with clock.step := none }, by decide +kernel⟩,
    ⟨{ w0 with clock.step := some 0 }, 0, by decide +kernel⟩,
    ⟨{ w0 with clock.step := some 0 }, 0, by decide +kernel⟩,
    ⟨({ w0 with clock.step := some (-1) }).setFld TIM_STATUS_UNSET 0, -1, by decide +kernel⟩,
    ⟨w0, by decide +kernel⟩⟩

theorem test_CaptureEdges_met :
    (∃ (c : Fin 16) (rising : Bool) (held : Nat) (s : State) (u : State), s.edgeAccepted c rising held = true ∧ u = s.onCap c (fun x => { x with level := rising }) ∧ s.islandsRun = true ∧ s.dataRuns = true ∧ (∀ k, k < 16 → s.reg (ADC_TRGMAP_CAP k) = 0) ∧ (∀ t, t < 8 → s.actFld (CHS_TRG_EN t) = 0) ∧ (s.fld (TIM_CAP_CFG_EDGE c)).testBit (if rising then 0 else 1) = true ∧ (s.capOf c).fifo.length < 4) ∧
    (∃ (c : Fin 16) (rising : Bool) (held : Nat) (s : State) (u : State), s.edgeAccepted c rising held = true ∧ u = s.onCap c (fun x => { x with level := rising }) ∧ s.islandsRun = true ∧ s.dataRuns = true ∧ (∀ k, k < 16 → s.reg (ADC_TRGMAP_CAP k) = 0) ∧ (∀ t, t < 8 → s.actFld (CHS_TRG_EN t) = 0) ∧ (s.fld (TIM_CAP_CFG_EDGE c)).testBit (if rising then 0 else 1) = true ∧ 4 ≤ (s.capOf c).fifo.length) ∧
    (∃ (c : Fin 16) (rising : Bool) (held : Nat) (s : State) (u : State), s.edgeAccepted c rising held = true ∧ u = s.onCap c (fun x => { x with level := rising }) ∧ s.islandsRun = true ∧ s.dataRuns = true ∧ (∀ k, k < 16 → s.reg (ADC_TRGMAP_CAP k) = 0) ∧ (∀ t, t < 8 → s.actFld (CHS_TRG_EN t) = 0) ∧ (s.fld (TIM_CAP_CFG_EDGE c)).testBit (if rising then 0 else 1) = false) ∧
    (∃ (c : Fin 16) (rising : Bool) (held : Nat) (s : State) (u : State), s.edgeAccepted c rising held = true ∧ u = s.onCap c (fun x => { x with level := rising }) ∧ s.devRuns = true ∧ s.islandsRun = false ∧ s.dataRuns = false) ∧
    (∃ (c : Fin 16) (rising : Bool) (held : Nat) (s : State) (u : State) (k : Nat), s.edgeAccepted c rising held = true ∧ u = s.onCap c (fun x => { x with level := rising }) ∧ s.edgeAccepted c rising k = false) :=
  ⟨⟨0, false, 0, w0.setFld (TIM_CAP_CFG_EDGE 0) 3, ((w0.setFld (TIM_CAP_CFG_EDGE 0) 3).onCap 0 (fun x => { x with level := false })), by refine ⟨?_, rfl, ?_, ?_, ?_, ?_, ?_, ?_⟩ <;> decide +kernel⟩,
    ⟨0, false, 0, (w0.setFld (TIM_CAP_CFG_EDGE 0) 3).onCap 0 (fun z => { z with fifo := List.replicate 4 ⟨0, true⟩ }), (((w0.setFld (TIM_CAP_CFG_EDGE 0) 3).onCap 0 (fun z => { z with fifo := List.replicate 4 ⟨0, true⟩ })).onCap 0 (fun x => { x with level := false })), by refine ⟨?_, rfl, ?_, ?_, ?_, ?_, ?_, ?_⟩ <;> decide +kernel⟩,
    ⟨0, false, 0, w0.setFld (TIM_CAP_CFG_EDGE 0) 0, ((w0.setFld (TIM_CAP_CFG_EDGE 0) 0).onCap 0 (fun x => { x with level := false })), by refine ⟨?_, rfl, ?_, ?_, ?_, ?_, ?_⟩ <;> decide +kernel⟩,
    ⟨0, false, 0, w0.setFld PWR_STATUS_STATE 2, ((w0.setFld PWR_STATUS_STATE 2).onCap 0 (fun x => { x with level := false })), by refine ⟨?_, rfl, ?_, ?_, ?_⟩ <;> decide +kernel⟩,
    ⟨0, true, 1, w0.setFld (TIM_CAP_CFG_FILT 0) 1, ((w0.setFld (TIM_CAP_CFG_FILT 0) 1).onCap 0 (fun x => { x with level := true })), 0, by refine ⟨?_, rfl, ?_⟩ <;> decide +kernel⟩⟩

theorem test_PtpSlave_met :
    (∃ (h : PtpHdr) (s : State), s.mgmtRuns = true ∧ s.ptpMode = 1 ∧ s.ptpAccepts h (-3) 1 = true ∧ h.twoStep = true ∧ s.ptp.master = some h.source) ∧
    (∃ (h : PtpHdr) (s : State), s.mgmtRuns = true ∧ s.ptpMode = 1 ∧ (s.ptpAccepts h (-3) 1 = false ∨ h.twoStep = false)) ∧
    (∃ (h : PtpHdr) (s : State) (t2 : _) (d : _), s.mgmtRuns = true ∧ s.ptpMode = 1 ∧ s.ptpAccepts h (-3) 1 = true ∧ s.ptp.master = some h.source ∧ s.ptp.sync = some (h.seq, t2) ∧ s.ptp.fallback = false ∧ s.ptp.pathDelay = some d) ∧
    (∃ (h : PtpHdr) (s : State), s.mgmtRuns = true ∧ s.ptpMode = 1 ∧ s.ptpAccepts h (-128) 127 = true ∧ s.ptp.master = none ∧ s.ptp.refused = false) ∧
    (∃ (h : PtpHdr) (s : State) (t3 : _) (d : _), s.mgmtRuns = true ∧ s.ptpMode = 1 ∧ s.ptpAccepts h 0 5 = true ∧ s.ptp.master = some h.source ∧ s.ptp.req = some (h.seq, t3) ∧ s.ptp.d21 = some d ∧ s.ptp.fallback = false) ∧
    (∃ (h : PtpHdr) (s : State), s.mgmtRuns = true ∧ s.ptpMode = 1 ∧ s.ptp.master = some h.source) ∧
    (∃ (s : State), s.mgmtRuns = true ∧ s.ptpMode = 1 ∧ 8 ≤ s.ptp.unanswered ∧ s.ptp.fallback = false) ∧
    (∃ (s : State), s.mgmtRuns = true ∧ s.ptpMode = 1) :=
  ⟨⟨wPtp, { w0.setFw 0x1802 0x3F800000 with ptp.master := some wPtp.source }, by decide +kernel⟩,
    ⟨{ wPtp with interval := 2 }, w0.setFw 0x1802 0x3F800000, by decide +kernel⟩,
    ⟨wPtp, { { { { w0.setFw 0x1802 0x3F800000 with ptp.master := some wPtp.source } with ptp.sync := some (wPtp.seq, 0) } with ptp.fallback := false } with ptp.pathDelay := some 0 }, 0, 0, by decide +kernel⟩,
    ⟨wPtp, { { w0.setFw 0x1802 0x3F800000 with ptp.master := none } with ptp.refused := false }, by decide +kernel⟩,
    ⟨wPtp, { { { { w0.setFw 0x1802 0x3F800000 with ptp.master := some wPtp.source } with ptp.req := some (wPtp.seq, 0) } with ptp.d21 := some 0 } with ptp.fallback := false }, 0, 0, by decide +kernel⟩,
    ⟨wPtp, { w0.setFw 0x1802 0x3F800000 with ptp.master := some wPtp.source }, by decide +kernel⟩,
    ⟨{ { w0.setFw 0x1802 0x3F800000 with ptp.fallback := false } with ptp.unanswered := 8 }, by decide +kernel⟩,
    ⟨w0.setFw 0x1802 0x3F800000, by decide +kernel⟩⟩

theorem test_FieldClasses_met :
    (∃ (r : RegDesc) (f : FieldDesc), r ∈ regMap ∧ f ∈ r.fields ∧ (f.acc = .ro ∨ f.acc = .wo ∨ f.acc = .rc)) ∧
    (∃ (r : RegDesc) (f : FieldDesc), r ∈ regMap ∧ f ∈ r.fields ∧ f.acc = .w1c) ∧
    (∃ (r : RegDesc) (f : FieldDesc), r ∈ regMap ∧ f ∈ r.fields ∧ f.acc = .cnt) ∧
    (∃ (r : RegDesc) (f : FieldDesc) (idle : Bool), r ∈ regMap ∧ f ∈ r.fields ∧ f.acc = .rw ∧ (f.cls ≠ .idle ∨ idle = true)) ∧
    (∃ (r : RegDesc) (f : FieldDesc) (idle : Bool), r ∈ regMap ∧ f ∈ r.fields ∧ f.acc = .rw ∧ f.cls = .idle ∧ idle = false) :=
  ⟨⟨wRow 0, (wRow 0).fields.getD 0 ⟨0, 0, .ro, .live, 0⟩, by decide +kernel⟩,
    ⟨wRow 9, (wRow 9).fields.getD 0 ⟨0, 0, .ro, .live, 0⟩, by decide +kernel⟩,
    ⟨wRow 6, (wRow 6).fields.getD 0 ⟨0, 0, .ro, .live, 0⟩, by decide +kernel⟩,
    ⟨wRow 2, (wRow 2).fields.getD 0 ⟨0, 0, .ro, .live, 0⟩, false, by decide +kernel⟩,
    ⟨wRow 15, (wRow 15).fields.getD 1 ⟨0, 0, .ro, .live, 0⟩, false, by decide +kernel⟩⟩

theorem test_RegisterWrites_met :
    (∃ (addr : BitVec 24) (s : State), s.devRuns = true ∧ addr.toNat % 4 ≠ 0) ∧
    (∃ (addr : BitVec 24) (s : State), s.devRuns = true ∧ addr.toNat % 4 = 0 ∧ addr.toNat < 0x800000 ∧ s.window (addr.toNat / 0x10000) = none) ∧
    (∃ (addr : BitVec 24) (s : State), s.devRuns = true ∧ addr.toNat % 4 = 0 ∧ addr.toNat < 0x800000 ∧ s.window (addr.toNat / 0x10000) = some false) ∧
    (∃ (addr : BitVec 24) (s : State), s.devRuns = true ∧ addr.toNat % 4 = 0 ∧ addr.toNat < 0x800000 ∧ s.window (addr.toNat / 0x10000) = some true ∧ s.gatedWindow (addr.toNat / 0x10000) = true) ∧
    (∃ (m : Master) (addr : BitVec 24) (s : State), s.devRuns = true ∧ addr.toNat % 4 = 0 ∧ addr.toNat < 0x800000 ∧ s.window (addr.toNat / 0x10000) = some true ∧ m ≠ .mgmt ∧ regClosed addr.toNat = true) ∧
    (∃ (m : Master) (addr : BitVec 24) (s : State), s.devRuns = true ∧ addr.toNat % 4 = 0 ∧ addr.toNat < 0x800000 ∧ s.window (addr.toNat / 0x10000) = some true ∧ s.gatedWindow (addr.toNat / 0x10000) = false ∧ s.mayWrite m addr.toNat = true) ∧
    (∃ (addr : BitVec 24) (s : State), s.devRuns = true ∧ addr.toNat % 4 = 0 ∧ 0x800000 ≤ addr.toNat ∧ inMemory (s.apertureAt addr.toNat) = false) ∧
    (∃ (m : Master) (addr : BitVec 24) (s : State), s.devRuns = true ∧ addr.toNat % 4 = 0 ∧ 0x800000 ≤ addr.toNat ∧ inMemory (s.apertureAt addr.toNat) = true ∧ m ≠ .mgmt ∧ memClosed (s.apertureAt addr.toNat) = true) ∧
    (∃ (m : Master) (addr : BitVec 24) (s : State), s.devRuns = true ∧ addr.toNat % 4 = 0 ∧ 0x800000 ≤ addr.toNat ∧ inMemory (s.apertureAt addr.toNat) = true ∧ (m = .mgmt ∨ memClosed (s.apertureAt addr.toNat) = false)) :=
  ⟨⟨1, w0, by decide +kernel⟩,
    ⟨0x270000, w0, by decide +kernel⟩,
    ⟨0x90000, { w0 with grants := 0 }, by decide +kernel⟩,
    ⟨0x80000, w0.setFld PWR_STATUS_STATE 1, by decide +kernel⟩,
    ⟨.eznel, 0x20008, w0, by decide +kernel⟩,
    ⟨.spi, 0, w0, by decide +kernel⟩,
    ⟨0x800000, w0.setFld SYS_APERTURE_BASE 0, by decide +kernel⟩,
    ⟨.spi, 0x800000, w0.setFld SYS_APERTURE_BASE 0x100, by decide +kernel⟩,
    ⟨.spi, 0x800000, w0.setFld SYS_APERTURE_BASE 0x20, by decide +kernel⟩⟩

theorem test_BusReads_met :
    (∃ (a : Nat) (s : State), a < 0x800000 ∧ s.window (a / 0x10000) = some false) ∧
    (∃ (a : Nat) (s : State), a < 0x800000 ∧ s.window (a / 0x10000) = some true ∧ s.gatedWindow (a / 0x10000) = true) ∧
    (∃ (a : Nat), 0x800000 ≤ a) ∧
    (∃ (a : Nat) (s : State), 0x800000 ≤ a ∧ inMemory (s.apertureAt a) = true) ∧
    (∃ (a : Nat) (s : State), 0x800000 ≤ a ∧ inMemory (s.apertureAt a) = false) :=
  ⟨⟨0x90000, { w0 with grants := 0 }, by decide +kernel⟩,
    ⟨0x80000, w0.setFld PWR_STATUS_STATE 1, by decide +kernel⟩,
    ⟨0x800000, by decide +kernel⟩,
    ⟨0x800000, w0.setFld SYS_APERTURE_BASE 0x20, by decide +kernel⟩,
    ⟨0x800000, w0.setFld SYS_APERTURE_BASE 0, by decide +kernel⟩⟩

theorem test_WindowRows_met :
    (∃ (s : State) (n : Fin 4), s.devRuns = true ∧ s.grantS n = false) ∧
    (∃ (s : State) (n : Fin 4), s.devRuns = true ∧ s.grantS n = false) ∧
    (∃ (s : State) (n : Fin 4), s.devRuns = true ∧ s.grantS n = false) ∧
    (∃ (s : State), s.devRuns = true ∧ s.grantB = false) ∧
    (∃ (s : State), s.devRuns = true ∧ s.grantChest = false) ∧
    (∃ (s : State), s.devRuns = true ∧ s.grantSlk = false) ∧
    (∃ (s : State) (q : Fin 64), s.devRuns = true ∧ s.grantPort (16 * (q / 16)) = false) ∧
    (∃ (s : State) (n : Fin 4), s.devRuns = true ∧ s.fld PWR_STATUS_STATE ≠ 0 ∧ s.grantS n = true) ∧
    (∃ (s : State) (n : Fin 4), s.devRuns = true ∧ s.fld PWR_STATUS_STATE ≠ 0 ∧ s.grantS n = true) ∧
    (∃ (s : State), s.devRuns = true ∧ s.fld PWR_STATUS_STATE ≠ 0) ∧
    (∃ (s : State), s.devRuns = true ∧ s.fld PWR_STATUS_STATE ≠ 0) ∧
    (∃ (s : State), s.devRuns = true ∧ s.fld PWR_STATUS_STATE ≠ 0) :=
  ⟨⟨{ w0 with grants := 0 }, 1, by decide +kernel⟩,
    ⟨{ w0 with grants := 0 }, 1, by decide +kernel⟩,
    ⟨{ w0 with grants := 0 }, 1, by decide +kernel⟩,
    ⟨{ w0 with grants := 0 }, by decide +kernel⟩,
    ⟨{ w0 with grants := 0 }, by decide +kernel⟩,
    ⟨{ w0 with grants := 0 }, by decide +kernel⟩,
    ⟨{ w0 with grants := 0 }, 16, by decide +kernel⟩,
    ⟨w0.setFld PWR_STATUS_STATE 1, 0, by decide +kernel⟩,
    ⟨w0.setFld PWR_STATUS_STATE 1, 0, by decide +kernel⟩,
    ⟨w0.setFld PWR_STATUS_STATE 1, by decide +kernel⟩,
    ⟨w0.setFld PWR_STATUS_STATE 1, by decide +kernel⟩,
    ⟨w0.setFld PWR_STATUS_STATE 1, by decide +kernel⟩⟩

theorem test_SpiFrames_met :
    (∃ (count : Fin 64) (addr : BitVec 24) (s : State), s.devRuns = true ∧ addr.toNat % 4 = 0 ∧ addr.toNat % 0x10000 + 4 * (count.val + 1) ≤ 0x10000) ∧
    (∃ (addr : BitVec 24) (s : State), s.devRuns = true ∧ addr.toNat % 4 = 0) ∧
    (∃ (count : Fin 64) (addr : BitVec 24) (s : State) (data : List Byte), s.devRuns = true ∧ data.length = 4 * (count.val + 1) ∧ addr.toNat % 4 = 0 ∧ addr.toNat % 0x10000 + 4 * (count.val + 1) ≤ 0x10000) ∧
    (∃ (count : Fin 64) (addr : BitVec 24) (s : State) (data : List Byte), s.devRuns = true ∧ data.length = 4 * (count.val + 1) ∧ addr.toNat % 4 = 0) ∧
    (∃ (count : Fin 64) (addr : BitVec 24) (s : State) (data : List Byte) (crc : Byte), s.devRuns = true ∧ data.length = 4 * (count.val + 1) ∧ crc8 (spiHeader 1 count addr ++ data) ≠ crc) ∧
    (∃ (count : Fin 64) (s : State) (data : List Byte), s.devRuns = true ∧ data.length ≠ 4 * (count.val + 1)) :=
  ⟨⟨0, 0, w0, by decide +kernel⟩,
    ⟨0, w0, by decide +kernel⟩,
    ⟨0, 0, w0, [0, 0, 0, 0], by decide +kernel⟩,
    ⟨0, 0, w0, [0, 0, 0, 0], by decide +kernel⟩,
    ⟨0, 0, w0, [0, 0, 0, 0], 1, by decide +kernel⟩,
    ⟨0, w0, [], by decide +kernel⟩⟩

theorem test_SpiHeaderError_met :
    (∃ (count : Fin 64) (addr : BitVec 24) (crc : Byte) (s : State), s.devRuns = true ∧ crc8 (spiHeader 0 count addr) ≠ crc) ∧
    (∃ (count : Fin 64) (addr : BitVec 24) (crc : Byte) (s : State), s.devRuns = true ∧ crc8 (spiHeader 2 count addr) ≠ crc) ∧
    (∃ (s : State), s.devRuns = true) :=
  ⟨⟨0, 0, 0, w0, by decide +kernel⟩,
    ⟨0, 0, 0, w0, by decide +kernel⟩,
    ⟨w0, by decide +kernel⟩⟩

theorem test_Pigeonholes_met :
    (∃ (s : State) (i : _), s.devRuns = true ∧ s.freeHole = some i) ∧
    (∃ (s : State), s.devRuns = true ∧ s.freeHole = none) ∧
    (∃ (s : State) (i : Fin 32), s.devRuns = true ∧ (s.slotOf i).st = 1 ∧ (s.slotOf i).peer = .spi) ∧
    (∃ (s : State) (i : Fin 32), s.devRuns = true ∧ (s.slotOf i).st ≠ 1) ∧
    (∃ (s : State), s.devRuns = true) :=
  ⟨⟨w0, 0, by decide +kernel⟩,
    ⟨w0.forAll 32 (fun i s => s.onSlot i (fun z => { z with st := 1 })), by decide +kernel⟩,
    ⟨w0.onSlot 0 (fun z => { z with st := 1, peer := .spi }), 0, by decide +kernel⟩,
    ⟨w0, 0, by decide +kernel⟩,
    ⟨w0, by decide +kernel⟩⟩

theorem test_SlotResponses_met :
    (∃ (i : Nat) (payload : List Byte) (s : State) (o : _), i < 32 ∧ payload.length ≤ 1008 ∧ (s.slotOf i).peer = .spi ∧ (o < 1024 * i ∨ 1024 * i + 1024 ≤ o)) ∧
    (∃ (i : Nat) (payload : List Byte) (s : State) (j : _), i < 32 ∧ payload.length ≤ 1008 ∧ (s.slotOf i).peer = .spi ∧ j < 32 ∧ j ≠ i) ∧
    (∃ (i : Nat) (payload : List Byte) (s : State), i < 32 ∧ payload.length ≤ 1008 ∧ (s.slotOf i).peer = .spi) :=
  ⟨⟨0, [], w0.onSlot 0 (fun z => { z with peer := .spi }), 1024, by decide +kernel⟩,
    ⟨0, [], w0.onSlot 0 (fun z => { z with peer := .spi }), 1, by decide +kernel⟩,
    ⟨0, [], w0.onSlot 0 (fun z => { z with peer := .spi }), by decide +kernel⟩⟩

theorem test_CommandsAndJobs_met :
    (∃ (s : State) (i : _) (rest : List Nat), s.fwRuns = true ∧ s.mbx.order = i :: rest ∧ s.mbx.started.length < 8 ∧ ((s.onMbx (fun m => { m with order := rest })).onSession (s.slotOf i).peer id).headerCheck i = none) ∧
    (∃ (s : State) (i : _) (rest : List Nat) (st : Nat) (d : Nat) (a : Nat), s.fwRuns = true ∧ s.mbx.order = i :: rest ∧ s.mbx.started.length < 8 ∧ ((s.onMbx (fun m => { m with order := rest })).onSession (s.slotOf i).peer id).headerCheck i = some (st, d, a)) ∧
    (∃ (s : State), s.fwRuns = true ∧ 8 ≤ s.mbx.started.length) ∧
    (∃ (s : State) (i : Fin 32), s.fwRuns = true ∧ (s.slotOf i).st = 2 ∧ (s.slotOf i).running = true) ∧
    (∃ (s : State) (j : Fin 4), s.fwRuns = true ∧ (s.jobOf j).held = true ∧ (s.jobOf j).st = 0 ∧ (s.jobOf j).ended = false ∧ (s.jobOf j).cancel = true) ∧
    (∃ (s : State) (j : Fin 4), s.fwRuns = true ∧ (s.jobOf j).held = true ∧ (s.jobOf j).st ≠ 0) ∧
    (∃ (s : State) (i : Fin 32) (j : Nat), s.fwRuns = true ∧ CommandRuns s i 0x0020 ∧ s.jobNamed (fieldAt (s.payload i) 0 4) = some j ∧ (s.jobOf j).st ≠ 0) ∧
    (∃ (s : State) (i : Fin 32) (j : Nat), s.fwRuns = true ∧ CommandRuns s i 0x0020 ∧ s.jobNamed (fieldAt (s.payload i) 0 4) = some j ∧ (s.jobOf j).st = 0) ∧
    (∃ (s : State) (i : Fin 32) (j : Nat), s.fwRuns = true ∧ CommandRuns s i 0x0021 ∧ s.jobNamed (fieldAt (s.payload i) 0 4) = some j ∧ jobFixed (s.jobOf j).kind = true) ∧
    (∃ (s : State) (i : Fin 32) (j : Nat), s.fwRuns = true ∧ CommandRuns s i 0x0021 ∧ s.jobNamed (fieldAt (s.payload i) 0 4) = some j ∧ jobFixed (s.jobOf j).kind = false ∧ (s.jobOf j).st = 0) ∧
    (∃ (s : State), s.fwRuns = true) ∧
    (∃ (s : State), s.fwRuns = true) :=
  ⟨⟨({ w0 with mbx.order := 0 :: ([]) }).setHoles 0 (message 1 0 0 0 0 []), 0, [], by decide +kernel⟩,
    ⟨{ w0 with mbx.order := 0 :: ([]) }, 0, [], 6, 1, 0, by decide +kernel⟩,
    ⟨w0.onMbx (fun m => { m with started := List.range 8 }), by decide +kernel⟩,
    ⟨w0.onSlot 0 (fun z => { z with st := 2, running := true }), 0, by decide +kernel⟩,
    ⟨w0.onJob 0 (fun z => { z with held := true, st := 0, cancel := true }), 0, by decide +kernel⟩,
    ⟨(w0.onJob 0 (fun z => { z with held := true })).onJob 0 (fun z => { z with st := 1 }), 0, by decide +kernel⟩,
    ⟨(wCmd w0 0 0x0020 0 [0, 0, 0, 0]).onJob 0 (fun z => { z with held := true, st := 1 }), 0, 0, by unfold CommandRuns; decide +kernel⟩,
    ⟨((wCmd w0 0 0x0020 0 [0, 0, 0, 0]).onJob 0 (fun z => { z with st := 0 })).onJob 0 (fun z => { z with held := true }), 0, 0, by unfold CommandRuns; decide +kernel⟩,
    ⟨(wCmd w0 0 0x0021 0 [0, 0, 0, 0]).onJob 0 (fun z => { z with held := true }), 0, 0, by unfold CommandRuns; decide +kernel⟩,
    ⟨((wCmd w0 0 0x0021 0 [0, 0, 0, 0]).onJob 0 (fun z => { z with st := 0 })).onJob 0 (fun z => { z with held := true, kind := .fwStage 0 0 }), 0, 0, by unfold CommandRuns; decide +kernel⟩,
    ⟨w0, by decide +kernel⟩,
    ⟨w0, by decide +kernel⟩⟩

theorem test_CommandsWait_met :
    (∃ (i : Fin 32) (s : State), s.fwRuns = true ∧ s.executes i 0x0001 = true ∧ s.jobHolds (s.slotOf i).units = true) ∧
    (∃ (i : Fin 32) (s : State), s.fwRuns = true ∧ s.executes i 0x0001 = false) ∧
    (∃ (i : Fin 32) (s : State), s.fwRuns = true ∧ s.executes i 0x0400 = true ∧ s.jobHolds (s.slotOf i).units = true) ∧
    (∃ (i : Fin 32) (s : State), s.fwRuns = true ∧ s.executes i 0x0400 = false) :=
  ⟨⟨0, (wCmd w0 0 1 0 []).onSlot 0 (fun z => { z with units := [.time] }) |>.onJob 0 (fun z => { z with held := true, units := [.time] }), by decide +kernel⟩,
    ⟨0, w0, by decide +kernel⟩,
    ⟨0, (wCmd w0 0 0x0400 0 []).onSlot 0 (fun z => { z with units := [.time] }) |>.onJob 0 (fun z => { z with held := true, units := [.time] }), by decide +kernel⟩,
    ⟨0, w0, by decide +kernel⟩⟩

theorem test_Transports_met :
    (∃ (s : State) (e : Fin 2) (v6 : Bool) (dport : Nat) (msg : List Byte), s.fwRuns = true ∧ s.monitor = false ∧ s.macTakes e v6 true = true ∧ (s.fwReg 0x1010).toNat = dport ∧ datagramOk msg = false) ∧
    (∃ (s : State) (e : Fin 2) (v6 : Bool) (addr : Nat) (port : Nat) (dport : Nat) (msg : List Byte) (k : Kept), s.fwRuns = true ∧ s.monitor = false ∧ s.macTakes e v6 true = true ∧ (s.fwReg 0x1010).toNat = dport ∧ datagramOk msg = true ∧ s.keptFor (.udp e v6 addr port) msg = some k) ∧
    (∃ (s : State) (e : Fin 2) (v6 : Bool) (addr : Nat) (port : Nat) (dport : Nat) (msg : List Byte) (i : _), s.fwRuns = true ∧ s.monitor = false ∧ s.macTakes e v6 true = true ∧ (s.fwReg 0x1010).toNat = dport ∧ datagramOk msg = true ∧ s.keptFor (.udp e v6 addr port) msg = none ∧ s.freeHole = some i) ∧
    (∃ (s : State) (c : Fin 4) (p : Fin 64) (ident : BitVec 29) (body : List Byte), s.fwRuns = true ∧ s.monitor = false ∧ s.fwReg (0x1023 + 4 * c) ≠ 0 ∧ s.fwReg (0x1022 + 4 * c) ≠ 0 ∧ ident.toNat = (s.fwReg (0x1020 + 4 * c)).toNat + 2 * p ∧ (s.canRxOf (canKey c p)).next = 0 ∧ body.length ≤ 63) ∧
    (∃ (s : State) (c : Fin 4) (p : Fin 64), s.fwRuns = true ∧ s.monitor = false ∧ (s.canRxOf (canKey c p)).next ≠ 0) ∧
    (∃ (s : State) (bs : List Byte) (i : _), s.fwRuns = true ∧ s.monitor = false ∧ 16 ≤ bs.length ∧ 16 + fieldAt bs 4 2 ≤ bs.length ∧ s.i2cDrop.freeHole = some i) ∧
    (∃ (s : State), s.fwRuns = true ∧ s.monitor = false ∧ s.mbx.i2cState = 1) ∧
    (∃ (s : State) (n : _), s.fwRuns = true ∧ s.monitor = false ∧ s.mbx.i2cState = 2 ∧ n ≤ s.mbx.i2cReply.length) ∧
    (∃ (s : State) (e : Fin 2), s.fwRuns = true ∧ s.monitor = false ∧ s.macTakes e false true = true) ∧
    (∃ (s : State), s.fwRuns = true ∧ s.monitor = false ∧ s.fwReg 0x1011 ≠ 0 ∧ s.mbx.tcp < 4) ∧
    (∃ (s : State), s.fwRuns = true ∧ s.monitor = false ∧ s.fwReg 0x1011 ≠ 0 ∧ 4 ≤ s.mbx.tcp) ∧
    (∃ (s : State) (fc : Byte), s.fwRuns = true ∧ s.monitor = false ∧ s.fwReg 0x1011 ≠ 0 ∧ s.mbx.tcp ≠ 0 ∧ fc ≠ 3 ∧ fc ≠ 4) ∧
    (∃ (s : State) (n : _), s.fwRuns = true ∧ s.monitor = false ∧ s.fwReg 0x1011 ≠ 0 ∧ s.mbx.tcp ≠ 0 ∧ 1 ≤ n ∧ n ≤ 125 ∧ (modbusPairs 0x3000 n).any (fun a => (modbusAddr a).isNone) = false) ∧
    (∃ (s : State), s.fwRuns = true ∧ s.monitor = false ∧ s.fwReg 0x1011 ≠ 0) :=
  ⟨⟨w0.onMbx (fun m => { m with links := 3 }), 0, true, (w0.fwReg 0x1010).toNat, [], by decide +kernel⟩,
    ⟨(w0.onMbx (fun m => { m with links := 3 })).onMbx (fun m => { m with kept := [wKept] }), 0, true, 0, 0, (w0.fwReg 0x1010).toNat, message 1 0 0 0 0 [], wKept, by decide +kernel⟩,
    ⟨w0.onMbx (fun m => { m with links := 3 }), 0, true, 0, 0, (w0.fwReg 0x1010).toNat, message 1 0 0 0 0 [], 0, by decide +kernel⟩,
    ⟨{ w0 with fw := [(0x1022, 1), (0x1023, 1)] }, 0, 0, BitVec.ofNat 29 (w0.fwReg 0x1020).toNat, [], by decide +kernel⟩,
    ⟨w0.setCanRx 0 { next := 1 }, 0, 0, by decide +kernel⟩,
    ⟨w0, List.replicate 16 0, 0, by decide +kernel⟩,
    ⟨{ w0 with mbx.i2cState := 1 }, by decide +kernel⟩,
    ⟨{ w0 with mbx.i2cState := 2 }, 0, by decide +kernel⟩,
    ⟨{ w0.onMbx (fun m => { m with links := 3 }) with fw := [(0x1000, 1)] }, 0, by decide +kernel⟩,
    ⟨{ w0 with fw := [(0x1011, 1)] }, by decide +kernel⟩,
    ⟨{ { w0 with fw := [(0x1011, 1)] } with mbx := { tcp := 4 } }, by decide +kernel⟩,
    ⟨{ { w0 with fw := [(0x1011, 1)] } with mbx := { tcp := 1 } }, 6, by decide +kernel⟩,
    ⟨{ { w0 with fw := [(0x1011, 1)] } with mbx := { tcp := 1 } }, 1, by decide +kernel⟩,
    ⟨{ w0 with fw := [(0x1011, 1)] }, by decide +kernel⟩⟩

theorem test_EznelBasics_met :
    (∃ (i : Fin 32) (s : State), CommandRuns s i 0x0001) ∧
    (∃ (i : Fin 32) (s : State), CommandRuns s i 0x0002 ∧ s.monitor = false) ∧
    (∃ (i : Fin 32) (s : State) (ofs : Nat) (data : List Byte), CommandRuns s i 0x0030 ∧ data.length ≤ 1000 ∧ ofs + data.length ≤ 25165824) ∧
    (∃ (i : Fin 32) (s : State) (ofs : Nat) (data : List Byte), CommandRuns s i 0x0030 ∧ 25165824 < ofs + data.length) ∧
    (∃ (i : Fin 32) (s : State) (ofs : Nat) (len : Nat), CommandRuns s i 0x0031 ∧ len ≤ 1008 ∧ ofs + len ≤ 25165824) ∧
    (∃ (i : Fin 32) (s : State) (ns : Word), CommandRuns s i 0x0600 ∧ ns.toNat < 1000000000) ∧
    (∃ (i : Fin 32) (s : State) (d : BitVec 64), CommandRuns s i 0x0601 ∧ s.clock.step = none ∧ s.stepOk d.toInt = true) ∧
    (∃ (i : Fin 32) (s : State) (d : BitVec 64), CommandRuns s i 0x0601 ∧ s.clock.step = none ∧ s.stepOk d.toInt = false) ∧
    (∃ (i : Fin 32) (s : State), CommandRuns s i 0x0602) :=
  ⟨⟨0, wCmd w0 0 0x0001 0 [], by unfold CommandRuns; decide +kernel⟩,
    ⟨0, wCmd w0 0 0x0002 0 [], by unfold CommandRuns; decide +kernel⟩,
    ⟨0, wCmd w0 0 0x0030 0 [], 0, [1], by unfold CommandRuns; decide +kernel⟩,
    ⟨0, wCmd w0 0 0x0030 0 [], 25165824, [1], by unfold CommandRuns; decide +kernel⟩,
    ⟨0, wCmd w0 0 0x0031 0 [], 0, 0, by unfold CommandRuns; decide +kernel⟩,
    ⟨0, wCmd w0 0 0x0600 0 [], 0, by unfold CommandRuns; decide +kernel⟩,
    ⟨0, { wCmd w0 0 0x0601 0 [] with clock.step := none }, 0, by unfold CommandRuns; decide +kernel⟩,
    ⟨0, { wCmd w0 0 0x0601 0 [] with clock.step := none }, BitVec.ofInt 64 (-1), by unfold CommandRuns; decide +kernel⟩,
    ⟨0, wCmd w0 0 0x0602 0 [], by unfold CommandRuns; decide +kernel⟩⟩

theorem test_EznelRegisters_met :
    (∃ (i : Fin 32) (s : State) (addr : _) (n : _), CommandRuns s i 0x0100 ∧ wordsIn 0x1000000 addr n = true) ∧
    (∃ (i : Fin 32) (s : State) (addr : _) (ws : List Word), CommandRuns s i 0x0101 ∧ wordsIn 0x1000000 addr ws.length = true ∧ s.regWriteCheck (s.hdrAuth i) addr 0 ws = none) ∧
    (∃ (i : Fin 32) (s : State) (addr : _), CommandRuns s i 0x0101 ∧ wordsIn 0x1000000 addr 1 = true ∧ addr < 0x800000 ∧ 2 ≤ s.hdrAuth i ∧ s.window (addr / 0x10000) = some true ∧ regClosed addr = true) ∧
    (∃ (i : Fin 32) (s : State) (addr : _) (n : _), CommandRuns s i 0x0102 ∧ wordsIn 0x100000000 addr n = true ∧ (∀ k, k < n → inMemory (addr + 4 * k) = true)) ∧
    (∃ (i : Fin 32) (s : State) (es : List ParamEntry), CommandRuns s i 0x0200 ∧ paramEntries (s.payload i) = some es ∧ s.readFault 0 es = none) ∧
    (∃ (i : Fin 32) (s : State) (es : List ParamEntry) (t : State) (late : _), CommandRuns s i 0x0201 ∧ paramEntries (s.payload i) = some es ∧ s.paramAll (s.hdrAuth i) late 0 es = .ok t) ∧
    (∃ (i : Fin 32) (s : State) (e : ParamEntry) (es : List ParamEntry), CommandRuns s i 0x0201 ∧ paramEntries (s.payload i) = some (e :: es) ∧ assigned e.num = false) ∧
    (∃ (i : Fin 32) (s : State) (p : _), CommandRuns s i 0x0202 ∧ paramInfo p = none) ∧
    (∃ (i : Fin 32) (s : State) (p : _) (d : ParamInfo), CommandRuns s i 0x0202 ∧ paramInfo p = some d) ∧
    (∃ (i : Fin 32) (s : State) (q : Fin 64) (cells : Nat) (data : List Byte), CommandRuns s i 0x0500 ∧ s.grantPort q = true ∧ (s.portOf q).cmdBusy = true ∧ cells ≤ 4 ∧ data.length ≤ 16) ∧
    (∃ (i : Fin 32) (s : State) (q : Fin 64), CommandRuns s i 0x0500 ∧ s.grantPort q = true ∧ (s.portOf q).cmdBusy = false) ∧
    (∃ (i : Fin 32) (s : State) (q : Fin 64) (first : _) (n : _), CommandRuns s i 0x0501 ∧ s.grantPort q = true ∧ 1 ≤ n ∧ n ≤ 126 ∧ first + n ≤ 160) ∧
    (∃ (i : Fin 32) (s : State) (q : Fin 64), CommandRuns s i 0x0502 ∧ s.grantPort q = true ∧ s.flag (pq AQR_CFG_EN q) = false) :=
  ⟨⟨0, wCmd w0 0 0x0100 0 [], 0, 1, by unfold CommandRuns; decide +kernel⟩,
    ⟨0, wCmd w0 0 0x0101 2 [], 0x40, [0], by unfold CommandRuns; decide +kernel⟩,
    ⟨0, wCmd w0 0 0x0101 2 [], 0x20008, by unfold CommandRuns; decide +kernel⟩,
    ⟨0, wCmd w0 0 0x0102 0 [], 0x10000000, 1, by unfold CommandRuns; decide +kernel⟩,
    ⟨0, wCmd w0 0 0x0200 0 (wEntry 0x3010), [wPE 0x3010], by unfold CommandRuns; decide +kernel⟩,
    (except_ok (e := (wCmd w0 0 0x0201 2 (wEntry 0x3010)).paramAll ((wCmd w0 0 0x0201 2 (wEntry 0x3010)).hdrAuth 0) false 0 [wPE 0x3010])
    (by decide +kernel)).elim fun t h =>
      ⟨0, wCmd w0 0 0x0201 2 (wEntry 0x3010), [wPE 0x3010], t, false, by unfold CommandRuns; decide +kernel, by decide +kernel, h⟩,
    ⟨0, wCmd w0 0 0x0201 2 (wEntry 0xFFFF), (wPE 0xFFFF), [], by unfold CommandRuns; decide +kernel⟩,
    ⟨0, wCmd w0 0 0x0202 0 [], 0xFFFF, by unfold CommandRuns; decide +kernel⟩,
    ⟨0, wCmd w0 0 0x0202 0 [], 0x1802, (paramInfo 0x1802).get (by decide +kernel), by unfold CommandRuns; decide +kernel⟩,
    ⟨0, (wCmd w0 0 0x0500 0 []).onPort 0 (fun z => { z with cmdBusy := true }), 0, 0, [], by unfold CommandRuns; decide +kernel⟩,
    ⟨0, wCmd w0 0 0x0500 0 [], 0, by unfold CommandRuns; decide +kernel⟩,
    ⟨0, wCmd w0 0 0x0501 0 [], 0, 0, 1, by unfold CommandRuns; decide +kernel⟩,
    ⟨0, (wCmd w0 0 0x0502 0 []).setFld (pq AQR_CFG_EN 0) 0, 0, by unfold CommandRuns; decide +kernel⟩⟩

theorem test_EngineJobs_met :
    (∃ (i : Fin 32) (s : State), CommandRuns s i 0x0400 ∧ s.grantB = false) ∧
    (∃ (i : Fin 32) (s : State), CommandRuns s i 0x0400 ∧ s.grantB = true ∧ s.freeJob ≠ none ∧ s.canReload = true) ∧
    (∃ (i : Fin 32) (s : State) (j : _), CommandRuns s i 0x0400 ∧ s.grantB = true ∧ s.freeJob = some j ∧ s.canReload = true) ∧
    (∃ (s : State), s.fwRuns = true ∧ s.grantB = true ∧ s.red.active = 0 ∧ s.red.stB = 5) ∧
    (∃ (i : Fin 32) (s : State), CommandRuns s i 0x0401 ∧ s.canExchange = true) ∧
    (((wCmd wStaged 0 0x0300 0 [])).imageCheck 3 ((wCmd wStaged 0 0x0300 0 []).staged 0 305) = 0 → ∃ (i : Fin 32) (s : State) (ofs : Nat) (len : Nat) (hash : List Byte) (body : ImageBody), CommandRuns s i 0x0300 ∧ s.freeJob ≠ none ∧ s.swapping = false ∧ ofs + len ≤ 25165824 ∧ Config.sha384 (s.staged ofs len) = hash ∧ s.imageCheck 3 (s.staged ofs len) = 0 ∧ headerOk (imgPayload (s.staged ofs len)) body = true ∧ imageRefused (imageOfPayload (imgPayload (s.staged ofs len)) body) = false) ∧
    (∃ (i : Fin 32) (s : State) (ofs : _) (len : _) (hash : List Byte), CommandRuns s i 0x0300 ∧ s.freeJob ≠ none ∧ s.swapping = false ∧ ofs + len ≤ 25165824 ∧ Config.sha384 (s.staged ofs len) = hash ∧ s.imageCheck 3 (s.staged ofs len) ≠ 0) ∧
    (((wCmd wStaged 0 0x0300 0 [])).imageCheck 3 ((wCmd wStaged 0 0x0300 0 []).staged 0 305) = 0 → ∃ (i : Fin 32) (s : State) (ofs : Nat) (len : Nat) (hash : List Byte) (body : ImageBody), CommandRuns s i 0x0300 ∧ s.freeJob ≠ none ∧ s.swapping = false ∧ ofs + len ≤ 25165824 ∧ Config.sha384 (s.staged ofs len) = hash ∧ s.imageCheck 3 (s.staged ofs len) = 0 ∧ (headerOk (imgPayload (s.staged ofs len)) body = false ∨ imageRefused (imageOfPayload (imgPayload (s.staged ofs len)) body) = true)) ∧
    (∃ (s : State) (j : Fin 4) (img : Image), s.fwRuns = true ∧ (s.jobOf j).kind = .image img ∧ s.jobRuns j = true ∧ s.swapping = false) ∧
    (∃ (i : Fin 32) (s : State) (g : _) (ofs : _) (hash : List Byte), CommandRuns s i 0x0301 ∧ g < 64 ∧ ofs + 2048 ≤ 25165824 ∧ Config.sha384 (s.staged ofs 2048) = hash ∧ s.tableBusy i g = false ∧ (∀ k, k < 1024 → gainOk (BitVec.ofNat 16 (fieldAt (s.staged ofs 2048) (2 * k) 2)) = true)) ∧
    (∃ (i : Fin 32) (s : State) (n : _) (first : _) (ofs : _) (len : _) (hash : List Byte), CommandRuns s i 0x0302 ∧ n < 4 ∧ len % 4 = 0 ∧ first + len / 4 ≤ 4096 ∧ s.grantS n = true ∧ ofs + len ≤ 25165824 ∧ Config.sha384 (s.staged ofs len) = hash ∧ (∀ w, w ∈ wordsOf (s.staged ofs len) (len / 4) → compOk w = true)) ∧
    (∃ (i : Fin 32) (s : State) (k : Nat) (d : LoopDesc) (x : Var), CommandRuns s i 0x0303 ∧ s.hdrLen i = 12 ∧ fieldAt (s.payload i) 4 2 = 1 ∧ fieldAt (s.payload i) 6 2 = 0 ∧ fieldAt (s.payload i) 0 4 % 4 = 0 ∧ 0x30000 ≤ fieldAt (s.payload i) 0 4 ∧ fieldAt (s.payload i) 0 4 + 4 ≤ 0x38000 ∧ s.stateWord (fieldAt (s.payload i) 0 4 / 4) = some (k, d, x) ∧ s.stnIdle d.station = true) :=
  ⟨⟨0, { wCmd w0 0 0x0400 0 [] with grants := 0 }, by unfold CommandRuns; decide +kernel⟩,
    ⟨0, wCmd ((wPairEng 4)) 0 0x0400 0 [], by unfold CommandRuns; decide +kernel⟩,
    ⟨0, wCmd ((wPairEng 4)) 0 0x0400 0 [], 0, by unfold CommandRuns; decide +kernel⟩,
    ⟨{ (wPairEng 5) with red.active := 0 }, by decide +kernel⟩,
    ⟨0, wCmd ((wPairEng 2)) 0 0x0401 0 [], by unfold CommandRuns; decide +kernel⟩,
    fun h => ⟨0, (wCmd wStaged 0 0x0300 0 []), 0, 305, (Config.sha384 ((wCmd wStaged 0 0x0300 0 []).staged 0 305)), wImgOk.body, by refine ⟨?_, ?_, ?_, ?_, rfl, h, ?_, ?_⟩ <;> (try unfold CommandRuns) <;> decide +kernel⟩,
    ⟨0, wCmd w0 0 0x0300 0 [], 0, 0, Config.sha384 ((wCmd w0 0 0x0300 0 []).staged 0 0), by refine ⟨?_, ?_, ?_, ?_, rfl, ?_⟩ <;> (try unfold CommandRuns) <;> decide +kernel⟩,
    fun h => ⟨0, (wCmd wStaged 0 0x0300 0 []), 0, 305, (Config.sha384 ((wCmd wStaged 0 0x0300 0 []).staged 0 305)), ⟨[], []⟩, by refine ⟨?_, ?_, ?_, ?_, rfl, h, ?_⟩ <;> (try unfold CommandRuns) <;> decide +kernel⟩,
    ⟨(w0.onJob 0 (fun z => { z with kind := .image wImg })).onJob 0 (fun z => { z with held := true }), 0, wImg, by decide +kernel⟩,
    ⟨0, wCmd w0 0 0x0301 0 [], 0, 0, Config.sha384 ((wCmd w0 0 0x0301 0 []).staged 0 2048), by unfold CommandRuns; decide +kernel, by decide, by decide, rfl, by decide +kernel, fun k _ => gains_zeros _ rfl k⟩,
    ⟨0, wCmd w0 0 0x0302 0 [], 0, 0, 0, 0, Config.sha384 ((wCmd w0 0 0x0302 0 []).staged 0 0), by refine ⟨?_, ?_, ?_, ?_, ?_, ?_, rfl, by simp [wordsOf]⟩ <;> (try unfold CommandRuns) <;> decide +kernel⟩,
    ⟨0, { wCmd w0 0 0x0303 0 [0, 0, 3, 0, 1, 0, 0, 0, 0, 0, 0, 0] with banksA := { bank0 := some wImgOk } }, 0, { wLoop with stateOfs := 0x30000 }, .theta, by unfold CommandRuns; decide +kernel⟩⟩

theorem test_TrustCommands_met :
    (∃ (s : State) (i : Fin 32), CommandRuns s i 0x0721) ∧
    (∃ (s : State) (i : Fin 32), CommandRuns s i 0x0720) ∧
    (∃ (s : State) (i : Fin 32), CommandRuns s i 0x0010) ∧
    (∃ (s : State) (i : Fin 32) (x : Session), CommandRuns s i 0x0011 ∧ s.sessionOf (s.slotOf i).peer = some x ∧ s.flag TIM_STATUS_UNSET = false) ∧
    (∃ (s : State) (ws : List Word), s.devRuns = true ∧ s.trust.dbgSig.length + ws.length < 24) ∧
    (∃ (s : State) (ws : List Word), s.devRuns = true ∧ s.trust.dbgSig = [] ∧ ws.length = 24 ∧ s.fld SEC_DBG_STATE = 1 ∧ s.allIdleHeld = true ∧ s.trust.dbgNonce ≠ [] ∧ s.now ≤ s.trust.dbgAt + 60000000 * 400) ∧
    (∃ (s : State) (ws : List Word), s.devRuns = true ∧ s.trust.dbgSig = [] ∧ ws.length = 24 ∧ s.allIdleHeld = false) ∧
    (∃ (s : State), s.devRuns = true ∧ s.fld SEC_DBG_STATE = 2) ∧
    (∃ (s : State), s.devRuns = true) :=
  ⟨⟨wCmd w0 0 0x0721 0 [], 0, by unfold CommandRuns; decide +kernel⟩,
    ⟨wCmd w0 0 0x0720 0 [], 0, by unfold CommandRuns; decide +kernel⟩,
    ⟨wCmd w0 0 0x0010 0 [], 0, by unfold CommandRuns; decide +kernel⟩,
    ⟨((wCmd w0 0 0x0011 0 []).onMbx (fun m => { m with sessions := [⟨.spi, 1, [], 0⟩] })).setFld TIM_STATUS_UNSET 0, 0, ⟨.spi, 1, [], 0⟩, by unfold CommandRuns; decide +kernel⟩,
    ⟨w0, [], by decide +kernel⟩,
    ⟨({ ({ w0 with trust.dbgSig := [] }).setFld SEC_DBG_STATE 1 with trust.dbgNonce := [0] }).setFld SEC_DBG_STATE 1, List.replicate 24 0, by decide +kernel⟩,
    ⟨({ w0 with trust.dbgSig := [] }).onStn 0 (fun z => { z with st := .running }), List.replicate 24 0, by decide +kernel⟩,
    ⟨w0.setFld SEC_DBG_STATE 2, by decide +kernel⟩,
    ⟨w0, by decide +kernel⟩⟩

theorem test_TestAccess_met :
    (∃ (s : State) (code : Byte), (code = 3 ∨ code = 4 ∨ code = 5) ∧ s.allIdleHeld = false) ∧
    (∃ (s : State) (code : Byte), (code = 3 ∨ code = 4 ∨ code = 5) ∧ s.allIdleHeld = true) ∧
    (∃ (s : State) (n : Nat), n < 4 ∧ (s.safeOf n).releasing = true ∧ n ∈ (s.safeOf n).party) :=
  ⟨⟨w0.onStn 0 (fun z => { z with st := .running }), 3, by decide +kernel⟩,
    ⟨w0, 3, by decide +kernel⟩,
    ⟨(w0.onSafe 0 (fun z => { z with releasing := true })).onSafe 0 (fun z => { z with releasing := true, party := [0] }), 0, by decide +kernel⟩⟩

theorem test_BureauProcedure_met :
    (∃ (i : Fin 32) (s : State) (r : BureauReq), CommandRuns s i 0x0700 ∧ s.trust.req = some r) ∧
    (∃ (i : Fin 32) (s : State), CommandRuns s i 0x0700 ∧ s.trust.req = none ∧ s.enrolled = true) ∧
    (∃ (i : Fin 32) (s : State) (r : BureauReq), CommandRuns s i 0x0701 ∧ s.trust.req = some r ∧ r.programming = false ∧ r.late = none ∧ r.handle % 2 ^ 32 = fieldAt (s.payload i) 0 4 ∧ s.commissioningKey r.change ≠ [] ∧ s.safe.settleRuns = true ∧ kindCode r.change ≤ 1 ∧ s.settleRefuses r.body r.inForce = none ∧ r.fails < 2) ∧
    (∃ (i : Fin 32) (s : State) (r : BureauReq), CommandRuns s i 0x0701 ∧ s.trust.req = some r ∧ r.programming = false ∧ r.late = none ∧ r.handle % 2 ^ 32 = fieldAt (s.payload i) 0 4 ∧ s.commissioningKey r.change = [] ∧ r.fails < 2) ∧
    (∃ (i : Fin 32) (s : State) (r : BureauReq), CommandRuns s i 0x0701 ∧ s.trust.req = some r ∧ r.programming = false ∧ r.late = none ∧ r.handle % 2 ^ 32 = fieldAt (s.payload i) 0 4 ∧ s.commissioningKey r.change = [] ∧ r.fails = 2) ∧
    (∃ (i : Fin 32) (s : State) (r : BureauReq), CommandRuns s i 0x0702 ∧ s.trust.req = some r ∧ r.programming = false ∧ r.handle % 2 ^ 32 = fieldAt (s.payload i) 0 4) ∧
    (∃ (s : State) (r : BureauReq), s.fwRuns = true ∧ s.trust.req = some r ∧ r.programming = false ∧ ∀ i ∈ s.mbx.started, s.hdrOp i ≠ 0x0701) ∧
    (∃ (s : State) (r : BureauReq), s.fwRuns = true ∧ s.trust.req = some r ∧ r.programming = false ∧ (∀ m, m ∈ s.mbx.started → s.hdrOp m = 0x0701)) ∧
    (∃ (s : State) (r : BureauReq) (b : Word), s.devRuns = true ∧ s.trust.req = some r ∧ r.programming = true ∧ r.change = .grant b) :=
  ⟨⟨0, { wCmd w0 0 0x0700 0 [] with trust.req := some ((wReq .debug 0 false)) }, (wReq .debug 0 false), by unfold CommandRuns; decide +kernel⟩,
    ⟨0, ({ wCmd w0 0 0x0700 0 [] with trust.req := none }).setFld OTP_STATUS_ENROLLED 1, by unfold CommandRuns; decide +kernel⟩,
    ⟨0, { { { wCmd w0 0 0x0701 0 [0, 0, 0, 0] with trust.req := some ((wReq (.settings []) 0 false)) } with safe.settleRuns := true } with otp := { keys := [(6, [1])] } }, (wReq (.settings []) 0 false), by unfold CommandRuns; decide +kernel⟩,
    ⟨0, { wCmd w0 0 0x0701 0 [0, 0, 0, 0] with trust.req := some ((wReq .debug 0 false)) }, (wReq .debug 0 false), by unfold CommandRuns; decide +kernel⟩,
    ⟨0, { wCmd w0 0 0x0701 0 [0, 0, 0, 0] with trust.req := some ((wReq .debug 2 false)) }, (wReq .debug 2 false), by unfold CommandRuns; decide +kernel⟩,
    ⟨0, { wCmd w0 0 0x0702 0 [0, 0, 0, 0] with trust.req := some ((wReq .debug 0 false)) }, (wReq .debug 0 false), by unfold CommandRuns; decide +kernel⟩,
    ⟨{ w0 with trust.req := some (wReq .debug 0 false) }, wReq .debug 0 false, by decide +kernel⟩,
    ⟨{ (wCmd w0 0 0x0701 0 []).onMbx (fun m => { m with started := [0] }) with trust.req := some (wReq .debug 0 false) }, wReq .debug 0 false, by decide +kernel, rfl, rfl, fun m h => by
    cases List.mem_singleton.mp h; decide +kernel⟩,
    ⟨{ w0 with trust.req := some ((wReq (.grant 1) 0 true)) }, (wReq (.grant 1) 0 true), 1, by decide +kernel⟩⟩

theorem test_FirmwareUpdate_met :
    (∃ (i : Fin 32) (s : State) (ofs : _) (len : _) (hash : List Byte), CommandRuns s i 0x0710 ∧ s.freeJob ≠ none ∧ (∀ j, j < 4 → s.jobRuns j = true → isFwStage (s.jobOf j).kind = false) ∧ ofs + len ≤ 25165824 ∧ Config.sha384 (s.staged ofs len) = hash) ∧
    (∃ (s : State) (j : Fin 4) (ofs : _) (len : _), s.fwRuns = true ∧ (s.jobOf j).kind = .fwStage ofs len ∧ s.jobRuns j = true) ∧
    (∃ (i : Fin 32) (s : State) (b : Bool), CommandRuns s i 0x0711 ∧ s.action i = 0 ∧ s.activatable = some b ∧ s.canRestartOn b = true ∧ s.settleDiffers b = false ∧ (s.slotOf i).peer = .spi) ∧
    (∃ (i : Fin 32) (s : State), CommandRuns s i 0x0711 ∧ s.action i = 0 ∧ s.activatable = none) ∧
    (∃ (i : Fin 32) (s : State), CommandRuns s i 0x0711 ∧ s.action i = 1 ∧ s.trust.req = none ∧ s.flag SEC_BOOT_TRIAL = true) ∧
    (∃ (i : Fin 32) (s : State), CommandRuns s i 0x0711 ∧ s.action i = 2 ∧ s.canRestartOn (!s.runningSlot) = true ∧ s.settleDiffers (!s.runningSlot) = false ∧ (s.slotOf i).peer = .spi) :=
  ⟨⟨0, wCmd w0 0 0x0710 0 [], 0, 0, Config.sha384 ((wCmd w0 0 0x0710 0 []).staged 0 0), by refine ⟨?_, ?_, ?_, ?_, rfl⟩ <;> (try unfold CommandRuns) <;> decide +kernel⟩,
    ⟨(w0.onJob 0 (fun z => { z with kind := .fwStage 0 0 })).onJob 0 (fun z => { z with held := true }), 0, 0, 0, by decide +kernel⟩,
    ⟨0, { ({ (wCmd w0 0 0x0711 0 [0]).onSlot 0 (fun z => { z with peer := .spi }) with trust := { staged := some true } }).onSlot 0 (fun z => { z with peer := .spi }) with safe := {} }, true, by unfold CommandRuns; decide +kernel⟩,
    ⟨0, wCmd w0 0 0x0711 0 [0], by unfold CommandRuns; decide +kernel⟩,
    ⟨0, ({ wCmd w0 0 0x0711 0 [1] with trust.req := none }).setFld SEC_BOOT_TRIAL 1, by unfold CommandRuns; decide +kernel⟩,
    ⟨0, { (wCmd w0 0 0x0711 0 [2]).onSlot 0 (fun z => { z with peer := .spi }) with safe := {} }, by unfold CommandRuns; decide +kernel⟩⟩

theorem test_SecureBoot_met :
    (∃ (s : State) (b : _), s.devRuns = true ∧ s.boot.checking = some b) ∧
    (∃ (s : State), s.devRuns = true ∧ s.boot.settleTests = true) ∧
    (∃ (s : State), s.devRuns = true ∧ s.boot.accepted = true ∧ s.boot.fw = false ∧ s.boot.answered = true) ∧
    (∃ (s : State), s.devRuns = true ∧ s.trust.req = none ∧ s.flash.trial = false) ∧
    (∃ (s : State), s.devRuns = true ∧ s.trust.req = none ∧ s.flash.trial = true) :=
  ⟨⟨{ w0 with boot.checking := some 0 }, 0, by decide +kernel⟩,
    ⟨{ w0 with boot.settleTests := true }, by decide +kernel⟩,
    ⟨{ { { w0 with boot.accepted := true } with boot.fw := false } with boot.answered := true }, by decide +kernel⟩,
    ⟨{ { w0 with trust.req := none } with flash.trial := false }, by decide +kernel⟩,
    ⟨{ { w0 with trust.req := none } with flash.trial := true }, by decide +kernel⟩⟩

theorem test_DeviceReset_met :
    (∃ (s : State), s.dev.inReset = false) ∧
    (∃ (s : State), s.dev.inReset = false ∧ s.dev.retain = false ∧ s.power.active = none) ∧
    (∃ (s : State), s.dev.inReset = true ∧ s.boot.vcoreBad = false) ∧
    (∃ (s : State) (cause : _), cause < 6 ∧ s.trust.req = none) ∧
    (∃ (s : State) (v : BitVec 16), s.dev.inReset = true ∧ s.boot.vcoreBad = false ∧ v.toNat ≤ s.otp.vRun + 15 ∧ s.otp.vRun ≤ v.toNat + 15 ∧ s.flash.recordOk = true ∧ s.flash.trial = false) ∧
    (∃ (s : State), s.dev.inReset = true ∧ s.boot.vcoreBad = false) ∧
    (∃ (s : State) (v : BitVec 16), s.dev.inReset = true ∧ s.boot.vcoreBad = true ∧ v.toNat ≤ s.otp.vRun + 15 ∧ s.otp.vRun ≤ v.toNat + 15) :=
  ⟨⟨{ w0 with dev.inReset := false }, by decide +kernel⟩,
    ⟨{ { { w0 with dev.inReset := false } with dev.retain := false } with power.active := none }, by decide +kernel⟩,
    ⟨{ { w0 with dev.inReset := true } with boot.vcoreBad := false }, by decide +kernel⟩,
    ⟨{ w0 with trust.req := none }, 0, by decide +kernel⟩,
    ⟨{ { { { w0 with dev.inReset := true } with boot.vcoreBad := false } with flash.recordOk := true } with flash.trial := false }, 850, by decide +kernel⟩,
    ⟨{ { w0 with dev.inReset := true } with boot.vcoreBad := false }, by decide +kernel⟩,
    ⟨{ { w0 with dev.inReset := true } with boot.vcoreBad := true }, 850, by decide +kernel⟩⟩

theorem test_Clocks_met :
    (∃ (p : Fin 2) (s : State), s.dev.inReset = false ∧ s.dev.retain = false ∧ s.pllLostNow p = false ∧ s.islandsOn p = 0) ∧
    (∃ (p : Fin 2) (s : State), s.dev.inReset = false ∧ s.dev.retain = false ∧ s.pllLostNow p = false ∧ s.islandsOn p ≠ 0 ∧ s.twinServes (1 - p.val) = true) ∧
    (∃ (p : Fin 2) (s : State), s.dev.inReset = false ∧ s.dev.retain = false ∧ s.pllLostNow p = false ∧ s.islandsOn p ≠ 0 ∧ s.twinServes (1 - p.val) = false) ∧
    (∃ (s : State), s.dev.inReset = false ∧ s.dev.retain = false ∧ s.clk.moving ≠ 0 ∧ s.clk.toB = true) ∧
    (∃ (s : State), s.dev.inReset = false ∧ s.dev.retain = false ∧ s.clk.lostA = true) ∧
    (∃ (p : Fin 2) (s : State), s.dev.inReset = false ∧ s.dev.retain = false ∧ s.pllLostNow p = false) ∧
    (∃ (p : Fin 2) (s : State), s.dev.inReset = false ∧ s.dev.retain = false ∧ s.flag (CLK_ANALOG_LOCK p) = true) ∧
    (∃ (p : Fin 2) (s : State), s.dev.inReset = false ∧ s.dev.retain = false ∧ s.flag (CLK_PRESENT p) = true ∧ s.flag (CLK_DIG_LOCK p) = true ∧ s.flag (CLK_ANALOG_LOCK p) = true) ∧
    (∃ (s : State), s.dev.inReset = false ∧ s.dev.retain = false ∧ s.devRuns = true) ∧
    (∃ (p : Fin 2) (s : State), s.dev.inReset = false ∧ s.dev.retain = false ∧ s.flag (CLK_COASTING p) = false ∧ s.pllLostNow p = false ∧ s.slk.slewA = 0 ∧ s.slk.slewB = 0 ∧ 1 ≤ s.fld (CLK_PHASE_STEP_PENDING p) ∧ s.fld (CLK_PHASE_STEP_PENDING p) < 4096) ∧
    (∃ (s : State), s.dev.inReset = false ∧ s.dev.retain = false ∧ s.clk.refLost = false ∧ s.slk.busy = false) ∧
    (∃ (s : State), s.dev.inReset = false ∧ s.dev.retain = false ∧ s.refBack = true) ∧
    (∃ (s : State), s.dev.inReset = false ∧ s.dev.retain = false ∧ s.clk.refLost = true ∧ s.refBack = false ∧ s.clk.moving = 0) ∧
    (∃ (s : State), s.dev.inReset = false ∧ s.dev.retain = false ∧ s.clk.refLost = true ∧ s.refBack = false ∧ s.clk.moving ≠ 0) ∧
    (∃ (s : State), s.dev.inReset = false ∧ s.dev.retain = false ∧ s.clk.refLost = true ∧ s.refBack = false) ∧
    (∃ (s : State), s.dev.inReset = false ∧ s.dev.retain = false ∧ s.clk.refLost = true ∧ s.flag (CLK_BUILDOUT 0) = true) ∧
    (∃ (s : State), s.dev.inReset = false ∧ s.dev.retain = false) :=
  ⟨⟨0, ({ { w0 with dev.inReset := false } with dev.retain := false }).setFld CLK_STATUS_SRC_B 127, by decide +kernel⟩,
    ⟨0, ({ { w0 with dev.inReset := false } with dev.retain := false }).setFld (CLK_TWIN_READY 1) 1, by decide +kernel⟩,
    ⟨0, { { w0 with dev.inReset := false } with dev.retain := false }, by decide +kernel⟩,
    ⟨{ { { w0 with dev.inReset := false } with dev.retain := false } with clk := { moving := 1, toB := true } }, by decide +kernel⟩,
    ⟨{ { { w0 with dev.inReset := false } with dev.retain := false } with clk.lostA := true }, by decide +kernel⟩,
    ⟨0, { { w0 with dev.inReset := false } with dev.retain := false }, by decide +kernel⟩,
    ⟨0, ({ { w0 with dev.inReset := false } with dev.retain := false }).setFld (CLK_ANALOG_LOCK 0) 1, by decide +kernel⟩,
    ⟨0, ((({ { w0 with dev.inReset := false } with dev.retain := false }).setFld (CLK_PRESENT 0) 1).setFld (CLK_DIG_LOCK 0) 1).setFld (CLK_ANALOG_LOCK 0) 1, by decide +kernel⟩,
    ⟨{ { w0 with dev.inReset := false } with dev.retain := false }, by decide +kernel⟩,
    ⟨0, ({ { { { w0 with dev.inReset := false } with dev.retain := false } with slk.slewA := 0 } with slk.slewB := 0 }).setFld (CLK_PHASE_STEP_PENDING 0) 1, by decide +kernel⟩,
    ⟨{ { { { w0 with dev.inReset := false } with dev.retain := false } with clk.refLost := false } with slk.busy := false }, by decide +kernel⟩,
    ⟨({ { w0 with dev.inReset := false } with dev.retain := false }).setFld (CLK_BUILDOUT 0) 1, by decide +kernel⟩,
    ⟨{ { { { w0 with dev.inReset := false } with dev.retain := false } with clk.refLost := true } with clk.moving := 0 }, by decide +kernel⟩,
    ⟨{ { { w0 with dev.inReset := false } with dev.retain := false } with clk := { refLost := true, moving := 1 } }, by decide +kernel⟩,
    ⟨{ { { w0 with dev.inReset := false } with dev.retain := false } with clk.refLost := true }, by decide +kernel⟩,
    ⟨({ { { w0 with dev.inReset := false } with dev.retain := false } with clk.refLost := true }).setFld (CLK_BUILDOUT 0) 1, by decide +kernel⟩,
    ⟨{ { w0 with dev.inReset := false } with dev.retain := false }, by decide +kernel⟩⟩

theorem test_Regulator_met :
    (∃ (s : State) (v : Nat), s.power.want = some v ∧ s.fld PWR_STATUS_STATE ≠ 2) ∧
    (∃ (s : State) (v : Nat), s.power.want = some v ∧ s.fld PWR_STATUS_STATE = 2 ∧ s.clock.frozen = false) ∧
    (∃ (s : State) (v : Nat), s.power.active = some v) ∧
    (∃ (s : State) (v : Nat), s.power.active = some v) ∧
    (∃ (s : State) (v : Nat) (vread : BitVec 16), s.power.active = some v ∧ v < 65536 ∧ vread.toNat ≤ v + 15 ∧ v ≤ vread.toNat + 15 ∧ s.now ≤ s.power.writtenAt + 800000) ∧
    (∃ (s : State) (v : Nat) (vread : BitVec 16), s.power.active = some v ∧ vread.toNat ≤ v + 15 ∧ v ≤ vread.toNat + 15 ∧ s.power.writtenAt + 800000 < s.now) ∧
    (∃ (s : State) (v : Nat) (vread : BitVec 16), s.power.active = some v ∧ v + 15 < vread.toNat) ∧
    (∃ (s : State) (v : Nat), s.power.active = some v ∧ s.fld PWR_STATUS_STATE ≠ 2) :=
  ⟨⟨{ w0 with power.want := some 0 }, 0, by decide +kernel⟩,
    ⟨{ ({ w0 with power.want := some 0 }).setFld PWR_STATUS_STATE 2 with clock.frozen := false }, 0, by decide +kernel⟩,
    ⟨{ w0 with power.active := some 0 }, 0, by decide +kernel⟩,
    ⟨{ w0 with power.active := some 0 }, 0, by decide +kernel⟩,
    ⟨{ w0 with power.active := some 0 }, 0, 0, by decide +kernel⟩,
    ⟨{ { w0 with power.active := some 0 } with now := 1000000 }, 0, 0, by decide +kernel⟩,
    ⟨{ w0 with power.active := some 0 }, 0, 16, by decide +kernel⟩,
    ⟨{ w0 with power.active := some 0 }, 0, by decide +kernel⟩⟩

theorem test_PowerStates_met :
    (∃ (i : Fin 32) (s : State), CommandRuns s i 0x0800 ∧ s.powerTarget i = 0) ∧
    (∃ (i : Fin 32) (s : State), CommandRuns s i 0x0800 ∧ s.powerTarget i = 1 ∧ s.fld PWR_STATUS_STATE = 1) ∧
    (∃ (i : Fin 32) (s : State), CommandRuns s i 0x0800 ∧ s.powerTarget i = 1 ∧ s.fld PWR_STATUS_STATE ≠ 1 ∧ (∀ n, n < 4 → s.grantS n = true → s.flag (GFM_CTRL_RUN_REQ n) = false ∧ ((s.stnOf n).st = .disabled ∨ (s.stnOf n).st = .ready ∨ (s.stnOf n).st = .tripped))) ∧
    (∃ (i : Fin 32) (s : State), CommandRuns s i 0x0800 ∧ s.powerTarget i = 2 ∧ s.retainRefusal i = none) ∧
    (∃ (i : Fin 32) (s : State) (d : Nat), CommandRuns s i 0x0800 ∧ s.powerTarget i = 2 ∧ s.retainRefusal i = some d) ∧
    (∃ (i : Fin 32) (s : State), CommandRuns s i 0x0801) ∧
    (∃ (s : State), s.fld PWR_STATUS_STATE = 2 ∧ s.dev.retain = false ∧ s.clock.frozen = true ∧ s.clock.thaw = false ∧ s.fld PMB_STATUS_TARGET = 550 ∧ s.power.wakeLatched = false) ∧
    (∃ (s : State), s.fld PWR_STATUS_STATE = 2 ∧ s.dev.retain = true) ∧
    (∃ (s : State), s.fld PWR_STATUS_STATE = 2 ∧ s.dev.retain = false) ∧
    (∃ (s : State), s.fld PWR_STATUS_STATE ≤ 1) ∧
    (∃ (s : State), s.fld PWR_STATUS_STATE = 3 ∧ s.power.want = none ∧ s.power.active = none ∧ s.fld PMB_STATUS_TARGET = s.fld PMB_STATUS_V_RUN) ∧
    (∃ (s : State), s.fld PWR_STATUS_STATE = 3 ∧ s.power.want = none ∧ s.power.active = none ∧ s.fld PMB_STATUS_TARGET ≠ s.fld PMB_STATUS_V_RUN) :=
  ⟨⟨0, wCmd w0 0 0x0800 0 [], by unfold CommandRuns; decide +kernel⟩,
    ⟨0, (wCmd w0 0 0x0800 0 [1]).setFld PWR_STATUS_STATE 1, by unfold CommandRuns; decide +kernel⟩,
    ⟨0, wCmd w0 0 0x0800 0 [1], by unfold CommandRuns; decide +kernel⟩,
    ⟨0, wCmd w0 0 0x0800 0 [2], by unfold CommandRuns; decide +kernel⟩,
    ⟨0, (wCmd w0 0 0x0800 0 [2]).onStn 0 (fun z => { z with st := .running }), 0x0110, by unfold CommandRuns; decide +kernel⟩,
    ⟨0, wCmd w0 0 0x0801 0 [], by unfold CommandRuns; decide +kernel⟩,
    ⟨{ ({ { { w0.setFld PWR_STATUS_STATE 2 with dev.retain := false } with clock.frozen := true } with clock.thaw := false }).setFld PMB_STATUS_TARGET 550 with power.wakeLatched := false }, by decide +kernel⟩,
    ⟨{ w0.setFld PWR_STATUS_STATE 2 with dev.retain := true }, by decide +kernel⟩,
    ⟨{ w0.setFld PWR_STATUS_STATE 2 with dev.retain := false }, by decide +kernel⟩,
    ⟨w0, by decide +kernel⟩,
    ⟨{ { w0.setFld PWR_STATUS_STATE 3 with power.want := none } with power.active := none }, by decide +kernel⟩,
    ⟨({ { w0.setFld PWR_STATUS_STATE 3 with power.want := none } with power.active := none }).setFld PMB_STATUS_TARGET 1, by decide +kernel⟩⟩

theorem test_LinkPackets_met :
    (∃ (p : Fin 3) (h : SlkHdr) (s : State), s.devRuns = true ∧ s.slkOn = true ∧ s.fld (SLK_PORT_STATE p) = 1 ∧ h.crcOk = true ∧ h.source = s.fld (SLK_PORT_PEER p)) ∧
    (∃ (p : Fin 3) (h : SlkHdr) (s : State), s.devRuns = true ∧ s.slkOn = true ∧ s.fld (SLK_PORT_STATE p) = 1 ∧ h.crcOk = true ∧ h.source ≠ s.fld (SLK_PORT_PEER p)) ∧
    (∃ (p : Fin 3) (h : SlkHdr) (s : State), s.devRuns = true ∧ s.slkOn = true ∧ s.fld (SLK_PORT_STATE p) = 2 ∧ h.crcOk = false) ∧
    (∃ (p : Fin 3) (h : SlkHdr) (s : State), s.devRuns = true ∧ s.slkOn = true ∧ PacketTaken s p h) ∧
    (∃ (p : Fin 3) (h : SlkHdr) (s : State) (q : Byte) (w : SlkWait), s.devRuns = true ∧ s.slkOn = true ∧ PacketTaken s p h ∧ (s.slkPortOf p).waits.find? (fun w => w.pkt.seq == q.toNat) = some w ∧ w.pkt.typ ≠ 0x10) ∧
    (∃ (p : Fin 3) (h : SlkHdr) (s : State) (q : Byte) (w : SlkWait) (u : State), s.devRuns = true ∧ s.slkOn = true ∧ PacketTaken s p h ∧ (s.slkPortOf p).waits.find? (fun w => w.pkt.seq == q.toNat) = some w ∧ w.repeats < 3 ∧ s.now ≤ w.firstAt + 20 * 400 ∧ u = (s.onSlkPort p (fun u => { u with tx := (w.pkt :: u.tx).take 8, waits := u.waits.map (fun x => if x = w then { x with repeats := x.repeats + 1 } else x) })).count SLK_CNT_RETRY_CNT) ∧
    (∃ (p : Fin 3) (h : SlkHdr) (s : State) (q : Byte) (w : SlkWait), s.devRuns = true ∧ s.slkOn = true ∧ PacketTaken s p h ∧ (s.slkPortOf p).waits.find? (fun w => w.pkt.seq == q.toNat) = some w ∧ w.repeats = 3 ∧ w.pkt.typ = 0x04) ∧
    (∃ (p : Fin 3) (s : State), s.devRuns = true ∧ s.slkOn = true ∧ s.fld (SLK_PORT_STATE p) = 1) ∧
    (∃ (p : Fin 3) (s : State), s.devRuns = true ∧ s.slkOn = true ∧ s.fld (SLK_PORT_STATE p) = 2) :=
  ⟨⟨0, wHdr, w0.setFld (SLK_PORT_STATE 0) 1, by decide +kernel⟩,
    ⟨0, ⟨1, 0, 0, 0, true⟩, w0.setFld (SLK_PORT_STATE 0) 1, by decide +kernel⟩,
    ⟨0, ⟨0, 0, 0, 0, false⟩, w0.setFld (SLK_PORT_STATE 0) 2, by decide +kernel⟩,
    ⟨0, wHdr, w0.setFld (SLK_PORT_STATE 0) 2, by unfold PacketTaken; decide +kernel⟩,
    ⟨0, wHdr, (w0.setFld (SLK_PORT_STATE 0) 2).onSlkPort 0 (fun z => { z with waits := [⟨wPkt 0x04, 0, 0⟩] }), 0, ⟨wPkt 0x04, 0, 0⟩, by unfold PacketTaken; decide +kernel⟩,
    ⟨0, wHdr, ((w0.setFld (SLK_PORT_STATE 0) 2).onSlkPort 0 (fun z => { z with waits := [⟨wPkt 0x04, 0, 0⟩] })), 0, ⟨wPkt 0x04, 0, 0⟩, ((((w0.setFld (SLK_PORT_STATE 0) 2).onSlkPort 0 (fun z => { z with waits := [⟨wPkt 0x04, 0, 0⟩] })).onSlkPort 0 (fun u => { u with tx := ((⟨wPkt 0x04, 0, 0⟩ : SlkWait).pkt :: u.tx).take 8, waits := u.waits.map (fun x => if x = (⟨wPkt 0x04, 0, 0⟩ : SlkWait) then { x with repeats := x.repeats + 1 } else x) })).count SLK_CNT_RETRY_CNT), by refine ⟨?_, ?_, ?_, ?_, ?_, ?_, rfl⟩ <;> (try unfold PacketTaken) <;> decide +kernel⟩,
    ⟨0, wHdr, ((w0.setFld (SLK_PORT_STATE 0) 2).onSlkPort 0 (fun z => { z with waits := [⟨wPkt 0x04, 0, 3⟩] })), 0, ⟨wPkt 0x04, 0, 3⟩, by unfold PacketTaken; decide +kernel⟩,
    ⟨0, w0.setFld (SLK_PORT_STATE 0) 1, by decide +kernel⟩,
    ⟨0, w0.setFld (SLK_PORT_STATE 0) 2, by decide +kernel⟩⟩

theorem test_Alignment_met :
    (∃ (s : State), s.grantSlk = true ∧ s.devRuns = true ∧ s.position = 0 ∧ s.slk.busy = false ∧ s.alignIdle = true ∧ s.slkUp 0 = true) ∧
    (∃ (s : State), s.grantSlk = true ∧ s.devRuns = true ∧ (s.position ≠ 0 ∨ s.slk.busy = true)) ∧
    (∃ (s : State), s.grantSlk = true ∧ s.islandsRun = true ∧ s.position = 0 ∧ s.slk.sent = 1) ∧
    (∃ (s : State), s.grantSlk = true ∧ s.islandsRun = true ∧ s.position ≠ 0 ∧ s.slk.busy = true ∧ s.slk.startNext = true) ∧
    (∃ (s : State), s.grantSlk = true ∧ s.islandsRun = true ∧ s.position = 0 ∧ s.slk.busy = true ∧ s.slk.measured = true) ∧
    (∃ (s : State), s.grantSlk = true ∧ s.islandsRun = true ∧ s.slk.busy = true ∧ s.slk.releaseDue = true) ∧
    (∃ (s : State), s.grantSlk = true ∧ s.islandsRun = true ∧ s.position = 0 ∧ s.flag SLK_STATUS_ALIGNED = true) ∧
    (∃ (s : State) (p : Fin 3) (h : SlkHdr) (k : _), s.grantSlk = true ∧ PacketTaken s p h ∧ s.position ≠ 0 ∧ k ≠ 0 ∧ s.flag SLK_STATUS_ALIGNED = true) ∧
    (∃ (s : State) (p : Fin 3) (h : SlkHdr), s.grantSlk = true ∧ PacketTaken s p h ∧ s.position ≠ 0) ∧
    (∃ (s : State) (e : Int), s.grantSlk = true ∧ e.natAbs ≤ 1) ∧
    (∃ (s : State) (e : Int), s.grantSlk = true ∧ 1 < e.natAbs ∧ e.natAbs ≤ 4095) ∧
    (∃ (s : State) (e : Int), s.grantSlk = true ∧ 256000 < e.natAbs) :=
  ⟨⟨({ w0 with slk.busy := false }).setFld (SLK_PORT_STATE 0) 2, by decide +kernel⟩,
    ⟨w0.setFld SYS_POS_POS 1, by decide +kernel⟩,
    ⟨{ w0 with slk.sent := 1 }, by decide +kernel⟩,
    ⟨({ { w0 with slk.busy := true } with slk.startNext := true }).setFld SYS_POS_POS 1, by decide +kernel⟩,
    ⟨{ { w0 with slk.busy := true } with slk.measured := true }, by decide +kernel⟩,
    ⟨{ { w0 with slk.busy := true } with slk.releaseDue := true }, by decide +kernel⟩,
    ⟨w0.setFld SLK_STATUS_ALIGNED 1, by decide +kernel⟩,
    ⟨((w0.setFld (SLK_PORT_STATE 0) 2).setFld SLK_STATUS_ALIGNED 1).setFld SYS_POS_POS 1, 0, wHdr, 1, by unfold PacketTaken; decide +kernel⟩,
    ⟨(w0.setFld (SLK_PORT_STATE 0) 2).setFld SYS_POS_POS 1, 0, wHdr, by unfold PacketTaken; decide +kernel⟩,
    ⟨w0, 0, by decide +kernel⟩,
    ⟨w0, 2, by decide +kernel⟩,
    ⟨w0, 256001, by decide +kernel⟩⟩

theorem test_CrossChecks_met :
    (∃ (k : Fin 8) (s : State) (p : Fin 3) (h : SlkHdr), PacketTaken s p h ∧ s.xchkOn k = true ∧ s.fld (SLK_XCHK_PEER k) = s.fld (SLK_PORT_PEER p) ∧ s.slk.samples = []) ∧
    (∃ (k : Fin 8) (s : State) (p : Fin 3) (h : SlkHdr) (tick : Nat) (t0 : Nat) (v : Int) (w : Int), PacketTaken s p h ∧ s.xchkOn k = true ∧ s.fld (SLK_XCHK_PEER k) = s.fld (SLK_PORT_PEER p) ∧ s.slk.samples = [⟨k, true, t0, w⟩] ∧ t0 ≤ tick + 2 ∧ tick ≤ t0 + 2 ∧ s.fld (SLK_XCHK_TOL k) < (v - w).natAbs) ∧
    (∃ (k : Fin 8) (s : State) (p : Fin 3) (h : SlkHdr) (tick : Nat) (t0 : Nat) (v : Int) (w : Int), PacketTaken s p h ∧ s.xchkOn k = true ∧ s.fld (SLK_XCHK_PEER k) = s.fld (SLK_PORT_PEER p) ∧ s.slk.samples = [⟨k, true, t0, w⟩] ∧ t0 ≤ tick + 2 ∧ tick ≤ t0 + 2 ∧ (v - w).natAbs ≤ s.fld (SLK_XCHK_TOL k)) ∧
    (∃ (k : Fin 8) (s : State) (x : XSample) (rest : List XSample), s.devRuns = true ∧ s.slk.samples = x :: rest ∧ x.entry = k.val) :=
  ⟨⟨0, (({ w0.setFld (SLK_PORT_STATE 0) 2 with slk.samples := [] }).setFld SLK_FLAGS_ALIGN_DONE 1).setFld (SLK_XCHK_EN 0) 1, 0, wHdr, by unfold PacketTaken; decide +kernel⟩,
    ⟨0, (({ w0.setFld (SLK_PORT_STATE 0) 2 with slk.samples := [⟨0, true, 0, 0⟩] }).setFld SLK_FLAGS_ALIGN_DONE 1).setFld (SLK_XCHK_EN 0) 1, 0, wHdr, 0, 0, 1, 0, by unfold PacketTaken; decide +kernel⟩,
    ⟨0, (({ w0.setFld (SLK_PORT_STATE 0) 2 with slk.samples := [⟨0, true, 0, 0⟩] }).setFld SLK_FLAGS_ALIGN_DONE 1).setFld (SLK_XCHK_EN 0) 1, 0, wHdr, 0, 0, 0, 0, by unfold PacketTaken; decide +kernel⟩,
    ⟨0, { w0 with slk.samples := (⟨0, true, 0, 0⟩) :: ([]) }, ⟨0, true, 0, 0⟩, [], by decide +kernel⟩⟩

theorem test_PeerOperations_met :
    (∃ (p : Fin 3) (h : SlkHdr) (s : State) (ofs : Nat) (data : List Byte), PacketTaken s p h ∧ ofs + data.length ≤ 25165824) ∧
    (∃ (p : Fin 3) (h : SlkHdr) (s : State) (len : Nat) (hash : List Byte) (body : ImageBody), PacketTaken s p h ∧ len ≤ 25165824 ∧ (s.slkPortOf p).base = some 0 ∧ Config.sha384 (s.staged 0 len) = hash ∧ s.swapping = false ∧ headerOk (imgPayload (s.staged 0 len)) body = true ∧ imageRefused (imageOfPayload (imgPayload (s.staged 0 len)) body) = false) ∧
    (∃ (p : Fin 3) (h : SlkHdr) (s : State) (kind : _), PacketTaken s p h ∧ kind ≠ 1 ∧ kind ≠ 3) ∧
    (∃ (p : Fin 3) (h : SlkHdr) (s : State), PacketTaken s p h) ∧
    (∃ (p : Fin 3) (h : SlkHdr) (s : State) (j : Nat) (target : _) (actions : _) (kind : _) (ofs : _) (len : _) (nonce : _) (area : _), PacketTaken s p h ∧ s.slkJob h.tag = some j ∧ (s.jobOf j).kind = .recover target actions kind ofs len nonce area) ∧
    (∃ (p : Fin 3) (h : SlkHdr) (s : State), PacketTaken s p h ∧ s.boot.restartAt = none ∧ s.trust.req = none ∧ s.flash.trial = false) ∧
    (∃ (p : Fin 3) (h : SlkHdr) (s : State) (at0 : _), PacketTaken s p h ∧ s.boot.restartAt = some at0 ∧ s.now < at0 + 10000000 * 400 ∧ at0 ≤ s.now) ∧
    (∃ (p : Fin 3) (h : SlkHdr) (s : State), PacketTaken s p h ∧ s.anyEnable = true) ∧
    (∃ (p : Fin 3) (h : SlkHdr) (s : State), PacketTaken s p h ∧ s.anyEnable = false ∧ s.dev.inReset = false) ∧
    (∃ (p : Fin 3) (h : SlkHdr) (s : State), PacketTaken s p h ∧ s.activatable = none) ∧
    (∃ (p : Fin 3) (h : SlkHdr) (s : State) (b : Bool), PacketTaken s p h ∧ s.activatable = some b ∧ s.monitor = true ∧ s.canRestartOn b = true) ∧
    (∃ (p : Fin 3) (h : SlkHdr) (s : State), PacketTaken s p h ∧ s.slkJob h.tag = none) ∧
    (∃ (p : Fin 3) (h : SlkHdr) (s : State) (status : Byte) (j : Nat) (target : _) (actions : _) (kind : _) (ofs : _) (len : _) (nonce : _) (area : _), PacketTaken s p h ∧ s.slkJob h.tag = some j ∧ (s.jobOf j).kind = .recover target actions kind ofs len nonce area ∧ status ≠ 0) :=
  ⟨⟨0, wHdr, w0.setFld (SLK_PORT_STATE 0) 2, 0, [1], by unfold PacketTaken; decide +kernel⟩,
    ⟨0, wHdr, (((wStaged.setFld (SLK_PORT_STATE 0) 2).onSlkPort 0 (fun z => { z with base := some 0 }))), 305, (Config.sha384 ((((wStaged.setFld (SLK_PORT_STATE 0) 2).onSlkPort 0 (fun z => { z with base := some 0 }))).staged 0 305)), wImgOk.body, by refine ⟨?_, ?_, ?_, rfl, ?_, ?_, ?_⟩ <;> (try unfold PacketTaken) <;> decide +kernel⟩,
    ⟨0, wHdr, w0.setFld (SLK_PORT_STATE 0) 2, 0, by unfold PacketTaken; decide +kernel⟩,
    ⟨0, wHdr, w0.setFld (SLK_PORT_STATE 0) 2, by unfold PacketTaken; decide +kernel⟩,
    ⟨0, wHdr, ((w0.onJob 0 (fun z => { z with held := true, kind := .recover 0 0 0 0 0 [] 0 }))).setFld (SLK_PORT_STATE 0) 2, 0, 0, 0, 0, 0, 0, [], 0, by unfold PacketTaken; decide +kernel⟩,
    ⟨0, wHdr, { { { w0.setFld (SLK_PORT_STATE 0) 2 with boot.restartAt := none } with trust.req := none } with flash.trial := false }, by unfold PacketTaken; decide +kernel⟩,
    ⟨0, wHdr, { w0.setFld (SLK_PORT_STATE 0) 2 with boot.restartAt := some 0 }, 0, by unfold PacketTaken; decide +kernel⟩,
    ⟨0, wHdr, (w0.setFld (SLK_PORT_STATE 0) 2).onHb 0 0 (fun z => { z with eff := true }), by unfold PacketTaken; decide +kernel⟩,
    ⟨0, wHdr, { w0.setFld (SLK_PORT_STATE 0) 2 with dev.inReset := false }, by unfold PacketTaken; decide +kernel⟩,
    ⟨0, wHdr, w0.setFld (SLK_PORT_STATE 0) 2, by unfold PacketTaken; decide +kernel⟩,
    ⟨0, wHdr, { { (w0.setFld (SLK_PORT_STATE 0) 2).setFld SEC_BOOT_MONITOR 1 with trust := { staged := some true } } with safe := {} }, true, by unfold PacketTaken; decide +kernel⟩,
    ⟨0, wHdr, w0.setFld (SLK_PORT_STATE 0) 2, by unfold PacketTaken; decide +kernel⟩,
    ⟨0, wHdr, ((w0.onJob 0 (fun z => { z with held := true, kind := .recover 0 0 0 0 0 [] 0 }))).setFld (SLK_PORT_STATE 0) 2, 1, 0, 0, 0, 0, 0, 0, [], 0, by unfold PacketTaken; decide +kernel⟩⟩

theorem test_SundlinkJobs_met :
    (∃ (i : Fin 32) (s : State), CommandRuns s i 0x0B00 ∧ s.grantSlk = false) ∧
    (∃ (i : Fin 32) (s : State) (ofs : _) (len : _) (hash : List Byte), CommandRuns s i 0x0B00 ∧ s.grantSlk = true ∧ s.freeJob ≠ none ∧ ofs + len ≤ 25165824 ∧ Config.sha384 (s.staged ofs len) = hash) ∧
    (∃ (i : Fin 32) (s : State) (target : _) (actions : _) (area : _), CommandRuns s i 0x0B01 ∧ s.grantSlk = true ∧ s.freeJob ≠ none ∧ target < 4 ∧ target ≠ s.position ∧ actions < 32 ∧ actions.testBit 2 = false ∧ area + 296 ≤ 25165824) ∧
    (∃ (s : State) (j : Fin 4) (kind : _) (mask : _) (ofs : _) (len : _), s.fwRuns = true ∧ (s.jobOf j).kind = .distribute kind mask ofs len ∧ s.jobRuns j = true) ∧
    (∃ (s : State) (j : Fin 4), s.fwRuns = true ∧ s.jobRuns j = true ∧ (s.jobOf j).waitUp = true) :=
  ⟨⟨0, { wCmd w0 0 0x0B00 0 [] with grants := 0 }, by unfold CommandRuns; decide +kernel⟩,
    ⟨0, wCmd w0 0 0x0B00 0 [], 0, 0, Config.sha384 ((wCmd w0 0 0x0B00 0 []).staged 0 0), by refine ⟨?_, ?_, ?_, ?_, rfl⟩ <;> (try unfold CommandRuns) <;> decide +kernel⟩,
    ⟨0, wCmd w0 0 0x0B01 0 [], 1, 0, 0, by unfold CommandRuns; decide +kernel⟩,
    ⟨(w0.onJob 0 (fun z => { z with held := true, kind := .distribute 0 0 0 0 })), 0, 0, 0, 0, 0, by decide +kernel⟩,
    ⟨(w0.onJob 0 (fun z => { z with waitUp := true })).onJob 0 (fun z => { z with held := true }), 0, by decide +kernel⟩⟩

theorem test_StepRunsFrontCommand_met :
    (∃ (c : Instr) (rest : List Instr) (s : State), s.pending = c :: rest) ∧
    (∃ (s : State), s.pending = [] ∧ (s.chestState ≠ 3 ∨ s.dataRuns = false)) ∧
    (∃ (s : State), s.pending = []) :=
  ⟨⟨.timStepApply, [], { w0 with pending := [.timStepApply] }, by decide +kernel⟩,
    ⟨w0, by decide +kernel⟩,
    ⟨w0, by decide +kernel⟩⟩

theorem test_OneTimeRowsOnlyRise_met :
    (∃ (c : Instr) (s : State) (t : State) (i : _), exec c s = .next t ∧ s.otp.grant.getLsbD i = true) ∧
    (∃ (c : Instr) (s : State) (t : State) (i : _), exec c s = .next t ∧ s.otp.revoked.getLsbD i = true) ∧
    (∃ (c : Instr) (s : State) (t : State), exec c s = .next t ∧ s.otp.dbgPerm = true) ∧
    (∃ (c : Instr) (s : State) (t : State), exec c s = .next t) :=
  ⟨⟨.timStepApply, { w0 with otp := { grant := 1, revoked := 1, dbgPerm := true } }, _, 0, rfl, by decide +kernel⟩,
    ⟨.timStepApply, { w0 with otp := { grant := 1, revoked := 1, dbgPerm := true } }, _, 0, rfl, by decide +kernel⟩,
    ⟨.timStepApply, { w0 with otp := { grant := 1, revoked := 1, dbgPerm := true } }, _, rfl, by decide +kernel⟩,
    ⟨.timStepApply, w0, _, rfl⟩⟩

theorem test_StepKeepsMemoryCanonical_met : ∃ (s : State) (t : State), Memory.wf s = true ∧ step s = .next t :=
  ⟨w0, _, by decide, rfl⟩

theorem test_NoShootThrough_met : ∃ (n : Fin 4) (k : Fin 12) (s t : State), ¬ ((s.hbOf n k).gh = true ∧ (s.hbOf n k).gl = true) ∧
    exec (.pulseEdge n k) s = .next t :=
  ⟨0, 0, w0, _, by decide +kernel, rfl⟩

end Sys2Proof.Tests
end

section
/-! SUPPORT. What is programmed once stays (R4, R391, R395): which definitions leave the one-time rows as they are, one lemma
for each definition that changes the state and one for each command, in the order of the model's files. -/

namespace Sys2Proof.Machine

/-- The rows of the OTP that only rise: grants, floors of the security versions, revocations and the port off for good. -/
structure OnceRows where
  grant : Word
  svnFw : Nat
  svnSettle : Nat
  svnTrestle : Nat
  revoked : BitVec 8
  dbgPerm : Bool

def OtpUnit.rows (o : OtpUnit) : OnceRows := ⟨o.grant, o.svnFw, o.svnSettle, o.svnTrestle, o.revoked, o.dbgPerm⟩

/-- A command completes, if at all, with these rows as it found them. -/
def RowsStay (s : State) (a : Answer) : Prop := ∀ t, a = .next t → t.otp.rows = s.otp.rows

/-! ### Choices and repetition -/

@[simp] theorem ite_otp (c : Prop) [Decidable c] (a b : State) : (if c then a else b).otp = if c then a.otp else b.otp :=
  apply_ite State.otp c a b

@[simp] theorem ite_rows (c : Prop) [Decidable c] (a b : OtpUnit) : (if c then a else b).rows = if c then a.rows else b.rows :=
  apply_ite OtpUnit.rows c a b

section
variable {β : Type} {f : State → β → State}

@[simp] theorem foldl_otp (h : ∀ t x, (f t x).otp = t.otp) (l : List β) (s : State) : (l.foldl f s).otp = s.otp :=
  foldl_rel (fun a b => b.otp = a.otp) (fun _ => rfl) (fun _ _ _ h1 h2 => h2.trans h1) f h l s

@[simp] theorem foldl_rows (h : ∀ t x, (f t x).otp.rows = t.otp.rows) (l : List β) (s : State) :
    (l.foldl f s).otp.rows = s.otp.rows :=
  foldl_rel (fun a b => b.otp.rows = a.otp.rows) (fun _ => rfl) (fun _ _ _ h1 h2 => h2.trans h1) f h l s

end

@[simp] theorem State.forAll_otp {f : Nat → State → State} (h : ∀ i t, (f i t).otp = t.otp) (n : Nat) (s : State) :
    (s.forAll n f).otp = s.otp :=
  forAll_rel (fun a b => b.otp = a.otp) (fun _ => rfl) (fun _ _ _ h1 h2 => h2.trans h1) f h n s

/-- Words written one after another, each at the next number. -/
theorem foldlWords_otp {f : State → Nat → Word → State} (h : ∀ t k x, (f t k x).otp = t.otp) (ws : List Word)
    (s : State) (k : Nat) : (ws.foldl (fun (a : State × Nat) x => (f a.1 a.2 x, a.2 + 1)) (s, k)).1.otp = s.otp := by
  induction ws generalizing s k with
  | nil => rfl
  | cons x l ih => exact (ih _ _).trans (h s k x)

/-! ### Conditions under which a block acts -/

section
variable {s t : State}

@[simp] theorem rowsStay_next : RowsStay s (.next t) ↔ t.otp.rows = s.otp.rows := by simp [RowsStay, eq_comm]

variable (h : t.otp.rows = s.otp.rows)
include h

@[simp] theorem rowsStay_whenRun : RowsStay s (whenRun s t) := by simp [whenRun, h]
@[simp] theorem rowsStay_whenDev : RowsStay s (whenDev s t) := by simp [whenDev, h]
@[simp] theorem rowsStay_whenFw : RowsStay s (whenFw s t) := by simp [whenFw, h]
@[simp] theorem rowsStay_whenMgmt : RowsStay s (whenMgmt s t) := by simp [whenMgmt, h]
@[simp] theorem rowsStay_whenData : RowsStay s (whenData s t) := by simp [whenData, h]
@[simp] theorem rowsStay_writeWindow (x : Nat) : RowsStay s (writeWindow x s t) := by simp [writeWindow, h]
@[simp] theorem rowsStay_readWindow (x : Nat) : RowsStay s (readWindow x s t) := by
  simp [readWindow, apply_ite State.otp, h]

end

variable (s : State)

/-! ### The register file, memory and draws -/

@[simp] theorem State.setBytes_otp (s : State) (a : Nat) (l : List Byte) : (s.setBytes a l).otp = s.otp := by
  induction l generalizing s a with
  | nil => rfl
  | cons b t ih => simpa [State.setBytes] using ih (s.setByte a b) (a + 1)

@[simp] theorem State.setWord_otp a w : (s.setWord a w).otp = s.otp := by simp [State.setWord]

@[simp] theorem State.setHoles_otp (s : State) (a : Nat) (l : List Byte) : (s.setHoles a l).otp = s.otp := by
  induction l generalizing s a with
  | nil => rfl
  | cons b t ih => simpa [State.setHoles] using ih (s.setHole a b) (a + 1)

@[simp] theorem State.setDmem_otp e i w : (s.setDmem e i w).otp = s.otp := by simp [State.setDmem]

/-! ### Flags -/

@[simp] theorem State.setFlagIf_otp c f : (s.setFlagIf c f).otp = s.otp := by simp [State.setFlagIf]

/-! ### Operations that several units share -/

@[simp] theorem State.logEvent_otp typ unit index code : (s.logEvent typ unit index code).otp = s.otp := by
  simp [State.logEvent]
@[simp] theorem State.chestTake_otp src time : (s.chestTake src time).otp = s.otp := by simp [State.chestTake]

@[simp] theorem State.chestRecognise_otp src time : (s.chestRecognise src time).otp = s.otp := by
  simp only [State.chestRecognise]
  split <;> simp

@[simp] theorem State.chestTrigger_otp src time : (s.chestTrigger src time).otp = s.otp := by simp [State.chestTrigger]

@[simp] theorem State.chestEvent_otp typ src any : (s.chestEvent typ src any).otp = s.otp := by
  simp only [State.chestEvent]
  split <;> simp

@[simp] theorem State.dropGates_otp n : (s.dropGates n).otp = s.otp := by simp [State.dropGates]
@[simp] theorem State.applySettings_otp : s.applySettings.otp = s.otp := by simp [State.applySettings]
@[simp] theorem State.setSt_otp n st : (s.setSt n st).otp = s.otp := by simp [State.setSt]

@[simp] theorem State.backFld_otp f x : (s.backFld f x).otp = s.otp := by
  simp only [State.backFld]
  split <;> simp

@[simp] theorem State.undoTurn_otp n : (s.undoTurn n).otp = s.otp := by
  simp only [State.undoTurn]
  split <;> simp

@[simp] theorem State.noteTurn_otp n row st : (s.noteTurn n row st).otp = s.otp := by simp [State.noteTurn]
@[simp] theorem State.lowboyFollow_otp n : (s.lowboyFollow n).otp = s.otp := by simp [State.lowboyFollow]
@[simp] theorem State.calmLimits_otp n : (s.calmLimits n).otp = s.otp := by simp [State.calmLimits]
@[simp] theorem State.addCauses_otp n codes : (s.addCauses n codes).otp = s.otp := by simp [State.addCauses]
@[simp] theorem State.enterTripped_otp n within : (s.enterTripped n within).otp = s.otp := by simp [State.enterTripped]
@[simp] theorem State.tripNow_otp n code : (s.tripNow n code).otp = s.otp := by simp [State.tripNow]
@[simp] theorem State.tripSoon_otp n code : (s.tripSoon n code).otp = s.otp := by simp [State.tripSoon]
@[simp] theorem State.testDue_otp k : (s.testDue k).otp = s.otp := by simp [State.testDue]
@[simp] theorem State.runDeferred_otp : s.runDeferred.otp = s.otp := by simp [State.runDeferred]
@[simp] theorem State.soutsLow_otp n : (s.soutsLow n).otp = s.otp := by simp [State.soutsLow]
@[simp] theorem State.failRelease_otp set : (s.failRelease set).otp = s.otp := by simp [State.failRelease]
@[simp] theorem State.holdStation_otp n cause : (s.holdStation n cause).otp = s.otp := by simp [State.holdStation]
@[simp] theorem State.holdAll_otp cause : (s.holdAll cause).otp = s.otp := by simp [State.holdAll]

/-! ### Firmware parameters -/

@[simp] theorem State.setFw_otp p w : (s.setFw p w).otp = s.otp := by simp [State.setFw]
@[simp] theorem State.setClip_otp p i b : (s.setClip p i b).otp = s.otp := by simp [State.setClip]
@[simp] theorem State.cmpCodes_otp n c : (s.cmpCodes n c).otp = s.otp := by simp [State.cmpCodes]
@[simp] theorem State.sfCodes_otp c : (s.sfCodes c).otp = s.otp := by simp [State.sfCodes]
@[simp] theorem State.limitCodes_otp n : (s.limitCodes n).otp = s.otp := by simp [State.limitCodes]

/-! ### The mailbox -/

@[simp] theorem State.send_otp p bs : (s.send p bs).otp = s.otp := by simp [State.send]
@[simp] theorem State.freeSlot_otp i : (s.freeSlot i).otp = s.otp := by simp [State.freeSlot]
@[simp] theorem State.keep_otp p seq crc reply : (s.keep p seq crc reply).otp = s.otp := by simp [State.keep]

@[simp] theorem State.reply_otp i msg : (s.reply i msg).otp = s.otp := by
  simp only [State.reply]
  split <;> simp

@[simp] theorem State.respond_otp i flags payload : (s.respond i flags payload).otp = s.otp := by simp [State.respond]
@[simp] theorem State.answer_otp i payload : (s.answer i payload).otp = s.otp := by simp [State.answer]
@[simp] theorem State.refuse_otp i status detail arg : (s.refuse i status detail arg).otp = s.otp := by simp [State.refuse]
@[simp] theorem State.refuseArg_otp i status arg : (s.refuseArg i status arg).otp = s.otp := by simp [State.refuseArg]
@[simp] theorem State.refuseOpen_otp i status : (s.refuseOpen i status).otp = s.otp := by simp [State.refuseOpen]
@[simp] theorem State.refuseHeader_otp i status detail arg : (s.refuseHeader i status detail arg).otp = s.otp := by
  simp [State.refuseHeader]
@[simp] theorem State.noSlot_otp : s.noSlot.otp = s.otp := by simp [State.noSlot]

@[simp] theorem State.claim_otp : s.claim.otp = s.otp := by
  simp only [State.claim]
  split <;> simp

@[simp] theorem State.post_otp i p got : (s.post i p got).otp = s.otp := by simp [State.post]
@[simp] theorem State.doorbell_otp i : (s.doorbell i).otp = s.otp := by simp [State.doorbell]
@[simp] theorem State.freeHoles_otp w : (s.freeHoles w).otp = s.otp := by simp [State.freeHoles]
@[simp] theorem State.onSession_otp p f : (s.onSession p f).otp = s.otp := by simp [State.onSession]
@[simp] theorem State.endSessions_otp f : (s.endSessions f).otp = s.otp := by simp [State.endSessions]
@[simp] theorem State.jobLimit_otp i : (s.jobLimit i).otp = s.otp := by simp [State.jobLimit]

@[simp] theorem State.startJob_otp i k units : (s.startJob i k units).otp = s.otp := by
  simp only [State.startJob]
  split <;> simp

@[simp] theorem State.endJob_otp j st status : (s.endJob j st status).otp = s.otp := by simp [State.endJob]

@[simp] theorem State.arrive_otp p msg got : (s.arrive p msg got).otp = s.otp := by
  simp only [State.arrive]
  split <;> simp

@[simp] theorem State.netDrop_otp : s.netDrop.otp = s.otp := by simp [State.netDrop]

@[simp] theorem State.receive_otp p msg got : (s.receive p msg got).otp = s.otp := by
  simp only [State.receive]
  split <;> simp

@[simp] theorem State.setCanRx_otp k r : (s.setCanRx k r).otp = s.otp := by simp [State.setCanRx]
@[simp] theorem State.canDrop_otp k : (s.canDrop k).otp = s.otp := by simp [State.canDrop]
@[simp] theorem State.canSegment_otp c p bs last next : (s.canSegment c p bs last next).otp = s.otp := by
  simp [State.canSegment]

@[simp] theorem State.i2cDrop_otp : s.i2cDrop.otp = s.otp := by
  simp only [State.i2cDrop]
  split <;> simp

@[simp] theorem State.dropMessages_otp : s.dropMessages.otp = s.otp := by simp [State.dropMessages]

@[simp] theorem rowsStay_ezCommand {f : State} (h : f.otp.rows = s.otp.rows) (i op : Nat) :
    RowsStay s (ezCommand s i op f) := by
  simp [ezCommand, h]

@[simp] theorem rowsStay_execMbxClaimRead : RowsStay s (execMbxClaimRead s) := by simp [execMbxClaimRead]
@[simp] theorem rowsStay_execMbxDoorbellWrite i : RowsStay s (execMbxDoorbellWrite i s) := by simp [execMbxDoorbellWrite]
@[simp] theorem rowsStay_execMbxFreeWrite w : RowsStay s (execMbxFreeWrite w s) := by simp [execMbxFreeWrite]
@[simp] theorem rowsStay_execClaimExpiry i : RowsStay s (execClaimExpiry i s) := by simp [execClaimExpiry]
@[simp] theorem rowsStay_execSessionTimeout p : RowsStay s (execSessionTimeout p s) := by simp [execSessionTimeout]
@[simp] theorem rowsStay_execEthLinkChange e up : RowsStay s (execEthLinkChange e up s) := by simp [execEthLinkChange]

@[simp] theorem rowsStay_execCommandStart units : RowsStay s (execCommandStart units s) := by
  simp only [execCommandStart]
  repeat' split
  all_goals simp

@[simp] theorem rowsStay_execCommandTimeout i : RowsStay s (execCommandTimeout i s) := by simp [execCommandTimeout]
@[simp] theorem rowsStay_execJobEnd j : RowsStay s (execJobEnd j s) := by simp [execJobEnd]
@[simp] theorem rowsStay_execJobHoldExpiry j : RowsStay s (execJobHoldExpiry j s) := by simp [execJobHoldExpiry]

@[simp] theorem rowsStay_execJobStatus i : RowsStay s (execJobStatus i s) := by
  simp only [execJobStatus]
  split <;> simp

@[simp] theorem rowsStay_execJobCancel i : RowsStay s (execJobCancel i s) := by
  simp only [execJobCancel]
  split <;> simp

@[simp] theorem rowsStay_execUdpDatagram e v6 plain addr port dport msg :
    RowsStay s (execUdpDatagram e v6 plain addr port dport msg s) := by
  simp [execUdpDatagram]

@[simp] theorem rowsStay_execCanFdSegment c ident fd data : RowsStay s (execCanFdSegment c ident fd data s) := by
  simp only [execCanFdSegment]
  repeat' split
  all_goals simp

@[simp] theorem rowsStay_execCanSegmentTimeout c p : RowsStay s (execCanSegmentTimeout c p s) := by
  simp [execCanSegmentTimeout]

@[simp] theorem rowsStay_execI2cWriteTransaction bs : RowsStay s (execI2cWriteTransaction bs s) := by
  simp only [execI2cWriteTransaction]
  repeat' split
  all_goals simp

@[simp] theorem rowsStay_execI2cReadTransaction n : RowsStay s (execI2cReadTransaction n s) := by
  simp [execI2cReadTransaction]

@[simp] theorem rowsStay_execIcmpArpNdFrame e kind v6 own addr data :
    RowsStay s (execIcmpArpNdFrame e kind v6 own addr data s) := by
  simp [execIcmpArpNdFrame]

@[simp] theorem rowsStay_execModbusConnect : RowsStay s (execModbusConnect s) := by simp [execModbusConnect]
@[simp] theorem rowsStay_execModbusDisconnect : RowsStay s (execModbusDisconnect s) := by simp [execModbusDisconnect]
@[simp] theorem rowsStay_execEcho i : RowsStay s (execEcho i s) := by simp [execEcho]

/-! ### Hosts of Eznel -/

@[simp] theorem State.setSlkState_otp p st : (s.setSlkState p st).otp = s.otp := by simp [State.setSlkState]
@[simp] theorem State.slkSend_otp p typ tag payload : (s.slkSend p typ tag payload).otp = s.otp := by simp [State.slkSend]

@[simp] theorem State.slkSendTo_otp pos typ tag payload : (s.slkSendTo pos typ tag payload).otp = s.otp := by
  simp only [State.slkSendTo]
  split <;> simp

@[simp] theorem State.xchkSample_otp i own tick v : (s.xchkSample i own tick v).otp = s.otp := by
  simp only [State.xchkSample]
  split <;> simp

@[simp] theorem State.xchkLocal_otp src v : (s.xchkLocal src v).otp = s.otp := by simp [State.xchkLocal]

/-! ### Register writes -/

@[simp] theorem State.writeReg_otp a wr idle late refused lateFlag :
    (s.writeReg a wr idle late refused lateFlag).otp = s.otp := by
  simp only [State.writeReg]
  repeat' split
  all_goals simp

@[simp] theorem State.transfer_otp a : (s.transfer a).otp = s.otp := by simp [State.transfer]

/-! ### Blocks and loops of an image -/

@[simp] theorem State.takeBudget_otp n x : (s.takeBudget n x).otp = s.otp := by simp [State.takeBudget]
@[simp] theorem State.blkEnvelope_otp n : (s.blkEnvelope n).otp = s.otp := by simp [State.blkEnvelope]
@[simp] theorem State.blkGovernor_otp n : (s.blkGovernor n).otp = s.otp := by simp [State.blkGovernor]
@[simp] theorem State.markEmf_otp n clamped : (s.markEmf n clamped).otp = s.otp := by simp [State.markEmf]
@[simp] theorem State.rampStep_otp n target tRamp : (s.rampStep n target tRamp).otp = s.otp := by simp [State.rampStep]
@[simp] theorem State.exciteStep_otp n : (s.exciteStep n).otp = s.otp := by simp [State.exciteStep]
@[simp] theorem State.matchStep_otp n : (s.matchStep n).otp = s.otp := by simp [State.matchStep]

@[simp] theorem State.blkExcitation_otp n : (s.blkExcitation n).otp = s.otp := by
  simp only [State.blkExcitation]
  repeat' split
  all_goals simp

@[simp] theorem State.blkDamping_otp n : (s.blkDamping n).otp = s.otp := by simp [State.blkDamping]
@[simp] theorem State.blkPower_otp n : (s.blkPower n).otp = s.otp := by simp [State.blkPower]
@[simp] theorem State.blkSpeed_otp n : (s.blkSpeed n).otp = s.otp := by simp [State.blkSpeed]
@[simp] theorem State.blkAngle_otp n : (s.blkAngle n).otp = s.otp := by simp [State.blkAngle]
@[simp] theorem State.blkAbcDq_otp n v i vdc : (s.blkAbcDq n v i vdc).otp = s.otp := by simp [State.blkAbcDq]
@[simp] theorem State.blkCeiling_otp n : (s.blkCeiling n).otp = s.otp := by simp [State.blkCeiling]
@[simp] theorem State.countLimTime_otp n : (s.countLimTime n).otp = s.otp := by simp [State.countLimTime]
@[simp] theorem State.blkCurLimit_otp n : (s.blkCurLimit n).otp = s.otp := by simp [State.blkCurLimit]
@[simp] theorem State.blkVirtImp_otp n : (s.blkVirtImp n).otp = s.otp := by simp [State.blkVirtImp]
@[simp] theorem State.blkHarmonic_otp n ch : (s.blkHarmonic n ch).otp = s.otp := by simp [State.blkHarmonic]
@[simp] theorem State.setLoc_otp n k j x : (s.setLoc n k j x).otp = s.otp := by simp [State.setLoc]
@[simp] theorem State.setLoc2_otp n k j v : (s.setLoc2 n k j v).otp = s.otp := by simp [State.setLoc2]
@[simp] theorem State.runPiPair_otp n k j e ff dt lo hi hold : (s.runPiPair n k j e ff dt lo hi hold).2.otp = s.otp := by
  simp [State.runPiPair]
@[simp] theorem State.markClamp_otp n acts : (s.markClamp n acts).otp = s.otp := by simp [State.markClamp]
@[simp] theorem State.refClamp_otp n : (s.refClamp n).otp = s.otp := by simp [State.refClamp]
@[simp] theorem State.blkVoltageLoop_otp n k j dt lo hi : (s.blkVoltageLoop n k j dt lo hi).otp = s.otp := by
  simp [State.blkVoltageLoop]
@[simp] theorem State.shadowPwm_otp n a w : (s.shadowPwm n a w).otp = s.otp := by simp [State.shadowPwm]
@[simp] theorem State.armUpdate_otp n : (s.armUpdate n).otp = s.otp := by simp [State.armUpdate]
@[simp] theorem State.markOvermod_otp n acts : (s.markOvermod n acts).otp = s.otp := by simp [State.markOvermod]
@[simp] theorem State.writeCompares_otp n l : (s.writeCompares n l).otp = s.otp := by simp [State.writeCompares]
@[simp] theorem State.blkModulate_otp n v hbs : (s.blkModulate n v hbs).otp = s.otp := by simp [State.blkModulate]
@[simp] theorem State.blkSyncAngle_otp n vbus : (s.blkSyncAngle n vbus).otp = s.otp := by simp [State.blkSyncAngle]
@[simp] theorem State.setVar_otp n i x : (s.setVar n i x).otp = s.otp := by simp [State.setVar]

@[simp] theorem State.putVar_otp n k x x4 : (s.putVar n k x x4).otp = s.otp := by
  simp only [State.putVar]
  split <;> simp

@[simp] theorem State.put2_otp n k x v : (s.put2 n k x v).otp = s.otp := by simp [State.put2]
@[simp] theorem State.put3_otp n k x v : (s.put3 n k x v).otp = s.otp := by simp [State.put3]
@[simp] theorem State.scaleInputs_otp n k l : (s.scaleInputs n k l).otp = s.otp := by simp [State.scaleInputs]

@[simp] theorem State.runBlock_otp n k dt j hold x6 : (s.runBlock n k dt j hold x6).otp = s.otp := by
  simp only [State.runBlock]
  split <;> simp

@[simp] theorem State.runBlocks_otp (s : State) (n k : Nat) (dt : Rat) (held : List Var) (j : Nat) (l : List Block) :
    (s.runBlocks n k dt held j l).1.otp = s.otp := by
  induction l generalizing s j with
  | nil => rfl
  | cons b t ih =>
    rw [State.runBlocks]
    split <;> simp [ih]

@[simp] theorem State.runLoop_otp (s : State) (n k : Nat) (dt : Rat) (l : List Block) : (s.runLoop n k dt l).otp = s.otp := by
  simp only [State.runLoop]
  split <;> simp

/-! ### Stations -/

@[simp] theorem State.standDown_otp n : (s.standDown n).otp = s.otp := by simp [State.standDown]
@[simp] theorem State.enterReady_otp n : (s.enterReady n).otp = s.otp := by simp [State.enterReady]

@[simp] theorem State.refreshRated_otp n : (s.refreshRated n).otp = s.otp := by
  simp only [State.refreshRated]
  split <;> simp

@[simp] theorem State.hchCheck_otp n c : (s.hchCheck n c).otp = s.otp := by simp [State.hchCheck]
@[simp] theorem State.enterRunning_otp n : (s.enterRunning n).otp = s.otp := by simp [State.enterRunning]
@[simp] theorem State.commitEnvelope_otp n seq late : (s.commitEnvelope n seq late).otp = s.otp := by
  simp [State.commitEnvelope]

@[simp] theorem State.envBoundary_otp n : (s.envBoundary n).otp = s.otp := by
  simp only [State.envBoundary]
  split <;> simp

@[simp] theorem State.failStart_otp n reason : (s.failStart n reason).otp = s.otp := by simp [State.failStart]
@[simp] theorem State.acceptRun_otp n : (s.acceptRun n).otp = s.otp := by simp [State.acceptRun]
@[simp] theorem State.judgeRun_otp n : (s.judgeRun n).otp = s.otp := by simp [State.judgeRun]
@[simp] theorem State.enterStopping_otp n : (s.enterStopping n).otp = s.otp := by simp [State.enterStopping]

@[simp] theorem State.serveStop_otp n : (s.serveStop n).otp = s.otp := by
  simp only [State.serveStop]
  split <;> simp

@[simp] theorem State.completeStop_otp n : (s.completeStop n).otp = s.otp := by simp [State.completeStop]

@[simp] theorem State.serveRows_otp n : (s.serveRows n).otp = s.otp := by
  simp only [State.serveRows]
  repeat' split
  all_goals simp

@[simp] theorem State.settleStopped_otp n : (s.settleStopped n).otp = s.otp := by simp [State.settleStopped]
@[simp] theorem State.resetRequest_otp n : (s.resetRequest n).otp = s.otp := by simp [State.resetRequest]
@[simp] theorem State.writeCtrl_otp n w : (s.writeCtrl n w).otp = s.otp := by simp [State.writeCtrl]

@[simp] theorem State.writePar_otp n i w late : (s.writePar n i w late).otp = s.otp := by
  simp only [State.writePar]
  repeat' split
  all_goals simp

@[simp] theorem State.transferGfm_otp n : (s.transferGfm n).otp = s.otp := by simp [State.transferGfm]
@[simp] theorem State.stationBoundary_otp n : (s.stationBoundary n).otp = s.otp := by simp [State.stationBoundary]
@[simp] theorem State.periodTimes_otp n : (s.periodTimes n).otp = s.otp := by simp [State.periodTimes]

/-! ### The pulse path -/

@[simp] theorem State.latchHb_otp n k cause : (s.latchHb n k cause).otp = s.otp := by simp [State.latchHb]
@[simp] theorem State.raiseGates_otp n : (s.raiseGates n).otp = s.otp := by simp [State.raiseGates]
@[simp] theorem State.updGates_otp n : (s.updGates n).otp = s.otp := by simp [State.updGates]
@[simp] theorem State.forceHb_otp n k lv : (s.forceHb n k lv).otp = s.otp := by simp [State.forceHb]

@[simp] theorem State.limitWindow_otp n c : (s.limitWindow n c).otp = s.otp := by
  simp only [State.limitWindow]
  repeat' split
  all_goals simp

@[simp] theorem State.carrierEnd_otp (s : State) (n : Nat) : (s.carrierEnd n).otp = s.otp := by
  simpa [State.carrierEnd] using State.forAll_otp (fun k t => by split <;> simp) 12 s
@[simp] theorem State.transferAll_otp l : (s.transferAll l).otp = s.otp := by simp [State.transferAll]
@[simp] theorem State.pwmTransfer_otp n cs passed : (s.pwmTransfer n cs passed).otp = s.otp := by simp [State.pwmTransfer]

/-! ### Engines -/

@[simp] theorem State.asStandby_otp n : (s.asStandby n).otp = s.otp := by simp [State.asStandby]
@[simp] theorem State.keepStandby_otp t n : (s.keepStandby t n).otp = s.otp := by simp [State.keepStandby]
@[simp] theorem State.putBothVar_otp n k x v : (s.putBothVar n k x v).otp = s.otp := by simp [State.putBothVar]
@[simp] theorem State.onBanks_otp e f : (s.onBanks e f).otp = s.otp := by simp [State.onBanks]
@[simp] theorem State.fillDmem_otp (s : State) (w : Nat) (ws : List Word) : (s.fillDmem w ws).otp = s.otp :=
  foldl_otp (fun t e => foldlWords_otp (f := fun u k x => u.setDmem e k x) (by simp) ws t w) _ _

@[simp] theorem State.loadConsts_otp : s.loadConsts.otp = s.otp := by
  simp only [State.loadConsts]
  split <;> simp

@[simp] theorem State.sendSetPoints_otp n k d : (s.sendSetPoints n k d).otp = s.otp := by
  simp only [State.sendSetPoints]
  split <;> simp

@[simp] theorem State.loadLoopRegs_otp k d : (s.loadLoopRegs k d).otp = s.otp := by simp [State.loadLoopRegs]
@[simp] theorem State.clearLoopRegs_otp k : (s.clearLoopRegs k).otp = s.otp := by simp [State.clearLoopRegs]
@[simp] theorem State.flagEngines_otp f : (s.flagEngines f).otp = s.otp := by simp [State.flagEngines]
@[simp] theorem State.takeLoop_otp n k old d : (s.takeLoop n k old d).otp = s.otp := by simp [State.takeLoop]
@[simp] theorem State.finishSwap_otp : s.finishSwap.otp = s.otp := by simp [State.finishSwap]

@[simp] theorem State.switchBank_otp (s : State) (n : Nat) : (s.switchBank n).otp = s.otp := by
  simp only [State.switchBank]
  split
  · simp only [State.finishSwap_otp, State.onStn_rest, State.forEach_eq]
    refine (foldl_otp (fun t k => ?_) _ _).trans (by split <;> simp)
    repeat' split
    all_goals simp
  · rfl

@[simp] theorem State.transferCfg_otp k : (s.transferCfg k).otp = s.otp := by simp [State.transferCfg]
@[simp] theorem State.transferLoops_otp n : (s.transferLoops n).otp = s.otp := by simp [State.transferLoops]
@[simp] theorem State.leaveService_otp n : (s.leaveService n).otp = s.otp := by simp [State.leaveService]
@[simp] theorem State.switchIdle_otp n : (s.switchIdle n).otp = s.otp := by simp [State.switchIdle]

@[simp] theorem State.requestSwap_otp e : (s.requestSwap e).otp = s.otp := by
  simp only [State.requestSwap]
  split <;> simp

@[simp] theorem State.noteReady_otp n : (s.noteReady n).otp = s.otp := by simp [State.noteReady]
@[simp] theorem State.watchSample_otp n i w : (s.watchSample n i w).otp = s.otp := by simp [State.watchSample]
@[simp] theorem State.deliver_otp n i w : (s.deliver n i w).otp = s.otp := by simp [State.deliver]
@[simp] theorem State.deliverAll_otp srcType srcIndex w : (s.deliverAll srcType srcIndex w).otp = s.otp := by
  simp [State.deliverAll]
@[simp] theorem State.internalInputs_otp n : (s.internalInputs n).otp = s.otp := by simp [State.internalInputs]
@[simp] theorem State.enterOpenLoop_otp n : (s.enterOpenLoop n).otp = s.otp := by simp [State.enterOpenLoop]

@[simp] theorem State.lossReaction_otp n cls : (s.lossReaction n cls).otp = s.otp := by
  simp only [State.lossReaction]
  repeat' split
  all_goals simp

@[simp] theorem State.loseInput_otp n i : (s.loseInput n i).otp = s.otp := by simp [State.loseInput]
@[simp] theorem State.loseSource_otp srcType srcIndex : (s.loseSource srcType srcIndex).otp = s.otp := by
  simp [State.loseSource]
@[simp] theorem State.staleInputs_otp n : (s.staleInputs n).otp = s.otp := by simp [State.staleInputs]
@[simp] theorem State.clearLoss_otp n i : (s.clearLoss n i).otp = s.otp := by simp [State.clearLoss]
@[simp] theorem State.restoreInput_otp n i : (s.restoreInput n i).otp = s.otp := by simp [State.restoreInput]

@[simp] theorem State.startChecks_otp n : (s.startChecks n).otp = s.otp := by
  simp only [State.startChecks]
  split <;> simp

@[simp] theorem State.watchVoltage_otp n : (s.watchVoltage n).otp = s.otp := by simp [State.watchVoltage]
@[simp] theorem State.enterRide_otp n : (s.enterRide n).otp = s.otp := by simp [State.enterRide]
@[simp] theorem State.enterLimiting_otp n row : (s.enterLimiting n row).otp = s.otp := by simp [State.enterLimiting]
@[simp] theorem State.voltageChecks_otp n : (s.voltageChecks n).otp = s.otp := by simp [State.voltageChecks]
@[simp] theorem State.limitChecks_otp n : (s.limitChecks n).otp = s.otp := by simp [State.limitChecks]
@[simp] theorem State.finishWork_otp n : (s.finishWork n).otp = s.otp := by simp [State.finishWork]
@[simp] theorem State.startWork_otp n : (s.startWork n).otp = s.otp := by simp [State.startWork]
@[simp] theorem State.runBoth_otp t n k dt d : (s.runBoth t n k dt d).otp = t.otp := by simp [State.runBoth]
@[simp] theorem State.noteFinish_otp e n cycles : (s.noteFinish e n cycles).otp = s.otp := by simp [State.noteFinish]

@[simp] theorem State.completeLoop_otp n k cycles standby : (s.completeLoop n k cycles standby).otp = s.otp := by
  simp only [State.completeLoop]
  split <;> simp

@[simp] theorem State.deadline_otp n : (s.deadline n).otp = s.otp := by simp [State.deadline]

/-! ### Conversion -/

@[simp] theorem State.startSafeStop_otp n : (s.startSafeStop n).otp = s.otp := by
  simp only [State.startSafeStop]
  repeat' split
  all_goals simp

@[simp] theorem State.pairFailed_otp p : (s.pairFailed p).otp = s.otp := by simp [State.pairFailed]
@[simp] theorem State.adcTransfer_otp k : (s.adcTransfer k).otp = s.otp := by simp [State.adcTransfer]
@[simp] theorem State.seqStart_otp k : (s.seqStart k).otp = s.otp := by simp [State.seqStart]
@[simp] theorem State.urgDrop_otp k : (s.urgDrop k).otp = s.otp := by simp [State.urgDrop]
@[simp] theorem State.seqGo_otp k : (s.seqGo k).otp = s.otp := by simp [State.seqGo]
@[simp] theorem State.adcResult_otp k e r : (s.adcResult k e r).otp = s.otp := by simp [State.adcResult]
@[simp] theorem State.plsDisagree_otp p flag : (s.plsDisagree p flag).otp = s.otp := by simp [State.plsDisagree]
@[simp] theorem State.coverEnd_otp : s.coverEnd.otp = s.otp := by simp [State.coverEnd]
@[simp] theorem State.calFail_otp code : (s.calFail code).otp = s.otp := by simp [State.calFail]
@[simp] theorem State.calVerify_otp v : (s.calVerify v).otp = s.otp := by simp [State.calVerify]

@[simp] theorem State.plsResult_otp k v : (s.plsResult k v).otp = s.otp := by
  simp only [State.plsResult]
  repeat' split
  all_goals simp

@[simp] theorem State.convDone_otp k raw : (s.convDone k raw).otp = s.otp := by simp [State.convDone]

@[simp] theorem State.calRequest_otp k : (s.calRequest k).otp = s.otp := by
  simp only [State.calRequest]
  split <;> simp

@[simp] theorem State.sdmRestart_otp c : (s.sdmRestart c).otp = s.otp := by simp [State.sdmRestart]
@[simp] theorem State.alignStart_otp n : (s.alignStart n).otp = s.otp := by simp [State.alignStart]
@[simp] theorem State.sdmEnable_otp c was : (s.sdmEnable c was).otp = s.otp := by simp [State.sdmEnable]

/-! ### Time -/

@[simp] theorem State.tickClock_otp : s.tickClock.otp = s.otp := by simp [State.tickClock]
@[simp] theorem State.stepRefused_otp : s.stepRefused.otp = s.otp := by simp [State.stepRefused]
@[simp] theorem State.commitStep_otp d : (s.commitStep d).otp = s.otp := by simp [State.commitStep]
@[simp] theorem State.setLocal_otp t : (s.setLocal t).otp = s.otp := by simp [State.setLocal]
@[simp] theorem State.stepDone_otp : s.stepDone.otp = s.otp := by simp [State.stepDone]
@[simp] theorem State.clearEst_otp : s.clearEst.otp = s.otp := by simp [State.clearEst]

@[simp] theorem State.applyStep_otp : s.applyStep.otp = s.otp := by
  simp only [State.applyStep]
  split <;> simp

@[simp] theorem State.writeIncr_otp w : (s.writeIncr w).otp = s.otp := by simp [State.writeIncr]
@[simp] theorem State.readNs_otp : s.readNs.otp = s.otp := by simp [State.readNs]
@[simp] theorem State.writeStepHi_otp hi : (s.writeStepHi hi).otp = s.otp := by simp [State.writeStepHi]
@[simp] theorem State.readAon_otp : s.readAon.otp = s.otp := by simp [State.readAon]
@[simp] theorem State.captureStamp_otp c rising : (s.captureStamp c rising).otp = s.otp := by simp [State.captureStamp]
@[simp] theorem State.captureRoute_otp c rising : (s.captureRoute c rising).otp = s.otp := by simp [State.captureRoute]

@[simp] theorem State.captureTrigger_otp c rising : (s.captureTrigger c rising).otp = s.otp := by
  simp only [State.captureTrigger]
  split <;> simp

@[simp] theorem State.captureEdge_otp c rising : (s.captureEdge c rising).otp = s.otp := by simp [State.captureEdge]

@[simp] theorem State.readCap_otp c : (s.readCap c).otp = s.otp := by
  simp only [State.readCap]
  split <;> simp

@[simp] theorem State.onPtp_otp f : (s.onPtp f).otp = s.otp := by simp [State.onPtp]
@[simp] theorem State.setPtpState_otp k : (s.setPtpState k).otp = s.otp := by simp [State.setPtpState]
@[simp] theorem State.setRefused_otp b : (s.setRefused b).otp = s.otp := by simp [State.setRefused]
@[simp] theorem State.ptpIgnore_otp : s.ptpIgnore.otp = s.otp := by simp [State.ptpIgnore]
@[simp] theorem State.ptpFollow_otp : s.ptpFollow.otp = s.otp := by simp [State.ptpFollow]
@[simp] theorem State.slew_otp : s.slew.otp = s.otp := by simp [State.slew]

@[simp] theorem State.ptpMessage_otp (s : State) (x : PtpHdr) (lo hi : Int) (f : State → State) (h : (f s).otp = s.otp) :
    (s.ptpMessage x lo hi f).otp = s.otp := by
  simp [State.ptpMessage, h]

@[simp] theorem State.ptpOffset_otp off : (s.ptpOffset off).otp = s.otp := by simp [State.ptpOffset]
@[simp] theorem State.ptpRestart_otp : s.ptpRestart.otp = s.otp := by simp [State.ptpRestart]
@[simp] theorem rowsStay_execTimNsRead : RowsStay s (execTimNsRead s) := by simp [execTimNsRead]
@[simp] theorem rowsStay_execTimStepHiWrite hi : RowsStay s (execTimStepHiWrite hi s) := by simp [execTimStepHiWrite]
@[simp] theorem rowsStay_execTimStepApply : RowsStay s (execTimStepApply s) := by simp [execTimStepApply]
@[simp] theorem rowsStay_execTimClrEst : RowsStay s (execTimClrEst s) := by simp [execTimClrEst]
@[simp] theorem rowsStay_execTimAonLoRead : RowsStay s (execTimAonLoRead s) := by simp [execTimAonLoRead]
@[simp] theorem rowsStay_execCaptureEdge c edge : RowsStay s (execCaptureEdge c edge s) := by simp [execCaptureEdge]
@[simp] theorem rowsStay_execTimCapLoRead c : RowsStay s (execTimCapLoRead c s) := by simp [execTimCapLoRead]
@[simp] theorem rowsStay_execPtpSyncReceived h : RowsStay s (execPtpSyncReceived h s) := by simp [execPtpSyncReceived]

@[simp] theorem rowsStay_execPtpFollowUpReceived h t1 : RowsStay s (execPtpFollowUpReceived h t1 s) := by
  refine rowsStay_whenMgmt (congrArg _ (State.ptpMessage_otp _ _ _ _ _ ?_))
  dsimp only
  repeat' split
  all_goals simp

@[simp] theorem rowsStay_execPtpAnnounceReceived h dataset : RowsStay s (execPtpAnnounceReceived h dataset s) := by
  simp [execPtpAnnounceReceived]

@[simp] theorem rowsStay_execPtpDelayRespReceived h t4 : RowsStay s (execPtpDelayRespReceived h t4 s) := by
  refine rowsStay_whenMgmt (congrArg _ (State.ptpMessage_otp _ _ _ _ _ ?_))
  dsimp only
  repeat' split
  all_goals simp

@[simp] theorem rowsStay_execPtpDelayReqSend seq : RowsStay s (execPtpDelayReqSend seq s) := by simp [execPtpDelayReqSend]
@[simp] theorem rowsStay_execPtpListenFallback : RowsStay s (execPtpListenFallback s) := by simp [execPtpListenFallback]
@[simp] theorem rowsStay_execPtpAnnounceTimeout : RowsStay s (execPtpAnnounceTimeout s) := by simp [execPtpAnnounceTimeout]

/-! ### Chest -/

@[simp] theorem State.sampleTriggers_otp k w : (s.sampleTriggers k w).otp = s.otp := by
  simp only [State.sampleTriggers]
  split <;> simp

@[simp] theorem State.drain_otp k n : (s.drain k n).otp = s.otp := by simp [State.drain]
@[simp] theorem State.drainBursts_otp k bursts : (s.drainBursts k bursts).otp = s.otp := by simp [State.drainBursts]
@[simp] theorem State.putElement_otp k words : (s.putElement k words).otp = s.otp := by simp [State.putElement]
@[simp] theorem State.storeSample_otp k w : (s.storeSample k w).otp = s.otp := by simp [State.storeSample]
@[simp] theorem State.closeGap_otp k : (s.closeGap k).otp = s.otp := by simp [State.closeGap]
@[simp] theorem State.openGap_otp k : (s.openGap k).otp = s.otp := by simp [State.openGap]
@[simp] theorem State.armSegment_otp g : (s.armSegment g).otp = s.otp := by simp [State.armSegment]
@[simp] theorem State.closeSegment_otp extra : (s.closeSegment extra).otp = s.otp := by simp [State.closeSegment]
@[simp] theorem State.chestNext_otp : s.chestNext.otp = s.otp := by simp [State.chestNext]
@[simp] theorem State.chestRearm_otp : s.chestRearm.otp = s.otp := by simp [State.chestRearm]
@[simp] theorem State.tick_otp : s.tick.otp = s.otp := by simp [State.tick]
@[simp] theorem State.segmentCheck_otp : s.segmentCheck.otp = s.otp := by simp [State.segmentCheck]

@[simp] theorem State.chestArm_otp : s.chestArm.otp = s.otp := by
  simp only [State.chestArm]
  repeat' split
  all_goals simp

@[simp] theorem State.chestStop_otp : s.chestStop.otp = s.otp := by simp [State.chestStop]
@[simp] theorem State.chestForce_otp : s.chestForce.otp = s.otp := by simp [State.chestForce]
@[simp] theorem State.endGap_otp k : (s.endGap k).otp = s.otp := by simp [State.endGap]
@[simp] theorem State.gapOver_otp k : (s.gapOver k).otp = s.otp := by simp [State.gapOver]
@[simp] theorem State.takeSample_otp k w : (s.takeSample k w).otp = s.otp := by simp [State.takeSample]
@[simp] theorem State.missSample_otp k : (s.missSample k).otp = s.otp := by simp [State.missSample]

@[simp] theorem State.chestSample_otp k how : (s.chestSample k how).otp = s.otp := by
  simp only [State.chestSample]
  repeat' split
  all_goals simp

@[simp] theorem rowsStay_execChsArm : RowsStay s (execChsArm s) := by simp [execChsArm]
@[simp] theorem rowsStay_execChsStop : RowsStay s (execChsStop s) := by simp [execChsStop]
@[simp] theorem rowsStay_execChsForce : RowsStay s (execChsForce s) := by simp [execChsForce]
@[simp] theorem rowsStay_execChestSample k how : RowsStay s (execChestSample k how s) := by simp [execChestSample]
@[simp] theorem rowsStay_execChestGapEnd drain : RowsStay s (execChestGapEnd drain s) := by simp [execChestGapEnd]
@[simp] theorem rowsStay_execPostTimeout : RowsStay s (execPostTimeout s) := by simp [execPostTimeout]

/-! ### The Shelf -/

@[simp] theorem State.setPortState_otp q k : (s.setPortState q k).otp = s.otp := by simp [State.setPortState]
@[simp] theorem State.onEnd_otp q e f : (s.onEnd q e f).otp = s.otp := by simp [State.onEnd]
@[simp] theorem State.setNodeBit_otp f q l b : (s.setNodeBit f q l b).otp = s.otp := by simp [State.setNodeBit]
@[simp] theorem State.setEntry_otp e x : (s.setEntry e x).otp = s.otp := by simp [State.setEntry]
@[simp] theorem State.shelfPoint_otp q l j v : (s.shelfPoint q l j v).otp = s.otp := by simp [State.shelfPoint]
@[simp] theorem State.shelfCell_otp q l idx payload : (s.shelfCell q l idx payload).otp = s.otp := by simp [State.shelfCell]
@[simp] theorem State.onEntries_otp q l f : (s.onEntries q l f).otp = s.otp := by simp [State.onEntries]
@[simp] theorem State.ageEntries_otp q : (s.ageEntries q).otp = s.otp := by simp [State.ageEntries]
@[simp] theorem State.replaceNode_otp q l uid : (s.replaceNode q l uid).otp = s.otp := by simp [State.replaceNode]
@[simp] theorem State.aggStale_otp q : (s.aggStale q).otp = s.otp := by simp [State.aggStale]

@[simp] theorem State.writeAggregate_otp (s : State) (q : Nat) : (s.writeAggregate q).otp = s.otp := by
  simp only [State.writeAggregate]
  split <;> simp only [State.aggStale_otp, State.onPort_rest, State.deliverAll_otp, State.setFld_rest, State.setReg_rest]

@[simp] theorem State.latchAgg_otp q : (s.latchAgg q).otp = s.otp := by simp [State.latchAgg]
@[simp] theorem State.clearShelf_otp : s.clearShelf.otp = s.otp := by simp [State.clearShelf]
@[simp] theorem State.clearRing_otp q : (s.clearRing q).otp = s.otp := by simp [State.clearRing]
@[simp] theorem State.computeEnvelope_otp n : (s.computeEnvelope n).otp = s.otp := by simp [State.computeEnvelope]
@[simp] theorem rowsStay_execShfClrAll : RowsStay s (execShfClrAll s) := by simp [execShfClrAll]
@[simp] theorem rowsStay_execShfClrRing q : RowsStay s (execShfClrRing q s) := by simp [execShfClrRing]
@[simp] theorem rowsStay_execShfAgg0Read q : RowsStay s (execShfAgg0Read q s) := by simp [execShfAgg0Read]
@[simp] theorem rowsStay_execShelfInitDone : RowsStay s (execShelfInitDone s) := by simp [execShelfInitDone]
@[simp] theorem rowsStay_execAggStaleTimeout q : RowsStay s (execAggStaleTimeout q s) := by simp [execAggStaleTimeout]
@[simp] theorem rowsStay_execEnvelopeCompute : RowsStay s (execEnvelopeCompute s) := by simp [execEnvelopeCompute]

/-! ### Battery rings -/

@[simp] theorem State.flushPort_otp q : (s.flushPort q).otp = s.otp := by simp [State.flushPort]

@[simp] theorem State.sendFrame_otp q e f : (s.sendFrame q e f).otp = s.otp := by
  simp only [State.sendFrame]
  split <;> simp

@[simp] theorem State.sendBroadcast_otp q e op arg : (s.sendBroadcast q e op arg).otp = s.otp := by
  simp [State.sendBroadcast]

@[simp] theorem State.replan_otp (s : State) (q : Nat) : (s.replan q).otp = s.otp := by
  simp only [State.replan]
  rw [foldl_otp (fun t e => foldl_otp (fun u r => by split <;> simp) _ _)]
  simp

@[simp] theorem State.breakRing_otp q e cut second otherKnown : (s.breakRing q e cut second otherKnown).otp = s.otp := by
  simp [State.breakRing]
@[simp] theorem State.endOpen_otp q e : (s.endOpen q e).otp = s.otp := by simp [State.endOpen]
@[simp] theorem State.wrapEnd_otp q e cause : (s.wrapEnd q e cause).otp = s.otp := by simp [State.wrapEnd]
@[simp] theorem State.sendEnum_otp q e start dir : (s.sendEnum q e start dir).otp = s.otp := by simp [State.sendEnum]
@[simp] theorem State.startDiscovery_otp q : (s.startDiscovery q).otp = s.otp := by simp [State.startDiscovery]
@[simp] theorem State.placeNodes_otp q ids : (s.placeNodes q ids).otp = s.otp := by simp [State.placeNodes]
@[simp] theorem State.clearPresent_otp q : (s.clearPresent q).otp = s.otp := by simp [State.clearPresent]
@[simp] theorem State.placeFromA_otp q ids : (s.placeFromA q ids).otp = s.otp := by simp [State.placeFromA]
@[simp] theorem State.ringClosed_otp q ids : (s.ringClosed q ids).otp = s.otp := by simp [State.ringClosed]
@[simp] theorem State.ringOpen_otp q ids : (s.ringOpen q ids).otp = s.otp := by simp [State.ringOpen]
@[simp] theorem State.portCrossed_otp q other : (s.portCrossed q other).otp = s.otp := by simp [State.portCrossed]
@[simp] theorem State.crossPorts_otp q other : (s.crossPorts q other).otp = s.otp := by simp [State.crossPorts]
@[simp] theorem State.swapEnds_otp q : (s.swapEnds q).otp = s.otp := by simp [State.swapEnds]
@[simp] theorem State.placeFromB_otp q ids : (s.placeFromB q ids).otp = s.otp := by simp [State.placeFromB]
@[simp] theorem State.enumReturn_otp q sent port e ids : (s.enumReturn q sent port e ids).otp = s.otp := by
  simp [State.enumReturn]
@[simp] theorem State.enumAbsent_otp q : (s.enumAbsent q).otp = s.otp := by simp [State.enumAbsent]
@[simp] theorem State.brkReceived_otp q e w : (s.brkReceived q e w).otp = s.otp := by simp [State.brkReceived]

@[simp] theorem State.commandEnd_otp q result node : (s.commandEnd q result node).otp = s.otp := by
  simp only [State.commandEnd]
  split <;> simp

@[simp] theorem State.commandStatus_otp q e l result : (s.commandStatus q e l result).otp = s.otp := by
  simp [State.commandStatus]
@[simp] theorem State.statusCell_otp q e c : (s.statusCell q e c).otp = s.otp := by simp [State.statusCell]
@[simp] theorem State.readCell_otp q payload : (s.readCell q payload).otp = s.otp := by simp [State.readCell]
@[simp] theorem State.headerCell_otp q e c : (s.headerCell q e c).otp = s.otp := by simp [State.headerCell]
@[simp] theorem State.dataCell_otp q c room : (s.dataCell q c room).otp = s.otp := by simp [State.dataCell]
@[simp] theorem State.acceptCell_otp q e c room : (s.acceptCell q e c room).otp = s.otp := by simp [State.acceptCell]
@[simp] theorem State.receiveCell_otp q e c room : (s.receiveCell q e c room).otp = s.otp := by simp [State.receiveCell]

@[simp] theorem State.nakReceived_otp q e count : (s.nakReceived q e count).otp = s.otp := by
  simp only [State.nakReceived]
  split <;> simp

@[simp] theorem State.goStale_otp q l : (s.goStale q l).otp = s.otp := by simp [State.goStale]
@[simp] theorem State.sweepRepair_otp q : (s.sweepRepair q).otp = s.otp := by simp [State.sweepRepair]

@[simp] theorem State.sendSnap_otp q e : (s.sendSnap q e).otp = s.otp := by
  simp only [State.sendSnap]
  split <;> simp

@[simp] theorem State.endSweep_otp q e : (s.endSweep q e).otp = s.otp := by simp [State.endSweep]
@[simp] theorem State.beginSweep_otp q : (s.beginSweep q).otp = s.otp := by simp [State.beginSweep]
@[simp] theorem State.sweepStart_otp q : (s.sweepStart q).otp = s.otp := by simp [State.sweepStart]
@[simp] theorem State.sweepEnd_otp q : (s.sweepEnd q).otp = s.otp := by simp [State.sweepEnd]
@[simp] theorem State.rediscover_otp q : (s.rediscover q).otp = s.otp := by simp [State.rediscover]
@[simp] theorem State.sweepNow_otp q : (s.sweepNow q).otp = s.otp := by simp [State.sweepNow]

@[simp] theorem State.sendCommand_otp q e : (s.sendCommand q e).otp = s.otp := by
  simp only [State.sendCommand]
  split <;> simp

@[simp] theorem State.commandGo_otp q : (s.commandGo q).otp = s.otp := by simp [State.commandGo]
@[simp] theorem State.portEnable_otp q was : (s.portEnable q was).otp = s.otp := by simp [State.portEnable]
@[simp] theorem State.sleepPorts_otp : s.sleepPorts.otp = s.otp := by simp [State.sleepPorts]
@[simp] theorem State.discoverAll_otp : s.discoverAll.otp = s.otp := by simp [State.discoverAll]

@[simp] theorem rowsStay_whenPort {t : State} (h : t.otp.rows = s.otp.rows) (q : Nat) : RowsStay s (whenPort q s t) := by
  simp [whenPort, h]

@[simp] theorem rowsStay_execRxLock q e inverted : RowsStay s (execRxLock q e inverted s) := by simp [execRxLock]
@[simp] theorem rowsStay_execRxLos q e : RowsStay s (execRxLos q e s) := by simp [execRxLos]
@[simp] theorem rowsStay_execLnkReceived q e w : RowsStay s (execLnkReceived q e w s) := by simp [execLnkReceived]
@[simp] theorem rowsStay_execLnkSend q : RowsStay s (execLnkSend q s) := by simp [execLnkSend]
@[simp] theorem rowsStay_execWrapSilenceEnd q e : RowsStay s (execWrapSilenceEnd q e s) := by simp [execWrapSilenceEnd]
@[simp] theorem rowsStay_execDeviceEndLinkUp q e : RowsStay s (execDeviceEndLinkUp q e s) := by simp [execDeviceEndLinkUp]
@[simp] theorem rowsStay_execEndShort q e : RowsStay s (execEndShort q e s) := by simp [execEndShort]
@[simp] theorem rowsStay_execEndShortRetry q e still : RowsStay s (execEndShortRetry q e still s) := by
  simp [execEndShortRetry]
@[simp] theorem rowsStay_execEnumReturn q sent port e ids : RowsStay s (execEnumReturn q sent port e ids s) := by
  simp [execEnumReturn]
@[simp] theorem rowsStay_execEnumAbsent q : RowsStay s (execEnumAbsent q s) := by simp [execEnumAbsent]
@[simp] theorem rowsStay_execDiscoveryRetry q : RowsStay s (execDiscoveryRetry q s) := by simp [execDiscoveryRetry]
@[simp] theorem rowsStay_execAlmReceived q c1 c2 : RowsStay s (execAlmReceived q c1 c2 s) := by simp [execAlmReceived]
@[simp] theorem rowsStay_execBrkReceived q e c1 c2 : RowsStay s (execBrkReceived q e c1 c2 s) := by simp [execBrkReceived]
@[simp] theorem rowsStay_execCellReceived q e c room : RowsStay s (execCellReceived q e c room s) := by
  simp [execCellReceived]
@[simp] theorem rowsStay_execNakReceived q e count : RowsStay s (execNakReceived q e count s) := by simp [execNakReceived]
@[simp] theorem rowsStay_execHopRetryGiveup q e : RowsStay s (execHopRetryGiveup q e s) := by simp [execHopRetryGiveup]
@[simp] theorem rowsStay_execNodeStale q l : RowsStay s (execNodeStale q l s) := by simp [execNodeStale]
@[simp] theorem rowsStay_execSweepStart q : RowsStay s (execSweepStart q s) := by simp [execSweepStart]
@[simp] theorem rowsStay_execSweepEnd q : RowsStay s (execSweepEnd q s) := by simp [execSweepEnd]
@[simp] theorem rowsStay_execAqrRediscover q : RowsStay s (execAqrRediscover q s) := by simp [execAqrRediscover]
@[simp] theorem rowsStay_execAqrSweepNow q : RowsStay s (execAqrSweepNow q s) := by simp [execAqrSweepNow]
@[simp] theorem rowsStay_execAqrCmdGo q : RowsStay s (execAqrCmdGo q s) := by simp [execAqrCmdGo]
@[simp] theorem rowsStay_execCommandNoReply q : RowsStay s (execCommandNoReply q s) := by simp [execCommandNoReply]

/-! ### Period boundaries -/

@[simp] theorem State.newPeriod_otp n : (s.newPeriod n).otp = s.otp := by simp [State.newPeriod]
@[simp] theorem State.endTurn_otp n : (s.endTurn n).otp = s.otp := by simp [State.endTurn]
@[simp] theorem State.stopTimebase_otp n : (s.stopTimebase n).otp = s.otp := by simp [State.stopTimebase]
@[simp] theorem State.reforce_otp n : (s.reforce n).otp = s.otp := by simp [State.reforce]
@[simp] theorem State.boundaryAt_otp n j passed : (s.boundaryAt n j passed).otp = s.otp := by simp [State.boundaryAt]
@[simp] theorem State.startTimebase_otp n : (s.startTimebase n).otp = s.otp := by simp [State.startTimebase]
@[simp] theorem State.boundary_otp n : (s.boundary n).otp = s.otp := by simp [State.boundary]
@[simp] theorem State.stoppedTransfer_otp n : (s.stoppedTransfer n).otp = s.otp := by simp [State.stoppedTransfer]
@[simp] theorem State.writeShadow_otp n a w late : (s.writeShadow n a w late).otp = s.otp := by simp [State.writeShadow]
@[simp] theorem State.writeArm_otp n late : (s.writeArm n late).otp = s.otp := by simp [State.writeArm]
@[simp] theorem State.writeHold_otp n hold : (s.writeHold n hold).otp = s.otp := by simp [State.writeHold]

/-! ### Redundancy -/

@[simp] theorem State.setStandby_otp c : (s.setStandby c).otp = s.otp := by simp [State.setStandby]
@[simp] theorem State.setAgree_otp n a : (s.setAgree n a).otp = s.otp := by simp [State.setAgree]
@[simp] theorem State.standbyBack_otp : s.standbyBack.otp = s.otp := by simp [State.standbyBack]
@[simp] theorem State.standbyRefresh_otp : s.standbyRefresh.otp = s.otp := by simp [State.standbyRefresh]
@[simp] theorem State.copyState_otp n : (s.copyState n).otp = s.otp := by simp [State.copyState]
@[simp] theorem State.redBoundary_otp n : (s.redBoundary n).otp = s.otp := by simp [State.redBoundary]
@[simp] theorem State.settlePeriod_otp n : (s.settlePeriod n).otp = s.otp := by simp [State.settlePeriod]
@[simp] theorem State.disagree_otp n : (s.disagree n).otp = s.otp := by simp [State.disagree]

@[simp] theorem State.undoDisagree_otp n : (s.undoDisagree n).otp = s.otp := by
  simp only [State.undoDisagree]
  split <;> simp

@[simp] theorem State.loseCopy_otp n : (s.loseCopy n).otp = s.otp := by simp [State.loseCopy]

@[simp] theorem State.undoLost_otp n : (s.undoLost n).otp = s.otp := by
  simp only [State.undoLost]
  split <;> simp

@[simp] theorem State.copyAck_otp n intact upset : (s.copyAck n intact upset).otp = s.otp := by simp [State.copyAck]

@[simp] theorem State.runSubst_otp n k : (s.runSubst n k).otp = s.otp := by
  simp only [State.runSubst]
  split <;> simp

@[simp] theorem State.classify_otp n standby cycles : (s.classify n standby cycles).otp = s.otp := by simp [State.classify]

@[simp] theorem State.comparePriv_otp n k upsetA upsetB : (s.comparePriv n k upsetA upsetB).otp = s.otp := by
  simp only [State.comparePriv]
  repeat' split
  all_goals simp

@[simp] theorem State.undoFailing_otp : s.undoFailing.otp = s.otp := by simp [State.undoFailing]
@[simp] theorem State.declareFailed_otp x : (s.declareFailed x).otp = s.otp := by simp [State.declareFailed]
@[simp] theorem State.beatSlot_otp x link toggle fault : (s.beatSlot x link toggle fault).otp = s.otp := by
  simp [State.beatSlot]
@[simp] theorem State.beats_otp linkA linkB toggleA toggleB : (s.beats linkA linkB toggleA toggleB).otp = s.otp := by
  simp [State.beats]
@[simp] theorem State.takeRole_otp : s.takeRole.otp = s.otp := by simp [State.takeRole]
@[simp] theorem State.switchover_otp took : (s.switchover took).otp = s.otp := by simp [State.switchover]
@[simp] theorem State.exchange_otp : s.exchange.otp = s.otp := by simp [State.exchange]
@[simp] theorem State.startReload_otp : s.startReload.otp = s.otp := by simp [State.startReload]
@[simp] theorem State.endReload_otp : s.endReload.otp = s.otp := by simp [State.endReload]
@[simp] theorem State.engineStops_otp e cause : (s.engineStops e cause).otp = s.otp := by simp [State.engineStops]

/-! ### Snapshots -/

@[simp] theorem State.writeSnap_otp n accepted : (s.writeSnap n accepted).otp = s.otp := by simp [State.writeSnap]
@[simp] theorem State.latchSnap_otp n : (s.latchSnap n).otp = s.otp := by simp [State.latchSnap]

/-! ### Supervision -/

@[simp] theorem State.sinLevel_otp x trackB closed : (s.sinLevel x trackB closed).otp = s.otp := by simp [State.sinLevel]

@[simp] theorem State.sinStations_otp (s : State) (x : Nat) (f : Nat → State → State) (h : ∀ n t, (f n t).otp = t.otp) :
    (s.sinStations x f).otp = s.otp := by
  simp [State.sinStations, h]

@[simp] theorem State.sinDemand_otp x : (s.sinDemand x).otp = s.otp := by
  simp only [State.sinDemand]
  split <;> simp

@[simp] theorem State.soutFault_otp k : (s.soutFault k).otp = s.otp := by simp [State.soutFault]
@[simp] theorem State.readback_otp k srb : (s.readback k srb).otp = s.otp := by simp [State.readback]
@[simp] theorem State.highboyHold_otp n cause : (s.highboyHold n cause).otp = s.otp := by simp [State.highboyHold]
@[simp] theorem State.monitorStop_otp n : (s.monitorStop n).otp = s.otp := by simp [State.monitorStop]

@[simp] theorem State.crossCheck_otp n : (s.crossCheck n).otp = s.otp := by
  simp only [State.crossCheck]
  repeat' split
  all_goals simp

@[simp] theorem State.settleStops_otp : s.settleStops.otp = s.otp := by simp [State.settleStops]
@[simp] theorem State.requestSs1_otp mask : (s.requestSs1 mask).otp = s.otp := by simp [State.requestSs1]
@[simp] theorem State.requestSto_otp mask : (s.requestSto mask).otp = s.otp := by simp [State.requestSto]
@[simp] theorem State.requestRelease_otp mask pathOk : (s.requestRelease mask pathOk).otp = s.otp := by
  simp [State.requestRelease]
@[simp] theorem State.permitsReturn_otp set : (s.permitsReturn set).otp = s.otp := by simp [State.permitsReturn]
@[simp] theorem State.releaseRead_otp set srb : (s.releaseRead set srb).otp = s.otp := by simp [State.releaseRead]
@[simp] theorem rowsStay_execSinLevelChange x trackB closed : RowsStay s (execSinLevelChange x trackB closed s) := by
  simp [execSinLevelChange]
@[simp] theorem rowsStay_execSinDemandValid x : RowsStay s (execSinDemandValid x s) := by simp [execSinDemandValid]
@[simp] theorem rowsStay_execSinDemandEnd x : RowsStay s (execSinDemandEnd x s) := by simp [execSinDemandEnd]
@[simp] theorem rowsStay_execSinDiscrepancy x : RowsStay s (execSinDiscrepancy x s) := by simp [execSinDiscrepancy]
@[simp] theorem rowsStay_execSoutTestDue k : RowsStay s (execSoutTestDue k s) := by simp [execSoutTestDue]
@[simp] theorem rowsStay_execSoutTestEnd k srb : RowsStay s (execSoutTestEnd k srb s) := by simp [execSoutTestEnd]
@[simp] theorem rowsStay_execSrbReadbackCheck k srb : RowsStay s (execSrbReadbackCheck k srb s) := by
  simp [execSrbReadbackCheck]
@[simp] theorem rowsStay_execSrbLevelChange k level : RowsStay s (execSrbLevelChange k level s) := by
  simp [execSrbLevelChange]
@[simp] theorem rowsStay_execPostReleaseTest k : RowsStay s (execPostReleaseTest k s) := by simp [execPostReleaseTest]
@[simp] theorem rowsStay_execHighboyTick speeds : RowsStay s (execHighboyTick speeds s) := by simp [execHighboyTick]
@[simp] theorem rowsStay_execSettleSnapshotReceived n words : RowsStay s (execSettleSnapshotReceived n words s) := by
  simp [execSettleSnapshotReceived]
@[simp] theorem rowsStay_execSettleSilent : RowsStay s (execSettleSilent s) := by simp [execSettleSilent]
@[simp] theorem rowsStay_execRcFrequencyCheck ok : RowsStay s (execRcFrequencyCheck ok s) := by simp [execRcFrequencyCheck]
@[simp] theorem rowsStay_execSettleCrcCheck ok : RowsStay s (execSettleCrcCheck ok s) := by simp [execSettleCrcCheck]
@[simp] theorem rowsStay_execSettleLockstepFault : RowsStay s (execSettleLockstepFault s) := by
  simp [execSettleLockstepFault]
@[simp] theorem rowsStay_execCoverTooLong : RowsStay s (execCoverTooLong s) := by simp [execCoverTooLong]
@[simp] theorem rowsStay_execLowboyOscillatorStop : RowsStay s (execLowboyOscillatorStop s) := by
  simp [execLowboyOscillatorStop]
@[simp] theorem rowsStay_execSafSs1Req mask : RowsStay s (execSafSs1Req mask s) := by simp [execSafSs1Req]
@[simp] theorem rowsStay_execSafStoReq mask : RowsStay s (execSafStoReq mask s) := by simp [execSafStoReq]
@[simp] theorem rowsStay_execSafRelease mask pathOk : RowsStay s (execSafRelease mask pathOk s) := by simp [execSafRelease]
@[simp] theorem rowsStay_execReleaseReadback srb : RowsStay s (execReleaseReadback srb s) := by simp [execReleaseReadback]
@[simp] theorem rowsStay_execSenChange n level : RowsStay s (execSenChange n level s) := by simp [execSenChange]

/-! ### Trust -/

@[simp] theorem State.setFlashSlot_otp b bs : (s.setFlashSlot b bs).otp = s.otp := by simp [State.setFlashSlot]
@[simp] theorem State.showVersions_otp : s.showVersions.otp = s.otp := by simp [State.showVersions]
@[simp] theorem State.takeRecords_otp l : (s.takeRecords l).otp = s.otp := by simp [State.takeRecords]
@[simp] theorem State.onGen_rows (s : State) (g : Nat) (f : Gen → Gen) : (s.onGen g f).otp.rows = s.otp.rows := rfl
@[simp] theorem State.showOtp_otp gen ovl : (s.showOtp gen ovl).otp = s.otp := by simp [State.showOtp]

@[simp] theorem State.endBureau_rows (s : State) : s.endBureau.otp.rows = s.otp.rows := by
  simp only [State.endBureau, State.setReg_rest]
  repeat' split
  all_goals simp

@[simp] theorem State.setOverlay_rows (s : State) (v : Nat) (l inForce : List (Nat × Word)) :
    (s.setOverlay v l inForce).otp.rows = s.otp.rows := by
  simp [State.setOverlay, OtpUnit.rows]

@[simp] theorem State.countersigned_rows (s : State) (i : Nat) : (s.countersigned i).otp.rows = s.otp.rows := by
  simp only [State.countersigned]
  repeat' split
  all_goals simp

@[simp] theorem State.countersign_rows (s : State) (i : Nat) (supplyOk : Bool) :
    (s.countersign i supplyOk).otp.rows = s.otp.rows := by
  simp only [State.countersign]
  repeat' split
  all_goals simp

@[simp] theorem State.readOtp_otp : s.readOtp.2.otp = s.otp := by simp [State.readOtp]
@[simp] theorem State.debugRequest_otp : s.debugRequest.otp = s.otp := by simp [State.debugRequest]
@[simp] theorem State.debugRead_otp : s.debugRead.2.otp = s.otp := by simp [State.debugRead]
@[simp] theorem State.debugUnlock_otp sig : (s.debugUnlock sig).otp = s.otp := by simp [State.debugUnlock]
@[simp] theorem State.debugWrite_otp w : (s.debugWrite w).otp = s.otp := by simp [State.debugWrite]
@[simp] theorem State.debugClose_otp : s.debugClose.otp = s.otp := by simp [State.debugClose]

@[simp] theorem rowsStay_execBureauStage i c sig : RowsStay s (execBureauStage i c sig s) := by
  simp only [execBureauStage]
  repeat' split
  all_goals simp

@[simp] theorem rowsStay_execBureauCountersign i supplyOk : RowsStay s (execBureauCountersign i supplyOk s) := by
  simp [execBureauCountersign]

@[simp] theorem rowsStay_execBureauAbort i : RowsStay s (execBureauAbort i s) := by
  simp only [execBureauAbort]
  split <;> simp

@[simp] theorem rowsStay_execBureauExpiry : RowsStay s (execBureauExpiry s) := by
  simp only [execBureauExpiry]
  split <;> simp

@[simp] theorem rowsStay_execOtpReadDataRead : RowsStay s (execOtpReadDataRead s) := by simp [execOtpReadDataRead]
@[simp] theorem rowsStay_execAttest i : RowsStay s (execAttest i s) := by simp [execAttest]
@[simp] theorem rowsStay_execCertRead i : RowsStay s (execCertRead i s) := by simp [execCertRead]
@[simp] theorem rowsStay_execDevInfo i : RowsStay s (execDevInfo i s) := by simp [execDevInfo]
@[simp] theorem rowsStay_execAuthChallenge i : RowsStay s (execAuthChallenge i s) := by simp [execAuthChallenge]
@[simp] theorem rowsStay_execAuthResponse i c : RowsStay s (execAuthResponse i c s) := by simp [execAuthResponse]
@[simp] theorem rowsStay_execSecDbgReq : RowsStay s (execSecDbgReq s) := by simp [execSecDbgReq]
@[simp] theorem rowsStay_execSecDbgDataWrite ws : RowsStay s (execSecDbgDataWrite ws s) := by simp [execSecDbgDataWrite]
@[simp] theorem rowsStay_execSecDbgClose : RowsStay s (execSecDbgClose s) := by simp [execSecDbgClose]

/-! ### Reset, boot and restarts -/

@[simp] theorem State.keepPins_otp (s t : State) : (s.keepPins t).otp = t.otp := by simp [State.keepPins]
@[simp] theorem State.enterReset_rows (s : State) (cause : Nat) : (s.enterReset cause).otp.rows = s.otp.rows := by
  simp [State.enterReset]

@[simp] theorem State.deviceReset_rows (s : State) (cause : Nat) : (s.deviceReset cause).otp.rows = s.otp.rows := by
  simp only [State.deviceReset]
  split <;> simp

@[simp] theorem State.readVsel_otp : s.readVsel.otp = s.otp := by simp [State.readVsel]

@[simp] theorem State.selectSettings_otp : s.selectSettings.otp = s.otp := by
  simp only [State.selectSettings]
  repeat' split
  all_goals simp

@[simp] theorem State.applyOtp_otp bid wired : (s.applyOtp bid wired).otp = s.otp := by simp [State.applyOtp]
@[simp] theorem State.readBootRecord_otp : s.readBootRecord.otp = s.otp := by simp [State.readBootRecord]

@[simp] theorem State.bootVcore_otp vread : (s.bootVcore vread).otp = s.otp := by
  simp only [State.bootVcore]
  split <;> simp

@[simp] theorem State.firstAnswer_otp : s.firstAnswer.otp = s.otp := by simp [State.firstAnswer]
@[simp] theorem State.acceptSlot_otp b : (s.acceptSlot b).otp = s.otp := by simp [State.acceptSlot]
@[simp] theorem State.startMonitor_otp : s.startMonitor.otp = s.otp := by simp [State.startMonitor]

@[simp] theorem State.mgmtRestart_rows (s : State) (activation : Bool) :
    (s.mgmtRestart activation).otp.rows = s.otp.rows := by
  simp [State.mgmtRestart]

@[simp] theorem State.restartOn_rows (s : State) (b : Bool) : (s.restartOn b).otp.rows = s.otp.rows := by
  simp only [State.restartOn]
  split <;> simp

@[simp] theorem State.activate_rows (s : State) (b : Bool) : (s.activate b).otp.rows = s.otp.rows := by
  simp [State.activate]

@[simp] theorem State.withStaged_otp (s : State) (i ofs len : Nat) (hash : List Byte) (f : List Byte → State)
    (h : ∀ l, (f l).otp = s.otp) : (s.withStaged i ofs len hash f).otp = s.otp := by
  simp [State.withStaged, h]

@[simp] theorem State.stageFirmware_otp bs : (s.stageFirmware bs).otp = s.otp := by simp [State.stageFirmware]
@[simp] theorem rowsStay_execPowerOnReset : RowsStay s (execPowerOnReset s) := by simp [execPowerOnReset]
@[simp] theorem rowsStay_execBrownOut : RowsStay s (execBrownOut s) := by simp [execBrownOut]
@[simp] theorem rowsStay_execPorstNAssert : RowsStay s (execPorstNAssert s) := by simp [execPorstNAssert]
@[simp] theorem rowsStay_execCoreUndervoltage : RowsStay s (execCoreUndervoltage s) := by simp [execCoreUndervoltage]
@[simp] theorem rowsStay_execResetEnd bid wired vread : RowsStay s (execResetEnd bid wired vread s) := by
  simp [execResetEnd]
@[simp] theorem rowsStay_execBootVcoreRetry vread : RowsStay s (execBootVcoreRetry vread s) := by simp [execBootVcoreRetry]

@[simp] theorem rowsStay_execBootImageCheckDone : RowsStay s (execBootImageCheckDone s) := by
  simp only [execBootImageCheckDone]
  split <;> simp

@[simp] theorem rowsStay_execSettleBootDone testsOk pathOk : RowsStay s (execSettleBootDone testsOk pathOk s) := by
  simp [execSettleBootDone]
@[simp] theorem rowsStay_execMgmtFirmwareReady : RowsStay s (execMgmtFirmwareReady s) := by simp [execMgmtFirmwareReady]
@[simp] theorem rowsStay_execMgmtWatchdogExpiry : RowsStay s (execMgmtWatchdogExpiry s) := by simp [execMgmtWatchdogExpiry]
@[simp] theorem rowsStay_execFwStage i ofs len hash : RowsStay s (execFwStage i ofs len hash s) := by simp [execFwStage]

@[simp] theorem rowsStay_execFwStageDone j readback : RowsStay s (execFwStageDone j readback s) := by
  simp only [execFwStageDone]
  split <;> simp

@[simp] theorem rowsStay_execFwActivate i : RowsStay s (execFwActivate i s) := by
  simp only [execFwActivate]
  repeat' split
  all_goals simp

@[simp] theorem rowsStay_execFwConfirm i : RowsStay s (execFwConfirm i s) := by simp [execFwConfirm]
@[simp] theorem rowsStay_execFwRevert i : RowsStay s (execFwRevert i s) := by simp [execFwRevert]

/-! ### Converters and demodulators -/

@[simp] theorem State.writeGo_otp w : (s.writeGo w).otp = s.otp := by simp [State.writeGo]
@[simp] theorem State.writeUrg_otp k w go : (s.writeUrg k w go).otp = s.otp := by simp [State.writeUrg]
@[simp] theorem State.writeEndCover_otp : s.writeEndCover.otp = s.otp := by simp [State.writeEndCover]
@[simp] theorem State.sdmOut_otp c bits : (s.sdmOut c bits).otp = s.otp := by simp [State.sdmOut]
@[simp] theorem rowsStay_execAdcGoWrite w : RowsStay s (execAdcGoWrite w s) := by simp [execAdcGoWrite]
@[simp] theorem rowsStay_execAdcConversionDone k raw : RowsStay s (execAdcConversionDone k raw s) := by
  simp [execAdcConversionDone]
@[simp] theorem rowsStay_execPlsStale p : RowsStay s (execPlsStale p s) := by simp [execPlsStale]
@[simp] theorem rowsStay_execUrgGo k w : RowsStay s (execUrgGo k w s) := by simp [execUrgGo]
@[simp] theorem rowsStay_execUrgentConversionDone k raw : RowsStay s (execUrgentConversionDone k raw s) := by
  simp [execUrgentConversionDone]
@[simp] theorem rowsStay_execCalStart k : RowsStay s (execCalStart k s) := by simp [execCalStart]
@[simp] theorem rowsStay_execCoverBegin p : RowsStay s (execCoverBegin p s) := by simp [execCoverBegin]
@[simp] theorem rowsStay_execCalReferenceDone coefs raw : RowsStay s (execCalReferenceDone coefs raw s) := by
  simp [execCalReferenceDone]
@[simp] theorem rowsStay_execCalVerifyStale : RowsStay s (execCalVerifyStale s) := by simp [execCalVerifyStale]
@[simp] theorem rowsStay_execEndCover : RowsStay s (execEndCover s) := by simp [execEndCover]
@[simp] theorem rowsStay_execSdmOutput c bits : RowsStay s (execSdmOutput c bits s) := by simp [execSdmOutput]
@[simp] theorem rowsStay_execSdmAlignWait c : RowsStay s (execSdmAlignWait c s) := by simp [execSdmAlignWait]
@[simp] theorem rowsStay_execSdmNoTransition c : RowsStay s (execSdmNoTransition c s) := by simp [execSdmNoTransition]

@[simp] theorem rowsStay_execSdmShortFilterForce c bits : RowsStay s (execSdmShortFilterForce c bits s) := by
  simp only [execSdmShortFilterForce]
  split <;> simp

/-! ### Gates -/

@[simp] theorem State.pulseEdge_otp n k : (s.pulseEdge n k).otp = s.otp := by simp [State.pulseEdge]
@[simp] theorem State.setMask_otp n idx : (s.setMask n idx).otp = s.otp := by simp [State.setMask]

@[simp] theorem State.commutate_otp n : (s.commutate n).otp = s.otp := by
  simp only [State.commutate]
  repeat' split
  all_goals simp

@[simp] theorem State.filterOut_otp n k : (s.filterOut n k).otp = s.otp := by
  simp only [State.filterOut]
  repeat' split
  all_goals simp

@[simp] theorem State.toggleHb_otp n k was new : (s.toggleHb n k was new).otp = s.otp := by
  simp only [State.toggleHb]
  repeat' split
  all_goals simp

@[simp] theorem State.writeHbEn_otp n w : (s.writeHbEn n w).otp = s.otp := by simp [State.writeHbEn]
@[simp] theorem State.writeTest_otp n w : (s.writeTest n w).otp = s.otp := by simp [State.writeTest]
@[simp] theorem rowsStay_execUpdateArm n late : RowsStay s (execUpdateArm n late s) := by simp [execUpdateArm]
@[simp] theorem rowsStay_execTbHoldSet n : RowsStay s (execTbHoldSet n s) := by simp [execTbHoldSet]
@[simp] theorem rowsStay_execTbHoldClear n : RowsStay s (execTbHoldClear n s) := by simp [execTbHoldClear]
@[simp] theorem rowsStay_execPulseEdge n k : RowsStay s (execPulseEdge n k s) := by simp [execPulseEdge]
@[simp] theorem rowsStay_execCommutationEvent n cap level : RowsStay s (execCommutationEvent n cap level s) := by
  simp [execCommutationEvent]

@[simp] theorem rowsStay_execCommutationHeldExpiry n : RowsStay s (execCommutationHeldExpiry n s) := by
  simp only [execCommutationHeldExpiry]
  split <;> simp

@[simp] theorem rowsStay_execFilterEdgeOut n k : RowsStay s (execFilterEdgeOut n k s) := by simp [execFilterEdgeOut]

@[simp] theorem rowsStay_execDeadTimeEnd n k : RowsStay s (execDeadTimeEnd n k s) := by
  simp only [execDeadTimeEnd]
  split <;> simp

@[simp] theorem rowsStay_execBlankingEnd n k : RowsStay s (execBlankingEnd n k s) := by simp [execBlankingEnd]
@[simp] theorem rowsStay_execGfAssert n k level : RowsStay s (execGfAssert n k level s) := by simp [execGfAssert]
@[simp] theorem rowsStay_execTripWindowCrossing n c code : RowsStay s (execTripWindowCrossing n c code s) := by
  simp [execTripWindowCrossing]

@[simp] theorem rowsStay_execLatchEnableRemoval n : RowsStay s (execLatchEnableRemoval n s) := by
  simp only [execLatchEnableRemoval]
  split <;> simp

@[simp] theorem rowsStay_execPwmHbEnWrite n w : RowsStay s (execPwmHbEnWrite n w s) := by simp [execPwmHbEnWrite]
@[simp] theorem rowsStay_execGateTestWrite n w : RowsStay s (execGateTestWrite n w s) := by simp [execGateTestWrite]
@[simp] theorem rowsStay_execGateTestEnd n k : RowsStay s (execGateTestEnd n k s) := by simp [execGateTestEnd]

/-! ### Inputs of the pulse path -/

@[simp] theorem State.readDmem_otp e : (s.readDmem e).otp = s.otp := by simp [State.readDmem]
@[simp] theorem State.readExecMax_otp e n : (s.readExecMax e n).otp = s.otp := by simp [State.readExecMax]
@[simp] theorem State.writeInCfg_otp i w : (s.writeInCfg i w).otp = s.otp := by simp [State.writeInCfg]
@[simp] theorem rowsStay_execSwapReq e : RowsStay s (execSwapReq e s) := by simp [execSwapReq]
@[simp] theorem rowsStay_execTrsDmemDataRead e : RowsStay s (execTrsDmemDataRead e s) := by simp [execTrsDmemDataRead]
@[simp] theorem rowsStay_execTrsExecMaxRead e n : RowsStay s (execTrsExecMaxRead e n s) := by simp [execTrsExecMaxRead]
@[simp] theorem rowsStay_execTrsInCfgWrite i w : RowsStay s (execTrsInCfgWrite i w s) := by simp [execTrsInCfgWrite]
@[simp] theorem rowsStay_execInputFrozen n k : RowsStay s (execInputFrozen n k s) := by simp [execInputFrozen]
@[simp] theorem rowsStay_execInputRestored n k : RowsStay s (execInputRestored n k s) := by simp [execInputRestored]

/-! ### Images and tables -/

@[simp] theorem State.loadImage_otp i : (s.loadImage i).otp = s.otp := by simp [State.loadImage]

@[simp] theorem State.writeStateWord_otp w v : (s.writeStateWord w v).otp = s.otp := by
  simp only [State.writeStateWord]
  split <;> simp

@[simp] theorem rowsStay_execTrsImageWrite i ofs len hash body : RowsStay s (execTrsImageWrite i ofs len hash body s) := by
  simp [execTrsImageWrite]

@[simp] theorem rowsStay_execTrsImageWriteDone j : RowsStay s (execTrsImageWriteDone j s) := by
  simp only [execTrsImageWriteDone]
  split <;> simp

@[simp] theorem rowsStay_execTrsTableWrite i g ofs len hash : RowsStay s (execTrsTableWrite i g ofs len hash s) := by
  refine rowsStay_ezCommand _ (congrArg _ ?_) _ _
  split
  · simp
  · refine State.withStaged_otp _ _ _ _ _ _ (fun bs => ?_)
    repeat' split
    all_goals simp

@[simp] theorem rowsStay_execTrsCompWrite i n first ofs len hash :
    RowsStay s (execTrsCompWrite i n first ofs len hash s) := by
  refine rowsStay_ezCommand _ (congrArg _ ?_) _ _
  repeat' split
  · simp
  · simp
  · exact State.withStaged_otp _ _ _ _ _ _ (fun bs => by split <;> simp)

@[simp] theorem rowsStay_execTrsDmemWrite i : RowsStay s (execTrsDmemWrite i s) := by
  refine rowsStay_ezCommand _ (congrArg _ ?_) _ _
  dsimp only
  repeat' split
  all_goals simp [foldlWords_otp State.writeStateWord_otp]

/-! ### Check-value units -/

@[simp] theorem State.cvuFlush_otp u : (s.cvuFlush u).otp = s.otp := by simp [State.cvuFlush]
@[simp] theorem State.cvuRefuse_otp u : (s.cvuRefuse u).otp = s.otp := by simp [State.cvuRefuse]

@[simp] theorem State.cvuWrite_otp (s : State) (u : Nat) (f : State → State) (h : (f s).otp = s.otp) :
    (s.cvuWrite u f).otp = s.otp := by
  simp [State.cvuWrite, h]

@[simp] theorem State.cvuFeed_otp u n w : (s.cvuFeed u n w).otp = s.otp := by simp [State.cvuFeed]
@[simp] theorem State.cvuLoadInit_otp u : (s.cvuLoadInit u).otp = s.otp := by simp [State.cvuLoadInit]
@[simp] theorem State.setCvuHeld_otp u k w : (s.setCvuHeld u k w).otp = s.otp := by simp [State.setCvuHeld]
@[simp] theorem State.cvuWriteLo_otp u k w : (s.cvuWriteLo u k w).otp = s.otp := by simp [State.cvuWriteLo]

@[simp] theorem State.cvuWriteHi_otp u k hi : (s.cvuWriteHi u k hi).otp = s.otp := by
  simp only [State.cvuWriteHi]
  split <;> simp

@[simp] theorem State.cvuReadLo_otp u k : (s.cvuReadLo u k).otp = s.otp := by simp [State.cvuReadLo]

@[simp] theorem State.cvuReadHi_otp u k : (s.cvuReadHi u k).2.otp = s.otp := by
  simp only [State.cvuReadHi]
  split <;> simp

@[simp] theorem rowsStay_execCvuData8 u w : RowsStay s (execCvuData8 u w s) := by simp [execCvuData8]
@[simp] theorem rowsStay_execCvuData16 u w : RowsStay s (execCvuData16 u w s) := by simp [execCvuData16]
@[simp] theorem rowsStay_execCvuData32 u w : RowsStay s (execCvuData32 u w s) := by simp [execCvuData32]

@[simp] theorem rowsStay_execCvuFeedDone u : RowsStay s (execCvuFeedDone u s) := by
  simp only [execCvuFeedDone]
  split <;> simp

@[simp] theorem rowsStay_execCvuLoadInit u : RowsStay s (execCvuLoadInit u s) := by simp [execCvuLoadInit]
@[simp] theorem rowsStay_execCvuHiWrite u k hi : RowsStay s (execCvuHiWrite u k hi s) := by simp [execCvuHiWrite]
@[simp] theorem rowsStay_execCvuLoRead u k : RowsStay s (execCvuLoRead u k s) := by simp [execCvuLoRead]

/-! ### DMA -/

@[simp] theorem State.setChState_otp n k : (s.setChState n k).otp = s.otp := by simp [State.setChState]
@[simp] theorem State.issueOne_otp n : (s.issueOne n).otp = s.otp := by simp [State.issueOne]

@[simp] theorem State.issueReads_otp (k : Nat) (s : State) : (State.issueReads k s).otp = s.otp := by
  induction k generalizing s with
  | zero => rfl
  | succ k ih =>
    simp only [State.issueReads]
    repeat' split
    all_goals simp [ih]

@[simp] theorem State.issue_otp : s.issue.otp = s.otp := by simp [State.issue]
@[simp] theorem State.bindUnit_otp n u load : (s.bindUnit n u load).otp = s.otp := by simp [State.bindUnit]

@[simp] theorem State.unbind_otp n : (s.unbind n).otp = s.otp := by
  simp only [State.unbind]
  repeat' split
  all_goals simp

@[simp] theorem State.bindDesc_otp n d : (s.bindDesc n d).otp = s.otp := by
  simp only [State.bindDesc]
  repeat' split
  all_goals simp

@[simp] theorem State.fetchDesc_otp n a : (s.fetchDesc n a).otp = s.otp := by simp [State.fetchDesc]

@[simp] theorem State.dmaStart_otp n : (s.dmaStart n).otp = s.otp := by
  simp only [State.dmaStart]
  split <;> simp

@[simp] theorem State.dmaStop_otp n : (s.dmaStop n).otp = s.otp := by simp [State.dmaStop]
@[simp] theorem State.drainOne_otp : s.drainOne.otp = s.otp := by simp [State.drainOne]

@[simp] theorem State.fetchDone_otp n : (s.fetchDone n).otp = s.otp := by
  simp only [State.fetchDone]
  repeat' split
  all_goals simp

@[simp] theorem State.descComplete_otp n d : (s.descComplete n d).otp = s.otp := by simp [State.descComplete]

@[simp] theorem State.descCheck_otp n : (s.descCheck n).otp = s.otp := by
  simp only [State.descCheck]
  split <;> simp

@[simp] theorem State.moveElement_otp n d i : (s.moveElement n d i).otp = s.otp := by
  simp only [State.moveElement]
  split <;> simp

@[simp] theorem State.burstReturn_otp n : (s.burstReturn n).otp = s.otp := by
  simp only [State.burstReturn]
  split <;> simp

@[simp] theorem State.writeReturn_otp n : (s.writeReturn n).otp = s.otp := by simp [State.writeReturn]
@[simp] theorem State.haltChannel_otp n : (s.haltChannel n).otp = s.otp := by simp [State.haltChannel]
@[simp] theorem State.haltAll_otp : s.haltAll.otp = s.otp := by simp [State.haltAll]
@[simp] theorem State.dmaError_otp kind n lastBeat addr : (s.dmaError kind n lastBeat addr).otp = s.otp := by
  simp [State.dmaError]
@[simp] theorem State.clearHalt_otp : s.clearHalt.otp = s.otp := by simp [State.clearHalt]
@[simp] theorem rowsStay_execDmaStart n : RowsStay s (execDmaStart n s) := by simp [execDmaStart]
@[simp] theorem rowsStay_execDmaStopReq n : RowsStay s (execDmaStopReq n s) := by simp [execDmaStopReq]
@[simp] theorem rowsStay_execDmaClearHalt : RowsStay s (execDmaClearHalt s) := by simp [execDmaClearHalt]
@[simp] theorem rowsStay_execDescriptorFetchDone n : RowsStay s (execDescriptorFetchDone n s) := by
  simp [execDescriptorFetchDone]
@[simp] theorem rowsStay_execReadBurstReturn n : RowsStay s (execReadBurstReturn n s) := by simp [execReadBurstReturn]
@[simp] theorem rowsStay_execWriteResponse n : RowsStay s (execWriteResponse n s) := by simp [execWriteResponse]

@[simp] theorem rowsStay_execErrorResponse kind n lastBeat addr :
    RowsStay s (execErrorResponse kind n lastBeat addr s) := by
  simp [execErrorResponse]

/-! ### Clocks and power -/

@[simp] theorem State.setPllLost_otp p b : (s.setPllLost p b).otp = s.otp := by simp [State.setPllLost]
@[simp] theorem State.bothLost_otp : s.bothLost.otp = s.otp := by simp [State.bothLost]
@[simp] theorem State.losePll_otp p : (s.losePll p).otp = s.otp := by simp [State.losePll]
@[simp] theorem State.startBuildout_otp : s.startBuildout.otp = s.otp := by simp [State.startBuildout]
@[simp] theorem State.digLocks_otp p : (s.digLocks p).otp = s.otp := by simp [State.digLocks]
@[simp] theorem State.writePhaseStep_otp p steps : (s.writePhaseStep p steps).otp = s.otp := by simp [State.writePhaseStep]
@[simp] theorem State.nextSlew_otp p : (s.nextSlew p).otp = s.otp := by simp [State.nextSlew]
@[simp] theorem State.stepMade_otp p : (s.stepMade p).otp = s.otp := by simp [State.stepMade]
@[simp] theorem State.refReturns_otp good : (s.refReturns good).otp = s.otp := by simp [State.refReturns]

@[simp] theorem State.pollStatus_otp crcOk vdone vread : (s.pollStatus crcOk vdone vread).otp = s.otp := by
  simp only [State.pollStatus]
  split <;> simp

@[simp] theorem State.resumeClock_otp : s.resumeClock.otp = s.otp := by simp [State.resumeClock]
@[simp] theorem State.abandonRetain_otp : s.abandonRetain.otp = s.otp := by simp [State.abandonRetain]
@[simp] theorem State.takeWake_otp i : (s.takeWake i).otp = s.otp := by simp [State.takeWake]
@[simp] theorem State.enterRetain_otp : s.enterRetain.otp = s.otp := by simp [State.enterRetain]
@[simp] theorem State.beginWake_otp : s.beginWake.otp = s.otp := by simp [State.beginWake]
@[simp] theorem State.powerDown_otp : s.powerDown.otp = s.otp := by simp [State.powerDown]
@[simp] theorem State.clocksNormal_otp : s.clocksNormal.otp = s.otp := by simp [State.clocksNormal]

@[simp] theorem State.recordWake_otp src q : (s.recordWake src q).otp = s.otp := by
  simp only [State.recordWake]
  split <;> simp

@[simp] theorem State.resetWindows_otp lo hi : (s.resetWindows lo hi).otp = s.otp := by simp [State.resetWindows]
@[simp] theorem State.blankMemory_otp lo hi : (s.blankMemory lo hi).otp = s.otp := by simp [State.blankMemory]

@[simp] theorem State.resetBank_rows (s : State) (b : Nat) : (s.resetBank b).otp.rows = s.otp.rows := by
  simp only [State.resetBank]
  repeat' split
  all_goals simp

@[simp] theorem rowsStay_execPllLost p : RowsStay s (execPllLost p s) := by simp [execPllLost]
@[simp] theorem rowsStay_execIslandSwitchoverDone took : RowsStay s (execIslandSwitchoverDone took s) := by
  simp [execIslandSwitchoverDone]
@[simp] theorem rowsStay_execPllRestartAttempt p : RowsStay s (execPllRestartAttempt p s) := by simp [execPllRestartAttempt]
@[simp] theorem rowsStay_execDigLockChange p on : RowsStay s (execDigLockChange p on s) := by simp [execDigLockChange]
@[simp] theorem rowsStay_execAnalogLockChange p on : RowsStay s (execAnalogLockChange p on s) := by
  simp [execAnalogLockChange]
@[simp] theorem rowsStay_execTwinReady p : RowsStay s (execTwinReady p s) := by simp [execTwinReady]
@[simp] theorem rowsStay_execClkPhaseStepWrite p steps : RowsStay s (execClkPhaseStepWrite p steps s) := by
  simp [execClkPhaseStepWrite]
@[simp] theorem rowsStay_execPhaseStepMade p : RowsStay s (execPhaseStepMade p s) := by simp [execPhaseStepMade]
@[simp] theorem rowsStay_execReferenceLost : RowsStay s (execReferenceLost s) := by simp [execReferenceLost]
@[simp] theorem rowsStay_execReferenceReturned good : RowsStay s (execReferenceReturned good s) := by
  simp [execReferenceReturned]
@[simp] theorem rowsStay_execRefBadRecheck good : RowsStay s (execRefBadRecheck good s) := by simp [execRefBadRecheck]
@[simp] theorem rowsStay_execBuildoutDone steps : RowsStay s (execBuildoutDone steps s) := by simp [execBuildoutDone]

@[simp] theorem rowsStay_execAvsVoltageRequest : RowsStay s (execAvsVoltageRequest s) := by
  simp only [execAvsVoltageRequest]
  split <;> simp

@[simp] theorem rowsStay_execAvsStatusPoll crcOk vdone vread : RowsStay s (execAvsStatusPoll crcOk vdone vread s) := by
  simp [execAvsStatusPoll]
@[simp] theorem rowsStay_execAvsRequestFailed : RowsStay s (execAvsRequestFailed s) := by simp [execAvsRequestFailed]
@[simp] theorem rowsStay_execPwrStateRun i : RowsStay s (execPwrStateRun i s) := by simp [execPwrStateRun]
@[simp] theorem rowsStay_execPwrStateStandby i : RowsStay s (execPwrStateStandby i s) := by simp [execPwrStateStandby]

@[simp] theorem rowsStay_execPwrStateRetain i : RowsStay s (execPwrStateRetain i s) := by
  simp only [execPwrStateRetain]
  repeat' split
  all_goals simp

@[simp] theorem rowsStay_execRetainEntryDone : RowsStay s (execRetainEntryDone s) := by simp [execRetainEntryDone]
@[simp] theorem rowsStay_execWakeEvent src q : RowsStay s (execWakeEvent src q s) := by simp [execWakeEvent]
@[simp] theorem rowsStay_execWakeRegulatorRetry : RowsStay s (execWakeRegulatorRetry s) := by simp [execWakeRegulatorRetry]
@[simp] theorem rowsStay_execWakeComplete fails : RowsStay s (execWakeComplete fails s) := by simp [execWakeComplete]
@[simp] theorem rowsStay_execPwrBankAck i : RowsStay s (execPwrBankAck i s) := by simp [execPwrBankAck]

/-! ### Sundlink -/

@[simp] theorem State.slkTrain_otp p : (s.slkTrain p).otp = s.otp := by simp [State.slkTrain]
@[simp] theorem State.slkImageNext_otp j target kind ofs len : (s.slkImageNext j target kind ofs len).otp = s.otp := by
  simp [State.slkImageNext]

@[simp] theorem State.slkBegin_otp j : (s.slkBegin j).otp = s.otp := by
  simp only [State.slkBegin]
  repeat' split
  all_goals simp

@[simp] theorem State.slkAdvance_otp j : (s.slkAdvance j).otp = s.otp := by simp [State.slkAdvance]

@[simp] theorem State.slkRefusal_otp (s : State) (i kind : Nat) (f : State) (h : f.otp = s.otp) :
    (s.slkRefusal i kind f).otp = s.otp := by
  simp [State.slkRefusal, h]

@[simp] theorem State.slkStartJob_otp i k todo : (s.slkStartJob i k todo).otp = s.otp := by
  simp only [State.slkStartJob]
  split <;> simp

@[simp] theorem State.slkUpAgain_otp (s : State) (p : Nat) : (s.slkUpAgain p).otp = s.otp := by
  refine State.forAll_otp (fun j t => ?_) 4 s
  repeat' split
  all_goals simp

@[simp] theorem State.slkAccepted_otp j p : (s.slkAccepted j p).otp = s.otp := by
  simp only [State.slkAccepted]
  split <;> simp

@[simp] theorem State.slkAcked_otp p q : (s.slkAcked p q).otp = s.otp := by
  simp only [State.slkAcked]
  repeat' split
  all_goals simp

@[simp] theorem State.slkOperationFails_otp k : (s.slkOperationFails k).otp = s.otp := by
  simp only [State.slkOperationFails]
  repeat' split
  all_goals simp

@[simp] theorem State.slkRepeat_otp p q : (s.slkRepeat p q).otp = s.otp := by
  simp only [State.slkRepeat]
  split <;> simp

@[simp] theorem State.slkResult_otp p tag status detail arg : (s.slkResult p tag status detail arg).otp = s.otp := by
  simp [State.slkResult]
@[simp] theorem State.slkRefuse_otp p tag status : (s.slkRefuse p tag status).otp = s.otp := by simp [State.slkRefuse]
@[simp] theorem State.peerFirmware_otp p tag bs readback : (s.peerFirmware p tag bs readback).otp = s.otp := by
  simp [State.peerFirmware]
@[simp] theorem State.peerImage_otp p tag bs body : (s.peerImage p tag bs body).otp = s.otp := by simp [State.peerImage]
@[simp] theorem State.sendAlign_otp phi pulse : (s.sendAlign phi pulse).otp = s.otp := by simp [State.sendAlign]
@[simp] theorem State.alignGo_otp : s.alignGo.otp = s.otp := by simp [State.alignGo]

@[simp] theorem State.syncEdge_otp phiA phiB : (s.syncEdge phiA phiB).otp = s.otp := by
  simp only [State.syncEdge]
  repeat' split
  all_goals simp

@[simp] theorem State.alignCheck_otp e : (s.alignCheck e).otp = s.otp := by simp [State.alignCheck]

@[simp] theorem rowsStay_slkArrive {f : State → State} (h : ∀ t, (f t).otp.rows = t.otp.rows) (p : Nat) (x : SlkHdr)
    (answered : Bool) : RowsStay s (slkArrive s p x answered f) := by
  simp [slkArrive, h]

@[simp] theorem rowsStay_execSlkDistribute i kind mask ofs len hash :
    RowsStay s (execSlkDistribute i kind mask ofs len hash s) :=
  rowsStay_ezCommand _ (congrArg _ (State.slkRefusal_otp _ _ _ _ (by simp))) _ _

@[simp] theorem rowsStay_execSlkDistributeTimeout j : RowsStay s (execSlkDistributeTimeout j s) := by
  simp only [execSlkDistributeTimeout]
  split <;> simp

@[simp] theorem rowsStay_execSlkRecover i target actions kind ofs len hash nonce report :
    RowsStay s (execSlkRecover i target actions kind ofs len hash nonce report s) := by
  refine rowsStay_ezCommand _ (congrArg _ (State.slkRefusal_otp _ _ _ _ ?_)) _ _
  repeat' split
  all_goals simp

@[simp] theorem rowsStay_execSlkRecoverWaitTimeout j : RowsStay s (execSlkRecoverWaitTimeout j s) := by
  simp [execSlkRecoverWaitTimeout]
@[simp] theorem rowsStay_execSlkHello p h : RowsStay s (execSlkHello p h s) := by simp [execSlkHello]
@[simp] theorem rowsStay_execSlkAck p h q : RowsStay s (execSlkAck p h q s) := by simp [execSlkAck]
@[simp] theorem rowsStay_execSlkNak p h q : RowsStay s (execSlkNak p h q s) := by simp [execSlkNak]
@[simp] theorem rowsStay_execSlkAckTimeout p q : RowsStay s (execSlkAckTimeout p q s) := by simp [execSlkAckTimeout]
@[simp] theorem rowsStay_execSlkBeat p h : RowsStay s (execSlkBeat p h s) := by simp [execSlkBeat]
@[simp] theorem rowsStay_execSlkHelloSend p : RowsStay s (execSlkHelloSend p s) := by simp [execSlkHelloSend]
@[simp] theorem rowsStay_execSlkBeatSend p : RowsStay s (execSlkBeatSend p s) := by simp [execSlkBeatSend]
@[simp] theorem rowsStay_execSlkLinkTimeout p : RowsStay s (execSlkLinkTimeout p s) := by simp [execSlkLinkTimeout]
@[simp] theorem rowsStay_execSlkUnknownPacket p h : RowsStay s (execSlkUnknownPacket p h s) := by
  simp [execSlkUnknownPacket]
@[simp] theorem rowsStay_execSlkData p h ofs data : RowsStay s (execSlkData p h ofs data s) := by simp [execSlkData]

@[simp] theorem rowsStay_execSlkDataEnd p h kind len hash readback body :
    RowsStay s (execSlkDataEnd p h kind len hash readback body s) := by
  simp [execSlkDataEnd]

@[simp] theorem rowsStay_execSlkResult p h status : RowsStay s (execSlkResult p h status s) := by
  refine rowsStay_slkArrive _ (fun t => ?_) _ _ _
  dsimp only
  repeat' split
  all_goals simp

@[simp] theorem rowsStay_execSlkAttestReq p h nonce : RowsStay s (execSlkAttestReq p h nonce s) := by
  simp [execSlkAttestReq]

@[simp] theorem rowsStay_execSlkAttestRep p h report : RowsStay s (execSlkAttestRep p h report s) := by
  refine rowsStay_slkArrive _ (fun t => ?_) _ _ _
  repeat' split
  all_goals simp

@[simp] theorem rowsStay_execSlkMgmtRestart p h : RowsStay s (execSlkMgmtRestart p h s) := by simp [execSlkMgmtRestart]
@[simp] theorem rowsStay_execSlkFullReset p h : RowsStay s (execSlkFullReset p h s) := by simp [execSlkFullReset]

@[simp] theorem rowsStay_execSlkMonitorActivate p h : RowsStay s (execSlkMonitorActivate p h s) := by
  refine rowsStay_slkArrive _ (fun t => ?_) _ _ _
  repeat' split
  all_goals simp

@[simp] theorem rowsStay_execSlkAlignGo : RowsStay s (execSlkAlignGo s) := by simp [execSlkAlignGo]
@[simp] theorem rowsStay_execSyncEdge phiA phiB : RowsStay s (execSyncEdge phiA phiB s) := by simp [execSyncEdge]
@[simp] theorem rowsStay_execAlignStartPulse : RowsStay s (execAlignStartPulse s) := by simp [execAlignStartPulse]
@[simp] theorem rowsStay_execAlignTbRelease : RowsStay s (execAlignTbRelease s) := by simp [execAlignTbRelease]
@[simp] theorem rowsStay_execAlignCheckPulse : RowsStay s (execAlignCheckPulse s) := by simp [execAlignCheckPulse]
@[simp] theorem rowsStay_execSlkAlignPacket p h phiM pulse : RowsStay s (execSlkAlignPacket p h phiM pulse s) := by
  simp [execSlkAlignPacket]
@[simp] theorem rowsStay_execSlkXchk p h i tick v : RowsStay s (execSlkXchk p h i tick v s) := by simp [execSlkXchk]

@[simp] theorem rowsStay_execXchkUnpaired i : RowsStay s (execXchkUnpaired i s) := by
  simp only [execXchkUnpaired]
  split <;> simp

@[simp] theorem rowsStay_execJtagInstructionLoad code : RowsStay s (execJtagInstructionLoad code s) := by
  simp [execJtagInstructionLoad]
@[simp] theorem rowsStay_execTapReset : RowsStay s (execTapReset s) := by simp [execTapReset]

/-! ### Writes to the control plane -/

@[simp] theorem State.refreshMask_otp n anew : (s.refreshMask n anew).otp = s.otp := by simp [State.refreshMask]
@[simp] theorem State.rebase_otp n k : (s.rebase n k).otp = s.otp := by simp [State.rebase]
@[simp] theorem State.writeTbCfg_otp n w : (s.writeTbCfg n w).otp = s.otp := by simp [State.writeTbCfg]
@[simp] theorem State.writePwm_otp n a w late : (s.writePwm n a w late).otp = s.otp := by simp [State.writePwm]
@[simp] theorem State.writeGate_otp n a w : (s.writeGate n a w).otp = s.otp := by simp [State.writeGate]
@[simp] theorem State.writeAdcCfg_otp k w late : (s.writeAdcCfg k w late).otp = s.otp := by simp [State.writeAdcCfg]
@[simp] theorem State.writeCal_otp w : (s.writeCal w).otp = s.otp := by simp [State.writeCal]
@[simp] theorem State.writeAdc_otp a w late : (s.writeAdc a w late).otp = s.otp := by simp [State.writeAdc]
@[simp] theorem State.writeSdmClk_otp m w : (s.writeSdmClk m w).otp = s.otp := by simp [State.writeSdmClk]
@[simp] theorem State.writeSdmCfg_otp c w : (s.writeSdmCfg c w).otp = s.otp := by simp [State.writeSdmCfg]
@[simp] theorem State.writeSfCfg_otp c w : (s.writeSfCfg c w).otp = s.otp := by simp [State.writeSfCfg]
@[simp] theorem State.writeSdm_otp a w : (s.writeSdm a w).otp = s.otp := by simp [State.writeSdm]
@[simp] theorem State.trsFlag_otp f : (s.trsFlag f).otp = s.otp := by simp [State.trsFlag]
@[simp] theorem State.writeLoop_otp a w late : (s.writeLoop a w late).otp = s.otp := by simp [State.writeLoop]
@[simp] theorem State.writeTrs_otp e a w late : (s.writeTrs e a w late).otp = s.otp := by simp [State.writeTrs]
@[simp] theorem State.writeHch_otp n c w late : (s.writeHch n c w late).otp = s.otp := by simp [State.writeHch]

@[simp] theorem State.writeGfm_otp n a w late : (s.writeGfm n a w late).otp = s.otp := by
  simp only [State.writeGfm]
  repeat' split
  all_goals simp

@[simp] theorem State.writeRedCtrl_otp w : (s.writeRedCtrl w).otp = s.otp := by simp [State.writeRedCtrl]
@[simp] theorem State.writeRed_otp a w : (s.writeRed a w).otp = s.otp := by simp [State.writeRed]
@[simp] theorem State.writeSafReq_otp w : (s.writeSafReq w).otp = s.otp := by simp [State.writeSafReq]
@[simp] theorem State.writeSaf_otp a w : (s.writeSaf a w).otp = s.otp := by simp [State.writeSaf]

/-! ### Writes to the data plane -/

@[simp] theorem State.writeCapCfg_otp c w : (s.writeCapCfg c w).otp = s.otp := by simp [State.writeCapCfg]
@[simp] theorem State.writeSystem_otp a w : (s.writeSystem a w).otp = s.otp := by simp [State.writeSystem]
@[simp] theorem State.writeMbx_otp a w : (s.writeMbx a w).otp = s.otp := by simp [State.writeMbx]
@[simp] theorem State.writeDma_otp a w : (s.writeDma a w).otp = s.otp := by simp [State.writeDma]

@[simp] theorem State.writeCvuCfg_otp u w : (s.writeCvuCfg u w).otp = s.otp := by
  simp only [State.writeCvuCfg]
  split <;> simp

@[simp] theorem State.writeCvu_otp a w : (s.writeCvu a w).otp = s.otp := by
  simp only [State.writeCvu]
  repeat' split
  all_goals simp

@[simp] theorem State.writeChs_otp a w late : (s.writeChs a w late).otp = s.otp := by simp [State.writeChs]
@[simp] theorem State.writeAlign_otp mgmt w : (s.writeAlign mgmt w).otp = s.otp := by simp [State.writeAlign]
@[simp] theorem State.writeSlk_otp mgmt a w : (s.writeSlk mgmt a w).otp = s.otp := by simp [State.writeSlk]
@[simp] theorem State.writeShf_otp a w late : (s.writeShf a w late).otp = s.otp := by simp [State.writeShf]
@[simp] theorem State.writeAqrCfg_otp q w late : (s.writeAqrCfg q w late).otp = s.otp := by simp [State.writeAqrCfg]
@[simp] theorem State.writeAqrSweep_otp q w late : (s.writeAqrSweep q w late).otp = s.otp := by simp [State.writeAqrSweep]
@[simp] theorem State.writeAqrStale_otp q w late : (s.writeAqrStale q w late).otp = s.otp := by simp [State.writeAqrStale]
@[simp] theorem State.writeAqr_otp a w late : (s.writeAqr a w late).otp = s.otp := by simp [State.writeAqr]
@[simp] theorem State.regWrite_otp m a w late : (s.regWrite m a w late).otp = s.otp := by simp [State.regWrite]

/-! ### Accesses by address -/

@[simp] theorem State.regRead_otp (s : State) (a : Nat) : (s.regRead a).2.otp = s.otp := by
  simp [State.regRead, apply_ite Prod.snd]

@[simp] theorem State.busRead_otp a : (s.busRead a).st.otp = s.otp := by
  simp only [State.busRead]
  repeat' split
  all_goals simp

@[simp] theorem State.busWrite_otp m a w late : (s.busWrite m a w late).st.otp = s.otp := by
  simp only [State.busWrite]
  repeat' split
  all_goals simp

@[simp] theorem State.spiReadWords_otp (s : State) (incr : Bool) (addr : Nat) (notReady : BitVec 64) (k : Nat) :
    (s.spiReadWords incr addr notReady k).1.otp = s.otp := by
  induction k with
  | zero => rfl
  | succ k ih => simpa [State.spiReadWords] using ih

@[simp] theorem State.spiEnd_otp prev accepted miso : (s.spiEnd prev accepted miso).otp = s.otp := by simp [State.spiEnd]

@[simp] theorem State.spiRead_otp incr count addr crc notReady clocked :
    (s.spiRead incr count addr crc notReady clocked).otp = s.otp := by
  simp [State.spiRead]

@[simp] theorem State.spiWriteWords_otp (s : State) (step addr : Nat) (late : Nat → Bool) (k : Nat) (l : List Word) :
    (s.spiWriteWords step addr late k l).1.otp = s.otp := by
  induction l generalizing s k with
  | nil => rfl
  | cons w t ih => simp [State.spiWriteWords, ih]

@[simp] theorem State.spiWrite_otp incr count addr data crc late :
    (s.spiWrite incr count addr data crc late).otp = s.otp := by
  simp [State.spiWrite]

@[simp] theorem rowsStay_execRegisterWrite m addr w late : RowsStay s (execRegisterWrite m addr w late s) := by
  simp [execRegisterWrite]

@[simp] theorem rowsStay_execSpiReadIncrementing count addr crc notReady clocked :
    RowsStay s (execSpiReadIncrementing count addr crc notReady clocked s) := by
  simp [execSpiReadIncrementing]

@[simp] theorem rowsStay_execSpiWriteIncrementing count addr data crc late :
    RowsStay s (execSpiWriteIncrementing count addr data crc late s) := by
  simp [execSpiWriteIncrementing]

@[simp] theorem rowsStay_execSpiReadFixed count addr crc notReady clocked :
    RowsStay s (execSpiReadFixed count addr crc notReady clocked s) := by
  simp [execSpiReadFixed]

@[simp] theorem rowsStay_execSpiWriteFixed count addr data crc late :
    RowsStay s (execSpiWriteFixed count addr data crc late s) := by
  simp [execSpiWriteFixed]

/-! ### Engine events -/

@[simp] theorem rowsStay_execBeatSlot linkA linkB toggleA toggleB :
    RowsStay s (execBeatSlot linkA linkB toggleA toggleB s) := by
  simp [execBeatSlot]

@[simp] theorem rowsStay_execSwitchoverComplete took : RowsStay s (execSwitchoverComplete took s) := by
  simp [execSwitchoverComplete]
@[simp] theorem rowsStay_execBothEnginesSilent : RowsStay s (execBothEnginesSilent s) := by simp [execBothEnginesSilent]
@[simp] theorem rowsStay_execEngineInternalError e cause : RowsStay s (execEngineInternalError e cause s) := by
  simp [execEngineInternalError]

@[simp] theorem rowsStay_execPrivResultClassify n standby cycles :
    RowsStay s (execPrivResultClassify n standby cycles s) := by
  simp [execPrivResultClassify]

@[simp] theorem rowsStay_execPrivResultCompare n k upset : RowsStay s (execPrivResultCompare n k upset s) := by
  simp [execPrivResultCompare]

/-! ### Commands of Eznel -/

@[simp] theorem State.readWords_otp (s : State) (addr k : Nat) : (s.readWords addr k).1.otp = s.otp := by
  induction k with
  | zero => rfl
  | succ k ih => simpa [State.readWords] using ih

@[simp] theorem State.writeWords_otp (s : State) (addr : Nat) (late : Bool) (k : Nat) (l : List Word) :
    (s.writeWords addr late k l).otp = s.otp := by
  induction l generalizing s k with
  | nil => rfl
  | cons w t ih => simp [State.writeWords, ih]

@[simp] theorem State.paramPut_otp p w v late : (s.paramPut p w v late).otp = s.otp := by
  simp only [State.paramPut]
  split <;> simp

@[simp] theorem State.paramRejected_otp p : (s.paramRejected p).otp = s.otp := by
  simp only [State.paramRejected]
  repeat' split
  all_goals simp

theorem State.paramAll_otp {s t : State} {auth k : Nat} {late : Bool} {es : List ParamEntry}
    (h : s.paramAll auth late k es = .ok t) : t.otp = s.otp := by
  induction es generalizing s k with
  | nil => cases h; rfl
  | cons e es ih =>
    simp only [State.paramAll] at h
    split at h
    · cases h
    · split at h
      · simpa using ih h
      · cases h

@[simp] theorem State.refuseParam_otp i k p f : (s.refuseParam i k p f).otp = s.otp := by
  simp only [State.refuseParam]
  split <;> simp

@[simp] theorem State.modbusWords_otp (s : State) (l : List Nat) : (s.modbusWords l).1.otp = s.otp := by
  induction l generalizing s with
  | nil => rfl
  | cons a l ih =>
    rw [State.modbusWords]
    split <;> simp [ih]

@[simp] theorem rowsStay_execStageWrite i ofs data : RowsStay s (execStageWrite i ofs data s) := by simp [execStageWrite]
@[simp] theorem rowsStay_execStageRead i ofs len : RowsStay s (execStageRead i ofs len s) := by simp [execStageRead]
@[simp] theorem rowsStay_execRegRead i addr n : RowsStay s (execRegRead i addr n s) := by simp [execRegRead]

@[simp] theorem rowsStay_execRegWrite i addr ws late : RowsStay s (execRegWrite i addr ws late s) := by
  simp only [execRegWrite]
  repeat' split
  all_goals simp

@[simp] theorem rowsStay_execMemRead i addr n : RowsStay s (execMemRead i addr n s) := by simp [execMemRead]

@[simp] theorem rowsStay_execParamWrite i late : RowsStay s (execParamWrite i late s) := by
  refine rowsStay_ezCommand _ (congrArg _ ?_) _ _
  split
  · simp
  · split
    next h => simpa using State.paramAll_otp h
    next => simp

@[simp] theorem rowsStay_execParamRead i : RowsStay s (execParamRead i s) := by
  simp only [execParamRead]
  repeat' split
  all_goals simp

@[simp] theorem rowsStay_execParamInfo i p : RowsStay s (execParamInfo i p s) := by
  simp only [execParamInfo]
  split <;> simp

@[simp] theorem rowsStay_execRedReload i : RowsStay s (execRedReload i s) := by simp [execRedReload]
@[simp] theorem rowsStay_execRedReloadDone : RowsStay s (execRedReloadDone s) := by simp [execRedReloadDone]
@[simp] theorem rowsStay_execRedExchange i : RowsStay s (execRedExchange i s) := by simp [execRedExchange]

@[simp] theorem rowsStay_execRingCmd i q op node count arg cells data :
    RowsStay s (execRingCmd i q op node count arg cells data s) := by
  simp [execRingCmd]

@[simp] theorem rowsStay_execShelfRead i q l first n : RowsStay s (execShelfRead i q l first n s) := by simp [execShelfRead]
@[simp] theorem rowsStay_execRingSetUid i q first last : RowsStay s (execRingSetUid i q first last s) := by
  simp [execRingSetUid]
@[simp] theorem rowsStay_execTimeSet i secs ns : RowsStay s (execTimeSet i secs ns s) := by simp [execTimeSet]
@[simp] theorem rowsStay_execTimeStep i d : RowsStay s (execTimeStep i d s) := by simp [execTimeStep]
@[simp] theorem rowsStay_execTimeGet i : RowsStay s (execTimeGet i s) := by simp [execTimeGet]
@[simp] theorem rowsStay_execModbusRead p fc r n : RowsStay s (execModbusRead p fc r n s) := by simp [execModbusRead]

/-! ### Station registers and envelopes -/

@[simp] theorem rowsStay_execStationPeriodBoundary n : RowsStay s (execStationPeriodBoundary n s) := by
  simp [execStationPeriodBoundary]
@[simp] theorem rowsStay_execTriggerCompareMatch n t : RowsStay s (execTriggerCompareMatch n t s) := by
  simp [execTriggerCompareMatch]
@[simp] theorem rowsStay_execEngineStationStart n : RowsStay s (execEngineStationStart n s) := by
  simp [execEngineStationStart]
@[simp] theorem rowsStay_execLoopComplete n k cycles standby : RowsStay s (execLoopComplete n k cycles standby s) := by
  simp [execLoopComplete]
@[simp] theorem rowsStay_execStateCopyAck n intact upset : RowsStay s (execStateCopyAck n intact upset s) := by
  simp [execStateCopyAck]
@[simp] theorem rowsStay_execSnapshotRecordWritten n accepted : RowsStay s (execSnapshotRecordWritten n accepted s) := by
  simp [execSnapshotRecordWritten]
@[simp] theorem rowsStay_execExecutionDeadline n : RowsStay s (execExecutionDeadline n s) := by simp [execExecutionDeadline]
@[simp] theorem rowsStay_execGfmEnvSeqWrite n seq late : RowsStay s (execGfmEnvSeqWrite n seq late s) := by
  simp [execGfmEnvSeqWrite]
@[simp] theorem rowsStay_execEnvFallback n : RowsStay s (execEnvFallback n s) := by simp [execEnvFallback]
@[simp] theorem rowsStay_execGfmSnap0Read n : RowsStay s (execGfmSnap0Read n s) := by simp [execGfmSnap0Read]
@[simp] theorem rowsStay_execGfmRunRequest n w : RowsStay s (execGfmRunRequest n w s) := by simp [execGfmRunRequest]
@[simp] theorem rowsStay_execGfmStopRequest n w : RowsStay s (execGfmStopRequest n w s) := by simp [execGfmStopRequest]
@[simp] theorem rowsStay_execGfmResetRequest n w : RowsStay s (execGfmResetRequest n w s) := by simp [execGfmResetRequest]
@[simp] theorem rowsStay_execGfmParWrite n i w late : RowsStay s (execGfmParWrite n i w late s) := by simp [execGfmParWrite]
@[simp] theorem rowsStay_execStopTimeout n : RowsStay s (execStopTimeout n s) := by simp [execStopTimeout]

/-! ### Limiting and ride-through -/

@[simp] theorem State.keepCeiling_otp n : (s.keepCeiling n).otp = s.otp := by simp [State.keepCeiling]
@[simp] theorem State.clearFault_otp n : (s.clearFault n).otp = s.otp := by simp [State.clearFault]
@[simp] theorem rowsStay_execLimitWindowCrossing n c code : RowsStay s (execLimitWindowCrossing n c code s) := by
  simp [execLimitWindowCrossing]
@[simp] theorem rowsStay_execHwlimPersist n : RowsStay s (execHwlimPersist n s) := by simp [execHwlimPersist]
@[simp] theorem rowsStay_execCeilOvl n : RowsStay s (execCeilOvl n s) := by simp [execCeilOvl]

@[simp] theorem rowsStay_execClearConfirmed n : RowsStay s (execClearConfirmed n s) := by
  simp only [execClearConfirmed]
  repeat' split
  all_goals simp

@[simp] theorem rowsStay_execRtCurveTrip n : RowsStay s (execRtCurveTrip n s) := by simp [execRtCurveTrip]
@[simp] theorem rowsStay_execVWindowTrip n : RowsStay s (execVWindowTrip n s) := by simp [execVWindowTrip]
@[simp] theorem rowsStay_execFWindowTrip n : RowsStay s (execFWindowTrip n s) := by simp [execFWindowTrip]
@[simp] theorem rowsStay_execOlvTimeout n : RowsStay s (execOlvTimeout n s) := by simp [execOlvTimeout]

/-! ### Starts -/

@[simp] theorem State.joinBus_otp n : (s.joinBus n).otp = s.otp := by simp [State.joinBus]
@[simp] theorem State.closeBreaker_otp n : (s.closeBreaker n).otp = s.otp := by simp [State.closeBreaker]
@[simp] theorem rowsStay_execDeadBusConfirmed n : RowsStay s (execDeadBusConfirmed n s) := by simp [execDeadBusConfirmed]
@[simp] theorem rowsStay_execDeadBusLiveTimeout n : RowsStay s (execDeadBusLiveTimeout n s) := by
  simp [execDeadBusLiveTimeout]
@[simp] theorem rowsStay_execHoldTimeout n : RowsStay s (execHoldTimeout n s) := by simp [execHoldTimeout]
@[simp] theorem rowsStay_execBiasDecayEnd n : RowsStay s (execBiasDecayEnd n s) := by simp [execBiasDecayEnd]
@[simp] theorem rowsStay_execBusLiveConfirmed n : RowsStay s (execBusLiveConfirmed n s) := by simp [execBusLiveConfirmed]
@[simp] theorem rowsStay_execSyncWindowHeld n : RowsStay s (execSyncWindowHeld n s) := by simp [execSyncWindowHeld]

@[simp] theorem rowsStay_execBreakerInputChange n closed : RowsStay s (execBreakerInputChange n closed s) := by
  simp only [execBreakerInputChange]
  split <;> simp

@[simp] theorem rowsStay_execBusGapTimeout n : RowsStay s (execBusGapTimeout n s) := by simp [execBusGapTimeout]
@[simp] theorem rowsStay_execSyncTimeout n : RowsStay s (execSyncTimeout n s) := by simp [execSyncTimeout]

/-! ### The step -/

/-- Only BUREAU_PROGRAM_DONE programs these rows. -/
theorem rowsStay_exec (c : Instr) (hc : c ≠ .bureauProgramDone) : RowsStay s (exec c s) := by
  cases c
  case bureauProgramDone => exact absurd rfl hc
  all_goals simp [exec]

/-- No bit of a row falls from 1 to 0, and no floor falls. -/
def OnceRows.Rise (r q : OnceRows) : Prop :=
  (∀ i, r.grant.getLsbD i = true → q.grant.getLsbD i = true) ∧
    r.svnFw ≤ q.svnFw ∧ r.svnSettle ≤ q.svnSettle ∧ r.svnTrestle ≤ q.svnTrestle ∧
    (∀ i, r.revoked.getLsbD i = true → q.revoked.getLsbD i = true) ∧ (r.dbgPerm = true → q.dbgPerm = true)

theorem OnceRows.rise_of_eq {r q : OnceRows} (h : q = r) : r.Rise q := by
  subst h
  exact ⟨fun _ => id, le_rfl, le_rfl, le_rfl, fun _ => id, id⟩

/-- Programming sets bits by OR and raises floors to a maximum; the other changes write keys and generations (R4, R391,
R395). -/
theorem State.programChange_rise (r : BureauReq) {o : OnceRows} (ho : s.otp.rows = o) :
    o.Rise (s.programChange r).otp.rows := by
  subst ho
  simp only [State.programChange]
  cases r.change with
  | enrol op co im l =>
    refine OnceRows.rise_of_eq ?_
    simp only [State.takeRecords_otp, State.showOtp_otp]
    split <;> rfl
  | settings l =>
    refine OnceRows.rise_of_eq ?_
    dsimp only
    split <;> simp
  | grant b => simp +contextual [OnceRows.Rise, OtpUnit.rows]
  | svn f se tr => simp [OnceRows.Rise, OtpUnit.rows]
  | key role pub =>
    dsimp only
    split
    · exact OnceRows.rise_of_eq rfl
    · split <;> simp +contextual [OnceRows.Rise, OtpUnit.rows]
  | debug => simp [OnceRows.Rise, OtpUnit.rows]
  | restore v l op co => exact OnceRows.rise_of_eq rfl

theorem execBureauProgramDone_rise {t : State} (h : execBureauProgramDone s = .next t) : s.otp.rows.Rise t.otp.rows := by
  simp only [execBureauProgramDone, whenDev, Host.Outcome.next.injEq] at h
  subst h
  split
  · split
    next r _ =>
      split
      · exact OnceRows.rise_of_eq rfl
      · simp only [State.count_rest, State.setFlag_rest]
        exact State.programChange_rise _ r (by simp)
    next => exact OnceRows.rise_of_eq rfl
  · exact OnceRows.rise_of_eq rfl

theorem exec_rise {c : Instr} {t : State} (h : exec c s = .next t) : s.otp.rows.Rise t.otp.rows := by
  by_cases hc : c = .bureauProgramDone
  · subst hc
    exact execBureauProgramDone_rise s h
  · exact OnceRows.rise_of_eq (rowsStay_exec s c hc t h)

/-- Settles O58: BUREAU_PROGRAM_DONE only adds to the rows, and every other command leaves them. -/
theorem oneTimeRowsOnlyRise : Obligations.OneTimeRowsOnlyRise := fun _ s _ h => exec_rise s h

end Sys2Proof.Machine
end

section
/-! SUPPORT. Accesses by address (R7, R10 to R17, R26, R31, R39 to R41): what one read, one write and a row that stands for one
access do in each case. That a misaligned write hits nothing is log row 61, that windows are gated in the RETAIN states log row
69. -/

namespace Sys2Proof.Machine

variable (s : State)

/-! ### Memory words -/

theorem leNat_leBytes (w : Word) : leNat (leBytes w) = w.toNat := by
  simp only [leBytes, byteOf, leNat, BitVec.toNat_ofNat]
  omega

theorem State.word_setWord (a : Nat) (w : Word) : (s.setWord a w).word a = w := by
  have h : (s.setWord a w).bytes a 4 = leBytes w := s.bytes_setBytes (leBytes w) a
  rw [State.word, h, leNat_leBytes, BitVec.ofNat_toNat, BitVec.setWidth_eq]

theorem State.byte_setWord_ne (w : Word) {a c : Nat} (h : c < a ∨ a + 4 ≤ c) : (s.setWord a w).byte c = s.byte c :=
  s.byte_setBytes_ne (leBytes w) a c h

@[simp] theorem State.setBytes_regs (l : List Byte) (a : Nat) : (s.setBytes a l).regs = s.regs := by
  induction l generalizing s a with
  | nil => rfl
  | cons b t ih => simp [State.setBytes, ih]

@[simp] theorem State.setWord_regs (a : Nat) (w : Word) : (s.setWord a w).regs = s.regs := s.setBytes_regs _ a

/-! ### Windows (R7, R26, R39) -/

theorem State.window_pwm (n : Fin 4) : s.window (0x08 + n) = some (s.grantS n) := by
  have : 0x08 + n.val < 0x0C := by omega
  simp [State.window, this]

theorem State.window_gfm (n : Fin 4) : s.window (0x14 + n) = some (s.grantS n) := by
  fin_cases n <;> rfl

theorem State.window_port (q : Fin 64) : s.window (0x20 + q / 16) = some (s.grantPort (16 * (q / 16))) := by
  have h1 : q.val / 16 < 4 := by omega
  generalize q.val / 16 = k at *
  interval_cases k <;> rfl

variable {s}

/-- The conversion, control and pulse islands are gated outside RUN. -/
theorem State.gatedWindow_eq_true {x : Nat} (h : s.fld PWR_STATUS_STATE ≠ 0) (h1 : 0x08 ≤ x) (h2 : x ≤ 0x18) :
    s.gatedWindow x = true := by
  simp [State.gatedWindow, h, h1, h2]

section
variable {t : State} {x : Nat} (hd : s.devRuns = true)
include hd

theorem writeWindow_ungranted (h : s.window x = some false) :
    writeWindow x s t = .next (s.setFlag SYS_STATUS_GRANT_MISS) := by
  simp [writeWindow, hd, h]

theorem writeWindow_gated (h : s.window x = some true) (hg : s.gatedWindow x = true) : writeWindow x s t = .next s := by
  simp [writeWindow, hd, h, hg]

theorem readWindow_ungranted (h : s.window x = some false) :
    readWindow x s t = .next { s.setFlag SYS_STATUS_GRANT_MISS with readData := 0 } := by
  simp [readWindow, hd, h]

theorem readWindow_gated (h : s.window x = some true) (hg : s.gatedWindow x = true) :
    readWindow x s t = .next { s with readData := 0 } := by
  simp [readWindow, hd, h, hg]

end

/-! ### Reads by address -/

section
variable {a : Nat}

theorem State.busRead_ungranted (ha : a < 0x800000) (h : s.window (a / 0x10000) = some false) :
    s.busRead a = ⟨s.setFlag SYS_STATUS_GRANT_MISS, 0, .ungranted⟩ := by
  simp [State.busRead, Nat.not_le.mpr ha, h]

theorem State.busRead_gated (ha : a < 0x800000) (h : s.window (a / 0x10000) = some true)
    (hg : s.gatedWindow (a / 0x10000) = true) : s.busRead a = ⟨s, 0, .gated⟩ := by
  simp [State.busRead, Nat.not_le.mpr ha, h, hg]

theorem State.busRead_memory (ha : 0x800000 ≤ a) (h : inMemory (s.apertureAt a) = true) :
    s.busRead a = ⟨s, s.word (s.apertureAt a), .reached⟩ := by
  simp [State.busRead, ha, h]

theorem State.busRead_outside (ha : 0x800000 ≤ a) (h : inMemory (s.apertureAt a) = false) :
    s.busRead a = ⟨s.setFlag SYS_STATUS_APERTURE_ERR, 0, .aperture⟩ := by
  simp [State.busRead, ha, h]

/-! ### Writes by address -/

variable {m : Master} {w : Word} {late : Bool}

theorem State.busWrite_unlisted (ha : a < 0x800000) (h : s.window (a / 0x10000) = none) :
    s.busWrite m a w late = ⟨s.setFlag SYS_STATUS_ADDR_ERR, 0, .unlisted⟩ := by
  simp [State.busWrite, Nat.not_le.mpr ha, h]

theorem State.busWrite_ungranted (ha : a < 0x800000) (h : s.window (a / 0x10000) = some false) :
    s.busWrite m a w late = ⟨s.setFlag SYS_STATUS_GRANT_MISS, 0, .ungranted⟩ := by
  simp [State.busWrite, Nat.not_le.mpr ha, h]

theorem State.busWrite_gated (ha : a < 0x800000) (h : s.window (a / 0x10000) = some true)
    (hg : s.gatedWindow (a / 0x10000) = true) : s.busWrite m a w late = ⟨s, 0, .gated⟩ := by
  simp [State.busWrite, Nat.not_le.mpr ha, h, hg]

theorem State.busWrite_register (ha : a < 0x800000) (h : s.window (a / 0x10000) = some true)
    (hg : s.gatedWindow (a / 0x10000) = false) (hm : s.mayWrite m a = true) :
    s.busWrite m a w late = ⟨s.regWrite m a w late, 0, .reached⟩ := by
  simp [State.busWrite, Nat.not_le.mpr ha, h, hg, hm]

theorem State.mayWrite_closed (hm : m ≠ .mgmt) (hc : regClosed a = true) : s.mayWrite m a = false := by
  simp [State.mayWrite, hm, hc]

/-- A closed register takes nothing, in a gated window or not. -/
theorem State.busWrite_closed (ha : a < 0x800000) (h : s.window (a / 0x10000) = some true) (hm : m ≠ .mgmt)
    (hc : regClosed a = true) : (s.busWrite m a w late).st = s := by
  cases hg : s.gatedWindow (a / 0x10000)
  · simp [State.busWrite, Nat.not_le.mpr ha, h, hg, State.mayWrite_closed hm hc]
  · simp [State.busWrite_gated ha h hg]

theorem State.busWrite_outside (ha : 0x800000 ≤ a) (h : inMemory (s.apertureAt a) = false) :
    s.busWrite m a w late = ⟨s.setFlag SYS_STATUS_APERTURE_ERR, 0, .aperture⟩ := by
  simp [State.busWrite, ha, h]

theorem State.busWrite_closedMemory (ha : 0x800000 ≤ a) (h : inMemory (s.apertureAt a) = true) (hm : m ≠ .mgmt)
    (hc : memClosed (s.apertureAt a) = true) : s.busWrite m a w late = ⟨s, 0, .denied⟩ := by
  simp [State.busWrite, ha, h, hm, hc]

theorem State.busWrite_memory (ha : 0x800000 ≤ a) (h : inMemory (s.apertureAt a) = true)
    (hm : m = .mgmt ∨ memClosed (s.apertureAt a) = false) :
    s.busWrite m a w late = ⟨s.setWord (s.apertureAt a) w, 0, .reached⟩ := by
  rcases hm with hm | hm <;> simp [State.busWrite, ha, h, hm]

end

/-! ### The register write of one master -/

section
variable {m : Master} {addr : BitVec 24} {w : Word} {late : Bool} (hd : s.devRuns = true)
include hd

theorem exec_registerWrite_misaligned (h : addr.toNat % 4 ≠ 0) :
    exec (.registerWrite m addr w late) s = .next (s.setFlag SYS_STATUS_ADDR_ERR) :=
  (whenDev_run s hd).trans (by rw [if_pos h])

theorem exec_registerWrite_aligned (h : addr.toNat % 4 = 0) :
    exec (.registerWrite m addr w late) s = .next (s.busWrite m addr.toNat w late).st :=
  (whenDev_run s hd).trans (by rw [if_neg (not_not.mpr h)])

end

/-! ### SYS_STATUS -/

/-- A write of one clears a W1C field of one bit. -/
theorem bits_clearBits_one (old : Word) (wr : Word) {lo : Nat} (h : lo + 1 ≤ 32) (hw : bits wr lo 1 = 1) :
    bits (clearBits old wr lo 1) lo 1 = 0 := by
  have hb : bits old lo 1 < 2 := bits_lt old lo 1
  rw [clearBits, bits_putBits_self _ _ h, hw, Nat.and_one_is_mod]
  omega

theorem regAt_sys_status : regAt SYS_STATUS = some ⟨"SYS_STATUS", 0xC, [],
    [⟨3, 1, .w1c, .live, 0⟩, ⟨2, 1, .w1c, .live, 0⟩, ⟨1, 1, .w1c, .live, 0⟩, ⟨0, 1, .w1c, .live, 0⟩]⟩ := by
  rfl

variable (s) in
theorem State.regWrite_sys_status (m : Master) (w : Word) (late : Bool) :
    s.regWrite m SYS_STATUS w late = s.writeReg SYS_STATUS w true false none none := by
  rfl

variable (s) in
/-- SYS_STATUS is never gated, and every master may write it. -/
theorem State.busWrite_sys_status (m : Master) (w : Word) (late : Bool) :
    (s.busWrite m SYS_STATUS w late).st = s.writeReg SYS_STATUS w true false none none := by
  have hm : s.mayWrite m SYS_STATUS = true := by cases m <;> rfl
  rw [State.busWrite_register (by decide) rfl rfl hm, s.regWrite_sys_status]

/-- GRANT_MISS is W1C. -/
theorem State.busWrite_clears_grantMiss (m : Master) (late : Bool) :
    (s.busWrite m SYS_STATUS (BitVec.ofNat 32 (2 ^ SYS_STATUS_GRANT_MISS.lo)) late).st.flag SYS_STATUS_GRANT_MISS = false := by
  simp only [s.busWrite_sys_status, State.writeReg, regAt_sys_status, applyWrite, List.foldl, applyField, State.flag, State.fld]
  rw [show SYS_STATUS_GRANT_MISS.addr = SYS_STATUS from rfl, State.reg_setReg_self,
    show SYS_STATUS_GRANT_MISS.w = 1 from rfl, show SYS_STATUS_GRANT_MISS.lo = 0 from rfl,
    bits_clearBits_one _ _ (by decide) (by decide)]
  rfl

/-! ### The statement -/

/-- Settles O41: each clause is one case of an access by address, or of a row that stands for one. -/
theorem busAccesses : Obligations.BusAccesses := by
  refine ⟨fun m addr w late s hd => ?_, fun a s => ?_, fun s hd => ?_⟩
  · refine ⟨exec_registerWrite_misaligned hd, fun h4 ha => ?_, fun h4 ha => ?_⟩ <;>
      rw [exec_registerWrite_aligned hd h4]
    · refine ⟨fun h => ?_, fun h => ?_, fun h hg => ?_, fun h hm hc => ?_, fun h hg hm => ?_⟩
      · rw [State.busWrite_unlisted ha h]
      · rw [State.busWrite_ungranted ha h]
      · rw [State.busWrite_gated ha h hg]
      · rw [State.busWrite_closed ha h hm hc]
      · rw [State.busWrite_register ha h hg hm]
    · refine ⟨fun h => ?_, fun h hm hc => ?_, fun h hm => ?_⟩
      · rw [State.busWrite_outside ha h]
      · rw [State.busWrite_closedMemory ha h hm hc]
      · rw [State.busWrite_memory ha h hm]
        exact ⟨_, rfl, s.word_setWord _ w, s.setWord_regs _ w, fun _ => s.byte_setWord_ne w⟩
  · refine ⟨State.busRead_ungranted, State.busWrite_clears_grantMiss, fun ha h hg => ?_, fun _ => rfl, State.busRead_memory,
      fun ha h => ⟨State.busRead_outside ha h, fun m w late => State.busWrite_outside ha h⟩⟩
    rw [State.busRead_gated ha h hg]
    exact ⟨rfl, rfl⟩
  · refine ⟨fun n h => ?_, fun h => ?_, fun h => ?_, fun h => ?_, fun q h => ?_,
      fun hs => ⟨fun n h => ?_, fun w => ?_, ?_, fun n => ?_⟩⟩
    · have hp : s.window (0x08 + n) = some false := by rw [s.window_pwm, h]
      have hg : s.window (0x14 + n) = some false := by rw [s.window_gfm, h]
      exact ⟨fun _ => writeWindow_ungranted hd hg, fun _ _ _ => writeWindow_ungranted hd hg,
        fun _ => writeWindow_ungranted hd hp, readWindow_ungranted hd hg⟩
    · exact readWindow_ungranted hd (congrArg some h)
    · exact writeWindow_ungranted hd (congrArg some h)
    · exact writeWindow_ungranted hd (congrArg some h)
    · exact writeWindow_ungranted hd (by rw [s.window_port, h])
    · have hp : s.window (0x08 + n) = some true := by rw [s.window_pwm, h]
      have hg : s.window (0x14 + n) = some true := by rw [s.window_gfm, h]
      exact ⟨fun _ => writeWindow_gated hd hp (State.gatedWindow_eq_true hs (by omega) (by omega)),
        readWindow_gated hd hg (State.gatedWindow_eq_true hs (by omega) (by omega))⟩
    · exact writeWindow_gated hd rfl (State.gatedWindow_eq_true hs (by decide) (by decide))
    · exact readWindow_gated hd rfl (State.gatedWindow_eq_true hs (by decide) (by decide))
    · exact readWindow_gated hd rfl (State.gatedWindow_eq_true hs (by decide) (by decide))

end Sys2Proof.Machine
end

section
/-! SUPPORT. The battery envelope (R31 to R34, R73): a write of GFM_ENV_SEQ in each of its three cases, and what a boundary
brings into force. -/

namespace Sys2Proof.Machine

variable {s : State}

/-! ### Windows in RUN (R26, R435) -/

theorem State.devRuns_of_islandsRun (h : s.islandsRun = true) : s.devRuns = true := by
  simp only [State.islandsRun, Bool.and_eq_true] at h
  exact h.1.1

theorem State.pwrState_of_islandsRun (h : s.islandsRun = true) : s.fld PWR_STATUS_STATE = 0 := by
  simp only [State.islandsRun, Bool.and_eq_true, beq_iff_eq] at h
  exact h.1.2

/-- No window is gated in RUN. -/
theorem State.gatedWindow_of_islandsRun (h : s.islandsRun = true) (x : Nat) : s.gatedWindow x = false := by
  simp [State.gatedWindow, State.pwrState_of_islandsRun h]

theorem writeWindow_open {t : State} {x : Nat} (hr : s.islandsRun = true) (h : s.window x = some true) :
    writeWindow x s t = .next t := by
  simp [writeWindow, State.devRuns_of_islandsRun hr, h, State.gatedWindow_of_islandsRun hr]

/-! ### The commit (R32, R33) -/

theorem exec_gfmEnvSeqWrite {n : Fin 4} (hr : s.islandsRun = true) (hg : s.grantS n = true) (seq : Word) (late : Bool) :
    exec (.gfmEnvSeqWrite n seq late) s = .next (s.commitEnvelope n seq late) :=
  writeWindow_open hr (by rw [s.window_gfm, hg])

section
variable {n : Nat} {seq : Word} {late : Bool}

theorem State.commitEnvelope_unchanged : s.commitEnvelope n (s.reg (GFM_ENV_SEQ n)) late = s := if_pos rfl

theorem State.commitEnvelope_accepted (hs : seq ≠ s.reg (GFM_ENV_SEQ n)) (hd : envOk (s.reg (GFM_ENV_PDIS n)) 4 = true)
    (hc : envOk (s.reg (GFM_ENV_PCHG n)) 4 = true) (he : envOk (s.reg (GFM_ENV_ERES n)) 600 = true) :
    s.commitEnvelope n seq late =
      ((s.setBoth (GFM_ENV_SEQ n) seq).setFlagIf late (GFM_CORE_FLAGS_LATE_WRITE n)).onStn n (fun u =>
        { u with
          envWait := some
            { pdis := f32ToRat (s.reg (GFM_ENV_PDIS n)), pchg := f32ToRat (s.reg (GFM_ENV_PCHG n)),
              eres := f32ToRat (s.reg (GFM_ENV_ERES n)), seq := seq, otp := false } }) := by
  simp only [State.commitEnvelope, if_neg hs, hd, hc, he, Bool.and_self, if_true]

theorem State.commitEnvelope_rejected (hs : seq ≠ s.reg (GFM_ENV_SEQ n))
    (h : envOk (s.reg (GFM_ENV_PDIS n)) 4 = false ∨ envOk (s.reg (GFM_ENV_PCHG n)) 4 = false ∨
      envOk (s.reg (GFM_ENV_ERES n)) 600 = false) :
    s.commitEnvelope n seq late =
      ((s.setBoth (GFM_ENV_SEQ n) seq).setFlagIf late (GFM_CORE_FLAGS_LATE_WRITE n)).count (GFM_ENV_STATUS_ENV_REJECT n) := by
  have hbad : (envOk (s.reg (GFM_ENV_PDIS n)) 4 && envOk (s.reg (GFM_ENV_PCHG n)) 4 &&
      envOk (s.reg (GFM_ENV_ERES n)) 600) = false := by
    rcases h with h | h | h <;> simp [h]
  simp only [State.commitEnvelope, if_neg hs, hbad, Bool.false_eq_true, if_false]

end

/-! ### The fallback and the boundary (R32, R34, R73) -/

/-- While a set of the host is in force, the age that runs out makes the fallback due. -/
theorem exec_envFallback {n : Fin 4} (hr : s.islandsRun = true) (ho : (s.stnOf n).env.otp = false) :
    exec (.envFallback n) s = .next (s.onStn n (fun u => { u with fallbackDue := true })) :=
  (whenRun_run s hr).trans (by rw [ho, Bool.false_and, if_neg Bool.false_ne_true])

theorem State.stnOf_setFld (f : Fld) (v n : Nat) : (s.setFld f v).stnOf n = s.stnOf n := rfl

variable {n : Nat}

theorem State.envBoundary_committed {e : Envelope} (h : (s.stnOf n).envWait = some e) :
    s.envBoundary n =
      (s.onStn n (fun u => { u with env := e, envWait := none, fallbackDue := false, envAt := some s.now })).setFld
        (GFM_ENV_STATUS_ENV_FALLBACK n) 0 := by
  simp only [State.envBoundary, h]

theorem State.envBoundary_fallback (h : (s.stnOf n).envWait = none) (hf : (s.stnOf n).fallbackDue = true) :
    s.envBoundary n =
      (s.onStn n (fun u => { u with env := s.otpEnvelope n, fallbackDue := false })).setFld
        (GFM_ENV_STATUS_ENV_FALLBACK n) 1 := by
  simp only [State.envBoundary, h, hf, if_true]

theorem State.fld_setFld_envFallback (v : Nat) :
    (s.setFld (GFM_ENV_STATUS_ENV_FALLBACK n) v).fld (GFM_ENV_STATUS_ENV_FALLBACK n) = v % 2 :=
  s.fld_setFld_self v (by decide : 17 + 1 ≤ 32)

/-! ### The statement -/

/-- Settles O7: a commit is one of three cases of a write of GFM_ENV_SEQ, and a boundary one of two cases. -/
theorem envelopeRules : Obligations.EnvelopeRules := by
  refine ⟨fun n seq late s hr hg => ⟨fun hs hd hc he => ?_, fun hs hbad => ?_, ?_, exec_envFallback hr⟩,
    fun n s => ⟨fun e h => ?_, fun h hf => ?_⟩⟩
  · rw [exec_gfmEnvSeqWrite hr hg, State.commitEnvelope_accepted hs hd hc he]
  · rw [exec_gfmEnvSeqWrite hr hg, State.commitEnvelope_rejected hs hbad]
  · rw [exec_gfmEnvSeqWrite hr hg, State.commitEnvelope_unchanged]
  · rw [State.envBoundary_committed h, State.stnOf_setFld, State.stnOf_onStn, State.fld_setFld_envFallback]
    exact ⟨rfl, rfl, rfl, rfl⟩
  · rw [State.envBoundary_fallback h hf, State.stnOf_setFld, State.stnOf_onStn, State.fld_setFld_envFallback]
    exact ⟨rfl, rfl⟩

end Sys2Proof.Machine
end

section
/-! SUPPORT. SPI frames (R42 to R45): what a read frame and a write frame of the right length do in each case of their checks.
That the length is checked before the CRC-8, and that the frame count counts accepted frames, is log row 58. -/

namespace Sys2Proof.Machine

variable {s : State}

/-! ### Addresses that a frame can use (R43, R44) -/

section
variable {count : Nat} {addr : BitVec 24} (h4 : addr.toNat % 4 = 0)
include h4

theorem spiBadAddr_fixed : spiBadAddr false count addr = false := by
  simp [spiBadAddr, h4]

theorem spiBadAddr_incrementing (hw : addr.toNat % 0x10000 + 4 * (count + 1) ≤ 0x10000) :
    spiBadAddr true count addr = false := by
  simp [spiBadAddr, h4, hw]

end

/-! ### The status word -/

/-- HDR_CRC_ERR is bit 23: the fields below it stay below it, and the fixed byte above it has bit 0 at bit 24. -/
theorem State.spiStatus_hdrCrcErr (hdrErr : Bool) : (s.spiStatus hdrErr).getLsbD 23 = hdrErr := by
  have hp := s.spi.prev.isLt
  have hc := s.spi.count.isLt
  have hi := Bool.toNat_le s.irqLine
  have hbit : (0xA5 * 2 ^ 24 + hdrErr.toNat * 2 ^ 23 + s.spi.prev.toNat * 2 ^ 17 + s.irqLine.toNat * 2 ^ 16 +
      s.spi.count.toNat * 2 ^ 8) / 2 ^ 23 % 2 = hdrErr.toNat := by
    have he := Bool.toNat_le hdrErr
    omega
  rw [State.spiStatus, BitVec.getLsbD_ofNat, Nat.testBit_eq_decide_div_mod_eq, hbit]
  cases hdrErr <;> rfl

/-! ### Read frames (R42, R44, R45) -/

/-- What a device sends in a whole read frame: the status word, the data words and the CRC-8 over both. -/
def readFrameBytes (status : Word) (ws : List Word) : List Byte :=
  (beBytes status ++ ws.flatMap beBytes) ++ [crc8 (beBytes status ++ ws.flatMap beBytes)]

section
variable {incr : Bool} {count : Nat} {addr : BitVec 24} {crc : Byte} {notReady : BitVec 64}

theorem State.spiRead_headerError (h : crc8 (spiHeader (if incr then 0 else 2) count addr) ≠ crc) :
    s.spiRead incr count addr crc notReady (count + 1) =
      (s.setFlag SYS_STATUS_SPI_CRC).spiEnd 0 false
        (readFrameBytes (s.spiStatus true) (List.replicate (count + 1) 0)) := by
  have hb : (crc8 (spiHeader (if incr then 0 else 2) count addr) != crc) = true := bne_iff_ne.mpr h
  simp only [State.spiRead, hb, if_true, Nat.min_self, bne_self_eq_false, readFrameBytes]
  rfl

theorem State.spiRead_performed (h : crc8 (spiHeader (if incr then 0 else 2) count addr) = crc)
    (ha : spiBadAddr incr count addr = false) :
    s.spiRead incr count addr crc notReady (count + 1) =
      (s.spiReadWords incr addr.toNat notReady (count + 1)).1.spiEnd
        (s.spiReadWords incr addr.toNat notReady (count + 1)).2.2 true
        (readFrameBytes (s.spiStatus false) (s.spiReadWords incr addr.toNat notReady (count + 1)).2.1) := by
  have hl : prevOf false false false false false false = 0#6 := rfl
  simp only [State.spiRead, h, ha, bne_self_eq_false, Bool.false_eq_true, if_false, if_true, Nat.min_self, hl,
    BitVec.zero_or, readFrameBytes]

end

/-! ### Write frames (R42, R43) -/

section
variable {incr : Bool} {count : Nat} {addr : BitVec 24} {data : List Byte} {crc : Byte} {late : BitVec 64}

theorem State.spiWrite_lengthError (hl : data.length ≠ 4 * (count + 1)) :
    ∃ miso, s.spiWrite incr count addr data crc late = s.spiEnd 16 false miso :=
  ⟨_, if_pos hl⟩

section
variable (hl : data.length = 4 * (count + 1))
include hl

theorem State.spiWrite_crcError (h : crc8 (spiHeader (if incr then 1 else 3) count addr ++ data) ≠ crc) :
    ∃ miso, s.spiWrite incr count addr data crc late = (s.setFlag SYS_STATUS_SPI_CRC).spiEnd 32 false miso :=
  ⟨_, (if_neg (not_not.mpr hl)).trans (if_pos h)⟩

theorem State.spiWrite_applied (h : crc8 (spiHeader (if incr then 1 else 3) count addr ++ data) = crc)
    (ha : spiBadAddr incr count addr = false) :
    ∃ miso, s.spiWrite incr count addr data crc late =
      (s.spiWriteWords (if incr then 4 else 0) addr.toNat (fun k => late.getLsbD k) 0 (beWords data)).1.spiEnd
        (s.spiWriteWords (if incr then 4 else 0) addr.toNat (fun k => late.getLsbD k) 0 (beWords data)).2 true miso :=
  ⟨_, (if_neg (not_not.mpr hl)).trans ((if_neg (not_not.mpr h)).trans (if_neg (Bool.eq_false_iff.mp ha)))⟩

end
end

/-! ### The frames as commands -/

section
variable {count : Fin 64} {addr : BitVec 24} {crc : Byte} {t : State} (hd : s.devRuns = true)
include hd

theorem exec_spiReadIncrementing {notReady : BitVec 64} {clocked : Nat}
    (h : s.spiRead true count addr crc notReady clocked = t) :
    exec (.spiReadIncrementing count addr crc notReady clocked) s = .next t :=
  h ▸ whenDev_run s hd

theorem exec_spiReadFixed {notReady : BitVec 64} {clocked : Nat}
    (h : s.spiRead false count addr crc notReady clocked = t) :
    exec (.spiReadFixed count addr crc notReady clocked) s = .next t :=
  h ▸ whenDev_run s hd

theorem exec_spiWriteIncrementing {data : List Byte} {late : BitVec 64}
    (h : s.spiWrite true count addr data crc late = t) :
    exec (.spiWriteIncrementing count addr data crc late) s = .next t :=
  h ▸ whenDev_run s hd

theorem exec_spiWriteFixed {data : List Byte} {late : BitVec 64} (h : s.spiWrite false count addr data crc late = t) :
    exec (.spiWriteFixed count addr data crc late) s = .next t :=
  h ▸ whenDev_run s hd

end

/-! ### The statement -/

/-- Settles O42: each clause is one case of the checks of a frame, for an incrementing or a fixed address. -/
theorem spiFrames : Obligations.SpiFrames := by
  refine ⟨fun count addr s hd => ⟨fun notReady h4 hw => ?_, fun notReady h4 => ?_, fun data late hl h4 hw => ?_,
    fun data late hl h4 => ?_, fun data crc late hl hc => ?_, fun data crc late hl => ?_⟩,
    fun count addr crc notReady s hd => ⟨State.spiStatus_hdrCrcErr true, State.spiStatus_hdrCrcErr false,
      fun hc => ?_, fun hc => ?_⟩⟩
  · exact exec_spiReadIncrementing hd (State.spiRead_performed rfl (spiBadAddr_incrementing h4 hw))
  · exact exec_spiReadFixed hd (State.spiRead_performed rfl (spiBadAddr_fixed h4))
  · obtain ⟨miso, h⟩ := State.spiWrite_applied hl rfl (spiBadAddr_incrementing h4 hw)
    exact ⟨_, exec_spiWriteIncrementing hd h, rfl, rfl, rfl⟩
  · obtain ⟨miso, h⟩ := State.spiWrite_applied hl rfl (spiBadAddr_fixed h4)
    exact ⟨_, exec_spiWriteFixed hd h, rfl, rfl, rfl⟩
  · obtain ⟨miso, h⟩ := State.spiWrite_crcError (incr := true) hl hc
    exact ⟨_, exec_spiWriteIncrementing hd h, rfl, rfl, rfl, rfl⟩
  · obtain ⟨miso, h⟩ := State.spiWrite_lengthError (incr := true) hl
    exact ⟨_, exec_spiWriteIncrementing hd h, rfl, rfl, rfl, rfl⟩
  · exact exec_spiReadIncrementing hd (State.spiRead_headerError (incr := true) hc)
  · exact exec_spiReadFixed hd (State.spiRead_headerError (incr := false) hc)

end Sys2Proof.Machine
end

section
/-! SUPPORT. The bounds of the core: the clamp of the speed (R55), the angle as a remainder of turns (R52) and the limits of the
governor (R56). The clamps, the remainder and the absolute value of the model are those of the library. -/

namespace Sys2Proof.Machine

/-! ### Numbers -/

theorem ratClamp_eq_max_min {lo hi : Rat} (h : lo ≤ hi) (x : Rat) : ratClamp lo hi x = max lo (min hi x) := by
  unfold ratClamp
  split
  next hlo => rw [max_eq_left (min_le_of_right_le hlo.le)]
  next hlo =>
    split
    next hhi => rw [min_eq_left hhi.le, max_eq_right h]
    next hhi => rw [min_eq_right (not_lt.mp hhi), max_eq_right (not_lt.mp hlo)]

theorem le_ratClamp {lo hi : Rat} (h : lo ≤ hi) (x : Rat) : lo ≤ ratClamp lo hi x := by
  rw [ratClamp_eq_max_min h]
  exact le_max_left _ _

theorem ratClamp_le {lo hi : Rat} (h : lo ≤ hi) (x : Rat) : ratClamp lo hi x ≤ hi := by
  rw [ratClamp_eq_max_min h]
  exact max_le h (min_le_left _ _)

theorem ratClamp_of_mem {lo hi x : Rat} (hlo : lo ≤ x) (hhi : x ≤ hi) : ratClamp lo hi x = x := by
  rw [ratClamp, if_neg (not_lt.mpr hlo), if_neg (not_lt.mpr hhi)]

theorem ratClamp_of_not_mem {lo hi x : Rat} (h : x < lo ∨ hi < x) :
    ratClamp lo hi x = if x < lo then lo else hi := by
  by_cases hlo : x < lo
  · rw [ratClamp, if_pos hlo, if_pos hlo]
  · rw [ratClamp, if_neg hlo, if_neg hlo, if_pos (h.resolve_left hlo)]

theorem ratClamp_ne_of_not_mem {lo hi x : Rat} (hle : lo ≤ hi) (h : x < lo ∨ hi < x) : ratClamp lo hi x ≠ x := by
  rcases h with h | h
  · exact (h.trans_le (le_ratClamp hle x)).ne'
  · exact ((ratClamp_le hle x).trans_lt h).ne

theorem ratAbs_eq_abs (x : Rat) : ratAbs x = |x| := by
  unfold ratAbs
  split
  next h => rw [abs_of_neg h]
  next h => rw [abs_of_nonneg (not_lt.mp h)]

theorem fracTurn_eq_fract (x : Rat) : fracTurn x = Int.fract x := by
  rw [fracTurn, floorRat, ← Rat.floor_def', Int.fract]

/-! ### The limits of the governor (R56) -/

section
variable {lo hi step old : Rat} (hle : lo ≤ hi) (hs : 0 ≤ step) (hlo : lo ≤ old) (hhi : old ≤ hi) (target : Rat)

include hs in
theorem governorLimit_eq_max_min : (governorLimit lo hi step old target).1 =
    max (old - step) (min (old + step) (ratClamp lo hi target)) :=
  ratClamp_eq_max_min (by linarith) _

include hle hs hlo in
theorem le_governorLimit : lo ≤ (governorLimit lo hi step old target).1 := by
  rw [governorLimit_eq_max_min hs]
  exact le_max_of_le_right (le_min (by linarith) (le_ratClamp hle target))

include hle hs hhi in
theorem governorLimit_le : (governorLimit lo hi step old target).1 ≤ hi := by
  rw [governorLimit_eq_max_min hs]
  exact max_le (by linarith) (min_le_of_right_le (ratClamp_le hle target))

include hs in
theorem governorLimit_slew : ratAbs ((governorLimit lo hi step old target).1 - old) ≤ step := by
  have hstep : old - step ≤ old + step := by linarith
  have hl : old - step ≤ (governorLimit lo hi step old target).1 := le_ratClamp hstep _
  have hu : (governorLimit lo hi step old target).1 ≤ old + step := ratClamp_le hstep _
  rw [ratAbs_eq_abs, abs_le]
  constructor <;> linarith

end

/-! ### A flag and its counter -/

/-- The flag `f` and its counter `g` for an execution in which a clamp acted. -/
def State.flagAndCount (s : State) (acted : Bool) (f g : Fld) : State := if acted then (s.setFlag f).count g else s

variable (s : State)

@[simp] theorem State.coreOf_onCore (n : Nat) (f : Core → Core) : (s.onCore n f).coreOf n = f (s.coreOf n) :=
  congrArg Stn.core (s.stnOf_onStn n _)

@[simp] theorem State.coreOf_flagAndCount (acted : Bool) (f g : Fld) (n : Nat) :
    (s.flagAndCount acted f g).coreOf n = s.coreOf n := by
  cases acted <;> rfl

/-- A count reads back one higher, up to the largest value of its field. -/
theorem State.fld_count_self {g : Fld} (h : g.lo + g.w ≤ 32) :
    (s.count g).fld g = min (s.fld g + 1) (2 ^ g.w - 1) := by
  have hpos : 0 < 2 ^ g.w := by positivity
  have hlt : min (s.fld g + 1) (2 ^ g.w - 1) < 2 ^ g.w := by omega
  rw [State.count, State.countBy, s.fld_setFld_self _ h, Nat.mod_eq_of_lt hlt]

section
variable {f g : Fld} (ha : f.addr ≠ g.addr)
include ha

theorem State.flag_flagAndCount (hf : f.lo + f.w ≤ 32) (hw : 0 < f.w) : (s.flagAndCount true f g).flag f = true := by
  have hcount : ((s.setFlag f).count g).fld f = (s.setFlag f).fld f := State.fld_setFld_addr _ _ ha
  have hset : (s.setFlag f).flag f = true := s.flag_setFlag_self hf hw
  rw [State.flag, ← hcount] at hset
  exact hset

theorem State.fld_flagAndCount (hg : g.lo + g.w ≤ 32) :
    (s.flagAndCount true f g).fld g = min (s.fld g + 1) (2 ^ g.w - 1) := by
  have hset : (s.setFlag f).fld g = s.fld g := s.fld_setFld_addr _ ha.symm
  rw [← hset]
  exact (s.setFlag f).fld_count_self hg

end

/-! ### The speed and the angle of the rotor (R52, R53, R55, R98, R102) -/

/-- The speed after the step of the swing equation, before any clamp (R53). -/
def State.swungSpeed (s : State) (n : Nat) : Rat :=
  swingStep (s.coreOf n).omega (s.dtV n) (s.coreOf n).hEff (s.drivePower n) (s.coreOf n).pF (s.par n parD)
    (s.coreOf n).omegaF

/-- The speed before the clamp of R55: while the station is steered, held near the speed of the bus (R98), but not in the
gap, where the rotor coasts (R102). -/
def State.slewedSpeed (s : State) (n : Nat) : Rat :=
  let slew := s.par n parSLEW_MAX / (Config.twoPi * s.par n parF_NOM)
  let bus := (s.stnOf n).start.wBus
  if (s.stnOf n).steered && (s.stnOf n).start.phase != .busGap then
    ratClamp (bus - slew) (bus + slew) (s.swungSpeed n)
  else s.swungSpeed n

/-- The clamp of R55. -/
def State.clampedSpeed (s : State) (n : Nat) (w : Rat) : Rat := ratClamp (s.par n parW_MIN) (s.par n parW_MAX) w

theorem State.blkSpeed_eq (n : Nat) : s.blkSpeed n =
    ((s.onCore n (fun c => { c with omega := s.clampedSpeed n (s.slewedSpeed n) })).flagAndCount
        (decide (s.slewedSpeed n ≠ s.swungSpeed n)) (GFM_SBS_FLAGS_SLEW_CLAMP n) (GFM_SBS_CNT0_SLEW_CLAMP_CNT n)).flagAndCount
      (decide (s.clampedSpeed n (s.slewedSpeed n) ≠ s.slewedSpeed n)) (GFM_CORE_FLAGS_FREQ_CLAMP n)
      (GFM_CORE_CNT0_FREQ_CLAMP_CNT n) := rfl

theorem State.omega_blkSpeed (n : Nat) :
    ((s.blkSpeed n).coreOf n).omega = s.clampedSpeed n (s.slewedSpeed n) := by
  simp [s.blkSpeed_eq]

theorem State.theta_blkAngle (n : Nat) : ((s.blkAngle n).coreOf n).theta =
    fracTurn ((s.coreOf n).theta + (s.coreOf n).omega * s.par n parF_NOM * s.tPer n) := by
  simp [State.blkAngle]

section
variable {s} {n : Nat} (hfree : (s.stnOf n).steered = false ∨ (s.stnOf n).start.phase = .busGap)
include hfree

theorem State.slewedSpeed_free : s.slewedSpeed n = s.swungSpeed n := by
  rcases hfree with h | h <;> simp [State.slewedSpeed, h]

/-- Where no bus speed holds the rotor, the clamp of R55 is the only one. -/
theorem State.blkSpeed_free : s.blkSpeed n =
    (s.onCore n (fun c => { c with omega := s.clampedSpeed n (s.swungSpeed n) })).flagAndCount
      (decide (s.clampedSpeed n (s.swungSpeed n) ≠ s.swungSpeed n)) (GFM_CORE_FLAGS_FREQ_CLAMP n)
      (GFM_CORE_CNT0_FREQ_CLAMP_CNT n) := by
  rw [s.blkSpeed_eq, State.slewedSpeed_free hfree, decide_eq_false (not_not.mpr rfl)]
  rfl

theorem State.regs_blkSpeed_of_mem (hlo : s.par n parW_MIN ≤ s.swungSpeed n) (hhi : s.swungSpeed n ≤ s.par n parW_MAX) :
    (s.blkSpeed n).regs = s.regs := by
  have hc : s.clampedSpeed n (s.swungSpeed n) = s.swungSpeed n := ratClamp_of_mem hlo hhi
  rw [State.blkSpeed_free hfree, hc, decide_eq_false (not_not.mpr rfl)]
  rfl

theorem State.blkSpeed_of_not_mem (hle : s.par n parW_MIN ≤ s.par n parW_MAX)
    (h : s.swungSpeed n < s.par n parW_MIN ∨ s.par n parW_MAX < s.swungSpeed n) : s.blkSpeed n =
      (s.onCore n (fun c => { c with omega := s.clampedSpeed n (s.swungSpeed n) })).flagAndCount true
        (GFM_CORE_FLAGS_FREQ_CLAMP n) (GFM_CORE_CNT0_FREQ_CLAMP_CNT n) := by
  have hc : s.clampedSpeed n (s.swungSpeed n) ≠ s.swungSpeed n := ratClamp_ne_of_not_mem hle h
  rw [State.blkSpeed_free hfree, decide_eq_true hc]

end

theorem freqClamp_addr_ne (n : Nat) : (GFM_CORE_FLAGS_FREQ_CLAMP n).addr ≠ (GFM_CORE_CNT0_FREQ_CLAMP_CNT n).addr := by
  simp [GFM_CORE_FLAGS_FREQ_CLAMP, GFM_CORE_CNT0_FREQ_CLAMP_CNT, GFM_CORE_FLAGS, GFM_CORE_CNT0]

/-! ### The statement -/

/-- Settles O8: speed, angle and the governor's power are each the value of a clamp or a remainder, and the clamp of the speed
marks its flag and its counter exactly where it acts. -/
theorem coreBounds : Obligations.CoreBounds := by
  refine ⟨fun n s => ⟨fun hle => ?_, ?_, ?_⟩, fun lo hi step old target hle hs hlo hhi => ?_⟩
  · rw [s.omega_blkSpeed]
    exact ⟨le_ratClamp hle _, ratClamp_le hle _⟩
  · rintro _ hle hfree rfl
    rw [s.omega_blkSpeed, State.slewedSpeed_free hfree]
    refine ⟨fun hlo hhi => ⟨ratClamp_of_mem hlo hhi, State.regs_blkSpeed_of_mem hfree hlo hhi⟩,
      fun hout => ⟨ratClamp_of_not_mem hout, ?_⟩⟩
    rw [State.blkSpeed_of_not_mem hfree hle hout]
    exact ⟨State.flag_flagAndCount _ (freqClamp_addr_ne n) (by decide : 9 + 1 ≤ 32) (by decide : 0 < 1),
      State.fld_flagAndCount _ (freqClamp_addr_ne n) (by decide : 0 + 16 ≤ 32)⟩
  · rw [s.theta_blkAngle, fracTurn_eq_fract]
    exact ⟨Int.fract_nonneg _, Int.fract_lt_one _⟩
  · exact ⟨le_governorLimit hle hs hlo target, governorLimit_le hle hs hhi target, governorLimit_slew hs target⟩

end Sys2Proof.Machine
end

section
/-! SUPPORT. The events of a start (R88 to R103): a timed event while its phase waits for it, a start that fails, and a breaker
contact that opens or closes in each state. -/

namespace Sys2Proof.Machine

variable {s : State}

/-- An event that the state allows has its effect (log row 11). -/
theorem whenRun_allowed {c : Bool} {t : State} (hr : s.islandsRun = true) (hc : c = true) :
    whenRun s (if c then t else s) = .next t := by
  rw [if_pos hc, whenRun_run s hr]

/-! ### Conditions of a start that have held long enough (R88, R89, R91, R99, R489) -/

/-- While the timebase runs, a change waits for the boundary. -/
theorem State.settleStopped_of_run {n : Nat} (h : (s.pwmOf n).run = true) : s.settleStopped n = s := if_pos h

section
variable {n : Fin 4} (hr : s.islandsRun = true)
include hr

theorem exec_deadBusConfirmed (hst : (s.stnOf n).st = .deadBusStart) (hph : (s.stnOf n).start.phase = .deadCheck)
    (hok : (s.stnOf n).start.deadOk = true) :
    exec (.deadBusConfirmed n) s = .next ((s.onStart n (fun x => { x with confirmed := true })).settleStopped n) :=
  whenRun_allowed hr (by simp [hst, hph, hok])

theorem exec_busLiveConfirmed (hst : (s.stnOf n).st = .synchronising) (hph : (s.stnOf n).start.phase = .busCheck)
    (hok : (s.stnOf n).start.busLiveOk = true) :
    exec (.busLiveConfirmed n) s = .next ((s.onStart n (fun x => { x with confirmed := true })).settleStopped n) :=
  whenRun_allowed hr (by simp [hst, hph, hok])

theorem exec_syncWindowHeld (hst : (s.stnOf n).st = .synchronising) (hph : (s.stnOf n).start.phase = .matching)
    (hok : (s.stnOf n).start.winOk = true) :
    exec (.syncWindowHeld n) s =
      .next ((s.onStart n (fun x => { x with phase := .window })).setFlag (GFM_SBS_FLAGS_SYNC_WINDOW n)) :=
  whenRun_allowed hr (by simp [hst, hph, hok])

/-- The bias ends after the start, in whatever state follows it. -/
theorem exec_biasDecayEnd (hdead : (s.stnOf n).st ≠ .deadBusStart) (hsync : (s.stnOf n).st ≠ .synchronising) :
    exec (.biasDecayEnd n) s = .next (s.onStart n (fun x => { x with bias := ⟨0, 0⟩, biasAtRun := ⟨0, 0⟩ })) :=
  (whenRun_run s hr).trans (by rw [if_neg (by simp [hdead, hsync])])

/-! ### Times that run out (R88, R90, R93, R102, R103) -/

theorem exec_deadBusLiveTimeout (hst : (s.stnOf n).st = .deadBusStart) (hph : (s.stnOf n).start.phase = .deadCheck)
    (hc : (s.stnOf n).start.confirmed = false) : exec (.deadBusLiveTimeout n) s = .next (s.failStart n 1) :=
  whenRun_allowed hr (by simp [hst, hph, hc])

theorem exec_holdTimeout (hst : (s.stnOf n).st = .deadBusStart ∨ (s.stnOf n).st = .synchronising)
    (hh : (s.stnOf n).start.holding = true) : exec (.holdTimeout n) s = .next (s.failStart n 2) :=
  whenRun_allowed hr (by simp [hst, hh])

theorem exec_syncTimeout (hst : (s.stnOf n).st = .synchronising) :
    exec (.syncTimeout n) s = .next (s.failStart n 3) :=
  whenRun_allowed hr (by simp [hst])

theorem exec_busGapTimeout (hst : (s.stnOf n).st = .synchronising) (hph : (s.stnOf n).start.phase = .busGap) :
    exec (.busGapTimeout n) s = .next (s.failStart n 4) :=
  whenRun_allowed hr (by simp [hst, hph])

end

/-! ### The rotor steered toward the bus (R98, R488) -/

section
variable {u : Stn}

theorem Stn.steered_of_synchronising (hst : u.st = .synchronising) (hc : u.start.complete = false) : u.steered = true := by
  simp [Stn.steered, Stn.mode, hst, hc]

theorem Stn.steered_of_stopping (hst : u.st = .stopping) (hfrom : u.stopFrom = .synchronising)
    (hc : u.start.complete = false) : u.steered = true := by
  simp [Stn.steered, Stn.mode, hst, hfrom, hc]

theorem Stn.steered_of_running (hst : u.st = .running) : u.steered = false := by
  simp [Stn.steered, Stn.mode, hst]

theorem Stn.enHigh_of_stopping (hst : u.st = .stopping) : u.enHigh = true := by
  simp [Stn.enHigh, hst]

end

/-! ### Closure of the breaker (R96, R100) -/

section
variable {n : Nat}

@[simp] theorem State.stnOf_onStart (f : Start → Start) :
    (s.onStart n f).stnOf n = { s.stnOf n with start := f (s.stnOf n).start } := s.stnOf_onStn n _

@[simp] theorem State.stnOf_onCores (f : Core → Core) :
    (s.onCores n f).stnOf n =
      { s.stnOf n with
        core := f (s.stnOf n).core, sby := { (s.stnOf n).sby with core := f (s.stnOf n).sby.core } } :=
  s.stnOf_onStn n _

theorem State.pGov_joinBus : ((s.joinBus n).stnOf n).core.pGov = 0 := by simp [State.joinBus]

theorem State.complete_joinBus : ((s.joinBus n).stnOf n).start.complete = true := by simp [State.joinBus]

/-- In its window, and not in shore mode, the station joins the bus and marks nothing. -/
theorem State.closeBreaker_inWindow (hst : (s.stnOf n).st = .synchronising) (hen : (s.stnOf n).enHigh = true)
    (hc : (s.stnOf n).start.complete = false) (hph : (s.stnOf n).start.phase = .window)
    (hm : s.fld (GFM_CTRL_START_MODE n) ≠ 2) : s.closeBreaker n = (s.joinBus n).settleStopped n := by
  simp [State.closeBreaker, Stn.steered_of_synchronising hst hc, State.setFlagIf, hst, hen, hph, hm]

/-- In a stop out of a start the station joins the bus and goes on stopping (R488). -/
theorem State.closeBreaker_stopping (hst : (s.stnOf n).st = .stopping) (hfrom : (s.stnOf n).stopFrom = .synchronising)
    (hc : (s.stnOf n).start.complete = false) : s.closeBreaker n = s.joinBus n := by
  simp [State.closeBreaker, Stn.steered_of_stopping hst hfrom hc, Stn.enHigh_of_stopping hst, hst]

theorem State.closeBreaker_enablesLow (hst : (s.stnOf n).st = .synchronising) (hen : (s.stnOf n).enHigh = false) :
    s.closeBreaker n = s.failStart n 5 := by
  simp [State.closeBreaker, hst, hen]

theorem State.closeBreaker_running (hst : (s.stnOf n).st = .running) : s.closeBreaker n = s := by
  simp [State.closeBreaker, Stn.steered_of_running hst, hst]

end

section
variable {n : Fin 4} {c : Nat} (hr : s.islandsRun = true) (hb : s.brkInput n = some c)
include hr hb

/-- The level of the contact is taken first; it is no part of a station, so the cases of the closure are those of `s`. -/
theorem exec_breakerInputChange_closes (hc : (s.stnOf n).start.complete = false) {t : State}
    (ht : (s.onCap c (fun x => { x with level := true })).closeBreaker n = t) :
    exec (.breakerInputChange n true) s = .next t :=
  (whenRun_run s hr).trans (by simp [hb, hc, ht])

theorem exec_breakerInputChange_closes_complete (hc : (s.stnOf n).start.complete = true) :
    exec (.breakerInputChange n true) s = .next (s.onCap c (fun x => { x with level := true })) :=
  (whenRun_run s hr).trans (by simp [hb, hc])

theorem exec_breakerInputChange_opens_deadBusStart (hst : (s.stnOf n).st = .deadBusStart) :
    exec (.breakerInputChange n false) s = .next ((s.onCap c (fun x => { x with level := false })).failStart n 5) :=
  (whenRun_run s hr).trans (by simp [hb, hst])

theorem exec_breakerInputChange_opens (hst : (s.stnOf n).st ≠ .deadBusStart) :
    exec (.breakerInputChange n false) s = .next (s.onCap c (fun x => { x with level := false })) :=
  (whenRun_run s hr).trans (by simp [hb, hst])

/-- A station that runs takes the new level of the contact and nothing else. -/
theorem exec_breakerInputChange_running (hst : (s.stnOf n).st = .running) (lv : Bool) :
    exec (.breakerInputChange n lv) s = .next (s.onCap c (fun x => { x with level := lv })) := by
  cases lv with
  | false => exact exec_breakerInputChange_opens hr hb (by simp [hst])
  | true =>
    cases hc : (s.stnOf n).start.complete with
    | false => exact exec_breakerInputChange_closes hr hb hc (State.closeBreaker_running hst)
    | true => exact exec_breakerInputChange_closes_complete hr hb hc

end

/-! ### The statement -/

/-- Settles O1: a timed event of a start that the state allows has its own effect, and the breaker contact is taken by the
case of the state that it finds. -/
theorem starts : Obligations.Starts := by
  refine ⟨fun n s hr => ⟨exec_deadBusConfirmed hr, exec_busLiveConfirmed hr,
      fun hrun _ => State.settleStopped_of_run hrun, exec_syncWindowHeld hr, exec_biasDecayEnd hr⟩,
    fun n s hr => ⟨exec_deadBusLiveTimeout hr, exec_holdTimeout hr, exec_syncTimeout hr, exec_busGapTimeout hr⟩,
    fun n c s hr hb => ⟨fun hst hen hc hph hm => ?_, fun hst hfrom hc => ?_, ⟨State.pGov_joinBus, State.complete_joinBus⟩,
      fun hst hen hc => ?_, exec_breakerInputChange_opens_deadBusStart hr hb, exec_breakerInputChange_running hr hb⟩⟩
  · exact exec_breakerInputChange_closes hr hb hc (State.closeBreaker_inWindow hst hen hc hph hm)
  · exact exec_breakerInputChange_closes hr hb hc (State.closeBreaker_stopping hst hfrom hc)
  · exact exec_breakerInputChange_closes hr hb hc (State.closeBreaker_enablesLow hst hen)

end Sys2Proof.Machine
end

section
/-! SUPPORT. The events of limiting and ride-through (R108, R112, R114, R116 to R118, R160, R192): the states that a period's
conditions are judged in, the ceiling once LIM_TIME has passed T_FC, the force of a limit window, and each event in a state
that allows it. -/

namespace Sys2Proof.Machine

variable {s : State}

/-! ### The state that a condition of the period is judged in (R78, R121) -/

/-- A station that is not in TRIPPED has not tripped in this period. -/
theorem Stn.stHere_of_st {u : Stn} {x : StnState} (h : u.st = x) (hx : x ≠ .tripped) : u.stHere = x := by
  simp [Stn.stHere, Stn.tripHere, h, hx]

theorem Stn.inRide_of_rideThrough {u : Stn} (h : u.st = .rideThrough) : u.inRide = true := by
  simp [Stn.inRide, Stn.stHere_of_st h]

theorem State.windowsOn_of_st {n : Nat} (ht : s.stnType n = 0)
    (h : (s.stnOf n).st = .running ∨ (s.stnOf n).st = .limiting) : s.windowsOn n = true := by
  rcases h with h | h <;> simp [State.windowsOn, ht, Stn.stHere_of_st h]

/-! ### Trips by cause (R114, R117, R118, R160) -/

section
variable {n : Fin 4} (hr : s.islandsRun = true)
include hr

theorem exec_hwlimPersist (hk : 0 < (s.pwmOf n).hwlConsec) (hc : s.par n parHWL_CYCLES ≤ ((s.pwmOf n).hwlConsec : Rat)) :
    exec (.hwlimPersist n) s = .next (s.tripNow n 3) :=
  whenRun_allowed hr (by simp [hk, hc])

theorem exec_rtCurveTrip (hin : (s.stnOf n).inRide = true)
    (hd : s.par n parT_RT1 ≤ (s.stnOf n).ride.time ∨ reached (s.stnOf n).ride.below (s.cycleSec n) = true) :
    exec (.rtCurveTrip n) s = .next (s.tripNow n 7) :=
  whenRun_allowed hr (by simp [hin, hd])

theorem exec_vWindowTrip (hw : s.windowsOn n = true) (ho : s.vOutside n = true) :
    exec (.vWindowTrip n) s = .next (s.tripNow n 8) :=
  whenRun_allowed hr (by simp [hw, ho])

theorem exec_fWindowTrip (hw : s.windowsOn n = true) (ho : s.fOutside n = true) :
    exec (.fWindowTrip n) s = .next (s.tripNow n 9) :=
  whenRun_allowed hr (by simp [hw, ho])

theorem exec_olvTimeout (hst : (s.stnOf n).stHere = .openLoopV) : exec (.olvTimeout n) s = .next (s.tripNow n 10) :=
  whenRun_allowed hr (by simp [hst])

end

/-! ### The fall of the ceiling (R108) -/

theorem ceilingOf_passed {fc iovl tfc limTime : Rat} (h : tfc * 1000 < limTime) :
    ceilingOf fc iovl tfc limTime = (ratMin fc iovl, true) :=
  if_neg (not_le.mpr h)

/-- The ceiling that has not fallen falls and is flagged. -/
theorem State.blkCeiling_falls {n : Nat} (hc : (s.stnOf n).lim.ceilAtOvl = false)
    (ht : s.par n parT_FC * 1000 < (s.stnOf n).lim.limTime) :
    s.blkCeiling n =
      (s.onLim n (fun l => { l with iCeil := ratMin l.fcBudget (s.par n parI_OVL), ceilAtOvl := true })).setFlag
        (GFM_FRT_FLAGS_CEIL_OVL n) := by
  simp only [State.blkCeiling, ceilingOf_passed ht, hc]
  rfl

theorem exec_ceilOvl {n : Fin 4} (hr : s.islandsRun = true) (hen : (s.stnOf n).enHigh = true)
    (hst : (s.stnOf n).st ≠ .running) (hc : (s.stnOf n).lim.ceilAtOvl = false)
    (ht : s.par n parT_FC * 1000 < (s.stnOf n).lim.limTime) :
    exec (.ceilOvl n) s =
      .next ((s.blkCeiling n).onPer n (fun p => { p with ceilNew := !s.flag (GFM_FRT_FLAGS_CEIL_OVL n) })) :=
  whenRun_allowed hr (by simp [State.ceilDue, hen, hst, hc, ht])

/-! ### The clearing of a fault (R116, R124) -/

section
variable {n : Fin 4} (hr : s.islandsRun = true) (hstop : s.stopWanted n = false) (hturn : s.mayTurn n 9 = true)
include hr hstop hturn

theorem exec_clearConfirmed_rideThrough (hst : (s.stnOf n).st = .rideThrough) (hok : (s.stnOf n).lim.vOk = true)
    (ht : s.par n parT_CLR ≤ (s.stnOf n).lim.vOkTime) :
    exec (.clearConfirmed n) s = .next (if (s.stnOf n).limitingNow then s.enterLimiting n 9 else s.clearFault n) := by
  have hcleared : s.rideCleared n = true := by simp [State.rideCleared, hok, ht]
  exact (whenRun_run s hr).trans (by simp [hstop, hturn, hst, hcleared])

theorem exec_clearConfirmed_limiting (hst : (s.stnOf n).st = .limiting) (hnow : (s.stnOf n).limitingNow = false)
    (hcalm : (s.stnOf n).lim.calm = true) (ht : s.par n parT_CLR ≤ (s.stnOf n).lim.calmTime) :
    exec (.clearConfirmed n) s = .next (s.clearFault n) := by
  have hcleared : s.limitCleared n = true := by simp [State.limitCleared, hnow, hcalm, ht]
  exact (whenRun_run s hr).trans (by simp [hstop, hturn, hst, hcleared])

end

/-! ### The limit window (R112, R192) -/

theorem windowStep_above {old hi lo code : Nat} (h : hi < code) : windowStep old hi lo code = 1 := if_pos h

@[simp] theorem State.wcompOf_onWcomp (n c : Nat) (f : WindowComp → WindowComp) :
    (s.onWcomp n c f).wcompOf n c = f (s.wcompOf n c) := tget_tset_self _ _ _ _

/-- Above its window an enabled comparator forces its half-bridge low (R112, R192). -/
theorem State.limitWindow_above {n c : Nat} (hen : s.flag (GATE_WCMP_CFG_EN n c) = true)
    (hlim : s.fld (GATE_WCMP_LIM_LO n c) < s.fld (GATE_WCMP_LIM_HI n c)) (h : (s.wcompOf n c).lim = 1) :
    s.limitWindow n c = s.forceHb n (s.fld (GATE_WCMP_CFG_HB n c)) false := by
  simp [State.limitWindow, hen, hlim, h]

/-- The comparator takes the crossing first; its registers, no part of it, read as in `s`. -/
theorem exec_limitWindowCrossing_above {n : Fin 4} {c : Fin 6} {code : BitVec 12} (hr : s.islandsRun = true)
    (hg : s.grantS n = true) (hen : s.flag (GATE_WCMP_CFG_EN n c) = true)
    (hlim : s.fld (GATE_WCMP_LIM_LO n c) < s.fld (GATE_WCMP_LIM_HI n c))
    (hcode : s.fld (GATE_WCMP_LIM_HI n c) < code.toNat) :
    exec (.limitWindowCrossing n c code) s =
      .next ((s.onWcomp n c (fun w => { w with lim := 1 })).forceHb n (s.fld (GATE_WCMP_CFG_HB n c)) false) := by
  have hforce : (s.onWcomp n c (fun w => { w with lim := 1 })).limitWindow n c =
      (s.onWcomp n c (fun w => { w with lim := 1 })).forceHb n (s.fld (GATE_WCMP_CFG_HB n c)) false :=
    State.limitWindow_above hen hlim (by simp)
  exact (whenRun_run s hr).trans (by simp only [hg, hen, Bool.and_self, if_true, windowStep_above hcode, hforce])

/-! ### The statement -/

/-- Settles O3: each event finds its condition met and has its own effect; a station in the state of the event is judged in
that state. -/
theorem rideThroughEvents : Obligations.RideThroughEvents := by
  refine ⟨fun n s hr => ⟨exec_hwlimPersist hr, exec_rtCurveTrip hr, exec_vWindowTrip hr, exec_fWindowTrip hr,
      exec_olvTimeout hr, Stn.inRide_of_rideThrough, State.windowsOn_of_st, fun hst => Stn.stHere_of_st hst (by decide)⟩,
    fun n s hr => ⟨fun hen hst hc ht => ?_, exec_clearConfirmed_rideThrough hr, exec_clearConfirmed_limiting hr,
      fun _ _ => exec_limitWindowCrossing_above hr⟩⟩
  rw [exec_ceilOvl hr hen hst hc ht, State.blkCeiling_falls hc ht]

end Sys2Proof.Machine
end

section
/-! SUPPORT. No shoot-through (R186, R195): which definitions leave the half-bridges as they are, and that the others of the
pulse path never turn both switches of one on. -/

namespace Sys2Proof.Machine

/-- Both switches of the half-bridge are on. -/
def HalfBridge.bothOn (h : HalfBridge) : Prop := h.gh = true ∧ h.gl = true

/-- No half-bridge of the device has both switches on in `new` unless it has in `old`. -/
def NoNewBothOn (old new : List (Nat × HalfBridge)) : Prop :=
  ∀ i, (tget (fun _ => {}) new i).bothOn → (tget (fun _ => {}) old i).bothOn

theorem NoNewBothOn.refl (l : List (Nat × HalfBridge)) : NoNewBothOn l l := fun _ => id

theorem NoNewBothOn.trans {a b c : List (Nat × HalfBridge)} (h1 : NoNewBothOn a b) (h2 : NoNewBothOn b c) : NoNewBothOn a c :=
  fun i h => h1 i (h2 i h)

theorem NoNewBothOn.of_hb_eq {s t : State} (h : t.hb = s.hb) : NoNewBothOn s.hb t.hb := h ▸ .refl _

theorem NoNewBothOn.hbOf {s t : State} (h : NoNewBothOn s.hb t.hb) (n k : Nat) :
    (t.hbOf n k).bothOn → (s.hbOf n k).bothOn := h (12 * n + k)

/-! ### What leaves the half-bridges as they are -/

@[simp] theorem ite_hb (c : Prop) [Decidable c] (a b : State) : (if c then a else b).hb = if c then a.hb else b.hb :=
  apply_ite State.hb c a b

@[simp] theorem foldl_hb {β : Type} {f : State → β → State} (h : ∀ t x, (f t x).hb = t.hb) (l : List β) (s : State) :
    (l.foldl f s).hb = s.hb :=
  foldl_rel (fun a b => b.hb = a.hb) (fun _ => rfl) (fun _ _ _ h1 h2 => h2.trans h1) f h l s

@[simp] theorem State.forAll_hb {f : Nat → State → State} (h : ∀ i t, (f i t).hb = t.hb) (n : Nat) (s : State) :
    (s.forAll n f).hb = s.hb :=
  forAll_rel (fun a b => b.hb = a.hb) (fun _ => rfl) (fun _ _ _ h1 h2 => h2.trans h1) f h n s

variable (s : State)

@[simp] theorem State.setBytes_hb (a : Nat) (l : List Byte) : (s.setBytes a l).hb = s.hb := by
  induction l generalizing s a with
  | nil => rfl
  | cons b t ih => simpa [State.setBytes] using ih (s.setByte a b) (a + 1)

@[simp] theorem State.setFlagIf_hb (c : Bool) (f : Fld) : (s.setFlagIf c f).hb = s.hb := by simp [State.setFlagIf]

@[simp] theorem State.logEvent_hb (typ unit index code : Nat) : (s.logEvent typ unit index code).hb = s.hb := by
  simp [State.logEvent]

@[simp] theorem State.chestTake_hb (src time : Nat) : (s.chestTake src time).hb = s.hb := by simp [State.chestTake]

@[simp] theorem State.chestRecognise_hb (src time : Nat) : (s.chestRecognise src time).hb = s.hb := by
  simp only [State.chestRecognise]
  split <;> simp

@[simp] theorem State.chestTrigger_hb (src time : Nat) : (s.chestTrigger src time).hb = s.hb := by simp [State.chestTrigger]

@[simp] theorem State.chestEvent_hb (typ src : Nat) (any : Option Nat) : (s.chestEvent typ src any).hb = s.hb := by
  simp only [State.chestEvent]
  split <;> simp

@[simp] theorem State.applySettings_hb : s.applySettings.hb = s.hb := by simp [State.applySettings]

@[simp] theorem State.setSt_hb (n : Nat) (st : StnState) : (s.setSt n st).hb = s.hb := by simp [State.setSt]

@[simp] theorem State.backFld_hb (f : Option Fld) (x : Nat) : (s.backFld f x).hb = s.hb := by
  cases f <;> simp [State.backFld]

@[simp] theorem State.undoTurn_hb (n : Nat) : (s.undoTurn n).hb = s.hb := by
  simp only [State.undoTurn]
  split <;> simp

@[simp] theorem State.calmLimits_hb (n : Nat) : (s.calmLimits n).hb = s.hb := by simp [State.calmLimits]

@[simp] theorem State.addCauses_hb (n : Nat) (codes : List Nat) : (s.addCauses n codes).hb = s.hb := by simp [State.addCauses]

/-! ### One half-bridge changes -/

theorem HalfBridge.not_bothOn_dark (h : HalfBridge) : ¬ h.dark.bothOn := by simp [HalfBridge.bothOn, HalfBridge.dark]

/-- An edge only turns a switch off. -/
theorem HalfBridge.bothOn_of_edge {h : HalfBridge} {lv : Bool} (hb : (h.edge lv).bothOn) : h.bothOn := by
  unfold HalfBridge.edge at hb
  split at hb
  · split at hb
    · exact absurd hb.2 Bool.false_ne_true
    · exact absurd hb.1 Bool.false_ne_true
  · exact hb

theorem State.noNewBothOn_onHb (n k : Nat) {f : HalfBridge → HalfBridge}
    (hf : (f (s.hbOf n k)).bothOn → (s.hbOf n k).bothOn) : NoNewBothOn s.hb (s.onHb n k f).hb := by
  intro i hi
  by_cases h : i = 12 * n + k
  · subst h
    rw [State.onHb, tget_tset_self] at hi
    exact hf hi
  · rwa [State.onHb, tget_tset_ne _ _ _ h] at hi

theorem State.noNewBothOn_dark (n k : Nat) : NoNewBothOn s.hb (s.onHb n k HalfBridge.dark).hb :=
  s.noNewBothOn_onHb n k (fun h => absurd h (HalfBridge.not_bothOn_dark _))

/-! ### Removals, trips and latches (R187, R190, R194) -/

theorem State.noNewBothOn_dropGates (n : Nat) : NoNewBothOn s.hb (s.dropGates n).hb := by
  refine forAll_rel (fun a b => NoNewBothOn a.hb b.hb) (fun _ => .refl _) (fun _ _ _ => .trans) _ (fun k t => ?_) 12 s
  dsimp only
  split
  · exact t.noNewBothOn_dark n k
  · exact .refl _

theorem State.noNewBothOn_lowboyFollow (n : Nat) : NoNewBothOn s.hb (s.lowboyFollow n).hb := by
  simpa [State.lowboyFollow] using State.noNewBothOn_dropGates (s.onSafe n _) n

theorem State.noNewBothOn_enterTripped (n : Nat) (within : Bool) : NoNewBothOn s.hb (s.enterTripped n within).hb := by
  unfold State.enterTripped
  dsimp only
  split
  · exact .of_hb_eq (by simp)
  · split
    · exact .of_hb_eq (by simp)
    · simp only [State.chestEvent_hb, State.logEvent_hb, State.calmLimits_hb]
      exact (NoNewBothOn.of_hb_eq (by simp)).trans (State.noNewBothOn_dropGates _ n)

theorem State.noNewBothOn_tripSoon (n code : Nat) : NoNewBothOn s.hb (s.tripSoon n code).hb := by
  unfold State.tripSoon
  dsimp only
  split
  · exact .refl _
  · split
    · exact .of_hb_eq (by simp)
    · split
      · exact .of_hb_eq (by simp)
      · simpa using State.noNewBothOn_enterTripped (s.onStn n _) n false

/-- A latch turns the half-bridge off, and the trip that it may bring turns none on. -/
theorem State.noNewBothOn_latchHb (n k cause : Nat) : NoNewBothOn s.hb (s.latchHb n k cause).hb := by
  unfold State.latchHb
  dsimp only
  split
  · exact .refl _
  · have hdark : NoNewBothOn s.hb
        (((s.setFldBit (GATE_LATCH_LATCHED n) k true).setReg (GATE_LCAUSE n)
          (putBits (s.reg (GATE_LCAUSE n)) (2 * k) 2 cause)).onHb n k HalfBridge.dark).hb := by
      simpa using State.noNewBothOn_dark ((s.setFldBit _ k true).setReg _ _) n k
    split
    · exact hdark
    · refine hdark.trans (.trans (.of_hb_eq ?_) (State.noNewBothOn_tripSoon _ n 2))
      simp

/-! ### The commands of the pulse path (R184 to R190, R194) -/

theorem State.noNewBothOn_pulseEdge (n k : Nat) : NoNewBothOn s.hb (s.pulseEdge n k).hb := by
  unfold State.pulseEdge
  dsimp only
  split
  · exact .refl _
  · exact s.noNewBothOn_onHb n k id

theorem State.noNewBothOn_filterOut (n k : Nat) : NoNewBothOn s.hb (s.filterOut n k).hb := by
  unfold State.filterOut
  split
  next => exact .refl _
  next t0 lv rest _ =>
    split
    next t1 lv1 more _ =>
      split
      next => exact (s.noNewBothOn_onHb n k (f := fun h => { h with pend := more }) id).trans (.of_hb_eq (by simp))
      next => exact s.noNewBothOn_onHb n k HalfBridge.bothOn_of_edge
    next => exact s.noNewBothOn_onHb n k HalfBridge.bothOn_of_edge

/-- A test write drives one switch at most. -/
theorem State.noNewBothOn_writeTest (n : Nat) (w : Word) : NoNewBothOn s.hb (s.writeTest n w).hb := by
  unfold State.writeTest
  dsimp only
  split
  next => exact .of_hb_eq (by simp)
  next hboth =>
    split
    next =>
      split
      next =>
        refine s.noNewBothOn_onHb n _ fun h => absurd h ?_
        simpa [HalfBridge.bothOn] using hboth
      next => exact .refl _
    next => exact .of_hb_eq (by simp)

/-! ### Answers -/

section
variable {s} {t t' : State}

theorem noNewBothOn_of_whenRun (h : NoNewBothOn s.hb t.hb) (ht : whenRun s t = .next t') : NoNewBothOn s.hb t'.hb := by
  cases ht
  split
  · exact h
  · exact .refl _

theorem noNewBothOn_of_writeWindow {x : Nat} (h : NoNewBothOn s.hb t.hb) (ht : writeWindow x s t = .next t') :
    NoNewBothOn s.hb t'.hb := by
  cases ht
  split
  · exact .refl _
  · split
    · split
      · exact .refl _
      · exact h
    · exact .of_hb_eq (by simp)

end

section
variable {s} {t : State} {n : Fin 4} {k : Fin 12}

theorem noNewBothOn_deadTimeEnd (ht : exec (.deadTimeEnd n k) s = .next t) : NoNewBothOn s.hb t.hb := by
  refine noNewBothOn_of_whenRun ?_ ht
  split
  next => exact .refl _
  next side _ =>
    split
    next => exact s.noNewBothOn_onHb n k fun h => absurd h (by simp [HalfBridge.bothOn])
    next => exact s.noNewBothOn_onHb n k id

theorem noNewBothOn_blankingEnd (ht : exec (.blankingEnd n k) s = .next t) : NoNewBothOn s.hb t.hb := by
  have hunblank := s.noNewBothOn_onHb n k (f := fun h => { h with blank := false }) id
  refine noNewBothOn_of_whenRun ?_ ht
  split
  · exact hunblank.trans (State.noNewBothOn_latchHb _ n k 1)
  · exact hunblank

theorem noNewBothOn_gateTestEnd (ht : exec (.gateTestEnd n k) s = .next t) : NoNewBothOn s.hb t.hb := by
  refine noNewBothOn_of_whenRun ?_ ht
  split
  · exact s.noNewBothOn_onHb n k fun h => absurd h (by simp [HalfBridge.bothOn])
  · exact .refl _

theorem noNewBothOn_latchEnableRemoval (ht : exec (.latchEnableRemoval n) s = .next t) : NoNewBothOn s.hb t.hb := by
  refine noNewBothOn_of_whenRun ?_ ht
  split
  · exact .refl _
  · simpa using State.noNewBothOn_lowboyFollow (s.onPwm n _) n

end

/-! ### The refused test write (R195) -/

theorem State.window_gate (n : Fin 4) : s.window (0x0C + n) = some (s.grantS n) := by
  fin_cases n <;> rfl

theorem State.writeTest_both {w : Word} (hgh : bit w 4 = true) (hgl : bit w 5 = true) (n : Nat) :
    s.writeTest n w = (s.setFlag (GATE_FLAGS_BOTH_ON_REFUSED n)).setFlag SAF_FLAGS_BOTH_ON :=
  if_pos (by simp [hgh, hgl])

/-! ### The statement -/

/-- Settles O17: a command of the pulse path turns a switch on only where it leaves or turns the other off, and a latch, trip
or removal only turns switches off. A test write for both switches is its first case. -/
theorem noShootThrough : Obligations.NoShootThrough := by
  refine ⟨fun n k s t hs ht hboth => hs (NoNewBothOn.hbOf ?_ n k hboth), fun n w s hr hg hgh hgl => ?_⟩
  · rcases ht with ht | ht | ht | ht | ht | ht | ⟨w, ht⟩
    · exact noNewBothOn_of_whenRun (s.noNewBothOn_pulseEdge n k) ht
    · exact noNewBothOn_of_whenRun (s.noNewBothOn_filterOut n k) ht
    · exact noNewBothOn_deadTimeEnd ht
    · exact noNewBothOn_blankingEnd ht
    · exact noNewBothOn_gateTestEnd ht
    · exact noNewBothOn_latchEnableRemoval ht
    · exact noNewBothOn_of_writeWindow (s.noNewBothOn_writeTest n w) ht
  · rw [← s.writeTest_both hgh hgl]
    exact writeWindow_open hr (by rw [s.window_gate, hg])

end Sys2Proof.Machine
end

section
/-! SUPPORT. The local clock (R299, R303, R305, R306, R308, R314): the registers that show the latched seconds, what a tick
leaves of them, the reads that latch, and the step that waits, is made or is refused. -/

namespace Sys2Proof.Machine

variable (s : State)

/-! ### The latched seconds while time passes (R299) -/

theorem State.regView_tim_s_lo : s.regView TIM_S_LO = BitVec.ofNat 32 s.clock.latched := rfl

theorem State.regView_tim_s_hi : s.regView TIM_S_HI = BitVec.ofNat 32 (s.clock.latched / 2 ^ 32 % 2 ^ 16) := rfl

@[simp] theorem State.setBytes_clock (a : Nat) (l : List Byte) : (s.setBytes a l).clock = s.clock := by
  induction l generalizing s a with
  | nil => rfl
  | cons b t ih => exact ih (s.setByte a b) (a + 1)

@[simp] theorem State.forAll_clock {f : Nat → State → State} (h : ∀ i t, (f i t).clock = t.clock) (n : Nat) :
    (s.forAll n f).clock = s.clock :=
  forAll_rel (fun a b => b.clock = a.clock) (fun _ => rfl) (fun _ _ _ h1 h2 => h2.trans h1) f h n s

@[simp] theorem State.armSegment_clock (g : Nat) : (s.armSegment g).clock = s.clock := by
  simp [State.armSegment, State.transfer]

@[simp] theorem State.chestRearm_clock : s.chestRearm.clock = s.clock := by
  simp only [State.chestRearm]
  split
  · rfl
  · split
    · exact s.armSegment_clock _
    · exact State.armSegment_clock _ _

theorem Clock.tickAon_latched (c : Clock) : c.tickAon.latched = c.latched := by
  simp only [Clock.tickAon]
  split <;> rfl

theorem Clock.tick_latched (c : Clock) (incr : Nat) : (c.tick incr).latched = c.latched := rfl

theorem State.tickClock_latched : s.tickClock.clock.latched = s.clock.latched := by
  simp only [State.tickClock]
  split
  · rw [Clock.tick_latched, Clock.tickAon_latched]
  · exact s.clock.tickAon_latched

theorem State.tick_latched : s.tick.clock.latched = s.clock.latched := by
  simp only [State.tick]
  split
  · simpa using s.tickClock_latched
  · exact s.tickClock_latched

theorem State.tick_regView_seconds :
    s.tick.regView TIM_S_LO = s.regView TIM_S_LO ∧ s.tick.regView TIM_S_HI = s.regView TIM_S_HI := by
  simp only [State.regView_tim_s_lo, State.regView_tim_s_hi, s.tick_latched, and_self]

/-! ### Capture reads (R308) -/

variable {s}

theorem State.readCap_empty {c : Nat} (h : (s.capOf c).fifo = []) :
    s.readCap c = { s.setReg (TIM_CAP_INFO c) 0 with readData := 0 } := by
  simp only [State.readCap, h]

theorem State.readCap_last {c : Nat} {e : Stamp} (h : (s.capOf c).fifo = [e]) :
    s.readCap c =
      { ((((s.onCap c (fun x => { x with fifo := [] })).setFldBit TIM_CAP_STATUS_NONEMPTY c false).setReg (TIM_CAP_HI c)
        (BitVec.ofNat 32 (e.time / 2 ^ 32))).setReg (TIM_CAP_INFO c) (BitVec.ofNat 32 (256 + e.rising.toNat))) with
          readData := BitVec.ofNat 32 e.time } := by
  simp only [State.readCap, h, List.isEmpty_nil, Bool.not_true]

/-! ### A step is committed, or refused while another waits (R303, R314) -/

theorem State.commitStep_free (h : s.clock.step = none) (d : Int) :
    s.commitStep d = { s with clock := { s.clock with step := some d } }.setFld TIM_STATUS_STEP_PENDING 1 :=
  if_neg (by simp [h])

theorem State.commitStep_waiting {d : Int} (h : s.clock.step = some d) (d' : Int) : s.commitStep d' = s.stepRefused :=
  if_pos (by simp [h])

/-! ### The tick of a waiting step (R303, R306, R314) -/

variable (s)

/-- The step no longer waits. -/
def State.dropStep : State := { s with clock := { s.clock with step := none } }.setFld TIM_STATUS_STEP_PENDING 0

/-- The step `d` is made; one that a PTP offset asked for within its threshold ends the estimate of the time. -/
def State.timeStepped (d : Int) : State :=
  let t := (s.dropStep.setLocal (s.localNs + d).toNat).stepDone
  if s.ptp.clearDue then t.clearEst else t

variable {s} {d : Int}

theorem State.applyStep_made (h : s.clock.step = some d) (hok : s.stepOk d = true) :
    s.applyStep = (s.timeStepped d).onPtp (fun p => { p with clearDue := false }) := by
  simp only [State.applyStep, h, hok, if_true]
  rfl

theorem State.applyStep_refused (h : s.clock.step = some d) (hok : s.stepOk d = false) :
    s.applyStep = s.dropStep.stepRefused.onPtp (fun p => { p with clearDue := false }) := by
  simp only [State.applyStep, h, hok, Bool.false_eq_true, if_false]
  rfl

/-- A step that may be made leads to no negative time. -/
theorem State.localNs_add_nonneg_of_stepOk (hok : s.stepOk d = true) : 0 ≤ s.localNs + d :=
  of_decide_eq_true (Bool.and_eq_true_iff.mp hok).2

variable (s) (d)

theorem State.localNs_setLocal (t : Nat) : (s.setLocal t).localNs = (t % (2 ^ 48 * nsPerSec) : Nat) := by
  have hsplit : t % (nsPerSec * 2 ^ 48) = t % nsPerSec + nsPerSec * (t / nsPerSec % 2 ^ 48) := Nat.mod_mul
  rw [Nat.mul_comm (2 ^ 48), hsplit, Nat.add_comm, Nat.mul_comm nsPerSec]
  rfl

theorem State.fld_dropStep_pending : s.dropStep.fld TIM_STATUS_STEP_PENDING = 0 :=
  State.fld_setFld_self _ 0 (by decide)

theorem State.fld_stepRefused_pending : s.stepRefused.fld TIM_STATUS_STEP_PENDING = s.fld TIM_STATUS_STEP_PENDING :=
  (State.fld_setFld_addr _ _ (by decide)).trans (State.fld_setFld_addr _ _ (by decide))

theorem State.flag_stepRefused : s.stepRefused.flag TIM_FLAGS_STEP_REFUSED = true :=
  s.flag_flagAndCount (g := TIM_CNT0_STEP_REFUSED_CNT) (by decide) (by decide) (by decide)

/-- An accepted step writes no field of TIM_STATUS but UNSET. -/
theorem State.fld_stepDone_status {f : Fld} (ha : f.addr = TIM_STATUS) :
    s.stepDone.fld f = (s.setFld TIM_STATUS_UNSET 0).fld f := by
  have hflags : f.addr ≠ TIM_FLAGS := by rw [ha]; decide
  have hcount : f.addr ≠ TIM_CNT0 := by rw [ha]; decide
  exact (State.fld_setFld_addr _ _ hcount).trans (State.fld_setFld_addr _ _ hflags)

theorem State.fld_stepDone_unset : s.stepDone.fld TIM_STATUS_UNSET = 0 := by
  rw [s.fld_stepDone_status rfl]
  exact s.fld_setFld_self 0 (by decide)

theorem State.fld_stepDone_pending : s.stepDone.fld TIM_STATUS_STEP_PENDING = s.fld TIM_STATUS_STEP_PENDING := by
  rw [s.fld_stepDone_status rfl]
  exact s.fld_setFld_ne 0 (by decide) (by decide)

theorem State.flag_stepDone : s.stepDone.flag TIM_FLAGS_STEP_DONE = true :=
  (s.setFld TIM_STATUS_UNSET 0).flag_flagAndCount (g := TIM_CNT0_STEP_CNT) (by decide) (by decide) (by decide)

/-- Whether the estimate ends or not, every other field and the clock are those of the step. -/
theorem State.timeStepped_clock : (s.timeStepped d).clock = (s.dropStep.setLocal (s.localNs + d).toNat).clock := by
  simp only [State.timeStepped]
  split <;> rfl

theorem State.fld_timeStepped {f : Fld} (h : 1 ≤ f.lo) :
    (s.timeStepped d).fld f = (s.dropStep.setLocal (s.localNs + d).toNat).stepDone.fld f := by
  simp only [State.timeStepped]
  split
  · exact State.fld_setFld_ne _ 0 (by decide) (.inr h)
  · rfl

theorem State.fld_timeStepped_pending : (s.timeStepped d).fld TIM_STATUS_STEP_PENDING = 0 := by
  rw [s.fld_timeStepped d (by decide), State.fld_stepDone_pending]
  exact s.fld_dropStep_pending

theorem State.fld_timeStepped_unset : (s.timeStepped d).fld TIM_STATUS_UNSET = 0 := by
  rw [s.fld_timeStepped d (by decide), State.fld_stepDone_unset]

theorem State.flag_timeStepped : (s.timeStepped d).flag TIM_FLAGS_STEP_DONE = true := by
  rw [State.flag, s.fld_timeStepped d (by decide)]
  exact State.flag_stepDone _

variable {s} {d}

/-- The local time moves by the step; the seconds wrap at 2^48. -/
theorem State.localNs_timeStepped (hok : s.stepOk d = true) :
    (s.timeStepped d).localNs = (s.localNs + d) % (2 ^ 48 * 1000000000) := by
  have hpos := State.localNs_add_nonneg_of_stepOk hok
  have hset : (s.timeStepped d).localNs = (s.dropStep.setLocal (s.localNs + d).toNat).localNs := by
    simp only [State.localNs, s.timeStepped_clock]
  rw [hset, State.localNs_setLocal, Int.natCast_mod, Int.toNat_of_nonneg hpos]
  rfl

/-! ### Accesses and the tick that run -/

theorem whenDev_of_eq {t u : State} (hd : s.devRuns = true) (h : t = u) : whenDev s t = .next u := h ▸ whenDev_run s hd

theorem exec_timStepApply (h : s.clockRuns = true) : exec .timStepApply s = .next s.applyStep :=
  congrArg Host.Outcome.next (if_pos h)

/-! ### The statement -/

/-- Settles O37: the tick keeps the latched seconds; a read of each kind, a commit and an apply are each one case of their
definition. -/
theorem timeCommands : Obligations.TimeCommands := by
  refine ⟨fun s hd => ?_, fun s hd => ?_, fun s hd => ?_⟩
  · obtain ⟨hlo, hhi⟩ := s.readNs.tick_regView_seconds
    exact ⟨s.readNs, whenDev_run s hd, rfl, rfl, rfl, hlo, hhi⟩
  · exact ⟨whenDev_run s hd, whenDev_run s hd, fun c h => whenDev_of_eq hd (State.readCap_empty h),
      fun c e h => whenDev_of_eq hd (State.readCap_last h)⟩
  · refine ⟨fun hi h => whenDev_of_eq hd (State.commitStep_free h _),
      fun hi d h => whenDev_of_eq hd (State.commitStep_waiting h _), fun d hr h hok => ?_, fun d hr h hok => ?_,
      whenDev_run s hd⟩
    · refine ⟨_, (exec_timStepApply hr).trans (by rw [State.applyStep_made h hok]), ?_⟩
      exact ⟨State.localNs_timeStepped hok, congrArg Clock.step (s.timeStepped_clock d), s.fld_timeStepped_pending d,
        s.fld_timeStepped_unset d, s.flag_timeStepped d⟩
    · refine ⟨_, (exec_timStepApply hr).trans (by rw [State.applyStep_refused h hok]), ?_⟩
      exact ⟨rfl, rfl, (State.fld_stepRefused_pending _).trans s.fld_dropStep_pending, State.flag_stepRefused _⟩

end Sys2Proof.Machine
end

section
/-! SUPPORT. The PLLs and the reference (R421 to R430): the cases of the loss of a PLL, what a held removal of every station
leaves of the clocks and of the removals of the others, and the fields that a switch-over, a phase step and a build-out set. -/

namespace Sys2Proof.Machine

/-! ### Fields apart from the one written -/

/-- A field of another register, or beside the one written, keeps its value. -/
theorem State.fld_setFld_apart {s : State} {f g : Fld} (n : Nat) (hw : f.lo + f.w ≤ 32)
    (h : g.addr ≠ f.addr ∨ g.lo + g.w ≤ f.lo ∨ f.lo + f.w ≤ g.lo) : (s.setFld f n).fld g = s.fld g :=
  h.elim (s.fld_setFld_addr n) (s.fld_setFld_ne n hw)

theorem State.flag_setFld_apart {s : State} {f g : Fld} (n : Nat) (hw : f.lo + f.w ≤ 32)
    (h : g.addr ≠ f.addr ∨ g.lo + g.w ≤ f.lo ∨ f.lo + f.w ≤ g.lo) : (s.setFld f n).flag g = s.flag g := by
  rw [State.flag, State.fld_setFld_apart n hw h, State.flag]

theorem State.flag_setFld_self (s : State) {f : Fld} (on : Bool) (h : f.lo + f.w ≤ 32) (hw : 0 < f.w) :
    (s.setFld f on.toNat).flag f = on := by
  have hone : 1 < 2 ^ f.w := Nat.one_lt_two_pow (by omega)
  have hlt : on.toNat < 2 ^ f.w := on.toNat_le.trans_lt hone
  rw [State.flag, s.fld_setFld_self _ h, Nat.mod_eq_of_lt hlt]
  cases on <;> rfl

/-! ### What leaves the clocks and Lowboy's stations as they are -/

@[simp] theorem ite_clk (c : Prop) [Decidable c] (a b : State) : (if c then a else b).clk = if c then a.clk else b.clk :=
  apply_ite State.clk c a b

@[simp] theorem ite_safeStn (c : Prop) [Decidable c] (a b : State) :
    (if c then a else b).safeStn = if c then a.safeStn else b.safeStn := apply_ite State.safeStn c a b

@[simp] theorem foldl_clk {β : Type} {f : State → β → State} (h : ∀ t x, (f t x).clk = t.clk) (l : List β) (s : State) :
    (l.foldl f s).clk = s.clk :=
  foldl_rel (fun a b => b.clk = a.clk) (fun _ => rfl) (fun _ _ _ h1 h2 => h2.trans h1) f h l s

@[simp] theorem foldl_safeStn {β : Type} {f : State → β → State} (h : ∀ t x, (f t x).safeStn = t.safeStn) (l : List β)
    (s : State) : (l.foldl f s).safeStn = s.safeStn :=
  foldl_rel (fun a b => b.safeStn = a.safeStn) (fun _ => rfl) (fun _ _ _ h1 h2 => h2.trans h1) f h l s

@[simp] theorem State.forAll_clk {f : Nat → State → State} (h : ∀ i t, (f i t).clk = t.clk) (n : Nat) (s : State) :
    (s.forAll n f).clk = s.clk :=
  forAll_rel (fun a b => b.clk = a.clk) (fun _ => rfl) (fun _ _ _ h1 h2 => h2.trans h1) f h n s

@[simp] theorem State.forAll_safeStn {f : Nat → State → State} (h : ∀ i t, (f i t).safeStn = t.safeStn) (n : Nat)
    (s : State) : (s.forAll n f).safeStn = s.safeStn :=
  forAll_rel (fun a b => b.safeStn = a.safeStn) (fun _ => rfl) (fun _ _ _ h1 h2 => h2.trans h1) f h n s

section
variable (s : State)

@[simp] theorem State.setBytes_clk_safeStn (s : State) (a : Nat) (l : List Byte) :
    (s.setBytes a l).clk = s.clk ∧ (s.setBytes a l).safeStn = s.safeStn := by
  induction l generalizing s a with
  | nil => exact ⟨rfl, rfl⟩
  | cons b t ih => exact ih (s.setByte a b) (a + 1)

@[simp] theorem State.setFlagIf_clk_safeStn (c : Bool) (f : Fld) :
    (s.setFlagIf c f).clk = s.clk ∧ (s.setFlagIf c f).safeStn = s.safeStn := by simp [State.setFlagIf]

@[simp] theorem State.logEvent_clk_safeStn (typ unit index code : Nat) :
    (s.logEvent typ unit index code).clk = s.clk ∧ (s.logEvent typ unit index code).safeStn = s.safeStn := by
  simp [State.logEvent]

@[simp] theorem State.chestTake_clk_safeStn (src time : Nat) :
    (s.chestTake src time).clk = s.clk ∧ (s.chestTake src time).safeStn = s.safeStn := by simp [State.chestTake]

@[simp] theorem State.chestRecognise_clk_safeStn (src time : Nat) :
    (s.chestRecognise src time).clk = s.clk ∧ (s.chestRecognise src time).safeStn = s.safeStn := by
  simp only [State.chestRecognise]
  split <;> simp

@[simp] theorem State.chestTrigger_clk_safeStn (src time : Nat) :
    (s.chestTrigger src time).clk = s.clk ∧ (s.chestTrigger src time).safeStn = s.safeStn := by simp [State.chestTrigger]

@[simp] theorem State.chestEvent_clk_safeStn (typ src : Nat) (any : Option Nat) :
    (s.chestEvent typ src any).clk = s.clk ∧ (s.chestEvent typ src any).safeStn = s.safeStn := by
  simp only [State.chestEvent]
  split <;> simp

@[simp] theorem State.dropGates_clk_safeStn (n : Nat) :
    (s.dropGates n).clk = s.clk ∧ (s.dropGates n).safeStn = s.safeStn := by simp [State.dropGates]

@[simp] theorem State.applySettings_clk_safeStn :
    s.applySettings.clk = s.clk ∧ s.applySettings.safeStn = s.safeStn := by simp [State.applySettings]

@[simp] theorem State.setSt_clk_safeStn (n : Nat) (st : StnState) :
    (s.setSt n st).clk = s.clk ∧ (s.setSt n st).safeStn = s.safeStn := by simp [State.setSt]

@[simp] theorem State.backFld_clk_safeStn (f : Option Fld) (x : Nat) :
    (s.backFld f x).clk = s.clk ∧ (s.backFld f x).safeStn = s.safeStn := by cases f <;> simp [State.backFld]

@[simp] theorem State.undoTurn_clk_safeStn (n : Nat) :
    (s.undoTurn n).clk = s.clk ∧ (s.undoTurn n).safeStn = s.safeStn := by
  simp only [State.undoTurn]
  split <;> simp

@[simp] theorem State.calmLimits_clk_safeStn (n : Nat) :
    (s.calmLimits n).clk = s.clk ∧ (s.calmLimits n).safeStn = s.safeStn := by simp [State.calmLimits]

@[simp] theorem State.addCauses_clk_safeStn (n : Nat) (codes : List Nat) :
    (s.addCauses n codes).clk = s.clk ∧ (s.addCauses n codes).safeStn = s.safeStn := by simp [State.addCauses]

@[simp] theorem State.enterTripped_clk_safeStn (n : Nat) (within : Bool) :
    (s.enterTripped n within).clk = s.clk ∧ (s.enterTripped n within).safeStn = s.safeStn := by simp [State.enterTripped]

@[simp] theorem State.tripSoon_clk_safeStn (n code : Nat) :
    (s.tripSoon n code).clk = s.clk ∧ (s.tripSoon n code).safeStn = s.safeStn := by simp [State.tripSoon]

@[simp] theorem State.testDue_clk_safeStn (k : Nat) :
    (s.testDue k).clk = s.clk ∧ (s.testDue k).safeStn = s.safeStn := by simp [State.testDue]

@[simp] theorem State.runDeferred_clk_safeStn :
    s.runDeferred.clk = s.clk ∧ s.runDeferred.safeStn = s.safeStn := by simp [State.runDeferred]

@[simp] theorem State.soutsLow_clk_safeStn (n : Nat) :
    (s.soutsLow n).clk = s.clk ∧ (s.soutsLow n).safeStn = s.safeStn := by simp [State.soutsLow]

@[simp] theorem State.failRelease_clk (set : List Nat) : (s.failRelease set).clk = s.clk := by simp [State.failRelease]

@[simp] theorem State.holdStation_clk (n cause : Nat) : (s.holdStation n cause).clk = s.clk := by simp [State.holdStation]

@[simp] theorem State.holdAll_clk (cause : Nat) : (s.holdAll cause).clk = s.clk := by simp [State.holdAll]

@[simp] theorem State.bothLost_clk : s.bothLost.clk = s.clk := by simp [State.bothLost]

/-! ### A held removal of every station (R339, R427) -/

theorem State.safeOf_congr {s t : State} (h : s.safeStn = t.safeStn) (n : Nat) : s.safeOf n = t.safeOf n := by
  rw [State.safeOf, h, State.safeOf]

/-- A held removal stands through a change of Lowboy's other fields, of whichever station. -/
theorem State.held_onSafe {n : Nat} {f : SafeStn → SafeStn} (hf : (s.safeOf n).held = true → (f (s.safeOf n)).held = true)
    {m : Nat} (h : (s.safeOf m).held = true) : ((s.onSafe n f).safeOf m).held = true := by
  by_cases hm : m = n
  · subst hm
    rw [State.safeOf_onSafe]
    exact hf h
  · rwa [State.safeOf, State.onSafe, tget_tset_ne _ _ _ hm]

/-- A release that fails lets every held removal stand. -/
theorem State.held_failRelease (set : List Nat) {m : Nat} (h : (s.safeOf m).held = true) :
    ((s.failRelease set).safeOf m).held = true := by
  refine foldl_rel (fun a b => (a.safeOf m).held = true → (b.safeOf m).held = true) (fun _ => id)
    (fun _ _ _ h1 h2 h => h2 (h1 h)) _ (fun t n ht => ?_) set s h
  rw [State.safeOf_congr (State.soutsLow_clk_safeStn _ n).2]
  exact t.held_onSafe id ht

/-- Of Lowboy's stations a held removal changes its own, after a release in progress has failed. -/
theorem State.holdStation_safeStn (n cause : Nat) :
    (s.holdStation n cause).safeStn =
      ((if (s.safeOf n).releasing then s.failRelease (s.safeOf n).party else s).onSafe n
        (fun f => { f with held := true, stop := false, demanded := false })).safeStn := by
  simp only [State.holdStation, State.tripSoon_clk_safeStn, State.soutsLow_clk_safeStn, State.dropGates_clk_safeStn]
  generalize (if (s.safeOf n).releasing then s.failRelease (s.safeOf n).party else s) = t
  split <;> rfl

theorem State.held_holdStation_self (n cause : Nat) : ((s.holdStation n cause).safeOf n).held = true := by
  rw [State.safeOf_congr (s.holdStation_safeStn n cause), State.safeOf_onSafe]

theorem State.held_holdStation (n cause : Nat) {m : Nat} (h : (s.safeOf m).held = true) :
    ((s.holdStation n cause).safeOf m).held = true := by
  rw [State.safeOf_congr (s.holdStation_safeStn n cause)]
  refine State.held_onSafe _ (fun _ => rfl) ?_
  split
  · exact s.held_failRelease _ h
  · exact h

theorem State.held_forAll_holdStation (cause : Nat) {k n : Nat} (h : n < k) :
    ((s.forAll k (fun n t => t.holdStation n cause)).safeOf n).held = true := by
  induction k with
  | zero => exact absurd h n.not_lt_zero
  | succ k ih =>
    rw [State.forAll]
    by_cases hn : n = k
    · subst hn
      exact State.held_holdStation_self _ _ _
    · exact State.held_holdStation _ _ _ (ih (by omega))

theorem State.held_holdAll (cause : Nat) {n : Nat} (h : n < 4) : ((s.holdAll cause).safeOf n).held = true := by
  rw [State.holdAll]
  exact s.held_forAll_holdStation cause h

/-- An entry to RETAIN that the loss of both PLLs ends changes no removal (R444). -/
theorem State.bothLost_safeStn :
    s.bothLost.safeStn = (((s.setFlag CLK_FLAGS_BOTH_LOST).setFld SAF_LB_PLL_LOST 1).holdAll 0x0A).safeStn := by
  simp only [State.bothLost, ite_safeStn, State.setFlag_rest, State.setFld_rest, ite_self]

theorem State.held_bothLost {n : Nat} (h : n < 4) : (s.bothLost.safeOf n).held = true := by
  rw [State.safeOf_congr s.bothLost_safeStn]
  exact State.held_holdAll _ 0x0A h

/-! ### The loss of a PLL (R424, R427) -/

/-- What shows that a PLL is lost. -/
def State.showPllLost (p : Nat) : State :=
  ((((s.setPllLost p true).setFld (CLK_PRESENT p) 0).setFld (CLK_DIG_LOCK p) 0).setFld (CLK_TWIN_READY p) 0).setFlag
    (if p = 0 then CLK_FLAGS_PLLA_LOST else CLK_FLAGS_PLLB_LOST)

end

section
variable {s : State} {p : Nat}

theorem State.losePll_idle (h : s.islandsOn p = 0) : s.losePll p = s.showPllLost p := if_pos h

/-- The islands move to a twin that serves; the pulse island's move is counted besides (R301). -/
theorem State.losePll_served (h : s.islandsOn p ≠ 0) (ht : s.twinServes (1 - p) = true) :
    (s.losePll p).clk = { (s.setPllLost p true).clk with moving := BitVec.ofNat 7 (s.islandsOn p), toB := p == 0 } ∧
      (s.losePll p).stn = s.stn ∧ (s.losePll p).safeStn = s.safeStn := by
  simp only [State.losePll, h, ht, if_false, if_true]
  split <;> simp [State.setPllLost]

theorem State.losePll_unserved (h : s.islandsOn p ≠ 0) (ht : s.twinServes (1 - p) = false) :
    s.losePll p = ((s.showPllLost p).setPllLost (1 - p) true).bothLost := by
  simp only [State.losePll, h, ht, if_false, Bool.false_eq_true]
  rfl

end

/-- One PLL lost, then the other. -/
theorem State.setPllLost_both (s : State) (p : Fin 2) :
    (((s.showPllLost p).setPllLost (1 - p.val) true).clk.lostA = true) ∧
      (((s.showPllLost p).setPllLost (1 - p.val) true).clk.lostB = true) := by
  fin_cases p <;> simp [State.showPllLost, State.setPllLost]

section
variable {s : State} {p : Fin 2}

theorem exec_pllLost (hr : s.dev.inReset = false) (hd : s.dev.retain = false) (hl : s.pllLostNow p = false) :
    exec (.pllLost p) s = .next (s.losePll p) :=
  congrArg Host.Outcome.next (if_neg (by simp [hr, hd, hl]))

/-! ### The switch-over (R425, R429) -/

theorem State.fld_startBuildout {s : State} {f : Fld} (h : f.addr ≠ CLK_STATUS ∨ 14 ≤ f.lo) :
    s.startBuildout.fld f = s.fld f := by
  have h0 : (s.setFld (CLK_BUILDOUT 0) 1).fld f = s.fld f :=
    State.fld_setFld_apart 1 (by decide) (h.imp_right fun hlo => .inr (Nat.le_trans (by decide) hlo))
  exact (State.fld_setFld_apart 1 (by decide) (h.imp_right .inr)).trans h0

/-- The islands that move from PLL A run on B, and `took` is shown. -/
def State.switchedToB (s : State) (took : Nat) : State :=
  let s1 : State := { s with clk := { s.clk with moving := 0, buildoutDue := false } }
  (((s1.setFld CLK_STATUS_SRC_B (s.fld CLK_STATUS_SRC_B ||| s.clk.moving.toNat)).setFlag CLK_FLAGS_SWITCHED).count
    CLK_CNT_SWITCH_CNT).setFld CLK_LAST_LOST (min took 65535)

theorem exec_islandSwitchoverDone_toB {took : Nat} (hm : s.clk.moving ≠ 0) (hb : s.clk.toB = true) :
    exec (.islandSwitchoverDone took) s =
      .next (if s.clk.buildoutDue then (s.switchedToB took).startBuildout else s.switchedToB took) :=
  congrArg Host.Outcome.next ((if_neg hm).trans (by dsimp only; rw [if_pos hb]; rfl))

theorem State.flag_switchedToB (s : State) (took : Nat) : (s.switchedToB took).flag CLK_FLAGS_SWITCHED = true := by
  simp (disch := decide) only [State.switchedToB, State.count, State.countBy, State.flag_setFld_apart,
    State.flag_setFlag_self]

theorem State.fld_switchedToB_lost (s : State) (took : Nat) : (s.switchedToB took).fld CLK_LAST_LOST = min took 65535 :=
  (State.fld_setFld_self _ _ (by decide)).trans (Nat.mod_eq_of_lt (Nat.lt_succ_of_le (Nat.min_le_right _ _)))

theorem State.fld_switchedToB_src (s : State) (took : Nat) :
    (s.switchedToB took).fld CLK_STATUS_SRC_B = s.fld CLK_STATUS_SRC_B ||| s.clk.moving.toNat := by
  have hlt : s.fld CLK_STATUS_SRC_B ||| s.clk.moving.toNat < 2 ^ 7 :=
    Nat.or_lt_two_pow (bits_lt _ _ _) s.clk.moving.isLt
  simp (disch := decide) only [State.switchedToB, State.count, State.countBy, State.setFlag, State.fld_setFld_apart,
    State.fld_setFld_self]
  exact Nat.mod_eq_of_lt hlt

theorem islandSwitchoverDone_toB {took : Nat} (hm : s.clk.moving ≠ 0) (hb : s.clk.toB = true) :
    ∃ t, exec (.islandSwitchoverDone took) s = .next t ∧ t.clk.moving = 0 ∧ t.flag CLK_FLAGS_SWITCHED = true ∧
      t.fld CLK_LAST_LOST = min took 65535 ∧ t.fld CLK_STATUS_SRC_B = s.fld CLK_STATUS_SRC_B ||| s.clk.moving.toNat := by
  have hshown := And.intro (s.flag_switchedToB took) (And.intro (s.fld_switchedToB_lost took) (s.fld_switchedToB_src took))
  refine ⟨_, exec_islandSwitchoverDone_toB hm hb, ?_⟩
  split
  · rw [State.flag, State.fld_startBuildout (by decide), State.fld_startBuildout (by decide),
      State.fld_startBuildout (by decide)]
    exact ⟨rfl, hshown⟩
  · exact ⟨rfl, hshown⟩

/-! ### Locks (R422, R423, R426) -/

theorem exec_pllRestartAttempt_A (h : s.clk.lostA = true) :
    exec (.pllRestartAttempt 0) s = .next { s with clk := { s.clk with startedA := true } } :=
  congrArg Host.Outcome.next (if_neg (by simp [State.pllLostNow, h]))

theorem exec_digLockChange_rise (hr : s.dev.inReset = false) (hl : s.pllLostNow p = false) :
    exec (.digLockChange p true) s = .next ((s.setFld (CLK_DIG_LOCK p) 1).setFld (CLK_PRESENT p) 1) :=
  congrArg Host.Outcome.next (by simp [hr, State.digLocks, hl])

theorem exec_digLockChange_fall (hr : s.dev.inReset = false) :
    exec (.digLockChange p false) s = .next ((s.setFld (CLK_DIG_LOCK p) 0).setFld (CLK_TWIN_READY p) 0) :=
  congrArg Host.Outcome.next (if_neg (by simp [hr]))

theorem exec_analogLockChange_rise (hr : s.dev.inReset = false) :
    exec (.analogLockChange p true) s = .next (s.setFld (CLK_ANALOG_LOCK p) 1) :=
  congrArg Host.Outcome.next (if_neg (by simp [hr]))

theorem exec_analogLockChange_fall (hr : s.dev.inReset = false) (h : s.flag (CLK_ANALOG_LOCK p) = true) :
    exec (.analogLockChange p false) s =
      .next (((s.setFld (CLK_ANALOG_LOCK p) 0).setFld (CLK_TWIN_READY p) 0).setFlag CLK_FLAGS_LOCK_PIN_FALL) :=
  congrArg Host.Outcome.next (by simp [hr, h])

theorem exec_twinReady (hp : s.flag (CLK_PRESENT p) = true) (hd : s.flag (CLK_DIG_LOCK p) = true)
    (ha : s.flag (CLK_ANALOG_LOCK p) = true) : exec (.twinReady p) s = .next (s.setFld (CLK_TWIN_READY p) 1) :=
  congrArg Host.Outcome.next (if_pos (by simp [hp, hd, ha]))

/-! ### Phase steps (R421) -/

theorem State.fld_setFld_pending (s : State) (p n : Nat) (h : n < 2 ^ 13) :
    (s.setFld (CLK_PHASE_STEP_PENDING p) n).fld (CLK_PHASE_STEP_PENDING p) = n :=
  (s.fld_setFld_self n (by decide : 16 + 13 ≤ 32)).trans (Nat.mod_eq_of_lt h)

theorem clkPhaseStepWrite_pending (steps : BitVec 13) (hd : s.devRuns = true) :
    ∃ t, exec (.clkPhaseStepWrite p steps) s = .next t ∧ t.fld (CLK_PHASE_STEP_PENDING p) = steps.toNat ∧
      t.clk = s.clk ∧ t.clock = s.clock := by
  refine ⟨_, whenDev_run s hd, ?_, rfl, rfl⟩
  rw [State.writePhaseStep, Nat.mod_eq_of_lt steps.isLt]
  exact State.fld_setFld_pending _ _ _ steps.isLt

/-- A number below half the range reads as itself. -/
theorem signedOf_of_lt {w k : Nat} (h : 2 * k < 2 ^ w) : signedOf w k = k := by
  have hmod : k % 2 ^ w = k := Nat.mod_eq_of_lt (by omega)
  simp only [signedOf, hmod, h, if_true]

/-- With no slew behind the last step, a step of a positive request only takes one from it. -/
theorem State.stepMade_positive {s : State} {p : Nat} (hA : s.slk.slewA = 0) (hB : s.slk.slewB = 0)
    (h1 : 1 ≤ s.fld (CLK_PHASE_STEP_PENDING p)) (h2 : s.fld (CLK_PHASE_STEP_PENDING p) < 4096) :
    s.stepMade p = s.setFld (CLK_PHASE_STEP_PENDING p) (s.fld (CLK_PHASE_STEP_PENDING p) - 1) := by
  have hk : signedOf 13 (s.fld (CLK_PHASE_STEP_PENDING p)) = s.fld (CLK_PHASE_STEP_PENDING p) :=
    signedOf_of_lt (by omega)
  have hpos : (0 : Int) < s.fld (CLK_PHASE_STEP_PENDING p) := by omega
  have hnext : unsignedOf 13 ((s.fld (CLK_PHASE_STEP_PENDING p) : Int) - 1) = s.fld (CLK_PHASE_STEP_PENDING p) - 1 := by
    simp only [unsignedOf]
    omega
  simp only [State.stepMade, hk, hA, hB, hpos, hpos.ne', hnext, if_true, if_false, ite_self, bne_self_eq_false,
    Bool.and_false, Bool.false_eq_true]

theorem phaseStepMade_pending (hc : s.flag (CLK_COASTING p) = false) (hl : s.pllLostNow p = false) (hA : s.slk.slewA = 0)
    (hB : s.slk.slewB = 0) (h1 : 1 ≤ s.fld (CLK_PHASE_STEP_PENDING p)) (h2 : s.fld (CLK_PHASE_STEP_PENDING p) < 4096) :
    ∃ t, exec (.phaseStepMade p) s = .next t ∧
      t.fld (CLK_PHASE_STEP_PENDING p) = s.fld (CLK_PHASE_STEP_PENDING p) - 1 := by
  refine ⟨_, congrArg Host.Outcome.next (if_neg (by simp [hc, hl])), ?_⟩
  rw [State.stepMade_positive hA hB h1 h2]
  exact State.fld_setFld_pending _ _ _ (by omega)

/-! ### The reference (R428 to R430) -/

/-- Whether the PLLs coast, with no build-out. -/
def State.coast (s : State) (on : Bool) : State :=
  (((s.setFld (CLK_COASTING 0) on.toNat).setFld (CLK_COASTING 1) on.toNat).setFld (CLK_BUILDOUT 0) 0).setFld (CLK_BUILDOUT 1) 0

theorem State.flag_coast (s : State) (on : Bool) :
    (s.coast on).flag (CLK_COASTING 0) = on ∧ (s.coast on).flag (CLK_COASTING 1) = on := by
  simp (disch := decide) only [State.coast, State.flag_setFld_apart, State.flag_setFld_self, and_self]

/-- The reference is lost: both PLLs coast, and the loss is shown and counted. -/
def State.withoutRef (s : State) : State :=
  let s1 : State := { s with clk := { s.clk with refLost := true, buildoutDue := false } }
  ((s1.coast true).setFlag CLK_FLAGS_REF_LOST).count CLK_CNT_REF_LOSS_CNT

theorem exec_referenceLost (hr : s.dev.inReset = false) (hd : s.dev.retain = false) (hl : s.clk.refLost = false)
    (hb : s.slk.busy = false) : exec .referenceLost s = .next s.withoutRef :=
  congrArg Host.Outcome.next ((if_neg (by simp [hr, hd, hl])).trans (if_neg (ne_true_of_eq_false hb)))

theorem State.flag_withoutRef (s : State) :
    s.withoutRef.flag (CLK_COASTING 0) = true ∧ s.withoutRef.flag (CLK_COASTING 1) = true ∧
      s.withoutRef.flag CLK_FLAGS_REF_LOST = true := by
  simp (disch := decide) only [State.withoutRef, State.count, State.countBy, State.flag_setFlag_self,
    State.flag_setFld_apart, and_true]
  simp (disch := decide) only [State.setFlag, State.flag_setFld_apart, State.flag_coast, and_self]

theorem State.withoutRef_stn (s : State) : s.withoutRef.stn = s.stn := by simp [State.withoutRef, State.coast]

theorem referenceLost_coasts (hr : s.dev.inReset = false) (hd : s.dev.retain = false) (hl : s.clk.refLost = false)
    (hb : s.slk.busy = false) :
    ∃ t, exec .referenceLost s = .next t ∧ t.clk.refLost = true ∧ t.flag (CLK_COASTING 0) = true ∧
      t.flag (CLK_COASTING 1) = true ∧ t.flag CLK_FLAGS_REF_LOST = true ∧ t.stn = s.stn := by
  obtain ⟨hA, hB, hflag⟩ := s.flag_withoutRef
  exact ⟨_, exec_referenceLost hr hd hl hb, rfl, hA, hB, hflag, s.withoutRef_stn⟩

/-- A reference that returns and one that is checked again are judged alike (R429, R430). -/
theorem exec_of_refReturns {good : Bool} {t : State} (h : s.refReturns good = t) :
    exec (.referenceReturned good) s = .next t ∧ exec (.refBadRecheck good) s = .next t :=
  ⟨congrArg Host.Outcome.next h, congrArg Host.Outcome.next h⟩

theorem State.refReturns_refBack (h : s.refBack = true) (good : Bool) : s.refReturns good = s := if_pos (by simp [h])

section
variable (hl : s.clk.refLost = true) (hb : s.refBack = false)
include hl hb

theorem State.refReturns_bad : s.refReturns false = s.setFlag CLK_FLAGS_REF_BAD := by simp [State.refReturns, hl, hb]

theorem State.refReturns_good (hm : s.clk.moving = 0) : s.refReturns true = s.startBuildout := by
  simp [State.refReturns, hl, hb, hm]

theorem State.refReturns_moving (hm : s.clk.moving ≠ 0) :
    s.refReturns true = { s with clk := { s.clk with buildoutDue := true } } := by
  have hne : (s.clk.moving != 0) = true := bne_iff_ne.mpr hm
  simp only [State.refReturns, hl, hb, hne, Bool.not_true, Bool.or_self, Bool.false_eq_true, if_false, if_true]

end

/-- The reference drives the PLLs again, after `steps` fine steps. -/
def State.builtOut (s : State) (steps : Nat) : State :=
  let s1 : State := { s with clk := { s.clk with refLost := false } }
  ((s1.coast false).setFlag CLK_FLAGS_REF_RETURNED).setFld CLK_LAST_BUILDOUT (min steps 512)

theorem exec_buildoutDone (steps : Nat) (hl : s.clk.refLost = true) (hb : s.flag (CLK_BUILDOUT 0) = true) :
    exec (.buildoutDone steps) s = .next (s.builtOut steps) :=
  congrArg Host.Outcome.next (if_neg (by simp [hl, hb]))

theorem State.flag_builtOut (s : State) (steps : Nat) :
    (s.builtOut steps).flag (CLK_COASTING 0) = false ∧ (s.builtOut steps).flag (CLK_COASTING 1) = false := by
  simp (disch := decide) only [State.builtOut, State.setFlag, State.flag_setFld_apart, State.flag_coast, and_self]

theorem State.fld_builtOut (s : State) (steps : Nat) : (s.builtOut steps).fld CLK_LAST_BUILDOUT = min steps 512 :=
  (State.fld_setFld_self _ _ (by decide)).trans
    (Nat.mod_eq_of_lt ((Nat.min_le_right steps 512).trans_lt (by decide)))

theorem buildoutDone_endsCoasting (steps : Nat) (hl : s.clk.refLost = true) (hb : s.flag (CLK_BUILDOUT 0) = true) :
    ∃ t, exec (.buildoutDone steps) s = .next t ∧ t.clk.refLost = false ∧ t.flag (CLK_COASTING 0) = false ∧
      t.flag (CLK_COASTING 1) = false ∧ t.fld CLK_LAST_BUILDOUT = min steps 512 := by
  obtain ⟨hA, hB⟩ := s.flag_builtOut steps
  exact ⟨_, exec_buildoutDone steps hl hb, rfl, hA, hB, s.fld_builtOut steps⟩

end

/-! ### The statement -/

/-- Settles O52: the loss of a PLL is one of its three cases, and every other command of the clocks acts under its condition. -/
theorem clocks : Obligations.Clocks := by
  intro p s hr hd
  refine ⟨fun hl hon => ?_, fun hl hon ht => ?_, fun hl hon ht => ?_, fun took => islandSwitchoverDone_toB,
    exec_pllRestartAttempt_A, exec_digLockChange_rise hr, exec_digLockChange_fall hr, exec_analogLockChange_rise hr,
    exec_analogLockChange_fall hr, exec_twinReady, clkPhaseStepWrite_pending, phaseStepMade_pending,
    referenceLost_coasts hr hd, fun h good => exec_of_refReturns (State.refReturns_refBack h good), fun hl hb => ?_,
    buildoutDone_endsCoasting⟩
  · rw [exec_pllLost hr hd hl, State.losePll_idle hon, State.showPllLost]
  · obtain ⟨hclk, hstn, hsafe⟩ := State.losePll_served hon ht
    refine ⟨_, exec_pllLost hr hd hl, congrArg ClkUnit.moving hclk, (congrArg ClkUnit.toB hclk).trans ?_, hstn, hsafe⟩
    fin_cases p <;> rfl
  · obtain ⟨hA, hB⟩ := s.setPllLost_both p
    refine ⟨_, exec_pllLost hr hd hl, ?_⟩
    rw [State.losePll_unserved hon ht, State.bothLost_clk]
    exact ⟨hA, hB, fun n => State.held_bothLost _⟩
  · obtain ⟨hret, hcheck⟩ := exec_of_refReturns (State.refReturns_bad hl hb)
    exact ⟨hret, hcheck, fun hm => exec_of_refReturns (State.refReturns_good hl hb hm),
      fun hm => (exec_of_refReturns (State.refReturns_moving hl hb hm)).1⟩

end Sys2Proof.Machine
end

section
/-! SUPPORT. Every command completes, leaves the queue as it is, and keeps the memories in canonical form: one lemma for each
command, in the order of the model's files, over the lemmas of Laws/Keeps… about the definitions that it calls. -/

namespace Sys2Proof.Machine

/-- The queue as it was, and no memory taken out of its canonical form. -/
structure Keeps (s t : State) : Prop where
  pending : t.pending = s.pending
  mem : twf memDefault s.mem = true → twf memDefault t.mem = true
  holes : twf holeDefault s.holes = true → twf holeDefault t.holes = true

section
variable {s t : State}

theorem keeps_iff : Keeps s t ↔ t.pending = s.pending ∧ (twf memDefault s.mem = true → twf memDefault t.mem = true) ∧
    (twf holeDefault s.holes = true → twf holeDefault t.holes = true) :=
  ⟨fun ⟨hpending, hmem, hholes⟩ => ⟨hpending, hmem, hholes⟩, fun ⟨hpending, hmem, hholes⟩ => ⟨hpending, hmem, hholes⟩⟩

theorem completes_next : Completes s (.next t) ↔ Keeps s t := by simp [Completes, keeps_iff]

theorem Keeps.refl (s : State) : Keeps s s := ⟨rfl, id, id⟩

theorem Keeps.ite {c : Prop} [Decidable c] (h : Keeps s t) : Keeps s (if c then t else s) := by
  split
  · exact h
  · exact .refl s

variable (h : Keeps s t)
include h

theorem completes_whenRun : Completes s (whenRun s t) := completes_next.mpr h.ite
theorem completes_whenDev : Completes s (whenDev s t) := completes_next.mpr h.ite
theorem completes_whenFw : Completes s (whenFw s t) := completes_next.mpr h.ite
theorem completes_whenMgmt : Completes s (whenMgmt s t) := completes_next.mpr h.ite
theorem completes_whenData : Completes s (whenData s t) := completes_next.mpr h.ite
theorem completes_whenPort {q : Nat} : Completes s (whenPort q s t) := completes_whenData h.ite
theorem completes_writeWindow {x : Nat} : Completes s (writeWindow x s t) :=
  writeWindow_ok h.pending h.mem h.holes
theorem completes_readWindow {x : Nat} : Completes s (readWindow x s t) :=
  readWindow_ok h.pending h.mem h.holes

end

variable (s : State)

theorem Keeps.trans {s t u : State} (h1 : Keeps s t) (h2 : Keeps t u) : Keeps s u :=
  ⟨h2.pending.trans h1.pending, h2.mem ∘ h1.mem, h2.holes ∘ h1.holes⟩

theorem Keeps.forAll {s : State} {f : Nat → State → State} {n : Nat} (h : ∀ i t, Keeps t (f i t)) : Keeps s (s.forAll n f) :=
  forAll_rel Keeps .refl (fun _ _ _ => .trans) f h n s

/-- Words written one after another, each at the next number. -/
theorem Keeps.foldlWords {f : State → Nat → Word → State} (h : ∀ t k x, Keeps t (f t k x)) (ws : List Word) (s : State)
    (k : Nat) : Keeps s (ws.foldl (fun (a : State × Nat) x => (f a.1 a.2 x, a.2 + 1)) (s, k)).1 := by
  induction ws generalizing s k with
  | nil => exact .refl s
  | cons x l ih => exact (h s k x).trans (ih _ _)

section
variable {s : State} {i kind ofs len : Nat} {hash : List Byte}

theorem Keeps.withStaged {f : List Byte → State} (h : ∀ l, Keeps s (f l)) : Keeps s (s.withStaged i ofs len hash f) := by
  simp only [keeps_iff, forall_and] at h
  obtain ⟨hp, hm, hh⟩ := h
  exact ⟨by simp [hp], fun hw => by simp [hw, hm], fun hw => by simp [hw, hh]⟩

theorem Keeps.slkRefusal {t : State} (h : Keeps s t) : Keeps s (s.slkRefusal i kind t) := by
  obtain ⟨hp, hm, hh⟩ := h
  exact ⟨by simp [hp], fun hw => by simp [hw, hm], fun hw => by simp [hw, hh]⟩

theorem Keeps.ptpMessage {x : PtpHdr} {lo hi : Int} {f : State → State} (h : ∀ t, Keeps t (f t)) :
    Keeps s (s.ptpMessage x lo hi f) := by
  unfold State.ptpMessage
  split
  · exact .refl s
  · split
    · exact h s
    · simp [keeps_iff]

variable (s i)

theorem Keeps.refuse (status detail arg : Nat) : Keeps s (s.refuse i status detail arg) := by
  simp +contextual [keeps_iff]

theorem Keeps.answer (payload : List Byte) : Keeps s (s.answer i payload) := by
  simp +contextual [keeps_iff]

theorem Keeps.slkStartJob (k : JobKind) (todo : List Nat) : Keeps s (s.slkStartJob i k todo) := by
  simp +contextual [keeps_iff]

end

/-- A parameter write leaves everything but the registers. -/
theorem State.paramAll_rest {s t : State} {auth k : Nat} {late : Bool} {es : List ParamEntry}
    (h : s.paramAll auth late k es = .ok t) : t.pending = s.pending ∧ t.mem = s.mem ∧ t.holes = s.holes := by
  induction es generalizing s k with
  | nil => cases h; exact ⟨rfl, rfl, rfl⟩
  | cons e es ih =>
    simp only [State.paramAll] at h
    split at h
    · cases h
    · split at h
      · simpa using ih h
      · cases h

theorem completes_ezCommand {s t : State} {i op : Nat} (h : Keeps s t) : Completes s (ezCommand s i op t) := by
  refine completes_whenFw ?_
  split
  · exact .refl s
  · split
    · simp +contextual [keeps_iff]
    · exact h

theorem completes_slkArrive {s : State} {p : Nat} {h : SlkHdr} {answered : Bool} {f : State → State} (hf : ∀ t, Keeps t (f t)) :
    Completes s (slkArrive s p h answered f) := by
  have hsend (typ : Nat) : Keeps s (s.slkSend p typ h.tag (leBytesN 4 h.seq)) := by simp +contextual [keeps_iff]
  have hacked : Keeps s (if answered then s.slkSend p 0x02 h.tag (leBytesN 4 h.seq) else s) := (hsend 0x02).ite
  refine completes_whenDev ?_
  split
  · exact .refl s
  · split
    · exact hsend 0x03
    · dsimp only
      split
      · exact hacked.trans (hf _)
      · exact hacked

/-! ### The mailbox and its transports -/

@[simp] theorem completes_execMbxClaimRead : Completes s (execMbxClaimRead s) :=
  completes_whenDev (by simp +contextual [keeps_iff])

@[simp] theorem completes_execMbxDoorbellWrite i : Completes s (execMbxDoorbellWrite i s) :=
  completes_whenDev (by simp +contextual [keeps_iff])

@[simp] theorem completes_execMbxFreeWrite w : Completes s (execMbxFreeWrite w s) :=
  completes_whenDev (by simp +contextual [keeps_iff])

@[simp] theorem completes_execClaimExpiry i : Completes s (execClaimExpiry i s) :=
  completes_whenDev (by simp +contextual [keeps_iff])

@[simp] theorem completes_execSessionTimeout p : Completes s (execSessionTimeout p s) :=
  completes_whenFw (by simp +contextual [keeps_iff])

@[simp] theorem completes_execEthLinkChange e up : Completes s (execEthLinkChange e up s) :=
  completes_whenFw (by simp +contextual [keeps_iff])

@[simp] theorem completes_execCommandStart units : Completes s (execCommandStart units s) := by
  refine completes_whenFw ?_
  dsimp only
  repeat' split
  all_goals simp +contextual [keeps_iff]

@[simp] theorem completes_execCommandTimeout i : Completes s (execCommandTimeout i s) :=
  completes_whenFw (by simp +contextual [keeps_iff])

@[simp] theorem completes_execJobEnd j : Completes s (execJobEnd j s) := completes_whenFw (by simp +contextual [keeps_iff])

@[simp] theorem completes_execJobHoldExpiry j : Completes s (execJobHoldExpiry j s) :=
  completes_whenFw (by simp +contextual [keeps_iff])

@[simp] theorem completes_execJobStatus i : Completes s (execJobStatus i s) :=
  completes_ezCommand (by split <;> simp +contextual [keeps_iff])

@[simp] theorem completes_execJobCancel i : Completes s (execJobCancel i s) :=
  completes_ezCommand (by split <;> simp +contextual [keeps_iff])

@[simp] theorem completes_execUdpDatagram e v6 plain addr port dport msg : Completes s (execUdpDatagram e v6 plain addr port dport msg s) :=
  completes_whenFw (by simp +contextual [keeps_iff])

@[simp] theorem completes_execCanFdSegment c ident fd data : Completes s (execCanFdSegment c ident fd data s) := by
  refine completes_whenFw ?_
  dsimp only
  repeat' split
  all_goals simp +contextual [keeps_iff]

@[simp] theorem completes_execCanSegmentTimeout c p : Completes s (execCanSegmentTimeout c p s) :=
  completes_whenFw (by simp +contextual [keeps_iff])

@[simp] theorem completes_execI2cWriteTransaction bs : Completes s (execI2cWriteTransaction bs s) := by
  refine completes_whenFw ?_
  dsimp only
  repeat' split
  all_goals simp +contextual [keeps_iff]

@[simp] theorem completes_execI2cReadTransaction n : Completes s (execI2cReadTransaction n s) :=
  completes_whenFw (by simp +contextual [keeps_iff])

@[simp] theorem completes_execIcmpArpNdFrame e kind v6 own addr data : Completes s (execIcmpArpNdFrame e kind v6 own addr data s) :=
  completes_whenFw (by simp +contextual [keeps_iff])

@[simp] theorem completes_execModbusConnect : Completes s (execModbusConnect s) :=
  completes_whenFw (by simp +contextual [keeps_iff])

@[simp] theorem completes_execModbusDisconnect : Completes s (execModbusDisconnect s) :=
  completes_whenFw (by simp +contextual [keeps_iff])

@[simp] theorem completes_execEcho i : Completes s (execEcho i s) := completes_ezCommand (by simp +contextual [keeps_iff])

/-! ### The local clock, captures and PTP -/

@[simp] theorem completes_execTimNsRead : Completes s (execTimNsRead s) :=
  completes_whenDev (by simp +contextual [keeps_iff])

@[simp] theorem completes_execTimStepHiWrite hi : Completes s (execTimStepHiWrite hi s) :=
  completes_whenDev (by simp +contextual [keeps_iff])

@[simp] theorem completes_execTimStepApply : Completes s (execTimStepApply s) :=
  completes_next.mpr (by simp +contextual [keeps_iff])

@[simp] theorem completes_execTimClrEst : Completes s (execTimClrEst s) :=
  completes_whenDev (by simp +contextual [keeps_iff])

@[simp] theorem completes_execTimAonLoRead : Completes s (execTimAonLoRead s) :=
  completes_whenDev (by simp +contextual [keeps_iff])

@[simp] theorem completes_execCaptureEdge c edge : Completes s (execCaptureEdge c edge s) :=
  completes_next.mpr (by simp +contextual [keeps_iff])

@[simp] theorem completes_execTimCapLoRead c : Completes s (execTimCapLoRead c s) :=
  completes_whenDev (by simp +contextual [keeps_iff])

@[simp] theorem completes_execPtpSyncReceived h : Completes s (execPtpSyncReceived h s) :=
  completes_whenMgmt (by simp +contextual [keeps_iff])

@[simp] theorem completes_execPtpFollowUpReceived h t1 : Completes s (execPtpFollowUpReceived h t1 s) := by
  refine completes_whenMgmt (.ptpMessage fun t => ?_)
  dsimp only
  repeat' split
  all_goals simp +contextual [keeps_iff]

@[simp] theorem completes_execPtpAnnounceReceived h dataset : Completes s (execPtpAnnounceReceived h dataset s) :=
  completes_whenMgmt (by simp +contextual [keeps_iff])

@[simp] theorem completes_execPtpDelayRespReceived h t4 : Completes s (execPtpDelayRespReceived h t4 s) := by
  refine completes_whenMgmt (.ptpMessage fun t => ?_)
  dsimp only
  repeat' split
  all_goals simp +contextual [keeps_iff]

@[simp] theorem completes_execPtpDelayReqSend seq : Completes s (execPtpDelayReqSend seq s) :=
  completes_whenMgmt (by simp +contextual [keeps_iff])

@[simp] theorem completes_execPtpListenFallback : Completes s (execPtpListenFallback s) :=
  completes_whenMgmt (by simp +contextual [keeps_iff])

@[simp] theorem completes_execPtpAnnounceTimeout : Completes s (execPtpAnnounceTimeout s) :=
  completes_whenMgmt (by simp +contextual [keeps_iff])

/-! ### Chest -/

@[simp] theorem completes_execChsArm : Completes s (execChsArm s) := completes_writeWindow (by simp +contextual [keeps_iff])

@[simp] theorem completes_execChsStop : Completes s (execChsStop s) :=
  completes_writeWindow (by simp +contextual [keeps_iff])

@[simp] theorem completes_execChsForce : Completes s (execChsForce s) :=
  completes_writeWindow (by simp +contextual [keeps_iff])

@[simp] theorem completes_execChestSample k how : Completes s (execChestSample k how s) :=
  completes_whenData (by simp +contextual [keeps_iff])

@[simp] theorem completes_execChestGapEnd drain : Completes s (execChestGapEnd drain s) :=
  completes_whenData (by simp +contextual [keeps_iff])

@[simp] theorem completes_execPostTimeout : Completes s (execPostTimeout s) :=
  completes_whenData (by simp +contextual [keeps_iff])

/-! ### The Shelf -/

@[simp] theorem completes_execShfClrAll : Completes s (execShfClrAll s) :=
  completes_writeWindow (by simp +contextual [keeps_iff])

@[simp] theorem completes_execShfClrRing q : Completes s (execShfClrRing q s) :=
  completes_writeWindow (by simp +contextual [keeps_iff])

@[simp] theorem completes_execShfAgg0Read q : Completes s (execShfAgg0Read q s) :=
  completes_readWindow (by simp +contextual [keeps_iff])

@[simp] theorem completes_execShelfInitDone : Completes s (execShelfInitDone s) :=
  completes_whenData (by simp +contextual [keeps_iff])

@[simp] theorem completes_execAggStaleTimeout q : Completes s (execAggStaleTimeout q s) :=
  completes_whenData (by simp +contextual [keeps_iff])

@[simp] theorem completes_execEnvelopeCompute : Completes s (execEnvelopeCompute s) :=
  completes_whenMgmt (by simp +contextual [keeps_iff])

/-! ### Battery rings -/

@[simp] theorem completes_execRxLock q e inverted : Completes s (execRxLock q e inverted s) :=
  completes_whenPort (by simp +contextual [keeps_iff])

@[simp] theorem completes_execRxLos q e : Completes s (execRxLos q e s) :=
  completes_whenPort (by simp +contextual [keeps_iff])

@[simp] theorem completes_execLnkReceived q e w : Completes s (execLnkReceived q e w s) :=
  completes_whenPort (by simp +contextual [keeps_iff])

@[simp] theorem completes_execLnkSend q : Completes s (execLnkSend q s) :=
  completes_whenPort (by simp +contextual [keeps_iff])

@[simp] theorem completes_execWrapSilenceEnd q e : Completes s (execWrapSilenceEnd q e s) :=
  completes_whenPort (by simp +contextual [keeps_iff])

@[simp] theorem completes_execDeviceEndLinkUp q e : Completes s (execDeviceEndLinkUp q e s) :=
  completes_whenPort (by simp +contextual [keeps_iff])

@[simp] theorem completes_execEndShort q e : Completes s (execEndShort q e s) :=
  completes_whenPort (by simp +contextual [keeps_iff])

@[simp] theorem completes_execEndShortRetry q e still : Completes s (execEndShortRetry q e still s) :=
  completes_whenPort (by simp +contextual [keeps_iff])

@[simp] theorem completes_execEnumReturn q sent port e ids : Completes s (execEnumReturn q sent port e ids s) :=
  completes_whenPort (by simp +contextual [keeps_iff])

@[simp] theorem completes_execEnumAbsent q : Completes s (execEnumAbsent q s) :=
  completes_whenPort (by simp +contextual [keeps_iff])

@[simp] theorem completes_execDiscoveryRetry q : Completes s (execDiscoveryRetry q s) :=
  completes_whenPort (by simp +contextual [keeps_iff])

@[simp] theorem completes_execAlmReceived q c1 c2 : Completes s (execAlmReceived q c1 c2 s) :=
  completes_whenPort (by simp +contextual [keeps_iff])

@[simp] theorem completes_execBrkReceived q e c1 c2 : Completes s (execBrkReceived q e c1 c2 s) :=
  completes_whenPort (by simp +contextual [keeps_iff])

@[simp] theorem completes_execCellReceived q e c room : Completes s (execCellReceived q e c room s) :=
  completes_whenPort (by simp +contextual [keeps_iff])

@[simp] theorem completes_execNakReceived q e count : Completes s (execNakReceived q e count s) :=
  completes_whenPort (by simp +contextual [keeps_iff])

@[simp] theorem completes_execHopRetryGiveup q e : Completes s (execHopRetryGiveup q e s) :=
  completes_whenPort (by simp +contextual [keeps_iff])

@[simp] theorem completes_execNodeStale q l : Completes s (execNodeStale q l s) :=
  completes_whenPort (by simp +contextual [keeps_iff])

@[simp] theorem completes_execSweepStart q : Completes s (execSweepStart q s) :=
  completes_whenPort (by simp +contextual [keeps_iff])

@[simp] theorem completes_execSweepEnd q : Completes s (execSweepEnd q s) :=
  completes_whenPort (by simp +contextual [keeps_iff])

@[simp] theorem completes_execAqrRediscover q : Completes s (execAqrRediscover q s) :=
  completes_writeWindow (by simp +contextual [keeps_iff])

@[simp] theorem completes_execAqrSweepNow q : Completes s (execAqrSweepNow q s) :=
  completes_writeWindow (by simp +contextual [keeps_iff])

@[simp] theorem completes_execAqrCmdGo q : Completes s (execAqrCmdGo q s) :=
  completes_writeWindow (by simp +contextual [keeps_iff])

@[simp] theorem completes_execCommandNoReply q : Completes s (execCommandNoReply q s) :=
  completes_whenPort (by simp +contextual [keeps_iff])

/-! ### Settle, Highboy and Lowboy -/

@[simp] theorem completes_execSinLevelChange x trackB closed : Completes s (execSinLevelChange x trackB closed s) :=
  completes_next.mpr (by simp +contextual [keeps_iff])

@[simp] theorem completes_execSinDemandValid x : Completes s (execSinDemandValid x s) :=
  completes_next.mpr (by simp +contextual [keeps_iff])

@[simp] theorem completes_execSinDemandEnd x : Completes s (execSinDemandEnd x s) :=
  completes_next.mpr (by simp +contextual [keeps_iff])

@[simp] theorem completes_execSinDiscrepancy x : Completes s (execSinDiscrepancy x s) :=
  completes_next.mpr (by simp +contextual [keeps_iff])

@[simp] theorem completes_execSoutTestDue k : Completes s (execSoutTestDue k s) :=
  completes_next.mpr (by simp +contextual [keeps_iff])

@[simp] theorem completes_execSoutTestEnd k srb : Completes s (execSoutTestEnd k srb s) :=
  completes_next.mpr (by simp +contextual [keeps_iff])

@[simp] theorem completes_execSrbReadbackCheck k srb : Completes s (execSrbReadbackCheck k srb s) :=
  completes_next.mpr (by simp +contextual [keeps_iff])

@[simp] theorem completes_execSrbLevelChange k level : Completes s (execSrbLevelChange k level s) :=
  completes_next.mpr (by simp +contextual [keeps_iff])

@[simp] theorem completes_execPostReleaseTest k : Completes s (execPostReleaseTest k s) :=
  completes_next.mpr (by simp +contextual [keeps_iff])

@[simp] theorem completes_execHighboyTick speeds : Completes s (execHighboyTick speeds s) := by
  refine completes_next.mpr ?_
  split
  · obtain ⟨hpending, hmem, hholes⟩ := Keeps.forAll (s := { s with safe := _ }) fun n (t : State) =>
      (by simp +contextual [keeps_iff] : Keeps t (if t.grantS n then (t.monitorStop n).crossCheck n else t))
    exact ⟨hpending, hmem, hholes⟩
  · exact .refl s

@[simp] theorem completes_execSettleSnapshotReceived n words : Completes s (execSettleSnapshotReceived n words s) :=
  completes_next.mpr (by simp +contextual [keeps_iff])

@[simp] theorem completes_execSettleSilent : Completes s (execSettleSilent s) :=
  completes_next.mpr (by simp +contextual [keeps_iff])

@[simp] theorem completes_execRcFrequencyCheck ok : Completes s (execRcFrequencyCheck ok s) :=
  completes_next.mpr (by simp +contextual [keeps_iff])

@[simp] theorem completes_execSettleCrcCheck ok : Completes s (execSettleCrcCheck ok s) :=
  completes_next.mpr (by simp +contextual [keeps_iff])

@[simp] theorem completes_execSettleLockstepFault : Completes s (execSettleLockstepFault s) :=
  completes_next.mpr (by simp +contextual [keeps_iff])

@[simp] theorem completes_execCoverTooLong : Completes s (execCoverTooLong s) :=
  completes_next.mpr (by simp +contextual [keeps_iff])

@[simp] theorem completes_execLowboyOscillatorStop : Completes s (execLowboyOscillatorStop s) :=
  completes_next.mpr (by simp +contextual [keeps_iff])

@[simp] theorem completes_execSafSs1Req mask : Completes s (execSafSs1Req mask s) :=
  completes_next.mpr (by simp +contextual [keeps_iff])

@[simp] theorem completes_execSafStoReq mask : Completes s (execSafStoReq mask s) :=
  completes_next.mpr (by simp +contextual [keeps_iff])

@[simp] theorem completes_execSafRelease mask pathOk : Completes s (execSafRelease mask pathOk s) :=
  completes_next.mpr (by simp +contextual [keeps_iff])

@[simp] theorem completes_execReleaseReadback srb : Completes s (execReleaseReadback srb s) :=
  completes_next.mpr (by simp +contextual [keeps_iff])

@[simp] theorem completes_execSenChange n level : Completes s (execSenChange n level s) :=
  completes_next.mpr (by simp +contextual [keeps_iff])

/-! ### The Bureau, sessions and the debug port -/

@[simp] theorem completes_execBureauStage i c sig : Completes s (execBureauStage i c sig s) := by
  refine completes_ezCommand ?_
  repeat' split
  all_goals simp +contextual [keeps_iff]

@[simp] theorem completes_execBureauCountersign i supplyOk : Completes s (execBureauCountersign i supplyOk s) :=
  completes_ezCommand (by simp +contextual [keeps_iff])

@[simp] theorem completes_execBureauAbort i : Completes s (execBureauAbort i s) :=
  completes_ezCommand (by split <;> simp +contextual [keeps_iff])

@[simp] theorem completes_execBureauExpiry : Completes s (execBureauExpiry s) :=
  completes_whenFw (by split <;> simp +contextual [keeps_iff])

@[simp] theorem completes_execBureauProgramDone : Completes s (execBureauProgramDone s) :=
  completes_whenDev (by split <;> simp +contextual [keeps_iff])

@[simp] theorem completes_execOtpReadDataRead : Completes s (execOtpReadDataRead s) :=
  completes_whenDev (by simp +contextual [keeps_iff])

@[simp] theorem completes_execAttest i : Completes s (execAttest i s) :=
  completes_ezCommand (by simp +contextual [keeps_iff])

@[simp] theorem completes_execCertRead i : Completes s (execCertRead i s) :=
  completes_ezCommand (by simp +contextual [keeps_iff])

@[simp] theorem completes_execDevInfo i : Completes s (execDevInfo i s) :=
  completes_ezCommand (by simp +contextual [keeps_iff])

@[simp] theorem completes_execAuthChallenge i : Completes s (execAuthChallenge i s) :=
  completes_ezCommand (by simp +contextual [keeps_iff])

@[simp] theorem completes_execAuthResponse i c : Completes s (execAuthResponse i c s) := by
  refine completes_ezCommand ?_
  dsimp only
  repeat' split
  all_goals simp +contextual [keeps_iff]

@[simp] theorem completes_execSecDbgReq : Completes s (execSecDbgReq s) :=
  completes_whenDev (by simp +contextual [keeps_iff])

@[simp] theorem completes_execSecDbgDataWrite ws : Completes s (execSecDbgDataWrite ws s) :=
  completes_whenDev (by simp +contextual [keeps_iff])

@[simp] theorem completes_execSecDbgClose : Completes s (execSecDbgClose s) :=
  completes_whenDev (by simp +contextual [keeps_iff])

/-! ### Resets, boot and firmware -/

@[simp] theorem completes_execPowerOnReset : Completes s (execPowerOnReset s) :=
  completes_next.mpr (by simp +contextual [keeps_iff])

@[simp] theorem completes_execBrownOut : Completes s (execBrownOut s) :=
  completes_next.mpr (by simp +contextual [keeps_iff])

@[simp] theorem completes_execPorstNAssert : Completes s (execPorstNAssert s) :=
  completes_next.mpr (by simp +contextual [keeps_iff])

@[simp] theorem completes_execCoreUndervoltage : Completes s (execCoreUndervoltage s) :=
  completes_next.mpr (by simp +contextual [keeps_iff])

@[simp] theorem completes_execResetEnd bid wired vread : Completes s (execResetEnd bid wired vread s) :=
  completes_next.mpr (by simp +contextual [keeps_iff])

@[simp] theorem completes_execBootVcoreRetry vread : Completes s (execBootVcoreRetry vread s) :=
  completes_next.mpr (by simp +contextual [keeps_iff])

@[simp] theorem completes_execBootImageCheckDone : Completes s (execBootImageCheckDone s) :=
  completes_whenDev (by split <;> simp +contextual [keeps_iff])

@[simp] theorem completes_execSettleBootDone testsOk pathOk : Completes s (execSettleBootDone testsOk pathOk s) :=
  completes_whenDev (by simp +contextual [keeps_iff])

@[simp] theorem completes_execMgmtFirmwareReady : Completes s (execMgmtFirmwareReady s) :=
  completes_whenDev (by simp +contextual [keeps_iff])

@[simp] theorem completes_execMgmtWatchdogExpiry : Completes s (execMgmtWatchdogExpiry s) :=
  completes_whenDev (by simp +contextual [keeps_iff])

@[simp] theorem completes_execFwStage i ofs len hash : Completes s (execFwStage i ofs len hash s) :=
  completes_ezCommand (by simp +contextual [keeps_iff])

@[simp] theorem completes_execFwStageDone j readback : Completes s (execFwStageDone j readback s) :=
  completes_whenFw (by split <;> simp +contextual [keeps_iff])

@[simp] theorem completes_execFwActivate i : Completes s (execFwActivate i s) := by
  refine completes_ezCommand ?_
  repeat' split
  all_goals simp +contextual [keeps_iff]

@[simp] theorem completes_execFwConfirm i : Completes s (execFwConfirm i s) :=
  completes_ezCommand (by simp +contextual [keeps_iff])

@[simp] theorem completes_execFwRevert i : Completes s (execFwRevert i s) :=
  completes_ezCommand (by simp +contextual [keeps_iff])

/-! ### Converters, calibration and sigma-delta channels -/

@[simp] theorem completes_execAdcGoWrite w : Completes s (execAdcGoWrite w s) :=
  completes_writeWindow (by simp +contextual [keeps_iff])

@[simp] theorem completes_execAdcConversionDone k raw : Completes s (execAdcConversionDone k raw s) :=
  completes_whenRun (by simp +contextual [keeps_iff])

@[simp] theorem completes_execPlsStale p : Completes s (execPlsStale p s) :=
  completes_whenRun (by simp +contextual [keeps_iff])

@[simp] theorem completes_execUrgGo k w : Completes s (execUrgGo k w s) :=
  completes_writeWindow (by simp +contextual [keeps_iff])

@[simp] theorem completes_execUrgentConversionDone k raw : Completes s (execUrgentConversionDone k raw s) :=
  completes_whenRun (by simp +contextual [keeps_iff])

@[simp] theorem completes_execCalStart k : Completes s (execCalStart k s) :=
  completes_writeWindow (by simp +contextual [keeps_iff])

@[simp] theorem completes_execCoverBegin p : Completes s (execCoverBegin p s) :=
  completes_whenRun (by simp +contextual [keeps_iff])

@[simp] theorem completes_execCalReferenceDone coefs raw : Completes s (execCalReferenceDone coefs raw s) :=
  completes_whenRun (by simp +contextual [keeps_iff])

@[simp] theorem completes_execCalVerifyStale : Completes s (execCalVerifyStale s) :=
  completes_whenRun (by simp +contextual [keeps_iff])

@[simp] theorem completes_execEndCover : Completes s (execEndCover s) :=
  completes_writeWindow (by simp +contextual [keeps_iff])

@[simp] theorem completes_execSdmOutput c bits : Completes s (execSdmOutput c bits s) :=
  completes_whenRun (by simp +contextual [keeps_iff])

@[simp] theorem completes_execSdmAlignWait c : Completes s (execSdmAlignWait c s) :=
  completes_whenRun (by simp +contextual [keeps_iff])

@[simp] theorem completes_execSdmNoTransition c : Completes s (execSdmNoTransition c s) :=
  completes_whenRun (by simp +contextual [keeps_iff])

@[simp] theorem completes_execSdmShortFilterForce c bits : Completes s (execSdmShortFilterForce c bits s) :=
  completes_whenRun (by split <;> simp +contextual [keeps_iff])

/-! ### Timebases, the pulse path and gates -/

@[simp] theorem completes_execUpdateArm n late : Completes s (execUpdateArm n late s) :=
  completes_writeWindow (by simp +contextual [keeps_iff])

@[simp] theorem completes_execTbHoldSet n : Completes s (execTbHoldSet n s) :=
  completes_writeWindow (by simp +contextual [keeps_iff])

@[simp] theorem completes_execTbHoldClear n : Completes s (execTbHoldClear n s) :=
  completes_writeWindow (by simp +contextual [keeps_iff])

@[simp] theorem completes_execPulseEdge n k : Completes s (execPulseEdge n k s) :=
  completes_whenRun (by simp +contextual [keeps_iff])

@[simp] theorem completes_execCommutationEvent n cap level : Completes s (execCommutationEvent n cap level s) :=
  completes_whenRun (by simp +contextual [keeps_iff])

@[simp] theorem completes_execCommutationHeldExpiry n : Completes s (execCommutationHeldExpiry n s) :=
  completes_whenRun (by split <;> simp +contextual [keeps_iff])

@[simp] theorem completes_execFilterEdgeOut n k : Completes s (execFilterEdgeOut n k s) :=
  completes_whenRun (by simp +contextual [keeps_iff])

@[simp] theorem completes_execDeadTimeEnd n k : Completes s (execDeadTimeEnd n k s) :=
  completes_whenRun (by split <;> simp +contextual [keeps_iff])

@[simp] theorem completes_execBlankingEnd n k : Completes s (execBlankingEnd n k s) :=
  completes_whenRun (by simp +contextual [keeps_iff])

@[simp] theorem completes_execGfAssert n k level : Completes s (execGfAssert n k level s) := by
  refine completes_whenRun ?_
  repeat' split
  all_goals simp +contextual [keeps_iff]

@[simp] theorem completes_execTripWindowCrossing n c code : Completes s (execTripWindowCrossing n c code s) :=
  completes_whenRun (by simp +contextual [keeps_iff])

@[simp] theorem completes_execLatchEnableRemoval n : Completes s (execLatchEnableRemoval n s) :=
  completes_whenRun (by split <;> simp +contextual [keeps_iff])

@[simp] theorem completes_execPwmHbEnWrite n w : Completes s (execPwmHbEnWrite n w s) :=
  completes_writeWindow (by simp +contextual [keeps_iff])

@[simp] theorem completes_execGateTestWrite n w : Completes s (execGateTestWrite n w s) :=
  completes_writeWindow (by simp +contextual [keeps_iff])

@[simp] theorem completes_execGateTestEnd n k : Completes s (execGateTestEnd n k s) :=
  completes_whenRun (by simp +contextual [keeps_iff])

/-! ### Engine windows and the input list -/

@[simp] theorem completes_execSwapReq e : Completes s (execSwapReq e s) :=
  completes_writeWindow (by simp +contextual [keeps_iff])

@[simp] theorem completes_execTrsDmemDataRead e : Completes s (execTrsDmemDataRead e s) :=
  completes_readWindow (by simp +contextual [keeps_iff])

@[simp] theorem completes_execTrsExecMaxRead e n : Completes s (execTrsExecMaxRead e n s) :=
  completes_readWindow (by simp +contextual [keeps_iff])

@[simp] theorem completes_execTrsInCfgWrite i w : Completes s (execTrsInCfgWrite i w s) :=
  completes_writeWindow (by simp +contextual [keeps_iff])

@[simp] theorem completes_execInputFrozen n k : Completes s (execInputFrozen n k s) :=
  completes_whenRun (by simp +contextual [keeps_iff])

@[simp] theorem completes_execInputRestored n k : Completes s (execInputRestored n k s) :=
  completes_whenRun (by simp +contextual [keeps_iff])

/-! ### Images and tables -/

@[simp] theorem completes_execTrsImageWrite i ofs len hash body : Completes s (execTrsImageWrite i ofs len hash body s) := by
  refine completes_ezCommand ?_
  dsimp only
  repeat' split
  all_goals simp +contextual [keeps_iff]

@[simp] theorem completes_execTrsImageWriteDone j : Completes s (execTrsImageWriteDone j s) :=
  completes_whenFw (by split <;> simp +contextual [keeps_iff])

@[simp] theorem completes_execTrsTableWrite i g ofs len hash : Completes s (execTrsTableWrite i g ofs len hash s) := by
  refine completes_ezCommand ?_
  split
  · simp +contextual [keeps_iff]
  · refine .withStaged fun bs => ?_
    repeat' split
    all_goals simp +contextual [keeps_iff]

@[simp] theorem completes_execTrsCompWrite i n first ofs len hash : Completes s (execTrsCompWrite i n first ofs len hash s) := by
  refine completes_ezCommand ?_
  split
  · simp +contextual [keeps_iff]
  · split
    · simp +contextual [keeps_iff]
    · refine .withStaged fun bs => ?_
      split <;> simp +contextual [keeps_iff]

@[simp] theorem completes_execTrsDmemWrite i : Completes s (execTrsDmemWrite i s) := by
  refine completes_ezCommand ?_
  dsimp only
  repeat' split
  case h_2.isFalse => exact (Keeps.foldlWords (by simp +contextual [keeps_iff]) _ _ _).trans (.answer ..)
  all_goals simp +contextual [keeps_iff]

/-! ### Check-value units -/

@[simp] theorem completes_execCvuData8 u w : Completes s (execCvuData8 u w s) :=
  completes_writeWindow (by simp +contextual [keeps_iff])

@[simp] theorem completes_execCvuData16 u w : Completes s (execCvuData16 u w s) :=
  completes_writeWindow (by simp +contextual [keeps_iff])

@[simp] theorem completes_execCvuData32 u w : Completes s (execCvuData32 u w s) :=
  completes_writeWindow (by simp +contextual [keeps_iff])

@[simp] theorem completes_execCvuFeedDone u : Completes s (execCvuFeedDone u s) :=
  completes_whenData (by split <;> simp +contextual [keeps_iff])

@[simp] theorem completes_execCvuLoadInit u : Completes s (execCvuLoadInit u s) :=
  completes_writeWindow (by simp +contextual [keeps_iff])

@[simp] theorem completes_execCvuHiWrite u k hi : Completes s (execCvuHiWrite u k hi s) :=
  completes_writeWindow (by simp +contextual [keeps_iff])

@[simp] theorem completes_execCvuLoRead u k : Completes s (execCvuLoRead u k s) :=
  completes_readWindow (by simp +contextual [keeps_iff])

/-! ### DMA -/

@[simp] theorem completes_execDmaStart n : Completes s (execDmaStart n s) :=
  completes_writeWindow (by simp +contextual [keeps_iff])

@[simp] theorem completes_execDmaStopReq n : Completes s (execDmaStopReq n s) :=
  completes_writeWindow (by simp +contextual [keeps_iff])

@[simp] theorem completes_execDmaClearHalt : Completes s (execDmaClearHalt s) :=
  completes_writeWindow (by simp +contextual [keeps_iff])

@[simp] theorem completes_execDescriptorFetchDone n : Completes s (execDescriptorFetchDone n s) :=
  completes_whenData (by simp +contextual [keeps_iff])

@[simp] theorem completes_execReadBurstReturn n : Completes s (execReadBurstReturn n s) :=
  completes_whenData (by simp +contextual [keeps_iff])

@[simp] theorem completes_execWriteResponse n : Completes s (execWriteResponse n s) :=
  completes_whenData (by simp +contextual [keeps_iff])

@[simp] theorem completes_execErrorResponse kind n lastBeat addr : Completes s (execErrorResponse kind n lastBeat addr s) :=
  completes_whenData (by simp +contextual [keeps_iff])

/-! ### Clocks, supply and power states -/

@[simp] theorem completes_execPllLost p : Completes s (execPllLost p s) :=
  completes_next.mpr (by simp +contextual [keeps_iff])

@[simp] theorem completes_execIslandSwitchoverDone took : Completes s (execIslandSwitchoverDone took s) := by
  refine completes_next.mpr ?_
  dsimp only
  repeat' split
  all_goals simp +contextual [keeps_iff]

@[simp] theorem completes_execPllRestartAttempt p : Completes s (execPllRestartAttempt p s) :=
  completes_next.mpr (by simp +contextual [keeps_iff])

@[simp] theorem completes_execDigLockChange p on : Completes s (execDigLockChange p on s) :=
  completes_next.mpr (by simp +contextual [keeps_iff])

@[simp] theorem completes_execAnalogLockChange p on : Completes s (execAnalogLockChange p on s) :=
  completes_next.mpr (by simp +contextual [keeps_iff])

@[simp] theorem completes_execTwinReady p : Completes s (execTwinReady p s) :=
  completes_next.mpr (by simp +contextual [keeps_iff])

@[simp] theorem completes_execClkPhaseStepWrite p steps : Completes s (execClkPhaseStepWrite p steps s) :=
  completes_whenDev (by simp +contextual [keeps_iff])

@[simp] theorem completes_execPhaseStepMade p : Completes s (execPhaseStepMade p s) :=
  completes_next.mpr (by simp +contextual [keeps_iff])

@[simp] theorem completes_execReferenceLost : Completes s (execReferenceLost s) :=
  completes_next.mpr (by simp +contextual [keeps_iff])

@[simp] theorem completes_execReferenceReturned good : Completes s (execReferenceReturned good s) :=
  completes_next.mpr (by simp +contextual [keeps_iff])

@[simp] theorem completes_execRefBadRecheck good : Completes s (execRefBadRecheck good s) :=
  completes_next.mpr (by simp +contextual [keeps_iff])

@[simp] theorem completes_execBuildoutDone steps : Completes s (execBuildoutDone steps s) :=
  completes_next.mpr (by simp +contextual [keeps_iff])

@[simp] theorem completes_execAvsVoltageRequest : Completes s (execAvsVoltageRequest s) :=
  completes_next.mpr (by split <;> simp +contextual [keeps_iff])

@[simp] theorem completes_execAvsStatusPoll crcOk vdone vread : Completes s (execAvsStatusPoll crcOk vdone vread s) :=
  completes_next.mpr (by simp +contextual [keeps_iff])

@[simp] theorem completes_execAvsRequestFailed : Completes s (execAvsRequestFailed s) :=
  completes_next.mpr (by simp +contextual [keeps_iff])

@[simp] theorem completes_execPwrStateRun i : Completes s (execPwrStateRun i s) :=
  completes_ezCommand (by simp +contextual [keeps_iff])

@[simp] theorem completes_execPwrStateStandby i : Completes s (execPwrStateStandby i s) := by
  refine completes_ezCommand ?_
  repeat' split
  all_goals simp +contextual [keeps_iff]

@[simp] theorem completes_execPwrStateRetain i : Completes s (execPwrStateRetain i s) := by
  refine completes_ezCommand ?_
  repeat' split
  all_goals simp +contextual [keeps_iff]

@[simp] theorem completes_execRetainEntryDone : Completes s (execRetainEntryDone s) :=
  completes_next.mpr (by simp +contextual [keeps_iff])

@[simp] theorem completes_execWakeEvent src q : Completes s (execWakeEvent src q s) :=
  completes_next.mpr (by simp +contextual [keeps_iff])

@[simp] theorem completes_execWakeRegulatorRetry : Completes s (execWakeRegulatorRetry s) :=
  completes_next.mpr (by simp +contextual [keeps_iff])

@[simp] theorem completes_execWakeComplete fails : Completes s (execWakeComplete fails s) :=
  completes_next.mpr (by simp +contextual [keeps_iff])

@[simp] theorem completes_execPwrBankAck i : Completes s (execPwrBankAck i s) :=
  completes_ezCommand (by simp +contextual [keeps_iff])

/-! ### Sundlink and the test access port -/

@[simp] theorem completes_execSlkDistribute i kind mask ofs len hash : Completes s (execSlkDistribute i kind mask ofs len hash s) :=
  completes_ezCommand (.slkRefusal (.withStaged fun _ => by simp +contextual [keeps_iff]))

@[simp] theorem completes_execSlkDistributeTimeout j : Completes s (execSlkDistributeTimeout j s) :=
  completes_whenFw (by split <;> simp +contextual [keeps_iff])

@[simp] theorem completes_execSlkRecover i target actions kind ofs len hash nonce report : Completes s (execSlkRecover i target actions kind ofs len hash nonce report s) := by
  have hstart := Keeps.slkStartJob s i (.recover target actions kind ofs len nonce report)
    ((List.range 5).filter (fun a => actions.testBit a))
  refine completes_ezCommand (.slkRefusal ?_)
  split
  · exact .refuse ..
  · split
    · exact .withStaged fun _ => hstart
    · exact hstart

@[simp] theorem completes_execSlkRecoverWaitTimeout j : Completes s (execSlkRecoverWaitTimeout j s) :=
  completes_whenFw (by simp +contextual [keeps_iff])

@[simp] theorem completes_execSlkHello p h : Completes s (execSlkHello p h s) :=
  completes_whenDev (by simp +contextual [keeps_iff])

@[simp] theorem completes_execSlkAck p h q : Completes s (execSlkAck p h q s) :=
  completes_slkArrive (fun t => by simp +contextual [keeps_iff])

@[simp] theorem completes_execSlkNak p h q : Completes s (execSlkNak p h q s) :=
  completes_slkArrive (fun t => by simp +contextual [keeps_iff])

@[simp] theorem completes_execSlkAckTimeout p q : Completes s (execSlkAckTimeout p q s) :=
  completes_whenDev (by simp +contextual [keeps_iff])

@[simp] theorem completes_execSlkBeat p h : Completes s (execSlkBeat p h s) :=
  completes_slkArrive (fun t => by simp +contextual [keeps_iff])

@[simp] theorem completes_execSlkHelloSend p : Completes s (execSlkHelloSend p s) :=
  completes_whenDev (by simp +contextual [keeps_iff])

@[simp] theorem completes_execSlkBeatSend p : Completes s (execSlkBeatSend p s) :=
  completes_whenDev (by simp +contextual [keeps_iff])

@[simp] theorem completes_execSlkLinkTimeout p : Completes s (execSlkLinkTimeout p s) :=
  completes_whenDev (by simp +contextual [keeps_iff])

@[simp] theorem completes_execSlkUnknownPacket p h : Completes s (execSlkUnknownPacket p h s) :=
  completes_whenDev (by simp +contextual [keeps_iff])

@[simp] theorem completes_execSlkData p h ofs data : Completes s (execSlkData p h ofs data s) :=
  completes_slkArrive (fun t => by simp +contextual [keeps_iff])

@[simp] theorem completes_execSlkDataEnd p h kind len hash readback body : Completes s (execSlkDataEnd p h kind len hash readback body s) :=
  completes_slkArrive (fun t => by simp +contextual [keeps_iff])

@[simp] theorem completes_execSlkResult p h status : Completes s (execSlkResult p h status s) := by
  refine completes_slkArrive fun t => ?_
  dsimp only
  repeat' split
  all_goals simp +contextual [keeps_iff]

@[simp] theorem completes_execSlkAttestReq p h nonce : Completes s (execSlkAttestReq p h nonce s) :=
  completes_slkArrive (fun t => by simp +contextual [keeps_iff])

@[simp] theorem completes_execSlkAttestRep p h report : Completes s (execSlkAttestRep p h report s) := by
  refine completes_slkArrive fun t => ?_
  repeat' split
  all_goals simp +contextual [keeps_iff]

@[simp] theorem completes_execSlkMgmtRestart p h : Completes s (execSlkMgmtRestart p h s) :=
  completes_slkArrive (fun t => by simp +contextual [keeps_iff])

@[simp] theorem completes_execSlkFullReset p h : Completes s (execSlkFullReset p h s) :=
  completes_slkArrive (fun t => by simp +contextual [keeps_iff])

@[simp] theorem completes_execSlkMonitorActivate p h : Completes s (execSlkMonitorActivate p h s) :=
  completes_slkArrive (fun t => by split <;> simp +contextual [keeps_iff])

@[simp] theorem completes_execSlkAlignGo : Completes s (execSlkAlignGo s) :=
  completes_writeWindow (by simp +contextual [keeps_iff])

@[simp] theorem completes_execSyncEdge phiA phiB : Completes s (execSyncEdge phiA phiB s) :=
  completes_whenRun (by simp +contextual [keeps_iff])

@[simp] theorem completes_execAlignStartPulse : Completes s (execAlignStartPulse s) :=
  completes_whenRun (by simp +contextual [keeps_iff])

@[simp] theorem completes_execAlignTbRelease : Completes s (execAlignTbRelease s) :=
  completes_whenRun (by simp +contextual [keeps_iff])

@[simp] theorem completes_execAlignCheckPulse : Completes s (execAlignCheckPulse s) :=
  completes_whenRun (by simp +contextual [keeps_iff])

@[simp] theorem completes_execSlkAlignPacket p h phiM pulse : Completes s (execSlkAlignPacket p h phiM pulse s) :=
  completes_slkArrive (fun t => by simp +contextual [keeps_iff])

@[simp] theorem completes_execSlkXchk p h i tick v : Completes s (execSlkXchk p h i tick v s) :=
  completes_slkArrive (fun t => by simp +contextual [keeps_iff])

@[simp] theorem completes_execXchkUnpaired i : Completes s (execXchkUnpaired i s) :=
  completes_whenDev (by split <;> simp +contextual [keeps_iff])

@[simp] theorem completes_execJtagInstructionLoad code : Completes s (execJtagInstructionLoad code s) :=
  completes_next.mpr (by simp +contextual [keeps_iff])

@[simp] theorem completes_execTapReset : Completes s (execTapReset s) :=
  completes_next.mpr (by simp +contextual [keeps_iff])

/-! ### Accesses by address and over SPI -/

@[simp] theorem completes_execRegisterWrite m addr w late : Completes s (execRegisterWrite m addr w late s) :=
  completes_whenDev (by simp +contextual [keeps_iff])

@[simp] theorem completes_execSpiReadIncrementing count addr crc notReady clocked : Completes s (execSpiReadIncrementing count addr crc notReady clocked s) :=
  completes_whenDev (by simp +contextual [keeps_iff])

@[simp] theorem completes_execSpiWriteIncrementing count addr data crc late : Completes s (execSpiWriteIncrementing count addr data crc late s) :=
  completes_whenDev (by simp +contextual [keeps_iff])

@[simp] theorem completes_execSpiReadFixed count addr crc notReady clocked : Completes s (execSpiReadFixed count addr crc notReady clocked s) :=
  completes_whenDev (by simp +contextual [keeps_iff])

@[simp] theorem completes_execSpiWriteFixed count addr data crc late : Completes s (execSpiWriteFixed count addr data crc late s) :=
  completes_whenDev (by simp +contextual [keeps_iff])

/-! ### Redundancy of the engines -/

@[simp] theorem completes_execBeatSlot linkA linkB toggleA toggleB : Completes s (execBeatSlot linkA linkB toggleA toggleB s) :=
  completes_whenRun (by simp +contextual [keeps_iff])

@[simp] theorem completes_execSwitchoverComplete took : Completes s (execSwitchoverComplete took s) :=
  completes_whenRun (by simp +contextual [keeps_iff])

@[simp] theorem completes_execBothEnginesSilent : Completes s (execBothEnginesSilent s) :=
  completes_whenRun (by simp +contextual [keeps_iff])

@[simp] theorem completes_execEngineInternalError e cause : Completes s (execEngineInternalError e cause s) :=
  completes_whenRun (by simp +contextual [keeps_iff])

@[simp] theorem completes_execPrivResultClassify n standby cycles : Completes s (execPrivResultClassify n standby cycles s) :=
  completes_whenRun (by simp +contextual [keeps_iff])

@[simp] theorem completes_execPrivResultCompare n k upset : Completes s (execPrivResultCompare n k upset s) :=
  completes_whenRun (by simp +contextual [keeps_iff])

/-! ### Eznel commands -/

@[simp] theorem completes_execStageWrite i ofs data : Completes s (execStageWrite i ofs data s) :=
  completes_ezCommand (by simp +contextual [keeps_iff])

@[simp] theorem completes_execStageRead i ofs len : Completes s (execStageRead i ofs len s) :=
  completes_ezCommand (by simp +contextual [keeps_iff])

@[simp] theorem completes_execRegRead i addr n : Completes s (execRegRead i addr n s) :=
  completes_ezCommand (by simp +contextual [keeps_iff])

@[simp] theorem completes_execRegWrite i addr ws late : Completes s (execRegWrite i addr ws late s) := by
  refine completes_ezCommand ?_
  repeat' split
  all_goals simp +contextual [keeps_iff]

@[simp] theorem completes_execMemRead i addr n : Completes s (execMemRead i addr n s) :=
  completes_ezCommand (by simp +contextual [keeps_iff])

@[simp] theorem completes_execParamWrite i late : Completes s (execParamWrite i late s) := by
  refine completes_ezCommand ?_
  split
  · exact .refuse ..
  · split
    next t ht => simp +contextual [keeps_iff, State.paramAll_rest ht]
    next => simp +contextual [keeps_iff]

@[simp] theorem completes_execParamRead i : Completes s (execParamRead i s) := by
  refine completes_ezCommand ?_
  repeat' split
  all_goals simp +contextual [keeps_iff]

@[simp] theorem completes_execParamInfo i p : Completes s (execParamInfo i p s) :=
  completes_ezCommand (by split <;> simp +contextual [keeps_iff])

@[simp] theorem completes_execRedReload i : Completes s (execRedReload i s) :=
  completes_ezCommand (by simp +contextual [keeps_iff])

@[simp] theorem completes_execRedReloadDone : Completes s (execRedReloadDone s) :=
  completes_whenFw (by simp +contextual [keeps_iff])

@[simp] theorem completes_execRedExchange i : Completes s (execRedExchange i s) :=
  completes_ezCommand (by simp +contextual [keeps_iff])

@[simp] theorem completes_execRingCmd i q op node count arg cells data : Completes s (execRingCmd i q op node count arg cells data s) :=
  completes_ezCommand (by simp +contextual [keeps_iff])

@[simp] theorem completes_execShelfRead i q l first n : Completes s (execShelfRead i q l first n s) :=
  completes_ezCommand (by simp +contextual [keeps_iff])

@[simp] theorem completes_execRingSetUid i q first last : Completes s (execRingSetUid i q first last s) :=
  completes_ezCommand (by simp +contextual [keeps_iff])

@[simp] theorem completes_execTimeSet i secs ns : Completes s (execTimeSet i secs ns s) :=
  completes_ezCommand (by simp +contextual [keeps_iff])

@[simp] theorem completes_execTimeStep i d : Completes s (execTimeStep i d s) :=
  completes_ezCommand (by simp +contextual [keeps_iff])

@[simp] theorem completes_execTimeGet i : Completes s (execTimeGet i s) :=
  completes_ezCommand (by simp +contextual [keeps_iff])

@[simp] theorem completes_execModbusRead p fc r n : Completes s (execModbusRead p fc r n s) := by
  refine completes_whenFw ?_
  dsimp only
  repeat' split
  all_goals simp +contextual [keeps_iff]

/-! ### Station registers and envelopes -/

@[simp] theorem completes_execStationPeriodBoundary n : Completes s (execStationPeriodBoundary n s) :=
  completes_whenRun (by simp +contextual [keeps_iff])

@[simp] theorem completes_execTriggerCompareMatch n t : Completes s (execTriggerCompareMatch n t s) :=
  completes_whenRun (by simp +contextual [keeps_iff])

@[simp] theorem completes_execEngineStationStart n : Completes s (execEngineStationStart n s) :=
  completes_whenRun (by simp +contextual [keeps_iff])

@[simp] theorem completes_execLoopComplete n k cycles standby : Completes s (execLoopComplete n k cycles standby s) :=
  completes_whenRun (by simp +contextual [keeps_iff])

@[simp] theorem completes_execStateCopyAck n intact upset : Completes s (execStateCopyAck n intact upset s) :=
  completes_whenRun (by simp +contextual [keeps_iff])

@[simp] theorem completes_execSnapshotRecordWritten n accepted : Completes s (execSnapshotRecordWritten n accepted s) :=
  completes_whenRun (by simp +contextual [keeps_iff])

@[simp] theorem completes_execExecutionDeadline n : Completes s (execExecutionDeadline n s) :=
  completes_whenRun (by simp +contextual [keeps_iff])

@[simp] theorem completes_execGfmEnvSeqWrite n seq late : Completes s (execGfmEnvSeqWrite n seq late s) :=
  completes_writeWindow (by simp +contextual [keeps_iff])

@[simp] theorem completes_execEnvFallback n : Completes s (execEnvFallback n s) :=
  completes_whenRun (by simp +contextual [keeps_iff])

@[simp] theorem completes_execGfmSnap0Read n : Completes s (execGfmSnap0Read n s) :=
  completes_readWindow (by simp +contextual [keeps_iff])

@[simp] theorem completes_execGfmRunRequest n w : Completes s (execGfmRunRequest n w s) :=
  completes_writeWindow (by simp +contextual [keeps_iff])

@[simp] theorem completes_execGfmStopRequest n w : Completes s (execGfmStopRequest n w s) :=
  completes_writeWindow (by simp +contextual [keeps_iff])

@[simp] theorem completes_execGfmResetRequest n w : Completes s (execGfmResetRequest n w s) :=
  completes_writeWindow (by simp +contextual [keeps_iff])

@[simp] theorem completes_execGfmParWrite n i w late : Completes s (execGfmParWrite n i w late s) :=
  completes_writeWindow (by simp +contextual [keeps_iff])

@[simp] theorem completes_execStopTimeout n : Completes s (execStopTimeout n s) :=
  completes_whenRun (by simp +contextual [keeps_iff])

/-! ### Limiting and ride-through -/

@[simp] theorem completes_execLimitWindowCrossing n c code : Completes s (execLimitWindowCrossing n c code s) :=
  completes_whenRun (by simp +contextual [keeps_iff])

@[simp] theorem completes_execHwlimPersist n : Completes s (execHwlimPersist n s) :=
  completes_whenRun (by simp +contextual [keeps_iff])

@[simp] theorem completes_execCeilOvl n : Completes s (execCeilOvl n s) :=
  completes_whenRun (by simp +contextual [keeps_iff])

@[simp] theorem completes_execClearConfirmed n : Completes s (execClearConfirmed n s) := by
  refine completes_whenRun ?_
  repeat' split
  all_goals simp +contextual [keeps_iff]

@[simp] theorem completes_execRtCurveTrip n : Completes s (execRtCurveTrip n s) :=
  completes_whenRun (by simp +contextual [keeps_iff])

@[simp] theorem completes_execVWindowTrip n : Completes s (execVWindowTrip n s) :=
  completes_whenRun (by simp +contextual [keeps_iff])

@[simp] theorem completes_execFWindowTrip n : Completes s (execFWindowTrip n s) :=
  completes_whenRun (by simp +contextual [keeps_iff])

@[simp] theorem completes_execOlvTimeout n : Completes s (execOlvTimeout n s) :=
  completes_whenRun (by simp +contextual [keeps_iff])

/-! ### Starts -/

@[simp] theorem completes_execDeadBusConfirmed n : Completes s (execDeadBusConfirmed n s) :=
  completes_whenRun (by simp +contextual [keeps_iff])

@[simp] theorem completes_execDeadBusLiveTimeout n : Completes s (execDeadBusLiveTimeout n s) :=
  completes_whenRun (by simp +contextual [keeps_iff])

@[simp] theorem completes_execHoldTimeout n : Completes s (execHoldTimeout n s) :=
  completes_whenRun (by simp +contextual [keeps_iff])

@[simp] theorem completes_execBiasDecayEnd n : Completes s (execBiasDecayEnd n s) :=
  completes_whenRun (by simp +contextual [keeps_iff])

@[simp] theorem completes_execBusLiveConfirmed n : Completes s (execBusLiveConfirmed n s) :=
  completes_whenRun (by simp +contextual [keeps_iff])

@[simp] theorem completes_execSyncWindowHeld n : Completes s (execSyncWindowHeld n s) :=
  completes_whenRun (by simp +contextual [keeps_iff])

@[simp] theorem completes_execBreakerInputChange n closed : Completes s (execBreakerInputChange n closed s) :=
  completes_whenRun (by split <;> simp +contextual [keeps_iff])

@[simp] theorem completes_execBusGapTimeout n : Completes s (execBusGapTimeout n s) :=
  completes_whenRun (by simp +contextual [keeps_iff])

@[simp] theorem completes_execSyncTimeout n : Completes s (execSyncTimeout n s) :=
  completes_whenRun (by simp +contextual [keeps_iff])

/-! ### The step -/

theorem exec_completes (c : Instr) : Completes s (exec c s) := by
  cases c
  all_goals simp [exec]

/-- Settles O57: every command completes, whatever the state. -/
theorem everyCommandCompletes : Obligations.EveryCommandCompletes := fun c s => by
  obtain ⟨t, ht, hp, -, -⟩ := exec_completes s c
  exact ⟨t, ht, hp⟩

theorem exec_keeps {c : Instr} {t : State} (h : exec c s = .next t) : Keeps s t := by
  rw [← completes_next, ← h]
  exact exec_completes s c

theorem State.tick_keepsMemory : Keeps s s.tick := by simp +contextual [keeps_iff]

theorem Memory.wf_of_keeps {s t : State} (h : Keeps s t) (hs : Memory.wf s = true) : Memory.wf t = true := by
  simp only [Memory.wf, Bool.and_eq_true] at hs ⊢
  exact ⟨h.mem hs.1, h.holes hs.2⟩

/-- Settles O60: a step is a tick or the command at the front of the queue, and both keep the canonical form. -/
theorem stepKeepsMemoryCanonical : Obligations.StepKeepsMemoryCanonical := fun s t hs h => by
  unfold step at h
  split at h
  next => exact Memory.wf_of_keeps (Host.Outcome.next.inj h ▸ s.tick_keepsMemory) hs
  next c rest _ => exact Memory.wf_of_keeps (exec_keeps { s with pending := rest } h) hs

end Sys2Proof.Machine
end

section
/-! SUPPORT. Bytes of memory: writing them leaves every other field as it was. -/

namespace Sys2Proof.Machine

variable (s : State)

theorem State.setBytes_eq (a : Nat) (l : List Byte) : s.setBytes a l = { s with mem := (s.setBytes a l).mem } := by
  induction l generalizing s a with
  | nil => rfl
  | cons b t ih => exact ih (s.setByte a b) (a + 1)

@[simp] theorem State.setBytes_rest (a : Nat) (l : List Byte) :
    (s.setBytes a l).regs = s.regs ∧ (s.setBytes a l).act = s.act ∧ (s.setBytes a l).holes = s.holes ∧
    (s.setBytes a l).dmemA = s.dmemA ∧ (s.setBytes a l).dmemB = s.dmemB ∧ (s.setBytes a l).now = s.now ∧
    (s.setBytes a l).draws = s.draws ∧ (s.setBytes a l).grants = s.grants ∧ (s.setBytes a l).spi = s.spi ∧
    (s.setBytes a l).stn = s.stn ∧ (s.setBytes a l).pwm = s.pwm ∧ (s.setBytes a l).hb = s.hb ∧
    (s.setBytes a l).wcomp = s.wcomp ∧ (s.setBytes a l).inp = s.inp ∧ (s.setBytes a l).conv = s.conv ∧
    (s.setBytes a l).pair = s.pair ∧ (s.setBytes a l).cal = s.cal ∧ (s.setBytes a l).sdm = s.sdm ∧
    (s.setBytes a l).banksA = s.banksA ∧ (s.setBytes a l).banksB = s.banksB ∧ (s.setBytes a l).serving = s.serving ∧
    (s.setBytes a l).ready = s.ready ∧ (s.setBytes a l).red = s.red ∧ (s.setBytes a l).clock = s.clock ∧
    (s.setBytes a l).ptp = s.ptp ∧ (s.setBytes a l).fw = s.fw ∧ (s.setBytes a l).caps = s.caps ∧
    (s.setBytes a l).chest = s.chest ∧ (s.setBytes a l).streams = s.streams ∧ (s.setBytes a l).trigs = s.trigs ∧
    (s.setBytes a l).safe = s.safe ∧ (s.setBytes a l).safeStn = s.safeStn ∧ (s.setBytes a l).sin = s.sin ∧
    (s.setBytes a l).sout = s.sout ∧ (s.setBytes a l).pendSet = s.pendSet ∧ (s.setBytes a l).readData = s.readData ∧
    (s.setBytes a l).clk = s.clk ∧ (s.setBytes a l).dev = s.dev ∧ (s.setBytes a l).vioA = s.vioA ∧
    (s.setBytes a l).vioB = s.vioB ∧ (s.setBytes a l).ports = s.ports ∧ (s.setBytes a l).shelfSeen = s.shelfSeen ∧
    (s.setBytes a l).shelfFresh = s.shelfFresh ∧ (s.setBytes a l).dmaCh = s.dmaCh ∧ (s.setBytes a l).dma = s.dma ∧
    (s.setBytes a l).cvu = s.cvu ∧ (s.setBytes a l).mbx = s.mbx ∧ (s.setBytes a l).otp = s.otp ∧
    (s.setBytes a l).flash = s.flash ∧ (s.setBytes a l).trust = s.trust ∧ (s.setBytes a l).boot = s.boot ∧
    (s.setBytes a l).power = s.power ∧ (s.setBytes a l).slkPort = s.slkPort ∧ (s.setBytes a l).slk = s.slk ∧
    (s.setBytes a l).sen = s.sen ∧ (s.setBytes a l).pending = s.pending := by
  rw [s.setBytes_eq a l]
  repeat' apply And.intro
  all_goals rfl

@[simp] theorem State.forAll_stn {f : Nat → State → State} (h : ∀ i t, (f i t).stn = t.stn) (n : Nat) :
    (s.forAll n f).stn = s.stn :=
  forAll_rel (fun a b => b.stn = a.stn) (fun _ => rfl) (fun _ _ _ h1 h2 => h2.trans h1) f h n s

@[simp] theorem State.forAll_now {f : Nat → State → State} (h : ∀ i t, (f i t).now = t.now) (n : Nat) :
    (s.forAll n f).now = s.now :=
  forAll_rel (fun a b => b.now = a.now) (fun _ => rfl) (fun _ _ _ h1 h2 => h2.trans h1) f h n s

/-! ### A tick of an empty queue (log rows 12 and 103) -/

theorem State.armSegment_frame (g : Nat) : (s.armSegment g).stn = s.stn ∧ (s.armSegment g).now = s.now := by
  simp [State.armSegment, State.transfer]

theorem State.chestRearm_frame : s.chestRearm.stn = s.stn ∧ s.chestRearm.now = s.now := by
  simp only [State.chestRearm]
  split
  · exact ⟨rfl, rfl⟩
  · split
    · exact s.armSegment_frame _
    · exact State.armSegment_frame _ _

variable {s}

theorem State.chestRearm_of_state_ne (h : s.chestState ≠ 3) : s.chestRearm = s := by
  simp [State.chestRearm, h]

/-- Only REARM, and only while the data islands run, takes more than the clock on. -/
theorem State.tick_of_not_rearm (h : s.chestState ≠ 3 ∨ s.dataRuns = false) : s.tick = s.tickClock := by
  unfold State.tick
  split
  next hd =>
    have hd' : s.dataRuns = true := hd
    exact State.chestRearm_of_state_ne (s := s.tickClock) (h.resolve_right (by simp [hd']))
  next => rfl

variable (s)

theorem State.tick_frame : s.tick.stn = s.stn ∧ s.tick.now = s.now + 1 := by
  unfold State.tick
  split
  · exact s.tickClock.chestRearm_frame
  · exact ⟨rfl, rfl⟩

/-- Settles O56: the step is a match on the queue; a tick takes the clock on, and Chest out of REARM. -/
theorem stepRunsFrontCommand : Obligations.StepRunsFrontCommand := by
  refine ⟨fun c rest s h => ?_, fun s h => ?_⟩
  · simp only [step, h]
  · obtain ⟨hstn, hnow⟩ := s.tick_frame
    refine ⟨by simp only [step, h], by simp [h], hstn, hnow, fun hc => ?_⟩
    rw [State.tick_of_not_rearm hc]
    exact ⟨rfl, rfl, rfl⟩

/-- Settles O59: nothing has been written yet, so every table answers its default. -/
theorem resetState : Obligations.ResetState :=
  ⟨rfl, rfl, fun _ => rfl, fun _ => rfl, fun _ _ => ⟨rfl, rfl⟩, rfl, rfl, rfl⟩

end Sys2Proof.Machine
end

section
/-! SUPPORT. What a read answers after an elementary update of something else: registers, memory and the other units. -/

namespace Sys2Proof.Machine

variable (s : State)

/-! ### Reads of units and of memory after a write of the register file -/

@[simp] theorem State.setReg_reads (a : Nat) (w : Word) :
    (∀ m, (s.setReg a w).stnOf m = s.stnOf m) ∧ (∀ m, (s.setReg a w).pwmOf m = s.pwmOf m) ∧
    (∀ m k, (s.setReg a w).hbOf m k = s.hbOf m k) ∧ (∀ m k, (s.setReg a w).wcompOf m k = s.wcompOf m k) ∧
    (∀ m k, (s.setReg a w).inpOf m k = s.inpOf m k) ∧ (∀ m, (s.setReg a w).convOf m = s.convOf m) ∧
    (∀ m, (s.setReg a w).pairOf m = s.pairOf m) ∧ (∀ m, (s.setReg a w).sdmOf m = s.sdmOf m) ∧
    (∀ m, (s.setReg a w).capOf m = s.capOf m) ∧ (∀ m, (s.setReg a w).streamOf m = s.streamOf m) ∧
    (∀ m, (s.setReg a w).trigOf m = s.trigOf m) ∧ (∀ m, (s.setReg a w).safeOf m = s.safeOf m) ∧
    (∀ m, (s.setReg a w).sinOf m = s.sinOf m) ∧ (∀ m, (s.setReg a w).soutOf m = s.soutOf m) ∧
    (∀ m, (s.setReg a w).portOf m = s.portOf m) ∧ (∀ m, (s.setReg a w).chOf m = s.chOf m) ∧
    (∀ m, (s.setReg a w).cvuOf m = s.cvuOf m) ∧ (∀ m, (s.setReg a w).slotOf m = s.slotOf m) ∧
    (∀ m, (s.setReg a w).jobOf m = s.jobOf m) ∧ (∀ m, (s.setReg a w).slkPortOf m = s.slkPortOf m) ∧
    (∀ m, (s.setReg a w).byte m = s.byte m) ∧ (∀ m, (s.setReg a w).hole m = s.hole m) ∧
    (∀ g, (s.setReg a w).actFld g = s.actFld g) := by
  repeat' apply And.intro
  all_goals
    intros
    rfl

@[simp] theorem State.setAct_reads (a : Nat) (w : Word) :
    (∀ m, (s.setAct a w).stnOf m = s.stnOf m) ∧ (∀ m, (s.setAct a w).pwmOf m = s.pwmOf m) ∧
    (∀ m k, (s.setAct a w).hbOf m k = s.hbOf m k) ∧ (∀ m k, (s.setAct a w).wcompOf m k = s.wcompOf m k) ∧
    (∀ m k, (s.setAct a w).inpOf m k = s.inpOf m k) ∧ (∀ m, (s.setAct a w).convOf m = s.convOf m) ∧
    (∀ m, (s.setAct a w).pairOf m = s.pairOf m) ∧ (∀ m, (s.setAct a w).sdmOf m = s.sdmOf m) ∧
    (∀ m, (s.setAct a w).capOf m = s.capOf m) ∧ (∀ m, (s.setAct a w).streamOf m = s.streamOf m) ∧
    (∀ m, (s.setAct a w).trigOf m = s.trigOf m) ∧ (∀ m, (s.setAct a w).safeOf m = s.safeOf m) ∧
    (∀ m, (s.setAct a w).sinOf m = s.sinOf m) ∧ (∀ m, (s.setAct a w).soutOf m = s.soutOf m) ∧
    (∀ m, (s.setAct a w).portOf m = s.portOf m) ∧ (∀ m, (s.setAct a w).chOf m = s.chOf m) ∧
    (∀ m, (s.setAct a w).cvuOf m = s.cvuOf m) ∧ (∀ m, (s.setAct a w).slotOf m = s.slotOf m) ∧
    (∀ m, (s.setAct a w).jobOf m = s.jobOf m) ∧ (∀ m, (s.setAct a w).slkPortOf m = s.slkPortOf m) ∧
    (∀ m, (s.setAct a w).byte m = s.byte m) ∧ (∀ m, (s.setAct a w).hole m = s.hole m) ∧
    (∀ g, (s.setAct a w).fld g = s.fld g) ∧ (∀ g, (s.setAct a w).flag g = s.flag g) ∧
    (∀ g m, (s.setAct a w).fldBit g m = s.fldBit g m) := by
  repeat' apply And.intro
  all_goals
    intros
    rfl

@[simp] theorem State.setBoth_reads (a : Nat) (w : Word) :
    (∀ m, (s.setBoth a w).stnOf m = s.stnOf m) ∧ (∀ m, (s.setBoth a w).pwmOf m = s.pwmOf m) ∧
    (∀ m k, (s.setBoth a w).hbOf m k = s.hbOf m k) ∧ (∀ m k, (s.setBoth a w).wcompOf m k = s.wcompOf m k) ∧
    (∀ m k, (s.setBoth a w).inpOf m k = s.inpOf m k) ∧ (∀ m, (s.setBoth a w).convOf m = s.convOf m) ∧
    (∀ m, (s.setBoth a w).pairOf m = s.pairOf m) ∧ (∀ m, (s.setBoth a w).sdmOf m = s.sdmOf m) ∧
    (∀ m, (s.setBoth a w).capOf m = s.capOf m) ∧ (∀ m, (s.setBoth a w).streamOf m = s.streamOf m) ∧
    (∀ m, (s.setBoth a w).trigOf m = s.trigOf m) ∧ (∀ m, (s.setBoth a w).safeOf m = s.safeOf m) ∧
    (∀ m, (s.setBoth a w).sinOf m = s.sinOf m) ∧ (∀ m, (s.setBoth a w).soutOf m = s.soutOf m) ∧
    (∀ m, (s.setBoth a w).portOf m = s.portOf m) ∧ (∀ m, (s.setBoth a w).chOf m = s.chOf m) ∧
    (∀ m, (s.setBoth a w).cvuOf m = s.cvuOf m) ∧ (∀ m, (s.setBoth a w).slotOf m = s.slotOf m) ∧
    (∀ m, (s.setBoth a w).jobOf m = s.jobOf m) ∧ (∀ m, (s.setBoth a w).slkPortOf m = s.slkPortOf m) ∧
    (∀ m, (s.setBoth a w).byte m = s.byte m) ∧ (∀ m, (s.setBoth a w).hole m = s.hole m) := by
  repeat' apply And.intro
  all_goals
    intros
    rfl

@[simp] theorem State.setFld_reads (f : Fld) (v : Nat) :
    (∀ m, (s.setFld f v).stnOf m = s.stnOf m) ∧ (∀ m, (s.setFld f v).pwmOf m = s.pwmOf m) ∧
    (∀ m k, (s.setFld f v).hbOf m k = s.hbOf m k) ∧ (∀ m k, (s.setFld f v).wcompOf m k = s.wcompOf m k) ∧
    (∀ m k, (s.setFld f v).inpOf m k = s.inpOf m k) ∧ (∀ m, (s.setFld f v).convOf m = s.convOf m) ∧
    (∀ m, (s.setFld f v).pairOf m = s.pairOf m) ∧ (∀ m, (s.setFld f v).sdmOf m = s.sdmOf m) ∧
    (∀ m, (s.setFld f v).capOf m = s.capOf m) ∧ (∀ m, (s.setFld f v).streamOf m = s.streamOf m) ∧
    (∀ m, (s.setFld f v).trigOf m = s.trigOf m) ∧ (∀ m, (s.setFld f v).safeOf m = s.safeOf m) ∧
    (∀ m, (s.setFld f v).sinOf m = s.sinOf m) ∧ (∀ m, (s.setFld f v).soutOf m = s.soutOf m) ∧
    (∀ m, (s.setFld f v).portOf m = s.portOf m) ∧ (∀ m, (s.setFld f v).chOf m = s.chOf m) ∧
    (∀ m, (s.setFld f v).cvuOf m = s.cvuOf m) ∧ (∀ m, (s.setFld f v).slotOf m = s.slotOf m) ∧
    (∀ m, (s.setFld f v).jobOf m = s.jobOf m) ∧ (∀ m, (s.setFld f v).slkPortOf m = s.slkPortOf m) ∧
    (∀ m, (s.setFld f v).byte m = s.byte m) ∧ (∀ m, (s.setFld f v).hole m = s.hole m) ∧
    (∀ g, (s.setFld f v).actFld g = s.actFld g) ∧ (∀ m, (s.setFld f v).actReg m = s.actReg m) := by
  repeat' apply And.intro
  all_goals
    intros
    rfl

@[simp] theorem State.setActFld_reads (f : Fld) (v : Nat) :
    (∀ m, (s.setActFld f v).stnOf m = s.stnOf m) ∧ (∀ m, (s.setActFld f v).pwmOf m = s.pwmOf m) ∧
    (∀ m k, (s.setActFld f v).hbOf m k = s.hbOf m k) ∧ (∀ m k, (s.setActFld f v).wcompOf m k = s.wcompOf m k) ∧
    (∀ m k, (s.setActFld f v).inpOf m k = s.inpOf m k) ∧ (∀ m, (s.setActFld f v).convOf m = s.convOf m) ∧
    (∀ m, (s.setActFld f v).pairOf m = s.pairOf m) ∧ (∀ m, (s.setActFld f v).sdmOf m = s.sdmOf m) ∧
    (∀ m, (s.setActFld f v).capOf m = s.capOf m) ∧ (∀ m, (s.setActFld f v).streamOf m = s.streamOf m) ∧
    (∀ m, (s.setActFld f v).trigOf m = s.trigOf m) ∧ (∀ m, (s.setActFld f v).safeOf m = s.safeOf m) ∧
    (∀ m, (s.setActFld f v).sinOf m = s.sinOf m) ∧ (∀ m, (s.setActFld f v).soutOf m = s.soutOf m) ∧
    (∀ m, (s.setActFld f v).portOf m = s.portOf m) ∧ (∀ m, (s.setActFld f v).chOf m = s.chOf m) ∧
    (∀ m, (s.setActFld f v).cvuOf m = s.cvuOf m) ∧ (∀ m, (s.setActFld f v).slotOf m = s.slotOf m) ∧
    (∀ m, (s.setActFld f v).jobOf m = s.jobOf m) ∧ (∀ m, (s.setActFld f v).slkPortOf m = s.slkPortOf m) ∧
    (∀ m, (s.setActFld f v).byte m = s.byte m) ∧ (∀ m, (s.setActFld f v).hole m = s.hole m) ∧
    (∀ g, (s.setActFld f v).fld g = s.fld g) ∧ (∀ g, (s.setActFld f v).flag g = s.flag g) ∧
    (∀ g m, (s.setActFld f v).fldBit g m = s.fldBit g m) ∧ (∀ m, (s.setActFld f v).reg m = s.reg m) := by
  repeat' apply And.intro
  all_goals
    intros
    rfl

@[simp] theorem State.setFldBit_reads (f : Fld) (i : Nat) (b : Bool) :
    (∀ m, (s.setFldBit f i b).stnOf m = s.stnOf m) ∧ (∀ m, (s.setFldBit f i b).pwmOf m = s.pwmOf m) ∧
    (∀ m k, (s.setFldBit f i b).hbOf m k = s.hbOf m k) ∧ (∀ m k, (s.setFldBit f i b).wcompOf m k = s.wcompOf m k) ∧
    (∀ m k, (s.setFldBit f i b).inpOf m k = s.inpOf m k) ∧ (∀ m, (s.setFldBit f i b).convOf m = s.convOf m) ∧
    (∀ m, (s.setFldBit f i b).pairOf m = s.pairOf m) ∧ (∀ m, (s.setFldBit f i b).sdmOf m = s.sdmOf m) ∧
    (∀ m, (s.setFldBit f i b).capOf m = s.capOf m) ∧ (∀ m, (s.setFldBit f i b).streamOf m = s.streamOf m) ∧
    (∀ m, (s.setFldBit f i b).trigOf m = s.trigOf m) ∧ (∀ m, (s.setFldBit f i b).safeOf m = s.safeOf m) ∧
    (∀ m, (s.setFldBit f i b).sinOf m = s.sinOf m) ∧ (∀ m, (s.setFldBit f i b).soutOf m = s.soutOf m) ∧
    (∀ m, (s.setFldBit f i b).portOf m = s.portOf m) ∧ (∀ m, (s.setFldBit f i b).chOf m = s.chOf m) ∧
    (∀ m, (s.setFldBit f i b).cvuOf m = s.cvuOf m) ∧ (∀ m, (s.setFldBit f i b).slotOf m = s.slotOf m) ∧
    (∀ m, (s.setFldBit f i b).jobOf m = s.jobOf m) ∧ (∀ m, (s.setFldBit f i b).slkPortOf m = s.slkPortOf m) ∧
    (∀ m, (s.setFldBit f i b).byte m = s.byte m) ∧ (∀ m, (s.setFldBit f i b).hole m = s.hole m) ∧
    (∀ g, (s.setFldBit f i b).actFld g = s.actFld g) ∧ (∀ m, (s.setFldBit f i b).actReg m = s.actReg m) := by
  repeat' apply And.intro
  all_goals
    intros
    rfl

@[simp] theorem State.setFlag_reads (f : Fld) :
    (∀ m, (s.setFlag f).stnOf m = s.stnOf m) ∧ (∀ m, (s.setFlag f).pwmOf m = s.pwmOf m) ∧
    (∀ m k, (s.setFlag f).hbOf m k = s.hbOf m k) ∧ (∀ m k, (s.setFlag f).wcompOf m k = s.wcompOf m k) ∧
    (∀ m k, (s.setFlag f).inpOf m k = s.inpOf m k) ∧ (∀ m, (s.setFlag f).convOf m = s.convOf m) ∧
    (∀ m, (s.setFlag f).pairOf m = s.pairOf m) ∧ (∀ m, (s.setFlag f).sdmOf m = s.sdmOf m) ∧
    (∀ m, (s.setFlag f).capOf m = s.capOf m) ∧ (∀ m, (s.setFlag f).streamOf m = s.streamOf m) ∧
    (∀ m, (s.setFlag f).trigOf m = s.trigOf m) ∧ (∀ m, (s.setFlag f).safeOf m = s.safeOf m) ∧
    (∀ m, (s.setFlag f).sinOf m = s.sinOf m) ∧ (∀ m, (s.setFlag f).soutOf m = s.soutOf m) ∧
    (∀ m, (s.setFlag f).portOf m = s.portOf m) ∧ (∀ m, (s.setFlag f).chOf m = s.chOf m) ∧
    (∀ m, (s.setFlag f).cvuOf m = s.cvuOf m) ∧ (∀ m, (s.setFlag f).slotOf m = s.slotOf m) ∧
    (∀ m, (s.setFlag f).jobOf m = s.jobOf m) ∧ (∀ m, (s.setFlag f).slkPortOf m = s.slkPortOf m) ∧
    (∀ m, (s.setFlag f).byte m = s.byte m) ∧ (∀ m, (s.setFlag f).hole m = s.hole m) ∧
    (∀ g, (s.setFlag f).actFld g = s.actFld g) ∧ (∀ m, (s.setFlag f).actReg m = s.actReg m) := by
  repeat' apply And.intro
  all_goals
    intros
    rfl

@[simp] theorem State.count_reads (f : Fld) :
    (∀ m, (s.count f).stnOf m = s.stnOf m) ∧ (∀ m, (s.count f).pwmOf m = s.pwmOf m) ∧
    (∀ m k, (s.count f).hbOf m k = s.hbOf m k) ∧ (∀ m k, (s.count f).wcompOf m k = s.wcompOf m k) ∧
    (∀ m k, (s.count f).inpOf m k = s.inpOf m k) ∧ (∀ m, (s.count f).convOf m = s.convOf m) ∧
    (∀ m, (s.count f).pairOf m = s.pairOf m) ∧ (∀ m, (s.count f).sdmOf m = s.sdmOf m) ∧
    (∀ m, (s.count f).capOf m = s.capOf m) ∧ (∀ m, (s.count f).streamOf m = s.streamOf m) ∧
    (∀ m, (s.count f).trigOf m = s.trigOf m) ∧ (∀ m, (s.count f).safeOf m = s.safeOf m) ∧
    (∀ m, (s.count f).sinOf m = s.sinOf m) ∧ (∀ m, (s.count f).soutOf m = s.soutOf m) ∧
    (∀ m, (s.count f).portOf m = s.portOf m) ∧ (∀ m, (s.count f).chOf m = s.chOf m) ∧
    (∀ m, (s.count f).cvuOf m = s.cvuOf m) ∧ (∀ m, (s.count f).slotOf m = s.slotOf m) ∧
    (∀ m, (s.count f).jobOf m = s.jobOf m) ∧ (∀ m, (s.count f).slkPortOf m = s.slkPortOf m) ∧
    (∀ m, (s.count f).byte m = s.byte m) ∧ (∀ m, (s.count f).hole m = s.hole m) ∧
    (∀ g, (s.count f).actFld g = s.actFld g) ∧ (∀ m, (s.count f).actReg m = s.actReg m) := by
  repeat' apply And.intro
  all_goals
    intros
    rfl

@[simp] theorem State.countBy_reads (f : Fld) (v : Nat) :
    (∀ m, (s.countBy f v).stnOf m = s.stnOf m) ∧ (∀ m, (s.countBy f v).pwmOf m = s.pwmOf m) ∧
    (∀ m k, (s.countBy f v).hbOf m k = s.hbOf m k) ∧ (∀ m k, (s.countBy f v).wcompOf m k = s.wcompOf m k) ∧
    (∀ m k, (s.countBy f v).inpOf m k = s.inpOf m k) ∧ (∀ m, (s.countBy f v).convOf m = s.convOf m) ∧
    (∀ m, (s.countBy f v).pairOf m = s.pairOf m) ∧ (∀ m, (s.countBy f v).sdmOf m = s.sdmOf m) ∧
    (∀ m, (s.countBy f v).capOf m = s.capOf m) ∧ (∀ m, (s.countBy f v).streamOf m = s.streamOf m) ∧
    (∀ m, (s.countBy f v).trigOf m = s.trigOf m) ∧ (∀ m, (s.countBy f v).safeOf m = s.safeOf m) ∧
    (∀ m, (s.countBy f v).sinOf m = s.sinOf m) ∧ (∀ m, (s.countBy f v).soutOf m = s.soutOf m) ∧
    (∀ m, (s.countBy f v).portOf m = s.portOf m) ∧ (∀ m, (s.countBy f v).chOf m = s.chOf m) ∧
    (∀ m, (s.countBy f v).cvuOf m = s.cvuOf m) ∧ (∀ m, (s.countBy f v).slotOf m = s.slotOf m) ∧
    (∀ m, (s.countBy f v).jobOf m = s.jobOf m) ∧ (∀ m, (s.countBy f v).slkPortOf m = s.slkPortOf m) ∧
    (∀ m, (s.countBy f v).byte m = s.byte m) ∧ (∀ m, (s.countBy f v).hole m = s.hole m) ∧
    (∀ g, (s.countBy f v).actFld g = s.actFld g) ∧ (∀ m, (s.countBy f v).actReg m = s.actReg m) := by
  repeat' apply And.intro
  all_goals
    intros
    rfl

@[simp] theorem State.setFlagIf_reads (c : Bool) (f : Fld) :
    (∀ m, (s.setFlagIf c f).stnOf m = s.stnOf m) ∧ (∀ m, (s.setFlagIf c f).pwmOf m = s.pwmOf m) ∧
    (∀ m k, (s.setFlagIf c f).hbOf m k = s.hbOf m k) ∧ (∀ m k, (s.setFlagIf c f).wcompOf m k = s.wcompOf m k) ∧
    (∀ m k, (s.setFlagIf c f).inpOf m k = s.inpOf m k) ∧ (∀ m, (s.setFlagIf c f).convOf m = s.convOf m) ∧
    (∀ m, (s.setFlagIf c f).pairOf m = s.pairOf m) ∧ (∀ m, (s.setFlagIf c f).sdmOf m = s.sdmOf m) ∧
    (∀ m, (s.setFlagIf c f).capOf m = s.capOf m) ∧ (∀ m, (s.setFlagIf c f).streamOf m = s.streamOf m) ∧
    (∀ m, (s.setFlagIf c f).trigOf m = s.trigOf m) ∧ (∀ m, (s.setFlagIf c f).safeOf m = s.safeOf m) ∧
    (∀ m, (s.setFlagIf c f).sinOf m = s.sinOf m) ∧ (∀ m, (s.setFlagIf c f).soutOf m = s.soutOf m) ∧
    (∀ m, (s.setFlagIf c f).portOf m = s.portOf m) ∧ (∀ m, (s.setFlagIf c f).chOf m = s.chOf m) ∧
    (∀ m, (s.setFlagIf c f).cvuOf m = s.cvuOf m) ∧ (∀ m, (s.setFlagIf c f).slotOf m = s.slotOf m) ∧
    (∀ m, (s.setFlagIf c f).jobOf m = s.jobOf m) ∧ (∀ m, (s.setFlagIf c f).slkPortOf m = s.slkPortOf m) ∧
    (∀ m, (s.setFlagIf c f).byte m = s.byte m) ∧ (∀ m, (s.setFlagIf c f).hole m = s.hole m) ∧
    (∀ m, (s.setFlagIf c f).actReg m = s.actReg m) ∧ (∀ g, (s.setFlagIf c f).actFld g = s.actFld g) := by
  cases c <;> simp [State.setFlagIf]

/-! ### Reads after an update of a unit -/

@[simp] theorem State.onStn_reads (i : Nat) (f : Stn → Stn) :
    (∀ m, (s.onStn i f).reg m = s.reg m) ∧ (∀ m, (s.onStn i f).actReg m = s.actReg m) ∧
    (∀ g, (s.onStn i f).fld g = s.fld g) ∧ (∀ g, (s.onStn i f).actFld g = s.actFld g) ∧
    (∀ g, (s.onStn i f).flag g = s.flag g) ∧ (∀ g m, (s.onStn i f).fldBit g m = s.fldBit g m) ∧
    (∀ m, (s.onStn i f).byte m = s.byte m) ∧ (∀ m, (s.onStn i f).hole m = s.hole m) ∧
    (∀ m, (s.onStn i f).pwmOf m = s.pwmOf m) ∧ (∀ m k, (s.onStn i f).hbOf m k = s.hbOf m k) ∧
    (∀ m k, (s.onStn i f).wcompOf m k = s.wcompOf m k) ∧ (∀ m k, (s.onStn i f).inpOf m k = s.inpOf m k) ∧
    (∀ m, (s.onStn i f).convOf m = s.convOf m) ∧ (∀ m, (s.onStn i f).pairOf m = s.pairOf m) ∧
    (∀ m, (s.onStn i f).sdmOf m = s.sdmOf m) ∧ (∀ m, (s.onStn i f).capOf m = s.capOf m) ∧
    (∀ m, (s.onStn i f).streamOf m = s.streamOf m) ∧ (∀ m, (s.onStn i f).trigOf m = s.trigOf m) ∧
    (∀ m, (s.onStn i f).safeOf m = s.safeOf m) ∧ (∀ m, (s.onStn i f).sinOf m = s.sinOf m) ∧
    (∀ m, (s.onStn i f).soutOf m = s.soutOf m) ∧ (∀ m, (s.onStn i f).portOf m = s.portOf m) ∧
    (∀ m, (s.onStn i f).chOf m = s.chOf m) ∧ (∀ m, (s.onStn i f).cvuOf m = s.cvuOf m) ∧
    (∀ m, (s.onStn i f).slotOf m = s.slotOf m) ∧ (∀ m, (s.onStn i f).jobOf m = s.jobOf m) ∧
    (∀ m, (s.onStn i f).slkPortOf m = s.slkPortOf m) := by
  repeat' apply And.intro
  all_goals
    intros
    rfl

@[simp] theorem State.onPwm_reads (i : Nat) (f : PwmUnit → PwmUnit) :
    (∀ m, (s.onPwm i f).reg m = s.reg m) ∧ (∀ m, (s.onPwm i f).actReg m = s.actReg m) ∧
    (∀ g, (s.onPwm i f).fld g = s.fld g) ∧ (∀ g, (s.onPwm i f).actFld g = s.actFld g) ∧
    (∀ g, (s.onPwm i f).flag g = s.flag g) ∧ (∀ g m, (s.onPwm i f).fldBit g m = s.fldBit g m) ∧
    (∀ m, (s.onPwm i f).byte m = s.byte m) ∧ (∀ m, (s.onPwm i f).hole m = s.hole m) ∧
    (∀ m, (s.onPwm i f).stnOf m = s.stnOf m) ∧ (∀ m k, (s.onPwm i f).hbOf m k = s.hbOf m k) ∧
    (∀ m k, (s.onPwm i f).wcompOf m k = s.wcompOf m k) ∧ (∀ m k, (s.onPwm i f).inpOf m k = s.inpOf m k) ∧
    (∀ m, (s.onPwm i f).convOf m = s.convOf m) ∧ (∀ m, (s.onPwm i f).pairOf m = s.pairOf m) ∧
    (∀ m, (s.onPwm i f).sdmOf m = s.sdmOf m) ∧ (∀ m, (s.onPwm i f).capOf m = s.capOf m) ∧
    (∀ m, (s.onPwm i f).streamOf m = s.streamOf m) ∧ (∀ m, (s.onPwm i f).trigOf m = s.trigOf m) ∧
    (∀ m, (s.onPwm i f).safeOf m = s.safeOf m) ∧ (∀ m, (s.onPwm i f).sinOf m = s.sinOf m) ∧
    (∀ m, (s.onPwm i f).soutOf m = s.soutOf m) ∧ (∀ m, (s.onPwm i f).portOf m = s.portOf m) ∧
    (∀ m, (s.onPwm i f).chOf m = s.chOf m) ∧ (∀ m, (s.onPwm i f).cvuOf m = s.cvuOf m) ∧
    (∀ m, (s.onPwm i f).slotOf m = s.slotOf m) ∧ (∀ m, (s.onPwm i f).jobOf m = s.jobOf m) ∧
    (∀ m, (s.onPwm i f).slkPortOf m = s.slkPortOf m) := by
  repeat' apply And.intro
  all_goals
    intros
    rfl

@[simp] theorem State.onHb_reads (i j : Nat) (f : HalfBridge → HalfBridge) :
    (∀ m, (s.onHb i j f).reg m = s.reg m) ∧ (∀ m, (s.onHb i j f).actReg m = s.actReg m) ∧
    (∀ g, (s.onHb i j f).fld g = s.fld g) ∧ (∀ g, (s.onHb i j f).actFld g = s.actFld g) ∧
    (∀ g, (s.onHb i j f).flag g = s.flag g) ∧ (∀ g m, (s.onHb i j f).fldBit g m = s.fldBit g m) ∧
    (∀ m, (s.onHb i j f).byte m = s.byte m) ∧ (∀ m, (s.onHb i j f).hole m = s.hole m) ∧
    (∀ m, (s.onHb i j f).stnOf m = s.stnOf m) ∧ (∀ m, (s.onHb i j f).pwmOf m = s.pwmOf m) ∧
    (∀ m k, (s.onHb i j f).wcompOf m k = s.wcompOf m k) ∧ (∀ m k, (s.onHb i j f).inpOf m k = s.inpOf m k) ∧
    (∀ m, (s.onHb i j f).convOf m = s.convOf m) ∧ (∀ m, (s.onHb i j f).pairOf m = s.pairOf m) ∧
    (∀ m, (s.onHb i j f).sdmOf m = s.sdmOf m) ∧ (∀ m, (s.onHb i j f).capOf m = s.capOf m) ∧
    (∀ m, (s.onHb i j f).streamOf m = s.streamOf m) ∧ (∀ m, (s.onHb i j f).trigOf m = s.trigOf m) ∧
    (∀ m, (s.onHb i j f).safeOf m = s.safeOf m) ∧ (∀ m, (s.onHb i j f).sinOf m = s.sinOf m) ∧
    (∀ m, (s.onHb i j f).soutOf m = s.soutOf m) ∧ (∀ m, (s.onHb i j f).portOf m = s.portOf m) ∧
    (∀ m, (s.onHb i j f).chOf m = s.chOf m) ∧ (∀ m, (s.onHb i j f).cvuOf m = s.cvuOf m) ∧
    (∀ m, (s.onHb i j f).slotOf m = s.slotOf m) ∧ (∀ m, (s.onHb i j f).jobOf m = s.jobOf m) ∧
    (∀ m, (s.onHb i j f).slkPortOf m = s.slkPortOf m) := by
  repeat' apply And.intro
  all_goals
    intros
    rfl

@[simp] theorem State.onWcomp_reads (i j : Nat) (f : WindowComp → WindowComp) :
    (∀ m, (s.onWcomp i j f).reg m = s.reg m) ∧ (∀ m, (s.onWcomp i j f).actReg m = s.actReg m) ∧
    (∀ g, (s.onWcomp i j f).fld g = s.fld g) ∧ (∀ g, (s.onWcomp i j f).actFld g = s.actFld g) ∧
    (∀ g, (s.onWcomp i j f).flag g = s.flag g) ∧ (∀ g m, (s.onWcomp i j f).fldBit g m = s.fldBit g m) ∧
    (∀ m, (s.onWcomp i j f).byte m = s.byte m) ∧ (∀ m, (s.onWcomp i j f).hole m = s.hole m) ∧
    (∀ m, (s.onWcomp i j f).stnOf m = s.stnOf m) ∧ (∀ m, (s.onWcomp i j f).pwmOf m = s.pwmOf m) ∧
    (∀ m k, (s.onWcomp i j f).hbOf m k = s.hbOf m k) ∧ (∀ m k, (s.onWcomp i j f).inpOf m k = s.inpOf m k) ∧
    (∀ m, (s.onWcomp i j f).convOf m = s.convOf m) ∧ (∀ m, (s.onWcomp i j f).pairOf m = s.pairOf m) ∧
    (∀ m, (s.onWcomp i j f).sdmOf m = s.sdmOf m) ∧ (∀ m, (s.onWcomp i j f).capOf m = s.capOf m) ∧
    (∀ m, (s.onWcomp i j f).streamOf m = s.streamOf m) ∧ (∀ m, (s.onWcomp i j f).trigOf m = s.trigOf m) ∧
    (∀ m, (s.onWcomp i j f).safeOf m = s.safeOf m) ∧ (∀ m, (s.onWcomp i j f).sinOf m = s.sinOf m) ∧
    (∀ m, (s.onWcomp i j f).soutOf m = s.soutOf m) ∧ (∀ m, (s.onWcomp i j f).portOf m = s.portOf m) ∧
    (∀ m, (s.onWcomp i j f).chOf m = s.chOf m) ∧ (∀ m, (s.onWcomp i j f).cvuOf m = s.cvuOf m) ∧
    (∀ m, (s.onWcomp i j f).slotOf m = s.slotOf m) ∧ (∀ m, (s.onWcomp i j f).jobOf m = s.jobOf m) ∧
    (∀ m, (s.onWcomp i j f).slkPortOf m = s.slkPortOf m) := by
  repeat' apply And.intro
  all_goals
    intros
    rfl

@[simp] theorem State.onInp_reads (i j : Nat) (f : InputWatch → InputWatch) :
    (∀ m, (s.onInp i j f).reg m = s.reg m) ∧ (∀ m, (s.onInp i j f).actReg m = s.actReg m) ∧
    (∀ g, (s.onInp i j f).fld g = s.fld g) ∧ (∀ g, (s.onInp i j f).actFld g = s.actFld g) ∧
    (∀ g, (s.onInp i j f).flag g = s.flag g) ∧ (∀ g m, (s.onInp i j f).fldBit g m = s.fldBit g m) ∧
    (∀ m, (s.onInp i j f).byte m = s.byte m) ∧ (∀ m, (s.onInp i j f).hole m = s.hole m) ∧
    (∀ m, (s.onInp i j f).stnOf m = s.stnOf m) ∧ (∀ m, (s.onInp i j f).pwmOf m = s.pwmOf m) ∧
    (∀ m k, (s.onInp i j f).hbOf m k = s.hbOf m k) ∧ (∀ m k, (s.onInp i j f).wcompOf m k = s.wcompOf m k) ∧
    (∀ m, (s.onInp i j f).convOf m = s.convOf m) ∧ (∀ m, (s.onInp i j f).pairOf m = s.pairOf m) ∧
    (∀ m, (s.onInp i j f).sdmOf m = s.sdmOf m) ∧ (∀ m, (s.onInp i j f).capOf m = s.capOf m) ∧
    (∀ m, (s.onInp i j f).streamOf m = s.streamOf m) ∧ (∀ m, (s.onInp i j f).trigOf m = s.trigOf m) ∧
    (∀ m, (s.onInp i j f).safeOf m = s.safeOf m) ∧ (∀ m, (s.onInp i j f).sinOf m = s.sinOf m) ∧
    (∀ m, (s.onInp i j f).soutOf m = s.soutOf m) ∧ (∀ m, (s.onInp i j f).portOf m = s.portOf m) ∧
    (∀ m, (s.onInp i j f).chOf m = s.chOf m) ∧ (∀ m, (s.onInp i j f).cvuOf m = s.cvuOf m) ∧
    (∀ m, (s.onInp i j f).slotOf m = s.slotOf m) ∧ (∀ m, (s.onInp i j f).jobOf m = s.jobOf m) ∧
    (∀ m, (s.onInp i j f).slkPortOf m = s.slkPortOf m) := by
  repeat' apply And.intro
  all_goals
    intros
    rfl

@[simp] theorem State.onConv_reads (i : Nat) (f : Conv → Conv) :
    (∀ m, (s.onConv i f).reg m = s.reg m) ∧ (∀ m, (s.onConv i f).actReg m = s.actReg m) ∧
    (∀ g, (s.onConv i f).fld g = s.fld g) ∧ (∀ g, (s.onConv i f).actFld g = s.actFld g) ∧
    (∀ g, (s.onConv i f).flag g = s.flag g) ∧ (∀ g m, (s.onConv i f).fldBit g m = s.fldBit g m) ∧
    (∀ m, (s.onConv i f).byte m = s.byte m) ∧ (∀ m, (s.onConv i f).hole m = s.hole m) ∧
    (∀ m, (s.onConv i f).stnOf m = s.stnOf m) ∧ (∀ m, (s.onConv i f).pwmOf m = s.pwmOf m) ∧
    (∀ m k, (s.onConv i f).hbOf m k = s.hbOf m k) ∧ (∀ m k, (s.onConv i f).wcompOf m k = s.wcompOf m k) ∧
    (∀ m k, (s.onConv i f).inpOf m k = s.inpOf m k) ∧ (∀ m, (s.onConv i f).pairOf m = s.pairOf m) ∧
    (∀ m, (s.onConv i f).sdmOf m = s.sdmOf m) ∧ (∀ m, (s.onConv i f).capOf m = s.capOf m) ∧
    (∀ m, (s.onConv i f).streamOf m = s.streamOf m) ∧ (∀ m, (s.onConv i f).trigOf m = s.trigOf m) ∧
    (∀ m, (s.onConv i f).safeOf m = s.safeOf m) ∧ (∀ m, (s.onConv i f).sinOf m = s.sinOf m) ∧
    (∀ m, (s.onConv i f).soutOf m = s.soutOf m) ∧ (∀ m, (s.onConv i f).portOf m = s.portOf m) ∧
    (∀ m, (s.onConv i f).chOf m = s.chOf m) ∧ (∀ m, (s.onConv i f).cvuOf m = s.cvuOf m) ∧
    (∀ m, (s.onConv i f).slotOf m = s.slotOf m) ∧ (∀ m, (s.onConv i f).jobOf m = s.jobOf m) ∧
    (∀ m, (s.onConv i f).slkPortOf m = s.slkPortOf m) := by
  repeat' apply And.intro
  all_goals
    intros
    rfl

@[simp] theorem State.onPair_reads (i : Nat) (f : Pair → Pair) :
    (∀ m, (s.onPair i f).reg m = s.reg m) ∧ (∀ m, (s.onPair i f).actReg m = s.actReg m) ∧
    (∀ g, (s.onPair i f).fld g = s.fld g) ∧ (∀ g, (s.onPair i f).actFld g = s.actFld g) ∧
    (∀ g, (s.onPair i f).flag g = s.flag g) ∧ (∀ g m, (s.onPair i f).fldBit g m = s.fldBit g m) ∧
    (∀ m, (s.onPair i f).byte m = s.byte m) ∧ (∀ m, (s.onPair i f).hole m = s.hole m) ∧
    (∀ m, (s.onPair i f).stnOf m = s.stnOf m) ∧ (∀ m, (s.onPair i f).pwmOf m = s.pwmOf m) ∧
    (∀ m k, (s.onPair i f).hbOf m k = s.hbOf m k) ∧ (∀ m k, (s.onPair i f).wcompOf m k = s.wcompOf m k) ∧
    (∀ m k, (s.onPair i f).inpOf m k = s.inpOf m k) ∧ (∀ m, (s.onPair i f).convOf m = s.convOf m) ∧
    (∀ m, (s.onPair i f).sdmOf m = s.sdmOf m) ∧ (∀ m, (s.onPair i f).capOf m = s.capOf m) ∧
    (∀ m, (s.onPair i f).streamOf m = s.streamOf m) ∧ (∀ m, (s.onPair i f).trigOf m = s.trigOf m) ∧
    (∀ m, (s.onPair i f).safeOf m = s.safeOf m) ∧ (∀ m, (s.onPair i f).sinOf m = s.sinOf m) ∧
    (∀ m, (s.onPair i f).soutOf m = s.soutOf m) ∧ (∀ m, (s.onPair i f).portOf m = s.portOf m) ∧
    (∀ m, (s.onPair i f).chOf m = s.chOf m) ∧ (∀ m, (s.onPair i f).cvuOf m = s.cvuOf m) ∧
    (∀ m, (s.onPair i f).slotOf m = s.slotOf m) ∧ (∀ m, (s.onPair i f).jobOf m = s.jobOf m) ∧
    (∀ m, (s.onPair i f).slkPortOf m = s.slkPortOf m) := by
  repeat' apply And.intro
  all_goals
    intros
    rfl

@[simp] theorem State.onSdm_reads (i : Nat) (f : SdmCh → SdmCh) :
    (∀ m, (s.onSdm i f).reg m = s.reg m) ∧ (∀ m, (s.onSdm i f).actReg m = s.actReg m) ∧
    (∀ g, (s.onSdm i f).fld g = s.fld g) ∧ (∀ g, (s.onSdm i f).actFld g = s.actFld g) ∧
    (∀ g, (s.onSdm i f).flag g = s.flag g) ∧ (∀ g m, (s.onSdm i f).fldBit g m = s.fldBit g m) ∧
    (∀ m, (s.onSdm i f).byte m = s.byte m) ∧ (∀ m, (s.onSdm i f).hole m = s.hole m) ∧
    (∀ m, (s.onSdm i f).stnOf m = s.stnOf m) ∧ (∀ m, (s.onSdm i f).pwmOf m = s.pwmOf m) ∧
    (∀ m k, (s.onSdm i f).hbOf m k = s.hbOf m k) ∧ (∀ m k, (s.onSdm i f).wcompOf m k = s.wcompOf m k) ∧
    (∀ m k, (s.onSdm i f).inpOf m k = s.inpOf m k) ∧ (∀ m, (s.onSdm i f).convOf m = s.convOf m) ∧
    (∀ m, (s.onSdm i f).pairOf m = s.pairOf m) ∧ (∀ m, (s.onSdm i f).capOf m = s.capOf m) ∧
    (∀ m, (s.onSdm i f).streamOf m = s.streamOf m) ∧ (∀ m, (s.onSdm i f).trigOf m = s.trigOf m) ∧
    (∀ m, (s.onSdm i f).safeOf m = s.safeOf m) ∧ (∀ m, (s.onSdm i f).sinOf m = s.sinOf m) ∧
    (∀ m, (s.onSdm i f).soutOf m = s.soutOf m) ∧ (∀ m, (s.onSdm i f).portOf m = s.portOf m) ∧
    (∀ m, (s.onSdm i f).chOf m = s.chOf m) ∧ (∀ m, (s.onSdm i f).cvuOf m = s.cvuOf m) ∧
    (∀ m, (s.onSdm i f).slotOf m = s.slotOf m) ∧ (∀ m, (s.onSdm i f).jobOf m = s.jobOf m) ∧
    (∀ m, (s.onSdm i f).slkPortOf m = s.slkPortOf m) := by
  repeat' apply And.intro
  all_goals
    intros
    rfl

@[simp] theorem State.onCap_reads (i : Nat) (f : Cap → Cap) :
    (∀ m, (s.onCap i f).reg m = s.reg m) ∧ (∀ m, (s.onCap i f).actReg m = s.actReg m) ∧
    (∀ g, (s.onCap i f).fld g = s.fld g) ∧ (∀ g, (s.onCap i f).actFld g = s.actFld g) ∧
    (∀ g, (s.onCap i f).flag g = s.flag g) ∧ (∀ g m, (s.onCap i f).fldBit g m = s.fldBit g m) ∧
    (∀ m, (s.onCap i f).byte m = s.byte m) ∧ (∀ m, (s.onCap i f).hole m = s.hole m) ∧
    (∀ m, (s.onCap i f).stnOf m = s.stnOf m) ∧ (∀ m, (s.onCap i f).pwmOf m = s.pwmOf m) ∧
    (∀ m k, (s.onCap i f).hbOf m k = s.hbOf m k) ∧ (∀ m k, (s.onCap i f).wcompOf m k = s.wcompOf m k) ∧
    (∀ m k, (s.onCap i f).inpOf m k = s.inpOf m k) ∧ (∀ m, (s.onCap i f).convOf m = s.convOf m) ∧
    (∀ m, (s.onCap i f).pairOf m = s.pairOf m) ∧ (∀ m, (s.onCap i f).sdmOf m = s.sdmOf m) ∧
    (∀ m, (s.onCap i f).streamOf m = s.streamOf m) ∧ (∀ m, (s.onCap i f).trigOf m = s.trigOf m) ∧
    (∀ m, (s.onCap i f).safeOf m = s.safeOf m) ∧ (∀ m, (s.onCap i f).sinOf m = s.sinOf m) ∧
    (∀ m, (s.onCap i f).soutOf m = s.soutOf m) ∧ (∀ m, (s.onCap i f).portOf m = s.portOf m) ∧
    (∀ m, (s.onCap i f).chOf m = s.chOf m) ∧ (∀ m, (s.onCap i f).cvuOf m = s.cvuOf m) ∧
    (∀ m, (s.onCap i f).slotOf m = s.slotOf m) ∧ (∀ m, (s.onCap i f).jobOf m = s.jobOf m) ∧
    (∀ m, (s.onCap i f).slkPortOf m = s.slkPortOf m) := by
  repeat' apply And.intro
  all_goals
    intros
    rfl

@[simp] theorem State.onStream_reads (i : Nat) (f : ChestStream → ChestStream) :
    (∀ m, (s.onStream i f).reg m = s.reg m) ∧ (∀ m, (s.onStream i f).actReg m = s.actReg m) ∧
    (∀ g, (s.onStream i f).fld g = s.fld g) ∧ (∀ g, (s.onStream i f).actFld g = s.actFld g) ∧
    (∀ g, (s.onStream i f).flag g = s.flag g) ∧ (∀ g m, (s.onStream i f).fldBit g m = s.fldBit g m) ∧
    (∀ m, (s.onStream i f).byte m = s.byte m) ∧ (∀ m, (s.onStream i f).hole m = s.hole m) ∧
    (∀ m, (s.onStream i f).stnOf m = s.stnOf m) ∧ (∀ m, (s.onStream i f).pwmOf m = s.pwmOf m) ∧
    (∀ m k, (s.onStream i f).hbOf m k = s.hbOf m k) ∧ (∀ m k, (s.onStream i f).wcompOf m k = s.wcompOf m k) ∧
    (∀ m k, (s.onStream i f).inpOf m k = s.inpOf m k) ∧ (∀ m, (s.onStream i f).convOf m = s.convOf m) ∧
    (∀ m, (s.onStream i f).pairOf m = s.pairOf m) ∧ (∀ m, (s.onStream i f).sdmOf m = s.sdmOf m) ∧
    (∀ m, (s.onStream i f).capOf m = s.capOf m) ∧ (∀ m, (s.onStream i f).trigOf m = s.trigOf m) ∧
    (∀ m, (s.onStream i f).safeOf m = s.safeOf m) ∧ (∀ m, (s.onStream i f).sinOf m = s.sinOf m) ∧
    (∀ m, (s.onStream i f).soutOf m = s.soutOf m) ∧ (∀ m, (s.onStream i f).portOf m = s.portOf m) ∧
    (∀ m, (s.onStream i f).chOf m = s.chOf m) ∧ (∀ m, (s.onStream i f).cvuOf m = s.cvuOf m) ∧
    (∀ m, (s.onStream i f).slotOf m = s.slotOf m) ∧ (∀ m, (s.onStream i f).jobOf m = s.jobOf m) ∧
    (∀ m, (s.onStream i f).slkPortOf m = s.slkPortOf m) := by
  repeat' apply And.intro
  all_goals
    intros
    rfl

@[simp] theorem State.onTrig_reads (i : Nat) (f : ChestTrig → ChestTrig) :
    (∀ m, (s.onTrig i f).reg m = s.reg m) ∧ (∀ m, (s.onTrig i f).actReg m = s.actReg m) ∧
    (∀ g, (s.onTrig i f).fld g = s.fld g) ∧ (∀ g, (s.onTrig i f).actFld g = s.actFld g) ∧
    (∀ g, (s.onTrig i f).flag g = s.flag g) ∧ (∀ g m, (s.onTrig i f).fldBit g m = s.fldBit g m) ∧
    (∀ m, (s.onTrig i f).byte m = s.byte m) ∧ (∀ m, (s.onTrig i f).hole m = s.hole m) ∧
    (∀ m, (s.onTrig i f).stnOf m = s.stnOf m) ∧ (∀ m, (s.onTrig i f).pwmOf m = s.pwmOf m) ∧
    (∀ m k, (s.onTrig i f).hbOf m k = s.hbOf m k) ∧ (∀ m k, (s.onTrig i f).wcompOf m k = s.wcompOf m k) ∧
    (∀ m k, (s.onTrig i f).inpOf m k = s.inpOf m k) ∧ (∀ m, (s.onTrig i f).convOf m = s.convOf m) ∧
    (∀ m, (s.onTrig i f).pairOf m = s.pairOf m) ∧ (∀ m, (s.onTrig i f).sdmOf m = s.sdmOf m) ∧
    (∀ m, (s.onTrig i f).capOf m = s.capOf m) ∧ (∀ m, (s.onTrig i f).streamOf m = s.streamOf m) ∧
    (∀ m, (s.onTrig i f).safeOf m = s.safeOf m) ∧ (∀ m, (s.onTrig i f).sinOf m = s.sinOf m) ∧
    (∀ m, (s.onTrig i f).soutOf m = s.soutOf m) ∧ (∀ m, (s.onTrig i f).portOf m = s.portOf m) ∧
    (∀ m, (s.onTrig i f).chOf m = s.chOf m) ∧ (∀ m, (s.onTrig i f).cvuOf m = s.cvuOf m) ∧
    (∀ m, (s.onTrig i f).slotOf m = s.slotOf m) ∧ (∀ m, (s.onTrig i f).jobOf m = s.jobOf m) ∧
    (∀ m, (s.onTrig i f).slkPortOf m = s.slkPortOf m) := by
  repeat' apply And.intro
  all_goals
    intros
    rfl

@[simp] theorem State.onSafe_reads (i : Nat) (f : SafeStn → SafeStn) :
    (∀ m, (s.onSafe i f).reg m = s.reg m) ∧ (∀ m, (s.onSafe i f).actReg m = s.actReg m) ∧
    (∀ g, (s.onSafe i f).fld g = s.fld g) ∧ (∀ g, (s.onSafe i f).actFld g = s.actFld g) ∧
    (∀ g, (s.onSafe i f).flag g = s.flag g) ∧ (∀ g m, (s.onSafe i f).fldBit g m = s.fldBit g m) ∧
    (∀ m, (s.onSafe i f).byte m = s.byte m) ∧ (∀ m, (s.onSafe i f).hole m = s.hole m) ∧
    (∀ m, (s.onSafe i f).stnOf m = s.stnOf m) ∧ (∀ m, (s.onSafe i f).pwmOf m = s.pwmOf m) ∧
    (∀ m k, (s.onSafe i f).hbOf m k = s.hbOf m k) ∧ (∀ m k, (s.onSafe i f).wcompOf m k = s.wcompOf m k) ∧
    (∀ m k, (s.onSafe i f).inpOf m k = s.inpOf m k) ∧ (∀ m, (s.onSafe i f).convOf m = s.convOf m) ∧
    (∀ m, (s.onSafe i f).pairOf m = s.pairOf m) ∧ (∀ m, (s.onSafe i f).sdmOf m = s.sdmOf m) ∧
    (∀ m, (s.onSafe i f).capOf m = s.capOf m) ∧ (∀ m, (s.onSafe i f).streamOf m = s.streamOf m) ∧
    (∀ m, (s.onSafe i f).trigOf m = s.trigOf m) ∧ (∀ m, (s.onSafe i f).sinOf m = s.sinOf m) ∧
    (∀ m, (s.onSafe i f).soutOf m = s.soutOf m) ∧ (∀ m, (s.onSafe i f).portOf m = s.portOf m) ∧
    (∀ m, (s.onSafe i f).chOf m = s.chOf m) ∧ (∀ m, (s.onSafe i f).cvuOf m = s.cvuOf m) ∧
    (∀ m, (s.onSafe i f).slotOf m = s.slotOf m) ∧ (∀ m, (s.onSafe i f).jobOf m = s.jobOf m) ∧
    (∀ m, (s.onSafe i f).slkPortOf m = s.slkPortOf m) := by
  repeat' apply And.intro
  all_goals
    intros
    rfl

@[simp] theorem State.onSin_reads (i : Nat) (f : SinPair → SinPair) :
    (∀ m, (s.onSin i f).reg m = s.reg m) ∧ (∀ m, (s.onSin i f).actReg m = s.actReg m) ∧
    (∀ g, (s.onSin i f).fld g = s.fld g) ∧ (∀ g, (s.onSin i f).actFld g = s.actFld g) ∧
    (∀ g, (s.onSin i f).flag g = s.flag g) ∧ (∀ g m, (s.onSin i f).fldBit g m = s.fldBit g m) ∧
    (∀ m, (s.onSin i f).byte m = s.byte m) ∧ (∀ m, (s.onSin i f).hole m = s.hole m) ∧
    (∀ m, (s.onSin i f).stnOf m = s.stnOf m) ∧ (∀ m, (s.onSin i f).pwmOf m = s.pwmOf m) ∧
    (∀ m k, (s.onSin i f).hbOf m k = s.hbOf m k) ∧ (∀ m k, (s.onSin i f).wcompOf m k = s.wcompOf m k) ∧
    (∀ m k, (s.onSin i f).inpOf m k = s.inpOf m k) ∧ (∀ m, (s.onSin i f).convOf m = s.convOf m) ∧
    (∀ m, (s.onSin i f).pairOf m = s.pairOf m) ∧ (∀ m, (s.onSin i f).sdmOf m = s.sdmOf m) ∧
    (∀ m, (s.onSin i f).capOf m = s.capOf m) ∧ (∀ m, (s.onSin i f).streamOf m = s.streamOf m) ∧
    (∀ m, (s.onSin i f).trigOf m = s.trigOf m) ∧ (∀ m, (s.onSin i f).safeOf m = s.safeOf m) ∧
    (∀ m, (s.onSin i f).soutOf m = s.soutOf m) ∧ (∀ m, (s.onSin i f).portOf m = s.portOf m) ∧
    (∀ m, (s.onSin i f).chOf m = s.chOf m) ∧ (∀ m, (s.onSin i f).cvuOf m = s.cvuOf m) ∧
    (∀ m, (s.onSin i f).slotOf m = s.slotOf m) ∧ (∀ m, (s.onSin i f).jobOf m = s.jobOf m) ∧
    (∀ m, (s.onSin i f).slkPortOf m = s.slkPortOf m) := by
  repeat' apply And.intro
  all_goals
    intros
    rfl

@[simp] theorem State.onSout_reads (i : Nat) (f : SoutOut → SoutOut) :
    (∀ m, (s.onSout i f).reg m = s.reg m) ∧ (∀ m, (s.onSout i f).actReg m = s.actReg m) ∧
    (∀ g, (s.onSout i f).fld g = s.fld g) ∧ (∀ g, (s.onSout i f).actFld g = s.actFld g) ∧
    (∀ g, (s.onSout i f).flag g = s.flag g) ∧ (∀ g m, (s.onSout i f).fldBit g m = s.fldBit g m) ∧
    (∀ m, (s.onSout i f).byte m = s.byte m) ∧ (∀ m, (s.onSout i f).hole m = s.hole m) ∧
    (∀ m, (s.onSout i f).stnOf m = s.stnOf m) ∧ (∀ m, (s.onSout i f).pwmOf m = s.pwmOf m) ∧
    (∀ m k, (s.onSout i f).hbOf m k = s.hbOf m k) ∧ (∀ m k, (s.onSout i f).wcompOf m k = s.wcompOf m k) ∧
    (∀ m k, (s.onSout i f).inpOf m k = s.inpOf m k) ∧ (∀ m, (s.onSout i f).convOf m = s.convOf m) ∧
    (∀ m, (s.onSout i f).pairOf m = s.pairOf m) ∧ (∀ m, (s.onSout i f).sdmOf m = s.sdmOf m) ∧
    (∀ m, (s.onSout i f).capOf m = s.capOf m) ∧ (∀ m, (s.onSout i f).streamOf m = s.streamOf m) ∧
    (∀ m, (s.onSout i f).trigOf m = s.trigOf m) ∧ (∀ m, (s.onSout i f).safeOf m = s.safeOf m) ∧
    (∀ m, (s.onSout i f).sinOf m = s.sinOf m) ∧ (∀ m, (s.onSout i f).portOf m = s.portOf m) ∧
    (∀ m, (s.onSout i f).chOf m = s.chOf m) ∧ (∀ m, (s.onSout i f).cvuOf m = s.cvuOf m) ∧
    (∀ m, (s.onSout i f).slotOf m = s.slotOf m) ∧ (∀ m, (s.onSout i f).jobOf m = s.jobOf m) ∧
    (∀ m, (s.onSout i f).slkPortOf m = s.slkPortOf m) := by
  repeat' apply And.intro
  all_goals
    intros
    rfl

@[simp] theorem State.onPort_reads (i : Nat) (f : PortUnit → PortUnit) :
    (∀ m, (s.onPort i f).reg m = s.reg m) ∧ (∀ m, (s.onPort i f).actReg m = s.actReg m) ∧
    (∀ g, (s.onPort i f).fld g = s.fld g) ∧ (∀ g, (s.onPort i f).actFld g = s.actFld g) ∧
    (∀ g, (s.onPort i f).flag g = s.flag g) ∧ (∀ g m, (s.onPort i f).fldBit g m = s.fldBit g m) ∧
    (∀ m, (s.onPort i f).byte m = s.byte m) ∧ (∀ m, (s.onPort i f).hole m = s.hole m) ∧
    (∀ m, (s.onPort i f).stnOf m = s.stnOf m) ∧ (∀ m, (s.onPort i f).pwmOf m = s.pwmOf m) ∧
    (∀ m k, (s.onPort i f).hbOf m k = s.hbOf m k) ∧ (∀ m k, (s.onPort i f).wcompOf m k = s.wcompOf m k) ∧
    (∀ m k, (s.onPort i f).inpOf m k = s.inpOf m k) ∧ (∀ m, (s.onPort i f).convOf m = s.convOf m) ∧
    (∀ m, (s.onPort i f).pairOf m = s.pairOf m) ∧ (∀ m, (s.onPort i f).sdmOf m = s.sdmOf m) ∧
    (∀ m, (s.onPort i f).capOf m = s.capOf m) ∧ (∀ m, (s.onPort i f).streamOf m = s.streamOf m) ∧
    (∀ m, (s.onPort i f).trigOf m = s.trigOf m) ∧ (∀ m, (s.onPort i f).safeOf m = s.safeOf m) ∧
    (∀ m, (s.onPort i f).sinOf m = s.sinOf m) ∧ (∀ m, (s.onPort i f).soutOf m = s.soutOf m) ∧
    (∀ m, (s.onPort i f).chOf m = s.chOf m) ∧ (∀ m, (s.onPort i f).cvuOf m = s.cvuOf m) ∧
    (∀ m, (s.onPort i f).slotOf m = s.slotOf m) ∧ (∀ m, (s.onPort i f).jobOf m = s.jobOf m) ∧
    (∀ m, (s.onPort i f).slkPortOf m = s.slkPortOf m) := by
  repeat' apply And.intro
  all_goals
    intros
    rfl

@[simp] theorem State.onCh_reads (i : Nat) (f : DmaCh → DmaCh) :
    (∀ m, (s.onCh i f).reg m = s.reg m) ∧ (∀ m, (s.onCh i f).actReg m = s.actReg m) ∧ (∀ g, (s.onCh i f).fld g = s.fld g) ∧
    (∀ g, (s.onCh i f).actFld g = s.actFld g) ∧ (∀ g, (s.onCh i f).flag g = s.flag g) ∧
    (∀ g m, (s.onCh i f).fldBit g m = s.fldBit g m) ∧ (∀ m, (s.onCh i f).byte m = s.byte m) ∧
    (∀ m, (s.onCh i f).hole m = s.hole m) ∧ (∀ m, (s.onCh i f).stnOf m = s.stnOf m) ∧
    (∀ m, (s.onCh i f).pwmOf m = s.pwmOf m) ∧ (∀ m k, (s.onCh i f).hbOf m k = s.hbOf m k) ∧
    (∀ m k, (s.onCh i f).wcompOf m k = s.wcompOf m k) ∧ (∀ m k, (s.onCh i f).inpOf m k = s.inpOf m k) ∧
    (∀ m, (s.onCh i f).convOf m = s.convOf m) ∧ (∀ m, (s.onCh i f).pairOf m = s.pairOf m) ∧
    (∀ m, (s.onCh i f).sdmOf m = s.sdmOf m) ∧ (∀ m, (s.onCh i f).capOf m = s.capOf m) ∧
    (∀ m, (s.onCh i f).streamOf m = s.streamOf m) ∧ (∀ m, (s.onCh i f).trigOf m = s.trigOf m) ∧
    (∀ m, (s.onCh i f).safeOf m = s.safeOf m) ∧ (∀ m, (s.onCh i f).sinOf m = s.sinOf m) ∧
    (∀ m, (s.onCh i f).soutOf m = s.soutOf m) ∧ (∀ m, (s.onCh i f).portOf m = s.portOf m) ∧
    (∀ m, (s.onCh i f).cvuOf m = s.cvuOf m) ∧ (∀ m, (s.onCh i f).slotOf m = s.slotOf m) ∧
    (∀ m, (s.onCh i f).jobOf m = s.jobOf m) ∧ (∀ m, (s.onCh i f).slkPortOf m = s.slkPortOf m) := by
  repeat' apply And.intro
  all_goals
    intros
    rfl

@[simp] theorem State.onCvu_reads (i : Nat) (f : Cvu → Cvu) :
    (∀ m, (s.onCvu i f).reg m = s.reg m) ∧ (∀ m, (s.onCvu i f).actReg m = s.actReg m) ∧
    (∀ g, (s.onCvu i f).fld g = s.fld g) ∧ (∀ g, (s.onCvu i f).actFld g = s.actFld g) ∧
    (∀ g, (s.onCvu i f).flag g = s.flag g) ∧ (∀ g m, (s.onCvu i f).fldBit g m = s.fldBit g m) ∧
    (∀ m, (s.onCvu i f).byte m = s.byte m) ∧ (∀ m, (s.onCvu i f).hole m = s.hole m) ∧
    (∀ m, (s.onCvu i f).stnOf m = s.stnOf m) ∧ (∀ m, (s.onCvu i f).pwmOf m = s.pwmOf m) ∧
    (∀ m k, (s.onCvu i f).hbOf m k = s.hbOf m k) ∧ (∀ m k, (s.onCvu i f).wcompOf m k = s.wcompOf m k) ∧
    (∀ m k, (s.onCvu i f).inpOf m k = s.inpOf m k) ∧ (∀ m, (s.onCvu i f).convOf m = s.convOf m) ∧
    (∀ m, (s.onCvu i f).pairOf m = s.pairOf m) ∧ (∀ m, (s.onCvu i f).sdmOf m = s.sdmOf m) ∧
    (∀ m, (s.onCvu i f).capOf m = s.capOf m) ∧ (∀ m, (s.onCvu i f).streamOf m = s.streamOf m) ∧
    (∀ m, (s.onCvu i f).trigOf m = s.trigOf m) ∧ (∀ m, (s.onCvu i f).safeOf m = s.safeOf m) ∧
    (∀ m, (s.onCvu i f).sinOf m = s.sinOf m) ∧ (∀ m, (s.onCvu i f).soutOf m = s.soutOf m) ∧
    (∀ m, (s.onCvu i f).portOf m = s.portOf m) ∧ (∀ m, (s.onCvu i f).chOf m = s.chOf m) ∧
    (∀ m, (s.onCvu i f).slotOf m = s.slotOf m) ∧ (∀ m, (s.onCvu i f).jobOf m = s.jobOf m) ∧
    (∀ m, (s.onCvu i f).slkPortOf m = s.slkPortOf m) := by
  repeat' apply And.intro
  all_goals
    intros
    rfl

@[simp] theorem State.onSlot_reads (i : Nat) (f : Slot → Slot) :
    (∀ m, (s.onSlot i f).reg m = s.reg m) ∧ (∀ m, (s.onSlot i f).actReg m = s.actReg m) ∧
    (∀ g, (s.onSlot i f).fld g = s.fld g) ∧ (∀ g, (s.onSlot i f).actFld g = s.actFld g) ∧
    (∀ g, (s.onSlot i f).flag g = s.flag g) ∧ (∀ g m, (s.onSlot i f).fldBit g m = s.fldBit g m) ∧
    (∀ m, (s.onSlot i f).byte m = s.byte m) ∧ (∀ m, (s.onSlot i f).hole m = s.hole m) ∧
    (∀ m, (s.onSlot i f).stnOf m = s.stnOf m) ∧ (∀ m, (s.onSlot i f).pwmOf m = s.pwmOf m) ∧
    (∀ m k, (s.onSlot i f).hbOf m k = s.hbOf m k) ∧ (∀ m k, (s.onSlot i f).wcompOf m k = s.wcompOf m k) ∧
    (∀ m k, (s.onSlot i f).inpOf m k = s.inpOf m k) ∧ (∀ m, (s.onSlot i f).convOf m = s.convOf m) ∧
    (∀ m, (s.onSlot i f).pairOf m = s.pairOf m) ∧ (∀ m, (s.onSlot i f).sdmOf m = s.sdmOf m) ∧
    (∀ m, (s.onSlot i f).capOf m = s.capOf m) ∧ (∀ m, (s.onSlot i f).streamOf m = s.streamOf m) ∧
    (∀ m, (s.onSlot i f).trigOf m = s.trigOf m) ∧ (∀ m, (s.onSlot i f).safeOf m = s.safeOf m) ∧
    (∀ m, (s.onSlot i f).sinOf m = s.sinOf m) ∧ (∀ m, (s.onSlot i f).soutOf m = s.soutOf m) ∧
    (∀ m, (s.onSlot i f).portOf m = s.portOf m) ∧ (∀ m, (s.onSlot i f).chOf m = s.chOf m) ∧
    (∀ m, (s.onSlot i f).cvuOf m = s.cvuOf m) ∧ (∀ m, (s.onSlot i f).jobOf m = s.jobOf m) ∧
    (∀ m, (s.onSlot i f).slkPortOf m = s.slkPortOf m) := by
  repeat' apply And.intro
  all_goals
    intros
    rfl

@[simp] theorem State.onJob_reads (i : Nat) (f : Job → Job) :
    (∀ m, (s.onJob i f).reg m = s.reg m) ∧ (∀ m, (s.onJob i f).actReg m = s.actReg m) ∧
    (∀ g, (s.onJob i f).fld g = s.fld g) ∧ (∀ g, (s.onJob i f).actFld g = s.actFld g) ∧
    (∀ g, (s.onJob i f).flag g = s.flag g) ∧ (∀ g m, (s.onJob i f).fldBit g m = s.fldBit g m) ∧
    (∀ m, (s.onJob i f).byte m = s.byte m) ∧ (∀ m, (s.onJob i f).hole m = s.hole m) ∧
    (∀ m, (s.onJob i f).stnOf m = s.stnOf m) ∧ (∀ m, (s.onJob i f).pwmOf m = s.pwmOf m) ∧
    (∀ m k, (s.onJob i f).hbOf m k = s.hbOf m k) ∧ (∀ m k, (s.onJob i f).wcompOf m k = s.wcompOf m k) ∧
    (∀ m k, (s.onJob i f).inpOf m k = s.inpOf m k) ∧ (∀ m, (s.onJob i f).convOf m = s.convOf m) ∧
    (∀ m, (s.onJob i f).pairOf m = s.pairOf m) ∧ (∀ m, (s.onJob i f).sdmOf m = s.sdmOf m) ∧
    (∀ m, (s.onJob i f).capOf m = s.capOf m) ∧ (∀ m, (s.onJob i f).streamOf m = s.streamOf m) ∧
    (∀ m, (s.onJob i f).trigOf m = s.trigOf m) ∧ (∀ m, (s.onJob i f).safeOf m = s.safeOf m) ∧
    (∀ m, (s.onJob i f).sinOf m = s.sinOf m) ∧ (∀ m, (s.onJob i f).soutOf m = s.soutOf m) ∧
    (∀ m, (s.onJob i f).portOf m = s.portOf m) ∧ (∀ m, (s.onJob i f).chOf m = s.chOf m) ∧
    (∀ m, (s.onJob i f).cvuOf m = s.cvuOf m) ∧ (∀ m, (s.onJob i f).slotOf m = s.slotOf m) ∧
    (∀ m, (s.onJob i f).slkPortOf m = s.slkPortOf m) := by
  repeat' apply And.intro
  all_goals
    intros
    rfl

@[simp] theorem State.onSlkPort_reads (i : Nat) (f : SlkPort → SlkPort) :
    (∀ m, (s.onSlkPort i f).reg m = s.reg m) ∧ (∀ m, (s.onSlkPort i f).actReg m = s.actReg m) ∧
    (∀ g, (s.onSlkPort i f).fld g = s.fld g) ∧ (∀ g, (s.onSlkPort i f).actFld g = s.actFld g) ∧
    (∀ g, (s.onSlkPort i f).flag g = s.flag g) ∧ (∀ g m, (s.onSlkPort i f).fldBit g m = s.fldBit g m) ∧
    (∀ m, (s.onSlkPort i f).byte m = s.byte m) ∧ (∀ m, (s.onSlkPort i f).hole m = s.hole m) ∧
    (∀ m, (s.onSlkPort i f).stnOf m = s.stnOf m) ∧ (∀ m, (s.onSlkPort i f).pwmOf m = s.pwmOf m) ∧
    (∀ m k, (s.onSlkPort i f).hbOf m k = s.hbOf m k) ∧ (∀ m k, (s.onSlkPort i f).wcompOf m k = s.wcompOf m k) ∧
    (∀ m k, (s.onSlkPort i f).inpOf m k = s.inpOf m k) ∧ (∀ m, (s.onSlkPort i f).convOf m = s.convOf m) ∧
    (∀ m, (s.onSlkPort i f).pairOf m = s.pairOf m) ∧ (∀ m, (s.onSlkPort i f).sdmOf m = s.sdmOf m) ∧
    (∀ m, (s.onSlkPort i f).capOf m = s.capOf m) ∧ (∀ m, (s.onSlkPort i f).streamOf m = s.streamOf m) ∧
    (∀ m, (s.onSlkPort i f).trigOf m = s.trigOf m) ∧ (∀ m, (s.onSlkPort i f).safeOf m = s.safeOf m) ∧
    (∀ m, (s.onSlkPort i f).sinOf m = s.sinOf m) ∧ (∀ m, (s.onSlkPort i f).soutOf m = s.soutOf m) ∧
    (∀ m, (s.onSlkPort i f).portOf m = s.portOf m) ∧ (∀ m, (s.onSlkPort i f).chOf m = s.chOf m) ∧
    (∀ m, (s.onSlkPort i f).cvuOf m = s.cvuOf m) ∧ (∀ m, (s.onSlkPort i f).slotOf m = s.slotOf m) ∧
    (∀ m, (s.onSlkPort i f).jobOf m = s.jobOf m) := by
  repeat' apply And.intro
  all_goals
    intros
    rfl

@[simp] theorem State.onStart_reads (i : Nat) (f : Start → Start) :
    (∀ m, (s.onStart i f).reg m = s.reg m) ∧ (∀ m, (s.onStart i f).actReg m = s.actReg m) ∧
    (∀ g, (s.onStart i f).fld g = s.fld g) ∧ (∀ g, (s.onStart i f).actFld g = s.actFld g) ∧
    (∀ g, (s.onStart i f).flag g = s.flag g) ∧ (∀ g m, (s.onStart i f).fldBit g m = s.fldBit g m) ∧
    (∀ m, (s.onStart i f).byte m = s.byte m) ∧ (∀ m, (s.onStart i f).hole m = s.hole m) ∧
    (∀ m, (s.onStart i f).pwmOf m = s.pwmOf m) ∧ (∀ m k, (s.onStart i f).hbOf m k = s.hbOf m k) ∧
    (∀ m k, (s.onStart i f).wcompOf m k = s.wcompOf m k) ∧ (∀ m k, (s.onStart i f).inpOf m k = s.inpOf m k) ∧
    (∀ m, (s.onStart i f).convOf m = s.convOf m) ∧ (∀ m, (s.onStart i f).pairOf m = s.pairOf m) ∧
    (∀ m, (s.onStart i f).sdmOf m = s.sdmOf m) ∧ (∀ m, (s.onStart i f).capOf m = s.capOf m) ∧
    (∀ m, (s.onStart i f).streamOf m = s.streamOf m) ∧ (∀ m, (s.onStart i f).trigOf m = s.trigOf m) ∧
    (∀ m, (s.onStart i f).safeOf m = s.safeOf m) ∧ (∀ m, (s.onStart i f).sinOf m = s.sinOf m) ∧
    (∀ m, (s.onStart i f).soutOf m = s.soutOf m) ∧ (∀ m, (s.onStart i f).portOf m = s.portOf m) ∧
    (∀ m, (s.onStart i f).chOf m = s.chOf m) ∧ (∀ m, (s.onStart i f).cvuOf m = s.cvuOf m) ∧
    (∀ m, (s.onStart i f).slotOf m = s.slotOf m) ∧ (∀ m, (s.onStart i f).jobOf m = s.jobOf m) ∧
    (∀ m, (s.onStart i f).slkPortOf m = s.slkPortOf m) := by
  repeat' apply And.intro
  all_goals
    intros
    rfl

@[simp] theorem State.onLim_reads (i : Nat) (f : Limiting → Limiting) :
    (∀ m, (s.onLim i f).reg m = s.reg m) ∧ (∀ m, (s.onLim i f).actReg m = s.actReg m) ∧
    (∀ g, (s.onLim i f).fld g = s.fld g) ∧ (∀ g, (s.onLim i f).actFld g = s.actFld g) ∧
    (∀ g, (s.onLim i f).flag g = s.flag g) ∧ (∀ g m, (s.onLim i f).fldBit g m = s.fldBit g m) ∧
    (∀ m, (s.onLim i f).byte m = s.byte m) ∧ (∀ m, (s.onLim i f).hole m = s.hole m) ∧
    (∀ m, (s.onLim i f).pwmOf m = s.pwmOf m) ∧ (∀ m k, (s.onLim i f).hbOf m k = s.hbOf m k) ∧
    (∀ m k, (s.onLim i f).wcompOf m k = s.wcompOf m k) ∧ (∀ m k, (s.onLim i f).inpOf m k = s.inpOf m k) ∧
    (∀ m, (s.onLim i f).convOf m = s.convOf m) ∧ (∀ m, (s.onLim i f).pairOf m = s.pairOf m) ∧
    (∀ m, (s.onLim i f).sdmOf m = s.sdmOf m) ∧ (∀ m, (s.onLim i f).capOf m = s.capOf m) ∧
    (∀ m, (s.onLim i f).streamOf m = s.streamOf m) ∧ (∀ m, (s.onLim i f).trigOf m = s.trigOf m) ∧
    (∀ m, (s.onLim i f).safeOf m = s.safeOf m) ∧ (∀ m, (s.onLim i f).sinOf m = s.sinOf m) ∧
    (∀ m, (s.onLim i f).soutOf m = s.soutOf m) ∧ (∀ m, (s.onLim i f).portOf m = s.portOf m) ∧
    (∀ m, (s.onLim i f).chOf m = s.chOf m) ∧ (∀ m, (s.onLim i f).cvuOf m = s.cvuOf m) ∧
    (∀ m, (s.onLim i f).slotOf m = s.slotOf m) ∧ (∀ m, (s.onLim i f).jobOf m = s.jobOf m) ∧
    (∀ m, (s.onLim i f).slkPortOf m = s.slkPortOf m) := by
  repeat' apply And.intro
  all_goals
    intros
    rfl

@[simp] theorem State.onPer_reads (i : Nat) (f : Period → Period) :
    (∀ m, (s.onPer i f).reg m = s.reg m) ∧ (∀ m, (s.onPer i f).actReg m = s.actReg m) ∧
    (∀ g, (s.onPer i f).fld g = s.fld g) ∧ (∀ g, (s.onPer i f).actFld g = s.actFld g) ∧
    (∀ g, (s.onPer i f).flag g = s.flag g) ∧ (∀ g m, (s.onPer i f).fldBit g m = s.fldBit g m) ∧
    (∀ m, (s.onPer i f).byte m = s.byte m) ∧ (∀ m, (s.onPer i f).hole m = s.hole m) ∧
    (∀ m, (s.onPer i f).pwmOf m = s.pwmOf m) ∧ (∀ m k, (s.onPer i f).hbOf m k = s.hbOf m k) ∧
    (∀ m k, (s.onPer i f).wcompOf m k = s.wcompOf m k) ∧ (∀ m k, (s.onPer i f).inpOf m k = s.inpOf m k) ∧
    (∀ m, (s.onPer i f).convOf m = s.convOf m) ∧ (∀ m, (s.onPer i f).pairOf m = s.pairOf m) ∧
    (∀ m, (s.onPer i f).sdmOf m = s.sdmOf m) ∧ (∀ m, (s.onPer i f).capOf m = s.capOf m) ∧
    (∀ m, (s.onPer i f).streamOf m = s.streamOf m) ∧ (∀ m, (s.onPer i f).trigOf m = s.trigOf m) ∧
    (∀ m, (s.onPer i f).safeOf m = s.safeOf m) ∧ (∀ m, (s.onPer i f).sinOf m = s.sinOf m) ∧
    (∀ m, (s.onPer i f).soutOf m = s.soutOf m) ∧ (∀ m, (s.onPer i f).portOf m = s.portOf m) ∧
    (∀ m, (s.onPer i f).chOf m = s.chOf m) ∧ (∀ m, (s.onPer i f).cvuOf m = s.cvuOf m) ∧
    (∀ m, (s.onPer i f).slotOf m = s.slotOf m) ∧ (∀ m, (s.onPer i f).jobOf m = s.jobOf m) ∧
    (∀ m, (s.onPer i f).slkPortOf m = s.slkPortOf m) := by
  repeat' apply And.intro
  all_goals
    intros
    rfl

@[simp] theorem State.onCores_reads (i : Nat) (f : Core → Core) :
    (∀ m, (s.onCores i f).reg m = s.reg m) ∧ (∀ m, (s.onCores i f).actReg m = s.actReg m) ∧
    (∀ g, (s.onCores i f).fld g = s.fld g) ∧ (∀ g, (s.onCores i f).actFld g = s.actFld g) ∧
    (∀ g, (s.onCores i f).flag g = s.flag g) ∧ (∀ g m, (s.onCores i f).fldBit g m = s.fldBit g m) ∧
    (∀ m, (s.onCores i f).byte m = s.byte m) ∧ (∀ m, (s.onCores i f).hole m = s.hole m) ∧
    (∀ m, (s.onCores i f).pwmOf m = s.pwmOf m) ∧ (∀ m k, (s.onCores i f).hbOf m k = s.hbOf m k) ∧
    (∀ m k, (s.onCores i f).wcompOf m k = s.wcompOf m k) ∧ (∀ m k, (s.onCores i f).inpOf m k = s.inpOf m k) ∧
    (∀ m, (s.onCores i f).convOf m = s.convOf m) ∧ (∀ m, (s.onCores i f).pairOf m = s.pairOf m) ∧
    (∀ m, (s.onCores i f).sdmOf m = s.sdmOf m) ∧ (∀ m, (s.onCores i f).capOf m = s.capOf m) ∧
    (∀ m, (s.onCores i f).streamOf m = s.streamOf m) ∧ (∀ m, (s.onCores i f).trigOf m = s.trigOf m) ∧
    (∀ m, (s.onCores i f).safeOf m = s.safeOf m) ∧ (∀ m, (s.onCores i f).sinOf m = s.sinOf m) ∧
    (∀ m, (s.onCores i f).soutOf m = s.soutOf m) ∧ (∀ m, (s.onCores i f).portOf m = s.portOf m) ∧
    (∀ m, (s.onCores i f).chOf m = s.chOf m) ∧ (∀ m, (s.onCores i f).cvuOf m = s.cvuOf m) ∧
    (∀ m, (s.onCores i f).slotOf m = s.slotOf m) ∧ (∀ m, (s.onCores i f).jobOf m = s.jobOf m) ∧
    (∀ m, (s.onCores i f).slkPortOf m = s.slkPortOf m) := by
  repeat' apply And.intro
  all_goals
    intros
    rfl

/-! ### The unit that an update is of, and the others of its kind -/

theorem State.pwmOf_onPwm_ne {i j : Nat} (f : PwmUnit → PwmUnit) (h : j ≠ i) : (s.onPwm i f).pwmOf j = s.pwmOf j := tget_tset_ne _ _ _ h
@[simp] theorem State.hbOf_onHb (i j : Nat) (f : HalfBridge → HalfBridge) : (s.onHb i j f).hbOf i j = f (s.hbOf i j) := tget_tset_self _ _ _ _
theorem State.hbOf_onHb_ne {i j k : Nat} (f : HalfBridge → HalfBridge) (h : k ≠ j) : (s.onHb i j f).hbOf i k = s.hbOf i k :=
  tget_tset_ne _ _ _ (by omega)
theorem State.wcompOf_onWcomp_ne {i j k : Nat} (f : WindowComp → WindowComp) (h : k ≠ j) : (s.onWcomp i j f).wcompOf i k = s.wcompOf i k :=
  tget_tset_ne _ _ _ (by omega)
@[simp] theorem State.inpOf_onInp (i j : Nat) (f : InputWatch → InputWatch) : (s.onInp i j f).inpOf i j = f (s.inpOf i j) := tget_tset_self _ _ _ _
theorem State.inpOf_onInp_ne {i j k : Nat} (f : InputWatch → InputWatch) (h : k ≠ j) : (s.onInp i j f).inpOf i k = s.inpOf i k :=
  tget_tset_ne _ _ _ (by omega)
theorem State.convOf_onConv_ne {i j : Nat} (f : Conv → Conv) (h : j ≠ i) : (s.onConv i f).convOf j = s.convOf j := tget_tset_ne _ _ _ h
@[simp] theorem State.pairOf_onPair (i : Nat) (f : Pair → Pair) : (s.onPair i f).pairOf i = f (s.pairOf i) := tget_tset_self _ _ _ _
theorem State.pairOf_onPair_ne {i j : Nat} (f : Pair → Pair) (h : j ≠ i) : (s.onPair i f).pairOf j = s.pairOf j := tget_tset_ne _ _ _ h
theorem State.sdmOf_onSdm_ne {i j : Nat} (f : SdmCh → SdmCh) (h : j ≠ i) : (s.onSdm i f).sdmOf j = s.sdmOf j := tget_tset_ne _ _ _ h
theorem State.capOf_onCap_ne {i j : Nat} (f : Cap → Cap) (h : j ≠ i) : (s.onCap i f).capOf j = s.capOf j := tget_tset_ne _ _ _ h
@[simp] theorem State.streamOf_onStream (i : Nat) (f : ChestStream → ChestStream) : (s.onStream i f).streamOf i = f (s.streamOf i) := tget_tset_self _ _ _ _
theorem State.streamOf_onStream_ne {i j : Nat} (f : ChestStream → ChestStream) (h : j ≠ i) : (s.onStream i f).streamOf j = s.streamOf j := tget_tset_ne _ _ _ h
@[simp] theorem State.trigOf_onTrig (i : Nat) (f : ChestTrig → ChestTrig) : (s.onTrig i f).trigOf i = f (s.trigOf i) := tget_tset_self _ _ _ _
theorem State.trigOf_onTrig_ne {i j : Nat} (f : ChestTrig → ChestTrig) (h : j ≠ i) : (s.onTrig i f).trigOf j = s.trigOf j := tget_tset_ne _ _ _ h
theorem State.safeOf_onSafe_ne {i j : Nat} (f : SafeStn → SafeStn) (h : j ≠ i) : (s.onSafe i f).safeOf j = s.safeOf j := tget_tset_ne _ _ _ h
@[simp] theorem State.sinOf_onSin (i : Nat) (f : SinPair → SinPair) : (s.onSin i f).sinOf i = f (s.sinOf i) := tget_tset_self _ _ _ _
theorem State.sinOf_onSin_ne {i j : Nat} (f : SinPair → SinPair) (h : j ≠ i) : (s.onSin i f).sinOf j = s.sinOf j := tget_tset_ne _ _ _ h
@[simp] theorem State.soutOf_onSout (i : Nat) (f : SoutOut → SoutOut) : (s.onSout i f).soutOf i = f (s.soutOf i) := tget_tset_self _ _ _ _
theorem State.soutOf_onSout_ne {i j : Nat} (f : SoutOut → SoutOut) (h : j ≠ i) : (s.onSout i f).soutOf j = s.soutOf j := tget_tset_ne _ _ _ h
theorem State.portOf_onPort_ne {i j : Nat} (f : PortUnit → PortUnit) (h : j ≠ i) : (s.onPort i f).portOf j = s.portOf j := tget_tset_ne _ _ _ h
theorem State.chOf_onCh_ne {i j : Nat} (f : DmaCh → DmaCh) (h : j ≠ i) : (s.onCh i f).chOf j = s.chOf j := tget_tset_ne _ _ _ h
theorem State.cvuOf_onCvu_ne {i j : Nat} (f : Cvu → Cvu) (h : j ≠ i) : (s.onCvu i f).cvuOf j = s.cvuOf j := tget_tset_ne _ _ _ h
theorem State.slotOf_onSlot_ne {i j : Nat} (f : Slot → Slot) (h : j ≠ i) : (s.onSlot i f).slotOf j = s.slotOf j := tget_tset_ne _ _ _ h
theorem State.jobOf_onJob_ne {i j : Nat} (f : Job → Job) (h : j ≠ i) : (s.onJob i f).jobOf j = s.jobOf j := tget_tset_ne _ _ _ h
theorem State.slkPortOf_onSlkPort_ne {i j : Nat} (f : SlkPort → SlkPort) (h : j ≠ i) : (s.onSlkPort i f).slkPortOf j = s.slkPortOf j := tget_tset_ne _ _ _ h

@[simp] theorem State.stnOf_onLim (i : Nat) (f : Limiting → Limiting) :
    (s.onLim i f).stnOf i = { s.stnOf i with lim := f (s.stnOf i).lim } := s.stnOf_onStn i _

@[simp] theorem State.stnOf_onPer (i : Nat) (f : Period → Period) :
    (s.onPer i f).stnOf i = { s.stnOf i with per := f (s.stnOf i).per } := s.stnOf_onStn i _

end Sys2Proof.Machine
end

section
/-! SUPPORT. Registers of a station (R46, R49, R63 to R65, R78, R191, R489): a parameter write in each of its cases, the requests
of GFM_CTRL, and the rows of the station state table that a boundary serves. -/

namespace Sys2Proof.Machine

variable {s : State}

@[simp] theorem State.setFlagIf_true (f : Fld) : s.setFlagIf true f = s.setFlag f := rfl

@[simp] theorem State.setFlagIf_false (f : Fld) : s.setFlagIf false f = s := rfl

/-! ### GFM_PAR (R63 to R65) -/

theorem exec_gfmParWrite {n : Fin 4} (hr : s.islandsRun = true) (hg : s.grantS n = true) (i : BitVec 8) (w : Word) (late : Bool) :
    exec (.gfmParWrite n i w late) s = .next (s.writePar n i.toNat w late) :=
  writeWindow_open hr (by rw [s.window_gfm, hg])

section
variable {n i : Nat} {w v : Word} {late : Bool} {p : ParamDesc} (hp : parDesc i = some p) (ha : p.acc ≠ .ro)
include hp ha

theorem State.writePar_outOfRange (hv : parCheck p w = none) : s.writePar n i w late =
    (s.setFlag (GFM_CORE_FLAGS_PARAM_REJECTED n)).count (GFM_CORE_CNT1_PARAM_REJECT_CNT n) := by
  simp only [State.writePar, hp, if_neg ha, hv]

theorem State.writePar_idleOnly (hv : parCheck p w = some v) (hc : p.cls = .idle) : s.writePar n i w late =
    if v = s.reg (GFM_PAR n i) then s
    else if s.stnIdle n then
      if i = parS_BASE ∨ i = parV_BASE then ((s.setBoth (GFM_PAR n i) v).refreshRated n).limitCodes n
      else (s.setBoth (GFM_PAR n i) v).refreshRated n
    else s.setFlag (GFM_CORE_FLAGS_WRITE_REFUSED n) := by
  simp only [State.writePar, hp, if_neg ha, hv, hc]

/-- Outside the idle-only class a write waits for the boundary, but for the bound of R49 on a station that runs. -/
theorem State.writePar_shadowed (hv : parCheck p w = some v) (hc : p.cls ≠ .idle) : s.writePar n i w late =
    if i = parD ∧ !s.stnIdle n ∧ 1 / 5 < (roundAway (f32ToRat v / p.res) : Rat) * p.res * s.dtV n then
      (s.setFlag (GFM_CORE_FLAGS_PARAM_REJECTED n)).count (GFM_CORE_CNT1_PARAM_REJECT_CNT n)
    else (s.setReg (GFM_PAR n i) v).setFlagIf late (GFM_CORE_FLAGS_LATE_WRITE n) := by
  simp only [State.writePar, hp, if_neg ha, hv]

end

/-- Settles O6: a write of a parameter is one case of its range and its timing class. -/
theorem parameterWrites : Obligations.ParameterWrites := by
  intro n i w late s p hr hg hp ha
  simp only [exec_gfmParWrite hr hg]
  refine ⟨fun v hv hc hD => ?_, fun v hv hc hD hbusy => ?_, fun v hv hc hne hidle => ?_, fun v hv hc heq => ?_,
    fun v hv hc hne hbusy => ?_, fun hv => ?_⟩
  · have hfree : ¬ (i.toNat = parD ∧ (!s.stnIdle n) = true ∧
        1 / 5 < (roundAway (f32ToRat v / p.res) : Rat) * p.res * s.dtV n) := fun ⟨h, hi, _⟩ => by simp [hD h] at hi
    rw [State.writePar_shadowed hp ha hv hc, if_neg hfree]
  · rw [State.writePar_shadowed hp ha hv hc]
    simp only [hD, hbusy, Bool.not_false, true_and]
  · rw [State.writePar_idleOnly hp ha hv hc, if_neg hne, if_pos hidle]
  · rw [State.writePar_idleOnly hp ha hv hc, if_pos heq]
  · rw [State.writePar_idleOnly hp ha hv hc, if_neg hne, if_neg (by simp [hbusy])]
  · rw [State.writePar_outOfRange hp ha hv]

/-! ### Fields and bits of GFM_CTRL -/

theorem bit_putBit_self (w : Word) {i : Nat} (b : Bool) (h : i < 32) : bit (putBit w i b) i = b := by
  have hb : bits (putBit w i b) i 1 = b.toNat := by
    rw [putBit, bits_putBits_self _ _ (by omega), Nat.mod_eq_of_lt (by cases b <;> decide)]
  rw [bit, Nat.testBit_eq_decide_div_mod_eq, show (putBit w i b).toNat / 2 ^ i % 2 = b.toNat from hb]
  cases b <;> rfl

theorem bit_putBit_ne (w : Word) {i j : Nat} (b : Bool) (h : i < 32) (hj : j ≠ i) : bit (putBit w i b) j = bit w j :=
  testBit_putBits w _ (by omega) j (by omega)

theorem bits_putBit (w : Word) {i lo k : Nat} (b : Bool) (h : i < 32) (hd : lo + k ≤ i ∨ i < lo) :
    bits (putBit w i b) lo k = bits w lo k :=
  bits_putBits_ne w _ (by omega) (by omega)

/-! ### A station changes its state (R78, R410) -/

/-- The station's own part of a change of state. -/
def Stn.moveTo (u : Stn) (st : StnState) : Stn :=
  let fault := match st with
    | .openLoopV | .stopping => u.lim.inFault || u.st == .limiting || u.st == .rideThrough
    | _ => false
  { u with prev := u.st, st := st, hch := [], lim := { u.lim with inFault := fault }.takeWait st }

theorem State.setSt_eq (n : Nat) (st : StnState) : s.setSt n st =
    if ((s.onStn n (Stn.moveTo · st)).stnOf n).idle then (s.onStn n (Stn.moveTo · st)).applySettings
    else s.onStn n (Stn.moveTo · st) := rfl

theorem State.applySettings_of_nil (h : s.pendSet = []) : s.applySettings = s := by
  simp only [State.applySettings, h, List.filter_nil, List.foldl_nil]
  rw [← h]

/-- Where no setting waits, nothing but the station changes. -/
theorem State.setSt_of_nil {n : Nat} (st : StnState) (h : s.pendSet = []) : s.setSt n st = s.onStn n (Stn.moveTo · st) := by
  rw [State.setSt_eq]
  split
  · exact State.applySettings_of_nil (by simpa using h)
  · rfl

/-- Settings wait on for a station that is not idle. -/
theorem State.setSt_of_busy {n : Nat} {st : StnState} (h : st ≠ .disabled ∧ st ≠ .ready ∧ st ≠ .tripped) :
    s.setSt n st = s.onStn n (Stn.moveTo · st) := by
  obtain ⟨hd, hr, ht⟩ := h
  rw [State.setSt_eq, if_neg (by simp [Stn.idle, Stn.moveTo, hd, hr, ht])]

@[simp] theorem Stn.moveTo_st (u : Stn) (st : StnState) : (u.moveTo st).st = st := rfl
@[simp] theorem Stn.moveTo_prev (u : Stn) (st : StnState) : (u.moveTo st).prev = u.st := rfl
@[simp] theorem Stn.moveTo_count (u : Stn) (st : StnState) : (u.moveTo st).count = u.count := rfl
@[simp] theorem Stn.moveTo_start (u : Stn) (st : StnState) : (u.moveTo st).start = u.start := rfl

/-! ### A write of GFM_CTRL (R8, R16, R78) -/

/-- The fields of GFM_CTRL as a write leaves them, before its reset request. -/
def State.ctrlFields (s : State) (n : Nat) (w : Word) : State :=
  let s1 := if bits w 8 2 == s.fld (GFM_CTRL_TYPE n) || (s.stnIdle n && bits w 8 2 != 3) then
      s.setFld (GFM_CTRL_TYPE n) (bits w 8 2) else s.setFlag (GFM_CORE_FLAGS_WRITE_REFUSED n)
  let s2 := if bits w 4 3 == s.fld (GFM_CTRL_START_MODE n) || (s.stnIdle n && decide (bits w 4 3 ≤ 2)) then
      s1.setFld (GFM_CTRL_START_MODE n) (bits w 4 3) else s1.setFlag (GFM_CORE_FLAGS_WRITE_REFUSED n)
  let s4 := (s2.setFld (GFM_CTRL_RUN_REQ n) (bit w 0).toNat).setFlagIf (bit w 0 && (s.stnOf n).st == .disabled)
    (GFM_CORE_FLAGS_START_REFUSED n)
  if s.flag (GFM_CTRL_RUN_REQ n) && !bit w 0 then s4.onStn n (fun u => { u with stopReq := !u.idle }) else s4

theorem State.writeCtrl_eq {n : Nat} {w : Word} (hm : bits w 8 2 = 1 → s.grantMachine = true) : s.writeCtrl n w =
    (if bit w 12 then (s.ctrlFields n w).resetRequest n else s.ctrlFields n w).settleStopped n := by
  have hmach : ¬ (bits w 8 2 = 1 ∧ (!s.grantMachine) = true) := fun ⟨h1, h2⟩ => by simp [hm h1] at h2
  exact if_neg hmach

section
variable (s) (n : Nat) (w : Word)

/-- A write of GFM_CTRL changes two registers and the stop request of its station. -/
theorem State.ctrlFields_frame : (s.ctrlFields n w).act = s.act ∧ (s.ctrlFields n w).pwm = s.pwm ∧
    (s.ctrlFields n w).safeStn = s.safeStn ∧ (s.ctrlFields n w).grants = s.grants ∧ (s.ctrlFields n w).pendSet = s.pendSet ∧
    ((s.ctrlFields n w).stnOf n).st = (s.stnOf n).st := by
  simp only [State.ctrlFields]
  cases bit w 0 && (s.stnOf n).st == .disabled <;> split <;> split <;> split <;> simp

theorem State.reg_ctrlFields {a : Nat} (hc : a ≠ GFM_CTRL n) (hf : a ≠ GFM_CORE_FLAGS n) :
    (s.ctrlFields n w).reg a = s.reg a := by
  have h1 : a ≠ (GFM_CTRL_TYPE n).addr := hc
  have h2 : a ≠ (GFM_CTRL_START_MODE n).addr := hc
  have h3 : a ≠ (GFM_CTRL_RUN_REQ n).addr := hc
  have h4 : a ≠ (GFM_CORE_FLAGS_WRITE_REFUSED n).addr := hf
  have h5 : a ≠ (GFM_CORE_FLAGS_START_REFUSED n).addr := hf
  simp only [State.ctrlFields]
  cases bit w 0 && (s.stnOf n).st == .disabled <;> split <;> split <;> split <;>
    simp [State.setFlag, State.reg_setFld_ne, h1, h2, h3, h4, h5]

theorem State.fld_ctrlFields_type (h : bits w 8 2 = s.fld (GFM_CTRL_TYPE n)) :
    (s.ctrlFields n w).fld (GFM_CTRL_TYPE n) = s.fld (GFM_CTRL_TYPE n) := by
  have hwrite : (s.setFld (GFM_CTRL_TYPE n) (bits w 8 2)).fld (GFM_CTRL_TYPE n) = s.fld (GFM_CTRL_TYPE n) :=
    (s.fld_setFld_self _ (by decide : 8 + 2 ≤ 32)).trans (Nat.mod_eq_of_lt (bits_lt w 8 2) |>.trans h)
  have hmode (t : State) (v : Nat) : (t.setFld (GFM_CTRL_START_MODE n) v).fld (GFM_CTRL_TYPE n) = t.fld (GFM_CTRL_TYPE n) :=
    t.fld_setFld_ne v (by decide : 4 + 3 ≤ 32) (.inr (by decide : 4 + 3 ≤ 8))
  have hrun (t : State) (v : Nat) : (t.setFld (GFM_CTRL_RUN_REQ n) v).fld (GFM_CTRL_TYPE n) = t.fld (GFM_CTRL_TYPE n) :=
    t.fld_setFld_ne v (by decide : 0 + 1 ≤ 32) (.inr (by decide : 0 + 1 ≤ 8))
  have hne : (GFM_CTRL_TYPE n).addr ≠ GFM_CORE_FLAGS n := by simp [GFM_CTRL_TYPE, GFM_CTRL, GFM_CORE_FLAGS]
  have hflag (t : State) : (t.setFlag (GFM_CORE_FLAGS_WRITE_REFUSED n)).fld (GFM_CTRL_TYPE n) = t.fld (GFM_CTRL_TYPE n) :=
    t.fld_setFld_addr _ hne
  have hflag' (t : State) : (t.setFlag (GFM_CORE_FLAGS_START_REFUSED n)).fld (GFM_CTRL_TYPE n) = t.fld (GFM_CTRL_TYPE n) :=
    t.fld_setFld_addr _ hne
  simp only [State.ctrlFields, h, beq_self_eq_true, Bool.true_or, if_true]
  cases bit w 0 && (s.stnOf n).st == .disabled <;> split <;> split <;> simp [hmode, hrun, hflag, hflag', h ▸ hwrite]

variable {s n w}

/-- TYPE and START_MODE take values that the station's state allows. -/
theorem State.ctrlFields_accepted (hty : bits w 8 2 = s.fld (GFM_CTRL_TYPE n) ∨ s.stnIdle n = true ∧ bits w 8 2 ≠ 3)
    (hmo : bits w 4 3 = s.fld (GFM_CTRL_START_MODE n) ∨ s.stnIdle n = true ∧ bits w 4 3 ≤ 2) : s.ctrlFields n w =
      let t := (((s.setFld (GFM_CTRL_TYPE n) (bits w 8 2)).setFld (GFM_CTRL_START_MODE n) (bits w 4 3)).setFld
        (GFM_CTRL_RUN_REQ n) (bit w 0).toNat).setFlagIf (bit w 0 && (s.stnOf n).st == .disabled) (GFM_CORE_FLAGS_START_REFUSED n)
      if s.flag (GFM_CTRL_RUN_REQ n) && !bit w 0 then t.onStn n (fun u => { u with stopReq := !u.idle }) else t := by
  have htyB : (bits w 8 2 == s.fld (GFM_CTRL_TYPE n) || (s.stnIdle n && bits w 8 2 != 3)) = true := by
    simpa [bne_iff_ne] using hty
  have hmoB : (bits w 4 3 == s.fld (GFM_CTRL_START_MODE n) || (s.stnIdle n && decide (bits w 4 3 ≤ 2))) = true := by
    simpa using hmo
  simp only [State.ctrlFields, htyB, hmoB, if_true]

/-- Without a reset request, and while the timebase runs, nothing but the fields changes at once. -/
theorem State.writeCtrl_fields (hm : bits w 8 2 = 1 → s.grantMachine = true) (hreset : bit w 12 = false)
    (hrun : (s.pwmOf n).run = true) : s.writeCtrl n w = s.ctrlFields n w := by
  obtain ⟨-, hpwm, -⟩ := s.ctrlFields_frame n w
  rw [State.writeCtrl_eq hm, if_neg (by simp [hreset]), State.settleStopped_of_run]
  simpa only [State.pwmOf, hpwm] using hrun

end

/-! ### Requests (R78) -/

section
variable {n : Fin 4} {w : Word} (hr : s.islandsRun = true) (hg : s.grantS n = true)
include hr hg

theorem exec_gfmRunRequest : exec (.gfmRunRequest n w) s = .next (s.writeCtrl n (putBit w 0 true)) :=
  writeWindow_open hr (by rw [s.window_gfm, hg])

theorem exec_gfmStopRequest : exec (.gfmStopRequest n w) s = .next (s.writeCtrl n (putBit w 0 false)) :=
  writeWindow_open hr (by rw [s.window_gfm, hg])

theorem exec_gfmResetRequest : exec (.gfmResetRequest n w) s = .next (s.writeCtrl n (putBit w 12 true)) :=
  writeWindow_open hr (by rw [s.window_gfm, hg])

variable (hrun : (s.pwmOf n).run = true) (hm : bits w 8 2 = 1 → s.grantMachine = true)
include hrun hm

theorem exec_gfmRunRequest_idle (hidle : (s.stnOf n).idle = true) (hst : (s.stnOf n).st ≠ .disabled) (h12 : bit w 12 = false)
    (hty : bits w 8 2 ≠ 3) (hmo : bits w 4 3 ≤ 2) : exec (.gfmRunRequest n w) s =
      .next (((s.setFld (GFM_CTRL_TYPE n) (bits w 8 2)).setFld (GFM_CTRL_START_MODE n) (bits w 4 3)).setFld
        (GFM_CTRL_RUN_REQ n) 1) := by
  have hTy : bits (putBit w 0 true) 8 2 = bits w 8 2 := bits_putBit w _ (by decide) (by decide)
  have hMo : bits (putBit w 0 true) 4 3 = bits w 4 3 := bits_putBit w _ (by decide) (by decide)
  have hRun : bit (putBit w 0 true) 0 = true := bit_putBit_self w _ (by decide)
  have hReset : bit (putBit w 0 true) 12 = false := (bit_putBit_ne w _ (by decide) (by decide)).trans h12
  rw [exec_gfmRunRequest hr hg, State.writeCtrl_fields (by rwa [hTy]) hReset hrun,
    State.ctrlFields_accepted (.inr ⟨hidle, by rwa [hTy]⟩) (.inr ⟨hidle, by rwa [hMo]⟩)]
  have hdis : ((s.stnOf n).st == .disabled) = false := beq_eq_false_iff_ne.mpr hst
  simp [hTy, hMo, hRun, hdis]

theorem exec_gfmStopRequest_running (hbusy : (s.stnOf n).idle = false) (h12 : bit w 12 = false)
    (hty : bits w 8 2 = s.fld (GFM_CTRL_TYPE n)) (hmo : bits w 4 3 = s.fld (GFM_CTRL_START_MODE n))
    (hreq : s.flag (GFM_CTRL_RUN_REQ n) = true) : exec (.gfmStopRequest n w) s =
      .next ((((s.setFld (GFM_CTRL_TYPE n) (bits w 8 2)).setFld (GFM_CTRL_START_MODE n) (bits w 4 3)).setFld
        (GFM_CTRL_RUN_REQ n) 0).onStn n (fun u => { u with stopReq := true })) := by
  have hTy : bits (putBit w 0 false) 8 2 = bits w 8 2 := bits_putBit w _ (by decide) (by decide)
  have hMo : bits (putBit w 0 false) 4 3 = bits w 4 3 := bits_putBit w _ (by decide) (by decide)
  have hRun : bit (putBit w 0 false) 0 = false := bit_putBit_self w _ (by decide)
  have hReset : bit (putBit w 0 false) 12 = false := (bit_putBit_ne w _ (by decide) (by decide)).trans h12
  rw [exec_gfmStopRequest hr hg, State.writeCtrl_fields (by rwa [hTy]) hReset hrun,
    State.ctrlFields_accepted (.inl (hTy.trans hty)) (.inl (hMo.trans hmo))]
  simp [hTy, hMo, hRun, hreq, State.onStn, hbusy]

end

/-! ### A reset request (R78, R191, R339) -/

section
variable {n : Nat}

/-- The causes of a trip are cleared. -/
def State.clearTrip (s : State) (n : Nat) : State :=
  ((s.setReg (GFM_TRIP_CAUSE n) 0).setFld (GFM_START_STATUS_FAIL_REASON n) 0).setFld (GATE_TRIP_VALID n) 0

theorem State.clearTrip_frame : (s.clearTrip n).pendSet = s.pendSet ∧ (s.clearTrip n).pwm = s.pwm := by
  simp [State.clearTrip]

theorem State.reg_clearTrip (hn : n < 4) : (s.clearTrip n).reg (GFM_TRIP_CAUSE n) = 0 := by
  unfold State.clearTrip
  rw [State.reg_setFld_ne, State.reg_setFld_ne, State.reg_setReg_self] <;>
    simp only [GFM_TRIP_CAUSE, GATE_TRIP_VALID, GATE_TRIP, GFM_START_STATUS_FAIL_REASON, GFM_START_STATUS] <;> omega

theorem State.fld_clearTrip (hn : n < 4) :
    (s.clearTrip n).fld (GFM_START_STATUS_FAIL_REASON n) = 0 ∧ (s.clearTrip n).fld (GATE_TRIP_VALID n) = 0 := by
  refine ⟨?_, State.fld_setFld_self _ _ (by decide : 6 + 1 ≤ 32)⟩
  have hne : (GFM_START_STATUS_FAIL_REASON n).addr ≠ (GATE_TRIP_VALID n).addr := by
    simp only [GATE_TRIP_VALID, GATE_TRIP, GFM_START_STATUS_FAIL_REASON, GFM_START_STATUS]
    omega
  exact (State.fld_setFld_addr _ _ hne).trans (State.fld_setFld_self _ _ (by decide : 16 + 8 ≤ 32))

theorem State.resetRequest_tripped (hst : (s.stnOf n).st = .tripped) (hheld : s.requestsHeld n = false)
    (hlatch : s.fld (GATE_LATCH_LATCHED n) = 0) (hrated : s.rated n = true) : s.resetRequest n = (s.clearTrip n).enterReady n := by
  simp [State.resetRequest, State.clearTrip, hst, hheld, hlatch, hrated]

/-- Acceptance into READY with no setting waiting: registers and parameters stay. -/
theorem State.enterReady_of_nil (h : s.pendSet = []) : (s.enterReady n).regs = s.regs ∧ ((s.enterReady n).stnOf n).st = .ready ∧
    ((s.enterReady n).safeOf n).follows = false ∧ ((s.enterReady n).pwmOf n).run = (s.pwmOf n).run := by
  simp [State.enterReady, State.standDown, State.calmLimits, State.setSt_of_nil _ h]

/-- Conditions of a station read nothing that a write of GFM_CTRL with the same TYPE changes. -/
theorem State.requestsHeld_ctrlFields {w : Word} (hn : n < 4) (h : bits w 8 2 = s.fld (GFM_CTRL_TYPE n)) :
    (s.ctrlFields n w).requestsHeld n = s.requestsHeld n := by
  obtain ⟨-, -, hsafe, -, -, -⟩ := s.ctrlFields_frame n w
  have hout (k : Nat) (hk : k < 8) : (s.ctrlFields n w).soutMap k n = s.soutMap k n :=
    congrArg (bit · _) (s.reg_ctrlFields n w (by simp only [SAF_SOUT_MAP_STN, SAF_SOUT_MAP, GFM_CTRL]; omega)
      (by simp only [SAF_SOUT_MAP_STN, SAF_SOUT_MAP, GFM_CORE_FLAGS]; omega))
  have hpar (i : Nat) : (s.ctrlFields n w).safPar n i = s.safPar n i := by
    unfold State.safPar
    rw [s.reg_ctrlFields n w (by simp only [SAF_PAR, GFM_CTRL]; omega) (by simp only [SAF_PAR, GFM_CORE_FLAGS]; omega)]
  have hnamed : (s.ctrlFields n w).soutNamed n = s.soutNamed n := by
    unfold State.soutNamed
    rw [Bool.eq_iff_iff, List.any_eq_true, List.any_eq_true]
    exact exists_congr fun k => and_congr_right fun hk => by rw [hout k (List.mem_range.mp hk)]
  simp only [State.requestsHeld, hnamed, hpar, State.stnType, State.fld_ctrlFields_type s n w h, State.safeOf, hsafe]

theorem State.rated_ctrlFields {w : Word} : (s.ctrlFields n w).rated n = s.rated n := by
  obtain ⟨hact, -, -, hgr, -⟩ := s.ctrlFields_frame n w
  have hpar (i : Nat) : (s.ctrlFields n w).par n i = s.par n i := by simp only [State.par, State.actReg, hact]
  have hgrant : (s.ctrlFields n w).grantS n = s.grantS n := by simp only [State.grantS, hgr]
  unfold State.rated
  rw [hgrant, hpar, hpar, hpar]

end

/-- Settles O5: a write of GFM_CTRL changes nothing that holds the station, and READY is entered with the causes cleared. -/
theorem resetRequest : Obligations.ResetRequest := by
  intro n w s hr hg hrun hset hm hty hst hheld hrated hlatch
  have hTy : bits (putBit w 12 true) 8 2 = bits w 8 2 := bits_putBit w _ (by decide) (by decide)
  have hReset : bit (putBit w 12 true) 12 = true := bit_putBit_self w _ (by decide)
  have hty' : bits (putBit w 12 true) 8 2 = s.fld (GFM_CTRL_TYPE n) := hTy.trans hty
  obtain ⟨-, hpwm, -, -, hpend, hst'⟩ := s.ctrlFields_frame n (putBit w 12 true)
  have hlatch' : (s.ctrlFields n (putBit w 12 true)).fld (GATE_LATCH_LATCHED n) = 0 := by
    refine (congrArg (bits · _ _) (s.reg_ctrlFields n _ ?_ ?_)).trans hlatch <;>
      simp only [GATE_LATCH_LATCHED, GATE_LATCH, GFM_CTRL, GFM_CORE_FLAGS] <;> omega
  have hreset := State.resetRequest_tripped (hst'.trans hst) ((State.requestsHeld_ctrlFields n.isLt hty').trans hheld) hlatch'
    (State.rated_ctrlFields.trans hrated)
  rw [exec_gfmResetRequest hr hg, State.writeCtrl_eq (by rwa [hTy]), if_pos hReset, hreset]
  generalize s.ctrlFields n (putBit w 12 true) = u at *
  obtain ⟨hnil, hpwm'⟩ := u.clearTrip_frame (n := n)
  obtain ⟨hregs, hready, hfollows, hrun'⟩ := State.enterReady_of_nil (s := u.clearTrip n) (n := n) (hnil.trans (hpend.trans hset))
  obtain ⟨hreason, hvalid⟩ := u.fld_clearTrip n.isLt
  have hrunning : (((u.clearTrip n).enterReady n).pwmOf n).run = true :=
    hrun'.trans (by simpa only [State.pwmOf, hpwm', hpwm] using hrun)
  rw [State.settleStopped_of_run hrunning]
  refine ⟨_, rfl, hready, ?_, ?_, ?_, hfollows⟩
  · exact (congrArg (tget regReset · _) hregs).trans (u.reg_clearTrip n.isLt)
  · exact (congrArg (fun l => bits (tget regReset l _) _ _) hregs).trans hreason
  · exact (congrArg (fun l => bits (tget regReset l _) _ _) hregs).trans hvalid

/-! ### The rows of the state table at a boundary (R38, R78, R488) -/

section
variable (s) (n : Nat)

/-- The period count advances at a boundary, before a row is served. -/
def State.countPeriod : State := s.onStn n (fun u => { u with count := (u.count + 1) % 2 ^ 48 })

theorem State.stationBoundary_eq : s.stationBoundary n =
    if ((s.countPeriod n).stnOf n).st == .ready && !((s.countPeriod n).stnOf n).tripDue then
      (if (s.countPeriod n).flag (GFM_CTRL_RUN_REQ n) && (s.countPeriod n).sen.getLsbD n then (s.countPeriod n).judgeRun n
        else s.countPeriod n)
    else (s.countPeriod n).serveRows n := rfl

@[simp] theorem State.stnOf_countPeriod :
    (s.countPeriod n).stnOf n = { s.stnOf n with count := ((s.stnOf n).count + 1) % 2 ^ 48 } := s.stnOf_onStn n _

@[simp] theorem State.countPeriod_reads : (∀ f, (s.countPeriod n).flag f = s.flag f) ∧ (s.countPeriod n).sen = s.sen :=
  ⟨fun _ => rfl, rfl⟩

/-- A stop ends a change of the period first, and leaves the state that the station was in before it. -/
theorem State.st_enterStopping :
    ((s.enterStopping n).stnOf n).st = .stopping ∧ ((s.enterStopping n).stnOf n).prev = (s.stnOf n).st := by
  simp only [State.enterStopping, State.setSt_of_busy (s := s) (n := n) (st := .stopping) (by decide)]
  split <;> simp

/-- The check of a harmonic channel changes nothing of the station but its channels. -/
theorem State.stnOf_hchCheck (c : Nat) : ∃ h, (s.hchCheck n c).stnOf n = { s.stnOf n with hch := h } := by
  refine ⟨((s.hchCheck n c).stnOf n).hch, ?_⟩
  simp only [State.hchCheck]
  split <;> simp

theorem State.stnOf_forAll_hchCheck (k : Nat) :
    ∃ h, (s.forAll k (fun c t => t.hchCheck n c)).stnOf n = { s.stnOf n with hch := h } := by
  refine forAll_rel (fun a b => ∃ h, b.stnOf n = { a.stnOf n with hch := h }) (fun a => ⟨_, rfl⟩) ?_ _
    (fun c t => t.stnOf_hchCheck n c) k s
  rintro a b c ⟨h, hb⟩ ⟨h', hc⟩
  exact ⟨h', by rw [hc, hb]⟩

theorem State.st_enterRunning : ((s.enterRunning n).stnOf n).st = .running := by
  simp only [State.enterRunning, State.setSt_of_busy (s := s) (n := n) (st := .running) (by decide), State.setFlagIf_reads]
  obtain ⟨h, hh⟩ := State.stnOf_forAll_hchCheck _ n 12
  rw [hh]
  simp

end

section
variable {n : Nat} (hdue : (s.stnOf n).tripDue = false)
include hdue

theorem State.stationBoundary_rows (hst : (s.stnOf n).st ≠ .ready) : s.stationBoundary n = (s.countPeriod n).serveRows n := by
  simp [State.stationBoundary_eq, hst]

/-- In RUNNING a stop that is called for is served, in the state that a change of the period taken back leads to. -/
theorem State.serveRows_stop (hst : (s.stnOf n).st = .running) (hreq : s.flag (GFM_CTRL_RUN_REQ n) = false)
    (hback : ((s.undoTurn n).stnOf n).st = .running) : s.serveRows n = (s.undoTurn n).enterStopping n := by
  have hstop : s.stopWanted n = true := by simp [State.stopWanted, hreq]
  simp [State.serveRows, State.serveStop, hdue, hst, hstop, hback]

theorem State.serveRows_startComplete (hst : (s.stnOf n).st = .deadBusStart) (hstop : s.stopWanted n = false)
    (hc : (s.stnOf n).start.complete = true) : s.serveRows n = s.enterRunning n := by
  simp [State.serveRows, hdue, hst, hstop, hc]

end

/-- The change of the period that is taken back leads to the state noted with it. -/
theorem State.st_undoTurn (s : State) (n : Nat) :
    ((s.undoTurn n).stnOf n).st = match (s.stnOf n).turn with | some t => t.st | none => (s.stnOf n).st := by
  have hback (t : State) (f : Option Fld) (x : Nat) : (t.backFld f x).stnOf n = t.stnOf n := by cases f <;> rfl
  simp only [State.undoTurn]
  split <;> simp_all

/-! ### A run request is judged and accepted (R38, R46, R49, R78) -/

section
variable {n : Nat}

theorem State.judgeRun_accepted (hbank : s.fld PWR_STATUS_BANK_FAIL = 0) (hset : s.settingsComplete n = true)
    (hM : s.dtM n ≤ 1 / 100) (hD : s.parDec n parD * s.dtV n ≤ 1 / 5) (hheld : s.requestsHeld n = false) :
    s.judgeRun n = s.acceptRun n := by
  simp only [State.judgeRun, hbank, hset, decide_eq_false (not_lt.mpr hM), decide_eq_false (not_lt.mpr hD), hheld]
  rfl

theorem State.stnOf_takeBudget (s : State) (n : Nat) (x : Rat) : ∃ l, (s.takeBudget n x).stnOf n = { s.stnOf n with lim := l } := by
  refine ⟨((s.takeBudget n x).stnOf n).lim, ?_⟩
  simp only [State.takeBudget]
  split <;> simp

/-- The envelope is evaluated into the core and the limits. -/
theorem State.stnOf_blkEnvelope (s : State) (n : Nat) : ∃ c l, (s.blkEnvelope n).stnOf n = { s.stnOf n with core := c, lim := l } := by
  simp only [State.blkEnvelope]
  obtain ⟨l, h⟩ := State.stnOf_takeBudget _ n _
  exact ⟨_, l, h.trans (by simp [State.onCore]; rfl)⟩

theorem State.acceptRun_deadBus (hty : s.stnType n = 0) (hmo : s.fld (GFM_CTRL_START_MODE n) = 0) :
    ((s.acceptRun n).stnOf n).st = .deadBusStart ∧ ((s.acceptRun n).stnOf n).count = 0 ∧
      ((s.acceptRun n).stnOf n).start.phase = .deadCheck := by
  simp only [State.acceptRun, hty, hmo, if_true, State.setSt_of_busy (n := n) (st := .deadBusStart) (by decide)]
  generalize hu : State.onCores _ n _ = u
  have hcount : (u.stnOf n).count = 0 := by simp [← hu]
  obtain ⟨c, l, h⟩ := u.stnOf_blkEnvelope n
  simp [h, hcount]

end

/-- Settles O4: a request is a write of the fields of GFM_CTRL, and each row of the table is one case of the boundary. -/
theorem requestsAndRows : Obligations.RequestsAndRows := by
  refine ⟨fun n w s hr hg hrun hm => ⟨exec_gfmRunRequest_idle hr hg hrun hm, exec_gfmStopRequest_running hr hg hrun hm⟩,
    fun n s hdue => ⟨fun hst hturn hreq => ?_, fun hst hstop hreq hsen hc => ?_,
      fun hst hreq hsen hbank hset hM hD hheld hty hmo => ?_⟩⟩
  · have hback : (((s.countPeriod n).undoTurn n).stnOf n).st = .running := by
      rw [State.st_undoTurn]
      simp only [State.stnOf_countPeriod]
      split
      next t ht => exact hturn t ht
      next => exact hst
    rw [State.stationBoundary_rows hdue (by simp [hst]),
      State.serveRows_stop (by simpa using hdue) (by simpa using hst) (by simpa using hreq) hback]
    obtain ⟨hstop, hprev⟩ := ((s.countPeriod n).undoTurn n).st_enterStopping n
    exact ⟨hstop, hprev.trans hback⟩
  · have hstop' : (s.countPeriod n).stopWanted n = false := by simp [State.stopWanted, hstop, hreq, hsen]
    rw [State.stationBoundary_rows hdue (by simp [hst]),
      State.serveRows_startComplete (by simpa using hdue) (by simpa using hst) hstop' (by simpa using hc)]
    exact State.st_enterRunning _ _
  · have hjudge : s.stationBoundary n = (s.countPeriod n).acceptRun n := by
      simp only [State.stationBoundary_eq, State.stnOf_countPeriod, State.countPeriod_reads, hst, hdue, hreq, hsen]
      exact State.judgeRun_accepted hbank hset hM hD hheld
    rw [hjudge]
    exact State.acceptRun_deadBus hty hmo

end Sys2Proof.Machine
end

section
/-! SUPPORT. What the operations that several units share leave as it was: the event log and the triggers of Chest, removals,
trips and held removals. -/

namespace Sys2Proof.Machine

/-- Nothing has changed but registers, memory, and the state of Chest. -/
def ChestFrame (s t : State) : Prop :=
  t = { s with regs := t.regs, mem := t.mem, chest := t.chest, streams := t.streams }

theorem ChestFrame.refl (s : State) : ChestFrame s s := rfl

theorem ChestFrame.trans {a b c : State} (h1 : ChestFrame a b) (h2 : ChestFrame b c) : ChestFrame a c := by
  unfold ChestFrame at *
  rw [h2, h1]

theorem ChestFrame.ite {c : Prop} [Decidable c] {s t u : State} (ht : ChestFrame s t) (hu : ChestFrame s u) :
    ChestFrame s (if c then t else u) := by
  split
  · exact ht
  · exact hu

theorem ChestFrame.forAll {f : Nat → State → State} (h : ∀ i t, ChestFrame t (f i t)) (n : Nat) (s : State) :
    ChestFrame s (s.forAll n f) :=
  forAll_rel ChestFrame .refl (fun _ _ _ => .trans) f h n s

/-- What registers, memory and the state of Chest do not hold is as it was. -/
abbrev OutsideChest (s t : State) : Prop :=
  t.act = s.act ∧ t.holes = s.holes ∧ t.dmemA = s.dmemA ∧ t.dmemB = s.dmemB ∧ t.now = s.now ∧ t.draws = s.draws ∧
  t.grants = s.grants ∧ t.spi = s.spi ∧ t.stn = s.stn ∧ t.pwm = s.pwm ∧ t.hb = s.hb ∧ t.wcomp = s.wcomp ∧ t.inp = s.inp ∧
  t.conv = s.conv ∧ t.pair = s.pair ∧ t.cal = s.cal ∧ t.sdm = s.sdm ∧ t.banksA = s.banksA ∧ t.banksB = s.banksB ∧
  t.serving = s.serving ∧ t.ready = s.ready ∧ t.red = s.red ∧ t.clock = s.clock ∧ t.ptp = s.ptp ∧ t.fw = s.fw ∧
  t.caps = s.caps ∧ t.trigs = s.trigs ∧ t.safe = s.safe ∧ t.safeStn = s.safeStn ∧ t.sin = s.sin ∧ t.sout = s.sout ∧
  t.pendSet = s.pendSet ∧ t.readData = s.readData ∧ t.clk = s.clk ∧ t.dev = s.dev ∧ t.vioA = s.vioA ∧ t.vioB = s.vioB ∧
  t.ports = s.ports ∧ t.shelfSeen = s.shelfSeen ∧ t.shelfFresh = s.shelfFresh ∧ t.dmaCh = s.dmaCh ∧ t.dma = s.dma ∧
  t.cvu = s.cvu ∧ t.mbx = s.mbx ∧ t.otp = s.otp ∧ t.flash = s.flash ∧ t.trust = s.trust ∧ t.boot = s.boot ∧
  t.power = s.power ∧ t.slkPort = s.slkPort ∧ t.slk = s.slk ∧ t.sen = s.sen ∧ t.pending = s.pending ∧
  (∀ m, t.stnOf m = s.stnOf m) ∧ (∀ m, t.pwmOf m = s.pwmOf m) ∧ (∀ m k, t.hbOf m k = s.hbOf m k) ∧
  (∀ m k, t.wcompOf m k = s.wcompOf m k) ∧ (∀ m k, t.inpOf m k = s.inpOf m k) ∧ (∀ m, t.convOf m = s.convOf m) ∧
  (∀ m, t.pairOf m = s.pairOf m) ∧ (∀ m, t.sdmOf m = s.sdmOf m) ∧ (∀ m, t.capOf m = s.capOf m) ∧
  (∀ m, t.trigOf m = s.trigOf m) ∧ (∀ m, t.safeOf m = s.safeOf m) ∧ (∀ m, t.sinOf m = s.sinOf m) ∧
  (∀ m, t.soutOf m = s.soutOf m) ∧ (∀ m, t.portOf m = s.portOf m) ∧ (∀ m, t.chOf m = s.chOf m) ∧
  (∀ m, t.cvuOf m = s.cvuOf m) ∧ (∀ m, t.slotOf m = s.slotOf m) ∧ (∀ m, t.jobOf m = s.jobOf m) ∧
  (∀ m, t.slkPortOf m = s.slkPortOf m) ∧ (∀ m, t.actReg m = s.actReg m) ∧ (∀ g, t.actFld g = s.actFld g) ∧
  (∀ m, t.hole m = s.hole m)

theorem ChestFrame.rest {s t : State} (h : ChestFrame s t) : OutsideChest s t := by
  unfold ChestFrame at h
  rw [h]
  repeat' apply And.intro
  all_goals
    intros
    rfl

/-- Nothing has changed but what a trip changes: registers and settings, memory, stations, half-bridges and Chest. -/
def TripFrame (s t : State) : Prop :=
  t = { s with regs := t.regs, act := t.act, mem := t.mem, stn := t.stn, hb := t.hb, chest := t.chest, streams := t.streams, pendSet := t.pendSet }

theorem TripFrame.refl (s : State) : TripFrame s s := rfl

theorem TripFrame.trans {a b c : State} (h1 : TripFrame a b) (h2 : TripFrame b c) : TripFrame a c := by
  unfold TripFrame at *
  rw [h2, h1]

theorem TripFrame.ite {c : Prop} [Decidable c] {s t u : State} (ht : TripFrame s t) (hu : TripFrame s u) :
    TripFrame s (if c then t else u) := by
  split
  · exact ht
  · exact hu

theorem TripFrame.forAll {f : Nat → State → State} (h : ∀ i t, TripFrame t (f i t)) (n : Nat) (s : State) :
    TripFrame s (s.forAll n f) :=
  forAll_rel TripFrame .refl (fun _ _ _ => .trans) f h n s

/-- What a trip does not change is as it was. -/
abbrev OutsideTrip (s t : State) : Prop :=
  t.holes = s.holes ∧ t.dmemA = s.dmemA ∧ t.dmemB = s.dmemB ∧ t.now = s.now ∧ t.draws = s.draws ∧ t.grants = s.grants ∧
  t.spi = s.spi ∧ t.pwm = s.pwm ∧ t.wcomp = s.wcomp ∧ t.inp = s.inp ∧ t.conv = s.conv ∧ t.pair = s.pair ∧ t.cal = s.cal ∧
  t.sdm = s.sdm ∧ t.banksA = s.banksA ∧ t.banksB = s.banksB ∧ t.serving = s.serving ∧ t.ready = s.ready ∧ t.red = s.red ∧
  t.clock = s.clock ∧ t.ptp = s.ptp ∧ t.fw = s.fw ∧ t.caps = s.caps ∧ t.trigs = s.trigs ∧ t.safe = s.safe ∧
  t.safeStn = s.safeStn ∧ t.sin = s.sin ∧ t.sout = s.sout ∧ t.readData = s.readData ∧ t.clk = s.clk ∧ t.dev = s.dev ∧
  t.vioA = s.vioA ∧ t.vioB = s.vioB ∧ t.ports = s.ports ∧ t.shelfSeen = s.shelfSeen ∧ t.shelfFresh = s.shelfFresh ∧
  t.dmaCh = s.dmaCh ∧ t.dma = s.dma ∧ t.cvu = s.cvu ∧ t.mbx = s.mbx ∧ t.otp = s.otp ∧ t.flash = s.flash ∧
  t.trust = s.trust ∧ t.boot = s.boot ∧ t.power = s.power ∧ t.slkPort = s.slkPort ∧ t.slk = s.slk ∧ t.sen = s.sen ∧
  t.pending = s.pending ∧ (∀ m, t.pwmOf m = s.pwmOf m) ∧ (∀ m k, t.wcompOf m k = s.wcompOf m k) ∧
  (∀ m k, t.inpOf m k = s.inpOf m k) ∧ (∀ m, t.convOf m = s.convOf m) ∧ (∀ m, t.pairOf m = s.pairOf m) ∧
  (∀ m, t.sdmOf m = s.sdmOf m) ∧ (∀ m, t.capOf m = s.capOf m) ∧ (∀ m, t.trigOf m = s.trigOf m) ∧
  (∀ m, t.safeOf m = s.safeOf m) ∧ (∀ m, t.sinOf m = s.sinOf m) ∧ (∀ m, t.soutOf m = s.soutOf m) ∧
  (∀ m, t.portOf m = s.portOf m) ∧ (∀ m, t.chOf m = s.chOf m) ∧ (∀ m, t.cvuOf m = s.cvuOf m) ∧
  (∀ m, t.slotOf m = s.slotOf m) ∧ (∀ m, t.jobOf m = s.jobOf m) ∧ (∀ m, t.slkPortOf m = s.slkPortOf m) ∧
  (∀ m, t.hole m = s.hole m)

theorem TripFrame.rest {s t : State} (h : TripFrame s t) : OutsideTrip s t := by
  unfold TripFrame at h
  rw [h]
  repeat' apply And.intro
  all_goals
    intros
    rfl

/-- Nothing has changed but what a held removal changes: what a trip does, and the safe stations and outputs. -/
def HoldFrame (s t : State) : Prop :=
  t = { s with regs := t.regs, act := t.act, mem := t.mem, stn := t.stn, hb := t.hb, chest := t.chest, streams := t.streams, pendSet := t.pendSet, safeStn := t.safeStn, sout := t.sout }

theorem HoldFrame.refl (s : State) : HoldFrame s s := rfl

theorem HoldFrame.trans {a b c : State} (h1 : HoldFrame a b) (h2 : HoldFrame b c) : HoldFrame a c := by
  unfold HoldFrame at *
  rw [h2, h1]

theorem HoldFrame.ite {c : Prop} [Decidable c] {s t u : State} (ht : HoldFrame s t) (hu : HoldFrame s u) :
    HoldFrame s (if c then t else u) := by
  split
  · exact ht
  · exact hu

theorem HoldFrame.forAll {f : Nat → State → State} (h : ∀ i t, HoldFrame t (f i t)) (n : Nat) (s : State) :
    HoldFrame s (s.forAll n f) :=
  forAll_rel HoldFrame .refl (fun _ _ _ => .trans) f h n s

/-- What a held removal does not change is as it was. -/
abbrev OutsideHold (s t : State) : Prop :=
  t.holes = s.holes ∧ t.dmemA = s.dmemA ∧ t.dmemB = s.dmemB ∧ t.now = s.now ∧ t.draws = s.draws ∧ t.grants = s.grants ∧
  t.spi = s.spi ∧ t.pwm = s.pwm ∧ t.wcomp = s.wcomp ∧ t.inp = s.inp ∧ t.conv = s.conv ∧ t.pair = s.pair ∧ t.cal = s.cal ∧
  t.sdm = s.sdm ∧ t.banksA = s.banksA ∧ t.banksB = s.banksB ∧ t.serving = s.serving ∧ t.ready = s.ready ∧ t.red = s.red ∧
  t.clock = s.clock ∧ t.ptp = s.ptp ∧ t.fw = s.fw ∧ t.caps = s.caps ∧ t.trigs = s.trigs ∧ t.safe = s.safe ∧ t.sin = s.sin ∧
  t.readData = s.readData ∧ t.clk = s.clk ∧ t.dev = s.dev ∧ t.vioA = s.vioA ∧ t.vioB = s.vioB ∧ t.ports = s.ports ∧
  t.shelfSeen = s.shelfSeen ∧ t.shelfFresh = s.shelfFresh ∧ t.dmaCh = s.dmaCh ∧ t.dma = s.dma ∧ t.cvu = s.cvu ∧
  t.mbx = s.mbx ∧ t.otp = s.otp ∧ t.flash = s.flash ∧ t.trust = s.trust ∧ t.boot = s.boot ∧ t.power = s.power ∧
  t.slkPort = s.slkPort ∧ t.slk = s.slk ∧ t.sen = s.sen ∧ t.pending = s.pending ∧ (∀ m, t.pwmOf m = s.pwmOf m) ∧
  (∀ m k, t.wcompOf m k = s.wcompOf m k) ∧ (∀ m k, t.inpOf m k = s.inpOf m k) ∧ (∀ m, t.convOf m = s.convOf m) ∧
  (∀ m, t.pairOf m = s.pairOf m) ∧ (∀ m, t.sdmOf m = s.sdmOf m) ∧ (∀ m, t.capOf m = s.capOf m) ∧
  (∀ m, t.trigOf m = s.trigOf m) ∧ (∀ m, t.sinOf m = s.sinOf m) ∧ (∀ m, t.portOf m = s.portOf m) ∧
  (∀ m, t.chOf m = s.chOf m) ∧ (∀ m, t.cvuOf m = s.cvuOf m) ∧ (∀ m, t.slotOf m = s.slotOf m) ∧
  (∀ m, t.jobOf m = s.jobOf m) ∧ (∀ m, t.slkPortOf m = s.slkPortOf m) ∧ (∀ m, t.hole m = s.hole m)

theorem HoldFrame.rest {s t : State} (h : HoldFrame s t) : OutsideHold s t := by
  unfold HoldFrame at h
  rw [h]
  repeat' apply And.intro
  all_goals
    intros
    rfl

/-- Nothing has changed but half-bridges. -/
def GateFrame (s t : State) : Prop :=
  t = { s with hb := t.hb }

theorem GateFrame.refl (s : State) : GateFrame s s := rfl

theorem GateFrame.trans {a b c : State} (h1 : GateFrame a b) (h2 : GateFrame b c) : GateFrame a c := by
  unfold GateFrame at *
  rw [h2, h1]

theorem GateFrame.ite {c : Prop} [Decidable c] {s t u : State} (ht : GateFrame s t) (hu : GateFrame s u) :
    GateFrame s (if c then t else u) := by
  split
  · exact ht
  · exact hu

theorem GateFrame.forAll {f : Nat → State → State} (h : ∀ i t, GateFrame t (f i t)) (n : Nat) (s : State) :
    GateFrame s (s.forAll n f) :=
  forAll_rel GateFrame .refl (fun _ _ _ => .trans) f h n s

/-- What half-bridges do not hold is as it was. -/
abbrev OutsideGates (s t : State) : Prop :=
  t.regs = s.regs ∧ t.act = s.act ∧ t.mem = s.mem ∧ t.holes = s.holes ∧ t.dmemA = s.dmemA ∧ t.dmemB = s.dmemB ∧
  t.now = s.now ∧ t.draws = s.draws ∧ t.grants = s.grants ∧ t.spi = s.spi ∧ t.stn = s.stn ∧ t.pwm = s.pwm ∧
  t.wcomp = s.wcomp ∧ t.inp = s.inp ∧ t.conv = s.conv ∧ t.pair = s.pair ∧ t.cal = s.cal ∧ t.sdm = s.sdm ∧
  t.banksA = s.banksA ∧ t.banksB = s.banksB ∧ t.serving = s.serving ∧ t.ready = s.ready ∧ t.red = s.red ∧
  t.clock = s.clock ∧ t.ptp = s.ptp ∧ t.fw = s.fw ∧ t.caps = s.caps ∧ t.chest = s.chest ∧ t.streams = s.streams ∧
  t.trigs = s.trigs ∧ t.safe = s.safe ∧ t.safeStn = s.safeStn ∧ t.sin = s.sin ∧ t.sout = s.sout ∧ t.pendSet = s.pendSet ∧
  t.readData = s.readData ∧ t.clk = s.clk ∧ t.dev = s.dev ∧ t.vioA = s.vioA ∧ t.vioB = s.vioB ∧ t.ports = s.ports ∧
  t.shelfSeen = s.shelfSeen ∧ t.shelfFresh = s.shelfFresh ∧ t.dmaCh = s.dmaCh ∧ t.dma = s.dma ∧ t.cvu = s.cvu ∧
  t.mbx = s.mbx ∧ t.otp = s.otp ∧ t.flash = s.flash ∧ t.trust = s.trust ∧ t.boot = s.boot ∧ t.power = s.power ∧
  t.slkPort = s.slkPort ∧ t.slk = s.slk ∧ t.sen = s.sen ∧ t.pending = s.pending ∧ (∀ m, t.stnOf m = s.stnOf m) ∧
  (∀ m, t.pwmOf m = s.pwmOf m) ∧ (∀ m k, t.wcompOf m k = s.wcompOf m k) ∧ (∀ m k, t.inpOf m k = s.inpOf m k) ∧
  (∀ m, t.convOf m = s.convOf m) ∧ (∀ m, t.pairOf m = s.pairOf m) ∧ (∀ m, t.sdmOf m = s.sdmOf m) ∧
  (∀ m, t.capOf m = s.capOf m) ∧ (∀ m, t.streamOf m = s.streamOf m) ∧ (∀ m, t.trigOf m = s.trigOf m) ∧
  (∀ m, t.safeOf m = s.safeOf m) ∧ (∀ m, t.sinOf m = s.sinOf m) ∧ (∀ m, t.soutOf m = s.soutOf m) ∧
  (∀ m, t.portOf m = s.portOf m) ∧ (∀ m, t.chOf m = s.chOf m) ∧ (∀ m, t.cvuOf m = s.cvuOf m) ∧
  (∀ m, t.slotOf m = s.slotOf m) ∧ (∀ m, t.jobOf m = s.jobOf m) ∧ (∀ m, t.slkPortOf m = s.slkPortOf m) ∧
  (∀ m, t.reg m = s.reg m) ∧ (∀ g, t.fld g = s.fld g) ∧ (∀ g, t.flag g = s.flag g) ∧ (∀ g m, t.fldBit g m = s.fldBit g m) ∧
  (∀ m, t.actReg m = s.actReg m) ∧ (∀ g, t.actFld g = s.actFld g) ∧ (∀ m, t.byte m = s.byte m) ∧ (∀ m, t.hole m = s.hole m)

theorem GateFrame.rest {s t : State} (h : GateFrame s t) : OutsideGates s t := by
  unfold GateFrame at h
  rw [h]
  repeat' apply And.intro
  all_goals
    intros
    rfl

theorem ChestFrame.trip {s t : State} (h : ChestFrame s t) : TripFrame s t := by
  unfold ChestFrame at h
  unfold TripFrame
  rw [h]

theorem GateFrame.trip {s t : State} (h : GateFrame s t) : TripFrame s t := by
  unfold GateFrame at h
  unfold TripFrame
  rw [h]

theorem TripFrame.hold {s t : State} (h : TripFrame s t) : HoldFrame s t := by
  unfold TripFrame at h
  unfold HoldFrame
  rw [h]

variable (s : State)

/-! ### The event log and the triggers of Chest (R265, R268 to R271) -/

theorem State.setBytes_chestFrame (a : Nat) (l : List Byte) : ChestFrame s (s.setBytes a l) := by
  unfold ChestFrame
  rw [State.setBytes_eq]

theorem State.setFld_chestFrame (f : Fld) (v : Nat) : ChestFrame s (s.setFld f v) := rfl

theorem State.setFlag_chestFrame (f : Fld) : ChestFrame s (s.setFlag f) := rfl

theorem State.count_chestFrame (f : Fld) : ChestFrame s (s.count f) := rfl

theorem State.setFlagIf_chestFrame (c : Bool) (f : Fld) : ChestFrame s (s.setFlagIf c f) := by
  cases c
  · exact .refl s
  · exact s.setFlag_chestFrame f

theorem State.onStream_chestFrame (k : Nat) (f : ChestStream → ChestStream) : ChestFrame s (s.onStream k f) := rfl

theorem chest_chestFrame (c : ChestUnit) : ChestFrame s { s with chest := c } := rfl

theorem State.logEvent_frame (typ unit index code : Nat) : ChestFrame s (s.logEvent typ unit index code) := by
  unfold State.logEvent
  refine ChestFrame.ite ?_ (.refl s)
  dsimp only
  refine ChestFrame.trans ?_ (State.setFlagIf_chestFrame _ _ _)
  exact (s.setBytes_chestFrame _ _).trans (chest_chestFrame _ _)

theorem State.chestTake_frame (src time : Nat) : ChestFrame s (s.chestTake src time) := by
  unfold State.chestTake
  dsimp only
  generalize hs1 : s.forAll 32 _ = s1
  have hstreams : ChestFrame s s1 := hs1 ▸ ChestFrame.forAll (fun k t => t.onStream_chestFrame k _) 32 s
  refine hstreams.trans ?_
  have htaken := ((chest_chestFrame s1 { s1.chest with
    trigSrc := src, tTrig := time, estAtTrig := s.flag TIM_STATUS_TIME_ESTIMATED }).trans
    (State.setFld_chestFrame _ CHS_STATUS_STATE 2)).trans (State.setFlagIf_chestFrame _ (!s.preFull) CHS_FLAGS_PRE_SHORT)
  split
  · exact htaken.trans (chest_chestFrame _ _)
  · exact htaken

theorem State.chestRecognise_frame (src time : Nat) : ChestFrame s (s.chestRecognise src time) := by
  have hmissed (f : Fld) : ChestFrame s ((s.count f).setFlag CHS_FLAGS_TRG_MISSED) := rfl
  unfold State.chestRecognise
  split
  · exact ChestFrame.ite (hmissed _) (s.chestTake_frame src time)
  · exact hmissed _
  · exact hmissed _
  · exact .refl s

theorem State.chestTrigger_frame (src time : Nat) : ChestFrame s (s.chestTrigger src time) := by
  unfold State.chestTrigger
  refine ChestFrame.ite (.refl s) (ChestFrame.ite (ChestFrame.ite (chest_chestFrame _ _) (.refl s)) ?_)
  exact (s.chestRecognise_frame src time).trans (chest_chestFrame _ _)

theorem State.chestEvent_frame (typ src : Nat) (any : Option Nat) : ChestFrame s (s.chestEvent typ src any) := by
  unfold State.chestEvent
  split
  · exact s.chestTrigger_frame _ _
  · exact .refl s

@[simp] theorem State.logEvent_outside (typ unit index code : Nat) : OutsideChest s (s.logEvent typ unit index code) :=
  (s.logEvent_frame typ unit index code).rest

@[simp] theorem State.chestTake_outside (src time : Nat) : OutsideChest s (s.chestTake src time) :=
  (s.chestTake_frame src time).rest

@[simp] theorem State.chestTrigger_outside (src time : Nat) : OutsideChest s (s.chestTrigger src time) :=
  (s.chestTrigger_frame src time).rest

@[simp] theorem State.chestEvent_outside (typ src : Nat) (any : Option Nat) : OutsideChest s (s.chestEvent typ src any) :=
  (s.chestEvent_frame typ src any).rest

/-! ### Removals and trips (R187, R190, R339) -/

theorem State.onHb_gateFrame (n k : Nat) (f : HalfBridge → HalfBridge) : GateFrame s (s.onHb n k f) := rfl

theorem State.dropGates_gateFrame (n : Nat) : GateFrame s (s.dropGates n) :=
  GateFrame.forAll (fun _ t => GateFrame.ite (t.onHb_gateFrame _ _ _) (.refl t)) 12 s

@[simp] theorem State.dropGates_outside (n : Nat) : OutsideGates s (s.dropGates n) := (s.dropGates_gateFrame n).rest

theorem State.onStn_tripFrame (n : Nat) (f : Stn → Stn) : TripFrame s (s.onStn n f) := rfl

theorem State.setBoth_tripFrame (a : Nat) (w : Word) : TripFrame s (s.setBoth a w) := rfl

theorem State.setReg_tripFrame (a : Nat) (w : Word) : TripFrame s (s.setReg a w) := rfl

theorem State.addCauses_tripFrame (n : Nat) (codes : List Nat) : TripFrame s (s.addCauses n codes) := by
  unfold State.addCauses
  exact s.setReg_tripFrame (GFM_TRIP_CAUSE n) _

theorem State.calmLimits_tripFrame (n : Nat) : TripFrame s (s.calmLimits n) := by
  unfold State.calmLimits State.onCores State.onLim
  exact TripFrame.trans (s.onStn_tripFrame n _) (State.onStn_tripFrame _ n _)

theorem State.backFld_tripFrame (f : Option Fld) (x : Nat) : TripFrame s (s.backFld f x) := by
  cases f
  · exact .refl s
  · exact (s.setFld_chestFrame _ _).trip

theorem pendSet_tripFrame (l : List (Nat × Word)) : TripFrame s { s with pendSet := l } := rfl

theorem State.applySettings_frame : TripFrame s s.applySettings :=
  (pendSet_tripFrame s _).trans
    (foldl_rel TripFrame .refl (fun _ _ _ => .trans) _ (fun (t : State) (e : Nat × Word) => t.setBoth_tripFrame e.1 e.2) _ _)

theorem State.setSt_frame (n : Nat) (st : StnState) : TripFrame s (s.setSt n st) := by
  rw [State.setSt_eq]
  exact TripFrame.ite ((s.onStn_tripFrame n _).trans (State.applySettings_frame _)) (s.onStn_tripFrame n _)

theorem State.undoTurn_frame (n : Nat) : TripFrame s (s.undoTurn n) := by
  unfold State.undoTurn
  dsimp only
  split
  · exact .refl s
  · exact ((s.onStn_tripFrame n _).trans (State.backFld_tripFrame _ _ _)).trans (State.backFld_tripFrame _ _ _)

theorem State.enterTripped_frame (n : Nat) (within : Bool) : TripFrame s (s.enterTripped n within) := by
  unfold State.enterTripped
  dsimp only
  refine (s.undoTurn_frame n).trans ?_
  generalize s.undoTurn n = t
  refine TripFrame.ite (t.onStn_tripFrame n _) (TripFrame.ite ?_ ?_)
  · exact (TripFrame.ite (t.addCauses_tripFrame n _) (.refl t)).trans (State.onStn_tripFrame _ n _)
  · refine TripFrame.trans ?_ (State.chestEvent_frame _ _ _ _).trip
    refine TripFrame.trans ?_ (State.logEvent_frame _ _ _ _ _).trip
    refine TripFrame.trans ?_ (State.calmLimits_tripFrame _ n)
    refine TripFrame.trans ?_ (State.dropGates_gateFrame _ n).trip
    refine TripFrame.trans ?_ (State.setReg_tripFrame _ _ _)
    refine TripFrame.trans ?_ (State.onStn_tripFrame _ n _)
    exact (t.setSt_frame n .tripped).trans (State.onStn_tripFrame _ n _)

theorem State.tripSoon_frame (n code : Nat) : TripFrame s (s.tripSoon n code) := by
  unfold State.tripSoon
  dsimp only
  refine TripFrame.ite (.refl s) (TripFrame.ite (s.addCauses_tripFrame n _) ?_)
  exact TripFrame.ite (s.onStn_tripFrame n _) ((s.onStn_tripFrame n _).trans (State.enterTripped_frame _ _ _))

theorem State.onSafe_holdFrame (n : Nat) (f : SafeStn → SafeStn) : HoldFrame s (s.onSafe n f) := rfl

theorem State.onSout_holdFrame (n : Nat) (f : SoutOut → SoutOut) : HoldFrame s (s.onSout n f) := rfl

theorem State.lowboyFollow_frame (n : Nat) : HoldFrame s (s.lowboyFollow n) :=
  (s.onSafe_holdFrame n _).trans (State.dropGates_gateFrame _ n).trip.hold

theorem State.tripNow_frame (n code : Nat) : HoldFrame s (s.tripNow n code) := by
  unfold State.tripNow
  refine HoldFrame.ite (.refl s) (HoldFrame.trans ?_ (State.enterTripped_frame _ _ _).hold)
  exact (s.onStn_tripFrame n _).hold.trans (State.lowboyFollow_frame _ n)

@[simp] theorem State.applySettings_outside : OutsideTrip s s.applySettings := s.applySettings_frame.rest

@[simp] theorem State.setSt_outside (n : Nat) (st : StnState) : OutsideTrip s (s.setSt n st) := (s.setSt_frame n st).rest

@[simp] theorem State.undoTurn_outside (n : Nat) : OutsideTrip s (s.undoTurn n) := (s.undoTurn_frame n).rest

@[simp] theorem State.enterTripped_outside (n : Nat) (within : Bool) : OutsideTrip s (s.enterTripped n within) :=
  (s.enterTripped_frame n within).rest

@[simp] theorem State.tripSoon_outside (n code : Nat) : OutsideTrip s (s.tripSoon n code) := (s.tripSoon_frame n code).rest

@[simp] theorem State.tripNow_outside (n code : Nat) : OutsideHold s (s.tripNow n code) := (s.tripNow_frame n code).rest

end Sys2Proof.Machine
end

section
/-! SUPPORT. An operation over all units at one of them, half-bridges after a removal, and stations after a trip. -/

namespace Sys2Proof.Machine

/-! ### An operation over all units, observed at one -/

/-- Where the work on other units does not show in what is observed of unit k, the observation after the work on all units is
the one after the work on k, in a state that the work on the others led to. -/
theorem State.forAll_at {α : Type} (R : State → State → Prop) (hr : ∀ s, R s s) (ht : ∀ a b c, R a b → R b c → R a c)
    {f : Nat → State → State} (hR : ∀ i t, R t (f i t)) (obs : State → α) {k : Nat}
    (hother : ∀ i t, i ≠ k → obs (f i t) = obs t) {n : Nat} (hk : k < n) (s : State) :
    ∃ t, R s t ∧ obs t = obs s ∧ obs (s.forAll n f) = obs (f k t) := by
  have hbefore (m : Nat) (hm : m ≤ k) : obs (s.forAll m f) = obs s := by
    induction m with
    | zero => rfl
    | succ m ih => exact (hother m _ (by omega)).trans (ih (by omega))
  have hafter (m : Nat) (hm : k < m) : obs (s.forAll m f) = obs (f k (s.forAll k f)) := by
    induction m with
    | zero => omega
    | succ m ih =>
      rcases Nat.lt_succ_iff_lt_or_eq.mp hm with h | rfl
      · exact (hother m _ (by omega)).trans (ih h)
      · rfl
  exact ⟨s.forAll k f, forAll_rel R hr ht f hR k s, hbefore k le_rfl, hafter n hk⟩

theorem State.fld_of_reg {s t : State} {f : Fld} (h : t.reg f.addr = s.reg f.addr) : t.fld f = s.fld f := by
  simp only [State.fld, h]

theorem State.flag_of_reg {s t : State} {f : Fld} (h : t.reg f.addr = s.reg f.addr) : t.flag f = s.flag f := by
  simp only [State.flag, State.fld_of_reg h]

theorem State.fldBit_of_reg {s t : State} {f : Fld} (i : Nat) (h : t.reg f.addr = s.reg f.addr) : t.fldBit f i = s.fldBit f i := by
  simp only [State.fldBit, h]

/-! ### Fields of given places: their bounds are computed -/

theorem State.flag_setFlag (s : State) (f : Fld) (hw : Nat.ble (f.lo + f.w) 32 = true := by rfl) (h : Nat.ble 1 f.w = true := by rfl) :
    (s.setFlag f).flag f = true :=
  State.flag_setFlag_self s (Nat.le_of_ble_eq_true hw) (Nat.le_of_ble_eq_true h)

theorem State.fld_setFld (s : State) (f : Fld) {v m : Nat} (h : v < m) (hm : 2 ^ f.w = m := by rfl)
    (hw : Nat.ble (f.lo + f.w) 32 = true := by rfl) : (s.setFld f v).fld f = v :=
  (s.fld_setFld_self v (Nat.le_of_ble_eq_true hw)).trans (Nat.mod_eq_of_lt (hm ▸ h))

theorem State.fld_setFld_elsewhere (s : State) (f g : Fld) (v : Nat) (hw : Nat.ble (f.lo + f.w) 32 = true := by rfl)
    (h : (Nat.ble (g.lo + g.w) f.lo || Nat.ble (f.lo + f.w) g.lo) = true := by rfl) : (s.setFld f v).fld g = s.fld g :=
  s.fld_setFld_ne v (Nat.le_of_ble_eq_true hw) ((Bool.or_eq_true_iff.mp h).imp Nat.le_of_ble_eq_true Nat.le_of_ble_eq_true)

theorem State.flag_setFld_elsewhere (s : State) (f g : Fld) (v : Nat) (hw : Nat.ble (f.lo + f.w) 32 = true := by rfl)
    (h : (Nat.ble (g.lo + g.w) f.lo || Nat.ble (f.lo + f.w) g.lo) = true := by rfl) : (s.setFld f v).flag g = s.flag g := by
  simp only [State.flag, s.fld_setFld_elsewhere f g v hw h]

theorem State.flag_setFld_addr (s : State) {f g : Fld} (v : Nat) (h : g.addr ≠ f.addr) : (s.setFld f v).flag g = s.flag g := by
  simp only [State.flag, s.fld_setFld_addr v h]

theorem State.fld_count (s : State) (f : Fld) {m : Nat} (h : s.fld f < m) (hm : 2 ^ f.w - 1 = m := by rfl)
    (hw : Nat.ble (f.lo + f.w) 32 = true := by rfl) : (s.count f).fld f = s.fld f + 1 := by
  rw [s.fld_count_self (Nat.le_of_ble_eq_true hw), hm]
  exact Nat.min_eq_left h

theorem State.fld_count_addr (s : State) {f g : Fld} (h : g.addr ≠ f.addr) : (s.count f).fld g = s.fld g :=
  s.fld_setFld_addr _ h

theorem State.flag_count_addr (s : State) {f g : Fld} (h : g.addr ≠ f.addr) : (s.count f).flag g = s.flag g :=
  s.flag_setFld_addr _ h

theorem State.reg_setFldBit_ne (s : State) {f : Fld} {a : Nat} (i : Nat) (b : Bool) (h : a ≠ f.addr) : (s.setFldBit f i b).reg a = s.reg a :=
  s.reg_setReg_ne _ h

theorem State.reg_onHb (s : State) (n k : Nat) (f : HalfBridge → HalfBridge) (a : Nat) : (s.onHb n k f).reg a = s.reg a := rfl

theorem State.flag_onPwm (s : State) (n : Nat) (f : PwmUnit → PwmUnit) (g : Fld) : (s.onPwm n f).flag g = s.flag g := rfl

theorem State.fld_onPort (s : State) (q : Nat) (f : PortUnit → PortUnit) (g : Fld) : (s.onPort q f).fld g = s.fld g := rfl

theorem State.reg_setActFld (s : State) (f : Fld) (v a : Nat) : (s.setActFld f v).reg a = s.reg a := rfl

variable (s : State)

/-! ### The event log and the triggers of Chest write registers of Chest only (block 0x1D) -/

theorem State.reg_setFlagIf_ne (c : Bool) {f : Fld} {a : Nat} (h : a ≠ f.addr) : (s.setFlagIf c f).reg a = s.reg a := by
  cases c
  · rfl
  · exact State.reg_setFld_ne s 1 h

theorem State.reg_count_ne {f : Fld} {a : Nat} (h : a ≠ f.addr) : (s.count f).reg a = s.reg a :=
  State.reg_setFld_ne s _ h

/-- An entry of the event log may set EVLOG_WRAP, and writes no other register. -/
theorem State.reg_logEvent_ne {a : Nat} (ha : a ≠ CHS_FLAGS) (typ unit index code : Nat) :
    (s.logEvent typ unit index code).reg a = s.reg a := by
  have hlogged (x : Nat) (l : List Byte) (c : ChestUnit) (on : Bool) :
      (({ s.setBytes x l with chest := c } : State).setFlagIf on CHS_FLAGS_EVLOG_WRAP).reg a = s.reg a :=
    (State.reg_setFlagIf_ne _ _ ha).trans (congrArg (tget regReset · a) (s.setBytes_rest x l).1)
  unfold State.logEvent
  exact (apply_ite (fun t => State.reg t a) _ _ _).trans ((ite_congr rfl (fun _ => hlogged _ _ _ _) (fun _ => rfl)).trans (ite_self _))

section
variable {a : Nat} (ha : a / 0x10000 ≠ 0x1D)
include ha

theorem State.reg_logEvent (typ unit index code : Nat) : (s.logEvent typ unit index code).reg a = s.reg a :=
  s.reg_logEvent_ne (by rintro rfl; exact ha rfl) typ unit index code

theorem State.reg_chestTake (src time : Nat) : (s.chestTake src time).reg a = s.reg a := by
  have hstatus : a ≠ CHS_STATUS_STATE.addr := by rintro rfl; exact ha rfl
  have hflags : a ≠ CHS_FLAGS_PRE_SHORT.addr := by rintro rfl; exact ha rfl
  have hstreams (f : Nat → State → State) (hf : ∀ k t, (f k t).reg a = t.reg a) (n : Nat) : (s.forAll n f).reg a = s.reg a :=
    forAll_rel (fun b c => c.reg a = b.reg a) (fun _ => rfl) (fun _ _ _ h h' => h'.trans h) f hf n s
  have htaken (t : State) (c : Bool) : ((t.setFld CHS_STATUS_STATE 2).setFlagIf c CHS_FLAGS_PRE_SHORT).reg a = t.reg a :=
    (State.reg_setFlagIf_ne _ _ hflags).trans (t.reg_setFld_ne 2 hstatus)
  unfold State.chestTake
  dsimp only
  generalize hs1 : s.forAll 32 _ = s1
  have hreg : s1.reg a = s.reg a := by
    rw [← hs1]
    refine hstreams _ (fun k t => ?_) 32
    rfl
  have hchest (t : State) (c : ChestUnit) : ({ t with chest := c } : State).reg a = t.reg a := rfl
  split
  · rw [hchest, htaken, hchest, hreg]
  · rw [htaken, hchest, hreg]

theorem State.reg_chestRecognise (src time : Nat) : (s.chestRecognise src time).reg a = s.reg a := by
  have hmissed {f : Fld} (hf : a ≠ f.addr) : ((s.count f).setFlag CHS_FLAGS_TRG_MISSED).reg a = s.reg a :=
    (State.reg_setFld_ne _ _ (by rintro rfl; exact ha rfl)).trans (s.reg_count_ne hf)
  unfold State.chestRecognise
  split
  · split
    · exact hmissed (by rintro rfl; exact ha rfl)
    · exact s.reg_chestTake ha src time
  · exact hmissed (by rintro rfl; exact ha rfl)
  · exact hmissed (by rintro rfl; exact ha rfl)
  · rfl

theorem State.reg_chestTrigger (src time : Nat) : (s.chestTrigger src time).reg a = s.reg a := by
  unfold State.chestTrigger
  split
  · rfl
  · split
    · split <;> rfl
    · exact s.reg_chestRecognise ha src time

theorem State.reg_chestEvent (typ src : Nat) (any : Option Nat) : (s.chestEvent typ src any).reg a = s.reg a := by
  unfold State.chestEvent
  split
  · exact s.reg_chestTrigger ha _ _
  · rfl

end

/-! ### Half-bridges after a removal (R187) -/

/-- What a removal leaves of half-bridge k: it goes dark where its enable, or the permit of its test, is gone. -/
theorem State.hbOf_dropGates (n : Nat) {k : Nat} (hk : k < 12) : (s.dropGates n).hbOf n k =
    if ((s.hbOf n k).eff && !s.effEnable n k) || ((s.hbOf n k).test.isSome && !s.permit n) then (s.hbOf n k).dark
    else s.hbOf n k := by
  obtain ⟨t, hframe, hobs, hdrop⟩ := State.forAll_at GateFrame .refl (fun _ _ _ => .trans)
    (f := fun k t => if ((t.hbOf n k).eff && !t.effEnable n k) || ((t.hbOf n k).test.isSome && !t.permit n)
      then t.onHb n k HalfBridge.dark else t)
    (fun _ t => GateFrame.ite (t.onHb_gateFrame _ _ _) (.refl t)) (fun t => t.hbOf n k)
    (fun i t hi => by
      split
      · exact t.hbOf_onHb_ne _ hi.symm
      · rfl) hk s
  unfold GateFrame at hframe
  have heff : t.effEnable n k = s.effEnable n k := by rw [hframe]; rfl
  have hpermit : t.permit n = s.permit n := by rw [hframe]; rfl
  unfold State.dropGates
  rw [hdrop, hobs, heff, hpermit]
  split
  · rw [State.hbOf_onHb, hobs]
  · exact hobs

theorem State.eff_dropGates {n k : Nat} (hk : k < 12) (h : s.effEnable n k = false) : ((s.dropGates n).hbOf n k).eff = false := by
  rw [s.hbOf_dropGates n hk, h]
  split
  · rfl
  · simp_all

/-! ### A station after a trip (R77, R121, R123) -/

theorem State.stnOf_applySettings (n : Nat) : s.applySettings.stnOf n = s.stnOf n :=
  foldl_rel (fun a b => b.stnOf n = a.stnOf n) (fun _ => rfl) (fun _ _ _ h h' => h'.trans h)
    (fun (t : State) (e : Nat × Word) => t.setBoth e.1 e.2) (fun _ _ => rfl) _ _

@[simp] theorem State.stnOf_setSt (n : Nat) (st : StnState) : (s.setSt n st).stnOf n = (s.stnOf n).moveTo st := by
  rw [State.setSt_eq]
  split
  · simp [State.stnOf_applySettings]
  · simp

/-- The move to TRIPPED with the causes found, before it is logged. -/
def State.moveTripped (s : State) (n : Nat) (within : Bool) : State :=
  let s1 := (s.setSt n .tripped).onStn n (fun u =>
    { u with
      trips := [], tripDue := false, tripAt := if within then some u.count else none, start := {}, stopReq := false,
      olvBack := false })
  let s2 := s1.onStn n (fun v => { v with tripHigh := (s.stnOf n).enHigh })
  ((s2.setReg (GFM_TRIP_CAUSE n) (tripWord (s.stnOf n).trips)).dropGates n).calmLimits n

/-- Where causes wait, the change of the period is taken back and the state moves to TRIPPED. -/
theorem State.enterTripped_moves (n : Nat) (within : Bool) (htrips : ((s.undoTurn n).stnOf n).trips ≠ [])
    (hdis : ((s.undoTurn n).stnOf n).st ≠ .disabled) (htr : ((s.undoTurn n).stnOf n).st ≠ .tripped) :
    s.enterTripped n within = (((s.undoTurn n).moveTripped n within).logEvent 3 n 0
      (tripWord ((s.undoTurn n).stnOf n).trips).toNat).chestEvent 5 n (some 4) := by
  simp [State.enterTripped, State.moveTripped, htrips, hdis, htr]

section
variable (n : Nat) (within : Bool)

theorem State.stnOf_calmLimits : ∃ c l b, (s.calmLimits n).stnOf n = { s.stnOf n with core := c, lim := l, sby := b } := by
  refine ⟨((s.calmLimits n).stnOf n).core, ((s.calmLimits n).stnOf n).lim, ((s.calmLimits n).stnOf n).sby, ?_⟩
  simp [State.calmLimits, State.onCores]

theorem State.stnOf_moveTripped : ((s.moveTripped n within).stnOf n).st = .tripped ∧
    ((s.moveTripped n within).stnOf n).prev = (s.stnOf n).st ∧ ((s.moveTripped n within).stnOf n).enHigh = false := by
  unfold State.moveTripped
  dsimp only
  obtain ⟨c, l, b, h⟩ := State.stnOf_calmLimits _ n
  rw [h]
  simp [Stn.enHigh]

theorem State.eff_moveTripped {k : Nat} (hk : k < 12) : ((s.moveTripped n within).hbOf n k).eff = false := by
  unfold State.moveTripped
  dsimp only
  rw [show ∀ t : State, (t.calmLimits n).hbOf n k = t.hbOf n k from fun _ => rfl]
  apply State.eff_dropGates _ hk
  simp [State.effEnable, Stn.enHigh]

theorem State.reg_moveTripped : (s.moveTripped n within).reg (GFM_TRIP_CAUSE n) = tripWord (s.stnOf n).trips := by
  unfold State.moveTripped
  dsimp only
  rw [show ∀ t : State, (t.calmLimits n).reg (GFM_TRIP_CAUSE n) = t.reg (GFM_TRIP_CAUSE n) from fun _ => rfl]
  simp

theorem State.reg_moveTripped_ne (h : s.pendSet = []) {a : Nat} (ha : a ≠ GFM_TRIP_CAUSE n) :
    (s.moveTripped n within).reg a = s.reg a := by
  unfold State.moveTripped
  dsimp only
  rw [show ∀ t : State, (t.calmLimits n).reg a = t.reg a from fun _ => rfl, s.setSt_of_nil _ h]
  simp [State.reg_setReg_ne _ _ ha]

end

theorem State.undoTurn_of_none {n : Nat} (h : (s.stnOf n).turn = none) : s.undoTurn n = s := by
  simp [State.undoTurn, h]

theorem State.trips_undoTurn (n : Nat) : ((s.undoTurn n).stnOf n).trips = (s.stnOf n).trips := by
  have hback (t : State) (f : Option Fld) (x : Nat) : (t.backFld f x).stnOf n = t.stnOf n := by cases f <;> rfl
  simp only [State.undoTurn]
  split
  · rfl
  · simp [hback]

theorem tripWord_one {code : Nat} (h : 1 ≤ code) : tripWord [code] = BitVec.ofNat 32 (code + 2 ^ (code - 1) * 65536) := by
  simp [tripWord]

/-! ### A trip at once (R121, R187) -/

section
variable (n code : Nat)

/-- The state that a trip at once enters TRIPPED from: the cause is noted and the permit is gone. -/
def State.noteTrip (s : State) (n code : Nat) : State :=
  (s.onStn n (fun u => { u with trips := code :: u.trips })).lowboyFollow n

theorem State.tripNow_eq (h : (s.stnOf n).st ≠ .disabled) :
    s.tripNow n code = (s.noteTrip n code).enterTripped n (s.pwmOf n).run := by
  simp [State.tripNow, State.noteTrip, h]

@[simp] theorem State.stnOf_noteTrip :
    (s.noteTrip n code).stnOf n = { s.stnOf n with trips := code :: (s.stnOf n).trips } := by
  simp [State.noteTrip, State.lowboyFollow]

@[simp] theorem State.noteTrip_reads : (∀ a, (s.noteTrip n code).reg a = s.reg a) ∧ (s.noteTrip n code).pendSet = s.pendSet := by
  simp [State.noteTrip, State.lowboyFollow]

/-- A trip with no change to take back: one move to TRIPPED, and the rest is the log's. -/
theorem State.tripNow_of_none (hturn : (s.stnOf n).turn = none) (hdis : (s.stnOf n).st ≠ .disabled)
    (htr : (s.stnOf n).st ≠ .tripped) : s.tripNow n code =
      (((s.noteTrip n code).moveTripped n (s.pwmOf n).run).logEvent 3 n 0 (tripWord (code :: (s.stnOf n).trips)).toNat).chestEvent
        5 n (some 4) := by
  have hnone : (s.noteTrip n code).undoTurn n = s.noteTrip n code := State.undoTurn_of_none _ (by simp [hturn])
  rw [s.tripNow_eq n code hdis, State.enterTripped_moves _ n _ (by simp [hnone]) (by simp [hnone, hdis]) (by simp [hnone, htr]), hnone]
  simp

end

end Sys2Proof.Machine
end

section
/-! O2: what a trip, a failed start, a cleared fault and a limiter force leave. -/

namespace Sys2Proof.Machine

variable (s : State)

/-! ### A failed start (R71) -/

section
variable {n : Nat} (r : Nat)

theorem State.reg_tripNow {code : Nat} (hturn : (s.stnOf n).turn = none) (hdis : (s.stnOf n).st ≠ .disabled)
    (htr : (s.stnOf n).st ≠ .tripped) (hset : s.pendSet = []) {a : Nat} (ha : a / 0x10000 ≠ 0x1D) (hc : a ≠ GFM_TRIP_CAUSE n) :
    (s.tripNow n code).reg a = s.reg a := by
  rw [s.tripNow_of_none n code hturn hdis htr, State.reg_chestEvent _ ha, State.reg_logEvent _ ha,
    State.reg_moveTripped_ne _ _ _ (by simpa using hset) hc]
  simp

theorem State.stnOf_tripNow {code : Nat} (hturn : (s.stnOf n).turn = none) (hdis : (s.stnOf n).st ≠ .disabled)
    (htr : (s.stnOf n).st ≠ .tripped) : ((s.tripNow n code).stnOf n).st = .tripped ∧
      ((s.tripNow n code).stnOf n).prev = (s.stnOf n).st ∧ ((s.tripNow n code).stnOf n).enHigh = false := by
  rw [s.tripNow_of_none n code hturn hdis htr]
  simpa using (s.noteTrip n code).stnOf_moveTripped n (s.pwmOf n).run

/-- The state that a failed start trips from. -/
def State.noteFail (s : State) (n r : Nat) : State :=
  (s.setFld (GFM_START_STATUS_FAIL_REASON n) r).setFlag (GFM_SBS_FLAGS_START_FAIL n)

@[simp] theorem State.noteFail_reads : (∀ m, (s.noteFail n r).stnOf m = s.stnOf m) ∧ (s.noteFail n r).pendSet = s.pendSet := by
  simp [State.noteFail]

theorem State.fld_noteFail (h : r < 16) : (s.noteFail n r).fld (GFM_START_STATUS_FAIL_REASON n) = r :=
  (State.fld_setFld_addr _ 1 (by
    simp only [GFM_START_STATUS_FAIL_REASON, GFM_START_STATUS, GFM_SBS_FLAGS_START_FAIL, GFM_SBS_FLAGS]
    omega)).trans (s.fld_setFld _ (m := 256) (by omega))

theorem State.flag_noteFail : (s.noteFail n r).flag (GFM_SBS_FLAGS_START_FAIL n) = true :=
  State.flag_setFlag _ _

end

/-! ### A fault cleared (R123) -/

theorem State.flag_enterRunning {n : Nat} (h : (s.stnOf n).st = .limiting ∨ (s.stnOf n).st = .rideThrough) :
    (s.enterRunning n).flag (GFM_FRT_FLAGS_CLEARED n) = true := by
  have hfault : ((s.stnOf n).st == .limiting || (s.stnOf n).st == .rideThrough) = true := by simpa using h
  unfold State.enterRunning
  dsimp only
  rw [hfault, State.setFlagIf_true]
  exact State.flag_setFlag _ _

/-! ### A level forced by the limiter (R112) -/

theorem HalfBridge.filt_edge (h : HalfBridge) (lv : Bool) :
    (h.edge lv).filt = lv ∧ (h.edge lv).force = h.force ∧ (h.edge lv).pend = h.pend := by
  cases lv <;> cases he : h.eff <;> simp [HalfBridge.edge, he]

/-- The half-bridge with its level forced. -/
def HalfBridge.forced (h : HalfBridge) (lv : Bool) : HalfBridge :=
  if h.filt == lv then { h with force := some lv, pend := [] } else ({ h with force := some lv, pend := [] } : HalfBridge).edge lv

theorem HalfBridge.forced_level (h : HalfBridge) (lv : Bool) :
    (h.forced lv).filt = lv ∧ (h.forced lv).force = some lv ∧ (h.forced lv).pend = [] := by
  unfold HalfBridge.forced
  split
  · simp_all
  · simp [HalfBridge.filt_edge]

section
variable {n k : Nat} (lv : Bool) (hen : (s.stnOf n).enHigh = true) (hk : k < 12)
include hen hk

/-- A force sets the level and HWLIM; the rest is one count, and its note, of the period's first force. -/
theorem State.forceHb_eq : s.forceHb n k lv =
    let t := (s.onHb n k (fun h => h.forced lv)).setFlag (GFM_FRT_FLAGS_HWLIM n)
    if (s.pwmOf n).forcedNow then t
    else (t.count (GFM_FRT_CNT0_HWLIM_CNT n)).onPwm n (fun p => { p with forcedNow := true }) := by
  simp [State.forceHb, HalfBridge.forced, hen, hk]

theorem State.forceHb_hb : (s.forceHb n k lv).hb = (s.onHb n k (fun h => h.forced lv)).hb := by
  rw [State.forceHb_eq _ _ hen hk]
  dsimp only
  split <;> simp

theorem State.flag_forceHb : (s.forceHb n k lv).flag (GFM_FRT_FLAGS_HWLIM n) = true := by
  rw [State.forceHb_eq _ _ hen hk]
  dsimp only
  split
  · exact State.flag_setFlag _ _
  · refine (State.flag_onPwm _ n _ (GFM_FRT_FLAGS_HWLIM n)).trans ((State.flag_count_addr _ ?_).trans (State.flag_setFlag _ _))
    simp only [GFM_FRT_CNT0_HWLIM_CNT, GFM_FRT_CNT0, GFM_FRT_FLAGS_HWLIM, GFM_FRT_FLAGS]
    omega

theorem State.hbOf_forceHb : (s.forceHb n k lv).hbOf n k = (s.hbOf n k).forced lv := by
  have h := congrArg (tget (fun _ => {}) · (12 * n + k)) (s.forceHb_hb lv hen hk)
  exact h.trans (s.hbOf_onHb n k _)

theorem State.hbOf_forceHb_ne {j : Nat} (hj : j ≠ k) : (s.forceHb n k lv).hbOf n j = s.hbOf n j := by
  have h := congrArg (tget (fun _ => {}) · (12 * n + j)) (s.forceHb_hb lv hen hk)
  exact h.trans (s.hbOf_onHb_ne _ hj)

end

/-- Settles O2: each clause is what its operation leaves of the station, its registers and its half-bridges. -/
theorem tripsAndFailedStarts : Obligations.TripsAndFailedStarts := by
  refine ⟨?_, ⟨?_, ?_⟩, ?_, ?_⟩
  · intro n s r hr hset hturn hdis htr
    have hst := (s.noteFail n r).stnOf_tripNow (code := 11) (n := n) (by simpa) (by simpa) (by simpa)
    have hreg (a : Nat) (ha : a / 0x10000 ≠ 0x1D) (hc : a ≠ GFM_TRIP_CAUSE n) :=
      (s.noteFail n r).reg_tripNow (code := 11) (n := n) (by simpa) (by simpa) (by simpa) (by simpa) ha hc
    have hn := n.isLt
    refine ⟨hst.1, hst.2.1.trans (by simp), ?_, ?_, fun k => ?_⟩
    · refine (State.fld_of_reg (hreg _ ?_ ?_)).trans (s.fld_noteFail r hr) <;>
        (simp only [GFM_START_STATUS_FAIL_REASON, GFM_START_STATUS, GFM_TRIP_CAUSE]; omega)
    · refine (State.flag_of_reg (hreg _ ?_ ?_)).trans (s.flag_noteFail r) <;>
        (simp only [GFM_SBS_FLAGS_START_FAIL, GFM_SBS_FLAGS, GFM_TRIP_CAUSE]; omega)
    · have hlow : ((s.failStart n r).stnOf n).enHigh = false := hst.2.2
      simp [State.effEnable, hlow]
  · intro n s code h1 _ hset htrips hturn hdis htr
    have hst := s.stnOf_tripNow (code := code) hturn hdis htr
    have hn := n.isLt
    have hpage : GFM_TRIP_CAUSE n / 0x10000 ≠ 0x1D := by
      simp only [GFM_TRIP_CAUSE]
      omega
    refine ⟨hst.1, hst.2.1, ?_, fun k hk => ?_⟩
    · rw [s.tripNow_of_none n code hturn hdis htr, State.reg_chestEvent _ hpage, State.reg_logEvent _ hpage, State.reg_moveTripped,
        State.stnOf_noteTrip, htrips, tripWord_one h1]
    · rw [s.tripNow_of_none n code hturn hdis htr]
      simpa using (s.noteTrip n code).eff_moveTripped n (s.pwmOf n).run hk
  · intro n s code t hturn hdis htr hst
    have hback := (s.noteTrip n code).st_undoTurn n
    simp only [State.stnOf_noteTrip, hturn] at hback
    rw [s.tripNow_eq n code hst, State.enterTripped_moves _ n _ (by simp [State.trips_undoTurn]) (by rwa [hback]) (by rwa [hback])]
    have h := ((s.noteTrip n code).undoTurn n).stnOf_moveTripped n (s.pwmOf n).run
    rw [hback] at h
    simpa using ⟨h.1, h.2.1⟩
  · exact fun n s h => ⟨s.st_enterRunning n, s.flag_enterRunning h⟩
  · intro n k lv s hen
    rw [s.hbOf_forceHb lv hen k.isLt]
    obtain ⟨hf, hforce, hpend⟩ := (s.hbOf n k).forced_level lv
    exact ⟨hf, hforce, hpend, s.flag_forceHb lv hen k.isLt, fun j _ hj => s.hbOf_forceHb_ne lv hen k.isLt hj⟩

end Sys2Proof.Machine
end

section
/-! O19: the first latch of a station. -/

namespace Sys2Proof.Machine

variable (s : State)

/-! ### What a trip leaves of half-bridges, and of registers outside its station's own block and Chest's -/

/-- A half-bridge is left as it was, or dark. -/
inductive KeptOrDark (h h' : HalfBridge) : Prop
  | kept (eq : h' = h)
  | dark (eq : h' = h.dark)

theorem KeptOrDark.trans {a b c : HalfBridge} (h : KeptOrDark a b) (h' : KeptOrDark b c) : KeptOrDark a c := by
  rcases h with rfl | rfl <;> rcases h' with rfl | rfl
  · exact .kept rfl
  · exact .dark rfl
  · exact .dark rfl
  · exact .dark rfl

theorem State.keptOrDark_dropGates (n : Nat) {k : Nat} (hk : k < 12) : KeptOrDark (s.hbOf n k) ((s.dropGates n).hbOf n k) := by
  rw [s.hbOf_dropGates n hk]
  split
  · exact .dark rfl
  · exact .kept rfl

theorem State.hbOf_of_hb {s t : State} (h : t.hb = s.hb) (n k : Nat) : t.hbOf n k = s.hbOf n k := by
  simp only [State.hbOf, h]

theorem State.keptOrDark_moveTripped (n : Nat) (within : Bool) {k : Nat} (hk : k < 12) :
    KeptOrDark (s.hbOf n k) ((s.moveTripped n within).hbOf n k) := by
  unfold State.moveTripped
  dsimp only
  rw [show ∀ t : State, (t.calmLimits n).hbOf n k = t.hbOf n k from fun _ => rfl]
  refine KeptOrDark.trans (.kept ?_) (State.keptOrDark_dropGates _ n hk)
  simp [State.hbOf_of_hb (s.setSt_hb n .tripped)]

theorem State.keptOrDark_enterTripped (n : Nat) (within : Bool) {k : Nat} (hk : k < 12) :
    KeptOrDark (s.hbOf n k) ((s.enterTripped n within).hbOf n k) := by
  have hback : (s.undoTurn n).hbOf n k = s.hbOf n k := State.hbOf_of_hb (s.undoTurn_hb n) n k
  by_cases hgo : ((s.undoTurn n).stnOf n).trips ≠ [] ∧ ((s.undoTurn n).stnOf n).st ≠ .disabled ∧
      ((s.undoTurn n).stnOf n).st ≠ .tripped
  · rw [s.enterTripped_moves n within hgo.1 hgo.2.1 hgo.2.2, ← hback]
    simpa using (s.undoTurn n).keptOrDark_moveTripped n within hk
  · refine .kept ?_
    rw [← hback]
    simp only [State.enterTripped]
    split
    · simp
    · split
      · split <;> simp [State.addCauses]
      · simp_all

theorem State.keptOrDark_tripSoon (n code : Nat) {k : Nat} (hk : k < 12) :
    KeptOrDark (s.hbOf n k) ((s.tripSoon n code).hbOf n k) := by
  have hentered (f : Stn → Stn) : KeptOrDark (s.hbOf n k) (((s.onStn n f).enterTripped n false).hbOf n k) :=
    State.keptOrDark_enterTripped (s.onStn n f) n false hk
  simp only [State.tripSoon]
  split
  · exact .kept rfl
  · split
    · exact .kept (by simp [State.addCauses])
    · split
      · exact .kept rfl
      · exact hentered _

section
variable {n a : Nat} (ha : a / 0x10000 ≠ 0x14 + n ∧ a / 0x10000 ≠ 0x1D)
include ha

theorem State.reg_backFld_turnMarks (t : State) (st : StnState) (x y : Nat) :
    ((t.backFld (turnMarks n st).1 x).backFld (turnMarks n st).2 y).reg a = t.reg a := by
  have h1 : ∀ f, f ∈ [(turnMarks n st).1, (turnMarks n st).2] → ∀ (u : State) (x : Nat), (u.backFld f x).reg a = u.reg a := by
    rintro (_ | f) hf u x
    · rfl
    · refine State.reg_setFld_ne u _ ?_
      rintro rfl
      cases st <;> simp only [turnMarks, List.mem_cons, List.not_mem_nil, or_false, Option.some.injEq, reduceCtorEq, or_self] at hf
      all_goals
        rcases hf with rfl | rfl <;>
        simp only [GFM_FRT_FLAGS_RT_ENTERED, GFM_FRT_CNT1_RT_EPISODE_CNT, GFM_FRT_FLAGS_LIMITED, GFM_FRT_CNT0_LIM_EPISODE_CNT,
          GFM_FRT_FLAGS_CLEARED, GFM_FRT_FLAGS, GFM_FRT_CNT0, GFM_FRT_CNT1] at ha <;> omega
  rw [h1 _ (by simp), h1 _ (by simp)]

theorem State.reg_undoTurn : (s.undoTurn n).reg a = s.reg a := by
  simp only [State.undoTurn]
  split
  · rfl
  · rw [State.reg_backFld_turnMarks ha]
    simp

omit ha in
theorem State.pendSet_undoTurn : (s.undoTurn n).pendSet = s.pendSet := by
  have hback (t : State) (f : Option Fld) (x : Nat) : (t.backFld f x).pendSet = t.pendSet := by cases f <;> rfl
  simp only [State.undoTurn]
  split
  · rfl
  · exact (hback _ _ _).trans (hback _ _ _)

theorem State.reg_enterTripped (within : Bool) (hset : s.pendSet = []) : (s.enterTripped n within).reg a = s.reg a := by
  have hcause : a ≠ GFM_TRIP_CAUSE n := by
    rintro rfl
    simp only [GFM_TRIP_CAUSE] at ha
    omega
  have hset' : (s.undoTurn n).pendSet = [] := (s.pendSet_undoTurn).trans hset
  by_cases hgo : ((s.undoTurn n).stnOf n).trips ≠ [] ∧ ((s.undoTurn n).stnOf n).st ≠ .disabled ∧
      ((s.undoTurn n).stnOf n).st ≠ .tripped
  · rw [s.enterTripped_moves n within hgo.1 hgo.2.1 hgo.2.2, State.reg_chestEvent _ ha.2, State.reg_logEvent _ ha.2,
      State.reg_moveTripped_ne _ n within hset' hcause, s.reg_undoTurn ha]
  · rw [← s.reg_undoTurn (n := n) ha]
    simp only [State.enterTripped]
    split
    · simp
    · split
      · split
        · simp [State.addCauses, State.reg_setReg_ne _ _ hcause]
        · simp
      · simp_all

theorem State.reg_tripSoon (code : Nat) (hset : s.pendSet = []) : (s.tripSoon n code).reg a = s.reg a := by
  have hcause : a ≠ GFM_TRIP_CAUSE n := by
    rintro rfl
    simp only [GFM_TRIP_CAUSE] at ha
    omega
  simp only [State.tripSoon]
  split
  · rfl
  · split
    · exact State.reg_setReg_ne _ _ hcause
    · split
      · rfl
      · exact (State.reg_enterTripped _ ha false (by simpa using hset)).trans (by simp)

end

/-! ### A latch (R189) -/

section
variable {n k : Nat} (cause : Nat)

/-- The registers and the half-bridge as the first latch of a station leaves them. -/
def State.markLatch (s : State) (n k cause : Nat) : State :=
  ((((((s.setFldBit (GATE_LATCH_LATCHED n) k true).setReg (GATE_LCAUSE n)
    (putBits (s.reg (GATE_LCAUSE n)) (2 * k) 2 cause)).onHb n k HalfBridge.dark).setReg (GATE_TRIP n)
    (BitVec.ofNat 32 (64 + cause * 16 + k))).count (GATE_CNT_LATCH_CNT n)).onPwm n (fun p =>
      { p with firstLatch := some s.now, latchSeen := true }))

theorem State.latchHb_first (hfree : s.fldBit (GATE_LATCH_LATCHED n) k = false) (hseen : (s.pwmOf n).latchSeen = false) :
    s.latchHb n k cause = (((s.markLatch n k cause).logEvent 4 n k cause).chestEvent 6 n (some 4)).tripSoon n 2 := by
  simp [State.latchHb, State.markLatch, hfree, hseen]

theorem State.markLatch_units : (s.markLatch n k cause).pendSet = s.pendSet ∧
    (s.markLatch n k cause).stnOf n = s.stnOf n ∧ (s.markLatch n k cause).hbOf n k = (s.hbOf n k).dark ∧
    (s.markLatch n k cause).pwmOf n = { s.pwmOf n with firstLatch := some s.now, latchSeen := true } := by
  simp [State.markLatch]

section
variable (hn : n < 4)
include hn

theorem State.gate_registers_apart : GATE_CNT n ≠ GATE_TRIP n ∧ GATE_CNT n ≠ GATE_LCAUSE n ∧ GATE_CNT n ≠ GATE_LATCH n ∧
    GATE_TRIP n ≠ GATE_LCAUSE n ∧ GATE_TRIP n ≠ GATE_LATCH n ∧ GATE_LCAUSE n ≠ GATE_LATCH n := by
  simp only [GATE_CNT, GATE_TRIP, GATE_LCAUSE, GATE_LATCH]
  omega

theorem State.reg_markLatch : (s.markLatch n k cause).reg (GATE_TRIP n) = BitVec.ofNat 32 (64 + cause * 16 + k) ∧
    (s.markLatch n k cause).reg (GATE_LCAUSE n) = putBits (s.reg (GATE_LCAUSE n)) (2 * k) 2 cause ∧
    (s.markLatch n k cause).reg (GATE_LATCH n) = putBit (s.reg (GATE_LATCH n)) k true := by
  obtain ⟨hct, hcc, hcl, htc, htl, hlc⟩ := State.gate_registers_apart hn
  have hcount (t : State) {a : Nat} (h : GATE_CNT n ≠ a) : (t.count (GATE_CNT_LATCH_CNT n)).reg a = t.reg a :=
    t.reg_count_ne h.symm
  have hlatch (t : State) (b : Bool) : (t.setFldBit (GATE_LATCH_LATCHED n) k b).reg (GATE_LATCH n) = putBit (t.reg (GATE_LATCH n)) k b := by
    refine (t.reg_setReg_self _ _).trans ?_
    rw [show (GATE_LATCH_LATCHED n).lo + k = k from Nat.zero_add k]
    rfl
  unfold State.markLatch
  refine ⟨?_, ?_, ?_⟩
  · simp [hcount _ hct]
  · simp [hcount _ hcc, State.reg_setReg_ne _ _ htc.symm]
  · simp [hcount _ hcl, State.reg_setReg_ne _ _ htl.symm, State.reg_setReg_ne _ _ hlc.symm, hlatch]

/-- A register of the gate block reads after the first latch as the latch marked it. -/
theorem State.reg_latchHb (hset : s.pendSet = []) (hfree : s.fldBit (GATE_LATCH_LATCHED n) k = false)
    (hseen : (s.pwmOf n).latchSeen = false) {a : Nat} (ha : a / 0x10000 ≠ 0x14 + n ∧ a / 0x10000 ≠ 0x1D) :
    (s.latchHb n k cause).reg a = (s.markLatch n k cause).reg a := by
  rw [s.latchHb_first cause hfree hseen, State.reg_tripSoon _ ha _ (by simpa using (s.markLatch_units cause).1.trans hset),
    State.reg_chestEvent _ ha.2, State.reg_logEvent _ ha.2]

end
end

theorem KeptOrDark.off {h h' : HalfBridge} (hk : KeptOrDark h h') (hg : h.gh = false) (hl : h.gl = false) :
    h'.gh = false ∧ h'.gl = false := by
  rcases hk with rfl | rfl
  · exact ⟨hg, hl⟩
  · exact ⟨rfl, rfl⟩

/-- Settles O19: the latch marks its registers and darkens its half-bridge, and the trip that follows changes none of these. -/
theorem firstLatch : Obligations.FirstLatch := by
  intro n k cause s hset hfree hseen
  have hn := n.isLt
  have hk := k.isLt
  obtain ⟨htrip, hcause, hlatch⟩ := s.reg_markLatch (k := k) cause hn
  obtain ⟨_, hstn, hhb, hpwm⟩ := s.markLatch_units (n := n) (k := k) cause
  have hreg {a : Nat} (ha : a / 0x10000 ≠ 0x14 + n ∧ a / 0x10000 ≠ 0x1D) := s.reg_latchHb cause hn hset hfree hseen ha
  have hdark : KeptOrDark (s.hbOf n k).dark ((s.latchHb n k cause).hbOf n k) := by
    rw [s.latchHb_first cause hfree hseen, ← hhb]
    simpa using State.keptOrDark_tripSoon (((s.markLatch n k cause).logEvent 4 n k cause).chestEvent 6 n (some 4)) n 2 hk
  have hoff := hdark.off rfl rfl
  have hpwm' : (s.latchHb n k cause).pwmOf n = { s.pwmOf n with firstLatch := some s.now, latchSeen := true } := by
    rw [s.latchHb_first cause hfree hseen]
    simpa using hpwm
  refine ⟨?_, ?_, ?_, hoff.1, hoff.2, by rw [hpwm'], by rw [hpwm'], fun hdis hhere hrun => ?_⟩
  · rw [State.fldBit, show (GATE_LATCH_LATCHED n).addr = GATE_LATCH n from rfl, hreg (by simp only [GATE_LATCH]; omega), hlatch,
      show (GATE_LATCH_LATCHED n).lo + k = k from Nat.zero_add _]
    exact bit_putBit_self _ true (by omega)
  · rw [hreg (by simp only [GATE_LCAUSE]; omega), hcause, bits_putBits_self _ _ (by omega)]
    exact Nat.mod_eq_of_lt cause.isLt
  · rw [hreg (by simp only [GATE_TRIP]; omega), htrip]
  · rw [s.latchHb_first cause hfree hseen]
    simp [State.tripSoon, hstn, hpwm, hdis, hhere, hrun]

end Sys2Proof.Machine
end

section
/-! O29: what a held removal leaves, and the events that make one. -/

namespace Sys2Proof.Machine

/-- Nothing has changed but registers and safe outputs. -/
def SoutFrame (s t : State) : Prop :=
  t = { s with regs := t.regs, sout := t.sout }

theorem SoutFrame.refl (s : State) : SoutFrame s s := rfl

theorem SoutFrame.trans {a b c : State} (h1 : SoutFrame a b) (h2 : SoutFrame b c) : SoutFrame a c := by
  unfold SoutFrame at *
  rw [h2, h1]

theorem SoutFrame.ite {c : Prop} [Decidable c] {s t u : State} (ht : SoutFrame s t) (hu : SoutFrame s u) :
    SoutFrame s (if c then t else u) := by
  split
  · exact ht
  · exact hu

theorem SoutFrame.forAll {f : Nat → State → State} (h : ∀ i t, SoutFrame t (f i t)) (n : Nat) (s : State) :
    SoutFrame s (s.forAll n f) :=
  forAll_rel SoutFrame .refl (fun _ _ _ => .trans) f h n s

/-- What registers and safe outputs do not hold is as it was. -/
abbrev OutsideSouts (s t : State) : Prop :=
  t.act = s.act ∧ t.mem = s.mem ∧ t.holes = s.holes ∧ t.dmemA = s.dmemA ∧ t.dmemB = s.dmemB ∧ t.now = s.now ∧
  t.draws = s.draws ∧ t.grants = s.grants ∧ t.spi = s.spi ∧ t.stn = s.stn ∧ t.pwm = s.pwm ∧ t.hb = s.hb ∧
  t.wcomp = s.wcomp ∧ t.inp = s.inp ∧ t.conv = s.conv ∧ t.pair = s.pair ∧ t.cal = s.cal ∧ t.sdm = s.sdm ∧
  t.banksA = s.banksA ∧ t.banksB = s.banksB ∧ t.serving = s.serving ∧ t.ready = s.ready ∧ t.red = s.red ∧
  t.clock = s.clock ∧ t.ptp = s.ptp ∧ t.fw = s.fw ∧ t.caps = s.caps ∧ t.chest = s.chest ∧ t.streams = s.streams ∧
  t.trigs = s.trigs ∧ t.safe = s.safe ∧ t.safeStn = s.safeStn ∧ t.sin = s.sin ∧ t.pendSet = s.pendSet ∧
  t.readData = s.readData ∧ t.clk = s.clk ∧ t.dev = s.dev ∧ t.vioA = s.vioA ∧ t.vioB = s.vioB ∧ t.ports = s.ports ∧
  t.shelfSeen = s.shelfSeen ∧ t.shelfFresh = s.shelfFresh ∧ t.dmaCh = s.dmaCh ∧ t.dma = s.dma ∧ t.cvu = s.cvu ∧
  t.mbx = s.mbx ∧ t.otp = s.otp ∧ t.flash = s.flash ∧ t.trust = s.trust ∧ t.boot = s.boot ∧ t.power = s.power ∧
  t.slkPort = s.slkPort ∧ t.slk = s.slk ∧ t.sen = s.sen ∧ t.pending = s.pending ∧ (∀ m, t.stnOf m = s.stnOf m) ∧
  (∀ m, t.pwmOf m = s.pwmOf m) ∧ (∀ m k, t.hbOf m k = s.hbOf m k) ∧ (∀ m k, t.wcompOf m k = s.wcompOf m k) ∧
  (∀ m k, t.inpOf m k = s.inpOf m k) ∧ (∀ m, t.convOf m = s.convOf m) ∧ (∀ m, t.pairOf m = s.pairOf m) ∧
  (∀ m, t.sdmOf m = s.sdmOf m) ∧ (∀ m, t.capOf m = s.capOf m) ∧ (∀ m, t.streamOf m = s.streamOf m) ∧
  (∀ m, t.trigOf m = s.trigOf m) ∧ (∀ m, t.safeOf m = s.safeOf m) ∧ (∀ m, t.sinOf m = s.sinOf m) ∧
  (∀ m, t.portOf m = s.portOf m) ∧ (∀ m, t.chOf m = s.chOf m) ∧ (∀ m, t.cvuOf m = s.cvuOf m) ∧
  (∀ m, t.slotOf m = s.slotOf m) ∧ (∀ m, t.jobOf m = s.jobOf m) ∧ (∀ m, t.slkPortOf m = s.slkPortOf m) ∧
  (∀ m, t.actReg m = s.actReg m) ∧ (∀ g, t.actFld g = s.actFld g) ∧ (∀ m, t.byte m = s.byte m) ∧ (∀ m, t.hole m = s.hole m)

theorem SoutFrame.rest {s t : State} (h : SoutFrame s t) : OutsideSouts s t := by
  unfold SoutFrame at h
  rw [h]
  repeat' apply And.intro
  all_goals
    intros
    rfl

variable (s : State)

/-! ### Safe outputs that go low (R340, R344) -/

theorem State.setFlag_soutFrame (f : Fld) : SoutFrame s (s.setFlag f) := rfl

theorem State.count_soutFrame (f : Fld) : SoutFrame s (s.count f) := rfl

theorem State.onSout_soutFrame (k : Nat) (f : SoutOut → SoutOut) : SoutFrame s (s.onSout k f) := rfl

theorem State.testDue_soutFrame (k : Nat) : SoutFrame s (s.testDue k) := by
  unfold State.testDue
  exact SoutFrame.ite (.refl s) (SoutFrame.ite (s.onSout_soutFrame _ _) (SoutFrame.ite (s.onSout_soutFrame _ _) (s.onSout_soutFrame _ _)))

theorem State.reg_testDue (k a : Nat) : (s.testDue k).reg a = s.reg a := by
  unfold State.testDue
  dsimp only
  repeat' split
  all_goals rfl

/-- A test that is due lets a low output low. -/
theorem State.low_testDue (k j : Nat) (h : (s.soutOf j).level = false) : ((s.testDue k).soutOf j).level = false := by
  have hkeep (f : SoutOut → SoutOut) (hf : ∀ o, o.level = false → (f o).level = false) : ((s.onSout k f).soutOf j).level = false := by
    by_cases hj : j = k
    · subst hj
      rw [State.soutOf_onSout]
      exact hf _ h
    · rwa [s.soutOf_onSout_ne f hj]
  unfold State.testDue
  dsimp only
  split
  · exact h
  · split
    · exact hkeep _ (fun _ ho => ho)
    · split
      · exact hkeep _ (fun _ ho => ho)
      · exact hkeep _ (fun _ _ => rfl)

theorem State.runDeferred_soutFrame : SoutFrame s s.runDeferred :=
  SoutFrame.forAll (fun k t => SoutFrame.ite (t.testDue_soutFrame k) (.refl t)) 8 s

theorem State.reg_runDeferred (a : Nat) : s.runDeferred.reg a = s.reg a := by
  refine forAll_rel (fun b c => c.reg a = b.reg a) (fun _ => rfl) (fun _ _ _ h h' => h'.trans h) _ (fun k t => ?_) 8 s
  split
  · exact t.reg_testDue k a
  · rfl

theorem State.low_runDeferred {k : Nat} (h : (s.soutOf k).level = false) : (s.runDeferred.soutOf k).level = false := by
  refine forAll_rel (fun b c => (b.soutOf k).level = false → (c.soutOf k).level = false) (fun _ => id)
    (fun _ _ _ h h' => h' ∘ h) _ (fun i t ht => ?_) 8 s h
  split
  · exact t.low_testDue i k ht
  · exact ht

/-- Output k driven low for station n where it is mapped there; a test in progress on it is aborted. -/
def State.soutLow (s : State) (n k : Nat) : State :=
  if s.soutMap k n then
    let t := s.onSout k (fun o => { o with level := false, testing := false, deferred := false })
    if (s.soutOf k).testing then (t.count SAF_CNT0_TEST_ABORT_CNT).setFlag SAF_FLAGS_TEST_ABORTED else t
  else s

theorem State.soutsLow_eq (n : Nat) : s.soutsLow n = (s.forAll 8 (fun k t => t.soutLow n k)).runDeferred := rfl

section
variable (n k : Nat)

theorem State.soutLow_soutFrame : SoutFrame s (s.soutLow n k) := by
  unfold State.soutLow
  refine SoutFrame.ite (SoutFrame.ite ?_ (s.onSout_soutFrame k _)) (.refl s)
  exact ((s.onSout_soutFrame k _).trans (State.count_soutFrame _ _)).trans (State.setFlag_soutFrame _ _)

theorem State.reg_soutLow {a : Nat} (hc : a ≠ SAF_CNT0) (hf : a ≠ SAF_FLAGS) : (s.soutLow n k).reg a = s.reg a := by
  unfold State.soutLow
  dsimp only
  split
  · split
    · exact (State.reg_setFld_ne _ _ hf).trans ((State.reg_count_ne _ hc).trans rfl)
    · rfl
  · rfl

theorem State.soutOf_soutLow : (s.soutLow n k).soutOf k =
    if s.soutMap k n then { s.soutOf k with level := false, testing := false, deferred := false } else s.soutOf k := by
  unfold State.soutLow
  dsimp only
  split
  · split <;> simp
  · rfl

theorem State.soutOf_soutLow_ne {j : Nat} (h : j ≠ k) : (s.soutLow n k).soutOf j = s.soutOf j := by
  unfold State.soutLow
  dsimp only
  split
  · split <;> simp [State.soutOf_onSout_ne _ _ h]
  · rfl

end

theorem State.soutsLow_soutFrame (n : Nat) : SoutFrame s (s.soutsLow n) := by
  rw [State.soutsLow_eq]
  exact (SoutFrame.forAll (fun k t => t.soutLow_soutFrame n k) 8 s).trans (State.runDeferred_soutFrame _)

@[simp] theorem State.soutsLow_outside (n : Nat) : OutsideSouts s (s.soutsLow n) := (s.soutsLow_soutFrame n).rest

theorem State.reg_soutsLow (n : Nat) {a : Nat} (hc : a ≠ SAF_CNT0) (hf : a ≠ SAF_FLAGS) : (s.soutsLow n).reg a = s.reg a := by
  rw [State.soutsLow_eq, State.reg_runDeferred]
  exact forAll_rel (fun b c => c.reg a = b.reg a) (fun _ => rfl) (fun _ _ _ h h' => h'.trans h) _
    (fun k t => t.reg_soutLow n k hc hf) 8 s

theorem SAF_SOUT_MAP_apart (k : Nat) : SAF_SOUT_MAP k ≠ SAF_CNT0 ∧ SAF_SOUT_MAP k ≠ SAF_FLAGS := by
  simp only [SAF_SOUT_MAP, SAF_CNT0, SAF_FLAGS]
  omega

theorem State.soutMap_soutsLow (n k m : Nat) : (s.soutsLow n).soutMap k m = s.soutMap k m :=
  State.fldBit_of_reg m (s.reg_soutsLow n (SAF_SOUT_MAP_apart k).1 (SAF_SOUT_MAP_apart k).2)

/-- The outputs mapped to the station are low. -/
theorem State.low_soutsLow {n k : Nat} (hk : k < 8) (hmap : s.soutMap k n = true) : ((s.soutsLow n).soutOf k).level = false := by
  rw [State.soutsLow_eq]
  refine State.low_runDeferred _ ?_
  obtain ⟨t, hreg, _, hlow⟩ := State.forAll_at (fun b c => ∀ k, c.reg (SAF_SOUT_MAP k) = b.reg (SAF_SOUT_MAP k)) (fun _ _ => rfl)
    (fun _ _ _ h h' k => (h' k).trans (h k)) (f := fun k t => t.soutLow n k)
    (fun i t j => t.reg_soutLow n i (SAF_SOUT_MAP_apart j).1 (SAF_SOUT_MAP_apart j).2) (fun t => t.soutOf k)
    (fun i t hi => t.soutOf_soutLow_ne n i hi.symm) hk s
  have hmap' : t.soutMap k n = true := (State.fldBit_of_reg n (hreg k)).trans hmap
  rw [hlow, State.soutOf_soutLow, hmap']
  rfl

/-! ### A release that fails (R358) -/

/-- The stations of a release that fails stop releasing, and their outputs go low. -/
theorem State.failRelease_rel (R : State → State → Prop) (hr : ∀ t, R t t) (ht : ∀ a b c, R a b → R b c → R a c)
    (hsafe : ∀ n t, R t (t.onSafe n (fun f => { f with releasing := false, party := [] }))) (hlow : ∀ n t, R t (State.soutsLow t n))
    (hflag : ∀ t, R t (State.setFlag t SAF_FLAGS_RELEASE_REFUSED)) (set : List Nat) : R s (s.failRelease set) :=
  ht _ _ _ (foldl_rel R hr ht (fun t n => (t.onSafe n (fun f => { f with releasing := false, party := [] })).soutsLow n)
    (fun t n => ht _ _ _ (hsafe n t) (hlow n _)) set s) (hflag _)

theorem State.failRelease_pendSet (set : List Nat) : (s.failRelease set).pendSet = s.pendSet :=
  s.failRelease_rel (fun b c => c.pendSet = b.pendSet) (fun _ => rfl) (fun _ _ _ h h' => h'.trans h) (fun _ _ => rfl)
    (fun n t => (by simp)) (fun _ => rfl) set

theorem State.failRelease_soutMap (set : List Nat) (k m : Nat) : (s.failRelease set).soutMap k m = s.soutMap k m :=
  s.failRelease_rel (fun b c => c.soutMap k m = b.soutMap k m) (fun _ => rfl) (fun _ _ _ h h' => h'.trans h) (fun _ _ => rfl)
    (fun n t => t.soutMap_soutsLow n k m)
    (fun t => State.fldBit_of_reg m (t.reg_setFld_ne 1 (SAF_SOUT_MAP_apart k).2)) set

theorem State.failRelease_held (set : List Nat) (m : Nat) : ((s.failRelease set).safeOf m).held = (s.safeOf m).held := by
  refine s.failRelease_rel (fun b c => (c.safeOf m).held = (b.safeOf m).held) (fun _ => rfl) (fun _ _ _ h h' => h'.trans h)
    (fun n t => ?_) (fun n t => ?_) (fun _ => rfl) set
  · by_cases hm : m = n
    · subst hm
      simp
    · rw [t.safeOf_onSafe_ne _ hm]
  · simp

/-! ### A held removal (R339) -/

section
variable (n cause : Nat)

/-- The station is held with its cause, before what follows from it. -/
def State.markHeld (s : State) (n cause : Nat) : State :=
  (s.onSafe n (fun f => { f with held := true, stop := false, demanded := false })).setFld (SAF_STN_CAUSE n) cause

/-- The state that a held removal finds, once a release of the station has failed. -/
def State.releaseFailed (s : State) (n : Nat) : State :=
  if (s.safeOf n).releasing then s.failRelease (s.safeOf n).party else s

theorem State.releaseFailed_keeps : (s.releaseFailed n).pendSet = s.pendSet ∧
    ((s.releaseFailed n).safeOf n).held = (s.safeOf n).held ∧ (∀ k m, (s.releaseFailed n).soutMap k m = s.soutMap k m) := by
  unfold State.releaseFailed
  split
  · exact ⟨s.failRelease_pendSet _, s.failRelease_held _ n, fun k m => s.failRelease_soutMap _ k m⟩
  · exact ⟨rfl, rfl, fun _ _ => rfl⟩

theorem State.holdStation_eq (h : (s.safeOf n).held = false) : s.holdStation n cause =
    ((((s.releaseFailed n).markHeld n cause).dropGates n).soutsLow n).tripSoon n 1 := by
  have hfree := (s.releaseFailed_keeps n).2.1.trans h
  unfold State.releaseFailed at hfree
  simp only [State.holdStation, State.markHeld, State.releaseFailed, hfree]
  rfl

theorem State.safeOf_markHeld : (s.markHeld n cause).safeOf n = { s.safeOf n with held := true, stop := false, demanded := false } := by
  simp [State.markHeld]

theorem State.permit_of_held {s : State} {n : Nat} (h : (s.safeOf n).held = true) : s.permit n = false := by
  simp [State.permit, h]

end

theorem SAF_STN_apart {n : Nat} (hn : n < 4) :
    SAF_STN n ≠ SAF_CNT0 ∧ SAF_STN n ≠ SAF_FLAGS ∧ SAF_STN n / 0x10000 ≠ 0x14 + n ∧ SAF_STN n / 0x10000 ≠ 0x1D := by
  simp only [SAF_STN, SAF_CNT0, SAF_FLAGS]
  omega

section
variable {n : Nat} (cause : Nat) (hheld : (s.safeOf n).held = false)
include hheld

theorem State.safeOf_holdStation : ((s.holdStation n cause).safeOf n).held = true := by
  rw [s.holdStation_eq n cause hheld]
  simp [State.safeOf_markHeld]

theorem State.fld_holdStation (hn : n < 4) (hset : s.pendSet = []) (hc : cause < 32) :
    (s.holdStation n cause).fld (SAF_STN_CAUSE n) = cause := by
  obtain ⟨h1, h2, h3⟩ := SAF_STN_apart hn
  have hset' := (s.releaseFailed_keeps n).1.trans hset
  rw [s.holdStation_eq n cause hheld]
  have hreg : (((((s.releaseFailed n).markHeld n cause).dropGates n).soutsLow n).tripSoon n 1).reg (SAF_STN n) =
      ((s.releaseFailed n).markHeld n cause).reg (SAF_STN n) := by
    rw [State.reg_tripSoon _ h3 1 (by simpa [State.markHeld]), State.reg_soutsLow _ n h1 h2]
    simp
  refine (State.fld_of_reg (f := SAF_STN_CAUSE n) hreg).trans ?_
  exact State.fld_setFld _ _ (m := 256) (by omega)

theorem State.eff_holdStation {k : Nat} (hk : k < 12) : ((s.holdStation n cause).hbOf n k).eff = false := by
  rw [s.holdStation_eq n cause hheld]
  have hpermit := State.permit_of_held (s := (s.releaseFailed n).markHeld n cause) (n := n) (by simp [State.safeOf_markHeld])
  have heff : (((((s.releaseFailed n).markHeld n cause).dropGates n).soutsLow n).hbOf n k).eff = false := by
    simpa using State.eff_dropGates ((s.releaseFailed n).markHeld n cause) hk (by simp [State.effEnable, hpermit])
  rcases State.keptOrDark_tripSoon ((((s.releaseFailed n).markHeld n cause).dropGates n).soutsLow n) n 1 hk with h | h <;> rw [h]
  · exact heff
  · rfl

theorem State.low_holdStation (hn : n < 4) {k : Nat} (hk : k < 8) (hmap : s.soutMap k n = true) :
    ((s.holdStation n cause).soutOf k).level = false := by
  rw [s.holdStation_eq n cause hheld]
  suffices hlow : (((((s.releaseFailed n).markHeld n cause).dropGates n).soutsLow n).soutOf k).level = false by simpa using hlow
  refine State.low_soutsLow _ hk ?_
  have hreg : (((s.releaseFailed n).markHeld n cause).dropGates n).soutMap k n = (s.releaseFailed n).soutMap k n :=
    State.fldBit_of_reg n (by
      simp only [State.dropGates_outside, State.markHeld]
      refine (State.reg_setFld_ne _ _ ?_).trans (by simp)
      simp only [SAF_SOUT_MAP_STN, SAF_SOUT_MAP, SAF_STN_CAUSE, SAF_STN]
      omega)
  rw [hreg, (s.releaseFailed_keeps n).2.2, hmap]

end

/-- Settles O29: a held removal is the steps of R339 in their order, and each event of Settle and Lowboy ends in one. -/
theorem heldRemovals : Obligations.HeldRemovals := by
  refine ⟨fun n cause s hc hset hheld => ?_, fun s hr => ⟨fun mask => ?_, fun mask => ?_, ?_, ?_, ?_, ?_, ?_, ?_, fun hcal => ?_, ?_⟩⟩
  · have h := s.safeOf_holdStation cause hheld
    exact ⟨h, s.fld_holdStation cause hheld n.isLt hset hc, State.permit_of_held h, fun k hk => s.eff_holdStation cause hheld hk,
      fun k hk hmap => s.low_holdStation cause hheld n.isLt hk hmap⟩
  · simp [exec, execSafSs1Req, State.requestSs1, hr]
  · simp [exec, execSafStoReq, State.requestSto, hr]
  · rfl
  · simp [exec, execRcFrequencyCheck, hr]
  · simp [exec, execRcFrequencyCheck, hr]
  · simp [exec, execSettleCrcCheck]
  · simp [exec, execSettleCrcCheck]
  · rfl
  · simp [exec, execCoverTooLong, hcal, hr]
  · rfl

end Sys2Proof.Machine
end

section
/-! O18, O16 and O15: gates, pulses, the timebase and the commutation index. -/

namespace Sys2Proof.Machine

variable (s : State)

/-! ### Latches leave the registers of other blocks (R189) -/

theorem State.pendSet_moveTripped (n : Nat) (within : Bool) (h : s.pendSet = []) : (s.moveTripped n within).pendSet = [] := by
  unfold State.moveTripped
  dsimp only
  rw [show ∀ t : State, (t.calmLimits n).pendSet = t.pendSet from fun _ => rfl, s.setSt_of_nil _ h]
  simpa using h

theorem State.pendSet_enterTripped (n : Nat) (within : Bool) (h : s.pendSet = []) : (s.enterTripped n within).pendSet = [] := by
  have hback : (s.undoTurn n).pendSet = [] := s.pendSet_undoTurn.trans h
  by_cases hgo : ((s.undoTurn n).stnOf n).trips ≠ [] ∧ ((s.undoTurn n).stnOf n).st ≠ .disabled ∧
      ((s.undoTurn n).stnOf n).st ≠ .tripped
  · rw [s.enterTripped_moves n within hgo.1 hgo.2.1 hgo.2.2]
    simpa using (s.undoTurn n).pendSet_moveTripped n within hback
  · rw [← hback]
    simp only [State.enterTripped]
    split
    · simp
    · split
      · split <;> simp [State.addCauses]
      · simp_all

theorem State.pendSet_tripSoon (n code : Nat) (h : s.pendSet = []) : (s.tripSoon n code).pendSet = [] := by
  simp only [State.tripSoon]
  split
  · exact h
  · split
    · simpa [State.addCauses] using h
    · split
      · exact h
      · exact State.pendSet_enterTripped _ n false h

section
variable (n k cause : Nat)

/-- A latch is ignored, adds its own bit, or is the station's first. -/
theorem State.latchHb_cases : s.latchHb n k cause = s ∨
    s.latchHb n k cause = ((s.setFldBit (GATE_LATCH_LATCHED n) k true).setReg (GATE_LCAUSE n)
      (putBits (s.reg (GATE_LCAUSE n)) (2 * k) 2 cause)).onHb n k HalfBridge.dark ∨
    s.latchHb n k cause = (((s.markLatch n k cause).logEvent 4 n k cause).chestEvent 6 n (some 4)).tripSoon n 2 := by
  simp only [State.latchHb]
  split
  · exact .inl rfl
  · split
    · exact .inr (.inl rfl)
    · exact .inr (.inr rfl)

theorem State.pendSet_latchHb (h : s.pendSet = []) : (s.latchHb n k cause).pendSet = [] := by
  rcases s.latchHb_cases n k cause with hl | hl | hl <;> rw [hl]
  · exact h
  · simpa using h
  · exact State.pendSet_tripSoon _ n 2 (by simpa using (s.markLatch_units cause).1.trans h)

theorem State.reg_markLatch_ne {a : Nat} (ha : a / 0x10000 ≠ 0x0C + n) : (s.markLatch n k cause).reg a = s.reg a := by
  have hlatch : a ≠ GATE_LATCH n := by
    rintro rfl
    simp only [GATE_LATCH] at ha
    omega
  have hcause : a ≠ GATE_LCAUSE n := by
    rintro rfl
    simp only [GATE_LCAUSE] at ha
    omega
  have htrip : a ≠ GATE_TRIP n := by
    rintro rfl
    simp only [GATE_TRIP] at ha
    omega
  have hcnt : a ≠ (GATE_CNT_LATCH_CNT n).addr := by
    rintro rfl
    simp only [GATE_CNT_LATCH_CNT, GATE_CNT] at ha
    omega
  unfold State.markLatch
  rw [show ∀ (t : State) f, (t.onPwm n f).reg a = t.reg a from fun _ _ => rfl, State.reg_count_ne _ hcnt, State.reg_setReg_ne _ _ htrip, State.reg_onHb]
  exact (State.reg_setReg_ne _ _ hcause).trans (s.reg_setFldBit_ne (f := GATE_LATCH_LATCHED n) k true hlatch)

/-- A latch writes its station's gate block, what its trip writes, and Chest. -/
theorem State.reg_latchHb_ne (hset : s.pendSet = []) {a : Nat} (hg : a / 0x10000 ≠ 0x0C + n)
    (ha : a / 0x10000 ≠ 0x14 + n ∧ a / 0x10000 ≠ 0x1D) : (s.latchHb n k cause).reg a = s.reg a := by
  have hlatch : a ≠ GATE_LATCH n := by
    rintro rfl
    simp only [GATE_LATCH] at hg
    omega
  have hcause : a ≠ GATE_LCAUSE n := by
    rintro rfl
    simp only [GATE_LCAUSE] at hg
    omega
  rcases s.latchHb_cases n k cause with hl | hl | hl <;> rw [hl]
  · rw [State.reg_onHb, State.reg_setReg_ne _ _ hcause]
    exact s.reg_setFldBit_ne (f := GATE_LATCH_LATCHED n) k true hlatch
  · rw [State.reg_tripSoon _ ha 2 (by simpa using (s.markLatch_units cause).1.trans hset), State.reg_chestEvent _ ha.2,
      State.reg_logEvent _ ha.2, s.reg_markLatch_ne n k cause hg]

end

/-! ### A write of PWM_HB_EN (R191) -/

theorem State.toggleHb_regs (n k : Nat) (x y : Bool) : (s.toggleHb n k x y).pendSet = s.pendSet ∧
    ∀ a, a / 0x10000 ≠ 0x0C + n → (s.toggleHb n k x y).reg a = s.reg a := by
  have hflag (f : Fld) (hf : f.addr = GATE_FLAGS n) : (s.setFlag f).pendSet = s.pendSet ∧
      ∀ a, a / 0x10000 ≠ 0x0C + n → (s.setFlag f).reg a = s.reg a := by
    refine ⟨rfl, fun a ha => State.reg_setFld_ne _ _ ?_⟩
    rintro rfl
    simp only [hf, GATE_FLAGS] at ha
    omega
  unfold State.toggleHb
  split
  · split
    · exact ⟨rfl, fun _ _ => rfl⟩
    · exact ⟨rfl, fun _ _ => rfl⟩
  · split
    · split
      · exact ⟨rfl, fun _ _ => rfl⟩
      · split
        · exact hflag _ rfl
        · split
          · exact hflag _ rfl
          · refine ⟨by simp, fun a ha => s.reg_setFldBit_ne (f := GATE_LATCH_LATCHED n) k false ?_⟩
            rintro rfl
            simp only [GATE_LATCH_LATCHED, GATE_LATCH] at ha
            omega
    · exact ⟨rfl, fun _ _ => rfl⟩

/-- No setting waits, and a register of PWM unit n reads as it did. -/
def PwmRegKept (a : Nat) (s t : State) : Prop := s.pendSet = [] → t.pendSet = [] ∧ t.reg a = s.reg a

theorem PwmRegKept.refl (a : Nat) (s : State) : PwmRegKept a s s := fun h => ⟨h, rfl⟩

theorem PwmRegKept.trans {a : Nat} (s t u : State) (h : PwmRegKept a s t) (h' : PwmRegKept a t u) : PwmRegKept a s u :=
  fun hs => ⟨(h' (h hs).1).1, (h' (h hs).1).2.trans (h hs).2⟩

theorem State.pwmRegKept_updGates {n : Nat} (hn : n < 4) {a : Nat} (ha : a / 0x10000 = 0x08 + n) : PwmRegKept a s (s.updGates n) := by
  refine PwmRegKept.trans s (s.dropGates n) _ (fun h => by simp [h]) ?_
  unfold State.updGates State.raiseGates
  refine forAll_rel (PwmRegKept a) (PwmRegKept.refl a) PwmRegKept.trans _ ?_ 12 _
  intro k t hset
  have hrise (f : HalfBridge → HalfBridge) : (t.onHb n k f).pendSet = [] ∧ (t.onHb n k f).reg a = t.reg a := ⟨hset, rfl⟩
  dsimp only
  split
  · split
    · refine ⟨State.pendSet_latchHb _ n k 3 (hrise _).1, ?_⟩
      rw [State.reg_latchHb_ne _ n k 3 (hrise _).1 (by omega) (by omega)]
      exact (hrise _).2
    · exact hrise _
  · exact ⟨hset, rfl⟩

theorem State.reg_writeHbEn {n : Nat} (hn : n < 4) (w : Word) (hset : s.pendSet = []) :
    (s.writeHbEn n w).reg (PWM_HB_EN n) = BitVec.ofNat 32 (bits w 0 12) := by
  have hpage : PWM_HB_EN n / 0x10000 = 0x08 + n := by
    simp only [PWM_HB_EN]
    omega
  have htoggle := forAll_rel (PwmRegKept (PWM_HB_EN n)) (.refl _) PwmRegKept.trans
    (fun k t => t.toggleHb n k (bit (s.reg (PWM_HB_EN n)) k) (bit w k))
    (fun k t h => ⟨(t.toggleHb_regs n k _ _).1.trans h, (t.toggleHb_regs n k _ _).2 _ (by omega)⟩) 12
    (s.setBoth (PWM_HB_EN n) (BitVec.ofNat 32 (bits w 0 12))) (by simpa using hset)
  exact ((State.pwmRegKept_updGates _ hn hpage htoggle.1).2.trans htoggle.2).trans (by simp)

/-- Settles O18: each command is its one branch under the clause's conditions. -/
theorem gateCommands : Obligations.GateCommands := by
  refine ⟨fun n k s hr heff => ⟨fun hgf hb => ?_, fun hgf hb => ?_, fun hgf hb hin => ?_, fun hgf hb => ?_, fun hgf => ?_,
    fun c code hg hen hlt hhi hk => ?_⟩, fun n s hr hg => ⟨fun t ht => ?_, fun w => ⟨?_, ?_⟩, ?_, fun k d hd => ?_⟩⟩
  · exact (whenRun_run s hr).trans (by simp [hgf, hb, HalfBridge.live, heff])
  · exact (whenRun_run s hr).trans (by simp [hgf, hb])
  · exact (whenRun_run s hr).trans (by simp [hgf, hb, hin, HalfBridge.live, heff])
  · exact (whenRun_run s hr).trans (by simp [hgf, hb, HalfBridge.live, heff])
  · exact (whenRun_run s hr).trans (by simp [hgf])
  · exact (whenRun_run s hr).trans (by simp [hg, hen, hlt, hk, windowStep, hhi])
  · exact (whenRun_run s hr).trans (by simp [ht])
  · exact writeWindow_open hr (by rw [s.window_pwm, hg])
  · exact s.reg_writeHbEn n.isLt w
  · intro w hst hreq hk hen hlatch hpermit hlen hgh hgl
    refine (writeWindow_open hr (by rw [s.window_gate, hg])).trans ?_
    simp [State.writeTest, hst, hreq, hk, hen, hlatch, hpermit, hlen, hgh, hgl]
  · exact (whenRun_run s hr).trans (by simp [hd])

/-- Settles O16: the edge, the filter and the dead time are each one branch of the half-bridge's path. -/
theorem pulsePath : Obligations.PulsePath := by
  intro n k s hr
  refine ⟨fun hforce hlv => ?_, fun t0 lv hpend heff => ?_, fun t0 t1 lv lv1 more hpend hmin hlv => ?_, fun side hdead heff => ?_⟩
  · exact (whenRun_run s hr).trans (by simp [State.pulseEdge, hforce, hlv])
  · refine (whenRun_run s hr).trans ?_
    simp only [State.filterOut, hpend, State.onHb]
    cases lv <;> simp [HalfBridge.edge, heff]
  · exact (whenRun_run s hr).trans (by simp [State.filterOut, hpend, hmin, hlv])
  · exact (whenRun_run s hr).trans (by simp [hdead, heff])

/-- Settles O15: a write of a running timebase is one branch, and an edge of the mask inputs moves or holds the index. -/
theorem timebaseAndCommutation : Obligations.TimebaseAndCommutation := by
  refine ⟨fun n s hr hg hrun => ?_, fun n cap lv s hr hg hin hmode hen => ?_⟩
  · have hopen (t : State) : writeWindow (0x08 + n) s t = .next t := writeWindow_open hr (by rw [s.window_pwm, hg])
    have hstart (v : Nat) : (s.setFld (PWM_TB_CTRL_TB_HOLD n) v).startTimebase n = s.setFld (PWM_TB_CTRL_TB_HOLD n) v := by
      simp [State.startTimebase, State.canStart, hrun]
    refine ⟨fun late hupd => (hopen _).trans ?_, fun hhold hidle => (hopen _).trans ?_, fun hhold hidle => (hopen _).trans ?_,
      fun hhold hidle => (hopen _).trans ?_⟩
    · simp [State.writeArm, State.armUpdate, State.stoppedTransfer, hupd, hrun]
    · simp [State.writeHold, hhold, hidle, hstart]
    · simp [State.writeHold, hhold, hidle, hstart]
    · simp [State.writeHold, hhold, hidle]
  · refine ⟨fun hlast => ?_, fun t hlast hfilt => ?_, fun i hi => ?_⟩
    · exact (whenRun_run s hr).trans (by simp [State.commutate, hg, hin, hmode, hen, hlast])
    · refine (whenRun_run s hr).trans ?_
      have hnow : (s.onCap cap (fun x => { x with level := lv })).now = s.now := rfl
      simp [State.commutate, hg, hin, hmode, hen, hlast, hnow, hfilt]
    · exact (whenRun_run s hr).trans (by simp [hi])

end Sys2Proof.Machine
end

section
/-! O10: an accepted snapshot record. -/

namespace Sys2Proof.Machine

/-- The first m words of a record written to the station's GFM_SNAP registers. -/
def State.setSnap (s : State) (n : Nat) (r : List Word) (m : Nat) : State :=
  (List.range m).foldl (fun t i => t.setReg (GFM_SNAP n i) (r.getD i 0)) s

section
variable (s : State) (n : Nat) (r : List Word)

theorem State.setSnap_succ (m : Nat) : s.setSnap n r (m + 1) = (s.setSnap n r m).setReg (GFM_SNAP n m) (r.getD m 0) := by
  simp [State.setSnap, List.range_succ]

theorem State.reg_setSnap {m i : Nat} (h : i < m) : (s.setSnap n r m).reg (GFM_SNAP n i) = r.getD i 0 := by
  induction m with
  | zero => omega
  | succ m ih =>
    rw [State.setSnap_succ]
    rcases Nat.lt_succ_iff_lt_or_eq.mp h with h | rfl
    · rw [State.reg_setReg_ne, ih h]
      simp only [GFM_SNAP]
      omega
    · exact State.reg_setReg_self _ _ _

theorem State.byte_setSnap (m a : Nat) : (s.setSnap n r m).byte a = s.byte a := by
  induction m with
  | zero => rfl
  | succ m ih => simpa [State.setSnap_succ] using ih

end

theorem State.length_snapRecord (s : State) (n : Nat) : ((s.snapRecord n).flatMap leBytes).length = 128 := by
  simp [State.snapRecord, State.snapBody, leBytes, List.length_flatMap, Function.comp_def]

theorem State.writeSnap_accepted {s : State} {n : Nat} (hrun : (s.pwmOf n).run = true) (hfin : (s.stnOf n).per.finished = true)
    (hsnap : (s.stnOf n).per.snapped = false) (hcopy : s.copyOpen n = false) : s.writeSnap n true =
      (((s.onPer n (fun p => { p with snapped := true })).setSnap n (s.snapRecord n) 32).setBytes
        (snapAddr n (s.stnOf n).count) ((s.snapRecord n).flatMap leBytes)) := by
  simp [State.writeSnap, State.setSnap, hrun, hfin, hsnap, hcopy]

/-- Settles O10: the record's words go into the registers one by one, and its 128 bytes into the ring. -/
theorem snapshotRecord : Obligations.SnapshotRecord := by
  intro n s hr hrun hfin hsnap hcopy
  have hlen := s.length_snapRecord n
  refine ⟨_, whenRun_run s hr, fun i hi => ?_, ?_, fun a ha => ?_⟩ <;> rw [State.writeSnap_accepted hrun hfin hsnap hcopy]
  · exact (congrArg (tget regReset · (GFM_SNAP n i)) (State.setBytes_rest _ _ _).1).trans (State.reg_setSnap _ n _ hi)
  · exact hlen ▸ State.bytes_setBytes _ _ _
  · rw [State.byte_setBytes_ne _ _ _ _ (by rwa [hlen]), State.byte_setSnap]
    exact (s.onPer_reads n _).2.2.2.2.2.2.1 a

end Sys2Proof.Machine
end

section
/-! O11 and O12: the engines' windows, the input list, lost inputs, and the words that inputs bring. -/

namespace Sys2Proof.Machine

variable (s : State)

/-! ### Windows of the engines -/

theorem readWindow_open {t : State} {x : Nat} (hr : s.islandsRun = true) (h : s.window x = some true) : readWindow x s t = .next t := by
  simp [readWindow, State.devRuns_of_islandsRun hr, h, State.gatedWindow_of_islandsRun hr]

theorem State.window_trs {e : Fin 2} (h : s.hasEngine e = true) : s.window (0x12 + e) = some true := by
  match e with
  | 0 => rfl
  | 1 =>
    have hb : s.grantB = true := by simpa [State.hasEngine] using h
    simp [State.window, hb]

theorem State.forAll_id {f : Nat → State → State} (n : Nat) (h : ∀ k, k < n → f k s = s) : s.forAll n f = s := by
  induction n with
  | zero => rfl
  | succ n ih => rw [State.forAll, ih (fun k hk => h k (by omega)), h n (by omega)]

/-- The bank switch marked for every station leaves each station's state. -/
theorem State.st_forAll_swapPending (n m : Nat) :
    ((s.forAll n (fun n t => t.onStn n (fun u => { u with swapPending := true }))).stnOf m).st = (s.stnOf m).st := by
  refine forAll_rel (fun a b => (b.stnOf m).st = (a.stnOf m).st) (fun _ => rfl) (fun _ _ _ h h' => h'.trans h) _ (fun k t => ?_) n s
  by_cases hm : m = k
  · subst hm
    simp
  · rw [t.stnOf_onStn_ne _ hm]

theorem State.requestSwap_busy {e : Nat} (h : s.swapRefusal e = 0) (hbusy : ∀ n, n < 4 → s.stnIdle n = false) :
    s.requestSwap e = s.forAll 4 (fun n t => t.onStn n (fun u => { u with swapPending := true })) := by
  simp only [State.requestSwap, h]
  refine State.forAll_id _ 4 (fun k hk => ?_)
  have hidle : (s.forAll 4 (fun n t => t.onStn n (fun u => { u with swapPending := true }))).stnIdle k = false := by
    have h := hbusy k hk
    simp only [State.stnIdle, Stn.idle] at h ⊢
    rwa [s.st_forAll_swapPending]
  simp [hidle]

/-! ### Flags set on every engine -/

theorem State.flagEngines_eq (f : Nat → Fld) : s.flagEngines f =
    if s.grantB then (s.setFlag (f 0)).setFlag (f 1) else s.setFlag (f 0) := by
  simp only [State.flagEngines, State.engines]
  split <;> rfl

theorem State.flag_refused_flagEngines : (s.flagEngines TRS_FLAGS_WRITE_REFUSED).flag (TRS_FLAGS_WRITE_REFUSED 0) = true ∧
    (s.grantB = true → (s.flagEngines TRS_FLAGS_WRITE_REFUSED).flag (TRS_FLAGS_WRITE_REFUSED 1) = true) := by
  rw [State.flagEngines_eq]
  split
  · exact ⟨(State.flag_setFld_addr _ 1 (by decide)).trans (State.flag_setFlag _ _), fun _ => State.flag_setFlag _ _⟩
  · exact ⟨State.flag_setFlag _ _, fun h => absurd h ‹_›⟩

/-! ### A write of the input list (R157) -/

theorem State.foldl_setFldBit_grants (l : List Nat) (f : Nat → Fld) (i : Nat) (b : Bool) :
    (l.foldl (fun t g => t.setFldBit (f g) i b) s).grants = s.grants :=
  foldl_rel (fun a b => b.grants = a.grants) (fun _ => rfl) (fun _ _ _ h h' => h'.trans h)
    (fun (t : State) g => t.setFldBit (f g) i b) (fun _ _ => rfl) l s

theorem State.noteReady_grants (n : Nat) : (s.noteReady n).grants = s.grants := by
  unfold State.noteReady
  dsimp only
  split
  · split <;> rfl
  · rfl

section
variable {i : Nat} {w : Word}

theorem State.writeInCfg_same (h : putBits w 11 2 0 = s.reg (TRS_IN_CFG i)) : s.writeInCfg i w = s := by
  simp [State.writeInCfg, h]

theorem State.writeInCfg_busy (h : putBits w 11 2 0 ≠ s.reg (TRS_IN_CFG i)) (hidle : s.stnIdle (i / 64) = false) :
    s.writeInCfg i w = s.flagEngines TRS_FLAGS_WRITE_REFUSED := by
  simp [State.writeInCfg, h, hidle, State.flagEngines]

theorem State.writeInCfg_stored (h : putBits w 11 2 0 ≠ s.reg (TRS_IN_CFG i)) (hidle : s.stnIdle (i / 64) = true)
    (h8 : 8 ≤ bits w 21 11) (h1024 : bits w 21 11 ≤ 1024) (hrole : bits w 13 3 ≠ 7) : s.writeInCfg i w =
      (((s.setBoth (TRS_IN_CFG i) (putBits w 11 2 0)).onInp (i / 64) (i % 64) (fun _ => {})).clearLoss (i / 64)
        (i % 64)).noteReady (i / 64) := by
  simp [State.writeInCfg, h, hidle, h8, h1024, hrole]

theorem State.writeInCfg_outOfRange (h : putBits w 11 2 0 ≠ s.reg (TRS_IN_CFG i)) (hidle : s.stnIdle (i / 64) = true)
    (hbad : bits w 21 11 < 8 ∨ 1024 < bits w 21 11 ∨ bits w 13 3 = 7) :
    ∃ t : State, s.writeInCfg i w = t.flagEngines TRS_FLAGS_WRITE_REFUSED ∧ t.grants = s.grants := by
  have hok : (decide (8 ≤ bits w 21 11 ∧ bits w 21 11 ≤ 1024) && bits w 13 3 != 7) = false := by
    rcases hbad with h | h | h <;> simp <;> omega
  have hgrants (v : Word) : ((((s.setBoth (TRS_IN_CFG i) v).onInp (i / 64) (i % 64) (fun _ => {})).clearLoss (i / 64)
      (i % 64)).noteReady (i / 64)).grants = s.grants :=
    (State.noteReady_grants _ _).trans (State.foldl_setFldBit_grants _ _ (fun g => TRS_FB_LOST_LOST g (i / 64) (i % 64 / 32)) _ _)
  simp only [State.writeInCfg, h, hidle, hok, if_false, Bool.not_true, Bool.false_eq_true]
  exact ⟨_, rfl, by rw [apply_ite State.grants, hgrants, ite_self]⟩

end

/-! ### Lost inputs (R158 to R161) -/

section
variable {n : Nat}

/-- The flag of a lost input by its class. -/
def lossFlag (cls g : Nat) : Fld :=
  match cls with
  | 1 => TRS_FLAGS_FB_LOST_CURRENT g
  | 2 => TRS_FLAGS_FB_LOST_VOLTAGE g
  | 3 => TRS_FLAGS_FB_LOST_POSITION g
  | _ => TRS_FLAGS_FB_LOST_OTHER g

theorem lossFlag_other {cls : Nat} (h : cls = 0 ∨ 3 < cls) (g : Nat) : lossFlag cls g = TRS_FLAGS_FB_LOST_OTHER g := by
  match cls, h with
  | 0, _ => rfl
  | c + 4, _ => rfl

theorem State.loseInput_eq {i : Nat} (hen : s.flag (TRS_IN_CFG_EN (slotNo n i)) = true) (hlost : (s.inpOf n i).lost = false) :
    s.loseInput n i = (s.engines.foldl (fun t g =>
      (t.setFldBit (TRS_FB_LOST_LOST g n (i / 32)) (i % 32) true).setFlag (lossFlag (s.fld (TRS_IN_CFG_CLASS (slotNo n i))) g))
      (s.onInp n i (fun x => { x with lost := true, good := 0, changed := false }))).lossReaction n
        (s.fld (TRS_IN_CFG_CLASS (slotNo n i))) := by
  unfold State.loseInput
  dsimp only
  rw [hen, hlost]
  rfl

theorem State.lossReaction_openLoop (hst : (s.stnOf n).st = .running) (hturn : (s.stnOf n).turn = none)
    (hty : s.stnType n = 0) (hpar : s.par n parT_OLV ≠ 0) : s.lossReaction n 2 =
      ((s.noteTurn n 10 .openLoopV).setSt n .openLoopV).onStn n (fun u => { u with olvBack := false }) := by
  have hhigh : (s.stnOf n).highHere = true := by simp [Stn.highHere, Stn.tripHere, Stn.enHigh, hst]
  have hbefore : (s.stnOf n).stBefore = .running := by
    rw [Stn.stBefore, hturn]
    exact Stn.stHere_of_st hst (by decide)
  simp [State.lossReaction, hhigh, hty, hbefore, hst, hturn, State.enterOpenLoop, hpar]

end

/-- Settles O11: each command is its one branch, and the flags of an engine stand in its own block. -/
theorem engineAndInputCommands : Obligations.EngineAndInputCommands := by
  refine ⟨fun e s hr he => ?_, fun s i w hr => ?_, fun n k s cls flag hr hnoisy hen hn hlost hcls hflag => ?_, fun n s => ?_,
    fun n k s t hr hlost hgood hch hstale ht => ?_⟩
  · have hopen (t : State) : writeWindow (0x12 + e) s t = .next t := writeWindow_open hr (s.window_trs he)
    have hread (t : State) : readWindow (0x12 + e) s t = .next t := readWindow_open s hr (s.window_trs he)
    refine ⟨fun hno => (hopen _).trans ?_, fun hyes => (hopen _).trans ?_, fun hyes hbusy => (hopen _).trans ?_, hread _, fun n => hread _⟩
    · rw [State.requestSwap]
      split
      · exact absurd ‹_› hno
      · rfl
    · rw [State.requestSwap, hyes]
      rfl
    · rw [s.requestSwap_busy hyes hbusy]
  · have hopen (t : State) : writeWindow 0x12 s t = .next t := writeWindow_open hr rfl
    refine ⟨fun hidle hne h8 h1024 hrole => (hopen _).trans ?_, fun hidle hne hbad => ?_, fun hidle hne => (hopen _).trans ?_,
      fun heq => (hopen _).trans ?_⟩
    · rw [s.writeInCfg_stored hne hidle h8 h1024 hrole]
    · obtain ⟨t, ht, hgrants⟩ := s.writeInCfg_outOfRange hne hidle hbad
      refine ⟨_, hopen _, ?_⟩
      rw [ht]
      have hB : t.grantB = s.grantB := by simp only [State.grantB, hgrants]
      exact hB ▸ t.flag_refused_flagEngines
    · rw [s.writeInCfg_busy hne hidle]
    · rw [s.writeInCfg_same heq]
  · have hfrozen : s.frozen n k (s.inpOf n k).same = true := by simp [State.frozen, hnoisy, hn]
    have hfl : lossFlag cls = flag := by
      rcases hflag with ⟨rfl, rfl⟩ | ⟨rfl, rfl⟩ | ⟨rfl, rfl⟩ | ⟨h, rfl⟩
      · rfl
      · rfl
      · rfl
      · exact funext fun g => lossFlag_other h g
    refine (whenRun_run s hr).trans ?_
    rw [if_pos hfrozen, s.loseInput_eq hen hlost, hcls, hfl]
  · refine ⟨fun hlow cls => ?_, fun hhigh => ?_, s.lossReaction_openLoop, fun hhigh hty => ?_, fun hhigh hty => ?_⟩
    · simp [State.lossReaction, hlow]
    · simp [State.lossReaction, hhigh]
    · simp [State.lossReaction, hhigh, hty]
    · simp [State.lossReaction, hhigh, hty]
  · subst ht
    have hrest : s.restorable n k = true := by simp [State.restorable, hlost, hgood, hch, hstale]
    refine ⟨fun h => (whenRun_run s hr).trans ?_, fun hst hv => (whenRun_run s hr).trans ?_⟩
    · rcases h with h | h <;> simp [State.restoreInput, hrest, h]
    · simp [State.restoreInput, hrest, hst, hv]

/-! ### A word that an input brings (R157, R205) -/

section
variable (n i : Nat) (w : Word)

theorem State.inpOf_watchSample : (s.watchSample n i w).inpOf n i =
    { s.inpOf n i with
      last := w, same := if (s.inpOf n i).same ≠ 0 ∧ w = (s.inpOf n i).last then (s.inpOf n i).same + 1 else 1
      good := ((s.watchSample n i w).inpOf n i).good, changed := ((s.watchSample n i w).inpOf n i).changed } := by
  simp [State.watchSample]

/-- The state in which the sample has been watched and, where it is one of the period's, noted. -/
def State.noteSample (s : State) (n i : Nat) (w : Word) : State :=
  if s.fld (TRS_IN_CFG_SRC_TYPE (slotNo n i)) == 0 then
    ((s.watchSample n i w).onPer n (fun p => { p with got := p.got ||| BitVec.ofNat 64 (2 ^ i) })).noteReady n
  else s.watchSample n i w

theorem State.noteReady_inp : (s.noteReady n).inp = s.inp ∧ (s.noteReady n).dmemA = s.dmemA ∧ (s.noteReady n).dmemB = s.dmemB := by
  unfold State.noteReady
  dsimp only
  split
  · split <;> exact ⟨rfl, rfl, rfl⟩
  · exact ⟨rfl, rfl, rfl⟩

theorem State.noteSample_keeps : (s.noteSample n i w).inpOf n i = (s.watchSample n i w).inpOf n i ∧
    (s.noteSample n i w).dmemA = s.dmemA ∧ (s.noteSample n i w).dmemB = s.dmemB := by
  unfold State.noteSample
  split
  · obtain ⟨hi, hA, hB⟩ := State.noteReady_inp ((s.watchSample n i w).onPer n (fun p => { p with got := p.got ||| BitVec.ofNat 64 (2 ^ i) })) n
    exact ⟨by simp only [State.inpOf, hi]; rfl, hA, hB⟩
  · exact ⟨rfl, rfl, rfl⟩

theorem State.deliver_lost (h : (s.inpOf n i).lost = true) : s.deliver n i w = s.noteSample n i w := by
  simp only [State.deliver, State.noteSample, h, if_true]

theorem State.deliver_sound (h : (s.inpOf n i).lost = false) : s.deliver n i w =
    s.engines.foldl (fun t e => t.setDmem e (0xE000 + n * 512 + i) w) ((s.noteSample n i w).onInp n i (fun x => { x with value := w })) := by
  simp only [State.deliver, State.noteSample, h, Bool.false_eq_true, if_false]

theorem State.setDmem_inp (e a : Nat) : (s.setDmem e a w).inp = s.inp := by
  unfold State.setDmem
  split <;> rfl

theorem State.dmem_setDmem_other {e e' : Nat} (a : Nat) (h : e = 0 ↔ e' ≠ 0) : (s.setDmem e' a w).dmem e a = s.dmem e a := by
  by_cases he : e = 0
  · simp [State.setDmem, State.dmem, he, h.mp he]
  · have he' : e' = 0 := not_not.mp (mt h.mpr he)
    simp [State.setDmem, State.dmem, he, he']

theorem State.dmem_setDmem (e a : Nat) : (s.setDmem e a w).dmem e a = w := by
  by_cases he : e = 0 <;> simp [State.setDmem, State.dmem, he]

/-- A word stored in the data memory of every engine. -/
theorem State.foldl_setDmem (t : State) (a : Nat) :
    (s.engines.foldl (fun t e => t.setDmem e a w) t).dmem 0 a = w ∧
    (s.engines.foldl (fun t e => t.setDmem e a w) t).inp = t.inp ∧
    (s.grantB = true → (s.engines.foldl (fun t e => t.setDmem e a w) t).dmem 1 a = w) := by
  unfold State.engines
  split
  · refine ⟨?_, ?_, fun _ => ?_⟩
    · exact (State.dmem_setDmem_other (t.setDmem 0 a w) w (e := 0) (e' := 1) a (by decide)).trans (t.dmem_setDmem w 0 a)
    · exact ((t.setDmem 0 a w).setDmem_inp w 1 a).trans (t.setDmem_inp w 0 a)
    · exact (t.setDmem 0 a w).dmem_setDmem w 1 a
  · exact ⟨t.dmem_setDmem w 0 a, t.setDmem_inp w 0 a, fun h => absurd h ‹_›⟩

theorem State.inpOf_deliver_sound (h : (s.inpOf n i).lost = false) :
    (s.deliver n i w).inpOf n i = { (s.watchSample n i w).inpOf n i with value := w } := by
  obtain ⟨hi, _, _⟩ := s.noteSample_keeps n i w
  have hinp := (s.foldl_setDmem w ((s.noteSample n i w).onInp n i (fun x => { x with value := w })) (0xE000 + n * 512 + i)).2.1
  rw [s.deliver_sound n i w h, State.inpOf, hinp]
  exact (State.inpOf_onInp _ n i _).trans (by rw [hi])

end

/-- Settles O12: the sample is watched, and its word stands in every engine's buffer unless the input is lost. -/
theorem inputWords : Obligations.InputWords := by
  intro n i w s
  obtain ⟨hi, hA, hB⟩ := s.noteSample_keeps n i w
  have hwatch := s.inpOf_watchSample n i w
  refine ⟨fun h => ?_, fun h => ?_, ?_⟩
  · have hmem := s.foldl_setDmem w ((s.noteSample n i w).onInp n i (fun x => { x with value := w })) (0xE000 + n * 512 + i)
    rw [s.inpOf_deliver_sound n i w h, s.deliver_sound n i w h]
    exact ⟨hmem.1, rfl, hmem.2.2⟩
  · rw [s.deliver_lost n i w h, hi, hwatch]
    exact ⟨hA, hB, rfl, h⟩
  · cases h : (s.inpOf n i).lost
    · rw [s.inpOf_deliver_sound n i w h, hwatch]
    · rw [s.deliver_lost n i w h, hi, hwatch]

end Sys2Proof.Machine
end

section
/-! O13 and O14: beats, privileged results, state copies and the switch-over. -/

namespace Sys2Proof.Machine

variable (s : State)

/-! ### The standby's state and the agreement of a station (R320, R335) -/

/-- A change of the standby's state, which may end its resynchronisation. -/
inductive StandbyMoved (s t : State) : Prop
  | quiet (r : RedUnit) (eq : t = { s with red := r })
  | done (r : RedUnit) (eq : t = ({ s with red := r } : State).setFlag RED_FLAGS_RESYNC_DONE)

theorem State.standbyRefresh_cases : StandbyMoved s s.standbyRefresh := by
  have hstandby (c : Nat) : ∃ r, s.setStandby c = { s with red := r } := by
    unfold State.setStandby
    split <;> exact ⟨_, rfl⟩
  unfold State.standbyRefresh
  split
  · split
    · split
      · obtain ⟨r, hr⟩ := hstandby 2
        exact .done { r with returning := false } (by rw [State.standbyBack, hr])
      · exact .quiet s.red rfl
    · obtain ⟨r, hr⟩ := hstandby 3
      exact .quiet r hr
  · exact .quiet s.red rfl

theorem State.standbyRefresh_stn (m : Nat) : s.standbyRefresh.stnOf m = s.stnOf m := by
  rcases s.standbyRefresh_cases with ⟨r, h⟩ | ⟨r, h⟩ <;> rw [h] <;> rfl

theorem State.standbyRefresh_fld {f : Fld} (h : f.addr ≠ RED_FLAGS ∨ f.lo + f.w ≤ 7 ∨ 8 ≤ f.lo) :
    s.standbyRefresh.fld f = s.fld f := by
  rcases s.standbyRefresh_cases with ⟨r, hs⟩ | ⟨r, hs⟩ <;> rw [hs]
  · rfl
  · exact State.fld_setFld_apart (f := RED_FLAGS_RESYNC_DONE) 1 (by decide) h

theorem State.setAgree_stn (n a m : Nat) : (s.setAgree n a).stnOf m = s.stnOf m := by simp [State.setAgree]

theorem State.fld_setAgree_zero (n : Nat) : (s.setAgree n 0).fld (RED_STN_AGREE n) = 0 ∧ (s.setAgree n 0).fld (RED_STN_SYNC n) = 0 :=
  ⟨(State.fld_setFld_elsewhere _ (RED_STN_SYNC n) (RED_STN_AGREE n) _).trans (s.fld_setFld _ (m := 1024) (by omega)),
    State.fld_setFld _ (RED_STN_SYNC n) (v := 0) (m := 2) (by omega)⟩

theorem State.fld_setAgree_ne {n a : Nat} {f : Fld} (h : f.addr ≠ RED_STN n) : (s.setAgree n a).fld f = s.fld f :=
  (State.fld_setFld_addr _ _ h).trans (s.fld_setFld_addr _ h)

/-! ### Beats (R325 to R329) -/

section
variable (hb : s.grantB = true)
include hb

theorem State.beats_both (hA : s.red.stA = 1) (hB : s.red.stB = 2) (hf : s.red.failing = false) (hmA : s.red.missA = false)
    (hmB : s.red.missB = false) (hdA : s.red.deadA = false) (hdB : s.red.deadB = false) :
    s.beats true true true true = { (s.setFld RED_STATUS_LINK_PATH 1).setFld RED_STATUS_TOGGLE_PATH 1 with
      red := { s.red with beatA := s.now, beatB := s.now } } := by
  simp [State.beats, hb, hdA, hdB, hA, hB, hf, hmA, hmB, watched, State.beatSlot, slotMiss]

theorem State.beats_failed (hA : s.red.stA = 1) (hB : s.red.stB = 2) (hact : s.red.active = 0) (hf : s.red.failing = false)
    (hmA : s.red.missA = true) (hdB : s.red.deadB = false) :
    (s.beats false true false true).red.stA = 4 ∧ (s.beats false true false true).red.failing = true ∧
      (s.beats false true false true).red.declared = s.now := by
  simp [State.beats, hb, hdB, hA, hB, hf, hmA, hact, watched, State.beatSlot, slotMiss, State.declareFailed, RedUnit.fail]

end

/-! ### Privileged results (R321 to R323) -/

theorem State.settlePeriod_open {n : Nat} (h : (s.stnOf n).per.copyDone = false) : s.settlePeriod n = s := by
  simp [State.settlePeriod, h]

theorem State.settlePeriod_settled {n : Nat} (h : (s.stnOf n).per.settled = true) : s.settlePeriod n = s := by
  simp [State.settlePeriod, h]

/-- The end of a period leaves the copy that the standby holds, and flags other than RESYNC_DONE. -/
theorem State.settlePeriod_copy (n : Nat) : ((s.settlePeriod n).stnOf n).sby = (s.stnOf n).sby ∧
    (s.settlePeriod n).flag RED_FLAGS_DISAGREE = s.flag RED_FLAGS_DISAGREE := by
  have hflag (t : State) (a : Nat) : ((t.setAgree n a).standbyRefresh).flag RED_FLAGS_DISAGREE = t.flag RED_FLAGS_DISAGREE := by
    simp only [State.flag]
    rw [State.standbyRefresh_fld _ (by decide), State.fld_setAgree_ne]
    simp only [RED_FLAGS_DISAGREE, RED_FLAGS, RED_STN]
    omega
  have hconsec (t : State) : (t.setFld (RED_STN_DIS_CONSEC n) 0).flag RED_FLAGS_DISAGREE = t.flag RED_FLAGS_DISAGREE := by
    refine t.flag_setFld_addr 0 ?_
    simp only [RED_FLAGS_DISAGREE, RED_FLAGS, RED_STN_DIS_CONSEC, RED_STN]
    omega
  simp only [State.settlePeriod]
  split
  · exact ⟨rfl, rfl⟩
  · rw [State.standbyRefresh_stn, State.setAgree_stn, hflag]
    split
    · simp
    · rw [hconsec]
      simp

/-- A period that ends with a difference leaves no agreement. -/
theorem State.settlePeriod_agree {n : Nat} (hd : (s.stnOf n).per.differs = true) (h : s.fld (RED_STN_AGREE n) = 0) :
    (s.settlePeriod n).fld (RED_STN_AGREE n) = 0 := by
  simp only [State.settlePeriod, hd]
  split
  · exact h
  · rw [State.standbyRefresh_fld _ (.inl (by simp only [RED_STN_AGREE, RED_STN, RED_FLAGS]; omega))]
    simpa using (State.fld_setAgree_zero _ n).1

/-- A first disagreement of the period: it is noted, counted and flagged, and the agreement is gone. -/
theorem State.disagree_first {n : Nat} (hd : (s.stnOf n).per.differs = false) (ho : (s.stnOf n).per.overran = false)
    (hs : (s.stnOf n).per.silent = false) (hf : s.red.failing = false) (hc : s.fld (RED_STN_DIS_CONSEC n) = 0) :
    ((s.disagree n).stnOf n).sby = (s.stnOf n).sby ∧ ((s.disagree n).stnOf n).per.differs = true ∧
      (s.disagree n).flag RED_FLAGS_DISAGREE = true ∧ (s.disagree n).fld (RED_STN_AGREE n) = 0 := by
  simp only [State.disagree, hd, ho, hs, hf, hc]
  refine ⟨?_, ?_, ?_, ?_⟩
  · simp [State.setAgree_stn]
  · simp [State.setAgree_stn]
  · refine (congrArg (· != 0) (State.fld_setAgree_ne _ ?_)).trans (State.flag_setFlag _ _)
    simp only [RED_FLAGS_DISAGREE, RED_FLAGS, RED_STN]
    omega
  · exact (State.fld_setAgree_zero _ n).1

/-- A copy that is lost: the station's agreement is gone, its full image is to come, and the standby holds what it held. -/
theorem State.loseCopy_leaves (n : Nat) : ((s.loseCopy n).stnOf n).sby = (s.stnOf n).sby ∧ ((s.loseCopy n).stnOf n).resend = true ∧
    (s.loseCopy n).fld (RED_STN_AGREE n) = 0 ∧ (s.loseCopy n).fld (RED_STN_SYNC n) = 0 ∧
    (s.loseCopy n).flag RED_FLAGS_COPY_LOST = true ∧
    (s.loseCopy n).fld RED_CNT2_COPY_LOST_CNT = min (s.fld RED_CNT2_COPY_LOST_CNT + 1) (2 ^ RED_CNT2_COPY_LOST_CNT.w - 1) := by
  have hstn {f : Fld} (hf : f.addr = RED_STN n) (t : State) : t.standbyRefresh.fld f = t.fld f :=
    t.standbyRefresh_fld (.inl (by rw [hf]; simp only [RED_STN, RED_FLAGS]; omega))
  have hagree {f : Fld} (hf : f.addr = RED_FLAGS ∨ f.addr = RED_CNT2) (t : State) : (t.setAgree n 0).fld f = t.fld f :=
    State.fld_setAgree_ne _ (by rcases hf with hf | hf <;> rw [hf] <;> simp only [RED_STN, RED_FLAGS, RED_CNT2] <;> omega)
  unfold State.loseCopy
  dsimp only
  refine ⟨?_, ?_, ?_, ?_, ?_, ?_⟩
  · simp [State.standbyRefresh_stn, State.setAgree_stn]
  · simp [State.standbyRefresh_stn, State.setAgree_stn]
  · rw [hstn rfl]
    exact (State.fld_setAgree_zero _ n).1
  · rw [hstn rfl]
    exact (State.fld_setAgree_zero _ n).2
  · rw [State.flag, State.standbyRefresh_fld _ (by decide), hagree (.inl rfl)]
    exact State.flag_setFlag _ _
  · rw [State.standbyRefresh_fld _ (by decide), hagree (.inr rfl), State.setFlag, State.fld_setFld_addr _ _ (by decide),
      State.fld_count_self _ (by decide)]
    rfl

/-- Settles O13: each command is its one branch, and what ends a period keeps the standby's copy. -/
theorem engineHealthAndCopies : Obligations.EngineHealthAndCopies := by
  refine ⟨fun s hr hb => ⟨fun hA hB hf hmA hmB hdA hdB => ?_, fun hA hB hact hf hmA hmB hdB => ?_, ?_, fun cause hc hB hact => ?_,
    fun n standby cycles hrun hcl hpriv => ?_, fun n k a b uA uB hst hact ho hsil hcopy houts heq => ?_⟩,
    fun n s hr hst hf hdue hdone => ⟨fun hact hset hsame => ?_, fun hact hd ho hsil hc upset hup => ?_, fun upset => ?_⟩⟩
  · exact (whenRun_run s hr).trans (by rw [s.beats_both hb hA hB hf hmA hmB hdA hdB])
  · exact ⟨_, whenRun_run s hr, s.beats_failed hb hA hB hact hf hmA hdB⟩
  · exact (whenRun_run s hr).trans (by simp [hb])
  · exact (whenRun_run s hr).trans (by simp [State.engineStops, hB, hact, hc, hb, watched])
  · exact (whenRun_run s hr).trans (by simp [State.classify, hb, hrun, hcl, hpriv])
  · refine (whenRun_run s hr).trans ?_
    simp [State.comparePriv, hst, hact, ho, hsil, houts, heq, State.settlePeriod_open
      (n := n.val) (s := s.onPer n (fun p => { p with compared := p.compared + 1, outs := p.outs.filter (fun e => e.1 != k.val) }))
      (by simpa using hcopy)]
  all_goals
    have hup' : s.standbyUp = true := (Bool.and_eq_true_iff.mp hst).1
  · refine (whenRun_run s hr).trans ?_
    simp [State.copyAck, hup', hdue, hdone, hf, hst, hact, hsame, State.settlePeriod_settled (n := n.val)
      (s := (s.copyState n).onPer n (fun p => { p with copyDone := true, copyOk := true })) (by simpa [State.copyState] using hset)]
    rfl
  · have hcopied : ((s.copyState n).onPer n (fun p => { p with copyDone := true, copyOk := true })).stnOf n =
        { s.stnOf n with
          sby := (s.stnOf n).eng, resend := false, per := { (s.stnOf n).per with copyDone := true, copyOk := true } } := by
      simp [State.copyState]
    obtain ⟨hsby, hdif, hflag, hagree⟩ :=
      ((s.copyState n).onPer n (fun p => { p with copyDone := true, copyOk := true })).disagree_first (n := n)
        (by rw [hcopied]; exact hd) (by rw [hcopied]; exact ho) (by rw [hcopied]; exact hsil) hf hc
    have hback : s.copyAck n true upset =
        (((s.copyState n).onPer n (fun p => { p with copyDone := true, copyOk := true })).disagree n).settlePeriod n := by
      have hdiff : (upset || s.privDiffers n) = true := by simpa using hup
      simp [State.copyAck, hup', hdue, hdone, hf, hst, hact, hdiff]
    refine ⟨_, whenRun_run s hr, ?_⟩
    rw [hback]
    obtain ⟨hs, hfl⟩ := State.settlePeriod_copy
      (((s.copyState n).onPer n (fun p => { p with copyDone := true, copyOk := true })).disagree n) n
    exact ⟨by rw [hs, hsby, hcopied], hfl.trans hflag, State.settlePeriod_agree _ hdif hagree⟩
  · refine ⟨_, whenRun_run s hr, ?_⟩
    have hlost : s.copyAck n false upset = s.loseCopy n := by simp [State.copyAck, hup', hdue, hdone, hf]
    rw [hlost]
    exact s.loseCopy_leaves n

/-! ### The switch-over (R330, R332) -/

theorem State.noteReady_frame (n : Nat) : ∃ l, s.noteReady n = { s with ready := l } := by
  simp only [State.noteReady]
  split
  · split
    · exact ⟨s.ready, rfl⟩
    · exact ⟨_, rfl⟩
  · exact ⟨_, rfl⟩

/-- The stations taken over by the engine that has become active. -/
def State.takeStations (s : State) : State := s.forAll 4 (fun n t => (t.onStn n Stn.takenOver).noteReady n)

theorem State.takeStations_red : s.takeStations.red = s.red := by
  refine forAll_rel (fun a b => b.red = a.red) (fun _ => rfl) (fun _ _ _ h h' => h'.trans h) _ (fun k t => ?_) 4 s
  obtain ⟨l, h⟩ := (t.onStn k Stn.takenOver).noteReady_frame k
  rw [h]
  rfl

theorem State.stnOf_takeStations {n : Nat} (hn : n < 4) : s.takeStations.stnOf n = (s.stnOf n).takenOver := by
  obtain ⟨t, _, hobs, h⟩ := State.forAll_at (fun _ _ => True) (fun _ => trivial) (fun _ _ _ _ _ => trivial)
    (f := fun n t => (t.onStn n Stn.takenOver).noteReady n) (fun _ _ => trivial) (fun t => t.stnOf n)
    (fun i t hi => by
      obtain ⟨l, h⟩ := (t.onStn i Stn.takenOver).noteReady_frame i
      rw [h]
      exact t.stnOf_onStn_ne _ hi.symm) hn s
  obtain ⟨l, hl⟩ := (t.onStn n Stn.takenOver).noteReady_frame n
  rw [State.takeStations, h, hl, ← hobs]
  exact t.stnOf_onStn n _

theorem State.switchover_eq (took : Nat) (hst : s.standbyRuns = true) (hf : s.red.failing = true) (hact : s.red.active = 0)
    (hsync : ∀ n, n < 4 → s.enabled n = true → s.synced n = true) : s.switchover took =
      ((((({ s with red := { s.red with stB := 1, active := 1, failing := false }, serving := none, ready := [] } : State).takeStations).setReg
        RED_LAST (BitVec.ofNat 32 (min took 4095 * 2 ^ 20 + min ((s.red.declared - s.red.beatA) / 4) 4095 * 2 ^ 8 + 2))).setFlag
        RED_FLAGS_FAILOVER).count RED_CNT0_FAILOVER_CNT) := by
  have hlost : (List.range 4).filter (fun n => s.enabled n && !s.synced n) = [] := by
    simpa [List.filter_eq_nil_iff] using hsync
  simp [State.switchover, hst, hf, hlost, State.takeRole, hact, State.takeStations]

/-- Settles O14: no station is lost, so the role and the stations change hands and RED_LAST tells of it. -/
theorem failOver : Obligations.FailOver := by
  intro took s hr hst hf hact hsync
  refine ⟨_, whenRun_run s hr, ?_⟩
  rw [s.switchover_eq took hst hf hact hsync]
  generalize hs : ({ s with red := _, serving := none, ready := [] } : State) = u
  have hred : u.red = { s.red with stB := 1, active := 1, failing := false } := by rw [← hs]
  have hstn (n : Nat) : u.stnOf n = s.stnOf n := by rw [← hs]; rfl
  refine ⟨?_, ?_, ?_, ?_, ?_, fun n hn => ?_⟩
  · simp [State.takeStations_red, hred]
  · simp [State.takeStations_red, hred]
  · simp [State.takeStations_red, hred]
  · exact (State.flag_count_addr _ (by decide)).trans (State.flag_setFlag _ _)
  · rw [State.reg_count_ne _ (by decide), State.setFlag, State.reg_setFld_ne _ _ (by decide)]
    exact State.reg_setReg_self _ _ _
  · simp only [State.count_reads, State.setFlag_reads, State.setReg_reads, u.stnOf_takeStations hn, hstn]
    exact ⟨rfl, rfl, rfl⟩

end Sys2Proof.Machine
end

section
/-! O20, O22 and O23: the converters, their calibration, and the sigma-delta channels. -/

namespace Sys2Proof.Machine

variable (s : State)

/-- Settles O20: a conversion, a go and an urgent request are each one branch of the converter. -/
theorem converterCommands : Obligations.ConverterCommands := by
  refine ⟨fun k raw s hr hseq => ⟨fun hidx => ?_, fun hidx hplen hpls hcal => ?_⟩,
    fun k s hen hcov => ⟨fun hseq hurg => ?_, fun hseq hat => ?_, fun hseq hat => ?_, fun hseq hurg => ?_, fun hr w => ?_⟩,
    fun k s hr => ⟨fun w hok hen hcov hseq hurg => ?_, fun w hok hseq => ?_, fun w hok => ?_, fun raw hurg => ?_⟩⟩
  · have hlen : (s.convOf k).idx < (s.convOf k).len := by omega
    have hlast : ¬ (s.convOf k).len + (s.convOf k).plen + (s.convOf k).pls.toNat ≤ (s.convOf k).idx + 1 := by omega
    exact (whenRun_run s hr).trans (by simp [State.convDone, hseq, hlen, hlast])
  · have hlen : (s.convOf k).idx < (s.convOf k).len := by omega
    have hlast : (s.convOf k).len + (s.convOf k).plen + (s.convOf k).pls.toNat ≤ (s.convOf k).idx + 1 := by simp [hplen, hpls, hidx]
    exact (whenRun_run s hr).trans (by simp [State.convDone, hseq, hlen, hplen, hpls, hidx, hcal])
  · simp [State.seqGo, hen, hcov, hseq, hurg]
  · simp [State.seqGo, hen, hcov, hseq, hat]
  · simp [State.seqGo, hen, hcov, hseq, hat]
  · simp [State.seqGo, hen, hcov, hseq, hurg]
  · exact writeWindow_open hr rfl
  · exact (writeWindow_open hr rfl).trans (by simp [State.writeUrg, hok, hen, hcov, hseq, hurg])
  · exact (writeWindow_open hr rfl).trans (by simp [State.writeUrg, hok, hseq])
  · exact (writeWindow_open hr rfl).trans (by simp [State.writeUrg, hok])
  · exact (whenRun_run s hr).trans (by simp [hurg])

/-! ### Calibration and plausibility pairs (R215 to R222) -/

theorem State.calRequest_accepted {k : Nat} (h : s.calRefusal k = 0) : s.calRequest k =
    ((({ s with cal := { target := k } } : State).setFld ADC_CAL_CTRL_REFUSE 0).setFld ADC_CAL_CTRL_FAIL 0).setFld ADC_CAL_CTRL_STATE 1 := by
  rw [State.calRequest, h]
  rfl

theorem State.calRequest_refused {k r : Nat} (h : s.calRefusal k = r) (hr : r ≠ 0) :
    s.calRequest k = (s.setFld ADC_CAL_CTRL_REFUSE r).setFlag ADC_FLAGS_CAL_REFUSED := by
  rw [State.calRequest, h]
  split
  · exact absurd rfl hr
  · rfl

/-- Settles O22: each step of a calibration is one branch on its state, and a stale pair is a disagreement. -/
theorem calibrationAndPairs : Obligations.CalibrationAndPairs := by
  refine ⟨fun s hr => ⟨fun k h => ?_, fun k r h hne => ?_, fun p hcal hp ha hb => ?_, fun coefs raw hcal => ?_, fun hcal => ?_,
    fun hcal => ?_, fun hcal => ?_⟩, fun p s hr hen hsus => ⟨fun hlim => ?_, fun hne hlim hfail => ?_⟩⟩
  · exact (writeWindow_open hr rfl).trans (by rw [State.calRequest_accepted _ h])
  · exact (writeWindow_open hr rfl).trans (by rw [State.calRequest_refused _ h hne])
  · exact (whenRun_run s hr).trans (by simp [hcal, hp, ha, hb])
  · exact (whenRun_run s hr).trans (by simp [hcal])
  · exact (whenRun_run s hr).trans (by simp [hcal, State.calFail])
  · exact (writeWindow_open hr rfl).trans (by simp [State.writeEndCover, hcal])
  · exact (writeWindow_open hr rfl).trans (by simp [State.writeEndCover, hcal])
  · have hbelow : ¬ s.fld ADC_PLS_OTP0_PLS_LIMIT ≤ min 255 (s.fld (ADC_PLS_STAT_CONSEC p) + 1) := by omega
    refine (whenRun_run s hr).trans ?_
    rw [hen, hsus, State.plsDisagree]
    simp only [hbelow, false_and, and_false, if_false]
    exact congrArg Host.Outcome.next (if_pos rfl)
  · refine (whenRun_run s hr).trans ?_
    have hfails : s.fld ADC_PLS_OTP0_PLS_LIMIT ≠ 0 ∧ s.fld ADC_PLS_OTP0_PLS_LIMIT ≤ min 255 (s.fld (ADC_PLS_STAT_CONSEC p) + 1) ∧
        (!s.flag (ADC_PLS_STAT_FAILED p)) = true := ⟨hne, hlim, by simp [hfail]⟩
    rw [hen, hsus, State.plsDisagree, if_pos hfails]
    exact congrArg Host.Outcome.next (if_pos rfl)

/-! ### Sigma-delta channels (R223 to R229) -/

theorem State.setDmem_regs (e a : Nat) (w : Word) : (s.setDmem e a w).regs = s.regs := by
  unfold State.setDmem
  split <;> rfl

theorem State.deliver_regs (n i : Nat) (w : Word) : (s.deliver n i w).regs = s.regs := by
  have hnoted : (s.noteSample n i w).regs = s.regs := by
    unfold State.noteSample
    split
    · obtain ⟨l, h⟩ := State.noteReady_frame ((s.watchSample n i w).onPer n (fun p => { p with got := p.got ||| BitVec.ofNat 64 (2 ^ i) })) n
      rw [h]
      rfl
    · rfl
  cases h : (s.inpOf n i).lost
  · rw [s.deliver_sound n i w h]
    exact (foldl_rel (fun a b => b.regs = a.regs) (fun _ => rfl) (fun _ _ _ h h' => h'.trans h)
      (fun (t : State) e => t.setDmem e (0xE000 + n * 512 + i) w) (fun t e => t.setDmem_regs e _ w) _ _).trans hnoted
  · rw [s.deliver_lost n i w h, hnoted]

theorem State.deliverAll_regs (srcType srcIndex : Nat) (w : Word) : (s.deliverAll srcType srcIndex w).regs = s.regs := by
  unfold State.deliverAll
  refine foldl_rel (fun a b => b.regs = a.regs) (fun _ => rfl) (fun _ _ _ h h' => h'.trans h) _ (fun t e => ?_) _ s
  split
  · exact t.deliver_regs _ _ w
  · rfl

/-- The result register holds the value of the filter over the bits that the output completes. -/
theorem State.reg_sdmOut (c : Fin 48) (bits : List Bool) : (s.sdmOut c bits).reg (SDM_RES c) =
    f32OfRat (sdmValue (sincOf (s.fld (SDM_CFG_DEC c)) (s.fld (SDM_CFG_ORDER c))
      ((((List.range (s.fld (SDM_CFG_DEC c))).map (fun i => bits.getD i false)).reverse ++ (s.sdmOf c).hist).take
        (s.fld (SDM_CFG_ORDER c) * s.fld (SDM_CFG_DEC c)))) (s.fld (SDM_CFG_DEC c)) (s.fld (SDM_CFG_ORDER c))) := by
  have hbit (on : Prop) [Decidable on] (t : State) (f : Fld) (hf : SDM_RES c ≠ f.addr) (i : Nat) (b : Bool) :
      (if on then t.setFldBit f i b else t).reg (SDM_RES c) = t.reg (SDM_RES c) := by
    split
    · exact State.reg_setReg_ne _ _ hf
    · rfl
  have hset : SDM_RES c ≠ (SDM_SETTLED_SETTLED (c / 32)).addr := by
    simp only [SDM_RES, SDM_SETTLED_SETTLED, SDM_SETTLED]
    omega
  have hno : SDM_RES c ≠ (SDM_NOTRANS_NOTRANS (c / 32)).addr := by
    simp only [SDM_RES, SDM_NOTRANS_NOTRANS, SDM_NOTRANS]
    omega
  unfold State.sdmOut
  dsimp only
  rw [State.reg, State.deliverAll_regs]
  refine (hbit _ _ _ hno _ _).trans ((hbit _ _ _ hset _ _).trans ?_)
  exact State.reg_setReg_self _ _ _

theorem State.shortForce_above {c : Nat} {bits : List Bool} (hcfg : s.flag (SDM_CFG_EN c) = true) (hen : s.flag (SDM_SF_CFG_EN c) = true)
    (hlt : signedOf 16 (s.fld (SDM_SF_LIM_LO c)) < signedOf 16 (s.fld (SDM_SF_LIM_HI c)))
    (hout : (signedOf 16 (s.fld (SDM_SF_LIM_HI c)) : Rat) < shortOut (s.fld (SDM_SF_CFG_SR c)) bits) :
    s.shortForce c bits = some false := by
  simp [State.shortForce, hcfg, hen, hlt, hout]

/-- Settles O23: an output of a running channel, its wait, a missing transition and a force are each one branch. -/
theorem sigmaDelta : Obligations.SigmaDelta := by
  intro c s hr hen
  refine ⟨fun bits hst hclk => ⟨(whenRun_run s hr).trans (by simp [hen, hst, hclk]), s.reg_sdmOut c bits⟩, fun hw => ?_, ?_,
    fun bits hsf hlt hout => ?_⟩
  · exact (whenRun_run s hr).trans (by simp [hw])
  · exact (whenRun_run s hr).trans (by simp [hen])
  · refine (whenRun_run s hr).trans ?_
    rw [s.shortForce_above hen hsf hlt hout]

end Sys2Proof.Machine
end

section
/-! O24 and O25: commands and records of Chest. -/

namespace Sys2Proof.Machine

variable (s : State)

/-! ### A taken trigger (R269, R271) -/

/-- The streams begin their post-trigger part. -/
def State.startPost (s : State) : State :=
  s.forAll 32 (fun k t => t.onStream k (fun c =>
    { c with preValid := min c.filled (s.fld CHS_PRE_PRE), post := 0, lost := 0, gapStored := 0, gaps := 0 }))

theorem State.streamOf_startPost {k : Nat} (hk : k < 32) : s.startPost.streamOf k =
    { s.streamOf k with
      preValid := min (s.streamOf k).filled (s.fld CHS_PRE_PRE), post := 0, lost := 0, gapStored := 0, gaps := 0 } := by
  obtain ⟨t, _, hobs, h⟩ := State.forAll_at (fun _ _ => True) (fun _ => trivial) (fun _ _ _ _ _ => trivial)
    (f := fun k t => t.onStream k (fun c =>
      { c with preValid := min c.filled (s.fld CHS_PRE_PRE), post := 0, lost := 0, gapStored := 0, gaps := 0 }))
    (fun _ _ => trivial) (fun t => t.streamOf k) (fun i t hi => State.streamOf_onStream_ne t _ hi.symm) hk s
  unfold State.startPost
  rw [h, State.streamOf_onStream, hobs]

theorem State.chestTake_eq (src time : Nat) : ∃ c : ChestUnit, c.trigSrc = src ∧ c.tTrig = time ∧
    ∃ d : ChestUnit, s.chestTake src time =
      { (({ s.startPost with chest := d } : State).setFld CHS_STATUS_STATE 2).setFlagIf (!s.preFull) CHS_FLAGS_PRE_SHORT with
        chest := c } := by
  unfold State.chestTake
  dsimp only
  rw [show s.forAll 32 _ = s.startPost from rfl]
  generalize s.startPost = t
  cases s.preFull
  · exact ⟨_, rfl, rfl, _, rfl⟩
  · exact ⟨_, rfl, rfl, _, rfl⟩

theorem State.chestTake_leaves (src time : Nat) : (s.chestTake src time).fld CHS_STATUS_STATE = 2 ∧
    (s.chestTake src time).chest.trigSrc = src ∧ (s.chestTake src time).chest.tTrig = time ∧
    (s.preFull = false → (s.chestTake src time).flag CHS_FLAGS_PRE_SHORT = true) ∧
    ∀ k, (s.chestTake src time).streamOf k = s.startPost.streamOf k := by
  obtain ⟨c, hsrc, htime, d, h⟩ := s.chestTake_eq src time
  rw [h]
  generalize s.startPost = t
  have hstate (u : State) : (u.setFld CHS_STATUS_STATE 2).fld CHS_STATUS_STATE = 2 := u.fld_setFld _ (m := 8) (by omega)
  cases s.preFull
  · exact ⟨(State.fld_setFld_addr _ 1 (by decide)).trans (hstate { t with chest := d }), hsrc, htime,
      fun _ => State.flag_setFlag (({ t with chest := d } : State).setFld CHS_STATUS_STATE 2) CHS_FLAGS_PRE_SHORT, fun _ => rfl⟩
  · exact ⟨hstate { t with chest := d }, hsrc, htime, nofun, fun _ => rfl⟩

/-! ### Commands of Chest (R264 to R273) -/

theorem devRuns_of_dataRuns {s : State} (h : s.dataRuns = true) : s.devRuns = true := by
  simp only [State.dataRuns, Bool.and_eq_true] at h
  exact h.1.1

theorem whenData_run {s t : State} (h : s.dataRuns = true) : whenData s t = .next t := by simp [whenData, h]

theorem writeWindow_chest {s t : State} (hr : s.dataRuns = true) (hg : s.grantChest = true) : writeWindow 0x1D s t = .next t := by
  simp [writeWindow, devRuns_of_dataRuns hr, State.window, hg, State.gatedWindow]

section
variable (hg : s.grantChest = true)
include hg

theorem State.chestTrigger_taken {src time : Nat} (hst : s.chestState = 1) (hwait : s.flag CHS_CFG_PRE_WAIT = false)
    (hat : s.chest.trigAt ≠ some s.now) : s.chestTrigger src time =
      { s.chestTake src time with chest := { (s.chestTake src time).chest with trigAt := some s.now, trigTaken := true } } := by
  unfold State.chestState at hst
  simp [State.chestTrigger, State.chestRecognise, hg, hat, hst, hwait, (s.chestTake_leaves src time).1]

theorem State.chestTrigger_missed {src time : Nat} (hst : s.chestState = 2) (hat : s.chest.trigAt ≠ some s.now) :
    s.chestTrigger src time = { (s.count CHS_CNT0_TRG_BUSY_CNT).setFlag CHS_FLAGS_TRG_MISSED with
      chest := { s.chest with trigAt := some s.now, trigTaken := false } } := by
  unfold State.chestState at hst
  simp [State.chestTrigger, State.chestRecognise, hg, hat, hst]

end

/-- Settles O24: each command of Chest is one branch on its state. -/
theorem chestCommands : Obligations.ChestCommands := by
  intro s hr hg
  have hopen (t : State) : writeWindow 0x1D s t = .next t := writeWindow_chest hr hg
  refine ⟨fun hst hok => (hopen _).trans ?_, fun r hst hno hne => (hopen _).trans ?_, fun hst => (hopen _).trans ?_,
    fun hst => (hopen _).trans ?_, fun hst => (hopen _).trans ?_, fun hst hwait hat => (hopen _).trans ?_,
    fun hst hat => (hopen _).trans ?_, fun hat htaken hsrc => (hopen _).trans ?_, fun hst htmo => ?_, fun hst hseg => ?_⟩
  · have hidle : ¬ (s.chestState ≠ 0 ∧ s.chestState ≠ 4) := by omega
    simp only [State.chestArm, hg, hidle, hok]
    rfl
  · have hidle : ¬ (s.chestState ≠ 0 ∧ s.chestState ≠ 4) := by omega
    have hmatch : s.chestArm = (s.setFld CHS_STATUS_ARM_REFUSE r).setFlag CHS_FLAGS_ARM_REFUSED := by
      simp only [State.chestArm, hg, hidle]
      subst hno
      simp [hne]
    rw [hmatch]
  · have hbusy : s.chestState ≠ 0 ∧ s.chestState ≠ 4 := by omega
    simp [State.chestArm, hg, hbusy]
  · simp [State.chestStop, hg, hst]
  · simp [State.chestStop, hg, hst]
  · rw [State.chestForce, s.chestTrigger_taken hg hst hwait hat]
  · rw [State.chestForce, s.chestTrigger_missed hg hst hat]
  · have hmin : min s.chest.trigSrc 255 = s.chest.trigSrc := Nat.min_eq_left hsrc
    have hsame : ({ s with chest := { s.chest with trigSrc := min s.chest.trigSrc 255 } } : State) = s := by rw [hmin]
    rw [State.chestForce, State.chestTrigger, if_neg (by simp [hg]), if_pos hat, if_pos htaken, hsame]
  · exact (whenData_run hr).trans (by simp [hg, hst, htmo])
  · simp [State.chestRearm, hg, hst, hseg]

end Sys2Proof.Machine
end

section
/-! O25: samples, gaps and bursts of a Chest stream. -/

namespace Sys2Proof.Machine

variable (s : State)

/-! ### Bursts that leave a staging buffer (R274) -/

/-- Words stored one after another, each at its own address. -/
def State.storeWords (s : State) (l : List (Nat × Word)) : State :=
  l.foldl (fun (t : State) p => t.setBytes p.1 (leBytes p.2)) s

theorem State.byte_storeWords_ne {l : List (Nat × Word)} {a : Nat} (h : ∀ p ∈ l, a < p.1 ∨ p.1 + 4 ≤ a) :
    (s.storeWords l).byte a = s.byte a := by
  induction l generalizing s with
  | nil => rfl
  | cons p l ih =>
    have hp := h p (by simp)
    exact (ih (s.setBytes p.1 (leBytes p.2)) (fun q hq => h q (by simp [hq]))).trans (s.byte_setBytes_ne (leBytes p.2) p.1 a hp)

theorem State.bytes_of_byte {s t : State} (a n : Nat) (h : ∀ i, i < n → t.byte (a + i) = s.byte (a + i)) : t.bytes a n = s.bytes a n := by
  induction n generalizing a with
  | zero => rfl
  | succ n ih =>
    have hnext (i : Nat) (hi : i < n) : t.byte (a + 1 + i) = s.byte (a + 1 + i) := by
      rw [Nat.add_assoc, Nat.add_comm 1 i]
      exact h (i + 1) (by omega)
    have hhead : t.byte a = s.byte a := h 0 (by omega)
    rw [State.bytes, State.bytes, hhead, ih (a + 1) hnext]

theorem State.bytes_storeWords {l : List (Nat × Word)} (hd : l.Pairwise (fun p q => p.1 + 4 ≤ q.1 ∨ q.1 + 4 ≤ p.1)) {p : Nat × Word}
    (hp : p ∈ l) : (s.storeWords l).bytes p.1 4 = leBytes p.2 := by
  induction l generalizing s with
  | nil => simp at hp
  | cons q l ih =>
    obtain ⟨hq, hl⟩ := List.pairwise_cons.mp hd
    rcases List.mem_cons.mp hp with rfl | hp
    · refine (State.bytes_of_byte p.1 4 (fun i hi => ?_)).trans (s.bytes_setBytes (leBytes p.2) p.1)
      refine State.byte_storeWords_ne (s.setBytes p.1 (leBytes p.2)) (fun r hr => ?_)
      have := hq r hr
      omega
    · exact ih _ hl hp

theorem State.drain_eq (k n : Nat) : s.drain k n = (s.storeWords ((s.streamOf k).staged.take n)).onStream k (fun c =>
    { c with staged := c.staged.drop n }) := rfl

theorem State.storeWords_streams (l : List (Nat × Word)) : (s.storeWords l).streams = s.streams :=
  foldl_rel (fun a b => b.streams = a.streams) (fun _ => rfl) (fun _ _ _ h h' => h'.trans h)
    (fun (t : State) (p : Nat × Word) => t.setBytes p.1 (leBytes p.2)) (fun t p => by simp) l s

theorem State.streamOf_drain (k n : Nat) : (s.drain k n).streamOf k = { s.streamOf k with staged := (s.streamOf k).staged.drop n } := by
  rw [State.drain_eq, State.streamOf_onStream]
  simp only [State.streamOf, State.storeWords_streams]

theorem State.byte_drain (k n a : Nat) : (s.drain k n).byte a = (s.storeWords ((s.streamOf k).staged.take n)).byte a := rfl

/-! ### A sample (R261, R274) -/

/-- Where no trigger is enabled, a sample fires none and changes only the triggers' own memory of it. -/
theorem State.sampleTriggers_off (k : Nat) (w : Word) (h : ∀ t, t < 8 → s.actFld (CHS_TRG_EN t) = 0) :
    ∃ l, s.sampleTriggers k w = { s with trigs := l } := by
  have hoff (t : Nat) (ht : t < 8) : (s.trigSample t k w).1 = false := by simp [State.trigSample, h t ht]
  have hfired : (List.range 8).filter (fun t => (s.trigSample t k w).1) = [] := by
    simpa [List.filter_eq_nil_iff] using hoff
  simp only [State.sampleTriggers, hfired]
  exact foldl_rel (fun a b => ∃ l, b = { a with trigs := l }) (fun a => ⟨a.trigs, rfl⟩)
    (fun a b c ⟨l, hb⟩ ⟨m, hc⟩ => ⟨m, by rw [hc, hb]⟩) (fun (x : State) t => x.onTrig t (fun _ => (s.trigSample t k w).2))
    (fun _ _ => ⟨_, rfl⟩) _ s

/-- The state that stores a sample, after no burst, no gap's end and no trigger. -/
theorem State.sampleArrives {k : Nat} (w : Word) (hgap : (s.streamOf k).inGap = false) (h : ∀ t, t < 8 → s.actFld (CHS_TRG_EN t) = 0) :
    ∃ u, ((s.drainBursts k 0).gapOver k).sampleTriggers k w = u ∧ u.regs = s.regs ∧ u.mem = s.mem ∧
      u.streamOf k = s.streamOf k := by
  have hdrain : s.drainBursts k 0 = s.onStream k (fun c => c) := by
    simp [State.drainBursts, State.drain]
  have hover : (s.drainBursts k 0).gapOver k = s.onStream k (fun c => c) := by
    rw [hdrain]
    simp [State.gapOver, hgap]
  rw [hover]
  obtain ⟨m, hm⟩ := State.sampleTriggers_off (s.onStream k (fun c => c)) k w h
  refine ⟨_, hm, rfl, rfl, ?_⟩
  exact s.streamOf_onStream k (fun c => c)

/-- What Chest reads from its registers alone. -/
theorem State.chest_of_regs {s t : State} (h : t.regs = s.regs) : t.chestState = s.chestState ∧ t.segLen = s.segLen ∧
    t.slotAddr = s.slotAddr ∧ (∀ k, t.blocksBelow k = s.blocksBelow k) ∧ (∀ k, t.elemBytes k = s.elemBytes k) := by
  have hfld (f : Fld) : t.fld f = s.fld f := by simp only [State.fld, State.reg, h]
  have hon (k : Nat) : t.streamOn k = s.streamOn k := by simp only [State.streamOn, State.flag, hfld]
  have helem (k : Nat) : t.elemBytes k = s.elemBytes k := by simp only [State.elemBytes, hfld]
  have hlen : t.segLen = s.segLen := hfld _
  have hbelow (k : Nat) : t.blocksBelow k = s.blocksBelow k := by simp only [State.blocksBelow, hon, hlen, helem]
  exact ⟨hfld _, hlen, by simp only [State.slotAddr, State.slotBytes, hfld, hbelow], hbelow, helem⟩

section
variable {k : Nat} (hst : s.chestState = 1)
include hst

theorem State.segmentCheck_armed : s.segmentCheck = s := by simp [State.segmentCheck, hst]

theorem State.takeSample_stored (w : Word) (hgap : (s.streamOf k).inGap = false) (hred : s.fld (CHS_STR_CFG_REDUCE k) = 0)
    (hroom : s.bufferFull k = false) : s.takeSample k w = s.putElement k [w] := by
  simp [State.takeSample, State.collects, hst, hgap, hroom, State.storeSample, hred]

theorem State.takeSample_full (w : Word) (hgap : (s.streamOf k).inGap = false) (hfull : s.bufferFull k = true) :
    s.takeSample k w = s.openGap k := by
  simp [State.takeSample, State.collects, hst, hgap, hfull]

end

/-- Flags of Chest other than EVLOG_WRAP stand through an entry of the event log. -/
theorem State.flag_logEvent (typ unit index code : Nat) {f : Fld} (h : f.addr = CHS_FLAGS) (hlo : f.lo + f.w ≤ 10 ∨ 11 ≤ f.lo) :
    (s.logEvent typ unit index code).flag f = s.flag f := by
  have hset (t : State) (c : Bool) : (t.setFlagIf c CHS_FLAGS_EVLOG_WRAP).flag f = t.flag f := by
    cases c
    · rfl
    · exact State.flag_setFld_apart 1 (by decide) (.inr hlo)
  have hbytes (a : Nat) (l : List Byte) (c : ChestUnit) : ({ s.setBytes a l with chest := c } : State).flag f = s.flag f :=
    State.flag_of_reg (congrArg (tget regReset · f.addr) (s.setBytes_rest a l).1)
  unfold State.logEvent
  dsimp only
  rw [apply_ite (State.flag · f), hset, hbytes, ite_self]

theorem State.logEvent_streams (typ unit index code : Nat) : (s.logEvent typ unit index code).streams = s.streams := by
  have hlogged (x : Nat) (l : List Byte) (c : ChestUnit) (on : Bool) :
      (({ s.setBytes x l with chest := c } : State).setFlagIf on CHS_FLAGS_EVLOG_WRAP).streams = s.streams := by
    cases on <;> simp
  unfold State.logEvent
  exact (apply_ite State.streams _ _ _).trans ((ite_congr rfl (fun _ => hlogged _ _ _ _) (fun _ => rfl)).trans (ite_self _))

/-- A gap that opens before the trigger: its mark and flag; nothing staged is lost. -/
theorem State.openGap_armed {k : Nat} (hst : s.chestState = 1) : (s.openGap k).chestState = 1 ∧
    ((s.openGap k).streamOf k).inGap = true ∧ (s.openGap k).flag CHS_FLAGS_GAP = true ∧
    ((s.openGap k).streamOf k).staged = (s.streamOf k).staged ∧ ((s.openGap k).streamOf k).filled = 0 := by
  have hfull : ∀ u : State, (((u.count CHS_CNT1_GAP_CNT).setFlag CHS_FLAGS_GAP).logEvent 5 0 k (u.fld CHS_STATUS_SEG)).chestState =
      u.chestState := fun u =>
    (State.fld_of_reg (State.reg_logEvent_ne _ (by decide) 5 0 k _)).trans
      ((State.fld_setFld_addr _ 1 (by decide)).trans (State.fld_count_addr u (by decide)))
  have hpost : decide (s.chestState = 2) = false := by simp [hst]
  unfold State.openGap
  rw [hpost]
  refine ⟨(hfull s).trans hst, ?_, ?_, ?_, ?_⟩
  · simp
  · exact (State.flag_logEvent _ 5 0 k _ rfl (by decide)).trans (State.flag_setFlag _ _)
  · rw [State.streamOf_onStream]
    have hkept := (State.logEvent_streams ((s.count CHS_CNT1_GAP_CNT).setFlag CHS_FLAGS_GAP) 5 0 k (s.fld CHS_STATUS_SEG)).trans
      (by simp : _ = s.streams)
    exact congrArg (fun l => (tget (fun _ => ({} : ChestStream)) l k).staged) hkept
  · rw [State.streamOf_onStream]
    rfl

/-- Settles O25: a trigger starts every stream's post part; a sample goes to its place, opens a gap, or is drained. -/
theorem chestRecords : Obligations.ChestRecords := by
  refine ⟨fun s src time => ?_, fun k s hr hg hon => ⟨fun hst hgap hred hroom htrg => ?_, fun hst hgap hfull htrg => ?_,
    fun b l hl hgap => ⟨?_, fun a ha => ?_, fun hd p hp => ?_⟩, fun b hgap hfree => ⟨?_, ?_⟩⟩⟩
  · obtain ⟨hstate, hsrc, htime, hshort, hstreams⟩ := s.chestTake_leaves src time
    refine ⟨hstate, hsrc, htime, hshort, fun k hk => ?_⟩
    rw [hstreams, s.streamOf_startPost hk]
    exact ⟨rfl, rfl⟩
  · obtain ⟨u, harr, hregs, hmem, hk⟩ := s.sampleArrives (s.sampleWord k) hgap htrg
    obtain ⟨hstate, hlen, hslot, hbelow, helem⟩ := State.chest_of_regs hregs
    have hbytes : s.elemBytes k = 4 := by simp [State.elemBytes, hred]
    have hstored : s.chestSample k (.sample 0) = u.putElement k [s.sampleWord k] := by
      have hu := u.takeSample_stored (hstate.trans hst) (s.sampleWord k) (by rw [hk, hgap])
        ((State.fld_of_reg (congrArg (tget regReset · _) hregs)).trans hred) (by simpa [State.bufferFull, hk, helem] using hroom)
      simp only [State.chestSample, hg, hon, harr, hu]
      exact State.segmentCheck_armed _ (hstate.trans hst)
    refine ⟨_, whenData_run hr, ?_⟩
    rw [hstored]
    refine ⟨?_, ?_, ?_, hmem⟩ <;> simp [State.putElement, hk, hslot, hbelow, hlen, helem, hbytes]
  · obtain ⟨u, harr, hregs, hmem, hk⟩ := s.sampleArrives (s.sampleWord k) hgap htrg
    obtain ⟨hstate, -, -, -, helem⟩ := State.chest_of_regs hregs
    obtain ⟨hst', hin, hflag, hstaged, hfilled⟩ := u.openGap_armed (k := k) (hstate.trans hst)
    have hopened : s.chestSample k (.sample 0) = u.openGap k := by
      have hu := u.takeSample_full (hstate.trans hst) (s.sampleWord k) (by rw [hk, hgap])
        (by simpa [State.bufferFull, hk, helem] using hfull)
      simp only [State.chestSample, hg, hon, harr, hu]
      exact State.segmentCheck_armed _ hst'
    refine ⟨_, whenData_run hr, ?_⟩
    rw [hopened]
    exact ⟨hin, hflag, by rw [hstaged, hk], hfilled⟩
  · refine (whenData_run hr).trans ?_
    simp [hg, State.gapOver, State.drainBursts, State.streamOf_drain, hgap]
  · subst hl
    exact s.byte_storeWords_ne ha
  · subst hl
    exact (State.bytes_of_byte (s := s.storeWords _) p.1 4 (fun _ _ => rfl)).trans (s.bytes_storeWords hd hp)
  · refine (whenData_run hr).trans ?_
    have hgap' : ((s.drainBursts k b).streamOf k).inGap = true := by simpa [State.drainBursts, State.streamOf_drain] using hgap
    simp [hg, State.gapOver, hgap', hfree]
  · generalize s.drainBursts k b = t
    simp only [State.endGap, State.closeGap]
    split
    · split <;> simp
    · simp

end Sys2Proof.Machine
end

section
/-! O26: commands of the DMA channels and of the check-value units. -/

namespace Sys2Proof.Machine

variable (s : State)

/-- A window above the station blocks is not gated by the power state. -/
theorem writeWindow_data {s t : State} {x : Nat} (hr : s.devRuns = true) (hx : 0x18 < x) (h : s.window x = some true) :
    writeWindow x s t = .next t := by
  have hgate : s.gatedWindow x = false := by
    have hout : ¬ (0x08 ≤ x ∧ x ≤ 0x18) := by omega
    simp [State.gatedWindow, hout]
  simp [writeWindow, hr, h, hgate]

theorem readWindow_data {s t : State} {x : Nat} (hr : s.devRuns = true) (hx : 0x18 < x) (h : s.window x = some true) :
    readWindow x s t = .next t := by
  have hgate : s.gatedWindow x = false := by
    have hout : ¬ (0x08 ≤ x ∧ x ≤ 0x18) := by omega
    simp [State.gatedWindow, hout]
  simp [readWindow, hr, h, hgate]

section
variable {u : Nat}

theorem State.cvuWrite_free (f : State → State) (h : (s.cvuOf u).boundTo = none) : s.cvuWrite u f = f s := by
  simp [State.cvuWrite, h]

theorem State.cvuWrite_bound (f : State → State) {m : Nat} (h : (s.cvuOf u).boundTo = some m) :
    s.cvuWrite u f = (s.setFlag CVU_FLAGS_WRITE_REFUSED).setFld CVU_FLAGS_REFUSED_UNIT (2 ^ u) := by
  simp [State.cvuWrite, h, State.cvuRefuse]

end

/-- Settles O26: a channel command is one branch on the channel's state; a unit's write is one on its binding. -/
theorem dmaAndCvuCommands : Obligations.DmaAndCvuCommands := by
  refine ⟨fun n s hr => ?_, fun u w s hr hfree => ?_, fun u w m s hr hbound => ?_⟩
  · have hopen (t : State) : writeWindow 0x1B s t = .next t := writeWindow_data (devRuns_of_dataRuns hr) (by decide) rfl
    refine ⟨fun hst => (hopen _).trans ?_, fun hst => (hopen _).trans ?_, fun hst => (hopen _).trans ?_,
      fun hout => (hopen _).trans ?_, fun hout => (hopen _).trans ?_⟩
    · rcases hst with h | h | h <;> simp [State.dmaStart, h]
    · simp [State.dmaStart, hst]
    · simp [State.dmaStop, hst, State.setChState]
    · simp [State.clearHalt, hout]
    · simp [State.clearHalt, hout]
  · have hopen (t : State) : writeWindow 0x1C s t = .next t := writeWindow_data (devRuns_of_dataRuns hr) (by decide) rfl
    have hfeed (k : Nat) := s.cvuWrite_free (fun s => s.onCvu u (fun c => { c with feeds := c.feeds ++ [(leBytes w).take k] })) hfree
    refine ⟨(hopen _).trans (congrArg _ (hfeed 1)), (hopen _).trans (congrArg _ (hfeed 2)), (hopen _).trans (congrArg _ (hfeed 4)),
      fun f rest hf => ?_, (hopen _).trans ?_, fun hidle hne => (hopen _).trans ?_, fun k => ?_⟩
    · exact (whenData_run hr).trans (by simp [hf])
    · rw [State.cvuLoadInit, s.cvuWrite_free _ hfree]
    · have hmoved : ¬ (s.reg (CVU_POLY_LO u) = s.cvuHeld u 0 ∧ s.reg (CVU_POLY_HI u) = w) := by tauto
      simp [State.cvuWriteHi, s.cvuWrite_free _ hfree, hidle, hmoved]
    · exact readWindow_data (devRuns_of_dataRuns hr) (by decide) rfl
  · have hopen (t : State) : writeWindow 0x1C s t = .next t := writeWindow_data hr (by decide) rfl
    have hrefuse (f : State → State) := (hopen (s.cvuWrite u f)).trans (congrArg _ (s.cvuWrite_bound f hbound))
    exact ⟨hrefuse _, hrefuse _, hrefuse _, hrefuse _, fun k => hrefuse _⟩

end Sys2Proof.Machine
end

section
/-! O27: transfers, completion and halts of the DMA engine. -/

namespace Sys2Proof.Machine

variable (s : State)

/-! ### Issued reads leave the channels' progress (R287) -/

/-- The issue of reads leaves memory, the descriptors' progress, the check-value units, and every register but the stall counter and flags. -/
structure ReadsIssued (s t : State) : Prop where
  mem : t.mem = s.mem
  returned : ∀ n, (t.chOf n).returned = (s.chOf n).returned
  reg : ∀ a, a ≠ DMA_CNT → a ≠ DMA_FLAGS → t.reg a = s.reg a

theorem ReadsIssued.refl (s : State) : ReadsIssued s s := ⟨rfl, fun _ => rfl, fun _ _ _ => rfl⟩

theorem ReadsIssued.trans {a b c : State} (h : ReadsIssued a b) (h' : ReadsIssued b c) : ReadsIssued a c :=
  ⟨h'.mem.trans h.mem, fun n => (h'.returned n).trans (h.returned n), fun x hc hf => (h'.reg x hc hf).trans (h.reg x hc hf)⟩

theorem State.returned_onCh (n : Nat) (f : DmaCh → DmaCh) (hf : ∀ c, (f c).returned = c.returned) (m : Nat) :
    ((s.onCh n f).chOf m).returned = (s.chOf m).returned := by
  by_cases hm : m = n
  · subst hm
    rw [State.chOf_onCh, hf]
  · rw [s.chOf_onCh_ne f hm]

theorem State.readsIssued_stall (n : Nat) : ReadsIssued s
    (((s.onCh n (fun c => { c with stalled := true })).count DMA_CNT_BURST_STALL_CNT).setFlag DMA_FLAGS_BURST_STALL) :=
  ⟨by simp, fun m => by simpa using s.returned_onCh n (fun c => { c with stalled := true }) (fun _ => rfl) m,
    fun _ hc hf => (State.reg_setFld_ne _ _ hf).trans (State.reg_count_ne _ hc)⟩

theorem State.readsIssued_issueOne (n : Nat) : ReadsIssued s (s.issueOne n) := by
  refine ⟨rfl, fun m => ?_, fun _ _ _ => rfl⟩
  exact s.returned_onCh n (fun c => { c with bursts := c.bursts ++ [_], issued := c.issued + _, stalled := false }) (fun _ => rfl) m

theorem State.readsIssued_issueReads (fuel : Nat) : ReadsIssued s (State.issueReads fuel s) := by
  induction fuel generalizing s with
  | zero => exact .refl s
  | succ fuel ih =>
    unfold State.issueReads
    split
    · exact .refl s
    · split
      · exact .refl s
      · split
        · refine ReadsIssued.trans ?_ (ih _)
          exact s.readsIssued_issueOne _
        · refine foldl_rel ReadsIssued .refl (fun _ _ _ => .trans) _ (fun t n => ?_) _ s
          split
          · exact t.readsIssued_stall n
          · exact .refl t

theorem State.readsIssued_issue : ReadsIssued s s.issue := s.readsIssued_issueReads 64

/-! ### A halt (R288) -/

section
variable (n : Nat) (addr : Word)

/-- The registers of a halt, on the state in which every channel has halted. -/
theorem State.halt_registers (w : Word) (t : State)
    (ht : t = (((s.setReg DMA_ERR w).setReg DMA_ERR_ADDR addr).setFld DMA_STATUS_HALTED 1).setFlag DMA_FLAGS_HALT) :
    t.flag DMA_STATUS_HALTED = true ∧ t.flag DMA_FLAGS_HALT = true ∧ t.reg DMA_ERR_ADDR = addr ∧ t.reg DMA_ERR = w := by
  subst ht
  refine ⟨?_, State.flag_setFlag _ _, ?_, ?_⟩
  · exact (State.flag_setFld_addr _ 1 (by decide)).trans (State.flag_setFlag _ DMA_STATUS_HALTED)
  · exact (State.reg_setFld_ne _ 1 (by decide)).trans ((State.reg_setFld_ne _ 1 (by decide)).trans (State.reg_setReg_self _ _ _))
  · exact (State.reg_setFld_ne _ 1 (by decide)).trans ((State.reg_setFld_ne _ 1 (by decide)).trans
      ((State.reg_setReg_ne _ _ (by decide)).trans (State.reg_setReg_self _ _ _)))

theorem State.dmaError_read (lastBeat : Bool) (h : s.flag DMA_STATUS_HALTED = false) : ∃ u : State, s.dmaError 0 n lastBeat addr =
    (((u.setReg DMA_ERR (BitVec.ofNat 32 (2 ^ 28))).setReg DMA_ERR_ADDR addr).setFld DMA_STATUS_HALTED 1).setFlag DMA_FLAGS_HALT := by
  refine ⟨(s.onCh n (fun c => { c with bursts := c.bursts.drop 1 })).haltAll, ?_⟩
  simp [State.dmaError, h]

end

/-! ### One element (R287) -/

theorem State.length_bytes (a n : Nat) : (s.bytes a n).length = n := by
  induction n generalizing a with
  | zero => rfl
  | succ n ih => simp [State.bytes, ih]

theorem State.byte_of_mem {s t : State} (h : t.mem = s.mem) (a : Nat) : t.byte a = s.byte a := by simp only [State.byte, h]

section
variable {n : Nat} {d : Desc} (hb : (s.chOf n).bound = none) (hdst : d.noDst = false)
include hb hdst

theorem State.moveElement_unbound (i : Nat) : s.moveElement n d i = s.setBytes (d.dstAt i) (s.bytes (d.srcAt i) d.esize) := by
  have hbound : ((s.setBytes (d.dstAt i) (s.bytes (d.srcAt i) d.esize)).chOf n).bound = none := by
    simpa [State.chOf] using hb
  simp only [State.moveElement, hdst, Bool.false_eq_true, if_false, hbound]

/-- A burst of one element that is not the descriptor's last: the element is moved, and reads go on. -/
theorem State.burstReturn_one {rest : List Nat} (hd : (s.chOf n).desc = some d) (hbursts : (s.chOf n).bursts = 1 :: rest)
    (hmore : (s.chOf n).returned + 1 < d.total) : ∃ t : State, s.burstReturn n = t.issue ∧
      (t.chOf n).returned = (s.chOf n).returned + 1 ∧
      t.mem = (s.setBytes (d.dstAt (s.chOf n).returned) (s.bytes (d.srcAt (s.chOf n).returned) d.esize)).mem := by
  have hfold : (List.range 1).foldl (fun (t : State) j => t.moveElement n d ((s.chOf n).returned + j)) s =
      s.setBytes (d.dstAt (s.chOf n).returned) (s.bytes (d.srcAt (s.chOf n).returned) d.esize) := by
    simpa using s.moveElement_unbound hb hdst (s.chOf n).returned
  have hch (a : Nat) (l : List Byte) : (s.setBytes a l).chOf n = s.chOf n := by simp [State.chOf]
  simp only [State.burstReturn, hd, hbursts, hfold]
  refine ⟨_, rfl, ?_, ?_⟩ <;>
    simp [State.descCheck, hch, hd, (show (s.chOf n).returned + 1 ≠ d.total by omega)]

end

/-! ### The end of a descriptor (R284) -/

section
variable {n : Nat} {d : Desc}

/-- The state in which the descriptor's STATUS, count and mark are written. -/
def State.markDone (s : State) (n : Nat) : State :=
  ((s.setWord ((s.chOf n).addr + 56) (BitVec.ofNat 32 (2 ^ 31))).count (CH_DONE_CNT_CH_DONE_CNT n)).setFldBit DMA_DONE_DONE n true

theorem State.reg_markDone {a : Nat} (hc : a ≠ CH_DONE_CNT n) (hd : a ≠ DMA_DONE) : (s.markDone n).reg a = s.reg a := by
  refine (State.reg_setReg_ne _ _ hd).trans ((State.reg_count_ne _ hc).trans ?_)
  simp [State.reg, State.setWord]

theorem State.descComplete_done (hst : s.chState n = 1) (hcvu : d.cvuEn = false) (hnext : d.next = 0) (hirq : d.irqDone = true) :
    s.descComplete n d = (((((s.markDone n).onCh n (fun c => { c with desc := none, issued := 0, returned := 0 })).setReg (CH_DESC n)
      (BitVec.ofNat 32 0)).setChState n 0).unbind n) := by
  have hrun : (s.markDone n).chState n ≠ 2 := by
    have h : (s.markDone n).chState n = s.chState n := State.fld_of_reg (s.reg_markDone (by
      simp only [CH_STATUS_STATE, CH_STATUS, CH_DONE_CNT]
      omega) (by
      simp only [CH_STATUS_STATE, CH_STATUS, DMA_DONE]
      omega))
    omega
  unfold State.markDone at hrun ⊢
  simp [State.descComplete, hcvu, hnext, hirq]
  exact fun h => absurd h hrun

/-- The descriptor's end: STATUS in memory, the mark of the channel, and IDLE. -/
theorem State.descComplete_idle (hb : (s.chOf n).bound = none) (hst : s.chState n = 1) (hn : n < 16) (hcvu : d.cvuEn = false)
    (hnext : d.next = 0) (hirq : d.irqDone = true) :
    (s.descComplete n d).fldBit DMA_DONE_DONE n = true ∧ (s.descComplete n d).chState n = 0 ∧
      (s.descComplete n d).mem = (s.setWord ((s.chOf n).addr + 56) (BitVec.ofNat 32 (2 ^ 31))).mem := by
  have hdone : (s.markDone n).fldBit DMA_DONE_DONE n = true := by
    rw [State.fldBit, State.markDone, State.setFldBit, State.reg_setReg_self]
    exact bit_putBit_self _ true (by rw [show DMA_DONE_DONE.lo = 0 from rfl]; omega)
  have hmem : (s.markDone n).mem = (s.setWord ((s.chOf n).addr + 56) (BitVec.ofNat 32 (2 ^ 31))).mem := rfl
  have hfree : ((s.markDone n).chOf n).bound = none := by simpa [State.markDone, State.setWord, State.chOf] using hb
  rw [s.descComplete_done hst hcvu hnext hirq]
  generalize s.markDone n = t at *
  have hunbind : (((t.onCh n (fun c => { c with desc := none, issued := 0, returned := 0 })).setReg (CH_DESC n)
      (BitVec.ofNat 32 0)).setChState n 0).unbind n = ((t.onCh n (fun c => { c with desc := none, issued := 0, returned := 0 })).setReg (CH_DESC n)
      (BitVec.ofNat 32 0)).setChState n 0 := by
    simp [State.unbind, State.setChState, hfree]
  rw [hunbind]
  refine ⟨?_, ?_, hmem⟩
  · refine (State.fldBit_of_reg n ?_).trans hdone
    refine (State.reg_setFld_ne _ _ ?_).trans (State.reg_setReg_ne _ _ ?_)
    · simp only [DMA_DONE_DONE, DMA_DONE, CH_STATUS_STATE, CH_STATUS]
      omega
    · simp only [DMA_DONE_DONE, DMA_DONE, CH_DESC]
      omega
  · exact State.fld_setFld _ (CH_STATUS_STATE n) (v := 0) (m := 8) (by omega)

end

/-- Settles O27: a failed check, an error, a burst and a last write response are each one branch of the engine. -/
theorem dmaTransfers : Obligations.DmaTransfers := by
  refine ⟨fun n s hr => ⟨fun r hf hb hst hrf hne => ?_, fun lastBeat addr hrun => ?_, fun lastBeat addr hhalt => ?_⟩,
    fun n d s hr hd hb hdst => ⟨fun rest hbursts hmore => ?_, fun hw hret hst hcvu hnext hirq => ?_⟩⟩
  · refine (whenData_run hr).trans ?_
    simp only [State.fetchDone, hf, hst, hrf]
    subst hrf
    simp [hb, hne]
  · obtain ⟨u, hu⟩ := s.dmaError_read n addr lastBeat hrun
    exact ⟨_, whenData_run hr, u.halt_registers addr _ _ hu⟩
  · exact (whenData_run hr).trans (by simp [State.dmaError, hhalt, State.drainOne])
  · obtain ⟨t, ht, hret, hmem⟩ := s.burstReturn_one hb hdst hd hbursts hmore
    obtain ⟨hmem', hret', _⟩ := t.readsIssued_issue
    have hlen := s.length_bytes (d.srcAt (s.chOf n).returned) d.esize
    refine ⟨_, whenData_run hr, ?_⟩
    rw [ht]
    have hbyte := State.byte_of_mem (hmem'.trans hmem)
    refine ⟨(hret' n).trans hret, ?_, fun a ha => ?_⟩
    · have hmoved := s.bytes_setBytes (s.bytes (d.srcAt (s.chOf n).returned) d.esize) (d.dstAt (s.chOf n).returned)
      rw [hlen] at hmoved
      exact (State.bytes_of_byte _ _ (fun i _ => hbyte _)).trans hmoved
    · rw [hbyte, State.byte_setBytes_ne _ _ _ _ (by rwa [hlen])]
  · have hlast : s.writeReturn n =
        ((s.onCh n (fun c => { c with writesOut := c.writesOut - 1 })).descComplete n d).issue := by
      simp [State.writeReturn, hw, State.descCheck, hd, hret, hst, show ∀ (t : State) f, (t.onCh n f).chState n = t.chState n from fun _ _ => rfl]
    obtain ⟨hdone, hidle, hmem⟩ := (s.onCh n (fun c => { c with writesOut := c.writesOut - 1 })).descComplete_idle (n := n) (d := d)
      (by simpa using hb) hst n.isLt hcvu hnext hirq
    obtain ⟨hmem', _, hreg⟩ := ((s.onCh n (fun c => { c with writesOut := c.writesOut - 1 })).descComplete n d).readsIssued_issue
    refine ⟨_, whenData_run hr, ?_⟩
    rw [hlast]
    have haddr : ((s.onCh n (fun c => { c with writesOut := c.writesOut - 1 })).chOf n).addr = (s.chOf n).addr := by simp
    rw [haddr] at hmem
    have hbyte := State.byte_of_mem (s := s.setWord ((s.chOf n).addr + 56) (BitVec.ofNat 32 (2 ^ 31))) (hmem'.trans (hmem.trans rfl))
    refine ⟨(State.fldBit_of_reg n (hreg _ (by decide) (by decide))).trans hdone, ?_, ?_, fun a ha => ?_⟩
    · refine (State.fld_of_reg (hreg _ ?_ ?_)).trans hidle <;> simp only [CH_STATUS_STATE, CH_STATUS, DMA_CNT, DMA_FLAGS] <;> omega
    · exact (State.bytes_of_byte _ _ (fun i _ => hbyte _)).trans (s.bytes_setBytes (leBytes (BitVec.ofNat 32 (2 ^ 31))) _)
    · rw [hbyte]
      exact s.byte_setBytes_ne (leBytes (BitVec.ofNat 32 (2 ^ 31))) _ a (by simpa [leBytes] using ha)

end Sys2Proof.Machine
end

section
/-! O28: safety inputs, and the tests of safe outputs. -/

namespace Sys2Proof.Machine

variable (s : State)

/-- A property that the work on each unit keeps holds after the work on all. -/
theorem forAll_below (P : State → Prop) {f : Nat → State → State} {n : Nat} (hf : ∀ i t, i < n → P t → P (f i t)) {s : State} (h : P s) :
    P (s.forAll n f) := by
  induction n with
  | zero => exact h
  | succ n ih => exact hf n _ (by omega) (ih (fun i t hi => hf i t (by omega)))

theorem State.onSin_congr {x : Nat} {f g : SinPair → SinPair} (h : f (s.sinOf x) = g (s.sinOf x)) : s.onSin x f = s.onSin x g := by
  simp only [State.onSin, h]

theorem State.onSout_congr {k : Nat} {f g : SoutOut → SoutOut} (h : f (s.soutOf k) = g (s.soutOf k)) : s.onSout k f = s.onSout k g := by
  simp only [State.onSout, h]

/-! ### Contacts of a safety input (R344) -/

section
variable (x : Nat) (trackB closed : Bool)

theorem State.sinOf_sinLevel : ((s.sinLevel x trackB closed).sinOf x).demand = (s.sinOf x).demand ∧
    (if trackB then ((s.sinLevel x trackB closed).sinOf x).b else ((s.sinLevel x trackB closed).sinOf x).a) = closed := by
  simp only [State.sinLevel, State.sinOf_onSin]
  cases trackB <;> simp only [Bool.false_eq_true, if_false, if_true] <;> split
  · exact ⟨rfl, rfl⟩
  · split
    · split <;> (split <;> exact ⟨rfl, rfl⟩)
    · split <;> exact ⟨rfl, rfl⟩
  · exact ⟨rfl, rfl⟩
  · split
    · split <;> (split <;> exact ⟨rfl, rfl⟩)
    · split <;> exact ⟨rfl, rfl⟩

/-- The second contact closes: in time it ends the discrepancy, later it leaves it. -/
theorem State.disc_sinLevel {t : Nat} (ha : (s.sinOf x).a = true) (hb : (s.sinOf x).b = false)
    (hopen : (s.sinOf x).bothOpenSeen = true) (hclose : (s.sinOf x).closeBy = some t) :
    ((s.sinLevel x true true).sinOf x).disc = if s.now ≤ t then false else (s.sinOf x).disc := by
  simp only [State.sinLevel, State.sinOf_onSin, ha, hb, hopen, hclose]
  by_cases h : s.now ≤ t <;> simp [h]

end

/-! ### An output that is faulty stays low and flagged (R341, R345) -/

/-- Output k is faulty, low and flagged, and no setting waits. -/
def State.FaultLow (t : State) (k : Nat) : Prop :=
  t.pendSet = [] ∧ (t.soutOf k).level = false ∧ (t.soutOf k).fault = true ∧ t.flag SAF_FLAGS_SOUT_FAULT = true

section
variable {k : Nat}

theorem State.FaultLow.of_eq {s t : State} (h : s.FaultLow k) (hp : t.pendSet = s.pendSet) (ho : t.soutOf k = s.soutOf k)
    (hr : t.reg SAF_FLAGS = s.reg SAF_FLAGS) : t.FaultLow k := by
  obtain ⟨h1, h2, h3, h4⟩ := h
  exact ⟨hp.trans h1, by rw [ho, h2], by rw [ho, h3], (State.flag_of_reg hr).trans h4⟩

theorem State.FaultLow.onSout {s : State} (h : s.FaultLow k) (j : Nat) {f : SoutOut → SoutOut} (hl : ∀ o, o.level = false → (f o).level = false)
    (hf : ∀ o, (f o).fault = o.fault) : (s.onSout j f).FaultLow k := by
  obtain ⟨h1, h2, h3, h4⟩ := h
  by_cases hj : k = j
  · subst hj
    refine ⟨h1, ?_, ?_, h4⟩ <;> rw [State.soutOf_onSout]
    · exact hl _ h2
    · exact (hf _).trans h3
  · rw [State.FaultLow, s.soutOf_onSout_ne f hj]
    exact ⟨h1, h2, h3, h4⟩

theorem State.FaultLow.setFlag {s : State} (h : s.FaultLow k) {f : Fld} (hw : f.lo + f.w ≤ 32)
    (ha : f.addr ≠ SAF_FLAGS ∨ SAF_FLAGS_SOUT_FAULT.lo + SAF_FLAGS_SOUT_FAULT.w ≤ f.lo ∨ f.lo + f.w ≤ SAF_FLAGS_SOUT_FAULT.lo) (v : Nat) :
    (s.setFld f v).FaultLow k := by
  obtain ⟨h1, h2, h3, h4⟩ := h
  exact ⟨h1, h2, h3, (State.flag_setFld_apart (g := SAF_FLAGS_SOUT_FAULT) v hw (ha.imp (fun h e => h e.symm) id)).trans h4⟩

theorem State.FaultLow.testDue {s : State} (h : s.FaultLow k) (j : Nat) : (s.testDue j).FaultLow k := by
  unfold State.testDue
  dsimp only
  split
  · exact h
  · split
    · exact h.onSout j (fun _ ho => ho) (fun _ => rfl)
    · split
      · exact h.onSout j (fun _ ho => ho) (fun _ => rfl)
      · exact h.onSout j (fun _ _ => rfl) (fun _ => rfl)

theorem State.FaultLow.forAll {s : State} (h : s.FaultLow k) {f : Nat → State → State} (hf : ∀ i t, t.FaultLow k → (f i t).FaultLow k)
    (n : Nat) : (s.forAll n f).FaultLow k :=
  forAll_rel (fun a b => a.FaultLow k → b.FaultLow k) (fun _ => id) (fun _ _ _ h h' => h' ∘ h) f hf n s h

theorem State.FaultLow.runDeferred {s : State} (h : s.FaultLow k) : s.runDeferred.FaultLow k := by
  refine h.forAll (fun i t ht => ?_) 8
  split
  · exact ht.testDue i
  · exact ht

theorem State.FaultLow.soutLow {s : State} (h : s.FaultLow k) (n j : Nat) : (s.soutLow n j).FaultLow k := by
  have hlow := h.onSout j (f := fun o => { o with level := false, testing := false, deferred := false }) (fun _ _ => rfl) (fun _ => rfl)
  unfold State.soutLow
  split
  · split
    · exact (hlow.setFlag (by decide) (by decide) _).setFlag (by decide) (by decide) 1
    · exact hlow
  · exact h

theorem State.FaultLow.soutsLow {s : State} (h : s.FaultLow k) (n : Nat) : (s.soutsLow n).FaultLow k := by
  rw [State.soutsLow_eq]
  exact (h.forAll (fun j t ht => ht.soutLow n j) 8).runDeferred

theorem State.FaultLow.failRelease {s : State} (h : s.FaultLow k) (set : List Nat) : (s.failRelease set).FaultLow k :=
  s.failRelease_rel (fun a b => a.FaultLow k → b.FaultLow k) (fun _ => id) (fun _ _ _ h h' => h' ∘ h)
    (fun _ _ ht => ht.of_eq rfl rfl rfl) (fun n _ ht => ht.soutsLow n) (fun _ ht => ht.setFlag (by decide) (by decide) 1) set h

/-- The station is held, and its cause is noted where it was not held before. -/
def State.noteHeld (s : State) (n cause : Nat) : State :=
  let s1 := s.onSafe n (fun f => { f with held := true, stop := false, demanded := false })
  if (s.safeOf n).held then s1 else s1.setFld (SAF_STN_CAUSE n) cause

theorem State.holdStation_steps (n cause : Nat) : s.holdStation n cause =
    ((((s.releaseFailed n).noteHeld n cause).dropGates n).soutsLow n).tripSoon n 1 := rfl

theorem State.FaultLow.holdStation {s : State} (h : s.FaultLow k) {n : Nat} (hn : n < 4) (cause : Nat) : (s.holdStation n cause).FaultLow k := by
  have hpage : SAF_FLAGS / 0x10000 ≠ 0x14 + n ∧ SAF_FLAGS / 0x10000 ≠ 0x1D := by
    simp only [SAF_FLAGS]
    omega
  have hcause : (SAF_STN_CAUSE n).addr ≠ SAF_FLAGS := by
    simp only [SAF_STN_CAUSE, SAF_STN, SAF_FLAGS]
    omega
  have hfree : (s.releaseFailed n).FaultLow k := by
    unfold State.releaseFailed
    split
    · exact h.failRelease _
    · exact h
  have hheld : ((s.releaseFailed n).noteHeld n cause).FaultLow k := by
    have hsafe (f : SafeStn → SafeStn) : ((s.releaseFailed n).onSafe n f).FaultLow k := hfree.of_eq rfl rfl rfl
    unfold State.noteHeld
    split
    · exact hsafe _
    · exact (hsafe _).setFlag (by decide : 24 + 8 ≤ 32) (.inl hcause) cause
  have hlow : ((((s.releaseFailed n).noteHeld n cause).dropGates n).soutsLow n).FaultLow k :=
    State.FaultLow.soutsLow (hheld.of_eq (by simp) (by simp) (by simp)) n
  rw [State.holdStation_steps]
  obtain ⟨hset, hl, hf, hflag⟩ := hlow
  have hout (t : State) : (t.tripSoon n 1).soutOf k = t.soutOf k := by simp only [State.tripSoon_outside]
  refine ⟨State.pendSet_tripSoon _ n 1 hset, ?_, ?_, ?_⟩
  · rw [hout, hl]
  · rw [hout, hf]
  · rw [State.flag_of_reg (f := SAF_FLAGS_SOUT_FAULT) (State.reg_tripSoon _ (a := SAF_FLAGS) hpage 1 hset), hflag]

/-- An output whose fault is found is low and flagged, whatever the stations it holds do. -/
theorem State.faultLow_soutFault (hf : (s.soutOf k).fault = false) (hset : s.pendSet = []) : (s.soutFault k).FaultLow k := by
  have hnoted : (((s.onSout k (fun o => { o with fault := true, level := false, testing := false, deferred := false })).count
      SAF_CNT1_SOUT_FAULT_CNT).setFlag SAF_FLAGS_SOUT_FAULT).FaultLow k :=
    ⟨by simpa using hset, by simp, by simp, State.flag_setFlag _ _⟩
  unfold State.soutFault
  rw [hf, if_neg (by decide)]
  refine forAll_below (fun t => t.FaultLow k) (fun n t hn ht => ?_) hnoted
  split
  · exact ht.holdStation hn 8
  · exact ht

end

/-- Settles O28: each command of an input or output is one branch, and a fault that is found stays. -/
theorem safetyInputsAndOutputs : Obligations.SafetyInputsAndOutputs := by
  refine ⟨fun x s => ⟨fun trackB closed => ⟨rfl, s.sinOf_sinLevel x trackB closed⟩, fun t => s.disc_sinLevel x, fun ha hd hf => ?_,
    fun ha hb hd => ?_, fun hne hd hf => ?_⟩,
    fun k s hr => ⟨fun hl hf ht hrel hsh => ?_, fun hl hf ht hrel hsh => ?_, fun ht hdef => ⟨?_, fun hf hset => ?_⟩, fun ht => ⟨?_, ?_, ?_⟩⟩⟩
  · simp [exec, execSinDemandValid, State.sinDemand, ha, hd, hf]
  · exact congrArg Host.Outcome.next (s.onSin_congr (by simp [ha, hb, hd]))
  · simp [exec, execSinDiscrepancy, hne, hd, hf]
  · simp [exec, execSoutTestDue, State.testDue, hr, hl, hf, ht, hrel, hsh]
  · simp [exec, execSoutTestDue, execPostReleaseTest, State.testDue, hr, hl, hf, ht, hrel, hsh]
  · have hidle : (s.onSout k (fun o => { o with testing := false, level := true, srb := false })).runDeferred =
        s.onSout k (fun o => { o with testing := false, level := true, srb := false }) := by
      refine State.forAll_id _ 8 (fun j hj => if_neg ?_)
      by_cases hjk : j = k
      · subst hjk
        simp [hdef k k.isLt]
      · simp [s.soutOf_onSout_ne _ hjk, hdef j hj]
    simp [exec, execSoutTestEnd, ht, hidle]
  · have hfault := (s.onSout k (fun o => { o with srb := true })).faultLow_soutFault (k := k) (by simp [hf]) hset
    obtain ⟨_, hlow, hbad, hflag⟩ := hfault.runDeferred
    exact ⟨_, by simp [exec, execSoutTestEnd, ht], hlow, hbad, hflag⟩
  · have hsame : s.onSout k (fun o => { o with srb := (s.soutOf k).level }) = s.onSout k (fun o => { o with srb := o.level }) :=
      s.onSout_congr rfl
    simp [exec, execSrbReadbackCheck, State.readback, hsame]
  · have hsame : s.onSout k (fun o => { o with srb := (s.soutOf k).level }) = s.onSout k (fun o => { o with srb := o.level }) :=
      s.onSout_congr rfl
    simp [exec, execSrbLevelChange, State.readback, hsame]
  · have hsame : s.onSout k (fun o => { o with srb := !(s.soutOf k).level }) = s.onSout k (fun o => { o with srb := !o.level }) :=
      s.onSout_congr rfl
    simp [exec, execSrbReadbackCheck, State.readback, hr, ht, hsame]

end Sys2Proof.Machine
end

section
/-! O30: release of held stations, the monitors of Highboy, and the station enables. -/

namespace Sys2Proof.Machine

variable (s : State)

/-! ### A release request (R358) -/

section
variable (set : List Nat)

/-- The stations of the request are releasing together. -/
def State.markReleasing (s : State) (l set : List Nat) : State :=
  l.foldl (fun t n => t.onSafe n (fun f => { f with releasing := true, party := set })) s

theorem State.safeOf_markReleasing (l : List Nat) (m : Nat) : (s.markReleasing l set).safeOf m =
    if m ∈ l then { s.safeOf m with releasing := true, party := set } else s.safeOf m := by
  induction l generalizing s with
  | nil => simp [State.markReleasing]
  | cons n l ih =>
    refine (ih (s.onSafe n (fun f => { f with releasing := true, party := set }))).trans ?_
    by_cases hm : m = n
    · subst hm
      simp
    · simp [State.safeOf_onSafe_ne _ _ hm, hm]

theorem State.markReleasing_reg (l : List Nat) (a : Nat) : (s.markReleasing l set).reg a = s.reg a :=
  foldl_rel (fun a' b => b.reg a = a'.reg a) (fun _ => rfl) (fun _ _ _ h h' => h'.trans h)
    (fun (t : State) n => t.onSafe n (fun f => { f with releasing := true, party := set })) (fun _ _ => rfl) l s

/-- The outputs of the stations of the request go high. -/
def State.raiseSouts (s : State) (set : List Nat) : State :=
  s.forAll 8 (fun k t => if set.any (fun n => t.soutMap k n) then t.onSout k (fun o => { o with level := true }) else t)

theorem State.safeOf_raiseSouts (m : Nat) : (s.raiseSouts set).safeOf m = s.safeOf m := by
  refine forAll_rel (fun a b => b.safeOf m = a.safeOf m) (fun _ => rfl) (fun _ _ _ h h' => h'.trans h) _ (fun k t => ?_) 8 s
  split <;> rfl

theorem State.level_raiseSouts {k n : Nat} (hk : k < 8) (hn : n ∈ set) (hmap : s.soutMap k n = true) :
    ((s.raiseSouts set).soutOf k).level = true := by
  obtain ⟨t, hreg, _, h⟩ := State.forAll_at (fun a b => ∀ x, b.reg x = a.reg x) (fun _ _ => rfl) (fun _ _ _ h h' x => (h' x).trans (h x))
    (f := fun k t => if set.any (fun n => t.soutMap k n) then t.onSout k (fun o => { o with level := true }) else t)
    (fun k t x => by split <;> rfl) (fun t => t.soutOf k)
    (fun i t hi => by
      split
      · exact t.soutOf_onSout_ne _ hi.symm
      · rfl) hk s
  have hany : set.any (fun n => t.soutMap k n) = true := List.any_eq_true.mpr ⟨n, hn, (State.fldBit_of_reg n (hreg _)).trans hmap⟩
  unfold State.raiseSouts
  rw [h, if_pos hany, State.soutOf_onSout]

end

theorem State.requestRelease_granted {mask : Nat} (hr : s.safe.settleRuns = true) (hne : s.releaseSet mask ≠ [])
    (hsrc : s.sourcePresent = false) (hdbg : s.debugOpen = false) (hok : (s.releaseSet mask).all (s.releaseOk (s.releaseSet mask)) = true) :
    s.requestRelease mask true = (s.markReleasing (s.releaseSet mask) (s.releaseSet mask)).raiseSouts (s.releaseSet mask) := by
  simp only [State.requestRelease, hr, hsrc, hdbg, hok]
  simp [hne, State.markReleasing, State.raiseSouts]

theorem State.held_of_mem_releaseSet {mask n : Nat} (h : n ∈ s.releaseSet mask) : (s.safeOf n).held = true := by
  simp only [State.releaseSet, List.mem_filter, Bool.and_eq_true] at h
  exact h.2.1.2

/-! ### Good readbacks (R358) -/

section
variable (set : List Nat)

theorem State.raiseGates_safeStn (n : Nat) : (s.raiseGates n).safeStn = s.safeStn := by
  refine forAll_rel (fun a b => b.safeStn = a.safeStn) (fun _ => rfl) (fun _ _ _ h h' => h'.trans h) _ (fun k t => ?_) 12 s
  dsimp only
  split
  · split
    · rcases State.latchHb_cases (t.onHb n k (fun h => h.rise (t.pulseLevel n k))) n k 3 with h | h | h <;> rw [h]
      · rfl
      · simp
      · simp [State.markLatch]
    · rfl
  · rfl

theorem State.safeOf_updGates (n m : Nat) : (s.updGates n).safeOf m = s.safeOf m :=
  State.safeOf_congr ((State.raiseGates_safeStn _ n).trans (by simp)) m

/-- The permit of one station returns. -/
def State.releaseOne (s : State) (n : Nat) : State :=
  (s.onSafe n (fun f => { f with held := false, releasing := false, party := [] })).setFld (SAF_STN_CAUSE n) 0

theorem State.safeOf_releaseOne (n m : Nat) : (s.releaseOne n).safeOf m =
    if m = n then { s.safeOf m with held := false, releasing := false, party := [] } else s.safeOf m := by
  by_cases hm : m = n
  · subst hm
    simp [State.releaseOne]
  · simp [State.releaseOne, State.safeOf_onSafe_ne _ _ hm, hm]

/-- The permits of the stations return. -/
def State.releaseAll (s : State) (l : List Nat) : State := l.foldl State.releaseOne s

theorem State.releaseAll_cons (n : Nat) (l : List Nat) : s.releaseAll (n :: l) = (s.releaseOne n).releaseAll l :=
  List.foldl_cons ..

theorem State.safeOf_releaseAll (l : List Nat) (m : Nat) : (s.releaseAll l).safeOf m =
    if m ∈ l then { s.safeOf m with held := false, releasing := false, party := [] } else s.safeOf m := by
  induction l generalizing s with
  | nil => rfl
  | cons n l ih =>
    rw [State.releaseAll_cons, ih, State.safeOf_releaseOne]
    by_cases hm : m = n <;> simp [hm]

theorem State.safeOf_permitsReturn (m : Nat) : (s.permitsReturn set).safeOf m = (s.releaseAll set).safeOf m := by
  have hgates (t : State) : (set.foldl (fun t n => t.updGates n) t).safeOf m = t.safeOf m :=
    foldl_rel (fun a b => b.safeOf m = a.safeOf m) (fun _ => rfl) (fun _ _ _ h h' => h'.trans h)
      (fun (t : State) n => t.updGates n) (fun t n => t.safeOf_updGates n m) set t
  unfold State.permitsReturn
  dsimp only
  rw [hgates]
  split <;> rfl

theorem State.safeOf_foldl_onSout (l : List Nat) (f : Nat → SoutOut → SoutOut) (m : Nat) :
    (l.foldl (fun t k => t.onSout k (f k)) s).safeOf m = s.safeOf m :=
  foldl_rel (fun a b => b.safeOf m = a.safeOf m) (fun _ => rfl) (fun _ _ _ h h' => h'.trans h)
    (fun (t : State) k => t.onSout k (f k)) (fun _ _ => rfl) l s

/-- Where every readback is high, the stations of the party are released. -/
theorem State.safeOf_releaseRead (m : Nat) : (s.releaseRead set (BitVec.allOnes 8)).safeOf m =
    if m ∈ set then { s.safeOf m with held := false, releasing := false, party := [] } else s.safeOf m := by
  have hgood : ((List.range 8).filter (fun k => set.any (fun n => s.soutMap k n))).filter (fun k => !(BitVec.allOnes 8).getLsbD k) = [] := by
    refine List.filter_eq_nil_iff.mpr fun k hk => ?_
    rw [BitVec.getLsbD_allOnes, decide_eq_true (List.mem_range.mp (List.mem_filter.mp hk).1)]
    decide
  unfold State.releaseRead
  dsimp only
  rw [hgood]
  refine (State.safeOf_permitsReturn _ set m).trans ?_
  rw [State.safeOf_releaseAll, s.safeOf_foldl_onSout _ (fun k o => { o with srb := (BitVec.allOnes 8).getLsbD k })]

end

/-- Station n is released. -/
def State.Released (t : State) (n : Nat) : Prop := (t.safeOf n).held = false ∧ (t.safeOf n).releasing = false

/-- The readback of one releasing station. -/
def State.readRelease (s : State) (n : Nat) : State :=
  if (s.safeOf n).releasing then s.releaseRead (s.safeOf n).party (BitVec.allOnes 8) else s

theorem State.safeOf_readRelease (i m : Nat) : (s.readRelease i).safeOf m =
    if (s.safeOf i).releasing ∧ m ∈ (s.safeOf i).party then { s.safeOf m with held := false, releasing := false, party := [] }
    else s.safeOf m := by
  unfold State.readRelease
  by_cases h : (s.safeOf i).releasing
  · rw [if_pos h, State.safeOf_releaseRead]
    simp [h]
  · rw [if_neg h, if_neg (fun hc => h hc.1)]

theorem State.released_or_same_readRelease (i m : Nat) :
    (s.readRelease i).Released m ∨ (s.readRelease i).safeOf m = s.safeOf m := by
  unfold State.Released
  rw [State.safeOf_readRelease]
  split
  · exact .inl ⟨rfl, rfl⟩
  · exact .inr rfl

theorem State.Released.of_safeOf {s t : State} {n : Nat} (h : s.Released n) (hs : t.safeOf n = s.safeOf n) : t.Released n := by
  unfold State.Released
  rwa [hs]

theorem State.Released.readRelease {s : State} {n : Nat} (h : s.Released n) (i : Nat) : (s.readRelease i).Released n :=
  (s.released_or_same_readRelease i n).elim id h.of_safeOf

theorem State.released_readRelease {n : Nat} (hrel : (s.safeOf n).releasing = true) (hmem : n ∈ (s.safeOf n).party) :
    (s.readRelease n).Released n := by
  unfold State.Released
  rw [State.safeOf_readRelease, if_pos ⟨hrel, hmem⟩]
  exact ⟨rfl, rfl⟩

/-- The readbacks of the stations below k, one after the other. -/
def State.readReleases (s : State) (k : Nat) : State := s.forAll k (fun n t => t.readRelease n)

theorem State.readReleases_succ (k : Nat) : s.readReleases (k + 1) = (s.readReleases k).readRelease k := rfl

theorem State.released_or_same_readReleases (k n : Nat) :
    (s.readReleases k).Released n ∨ (s.readReleases k).safeOf n = s.safeOf n := by
  induction k with
  | zero => exact .inr rfl
  | succ k ih =>
    rw [State.readReleases_succ]
    rcases ih with h | h
    · exact .inl (h.readRelease k)
    · exact ((s.readReleases k).released_or_same_readRelease k n).imp id (·.trans h)

theorem State.released_readReleases {n : Nat} (hrel : (s.safeOf n).releasing = true) (hmem : n ∈ (s.safeOf n).party) {k : Nat} (hk : n < k) :
    (s.readReleases k).Released n := by
  induction k with
  | zero => omega
  | succ k ih =>
    rw [State.readReleases_succ]
    rcases Nat.lt_succ_iff_lt_or_eq.mp hk with h | rfl
    · exact (ih h).readRelease k
    · rcases s.released_or_same_readReleases n n with h | h
      · exact h.readRelease n
      · exact State.released_readRelease _ (by rwa [h]) (by rwa [h])

theorem State.onStn_congr {n : Nat} {f g : Stn → Stn} (h : f (s.stnOf n) = g (s.stnOf n)) : s.onStn n f = s.onStn n g := by
  simp only [State.onStn, h]

/-- Settles O30: a release is its steps of R358, and each monitor and enable is one branch. -/
theorem releaseAndMonitors : Obligations.ReleaseAndMonitors := by
  refine ⟨fun s hr => ⟨fun mask hne hsrc hdbg hok => ?_, fun mask hne => ?_, fun n hrel hmem => ?_⟩,
    fun s => ⟨fun speeds hr => ?_, fun n ws hlen hcrc hseq => ?_, fun n ws hseq => ?_⟩, fun n s hr hrun => ⟨fun hsen hidle => ?_, ?_⟩⟩
  · refine ⟨_, congrArg Host.Outcome.next (s.requestRelease_granted hr hne hsrc hdbg hok), fun n hn => ?_, fun k n hk hn hmap => ?_⟩
    · rw [State.safeOf_raiseSouts, State.safeOf_markReleasing, if_pos hn]
      exact ⟨rfl, s.held_of_mem_releaseSet hn⟩
    · exact State.level_raiseSouts _ _ hk hn ((State.fldBit_of_reg n (s.markReleasing_reg _ _ _)).trans hmap)
  · simp [exec, execSafRelease, State.requestRelease, hr, hne]
  · exact ⟨s.readReleases 4, rfl, s.released_readReleases hrel hmem n.isLt⟩
  · simp [exec, execHighboyTick, hr]
  · exact congrArg Host.Outcome.next (if_pos (by rw [hlen, ← hcrc]; simpa using hseq))
  · exact congrArg Host.Outcome.next (if_neg (by simp [hseq]))
  · simp only [exec, execSenChange, hsen, hr, State.settleStopped]
    refine congrArg Host.Outcome.next ((if_pos hrun).trans (State.onStn_congr _ ?_))
    refine congrArg (fun b => ({ s.stnOf n with stopReq := b } : Stn)) ?_
    exact Eq.trans (congrArg (fun b => (s.stnOf n).stopReq || !b) hidle) (Bool.or_true _)
  · simp [exec, execSenChange]

end Sys2Proof.Machine
end

section
/-! SUPPORT. What planning and sending frames leaves: the link of each end, and what a dead end has planned. -/

namespace Sys2Proof.Machine

variable (s : State)

theorem whenPort_run {s t : State} {q : Nat} (hr : s.dataRuns = true) (hon : s.portOn q = true) : whenPort q s t = .next t :=
  (whenData_run hr).trans (congrArg Host.Outcome.next (if_pos hon))

/-! ### One end -/

/-- The link of an end is as it was, and a dead end has planned nothing new. -/
structure PortEnd.Drains (x y : PortEnd) : Prop where
  wrapped : y.wrapped = x.wrapped
  linkUp : y.linkUp = x.linkUp
  silent : y.silent = x.silent
  short : y.short = x.short
  plan : x.dead = true → y.plan.Sublist x.plan

theorem PortEnd.Drains.of_plan {x y : PortEnd} (hw : y.wrapped = x.wrapped) (hl : y.linkUp = x.linkUp) (hs : y.silent = x.silent)
    (ho : y.short = x.short) (hp : y.plan.Sublist x.plan) : x.Drains y :=
  ⟨hw, hl, hs, ho, fun _ => hp⟩

theorem PortEnd.Drains.refl (x : PortEnd) : x.Drains x := ⟨rfl, rfl, rfl, rfl, fun _ => .refl _⟩

theorem PortEnd.Drains.dead {x y : PortEnd} (h : x.Drains y) : y.dead = x.dead := by
  obtain ⟨hw, -, -, ho, -⟩ := h
  simp [PortEnd.dead, hw, ho]

theorem PortEnd.Drains.trans {x y z : PortEnd} (h : x.Drains y) (h' : y.Drains z) : x.Drains z := by
  have hdead := h.dead
  obtain ⟨hw, hl, hs, ho, hp⟩ := h
  obtain ⟨hw', hl', hs', ho', hp'⟩ := h'
  exact ⟨hw'.trans hw, hl'.trans hl, hs'.trans hs, ho'.trans ho, fun hx => (hp' (hdead.trans hx)).trans (hp hx)⟩

/-- The end is as it was but for what it sent and when. -/
def PortEnd.Sent (x y : PortEnd) : Prop :=
  y = { x with tx := y.tx, kept := y.kept, txCount := y.txCount, busyTo := y.busyTo }

theorem PortEnd.Sent.trans {x y z : PortEnd} (h : x.Sent y) (h' : y.Sent z) : x.Sent z := by
  unfold PortEnd.Sent at *
  rw [h', h]

theorem PortEnd.Sent.drains {x y : PortEnd} (h : x.Sent y) : x.Drains y := by
  unfold PortEnd.Sent at h
  rw [h]
  exact .of_plan rfl rfl rfl rfl (.refl _)

theorem PortEnd.sent_sendFrame (x : PortEnd) (f : RingFrame) : x.Sent (x.sendFrame f) :=
  List.foldlRecOn (motive := x.Sent) (frameCells f) _ rfl (fun _ h _ _ => h.trans rfl)

theorem PortEnd.drains_flush (x : PortEnd) (now : Nat) : x.Drains (x.flush now) := by
  have hsent : PortEnd.Sent { x with plan := x.plan.drop (x.due now).length } (x.flush now) :=
    List.foldlRecOn (motive := PortEnd.Sent { x with plan := x.plan.drop (x.due now).length }) (x.due now) _ rfl
      (fun y h p _ => h.trans ((y.sent_sendFrame p.2).trans rfl))
  have hdrop : x.Drains { x with plan := x.plan.drop (x.due now).length } := .of_plan rfl rfl rfl rfl (List.drop_sublist _ _)
  exact hdrop.trans hsent.drains

/-- An end that is alive may plan more. -/
theorem PortEnd.drains_enqueue {x : PortEnd} (h : x.dead = false) (now : Nat) (f : RingFrame) : x.Drains (x.enqueue now f) :=
  ⟨rfl, rfl, rfl, rfl, fun hd => by simp [h] at hd⟩

/-! ### The ends of a port -/

@[simp] theorem State.endOf_onPort_ne {q x : Nat} (e : Nat) (f : PortUnit → PortUnit) (h : x ≠ q) :
    (s.onPort q f).endOf x e = s.endOf x e := by
  simp only [State.endOf, State.portOf_onPort_ne _ f h]

theorem State.endOf_onEnd {q e k : Nat} (f : PortEnd → PortEnd) (h : k = 0 ↔ e = 0) :
    (s.onEnd q e f).endOf q k = f (s.endOf q k) := by
  by_cases he : e = 0
  · simp [State.onEnd, State.endOf, he, h.mpr he]
  · simp [State.onEnd, State.endOf, he, mt h.mp he]

theorem State.endOf_onEnd_other {q e k : Nat} (f : PortEnd → PortEnd) (h : ¬(k = 0 ↔ e = 0)) :
    (s.onEnd q e f).endOf q k = s.endOf q k := by
  by_cases he : e = 0 <;> by_cases hk : k = 0
  · exact absurd (iff_of_true hk he) h
  · simp [State.onEnd, State.endOf, he, hk]
  · simp [State.onEnd, State.endOf, he, hk]
  · exact absurd (iff_of_false hk he) h

@[simp] theorem State.endOf_onEnd_self (q e : Nat) (f : PortEnd → PortEnd) : (s.onEnd q e f).endOf q e = f (s.endOf q e) :=
  s.endOf_onEnd f Iff.rfl

@[simp] theorem State.endOf_onEnd_opposite (q e : Nat) (f : PortEnd → PortEnd) : (s.onEnd q (1 - e) f).endOf q e = s.endOf q e :=
  s.endOf_onEnd_other f (by omega)

theorem State.endOf_side {q e k : Nat} (h : k = 0 ↔ e = 0) : s.endOf q k = s.endOf q e := by
  simp only [State.endOf, h]

theorem State.onEnd_congr {q e : Nat} {f g : PortEnd → PortEnd} (h : f (s.endOf q e) = g (s.endOf q e)) : s.onEnd q e f = s.onEnd q e g := by
  unfold State.endOf at h
  unfold State.onEnd State.onPort
  by_cases he : e = 0
  · simp only [he, if_true] at h ⊢
    rw [h]
  · simp only [he, if_false] at h ⊢
    rw [h]

/-! ### The state -/

/-- Nothing has changed but what the ports have planned and sent. -/
def PlanFrame (s t : State) : Prop :=
  t = { s with ports := t.ports } ∧
  ∀ x, t.portOf x = { s.portOf x with a := (t.portOf x).a, b := (t.portOf x).b, asked := (t.portOf x).asked } ∧
    (s.portOf x).a.Drains (t.portOf x).a ∧ (s.portOf x).b.Drains (t.portOf x).b

theorem PlanFrame.refl (s : State) : PlanFrame s s := ⟨rfl, fun _ => ⟨rfl, .refl _, .refl _⟩⟩

theorem PlanFrame.trans {s t u : State} (h : PlanFrame s t) (h' : PlanFrame t u) : PlanFrame s u := by
  obtain ⟨hs, hp⟩ := h
  obtain ⟨hs', hp'⟩ := h'
  refine ⟨by rw [hs', hs], fun x => ?_⟩
  obtain ⟨hu, ha, hb⟩ := hp x
  obtain ⟨hu', ha', hb'⟩ := hp' x
  exact ⟨by rw [hu', hu], ha.trans ha', hb.trans hb'⟩

theorem PlanFrame.drains {s t : State} (h : PlanFrame s t) (x k : Nat) : (s.endOf x k).Drains (t.endOf x k) := by
  obtain ⟨-, ha, hb⟩ := h.2 x
  unfold State.endOf
  split
  · exact ha
  · exact hb

/-- A change of one port within the frame. -/
theorem planFrame_onPort {q : Nat} {f : PortUnit → PortUnit}
    (hu : f (s.portOf q) = { s.portOf q with a := (f (s.portOf q)).a, b := (f (s.portOf q)).b, asked := (f (s.portOf q)).asked })
    (ha : (s.portOf q).a.Drains (f (s.portOf q)).a) (hb : (s.portOf q).b.Drains (f (s.portOf q)).b) : PlanFrame s (s.onPort q f) := by
  refine ⟨rfl, fun x => ?_⟩
  by_cases hx : x = q
  · subst hx
    rw [State.portOf_onPort]
    exact ⟨hu, ha, hb⟩
  · rw [State.portOf_onPort_ne _ f hx]
    exact ⟨rfl, .refl _, .refl _⟩

theorem planFrame_flushPort (q : Nat) : PlanFrame s (s.flushPort q) :=
  planFrame_onPort s (f := fun p => p.flush s.now) rfl (PortEnd.drains_flush _ _) (PortEnd.drains_flush _ _)

theorem planFrame_onEnd {q e : Nat} {f : PortEnd → PortEnd} (h : (s.endOf q e).Drains (f (s.endOf q e))) : PlanFrame s (s.onEnd q e f) := by
  unfold State.endOf at h
  refine planFrame_onPort s (f := fun p => if e = 0 then { p with a := f p.a } else { p with b := f p.b }) ?_ ?_ ?_
  all_goals by_cases he : e = 0 <;> simp only [he, if_true, if_false] at h ⊢
  · exact h
  · exact .refl _
  · exact .refl _
  · exact h

theorem State.alive_of_liveEnd {q e k : Nat} (h : s.liveEnd q e = some k) : (s.endOf q k).dead = false := by
  unfold State.liveEnd at h
  split at h
  · simp_all
  · split at h <;> simp_all

theorem planFrame_sendFrame (q e : Nat) (f : RingFrame) : PlanFrame s (s.sendFrame q e f) := by
  unfold State.sendFrame
  split
  next k hk => exact (planFrame_onEnd s (PortEnd.drains_enqueue (s.alive_of_liveEnd hk) _ _)).trans (planFrame_flushPort _ q)
  next => exact .refl s

/-- The ends without their sweep frames. -/
def State.keepCommands (s : State) (q : Nat) : State :=
  (s.onEnd q 0 (fun x => { x with plan := x.plan.filter (fun r => !r.2.sweep) })).onEnd q 1 (fun x =>
    { x with plan := x.plan.filter (fun r => !r.2.sweep) })

theorem planFrame_keepCommands (q : Nat) : PlanFrame s (s.keepCommands q) :=
  (planFrame_onEnd s (.of_plan rfl rfl rfl rfl List.filter_sublist)).trans
    (planFrame_onEnd _ (.of_plan rfl rfl rfl rfl List.filter_sublist))

theorem State.plan_keepCommands (q k : Nat) : ((s.keepCommands q).endOf q k).plan = (s.endOf q k).plan.filter (fun r => !r.2.sweep) := by
  by_cases hk : k = 0
  · subst hk
    simp [State.keepCommands, State.endOf_onEnd_other]
  · unfold State.keepCommands
    rw [State.endOf_onEnd _ _ (by simp [hk]), State.endOf_onEnd_other _ _ (by simp [hk])]

theorem planFrame_replan_of_kept (q : Nat) : PlanFrame ((s.flushPort q).keepCommands q) (s.replan q) :=
  foldl_rel PlanFrame .refl (fun _ _ _ => .trans) _
    (fun t e => foldl_rel PlanFrame .refl (fun _ _ _ => .trans) _ (fun u r => by
      split
      · exact .refl u
      · exact planFrame_sendFrame u q e _) _ t) _ _

theorem planFrame_replan (q : Nat) : PlanFrame s (s.replan q) :=
  ((planFrame_flushPort s q).trans (planFrame_keepCommands _ q)).trans (planFrame_replan_of_kept s q)

/-- The links of the ends are as they were. -/
def LinkFrame (s t : State) : Prop :=
  ∀ x k, (t.endOf x k).wrapped = (s.endOf x k).wrapped ∧ (t.endOf x k).linkUp = (s.endOf x k).linkUp ∧
    (t.endOf x k).silent = (s.endOf x k).silent

theorem LinkFrame.trans {s t u : State} (h : LinkFrame s t) (h' : LinkFrame t u) : LinkFrame s u := by
  intro x k
  obtain ⟨hw, hl, hs⟩ := h x k
  obtain ⟨hw', hl', hs'⟩ := h' x k
  exact ⟨hw'.trans hw, hl'.trans hl, hs'.trans hs⟩

theorem PlanFrame.links {s t : State} (h : PlanFrame s t) : LinkFrame s t := by
  intro x k
  obtain ⟨hw, hl, hs, -, -⟩ := h.drains x k
  exact ⟨hw, hl, hs⟩

theorem LinkFrame.of_ends {s t : State} (h : ∀ x k, t.endOf x k = s.endOf x k) : LinkFrame s t := by
  intro x k
  rw [h]
  exact ⟨rfl, rfl, rfl⟩

theorem State.endOf_onPort_of_ends (q x k : Nat) {f : PortUnit → PortUnit} (ha : (f (s.portOf q)).a = (s.portOf q).a)
    (hb : (f (s.portOf q)).b = (s.portOf q).b) : (s.onPort q f).endOf x k = s.endOf x k := by
  by_cases hx : x = q
  · subst hx
    simp only [State.endOf, State.portOf_onPort, ha, hb]
  · exact s.endOf_onPort_ne k f hx

/-- Where the chains of the ends stop after a break at position `cut`. -/
def State.cutChains (s : State) (q e cut : Nat) (fresh : Bool) : State :=
  s.onPort q (fun p =>
    if e = 0 then { p with endA := cut, firstB := if fresh then cut else p.firstB }
    else { p with firstB := cut, endA := if fresh then cut else p.endA })

theorem State.endOf_cutChains (q e cut : Nat) (fresh : Bool) (x k : Nat) : (s.cutChains q e cut fresh).endOf x k = s.endOf x k :=
  s.endOf_onPort_of_ends q x k (by split <;> rfl) (by split <;> rfl)

/-- Nodes between the two chains are reached by no end. -/
def State.chainGap (s : State) (q : Nat) : Bool :=
  decide ((s.portOf q).endA + 1 < (s.portOf q).firstB) && !s.flag (pq AQR_STATE_NODES_UNKNOWN q)

/-- The state that a break leaves a port in. -/
def State.noteOpen (s : State) (q st : Nat) (seg : Bool) : State :=
  if st = 4 ∧ seg then (s.setPortState q 5).setFlag (pq AQR_FLAGS_SEGMENTED q)
  else if st = 2 ∨ st = 3 then (s.setPortState q 4).setFlag (pq AQR_FLAGS_RING_OPEN q)
  else s

theorem State.portOf_noteOpen (q st : Nat) (seg : Bool) (x : Nat) : (s.noteOpen q st seg).portOf x = s.portOf x := by
  unfold State.noteOpen
  split
  · simp [State.setPortState]
  · split <;> simp [State.setPortState]

/-- A break by its three steps. -/
theorem State.breakRing_eq (q e cut : Nat) (second known : Bool) {t : State}
    (ht : t = s.cutChains q e cut (decide (s.portState q = 2 ∨ s.portState q = 3) && !known)) :
    s.breakRing q e cut second known = (t.noteOpen q (s.portState q) (second || t.chainGap q)).replan q := by
  subst ht
  rfl

theorem State.links_breakRing (q e cut : Nat) (second known : Bool) : LinkFrame s (s.breakRing q e cut second known) := by
  rw [s.breakRing_eq q e cut second known rfl]
  refine LinkFrame.trans (.of_ends fun x k => ?_) (planFrame_replan _ q).links
  exact (congrArg (fun p : PortUnit => if k = 0 then p.a else p.b) (State.portOf_noteOpen _ q _ _ x)).trans
    (s.endOf_cutChains q e cut _ x k)

theorem State.links_endOpen (q e : Nat) : LinkFrame s (s.endOpen q e) := by
  unfold State.endOpen
  split
  · exact (planFrame_replan s q).links
  · exact s.links_breakRing q e _ _ _

end Sys2Proof.Machine
end

section
/-! O31: links of the ring ends, and the wrap of a failed end. -/

namespace Sys2Proof.Machine

variable (s : State)

theorem PortEnd.wrap_wraps (x : PortEnd) : x.wrap.wrapped = true ∧ x.wrap.linkUp = false ∧ (x.wrapped = false → x.wrap.silent = true) := by
  unfold PortEnd.wrap
  split <;> simp_all

/-- What a wrap leaves at its end. -/
theorem State.endOf_wrapEnd (q e cause : Nat) :
    ((s.wrapEnd q e cause).endOf q e).wrapped = true ∧ ((s.wrapEnd q e cause).endOf q e).linkUp = false ∧
      ((s.endOf q e).wrapped = false → ((s.wrapEnd q e cause).endOf q e).silent = true) := by
  obtain ⟨hw, hl, hs⟩ := (s.endOf q e).wrap_wraps
  unfold State.wrapEnd
  by_cases h : (s.endOf q e).wrapped = true
  · rw [if_pos h, State.endOf_onEnd_self]
    exact ⟨hw, hl, hs⟩
  · rw [if_neg h]
    obtain ⟨hw', hl', hs'⟩ := State.links_endOpen (((s.onEnd q e PortEnd.wrap).onEnd q (1 - e) (fun x =>
      if x.dead then x else x.send (.brk (s.brkWord q e cause))))) q e q e
    rw [hw', hl', hs', State.endOf_onEnd_opposite, State.endOf_onEnd_self]
    exact ⟨hw, hl, hs⟩

/-- The wrap of an end, where the other one is alive. -/
theorem State.wrapEnd_eq {q e : Nat} (cause : Nat) (hw : (s.endOf q e).wrapped = false) (ho : (s.endOf q (1 - e)).dead = false) :
    s.wrapEnd q e cause =
      ((s.onEnd q e (fun x => { x with wrapped := true, linkUp := false, silent := true })).onEnd q (1 - e) (fun x =>
        x.send (.brk (s.brkWord q e cause)))).endOpen q e := by
  have hwrap : s.onEnd q e PortEnd.wrap = s.onEnd q e (fun x => { x with wrapped := true, linkUp := false, silent := true }) :=
    s.onEnd_congr (if_neg (by simp [hw]))
  unfold State.wrapEnd
  rw [if_neg (by simp [hw]), hwrap]
  refine congrArg (fun t => State.endOpen t q e) (State.onEnd_congr _ (if_neg ?_))
  rw [State.endOf_onEnd_other _ _ (by omega), ho]
  decide

/-- What an event that brings no wrap leaves. -/
theorem State.unswept_of_dead_replan (q k : Nat) (h : (s.endOf q k).dead = true) : ∀ p ∈ ((s.replan q).endOf q k).plan, p.2.sweep = false := by
  intro p hp
  have hdrains := (planFrame_replan_of_kept s q).drains q k
  have hdead : (((s.flushPort q).keepCommands q).endOf q k).dead = true :=
    (((planFrame_flushPort s q).trans (planFrame_keepCommands _ q)).drains q k).dead.trans h
  obtain ⟨-, -, -, -, hsub⟩ := hdrains
  have hmem := (hsub hdead).subset hp
  rw [State.plan_keepCommands] at hmem
  simpa using (List.mem_filter.mp hmem).2

/-- Settles O31: the link events are one branch each; a wrap and a plan keep the links of every end. -/
theorem ringLinksAndWraps : Obligations.RingLinksAndWraps := by
  refine ⟨fun q e s hr hon => ⟨fun inv => whenPort_run hr hon, fun inv => whenPort_run hr hon, whenPort_run hr hon, whenPort_run hr hon,
      fun w hw => ?_, fun w hw hrun => ?_, fun hs => ?_, fun hw hl he => ?_, whenPort_run hr hon, fun still hs => ?_⟩,
    fun q e cause s => ⟨?_, ?_, fun hw => ⟨?_, s.wrapEnd_eq cause hw⟩, fun k hk f => ?_, fun k hk => s.unswept_of_dead_replan q k hk⟩⟩
  · have hnot : w ∉ (s.endOf q e).sentLnk := by simpa using hw
    exact (whenPort_run hr hon).trans (by simp [hnot])
  · have hin : w ∈ (s.endOf q e).sentLnk := by simpa using hw
    exact (whenPort_run hr hon).trans (by simp [hin, hrun])
  · exact (whenPort_run hr hon).trans (congrArg Host.Outcome.next (if_pos hs))
  · exact (whenPort_run hr hon).trans (congrArg Host.Outcome.next (if_pos (by simp [hw, hl, he])))
  · exact (whenPort_run hr hon).trans (congrArg Host.Outcome.next (if_pos hs))
  · exact (s.endOf_wrapEnd q e cause).1
  · exact (s.endOf_wrapEnd q e cause).2.1
  · exact (s.endOf_wrapEnd q e cause).2.2 hw
  · obtain ⟨-, -, -, -, hsub⟩ := (planFrame_sendFrame s q e f).drains q k
    exact (hsub hk).length_le

end Sys2Proof.Machine
end

section
/-! O32: cells of the rings, retries, alarms, breaks and stale nodes. -/

namespace Sys2Proof.Machine

variable (s : State)

/-! ### Breaks -/

theorem PlanFrame.reg {s t : State} (h : PlanFrame s t) (a : Nat) : t.reg a = s.reg a := by
  rw [h.1]
  rfl

theorem PlanFrame.chains {s t : State} (h : PlanFrame s t) (x : Nat) :
    (t.portOf x).endA = (s.portOf x).endA ∧ (t.portOf x).firstB = (s.portOf x).firstB := by
  rw [(h.2 x).1]
  exact ⟨rfl, rfl⟩

/-- A closed ring opens at a break. -/
theorem State.breakRing_opens {q : Nat} (e cut : Nat) (second known : Bool) (h : s.portState q = 3) :
    s.breakRing q e cut second known =
      (((s.cutChains q e cut (!known)).setPortState q 4).setFlag (pq AQR_FLAGS_RING_OPEN q)).replan q := by
  rw [s.breakRing_eq q e cut second known rfl, h]
  rfl

/-- An open ring is segmented by a second break. -/
theorem State.breakRing_segments {q : Nat} (e cut : Nat) (known : Bool) (h : s.portState q = 4) :
    s.breakRing q e cut true known =
      (((s.cutChains q e cut false).setPortState q 5).setFlag (pq AQR_FLAGS_SEGMENTED q)).replan q := by
  rw [s.breakRing_eq q e cut true known rfl, h]
  rfl

section
variable (q : Fin 64)

theorem ringPage (q : Fin 64) {a : Nat} (h : a / 0x10000 = 0x20 + q.val / 16) : a / 0x10000 ≠ 0x1D := by omega

/-- What a break leaves in the registers of its port: the state, its flag, and the rest. -/
theorem State.breakRegs (t : State) {k : Nat} (hk : k < 8) (f : Nat → Nat → Fld) (hf : (pq f q).addr = AQR_FLAGS (q / 16) (q % 16))
    (hflag : ∀ u : State, (u.setFlag (pq f q)).flag (pq f q) = true) :
    let u := (((t.setPortState q k).setFlag (pq f q)).replan q)
    u.portState q = k ∧ u.flag (pq f q) = true ∧ ∀ g : Fld, g.addr = AQR_BREAK (q / 16) (q % 16) → u.fld g = t.fld g := by
  have hreg := (planFrame_replan ((t.setPortState q k).setFlag (pq f q)) q).reg
  refine ⟨?_, (State.flag_of_reg (hreg _)).trans (hflag _), fun g hg => ?_⟩
  · refine (State.fld_of_reg (hreg _)).trans ((State.fld_setFld_addr _ 1 ?_).trans (State.fld_setFld t (pq AQR_STATE_STATE q) hk))
    rw [hf]
    simp only [pq, AQR_STATE_STATE, AQR_STATE, AQR_FLAGS]
    omega
  · refine (State.fld_of_reg (hreg _)).trans ((State.fld_setFld_addr _ 1 ?_).trans (State.fld_setFld_addr t k ?_))
    · rw [hf, hg]
      simp only [AQR_BREAK, AQR_FLAGS]
      omega
    · rw [hg]
      simp only [pq, AQR_BREAK, AQR_STATE_STATE, AQR_STATE]
      omega

theorem State.fld_logEvent (t : State) {g : Fld} (hg : g.addr / 0x10000 = 0x20 + q.val / 16) (typ unit index code : Nat) :
    (t.logEvent typ unit index code).fld g = t.fld g :=
  State.fld_of_reg (t.reg_logEvent (ringPage q hg) typ unit index code)

/-- The first break of a closed ring, received at either end: the cut chain and the state. -/
theorem State.brkReceived_opens (e : Nat) (w : BitVec 16) (h : s.portState q = 3) :
    let t := s.brkReceived q e w
    let f := if e = 0 then pq AQR_BREAK_BREAK_A q else pq AQR_BREAK_BREAK_B q
    t.fld f = w.toNat / 128 ∧ t.portState q = 4 ∧ t.flag (pq AQR_FLAGS_RING_OPEN q) = true ∧
      if e = 0 then (t.portOf q).endA = w.toNat / 128 + 1 else (t.portOf q).firstB = w.toNat / 128 := by
  intro t f
  have hnode : w.toNat / 128 < 1024 := by omega
  have hf : f.addr = AQR_BREAK (q / 16) (q % 16) := by
    show (if e = 0 then _ else _ : Fld).addr = _
    split <;> rfl
  have hpage {a : Nat} (ha : a = AQR_STATE (q / 16) (q % 16) ∨ a = AQR_BREAK (q / 16) (q % 16) ∨ a = AQR_FLAGS (q / 16) (q % 16)) :
      a / 0x10000 = 0x20 + q.val / 16 := by
    simp only [AQR_STATE, AQR_BREAK, AQR_FLAGS] at ha
    omega
  have hstate : (s.setFld f (w.toNat / 128)).portState q = 3 := by
    refine (State.fld_setFld_addr s _ ?_).trans h
    rw [hf]
    simp only [pq, AQR_BREAK, AQR_STATE_STATE, AQR_STATE]
    omega
  have ht : t = ((((((s.setFld f (w.toNat / 128)).cutChains q e (if e = 0 then w.toNat / 128 + 1 else w.toNat / 128) (!_)).setPortState
      q 4).setFlag (pq AQR_FLAGS_RING_OPEN q)).replan q).logEvent 2 q (w.toNat / 128) (w.toNat % 64 + w.toNat / 64 % 2 * 256)) :=
    congrArg (fun u => State.logEvent u 2 q (w.toNat / 128) (w.toNat % 64 + w.toNat / 64 % 2 * 256))
      (State.breakRing_opens _ e _ _ _ hstate)
  generalize hcut : (s.setFld f (w.toNat / 128)).cutChains q e (if e = 0 then w.toNat / 128 + 1 else w.toNat / 128) _ = c at ht
  obtain ⟨hst, hopen, hbreak⟩ := State.breakRegs q c (k := 4) (by decide) AQR_FLAGS_RING_OPEN rfl (fun u => State.flag_setFlag u _)
  have hchains := (planFrame_replan ((c.setPortState q 4).setFlag (pq AQR_FLAGS_RING_OPEN q)) q).chains q
  rw [ht]
  refine ⟨?_, ?_, ?_, ?_⟩
  · rw [State.fld_logEvent q _ (hpage (.inr (.inl hf))), hbreak f hf, ← hcut]
    show (s.setFld f (w.toNat / 128)).fld f = _
    by_cases he : e = 0
    · simp only [f, if_pos he]
      exact State.fld_setFld s (pq AQR_BREAK_BREAK_A q) hnode
    · simp only [f, if_neg he]
      exact State.fld_setFld s (pq AQR_BREAK_BREAK_B q) hnode
  · exact (State.fld_logEvent q _ (hpage (.inl rfl)) _ _ _ _).trans hst
  · exact (State.flag_of_reg (State.reg_logEvent _ (ringPage q (hpage (.inr (.inr rfl)))) _ _ _ _)).trans hopen
  · have hport : ((c.setPortState q 4).setFlag (pq AQR_FLAGS_RING_OPEN q)).portOf q = c.portOf q := by simp [State.setPortState]
    simp only [State.logEvent_outside, hchains, hport, f]
    rw [← hcut]
    by_cases he : e = 0 <;> simp [State.cutChains, he]

/-- A second break of the same side at another node. -/
theorem State.brkReceived_segments (w : BitVec 16) (h : s.portState q = 4) (hk : s.fld (pq AQR_BREAK_BREAK_A q) ≠ 1023)
    (hn : s.fld (pq AQR_BREAK_BREAK_A q) ≠ w.toNat / 128) :
    (s.brkReceived q 0 w).portState q = 5 ∧ (s.brkReceived q 0 w).flag (pq AQR_FLAGS_SEGMENTED q) = true := by
  have hsecond : (s.fld (pq AQR_BREAK_BREAK_A q) != 0x3FF && s.fld (pq AQR_BREAK_BREAK_A q) != w.toNat / 128) = true := by
    simp [hk, hn]
  have hstate : (s.setFld (pq AQR_BREAK_BREAK_A q) (w.toNat / 128)).portState q = 4 := by
    refine (State.fld_setFld_addr s _ ?_).trans h
    simp only [pq, AQR_BREAK_BREAK_A, AQR_BREAK, AQR_STATE_STATE, AQR_STATE]
    omega
  have ht : s.brkReceived q 0 w = (((((s.setFld (pq AQR_BREAK_BREAK_A q) (w.toNat / 128)).cutChains q 0 (w.toNat / 128 + 1)
      false).setPortState q 5).setFlag (pq AQR_FLAGS_SEGMENTED q)).replan q).logEvent 2 q (w.toNat / 128)
        (w.toNat % 64 + w.toNat / 64 % 2 * 256) := by
    rw [← State.breakRing_segments _ 0 _ (s.fld (pq AQR_BREAK_BREAK_B q) != 0x3FF) hstate, ← hsecond]
    rfl
  obtain ⟨hst, hseg, -⟩ := State.breakRegs q ((s.setFld (pq AQR_BREAK_BREAK_A q) (w.toNat / 128)).cutChains q 0 (w.toNat / 128 + 1)
    false) (k := 5) (by decide) AQR_FLAGS_SEGMENTED rfl (fun u => State.flag_setFlag u _)
  have hpage {a : Nat} (ha : a = AQR_STATE (q / 16) (q % 16) ∨ a = AQR_FLAGS (q / 16) (q % 16)) : a / 0x10000 = 0x20 + q.val / 16 := by
    simp only [AQR_STATE, AQR_FLAGS] at ha
    omega
  rw [ht]
  exact ⟨(State.fld_logEvent q _ (hpage (.inl rfl)) _ _ _ _).trans hst,
    (State.flag_of_reg (State.reg_logEvent _ (ringPage q (hpage (.inr rfl))) _ _ _ _)).trans hseg⟩

end

/-! ### Cells -/

theorem abt_of_cellGood {c : RingCell} (h : cellGood c = true) : c.abt = false := by
  simp only [cellGood, Bool.and_eq_true, Bool.not_eq_true'] at h
  exact h.1.1.1

/-- The end does not pass the cell on. -/
theorem State.not_looping {q : Fin 64} {e : Fin 2} (h : e = 0 ∨ s.flag (pq AQR_STATE_B_LOOP q) = false) :
    ((e : Nat) == 1 && s.flag (pq AQR_STATE_B_LOOP q)) = false := by
  rcases h with rfl | h
  · rfl
  · rw [h, Bool.and_false]

theorem PortEnd.countCell_tx (x : PortEnd) (c : RingCell) : (x.countCell c).tx = x.tx := by
  unfold PortEnd.countCell
  split <;> rfl

theorem PortEnd.passOn_good (x : PortEnd) {c : RingCell} (h : cellGood c = true) : x.passOn c = x.send (.loop c) := by
  have hsame : { c with abt := c.abt || !cellGood c } = c := by
    rw [h, Bool.not_true, Bool.or_false]
  unfold PortEnd.passOn
  rw [hsame]

@[simp] theorem State.onEnd_regs (q e : Nat) (f : PortEnd → PortEnd) : (s.onEnd q e f).regs = s.regs := rfl

@[simp] theorem State.onEnd_mem (q e : Nat) (f : PortEnd → PortEnd) : (s.onEnd q e f).mem = s.mem := rfl

theorem State.headerCell_own {q : Fin 64} (e : Fin 2) {c : RingCell} (h : (c.payload.getD 1 0).toNat % 64 = q) :
    s.headerCell q e c = s.onEnd q e (fun x => { x with op := cellIdx c, tag := beNat ((c.payload.drop 2).take 2) }) :=
  if_neg (by simp only [h, ne_eq, not_true_eq_false, not_false_eq_true])

section
variable (x : PortEnd) (h now : Nat)

theorem PortEnd.nakCell_first (hnone : x.retry.find? (fun r => r.1 = h) = none) :
    (x.nakCell h now).retry = x.retry ++ [(h, 1, now)] ∧ (x.nakCell h now).tx = (.nak h :: x.tx).take 8 := by
  unfold PortEnd.nakCell
  rw [hnone]
  exact ⟨rfl, rfl⟩

theorem PortEnd.nakCell_again {bad at0 : Nat} (hsome : x.retry.find? (fun r => r.1 = h) = some (h, bad, at0)) (hb : bad < 3)
    (ht : now < at0 + usTicks 40) :
    (h, bad + 1, at0) ∈ (x.nakCell h now).retry ∧ (x.nakCell h now).tx = (.nak h :: x.tx).take 8 := by
  unfold PortEnd.nakCell
  rw [hsome]
  simp only [hb, ht, and_self, if_true]
  exact ⟨List.mem_map.mpr ⟨(h, bad, at0), List.mem_of_find?_eq_some hsome, by simp⟩, rfl⟩

theorem PortEnd.nakCell_gone {bad at0 : Nat} (hsome : x.retry.find? (fun r => r.1 = h) = some (h, bad, at0))
    (hlate : 3 ≤ bad ∨ at0 + usTicks 40 ≤ now) :
    (∀ r ∈ (x.nakCell h now).retry, r.1 ≠ h) ∧ (x.nakCell h now).tx = x.tx := by
  unfold PortEnd.nakCell
  rw [hsome]
  have hnot : ¬(bad < 3 ∧ now < at0 + usTicks 40) := by omega
  simp only [hnot, if_false]
  exact ⟨fun r hr => by simpa using (List.mem_filter.mp hr).2, trivial⟩

end

/-! ### Stale nodes -/

theorem State.ports_onEntries (q l : Nat) (f : ShelfEntry → ShelfEntry) : (s.onEntries q l f).ports = s.ports :=
  foldl_rel (fun a b => b.ports = a.ports) (fun _ => rfl) (fun _ _ _ h h' => h'.trans h) _ (fun t j => by simp [State.setEntry]) _ s

theorem State.nodeMeasures_of_ports {s t : State} (h : t.ports = s.ports) (q l : Nat) : t.nodeMeasures q l = s.nodeMeasures q l := by
  have hport : t.portOf q = s.portOf q := congrArg (fun m => tget (fun _ => ({} : PortUnit)) m q) h
  unfold State.nodeMeasures State.nodePoints State.pointClass
  rw [hport]

/-- An ABT of the end is less than 40 µs old. -/
def PortEnd.recentAbt (x : PortEnd) (now : Nat) : Bool :=
  match x.abtAt with
  | some t => decide (now < t + usTicks 40)
  | none => false

theorem PortEnd.recentAbt_of_quiet {x : PortEnd} {now : Nat} (h : ∀ t, x.abtAt = some t → t + usTicks 40 ≤ now) :
    x.recentAbt now = false := by
  unfold PortEnd.recentAbt
  split
  next t ht => exact decide_eq_false (by have := h t ht; omega)
  next => rfl

theorem PortEnd.recentAbt_of_some {x : PortEnd} {now t : Nat} (h : x.abtAt = some t) (ht : now < t + usTicks 40) :
    x.recentAbt now = true := by
  unfold PortEnd.recentAbt
  rw [h]
  exact decide_eq_true ht

/-- The node and its entries are marked stale. -/
def State.markStale (s : State) (q l : Nat) : State :=
  (((s.setNodeBit AQR_NODE_STALE q l true).setFlag (pq AQR_FLAGS_NODE_STALE q)).count (pq AQR_CNT1_STALE_CNT q)).onEntries q l
    (fun x => { x with stale := true })

theorem State.goStale_eq (q l : Nat) : s.goStale q l =
    if !s.nodePresent q l || s.nodeStale q l || (s.portOf q).a.recentAbt s.now || (s.portOf q).b.recentAbt s.now then s
    else if (s.markStale q l).nodeMeasures q l then (s.markStale q l).aggStale q else s.markStale q l := rfl

/-- A present node goes stale where no end of its port has had an ABT less than 40 µs ago. -/
theorem State.goStale_quiet {q l : Nat} (hp : s.nodePresent q l = true) (hs : s.nodeStale q l = false)
    (ha : ∀ t, (s.portOf q).a.abtAt = some t → t + usTicks 40 ≤ s.now) (hb : ∀ t, (s.portOf q).b.abtAt = some t → t + usTicks 40 ≤ s.now) :
    s.goStale q l = if s.nodeMeasures q l then (s.markStale q l).aggStale q else s.markStale q l := by
  have hports : (s.markStale q l).ports = s.ports := by
    rw [State.markStale, State.ports_onEntries]
    simp [State.setNodeBit]
  rw [State.goStale_eq, if_neg, State.nodeMeasures_of_ports hports]
  · rw [hp, hs, PortEnd.recentAbt_of_quiet ha, PortEnd.recentAbt_of_quiet hb]
    decide

/-- The timer holds while an ABT of the port is less than 40 µs old. -/
theorem State.goStale_held {q l t : Nat} (h : (s.portOf q).a.abtAt = some t ∨ (s.portOf q).b.abtAt = some t) (ht : s.now < t + usTicks 40) :
    s.goStale q l = s := by
  rw [State.goStale_eq]
  refine if_pos ?_
  rcases h with ha | hb
  · simp [PortEnd.recentAbt_of_some ha ht]
  · simp [PortEnd.recentAbt_of_some hb ht]

/-- Settles O32: cells, alarms, breaks and stale nodes, by the branches of R230 to R247. -/
theorem ringTraffic : Obligations.RingTraffic := by
  refine ⟨fun q e c room s hr hon => ⟨fun hloop => ⟨fun ha => ?_, fun ha hg => ?_, fun hg ht hq => ?_⟩, fun hl hg => ?_, fun x h now =>
      ⟨x.nakCell_first h now, fun bad at0 hs => x.nakCell_again h now hs, fun bad at0 hs => x.nakCell_gone h now hs⟩,
      fun k p hp => ?_, fun k hp => ?_, whenPort_run hr hon⟩,
    fun q e c1 c2 s hr hon => ⟨fun hne => ?_, ?_, fun hst => ⟨?_, ?_⟩, fun hst hk hn => ?_⟩,
    fun q l s hr hon hp hs => ⟨fun ha hb => ⟨fun hm => ?_, fun hm => ?_⟩, fun t ha ht => ?_⟩⟩
  · refine (whenPort_run hr hon).trans ?_
    simp [State.receiveCell, s.not_looping hloop, ha]
  · refine (whenPort_run hr hon).trans ?_
    simp [State.receiveCell, s.not_looping hloop, ha, hg]
  · refine ⟨_, whenPort_run hr hon, ?_⟩
    simp [State.receiveCell, s.not_looping hloop, abt_of_cellGood hg, hg, State.acceptCell, ht, State.headerCell_own _ e hq,
      PortEnd.countCell_tx]
  · refine ⟨_, whenPort_run hr hon, ?_⟩
    simp [State.receiveCell, hl, abt_of_cellGood hg, hg, PortEnd.passOn_good _ hg, PortEnd.send, PortEnd.countCell_tx]
  · refine (whenPort_run hr hon).trans ?_
    rw [State.nakReceived]
    simp only [hp]
  · refine (whenPort_run hr hon).trans ?_
    rw [State.nakReceived]
    simp only [hp]
  · exact ⟨(whenPort_run hr hon).trans (congrArg Host.Outcome.next (if_pos hne)), (whenPort_run hr hon).trans (congrArg Host.Outcome.next (if_pos hne))⟩
  · exact (whenPort_run hr hon).trans (congrArg Host.Outcome.next (if_neg (fun h => h rfl)))
  · obtain ⟨hb, ho, hf, hc⟩ := s.brkReceived_opens q 0 c1 hst
    exact ⟨_, (whenPort_run hr hon).trans (congrArg Host.Outcome.next (if_neg (fun h => h rfl))), hb, ho, hf, hc⟩
  · obtain ⟨hb, ho, hf, hc⟩ := s.brkReceived_opens q 1 c1 hst
    exact ⟨_, (whenPort_run hr hon).trans (congrArg Host.Outcome.next (if_neg (fun h => h rfl))), hb, ho, hf, hc⟩
  · exact ⟨_, (whenPort_run hr hon).trans (congrArg Host.Outcome.next (if_neg (fun h => h rfl))), s.brkReceived_segments q c1 hst hk hn⟩
  · exact (whenPort_run hr hon).trans (congrArg Host.Outcome.next ((s.goStale_quiet hp hs ha hb).trans (if_neg (by simp [hm]))))
  · exact (whenPort_run hr hon).trans (congrArg Host.Outcome.next ((s.goStale_quiet hp hs ha hb).trans (if_pos hm)))
  · exact (whenPort_run hr hon).trans (congrArg Host.Outcome.next (s.goStale_held ha ht))

end Sys2Proof.Machine
end

section
/-! O34: discovery of a ring. -/

namespace Sys2Proof.Machine

variable (s : State) (q : Fin 64)

/-! ### What finds the ring -/

theorem State.reg_sendEnum (k e start dir a : Nat) : (s.sendEnum k e start dir).reg a = s.reg a :=
  (planFrame_sendFrame (s.onPort k (fun p => { p with enumOut := true })) k e _).reg a

/-- The nodes that an ENUM from the A-end found are its number. -/
theorem State.found_placeFromA (ids : List IdCell) (h : ids.length < 1024) :
    (s.placeFromA q ids).fld (pq AQR_STATE_FOUND q) = ids.length :=
  (State.fld_onPort _ q _ (pq AQR_STATE_FOUND q)).trans (State.fld_setFld _ (pq AQR_STATE_FOUND q) h)

section
variable {a : Nat} (hf : a ≠ AQR_FIRST_UID (q / 16) (q % 16)) (hl : a ≠ AQR_LAST_UID (q / 16) (q % 16))
  (hc : a ≠ AQR_CFG (q / 16) (q % 16)) (hg : a ≠ AQR_FLAGS (q / 16) (q % 16))
include hf hl hc hg

/-- The number of nodes and the UIDs that a first discovery learns. -/
def State.learnRing (s : State) (q : Nat) (ids : List IdCell) (nodes : Nat) : State :=
  let n := ids.length
  let uid (i : Nat) : Word := (ids.getD i ⟨0, 0⟩).uid
  let s2 := if nodes = 0 then (s.setFld (pq AQR_CFG_NODES q) n).setActFld (pq AQR_CFG_NODES q) n
    else s.setFlagIf (decide (n ≠ nodes)) (pq AQR_FLAGS_COUNT_CHANGED q)
  let s3 := if s2.reg (pq AQR_FIRST_UID q) = 0 then s2.setBoth (pq AQR_FIRST_UID q) (uid 0) else s2
  if s3.reg (pq AQR_LAST_UID q) = 0 then s3.setBoth (pq AQR_LAST_UID q) (uid (n - 1)) else s3

theorem State.reg_learnRing (ids : List IdCell) (nodes : Nat) : (s.learnRing q ids nodes).reg a = s.reg a := by
  have hboth (c : Prop) [Decidable c] (t : State) {b : Nat} (hb : a ≠ b) (w : Word) :
      (if c then t.setBoth b w else t).reg a = t.reg a := by
    split
    · exact State.reg_setReg_ne t w hb
    · rfl
  unfold State.learnRing
  dsimp only
  have hl' : a ≠ pq AQR_LAST_UID q := hl
  have hf' : a ≠ pq AQR_FIRST_UID q := hf
  rw [hboth _ _ hl', hboth _ _ hf']
  split
  · exact (State.reg_setActFld _ (pq AQR_CFG_NODES q) _ a).trans (s.reg_setFld_ne _ hc)
  · exact s.reg_setFlagIf_ne _ hg

end

theorem State.ringClosed_eq (ids : List IdCell) : s.ringClosed q ids =
    (((((((s.placeFromA q ids).learnRing q ids (s.fld (pq AQR_CFG_NODES q))).setFld (pq AQR_BREAK_BREAK_A q) 0x3FF).setFld
      (pq AQR_BREAK_BREAK_B q) 0x3FF).setFld (pq AQR_STATE_NODES_UNKNOWN q) 0).setPortState q 3).replan q) := rfl

/-- A closed ring: its state, its nodes, and no break. -/
theorem State.ringClosed_leaves (ids : List IdCell) (h : ids.length < 512) :
    (s.ringClosed q ids).portState q = 3 ∧ (s.ringClosed q ids).fld (pq AQR_STATE_FOUND q) = ids.length ∧
      (s.ringClosed q ids).fld (pq AQR_BREAK_BREAK_A q) = 1023 ∧ (s.ringClosed q ids).fld (pq AQR_BREAK_BREAK_B q) = 1023 := by
  have hfound : ((s.placeFromA q ids).learnRing q ids (s.fld (pq AQR_CFG_NODES q))).fld (pq AQR_STATE_FOUND q) = ids.length := by
    refine (State.fld_of_reg (State.reg_learnRing _ q ?_ ?_ ?_ ?_ ids _)).trans (s.found_placeFromA q ids (by omega))
    all_goals
      simp only [pq, AQR_STATE_FOUND, AQR_STATE, AQR_FIRST_UID, AQR_LAST_UID, AQR_CFG, AQR_FLAGS]
      omega
  have hreplan (t : State) (g : Fld) : (t.replan q).fld g = t.fld g := State.fld_of_reg ((planFrame_replan t q).reg _)
  have hstate (t : State) (f : Nat → Nat → Fld) (v : Nat) (hf : (pq f q).addr = AQR_STATE (q / 16) (q % 16)) (g : Nat → Nat → Fld)
      (hg : (pq g q).addr = AQR_BREAK (q / 16) (q % 16)) : (t.setFld (pq f q) v).fld (pq g q) = t.fld (pq g q) ∧
        (t.setFld (pq g q) v).fld (pq f q) = t.fld (pq f q) := by
    have hne : (pq g q).addr ≠ (pq f q).addr := by
      rw [hf, hg]
      simp only [AQR_STATE, AQR_BREAK]
      omega
    exact ⟨State.fld_setFld_addr t v hne, State.fld_setFld_addr t v hne.symm⟩
  rw [State.ringClosed_eq]
  refine ⟨?_, ?_, ?_, ?_⟩
  · exact (hreplan _ _).trans (State.fld_setFld _ (pq AQR_STATE_STATE q) (by decide : 3 < 8))
  · rw [hreplan, State.setPortState, State.fld_setFld_elsewhere _ (pq AQR_STATE_STATE q) (pq AQR_STATE_FOUND q),
      State.fld_setFld_elsewhere _ (pq AQR_STATE_NODES_UNKNOWN q) (pq AQR_STATE_FOUND q),
      (hstate _ AQR_STATE_FOUND _ rfl AQR_BREAK_BREAK_B rfl).2, (hstate _ AQR_STATE_FOUND _ rfl AQR_BREAK_BREAK_A rfl).2, hfound]
  · rw [hreplan, State.setPortState, (hstate _ AQR_STATE_STATE _ rfl AQR_BREAK_BREAK_A rfl).1,
      (hstate _ AQR_STATE_NODES_UNKNOWN _ rfl AQR_BREAK_BREAK_A rfl).1,
      State.fld_setFld_elsewhere _ (pq AQR_BREAK_BREAK_B q) (pq AQR_BREAK_BREAK_A q)]
    exact State.fld_setFld _ (pq AQR_BREAK_BREAK_A q) (by decide : 1023 < 1024)
  · rw [hreplan, State.setPortState, (hstate _ AQR_STATE_STATE _ rfl AQR_BREAK_BREAK_B rfl).1,
      (hstate _ AQR_STATE_NODES_UNKNOWN _ rfl AQR_BREAK_BREAK_B rfl).1]
    exact State.fld_setFld _ (pq AQR_BREAK_BREAK_B q) (by decide : 1023 < 1024)

/-- An open ring: its state and its flag. -/
theorem State.ringOpen_leaves (ids : List IdCell) :
    (s.ringOpen q ids).portState q = 4 ∧ (s.ringOpen q ids).flag (pq AQR_FLAGS_RING_OPEN q) = true := by
  have hopened (t : State) : ((t.setPortState q 4).setFlag (pq AQR_FLAGS_RING_OPEN q)).portState q = 4 ∧
      ((t.setPortState q 4).setFlag (pq AQR_FLAGS_RING_OPEN q)).flag (pq AQR_FLAGS_RING_OPEN q) = true := by
    refine ⟨(State.fld_setFld_addr _ 1 ?_).trans (State.fld_setFld t (pq AQR_STATE_STATE q) (by decide : 4 < 8)), State.flag_setFlag _ _⟩
    simp only [pq, AQR_STATE_STATE, AQR_STATE, AQR_FLAGS_RING_OPEN, AQR_FLAGS]
    omega
  obtain ⟨hst, hfl⟩ := hopened (s.placeFromA q ids)
  unfold State.ringOpen
  dsimp only
  split
  · refine ⟨(State.fld_of_reg (State.reg_sendEnum _ _ _ _ _ _)).trans ((State.fld_setFld_elsewhere _ (pq AQR_STATE_NODES_UNKNOWN q)
      (pq AQR_STATE_STATE q) 1).trans hst), (State.flag_of_reg (State.reg_sendEnum _ _ _ _ _ _)).trans ((State.flag_setFld_addr _ 1 ?_).trans hfl)⟩
    simp only [pq, AQR_STATE_NODES_UNKNOWN, AQR_STATE, AQR_FLAGS_RING_OPEN, AQR_FLAGS]
    omega
  · exact ⟨(State.fld_of_reg (State.reg_sendEnum _ _ _ _ _ _)).trans hst, (State.flag_of_reg (State.reg_sendEnum _ _ _ _ _ _)).trans hfl⟩

/-! ### Exchanged ends -/

/-- A port whose frames came back at another one. -/
theorem State.portCrossed_leaves {p : Nat} (hp : p < 64) :
    (s.portCrossed q p).portState q = 6 ∧ (s.portCrossed q p).flag (pq AQR_FLAGS_CROSSED q) = true ∧
      (s.portCrossed q p).fld (pq AQR_STATE_CROSS_PORT q) = p ∧ (s.portCrossed q p).flag (pq AQR_STATE_B_LOOP q) = true := by
  unfold State.portCrossed State.setPortState
  refine ⟨?_, ?_, ?_, State.flag_setFlag _ (pq AQR_STATE_B_LOOP q)⟩
  · unfold State.portState
    rw [State.fld_setFld_elsewhere _ (pq AQR_STATE_B_LOOP q) (pq AQR_STATE_STATE q),
      State.fld_setFld_elsewhere _ (pq AQR_STATE_CROSS_PORT q) (pq AQR_STATE_STATE q)]
    refine (State.fld_setFld_addr _ 1 ?_).trans (State.fld_setFld s (pq AQR_STATE_STATE q) (by decide : 6 < 8))
    simp only [pq, AQR_STATE_STATE, AQR_STATE, AQR_FLAGS_CROSSED, AQR_FLAGS]
    omega
  · refine (State.flag_setFld_addr _ 1 ?_).trans ((State.flag_setFld_addr _ p ?_).trans (State.flag_setFlag _ (pq AQR_FLAGS_CROSSED q)))
    all_goals
      simp only [pq, AQR_STATE_B_LOOP, AQR_STATE_CROSS_PORT, AQR_STATE, AQR_FLAGS_CROSSED, AQR_FLAGS]
      omega
  · exact (State.fld_setFld_elsewhere _ (pq AQR_STATE_B_LOOP q) (pq AQR_STATE_CROSS_PORT q) 1).trans
      (State.fld_setFld _ (pq AQR_STATE_CROSS_PORT q) hp)

/-- What befalls another port changes no register of this one's STATE and FLAGS. -/
theorem State.reg_portCrossed_other {p : Fin 64} (hp : p ≠ q) (other : Nat) {a : Nat}
    (ha : a = AQR_STATE (q / 16) (q % 16) ∨ a = AQR_FLAGS (q / 16) (q % 16)) : (s.portCrossed p other).reg a = s.reg a := by
  have hne : p.val ≠ q.val := fun h => hp (Fin.ext h)
  have hstate : a ≠ AQR_STATE (p / 16) (p % 16) := by
    simp only [AQR_STATE, AQR_FLAGS] at ha ⊢
    omega
  have hflags : a ≠ AQR_FLAGS (p / 16) (p % 16) := by
    simp only [AQR_STATE, AQR_FLAGS] at ha ⊢
    omega
  unfold State.portCrossed State.setPortState
  rw [State.reg_setFld_ne _ _ hstate, State.reg_setFld_ne _ _ hstate, State.setFlag, State.reg_setFld_ne _ _ hflags,
    State.reg_setFld_ne _ _ hstate]

theorem State.crossPorts_leaves {p : Fin 64} (hp : p ≠ q) :
    (s.crossPorts q p).portState q = 6 ∧ (s.crossPorts q p).flag (pq AQR_FLAGS_CROSSED q) = true ∧
      (s.crossPorts q p).fld (pq AQR_STATE_CROSS_PORT q) = p ∧ (s.crossPorts q p).flag (pq AQR_STATE_B_LOOP q) = true := by
  obtain ⟨hst, hfl, hport, hloop⟩ := s.portCrossed_leaves q p.isLt
  unfold State.crossPorts
  dsimp only
  split
  · have hother {a : Nat} := State.reg_portCrossed_other (s.portCrossed q p) q hp q (a := a)
    exact ⟨(State.fld_of_reg (hother (.inl rfl))).trans hst, (State.flag_of_reg (hother (.inr rfl))).trans hfl,
      (State.fld_of_reg (hother (.inl rfl))).trans hport, (State.flag_of_reg (hother (.inl rfl))).trans hloop⟩
  · exact ⟨hst, hfl, hport, hloop⟩

/-- Settles O34: an ENUM that returns is one of the five findings of R237. -/
theorem ringDiscovery : Obligations.RingDiscovery := by
  refine fun q ids s hr hon => ⟨fun hlast hlen => ⟨?_, ?_⟩, fun sent p e hp => ?_, fun e => ?_, fun ho ha hb => ?_, fun ho => ?_, fun hst => ?_⟩
  · refine ⟨s.enumReturn q 0 q 1 ids, whenPort_run hr hon, ?_⟩
    have hclosed : s.enumReturn q 0 q 1 ids = (s.onPort q (fun p => { p with enumOut := false })).ringClosed q ids := by
      simp [State.enumReturn, hlast]
    rw [hclosed]
    exact State.ringClosed_leaves _ q ids hlen
  · refine ⟨s.enumReturn q 0 q 0 ids, whenPort_run hr hon, ?_⟩
    have hopen : s.enumReturn q 0 q 0 ids = (s.onPort q (fun p => { p with enumOut := false })).ringOpen q ids := by
      simp [State.enumReturn, hlast]
    rw [hopen]
    exact State.ringOpen_leaves _ q ids
  · have hne : (p : Nat) ≠ q := fun h => hp (Fin.ext h)
    refine ⟨_, whenPort_run hr hon, ?_⟩
    rw [State.enumReturn, if_pos hne]
    exact State.crossPorts_leaves _ q hp
  · exact (whenPort_run hr hon).trans (by simp [State.enumReturn])
  · exact (whenPort_run hr hon).trans (by simp [State.enumAbsent, ho, ha, hb])
  · exact (whenPort_run hr hon).trans (by simp [State.enumAbsent, ho])
  · have hen : (s.grantPort q && s.flag (pq AQR_CFG_EN q)) = true := by
      simp only [State.portOn, Bool.and_eq_true] at hon
      simp [hon]
    exact (whenPort_run hr hon).trans (congrArg Host.Outcome.next ((if_pos hst).trans (if_pos hen)))

end Sys2Proof.Machine
end

section
/-! O35: sweeps, port commands, and the commands of the Shelf. -/

namespace Sys2Proof.Machine

variable (s : State)

theorem writeWindow_port {s t : State} {q : Fin 64} (hr : s.dataRuns = true) (h : s.window (0x20 + q / 16) = some true) :
    writeWindow (0x20 + q / 16) s t = .next t :=
  writeWindow_data (devRuns_of_dataRuns hr) (by omega) h

/-- A sweep of a port on which no node is present. -/
theorem State.sweepEnd_empty {q : Nat} (hsw : s.flag (pq AQR_STATE_SWEEPING q) = true) (hl : (s.portOf q).lateDue = false)
    (hn : s.nodes q = []) :
    s.sweepEnd q = (((((s.onPort q (fun _ => s.sweepSent q)).setFld (pq AQR_SWEEP_STAT_SWEEP_COUNT q) (s.portOf q).sweepNo).setFld
      (pq AQR_SWEEP_STAT_LAST_T q) (min ((s.now - (s.portOf q).sweepAt) / 4000) 65535)).setFld
        (pq AQR_STATE_SWEEPING q) 0).writeAggregate q) := by
  have hlate : (s.sweepSent q).lateDue = false := hl
  have hage : (s.onPort q (fun _ => s.sweepSent q)).ageEntries q = s.onPort q (fun _ => s.sweepSent q) := by
    have hnodes : (s.onPort q (fun _ => s.sweepSent q)).nodes q = [] := hn
    rw [State.ageEntries, hnodes]
    rfl
  have hno : (s.sweepSent q).sweepNo = (s.portOf q).sweepNo := rfl
  have hat : (s.sweepSent q).sweepAt = (s.portOf q).sweepAt := rfl
  simp [State.sweepEnd, hsw, hn, hlate, hage, hno, hat]

/-- Settles O35: each command of a sweep, a port and the Shelf is one branch. -/
theorem ringAndShelfCommands : Obligations.RingAndShelfCommands := by
  refine ⟨fun q s hr hon => ⟨fun hc hsw => ⟨?_, fun hw => ?_⟩, fun hc hsw => ?_, fun hsw hl hn => ?_, fun hw hst => ?_⟩,
    fun q s u hr hw hu => ⟨fun hb => ?_, fun hb => ⟨fun hst => ⟨fun hop => ?_, fun h1 h4 h5 => ?_⟩, fun hst => ?_⟩, fun hon hb hs => ?_⟩,
    fun q s hr => ⟨?_, ?_, ?_, ?_, fun hg => ?_, fun hm hi => ?_⟩⟩
  · exact (whenPort_run hr hon).trans (by simp [State.sweepStart, hc, hsw])
  · exact (writeWindow_port hr hw).trans (by simp [State.sweepNow, hon, hc, hsw])
  · exact (whenPort_run hr hon).trans (by simp [State.sweepStart, hc, hsw])
  · exact (whenPort_run hr hon).trans (congrArg Host.Outcome.next (s.sweepEnd_empty hsw hl hn))
  · exact (writeWindow_port hr hw).trans (by simp [State.rediscover, hon, hst])
  · exact (writeWindow_port hr hw).trans (congrArg Host.Outcome.next (if_pos hb))
  · have hreply : opReplies (s.fld (pq AQR_CMD_HDR_OP q)) = true := by
      rcases hop with h | h | h <;> simp [opReplies, h]
    refine (writeWindow_port hr hw).trans (congrArg Host.Outcome.next ?_)
    rw [State.commandGo, if_neg (by simp [hb]), if_neg (by omega), if_pos hreply, hu]
  · have hreply : opReplies (s.fld (pq AQR_CMD_HDR_OP q)) = false := by simp [opReplies, h1, h4, h5]
    refine (writeWindow_port hr hw).trans (congrArg Host.Outcome.next ?_)
    rw [State.commandGo, if_neg (by simp [hb]), if_neg (by omega), if_neg (by simp [hreply]), hu]
  · refine (writeWindow_port hr hw).trans (congrArg Host.Outcome.next ?_)
    rw [State.commandGo, if_neg (by simp [hb]), if_pos hst, hu]
  · exact (whenPort_run hr hon).trans (by simp [State.commandEnd, hb, hs])
  · exact writeWindow_data (devRuns_of_dataRuns hr) (by decide) rfl
  · exact writeWindow_data (devRuns_of_dataRuns hr) (by decide) rfl
  · exact readWindow_data (devRuns_of_dataRuns hr) (by decide) rfl
  · exact whenData_run hr
  · exact (whenData_run hr).trans (congrArg Host.Outcome.next (if_pos hg))
  · exact (whenMgmt_run _ hm).trans (congrArg Host.Outcome.next (if_pos hi))

end Sys2Proof.Machine
end

section
/-! O36: the clock's nominal increment. -/

namespace Sys2Proof.Machine

/-- The nanoseconds of two steps that lie within one second each carry as their sum does. -/
theorem Clock.addNs_value (c : Clock) (n : Nat) :
    ((c.addNs n).secs * nsPerSec + (c.addNs n).ns) % (2 ^ 48 * nsPerSec) = (c.secs * nsPerSec + c.ns + n) % (2 ^ 48 * nsPerSec) := by
  simp only [Clock.addNs, nsPerSec]
  omega

theorem Clock.tick_value (c : Clock) (incr : Nat) :
    ((c.tick incr).secs * nsPerSec + (c.tick incr).ns) % (2 ^ 48 * nsPerSec) =
      (c.secs * nsPerSec + c.ns + (c.frac + incr) / 2 ^ 28) % (2 ^ 48 * nsPerSec) :=
  c.addNs_value _

theorem Clock.tick_frac (c : Clock) (incr : Nat) : (c.tick incr).frac = (c.frac + incr) % 2 ^ 28 := rfl

/-- Settles O36: the fractions of two ticks add to one whole, and the seconds carry. -/
theorem clockTicks : Obligations.ClockTicks := by
  intro c hc
  refine ⟨?_, ?_⟩
  · rw [Clock.tick_frac, Clock.tick_frac]
    omega
  · have hsecond := (c.tick 0x28000000).tick_value 0x28000000
    have hfirst := c.tick_value 0x28000000
    rw [Clock.tick_frac] at hsecond
    have hsum : (c.frac + 0x28000000) / 2 ^ 28 + ((c.frac + 0x28000000) % 2 ^ 28 + 0x28000000) / 2 ^ 28 = 5 := by omega
    rw [hsecond, ← hsum, ← Nat.add_assoc]
    exact Nat.ModEq.add_right _ hfirst

end Sys2Proof.Machine
end

section
/-! O39: the IEEE 1588 slave. -/

namespace Sys2Proof.Machine

variable (s : State)

/-- A message that the slave takes. -/
theorem State.ptpMessage_accepted {h : PtpHdr} {lo hi : Int} (f : State → State) (hmode : s.ptpMode = 1)
    (ha : s.ptpAccepts h lo hi = true) : s.ptpMessage h lo hi f = f s := by
  rw [State.ptpMessage, if_neg (by omega), if_pos ha]

theorem State.ptpMessage_ignored {h : PtpHdr} {lo hi : Int} (f : State → State) (hmode : s.ptpMode = 1)
    (ha : s.ptpAccepts h lo hi = false) : s.ptpMessage h lo hi f = s.ptpIgnore := by
  rw [State.ptpMessage, if_neg (by omega), if_neg (by simp [ha])]

@[simp] theorem State.fwReg_setFw (p : Nat) (w : Word) : (s.setFw p w).fwReg p = w := tget_tset_self _ _ _ _

@[simp] theorem State.setFw_ptp (p : Nat) (w : Word) : (s.setFw p w).ptp = s.ptp := rfl

@[simp] theorem State.setFw_regs (p : Nat) (w : Word) : (s.setFw p w).regs = s.regs := rfl

/-- Settles O39: each message and time-out is one branch of R308 to R317. -/
theorem ptpSlave : Obligations.PtpSlave := by
  refine fun h s hr hmode => ⟨fun ha h2 hm => ?_, fun hno => ?_, fun t1 t2 d ha hm hsync hfb hd => ?_, fun ds ha hm href => ?_,
    fun t3 t4 d ha hm hreq hd hfb => ?_, fun seq hm => ?_, fun hun hfb => ?_, ?_⟩
  · exact (whenMgmt_run s hr).trans (by rw [s.ptpMessage_accepted _ hmode ha]; simp [h2, hm, State.onPtp])
  · refine (whenMgmt_run s hr).trans (congrArg Host.Outcome.next ?_)
    by_cases ha : s.ptpAccepts h (-3) 1 = true
    · rw [s.ptpMessage_accepted _ hmode ha]
      simp [hno.resolve_left (by simp [ha])]
    · exact s.ptpMessage_ignored _ hmode (by simpa using ha)
  · exact (whenMgmt_run s hr).trans (by rw [s.ptpMessage_accepted _ hmode ha]; simp [hm, hsync, hfb, hd, hmode, State.onPtp])
  · refine ⟨_, (whenMgmt_run s hr).trans (congrArg Host.Outcome.next (s.ptpMessage_accepted _ hmode ha)), ?_⟩
    have hmode' (p : PtpUnit) : State.ptpMode { s with ptp := p } = 1 := hmode
    simp [hm, State.onPtp, State.ptpFollow, State.setPtpState, hmode', href]
  · exact (whenMgmt_run s hr).trans (by rw [s.ptpMessage_accepted _ hmode ha]; simp [hm, hreq, hfb, hd, State.onPtp])
  · exact (whenMgmt_run s hr).trans (by simp [hm, hmode, State.onPtp])
  · exact (whenMgmt_run s hr).trans (by simp [hun, hfb, hmode, State.onPtp])
  · exact (whenMgmt_run s hr).trans (by simp [hmode, State.onPtp])

end Sys2Proof.Machine
end

section
/-! O43: pigeonholes are claimed, posted, freed and answered. -/

namespace Sys2Proof.Machine

variable (s : State)

/-! ### The memory of the pigeonholes -/

theorem State.setHoles_eq (o : Nat) (l : List Byte) : s.setHoles o l = { s with holes := (s.setHoles o l).holes } := by
  induction l generalizing s o with
  | nil => rfl
  | cons b l ih => exact ih (s.setHole o b) (o + 1)

theorem State.hole_of_holes {s t : State} (h : t.holes = s.holes) (o : Nat) : t.hole o = s.hole o := by
  simp only [State.hole, h]

theorem State.holeBytes_of_holes {s t : State} (h : t.holes = s.holes) (o n : Nat) : t.holeBytes o n = s.holeBytes o n := by
  induction n generalizing o with
  | zero => rfl
  | succ n ih => rw [State.holeBytes, State.holeBytes, State.hole_of_holes h, ih]

/-- A write changes no byte outside what it covers. -/
theorem State.hole_setHoles_outside {o a : Nat} (l : List Byte) (h : o < a ∨ a + l.length ≤ o) : (s.setHoles a l).hole o = s.hole o := by
  induction l generalizing s a with
  | nil => rfl
  | cons b l ih =>
    rw [List.length_cons] at h
    have hrest : o < a + 1 ∨ a + 1 + l.length ≤ o := by omega
    exact (ih (s.setHole a b) hrest).trans (tget_tset_ne _ _ _ (by omega))

/-- What a write covers holds its bytes. -/
theorem State.holeBytes_setHoles (a : Nat) (l : List Byte) : (s.setHoles a l).holeBytes a l.length = l := by
  induction l generalizing s a with
  | nil => rfl
  | cons b l ih =>
    rw [State.setHoles, List.length_cons, State.holeBytes, ih, State.hole_setHoles_outside _ _ (.inl (by omega))]
    exact congrArg (· :: l) (tget_tset_self _ _ _ _)

theorem length_message (op seq flags auth status : Nat) (payload : List Byte) :
    (message op seq flags auth status payload).length = 16 + payload.length := by
  simp [message, leBytesN, leBytes]
  omega

/-! ### A bit of a register -/

theorem State.fldBit_setFldBit_self {f : Fld} {i : Nat} (b : Bool) (h : f.lo + i < 32) : (s.setFldBit f i b).fldBit f i = b := by
  rw [State.fldBit, State.setFldBit, State.reg_setReg_self]
  exact bit_putBit_self _ b h

theorem State.fldBit_setFldBit_ne {f : Fld} {i j : Nat} (b : Bool) (hi : f.lo + i < 32) (h : j ≠ i) :
    (s.setFldBit f i b).fldBit f j = s.fldBit f j := by
  rw [State.fldBit, State.setFldBit, State.reg_setReg_self]
  exact bit_putBit_ne _ b hi (by omega)

theorem State.setFldBit_onMbx_holes (t : State) (i : Nat) (f : MbxUnit → MbxUnit) {a : Fld} {k : Nat} {b : Bool} (g : Slot → Slot) :
    (((t.onSlot i g).onMbx f).setFldBit a k b).holes = t.holes := rfl

/-! ### A response over SPI -/

section
variable {i : Nat} (h : (s.slotOf i).peer = .spi)
include h

theorem State.answer_spi (payload : List Byte) : s.answer i payload =
    (((s.setHoles (1024 * i) (message (s.hdrOp i) (s.hdrSeq i) 1 (s.hdrAuth i) 0 payload)).onSlot i (fun x =>
      { x with st := 3, running := false, units := [] })).onMbx (fun m => { m with started := m.started.filter (fun j => j != i) })).setFldBit
        MBX_DONE_DONE i true := by
  unfold State.answer State.respond State.reply
  simp only [h]

theorem State.holes_answer_spi (payload : List Byte) :
    (s.answer i payload).holes = (s.setHoles (1024 * i) (message (s.hdrOp i) (s.hdrSeq i) 1 (s.hdrAuth i) 0 payload)).holes := by
  rw [s.answer_spi h]
  exact State.setFldBit_onMbx_holes _ _ _ _

theorem State.slotOf_answer_spi_self (payload : List Byte) :
    (s.answer i payload).slotOf i = { s.slotOf i with st := 3, running := false, units := [] } := by
  rw [s.answer_spi h, State.setHoles_eq]
  exact State.slotOf_onSlot _ i (fun x => { x with st := 3, running := false, units := [] })

theorem State.slotOf_answer_spi_ne (payload : List Byte) {j : Nat} (hj : j ≠ i) : (s.answer i payload).slotOf j = s.slotOf j := by
  rw [s.answer_spi h, State.setHoles_eq]
  exact State.slotOf_onSlot_ne _ (fun x => { x with st := 3, running := false, units := [] }) hj

end

/-! ### Slots freed -/

/-- The slots that a write of MBX_FREE names and that are DONE are freed. -/
def State.freeNamed (s : State) (w : Word) (i : Nat) : State :=
  if bit w i && (s.slotOf i).st == 3 && (s.slotOf i).peer == .spi then (s.freeSlot i).setFldBit MBX_DONE_DONE i false else s

theorem State.freeHoles_eq (w : Word) : s.freeHoles w = s.forAll 32 (fun i t => t.freeNamed w i) := rfl

theorem State.slotOf_freeSlot_ne {i j : Nat} (h : j ≠ i) : (s.freeSlot i).slotOf j = s.slotOf j :=
  s.slotOf_onSlot_ne (fun _ => {}) h

/-- What is seen of a slot: itself and its MBX_DONE bit. -/
def State.slotView (s : State) (i : Nat) : Slot × Bool := (s.slotOf i, s.fldBit MBX_DONE_DONE i)

theorem lt_of_bit {w : Word} {i : Nat} (h : bit w i = true) : i < 32 := by
  by_contra hi
  have hlt : w.toNat < 2 ^ i := Nat.lt_of_lt_of_le w.isLt (Nat.pow_le_pow_right (by omega) (by omega))
  rw [bit, Nat.testBit_lt_two_pow hlt] at h
  cases h

theorem State.freeNamed_of_bit {w : Word} {i : Nat} (h : bit w i = false ∨ (s.slotOf i).st ≠ 3) : s.freeNamed w i = s := by
  refine if_neg ?_
  rcases h with h | h <;> simp [h]

theorem State.slotView_freeNamed_ne (w : Word) {i k : Nat} (h : i ≠ k) : (s.freeNamed w i).slotView k = s.slotView k := by
  unfold State.freeNamed
  split
  next hc =>
    have hi : i < 32 := lt_of_bit (w := w) (by simp only [Bool.and_eq_true] at hc; exact hc.1.1)
    refine Prod.ext (State.slotOf_freeSlot_ne s h.symm) ?_
    refine (State.fldBit_setFldBit_ne _ (f := MBX_DONE_DONE) false ?_ h.symm).trans rfl
    simp only [MBX_DONE_DONE]
    omega
  next => rfl

/-- A DONE slot that the write names is FREE, and its MBX_DONE bit falls. -/
theorem State.slotView_freeNamed_done {w : Word} {i : Nat} (hb : bit w i = true) (hst : (s.slotOf i).st = 3) (hp : (s.slotOf i).peer = .spi) :
    ((s.freeNamed w i).slotView i).1.st = 0 ∧ ((s.freeNamed w i).slotView i).2 = false := by
  have hi := lt_of_bit hb
  have heq : s.freeNamed w i = (s.freeSlot i).setFldBit MBX_DONE_DONE i false := if_pos (by simp [hb, hst, hp])
  rw [heq]
  refine ⟨congrArg Slot.st (s.slotOf_onSlot i (fun _ => {})), State.fldBit_setFldBit_self _ (f := MBX_DONE_DONE) false ?_⟩
  simp only [MBX_DONE_DONE]
  omega

/-- What a write of MBX_FREE leaves of a slot is what its own step leaves. -/
theorem State.slotView_freeHoles (w : Word) {k : Nat} (hk : k < 32) :
    ∃ t : State, t.slotView k = s.slotView k ∧ (s.freeHoles w).slotView k = (t.freeNamed w k).slotView k := by
  obtain ⟨t, -, hbefore, hafter⟩ := State.forAll_at (fun _ _ => True) (fun _ => trivial) (fun _ _ _ _ _ => trivial)
    (f := fun i t => t.freeNamed w i) (fun _ _ => trivial) (fun t => t.slotView k) (fun i t hi => t.slotView_freeNamed_ne w hi) hk s
  exact ⟨t, hbefore, hafter⟩

/-- Settles O43: a claim, a post, a free and a response each act on one slot. -/
theorem pigeonholes : Obligations.Pigeonholes := by
  refine ⟨fun s hr => ⟨fun i hi => ?_, fun hi => ?_, fun i hst hp => ⟨?_, ?_⟩, fun i hst => ⟨?_, ?_⟩,
      fun w => ⟨_, whenDev_run s hr, fun i hi hb hst hp => ?_, fun i hi hno => ?_⟩⟩,
    fun i payload s hi hlen hp => ⟨?_, ?_, ?_, fun o ho => ?_, fun j hj hne => s.slotOf_answer_spi_ne hp payload hne⟩⟩
  · exact (whenDev_run s hr).trans (by simp [State.claim, hi])
  · exact (whenDev_run s hr).trans (by simp [State.claim, hi, State.noSlot])
  · exact (whenDev_run s hr).trans (by simp [State.doorbell, State.claimed, hst, hp, State.post])
  · exact (whenDev_run s hr).trans (by simp [State.claimed, hst, hp])
  · exact (whenDev_run s hr).trans (by simp [State.doorbell, State.claimed, hst])
  · exact (whenDev_run s hr).trans (by simp [State.claimed, hst])
  · obtain ⟨t, hview, hfree⟩ := s.slotView_freeHoles w hi
    have hslot : t.slotOf i = s.slotOf i := congrArg Prod.fst hview
    obtain ⟨h0, hbit⟩ := t.slotView_freeNamed_done hb (by rw [hslot, hst]) (by rw [hslot, hp])
    rw [← hfree] at h0 hbit
    exact ⟨h0, hbit⟩
  · obtain ⟨t, hview, hfree⟩ := s.slotView_freeHoles w hi
    have hslot : t.slotOf i = s.slotOf i := congrArg Prod.fst hview
    rw [t.freeNamed_of_bit (by rwa [hslot]), hview] at hfree
    exact ⟨congrArg Prod.fst hfree, congrArg Prod.snd hfree⟩
  · rw [s.slotOf_answer_spi_self hp]
  · rw [s.answer_spi hp]
    refine State.fldBit_setFldBit_self _ (f := MBX_DONE_DONE) true ?_
    simp only [MBX_DONE_DONE]
    omega
  · rw [State.holeBytes_of_holes (s.holes_answer_spi hp payload), ← length_message (s.hdrOp i) (s.hdrSeq i) 1 (s.hdrAuth i) 0 payload]
    exact State.holeBytes_setHoles _ _ _
  · rw [State.hole_of_holes (s.holes_answer_spi hp payload)]
    refine State.hole_setHoles_outside _ _ ?_
    rw [length_message]
    omega

end Sys2Proof.Machine
end

section
/-! O44: commands of Eznel start, wait and time out; jobs and sessions end. -/

namespace Sys2Proof.Machine

variable (s : State)

/-- A command that runs has its own effect. -/
theorem ezCommand_run {s : State} {i op : Nat} {t : State} (h : CommandRuns s i op) : ezCommand s i op t = .next t := by
  obtain ⟨hr, he, hj⟩ := h
  simp [ezCommand, hr, he, hj]

/-- A command that finds one of its units held by a job is answered BUSY. -/
theorem ezCommand_held {i op : Nat} {t : State} (hr : s.fwRuns = true) (he : s.executes i op = true)
    (hj : s.jobHolds (s.slotOf i).units = true) : ezCommand s i op t = .next (s.refuseOpen i 1) := by
  simp [ezCommand, hr, he, hj]

/-- A slot that does not execute the opcode is left as it is. -/
theorem ezCommand_idle {i op : Nat} {t : State} (hr : s.fwRuns = true) (he : s.executes i op = false) : ezCommand s i op t = .next s := by
  simp [ezCommand, hr, he]

theorem ofNat_le {n m : Nat} (h : n ≤ m) (hm : m < 256) : (BitVec.ofNat 8 n).toNat ≤ m := by
  rw [BitVec.toNat_ofNat]
  omega

/-- What the end of a job leaves of it. -/
theorem State.endJob_leaves {j : Nat} (hj : j < 4) (st status : Nat) :
    (s.endJob j st status).jobOf j = { s.jobOf j with st := st, status := status, ended := true } ∧
      (s.endJob j st status).fldBit MBX_JOB_DONE_JOB_DONE j = true :=
  ⟨s.jobOf_onJob j (fun x => { x with st := st, status := status, ended := true }),
    State.fldBit_setFldBit_self _ (f := MBX_JOB_DONE_JOB_DONE) true (by simp only [MBX_JOB_DONE_JOB_DONE]; omega)⟩

/-- Settles O44: each step of a command, a job and a session is one branch. -/
theorem commandsAndJobs : Obligations.CommandsAndJobs := by
  refine ⟨fun s hr => ⟨fun i rest units ho hn hc => ?_, fun i rest units st d a ho hn hc => ?_, fun units hn => ?_, fun i hst hrun => ?_,
      fun j hh hst he hc => ?_, fun j hh hst => ?_, fun i j h hj => ⟨fun hst => ?_, fun hst => ?_⟩, fun i j h hj => ⟨fun hf => ?_, fun hf hst => ?_⟩,
      fun p => ?_, fun e => ?_⟩,
    fun i s hr => ⟨fun he hj => ?_, fun he => ?_, fun he hj => ?_, fun he => ?_⟩⟩
  · exact (whenFw_run s hr).trans (by simp [ho, hc, Nat.not_le.mpr hn])
  · exact (whenFw_run s hr).trans (by simp [ho, hc, Nat.not_le.mpr hn])
  · refine (whenFw_run s hr).trans (congrArg Host.Outcome.next ?_)
    split
    · rfl
    · exact if_pos hn
  · exact (whenFw_run s hr).trans (congrArg Host.Outcome.next (if_pos (by simp [hst, hrun])))
  · have hruns : s.jobRuns j = true := by simp [State.jobRuns, hh, hst]
    obtain ⟨hjob, hdone⟩ := s.draw.endJob_leaves j.isLt 3 (s.openNat % 256)
    refine ⟨s.draw.endJob j 3 (s.openNat % 256), (whenFw_run s hr).trans (by simp [hruns, he, hc]), ?_, hdone, rfl⟩
    rw [hjob]
  · exact (whenFw_run s hr).trans (congrArg Host.Outcome.next (if_pos (by simp [hh, hst])))
  · refine (ezCommand_run h).trans ?_
    simp [hj, hst, State.progress]
  · refine ⟨BitVec.ofNat 8 (s.progress j), (ezCommand_run h).trans ?_, ofNat_le (m := 100) ?_ (by decide)⟩
    · simp [hj, hst]
    · rw [State.progress, if_pos hst]
      omega
  · exact (ezCommand_run h).trans (by simp [hj, hf])
  · exact (ezCommand_run h).trans (by simp [hj, hf, hst])
  · exact whenFw_run s hr
  · exact (whenFw_run s hr).trans (congrArg Host.Outcome.next (if_pos rfl))
  · exact ezCommand_held s hr he hj
  · exact ezCommand_idle s hr he
  · exact ezCommand_held s hr he hj
  · exact ezCommand_idle s hr he

end Sys2Proof.Machine
end

section
/-! O45: requests over the networks. -/

namespace Sys2Proof.Machine

variable (s : State)

/-- A CAN FD frame that starts a message, from node p to controller c. -/
theorem State.canFirst {c : Fin 4} {p : Fin 64} {ident : BitVec 29} {b : Byte} {body : List Byte} (hr : s.fwRuns = true)
    (hm : s.monitor = false) (he : s.fwReg (0x1023 + 4 * c) ≠ 0) (hn : s.fwReg (0x1022 + 4 * c) ≠ 0)
    (hid : ident.toNat = (s.fwReg (0x1020 + 4 * c)).toNat + 2 * p) (hnext : (s.canRxOf (canKey c p)).next = 0)
    (hfirst : b.getLsbD 7 = true) (hno : b.toNat % 64 = 0) :
    exec (.canFdSegment c ident true (b :: body)) s = .next (s.canSegment c p body (b.getLsbD 6) 1) := by
  have hd : ident.toNat - (s.fwReg (0x1020 + 4 * c)).toNat = 2 * p := by omega
  have hlow : ¬ident.toNat < (s.fwReg (0x1020 + 4 * c)).toNat := by omega
  have hhigh : ¬128 ≤ 2 * p.val := by omega
  have hen : ¬s.fwReg (0x1023 + 4 * c) = 0#32 := he
  have hnode : ¬s.fwReg (0x1022 + 4 * c) = 0#32 := hn
  have hp : 2 * p.val / 2 = p := by omega
  refine (whenFw_run s hr).trans ?_
  simp [hd, hlow, hhigh, hp, hen, hnode, hm, hnext, hfirst, hno]

/-- Settles O45: each transport by its branches of R385 to R389. -/
theorem transports : Obligations.Transports := by
  intro s hr hm
  have hmod (h : s.fwReg 0x1011 ≠ 0) : ¬s.fwReg 0x1011 = 0#32 := h
  refine ⟨fun e v6 addr port dport msg htake hport => ⟨fun hok => ?_, fun k hok hkept => ?_, fun i hok hkept hfree => ?_⟩,
    fun c p ident body he hn hid hnext hlen => ⟨?_, ?_, ?_⟩, fun c p hnext => ?_, fun bs i h16 hlen hfree => ?_, fun n hst => ?_,
    fun n hst hlen => ?_, fun e addr data htake => ?_,
    fun hon => ⟨fun htcp => ?_, fun htcp => ?_, ?_, fun p fc r n htcp h3 h4 => ?_, fun p n htcp h1 h125 hall => ?_⟩⟩
  · exact (whenFw_run s hr).trans (by simp [htake, hport, hok, State.netDrop])
  · exact (whenFw_run s hr).trans (by simp [htake, hport, hok, State.receive, hkept])
  · exact (whenFw_run s hr).trans (by simp [htake, hport, hok, State.receive, hkept, State.arrive, hfree])
  · refine (s.canFirst (b := 0xC0) hr hm he hn hid hnext (by decide) (by decide)).trans (congrArg Host.Outcome.next ?_)
    rw [State.canSegment, if_neg (by omega)]
    rfl
  · refine (s.canFirst (b := 0x80) hr hm he hn hid hnext (by decide) (by decide)).trans (congrArg Host.Outcome.next ?_)
    rw [State.canSegment, if_neg (by omega)]
    rfl
  · exact (whenFw_run s hr).trans (by simp)
  · exact (whenFw_run s hr).trans (congrArg Host.Outcome.next (if_neg hnext))
  · exact (whenFw_run s hr).trans (by simp [hm, hfree, Nat.not_lt.mpr h16, Nat.not_lt.mpr hlen])
  · exact (whenFw_run s hr).trans (by simp [hm, hst, State.i2cBytes])
  · exact (whenFw_run s hr).trans (by simp [hm, hst, State.i2cBytes, Nat.not_lt.mpr hlen])
  · exact (whenFw_run s hr).trans (by simp [htake])
  · exact (whenFw_run s hr).trans (by simp [hmod hon, hm, htcp])
  · exact (whenFw_run s hr).trans (by simp [hmod hon, hm, Nat.not_lt.mpr htcp])
  · exact whenFw_run s hr
  · refine (whenFw_run s hr).trans (congrArg Host.Outcome.next ?_)
    rw [if_neg (by simp [hmod hon, hm, htcp]), if_pos ⟨h3, h4⟩]
  · have hn : ¬(n < 1 ∨ 125 < n) := by omega
    refine (whenFw_run s hr).trans (congrArg Host.Outcome.next ?_)
    rw [if_neg (by simp [hmod hon, hm, htcp]), if_neg (by simp), if_neg hn, if_neg (by simp [hall])]

end Sys2Proof.Machine
end

section
/-! O46: Eznel commands on identity, staging, time, registers, memory, parameters and ring ports. -/

namespace Sys2Proof.Machine

variable (s : State)

/-! ### What a response leaves -/

/-- A response changes no byte of memory. -/
theorem State.mem_reply (i : Nat) (msg : List Byte) : (s.reply i msg).mem = s.mem := by
  have hset (t : State) (o : Nat) (l : List Byte) : (t.setHoles o l).mem = t.mem := by rw [State.setHoles_eq]
  unfold State.reply
  dsimp only
  split
  · simp [State.setFldBit, hset]
  · split
    · simp [hset]
    · simp [State.freeSlot, hset]
  · simp [State.freeSlot, State.keep, State.send, hset]

theorem State.mem_answer (i : Nat) (payload : List Byte) : (s.answer i payload).mem = s.mem := s.mem_reply i _

/-! ### Words in memory -/

theorem stageRange_of_le {ofs len : Nat} (h : ofs + len ≤ 25165824) : stageRange ofs len = true := decide_eq_true h

theorem stageRange_of_lt {ofs len : Nat} (h : 25165824 < ofs + len) : stageRange ofs len = false :=
  decide_eq_false (Nat.not_le.mpr h)

theorem State.memWords_in {addr n : Nat} (h : ∀ k, k < n → inMemory (addr + 4 * k) = true) :
    s.memWords addr n = (List.range n).map (fun k => s.word (addr + 4 * k)) :=
  List.map_congr_left fun k hk => if_pos (h k (List.mem_range.mp hk))

/-- A register that no write from outside reaches, and no level is missing. -/
theorem State.regWriteCheck_closed {addr auth : Nat} (w : Word) (hout : addr < 0x800000) (hauth : 2 ≤ auth)
    (hw : s.window (addr / 0x10000) = some true) (hc : regClosed addr = true) :
    s.regWriteCheck auth addr 0 [w] = some (4, 9, addr) := by
  have hclosed : s.writeClosed addr = true := by
    have hmay : s.mayWrite .eznel addr = false := by simp [State.mayWrite, hc]
    rw [State.writeClosed, if_neg (by omega), hw, hmay]
    decide
  rw [State.regWriteCheck, if_neg (by omega), Nat.mul_zero, Nat.add_zero, if_pos hclosed]

/-- The body of an answer to PARAM_INFO. -/
def State.infoBody (s : State) (p : Nat) (d : ParamInfo) : List Byte :=
  leBytesN 4 d.u32.toNat ++ leBytes (s.infoWord d.u32 0 d.lo) ++ leBytes (s.infoWord d.u32 1 d.hi) ++
    leBytes (s.infoWord d.u32 2 d.res) ++ leBytes (s.infoWord d.u32 3 d.dflt) ++ leBytesN 4 (classCode d.cls) ++ leBytesN 4 (paramLevel p)

theorem State.infoBody_parts (p : Nat) (d : ParamInfo) :
    (s.infoBody p d).length = 28 ∧ (s.infoBody p d).take 4 = leBytesN 4 d.u32.toNat ∧
      (s.infoBody p d).drop 20 = leBytesN 4 (classCode d.cls) ++ leBytesN 4 (paramLevel p) ∧
      ((s.infoBody p d).drop 4).take 4 = leBytes (s.infoWord d.u32 0 d.lo) :=
  ⟨rfl, rfl, rfl, rfl⟩

/-- Settles O46: each command is one branch; a register and a parameter that are not open are refused by name. -/
theorem eznelAccess : Obligations.EznelAccess := by
  refine ⟨fun i s => ⟨fun h => ezCommand_run h, fun h hm => ?_, fun ofs data h hlen hin => ?_, fun ofs data h hout => ?_,
      fun ofs len h hlen hin => ?_, fun secs ns h hns => ?_, fun d h hnone hok => ?_, fun d h hnone hok => ?_, fun h => ezCommand_run h⟩,
    fun i s => ⟨fun addr n h hw => ?_, fun addr ws late h hw hc => ?_, fun addr w late h hw hout hauth hwin hc => ?_, fun addr n h hw hin => ?_,
      fun es h hes hok => ?_, fun es t late h hes hok => ?_, fun e es late h hes ha => ?_, fun p h hp => ?_, fun p d h hp => ?_,
      fun q op node count arg cells data h hg hb hc hd => ?_, fun q op node count arg h hg hb => ?_, fun q l first n h hg h1 hn hlast => ?_,
      fun q first last h hg hen => ?_⟩⟩
  · exact (ezCommand_run h).trans (by simp [hm])
  · refine ⟨(s.setBytes (stageBase + ofs) data).answer i [], (ezCommand_run h).trans ?_, ?_, fun a ha => ?_⟩
    · exact congrArg Host.Outcome.next (if_neg (by simp [stageRange_of_le hin, hlen]))
    · exact (State.bytes_of_byte _ _ fun k _ => State.byte_of_mem (State.mem_answer _ i []) _).trans (s.bytes_setBytes data _)
    · exact (State.byte_of_mem (State.mem_answer _ i []) _).trans (s.byte_setBytes_ne data _ a ha)
  · exact (ezCommand_run h).trans (congrArg Host.Outcome.next (if_pos (.inr (by simp [stageRange_of_lt hout]))))
  · exact (ezCommand_run h).trans (congrArg Host.Outcome.next (if_neg (by simp [stageRange_of_le hin, hlen])))
  · exact (ezCommand_run h).trans (congrArg Host.Outcome.next (if_neg (by simp only [nsPerSec]; omega)))
  · exact (ezCommand_run h).trans (by simp [hnone, hok])
  · exact (ezCommand_run h).trans (by simp [hnone, hok])
  · exact (ezCommand_run h).trans (by simp [hw])
  · exact (ezCommand_run h).trans (by simp [hw, hc])
  · refine (ezCommand_run h).trans ?_
    simp [hw, s.regWriteCheck_closed w hout hauth hwin hc]
  · refine (ezCommand_run h).trans (congrArg Host.Outcome.next ?_)
    have hin' : (List.range n).any (fun k => !inMemory (addr + 4 * k)) = false :=
      List.any_eq_false.mpr fun k hk => by simp [hin k (List.mem_range.mp hk)]
    simp only [hw, hin', s.memWords_in hin]
    rfl
  · exact (ezCommand_run h).trans (by simp [hes, hok])
  · exact (ezCommand_run h).trans (by simp [hes, hok])
  · refine (ezCommand_run h).trans ?_
    simp [hes, State.paramAll, State.entryFault, ha, State.refuseParam]
  · exact (ezCommand_run h).trans (by simp [hp])
  · obtain ⟨hlen, htype, hclass, hlo⟩ := s.infoBody_parts p d
    refine ⟨s.infoBody p d, (ezCommand_run h).trans (by simp only [hp]; rfl), hlen, htype, hclass, fun lo hl hu => ?_⟩
    rw [hlo, hl, hu]
    rfl
  · exact (ezCommand_run h).trans (by simp [hg, hb, Nat.not_lt.mpr hc, Nat.not_lt.mpr hd])
  · exact (ezCommand_run h).trans (by simp [hg, hb])
  · refine (ezCommand_run h).trans (congrArg Host.Outcome.next ?_)
    rw [if_neg (by simp [hg]), if_neg (by omega)]
  · exact (ezCommand_run h).trans (by simp [hg, hen])

end Sys2Proof.Machine
end

section
/-! O47: Eznel commands on engines, images and tables. -/

namespace Sys2Proof.Machine

variable (s : State)

/-- Work on units that is the same below n is the same over all n. -/
theorem State.forAll_congr {f g : Nat → State → State} {n : Nat} (h : ∀ i t, i < n → f i t = g i t) : s.forAll n f = s.forAll n g := by
  induction n with
  | zero => rfl
  | succ n ih =>
    show f n (s.forAll n f) = g n (s.forAll n g)
    rw [ih (fun i t hi => h i t (by omega)), h n _ (by omega)]

/-- The work on all units, observed at unit k, where the work on the other units below n does not show. -/
theorem State.forAll_at_below {α : Type} {f : Nat → State → State} (obs : State → α) {k n : Nat}
    (hother : ∀ i t, i < n → i ≠ k → obs (f i t) = obs t) (hk : k < n) : ∃ t : State, obs t = obs s ∧ obs (s.forAll n f) = obs (f k t) := by
  obtain ⟨t, -, hbefore, hafter⟩ := State.forAll_at (fun _ _ => True) (fun _ => trivial) (fun _ _ _ _ _ => trivial)
    (f := fun i t => if i < n then f i t else t) (fun _ _ => trivial) obs
    (fun i t hi => by
      split
      next hn => exact hother i t hn hi
      next => rfl) hk s
  rw [if_pos hk] at hafter
  rw [← s.forAll_congr (f := fun i t => if i < n then f i t else t) (fun i t hi => if_pos hi)]
  exact ⟨t, hbefore, hafter⟩

/-! ### What a response leaves -/

/-- Nothing has changed but registers, the memory of the pigeonholes, and what the slots and peers hold. -/
def ReplyFrame (s t : State) : Prop := t = { s with regs := t.regs, holes := t.holes, mbx := { t.mbx with jobs := s.mbx.jobs } }

theorem replyFrame_reply (i : Nat) (msg : List Byte) : ReplyFrame s (s.reply i msg) := by
  have hset (t : State) (o : Nat) (l : List Byte) : t.setHoles o l = { t with holes := (t.setHoles o l).holes } := t.setHoles_eq o l
  unfold ReplyFrame State.reply
  dsimp only
  rw [hset]
  split
  · rfl
  · split <;> rfl
  · rfl

theorem State.jobOf_reply (i : Nat) (msg : List Byte) (j : Nat) : (s.reply i msg).jobOf j = s.jobOf j := by
  rw [replyFrame_reply s i msg]
  rfl

theorem State.red_reply (i : Nat) (msg : List Byte) : (s.reply i msg).red = s.red := by
  rw [replyFrame_reply s i msg]

/-- A job that starts is held and runs. -/
theorem State.startJob_leaves {j : Nat} (h : s.freeJob = some j) (i : Nat) (k : JobKind) (units : List EzUnit) :
    (s.startJob i k units).jobOf j = { held := true, gen := ((s.jobOf j).gen + 1) % 2 ^ 14, kind := k, units := units } ∧
      (s.startJob i k units).red = s.red := by
  unfold State.startJob
  rw [h]
  dsimp only [State.respond]
  rw [State.jobOf_reply, State.red_reply, State.jobOf_onJob]
  exact ⟨rfl, rfl⟩

/-! ### The end of a reload -/

theorem State.startReload_leaves : s.startReload.mbx = s.mbx ∧ s.startReload.red =
    if s.red.active = 0 then { s.red with stB := 5, deadB := false, missB := false, returning := true }
    else { s.red with stA := 5, deadA := false, missA := false, returning := true } := by
  obtain ⟨hred, hmbx⟩ : (s.forAll 4 (fun n t => t.onStn n (fun u => { u with sby := {} }))).red = s.red ∧
      (s.forAll 4 (fun n t => t.onStn n (fun u => { u with sby := {} }))).mbx = s.mbx :=
    forAll_rel (fun a b => b.red = a.red ∧ b.mbx = a.mbx) (fun _ => ⟨rfl, rfl⟩) (fun _ _ _ h h' => ⟨h'.1.trans h.1, h'.2.trans h.2⟩)
      (fun n t => t.onStn n (fun u => { u with sby := {} })) (fun _ _ => ⟨rfl, rfl⟩) 4 s
  unfold State.startReload
  generalize s.forAll 4 (fun n t => t.onStn n (fun u => { u with sby := {} })) = u at hred hmbx ⊢
  rw [← hred]
  by_cases ha : u.red.active = 0
  · simp [ha, hmbx]
  · simp [ha, hmbx]

theorem State.freeJob_of_mbx {s t : State} (h : t.mbx = s.mbx) : t.freeJob = s.freeJob := by
  simp only [State.freeJob, State.jobOf, h]

theorem State.startReload_standby : s.startReload.standbyState = 5 := by
  unfold State.standbyState
  rw [s.startReload_leaves.2]
  by_cases h : s.red.active = 0 <;> simp [h]

/-- Every station's committed state goes to the standby, which agrees with it from now on. -/
def State.syncStations (s : State) : State := s.forAll 4 (fun n t => (t.copyState n).setAgree n 0)

theorem State.syncStations_rest : s.syncStations.red = s.red ∧ s.syncStations.dmemB = s.dmemB ∧ s.syncStations.mbx = s.mbx :=
  forAll_rel (fun a b => b.red = a.red ∧ b.dmemB = a.dmemB ∧ b.mbx = a.mbx) (fun _ => ⟨rfl, rfl, rfl⟩)
    (fun _ _ _ h h' => ⟨h'.1.trans h.1, h'.2.1.trans h.2.1, h'.2.2.trans h.2.2⟩)
    (fun n t => (t.copyState n).setAgree n 0) (fun _ _ => by simp [State.setAgree, State.copyState]) 4 s

/-- The end of a reload of engine B: it synchronises with the data of engine A. -/
theorem State.endReload_leaves (ha : s.red.active = 0) (hb : s.red.stB = 5) :
    s.endReload.red = { s.red with stB := 3 } ∧ s.endReload.dmemB = s.dmemA ∧ s.endReload.mbx = s.mbx := by
  have heq : s.endReload = State.syncStations { s with
      red := { s.red with stB := 3 }, dmemB := s.dmemA,
      banksB := { bank0 := s.banksA.act, bank1 := s.banksA.act, active := s.banksA.active, shdValid := s.banksA.act.isSome } } :=
    if_pos ⟨ha, hb⟩
  rw [heq]
  exact State.syncStations_rest _

/-- A reload job ends with its reload. -/
def State.endReloadJob (s : State) (ok : Bool) (j : Nat) : State :=
  if s.jobRuns j && isReload (s.jobOf j).kind then (if ok then s.endJob j 1 0 else s.draw.endJob j 2 (s.openNat % 256)) else s

theorem State.endReloadJob_rest (ok : Bool) (j : Nat) : (s.endReloadJob ok j).red = s.red ∧ (s.endReloadJob ok j).dmemB = s.dmemB := by
  unfold State.endReloadJob
  split
  · split <;> exact ⟨rfl, rfl⟩
  · exact ⟨rfl, rfl⟩

/-- What is seen of a job: itself and its MBX_JOB_DONE bit. -/
def State.jobView (s : State) (j : Nat) : Job × Bool := (s.jobOf j, s.fldBit MBX_JOB_DONE_JOB_DONE j)

theorem State.jobView_endReloadJob_ne (ok : Bool) {i j : Nat} (hi : i < 4) (h : i ≠ j) :
    (s.endReloadJob ok i).jobView j = s.jobView j := by
  have hend (t : State) (st status : Nat) : (t.endJob i st status).jobView j = t.jobView j := by
    refine Prod.ext (t.jobOf_onJob_ne (fun x => { x with st := st, status := status, ended := true }) h.symm) ?_
    refine (State.fldBit_setFldBit_ne _ (f := MBX_JOB_DONE_JOB_DONE) true ?_ h.symm).trans rfl
    simp only [MBX_JOB_DONE_JOB_DONE]
    omega
  unfold State.endReloadJob
  split
  · split
    · exact hend s 1 0
    · exact hend s.draw 2 _
  · rfl

/-- A reload job that runs is done when the reload has ended. -/
theorem State.endReloadJob_done {j : Nat} (hj : j < 4) (hr : s.jobRuns j = true) (hk : isReload (s.jobOf j).kind = true) :
    ((s.endReloadJob true j).jobView j).1.st = 1 ∧ ((s.endReloadJob true j).jobView j).2 = true := by
  have heq : s.endReloadJob true j = s.endJob j 1 0 := if_pos (by simp [hr, hk])
  obtain ⟨hjob, hdone⟩ := s.endJob_leaves hj 1 0
  rw [heq]
  exact ⟨(congrArg Job.st hjob).trans rfl, hdone⟩

/-- The reload jobs end, each with its reload. -/
def State.endReloadJobs (s : State) (ok : Bool) : State := s.forAll 4 (fun j t => t.endReloadJob ok j)

theorem State.endReloadJobs_rest (ok : Bool) : (s.endReloadJobs ok).red = s.red ∧ (s.endReloadJobs ok).dmemB = s.dmemB :=
  forAll_rel (fun a b => b.red = a.red ∧ b.dmemB = a.dmemB) (fun _ => ⟨rfl, rfl⟩)
    (fun _ _ _ h h' => ⟨h'.1.trans h.1, h'.2.trans h.2⟩) _ (fun j t => t.endReloadJob_rest ok j) 4 s

/-! ### Tables and loop state -/

theorem State.withStaged_good {ofs len : Nat} {hash : List Byte} (i : Nat) (f : List Byte → State) (hin : ofs + len ≤ 25165824)
    (hh : Config.sha384 (s.staged ofs len) = hash) : s.withStaged i ofs len hash f = f (s.staged ofs len) := by
  rw [State.withStaged, stageRange_of_le hin, hh]
  simp

theorem State.jobOf_of_mbx {s t : State} (h : t.mbx = s.mbx) (j : Nat) : t.jobOf j = s.jobOf j := by
  simp only [State.jobOf, h]

theorem State.grantB_of_canExchange (h : s.canExchange = true) : s.grantB = true := by
  simp only [State.canExchange, Bool.and_eq_true] at h
  exact h.1.1.1.1.1

/-- Settles O47: each command and each end of a job is one branch. -/
theorem engineJobs : Obligations.EngineJobs := by
  refine fun i s => ⟨fun h hb => ?_, fun h hb hf hc => ?_, fun j h hb hf hc => ?_, fun hr hb ha hst => ?_, fun h hc => ?_,
    fun ofs len hash body h hf hsw hin hh => ⟨fun hk hok hno => ?_, fun hk => ?_, fun hk hno => ?_⟩, fun j img hr hk hrun hsw => ?_,
    fun g ofs hash h hg hin hh hbusy hgain => ?_, fun n first ofs len hash h hn h4 hfit hgr hin hh hcomp => ?_,
    fun k d x h hlen hn hz hal hlo hhi hw hidle => ?_⟩
  · exact (ezCommand_run h).trans (by simp [hb])
  · exact (ezCommand_run h).trans (by simp [hb, hf, hc])
  · obtain ⟨hjob, hred⟩ := s.startReload.startJob_leaves (j := j) ((State.freeJob_of_mbx s.startReload_leaves.1).trans hf) i (.reload s.standbyEngine) [.engine s.standbyEngine]
    refine ⟨s.startReload.startJob i (.reload s.standbyEngine) [.engine s.standbyEngine], (ezCommand_run h).trans ?_, ?_, ?_, ?_, ?_⟩
    · simp [hb, hf, hc]
    · rw [hjob]
    · rw [hjob]
    · rw [hjob]
    · rw [State.standbyState, hred]
      exact s.startReload_standby
  · have hre : s.reloading = true := by simp [State.reloading, State.standbyState, hb, ha, hst]
    obtain ⟨hred, hmem, hmbx⟩ := s.endReload_leaves ha hst
    obtain ⟨hred', hmem'⟩ := s.endReload.endReloadJobs_rest true
    refine ⟨s.endReload.endReloadJobs true, (whenFw_run s hr).trans ?_, ?_, hmem'.trans hmem, fun j hj hrun hk => ?_⟩
    · rw [hre]
      rfl
    · rw [hred', hred]
    · obtain ⟨u, hview, hend⟩ := s.endReload.forAll_at_below (f := fun j t => t.endReloadJob true j) (fun t => t.jobView j)
        (fun k t hk hne => t.jobView_endReloadJob_ne true hk hne) hj
      have hjob : u.jobOf j = s.jobOf j := (congrArg Prod.fst hview).trans (State.jobOf_of_mbx hmbx j)
      obtain ⟨h1, hdone⟩ := u.endReloadJob_done hj (by rw [State.jobRuns, hjob]; exact hrun) (by rwa [hjob])
      rw [← hend] at h1 hdone
      exact ⟨h1, hdone⟩
  · exact (ezCommand_run h).trans (by simp [hc, s.grantB_of_canExchange hc])
  · exact (ezCommand_run h).trans (by simp [hf, hsw, s.withStaged_good i _ hin hh, hk, hok, hno])
  · exact (ezCommand_run h).trans (by simp [hf, hsw, s.withStaged_good i _ hin hh, hk])
  · have hbad : (!headerOk (imgPayload (s.staged ofs len)) body || imageRefused (imageOfPayload (imgPayload (s.staged ofs len)) body)) = true := by
      rcases hno with h | h <;> simp [h]
    refine (ezCommand_run h).trans (congrArg Host.Outcome.next ?_)
    rw [if_neg (by simp [hf]), if_neg (by simp [hsw]), s.withStaged_good i _ hin hh]
    dsimp only
    rw [if_neg (by simp [hk]), if_pos hbad]
  · refine (whenFw_run s hr).trans ?_
    simp [hk, hrun, hsw]
  · have hnone : (List.range 1024).find? (fun k => !gainOk (BitVec.ofNat 16 (fieldAt (s.staged ofs 2048) (2 * k) 2))) = none :=
      List.find?_eq_none.mpr fun k hk => by simp [hgain k (List.mem_range.mp hk)]
    refine (ezCommand_run h).trans (congrArg Host.Outcome.next ?_)
    rw [if_neg (by omega), s.withStaged_good i _ hin hh, if_neg (by simp [hbusy]), hnone]
  · have hnone : (wordsOf (s.staged ofs len) (len / 4)).findIdx? (fun w => !compOk w) = none :=
      List.findIdx?_eq_none_iff.mpr fun w hw => by simp [hcomp w hw]
    refine (ezCommand_run h).trans (congrArg Host.Outcome.next ?_)
    rw [if_neg (by omega), if_neg (by simp [hgr]), s.withStaged_good i _ hin hh, hnone]
  · refine (ezCommand_run h).trans (congrArg Host.Outcome.next ?_)
    dsimp only
    rw [hn, if_neg (by omega), if_neg (by omega)]
    simp [hw, hidle, wordsOf]

end Sys2Proof.Machine
end

section
/-! O49: a Bureau request is staged, countersigned, given up, or programmed. -/

namespace Sys2Proof.Machine

variable (s : State)

/-! ### What a response leaves -/

theorem State.trust_reply (i : Nat) (msg : List Byte) : (s.reply i msg).trust = s.trust := by
  rw [replyFrame_reply s i msg]

theorem State.otp_reply (i : Nat) (msg : List Byte) : (s.reply i msg).otp = s.otp := by
  rw [replyFrame_reply s i msg]

/-- A response sets its MBX_DONE bit, and writes no other register. -/
theorem State.reg_reply {a : Nat} (ha : a ≠ MBX_DONE) (i : Nat) (msg : List Byte) : (s.reply i msg).reg a = s.reg a := by
  have hset (t : State) (o : Nat) (l : List Byte) : (t.setHoles o l).regs = t.regs := by rw [State.setHoles_eq]
  have hreg {t : State} (h : t.regs = s.regs) : t.reg a = s.reg a := by simp only [State.reg, h]
  unfold State.reply
  dsimp only
  split
  · exact (State.reg_setReg_ne _ _ ha).trans (hreg (by simp [hset]))
  · split
    · exact hreg (by simp [hset])
    · exact hreg (by simp [State.freeSlot, hset])
  · exact hreg (by simp [State.freeSlot, State.keep, State.send, hset])

/-! ### A request by its kind: grants -/

theorem State.bureauCondition_grant (b : Word) (h : s.enrolled = true) : s.bureauCondition (.grant b) = none := if_pos h

/-- The request that a staged grant leaves. -/
def State.grantReq (s : State) (b : Word) : BureauReq :=
  ⟨s.trust.handles + 1, .grant b, s.bureauDigest (.grant b) (nonceBytes 32 s.draws) [] false, [], s.trust.records, false, 0, s.now, 0,
    false, none⟩

/-- A staged grant waits for its countersignature. -/
def State.stageGrant (s : State) (b : Word) : State :=
  ({ s.draw with trust := { s.trust with req := some (s.grantReq b), handles := s.trust.handles + 1 } } : State).setReg OTP_BUREAU
    (BitVec.ofNat 32 (2 ^ 28 + kindCode (.grant b) * 2 ^ 24 + 0 % 256 * 2 ^ 16))

/-- What the answer to a staged grant says. -/
def State.grantBody (s : State) (b : Word) : List Byte :=
  leBytesN 4 (s.trust.handles + 1) ++ nonceBytes 32 s.draws ++ (s.grantReq b).digest ++ leBytesN 4 0

theorem State.stageGrant_leaves (b : Word) : (s.stageGrant b).otp = s.otp ∧ (s.stageGrant b).trust.req = some (s.grantReq b) ∧
    (s.stageGrant b).fld OTP_BUREAU_STATE = 1 := by
  refine ⟨by simp [State.stageGrant, State.draw], by simp [State.stageGrant], ?_⟩
  have hkind : kindCode (.grant b) = 2 := rfl
  rw [State.fld, State.stageGrant, hkind]
  exact (congrArg (bits · 28 4) (State.reg_setReg_self _ OTP_BUREAU _)).trans (by decide)

theorem State.stage_grant {b : Word} {i : Fin 32} {sig : List Byte} (h : CommandRuns s i 0x0700) (hreq : s.trust.req = none)
    (hen : s.enrolled = true) (hs : signedBy (s.keyOf 2) (Config.bureauBytes (.grant b)) sig = true) :
    exec (.bureauStage i (.grant b) sig) s = .next ((s.stageGrant b).answer i (s.grantBody b)) := by
  have hop : s.operatorKey (.grant b) = s.keyOf 2 := rfl
  refine (ezCommand_run h).trans (congrArg Host.Outcome.next ?_)
  rw [if_neg (by simp [hreq]), s.bureauCondition_grant b hen]
  dsimp only
  rw [if_neg (by simp [hop, hs])]
  rfl

theorem State.stage_grant_unsigned {b : Word} {i : Fin 32} {sig : List Byte} (h : CommandRuns s i 0x0700) (hreq : s.trust.req = none)
    (hen : s.enrolled = true) (hs : signedBy (s.keyOf 2) (Config.bureauBytes (.grant b)) sig = false) :
    exec (.bureauStage i (.grant b) sig) s = .next (s.refuseOpen i 5) := by
  have hop : s.operatorKey (.grant b) = s.keyOf 2 := rfl
  refine (ezCommand_run h).trans ?_
  simp [hreq, s.bureauCondition_grant b hen, hop, hs]

/-! ### A countersignature -/

/-- No countersignature in time waits for a request that is not late. -/
theorem State.countersigned_of_early {i : Nat} (h : ∀ r, s.trust.req = some r → r.late = none) : s.countersigned i = s := by
  unfold State.countersigned
  split
  · rfl
  next r hr =>
    rw [h r hr]

theorem State.endBureau_idle (h : ∀ r, s.trust.req = some r → r.programming = false) :
    s.endBureau = ({ s with trust := { s.trust with req := none } } : State).setReg OTP_BUREAU 0 := by
  unfold State.endBureau
  split
  next r hr =>
    rw [h r hr]
    rfl
  · rfl

/-- A countersignature that fails its check: counted, and the third one ends the request. -/
theorem State.countersign_bad {r : BureauReq} {i : Nat} {ok : Bool} (hreq : s.trust.req = some r) (hp : r.programming = false)
    (hl : r.late = none) (hh : r.handle % 2 ^ 32 = fieldAt (s.payload i) 0 4)
    (hbad : (s.commissioningKey r.change != [] &&
      Config.ecdsaVerify (s.commissioningKey r.change) r.digest (((s.payload i).drop 4).take 96)) = false) :
    s.countersign i ok =
      (if 2 ≤ r.fails then (s.count OTP_CNT_BAD_CSIGN_CNT).endBureau
      else { s.count OTP_CNT_BAD_CSIGN_CNT with trust := { s.trust with req := some { r with fails := r.fails + 1 } } }).refuseOpen i 5 := by
  have htime : r.inTime i = true := by
    unfold BureauReq.inTime
    rw [hl]
  unfold State.countersign
  rw [hreq]
  dsimp only
  rw [if_neg (by rw [hp, htime, hh]; simp), if_pos (by rw [hbad]; decide)]
  rfl

/-- A good countersignature, where Settle takes the settings. -/
theorem State.countersign_good {r : BureauReq} {i : Nat} (hreq : s.trust.req = some r) (hp : r.programming = false)
    (hl : r.late = none) (hh : r.handle % 2 ^ 32 = fieldAt (s.payload i) 0 4) (hset : s.safe.settleRuns = true)
    (hkind : kindCode r.change ≤ 1) (hno : s.settleRefuses r.body r.inForce = none)
    (hgood : (s.commissioningKey r.change != [] &&
      Config.ecdsaVerify (s.commissioningKey r.change) r.digest (((s.payload i).drop 4).take 96)) = true) :
    s.countersign i true =
      (({ s with trust := { s.trust with req := some { r with programming := true } } } : State).setFld OTP_BUREAU_STATE 3).answer i [] := by
  have htime : r.inTime i = true := by
    unfold BureauReq.inTime
    rw [hl]
  unfold State.countersign
  rw [hreq]
  dsimp only
  rw [if_neg (by rw [hp, htime, hh]; simp), if_neg (by rw [hgood]; decide), if_neg (by rw [hset]; decide), if_pos hkind, hno]

/-- After a response the request is what it was before it. -/
theorem State.countersigned_reply {t : State} {i : Nat} {msg : List Byte} (h : ∀ r, t.trust.req = some r → r.late = none) :
    (t.reply i msg).countersigned i = t.reply i msg :=
  State.countersigned_of_early _ (by rwa [State.trust_reply])

theorem State.programChange_grant {r : BureauReq} {b : Word} (h : r.change = .grant b) :
    s.programChange r = { s with otp := { s.otp with grant := s.otp.grant ||| b } } := by
  unfold State.programChange
  rw [h]

theorem State.req_endBureau : s.endBureau.trust.req = none := by
  unfold State.endBureau
  simp

/-- Settles O49: each step of the Bureau procedure is one branch of R405 to R409. -/
theorem bureauProcedure : Obligations.BureauProcedure := by
  refine fun i s => ⟨fun c sig r h hreq => ?_, fun b sig h hreq hen => ?_, fun r h hreq hp hl hh => ⟨fun hk hset hkind hno hf => ?_,
      fun hk hf ok => ?_, fun hk hf ok => ?_⟩, fun r h hreq hp hh => ?_, fun r hr hreq hp => ⟨fun hnone => ?_, fun k hk hop => ?_⟩,
      fun r b hr hreq hp hc => ?_⟩
  · exact (ezCommand_run h).trans (by simp [hreq])
  · by_cases hs : signedBy (s.keyOf 2) (Config.bureauBytes (.grant b)) sig = true
    · obtain ⟨hotp, hreq', hstate⟩ := s.stageGrant_leaves b
      refine ⟨_, s.stage_grant h hreq hen hs, (State.otp_reply _ _ _).trans hotp, fun _ => ⟨?_, s.grantReq b, ?_, rfl, rfl, rfl⟩, fun hno => ?_⟩
      · exact (State.fld_of_reg (State.reg_reply _ (by decide) _ _)).trans hstate
      · exact (congrArg TrustUnit.req (State.trust_reply _ _ _)).trans hreq'
      · simp [hs] at hno
    · have hno : signedBy (s.keyOf 2) (Config.bureauBytes (.grant b)) sig = false := by simpa using hs
      exact ⟨_, s.stage_grant_unsigned h hreq hen hno, State.otp_reply s.draw _ _, fun h => absurd h hs, fun _ => rfl⟩
  · refine (ezCommand_run h).trans (congrArg Host.Outcome.next ?_)
    by_cases hv : Config.ecdsaVerify (s.commissioningKey r.change) r.digest (((s.payload i).drop 4).take 96) = true
    · rw [if_pos hv, s.countersign_good hreq hp hl hh hset hkind hno (by simp [hk, hv])]
      exact State.countersigned_reply fun x hx => by cases hx; exact hl
    · rw [if_neg hv, s.countersign_bad hreq hp hl hh (by simp [hv]), if_neg (by omega)]
      exact State.countersigned_reply fun x hx => by cases hx; exact hl
  · refine (ezCommand_run h).trans (congrArg Host.Outcome.next ?_)
    rw [s.countersign_bad hreq hp hl hh (by simp [hk]), if_neg (by omega)]
    exact State.countersigned_reply fun x hx => by cases hx; exact hl
  · refine ⟨((s.count OTP_CNT_BAD_CSIGN_CNT).endBureau).refuseOpen i 5, (ezCommand_run h).trans (congrArg Host.Outcome.next ?_), ?_⟩
    · rw [s.countersign_bad hreq hp hl hh (by simp [hk]), if_pos (by omega)]
      exact State.countersigned_reply fun x hx => by cases hx
    · exact (congrArg TrustUnit.req (State.trust_reply _ _ _)).trans (s.count OTP_CNT_BAD_CSIGN_CNT).req_endBureau
  · refine (ezCommand_run h).trans (congrArg Host.Outcome.next ?_)
    rw [hreq]
    dsimp only
    rw [if_neg (by rw [hp, hh]; simp), s.endBureau_idle (by simp [hreq, hp])]
  · have hexp : exec .bureauExpiry s = .next ((s.setFlag OTP_FLAGS_BUREAU_EXPIRED).endBureau) := by
      have hempty : s.mbx.started.filter (fun i => s.hdrOp i == 0x0701) = [] :=
        List.filter_eq_nil_iff.mpr fun i hi => by simp [hnone i hi]
      refine (whenFw_run s hr).trans (congrArg Host.Outcome.next ?_)
      rw [hreq, hempty]
      dsimp only
      rw [if_neg (by simp [hp])]
      rfl
    rw [State.endBureau_idle (s.setFlag OTP_FLAGS_BUREAU_EXPIRED) (by simp [hreq, hp])] at hexp
    refine ⟨_, hexp, by simp, ?_, by simp⟩
    exact (State.flag_of_reg (State.reg_setReg_ne _ 0 (by decide))).trans (s.flag_setFlag OTP_FLAGS_BUREAU_EXPIRED)
  · have hmem : k ∈ s.mbx.started.filter (fun i => s.hdrOp i == 0x0701) := List.mem_filter.mpr ⟨hk, by simp [hop]⟩
    refine (whenFw_run s hr).trans (congrArg Host.Outcome.next ?_)
    rw [hreq]
    dsimp only
    rw [if_neg (by simp [hp]), if_neg (by simp [List.isEmpty_iff, List.ne_nil_of_mem hmem])]
  · have hdone : exec .bureauProgramDone s = .next ((((({ s with trust := { s.trust with req := none } } : State).setReg OTP_BUREAU
        0).programChange r).setFlag OTP_FLAGS_BUREAU_DONE).count OTP_CNT_BUREAU_CNT) := by
      refine (whenDev_run s hr).trans (congrArg Host.Outcome.next ?_)
      rw [hreq]
      dsimp only
      rw [if_neg (by simp [hp])]
    rw [State.programChange_grant _ hc] at hdone
    refine ⟨_, hdone, by simp, by simp, ?_, by simp⟩
    exact (State.flag_count_addr _ (by decide)).trans (State.flag_setFlag _ OTP_FLAGS_BUREAU_DONE)

end Sys2Proof.Machine
end

section
/-! O50: firmware is staged, tried and confirmed; boot falls back slot by slot. -/

namespace Sys2Proof.Machine

variable (s : State)

/-! ### Everything the firmware held of its peers is dropped -/

/-- No ring command waits for a pigeonhole any more. -/
def State.dropWaits (s : State) : State := s.forAll 64 (fun q t => t.onPort q (fun p => { p with cmdSlot := none }))

theorem State.dropWaits_eq : s.dropWaits = { s with ports := s.dropWaits.ports } :=
  forAll_rel (fun a b => b = { a with ports := b.ports }) (fun _ => rfl) (fun a b c h h' => by rw [h', h])
    (fun q t => t.onPort q (fun p => { p with cmdSlot := none })) (fun _ _ => rfl) 64 s

/-- The messages, without the ring commands that wait for them. -/
def State.dropSlots (s : State) : State :=
  (({ s with mbx := { links := s.mbx.links, sentTo := s.mbx.sentTo, sent := s.mbx.sent } } : State).setReg MBX_DONE 0).setReg MBX_JOB_DONE 0

theorem State.dropMessages_eq : s.dropMessages = { s.dropSlots with ports := s.dropMessages.ports } := State.dropWaits_eq s.dropSlots

theorem State.reg_dropMessages {a : Nat} (h1 : a ≠ MBX_DONE) (h2 : a ≠ MBX_JOB_DONE) : s.dropMessages.reg a = s.reg a := by
  have hports (t : State) (p : List (Nat × PortUnit)) : ({ t with ports := p } : State).reg a = t.reg a := rfl
  rw [State.dropMessages_eq, hports, State.dropSlots, State.reg_setReg_ne _ _ h2, State.reg_setReg_ne _ _ h1]
  rfl

theorem State.setFlagIf_eq (c : Bool) (f : Fld) : s.setFlagIf c f = { s with regs := (s.setFlagIf c f).regs } := by
  cases c <;> rfl

/-! ### A restart of the management processor -/

/-- The processor stops, and what it had pending ends. -/
def State.mgmtStop (s : State) : State := (({ s with trust := { s.trust with req := none } } : State).setReg OTP_BUREAU 0).dropMessages

/-- What a stop of the processor leaves. -/
structure MgmtStopped (s t : State) : Prop where
  slots : t.mbx.slots = []
  stn : t.stn = s.stn
  mem : t.mem = s.mem
  flash : t.flash = s.flash
  boot : t.boot = s.boot

theorem State.mgmtStop_leaves : MgmtStopped s s.mgmtStop := by
  unfold State.mgmtStop
  rw [State.dropMessages_eq]
  exact ⟨rfl, rfl, rfl, rfl, rfl⟩

/-- Whether a restart gives up a trial. -/
def State.trialBack (s : State) (activation : Bool) : Bool := s.flash.trial && !activation

/-- The processor is to boot the slot that its record names; a reload that was under way has failed. -/
def State.rebootFrom (s : State) (activation : Bool) : State :=
  let f1 : FlashUnit := if s.trialBack activation then { s.flash with preferred := s.flash.before, trial := false } else s.flash
  { s with
    flash := f1
    red := { s.red with stA := if s.red.stA = 5 then 4 else s.red.stA, stB := if s.red.stB = 5 then 4 else s.red.stB }
    boot := { s.boot with fw := false, accepted := false, checking := some f1.preferred, second := false } }

theorem State.mgmtRestart_eq (activation : Bool) {u : State} (hu : s.endBureau.dropMessages = u) : s.mgmtRestart activation =
    ((((u.rebootFrom activation).setFld SEC_BOOT_FALLBACK 0).setFld SEC_BOOT_MONITOR 0).setFld SEC_BOOT_TRIAL 0).setFlagIf
      (u.trialBack activation) SEC_FLAGS_TRIAL_REVERTED := by
  subst hu
  rfl

theorem State.endBureau_stop (hreq : s.trust.req = none) : s.endBureau.dropMessages = s.mgmtStop := by
  rw [s.endBureau_idle (by simp [hreq]), State.mgmtStop]

/-- What a restart leaves. -/
theorem State.mgmtRestart_leaves (activation : Bool) (hreq : s.trust.req = none) :
    (s.mgmtRestart activation).boot.fw = false ∧ (s.mgmtRestart activation).boot.accepted = false ∧
      (s.mgmtRestart activation).flash =
        (if s.trialBack activation then { s.flash with preferred := s.flash.before, trial := false } else s.flash) ∧
      (s.mgmtRestart activation).boot.checking = some (s.mgmtRestart activation).flash.preferred ∧
      (s.mgmtRestart activation).mbx.slots = [] ∧ (s.mgmtRestart activation).stn = s.stn ∧ (s.mgmtRestart activation).mem = s.mem := by
  obtain ⟨hslots, hstn, hmem, hflash, -⟩ := s.mgmtStop_leaves
  rw [s.mgmtRestart_eq activation (s.endBureau_stop hreq), State.setFlagIf_eq]
  generalize s.mgmtStop = u at hslots hstn hmem hflash
  simp [State.rebootFrom, hslots, hstn, hmem, hflash, State.trialBack]

theorem State.reg_mgmtRestart {a : Nat} (activation : Bool) (hreq : s.trust.req = none) (ho : a ≠ OTP_BUREAU) (hd : a ≠ MBX_DONE)
    (hj : a ≠ MBX_JOB_DONE) (hb : a ≠ SEC_BOOT) (hf : a ≠ SEC_FLAGS) : (s.mgmtRestart activation).reg a = s.reg a := by
  have hstop : s.mgmtStop.reg a = s.reg a := (State.reg_dropMessages _ hd hj).trans (State.reg_setReg_ne _ _ ho)
  have hreboot (u : State) : (u.rebootFrom activation).reg a = u.reg a := rfl
  rw [s.mgmtRestart_eq activation (s.endBureau_stop hreq), State.reg_setFlagIf_ne _ _ hf, State.reg_setFld_ne _ _ hb,
    State.reg_setFld_ne _ _ hb, State.reg_setFld_ne _ _ hb, hreboot, hstop]

/-- A restart that gives up a trial says so. -/
theorem State.flag_mgmtRestart_back (hreq : s.trust.req = none) (ht : s.flash.trial = true) :
    (s.mgmtRestart false).flag SEC_FLAGS_TRIAL_REVERTED = true := by
  obtain ⟨-, -, -, hflash, -⟩ := s.mgmtStop_leaves
  rw [s.mgmtRestart_eq false (s.endBureau_stop hreq), State.trialBack, hflash, ht]
  exact State.flag_setFlag _ SEC_FLAGS_TRIAL_REVERTED

/-- A restart on a slot whose Settle image is the running one. -/
theorem State.restartOn_same {b : Bool} (h : s.settleDiffers b = false) : s.restartOn b = s.mgmtRestart true := by
  unfold State.restartOn
  rw [h]
  rfl

/-! ### Secure boot -/

theorem State.reg_showVersions {a : Nat} (ha : a ≠ SEC_FW_A) (hb : a ≠ SEC_FW_B) : s.showVersions.reg a = s.reg a :=
  (State.reg_setReg_ne _ _ hb).trans (s.reg_setReg_ne _ ha)

/-- A slot that passes is shown, and its firmware starts. -/
theorem State.acceptSlot_leaves (b : Bool) : (s.acceptSlot b).boot.accepted = true ∧ (s.acceptSlot b).boot.checking = none ∧
    (s.acceptSlot b).boot.fw = s.boot.fw ∧ (s.acceptSlot b).fld SEC_BOOT_SLOT = b.toNat ∧
    (s.acceptSlot b).fld SEC_BOOT_TRIAL = s.flash.trial.toNat := by
  have hbit (c : Bool) : c.toNat < 2 := by cases c <;> decide
  have hslot (f : Fld) (hf : f.addr = SEC_BOOT) (t : State) : t.showVersions.fld f = t.fld f :=
    State.fld_of_reg (t.reg_showVersions (by rw [hf]; decide) (by rw [hf]; decide))
  have hshown : (((s.setFld SEC_BOOT_SLOT b.toNat).setFld SEC_BOOT_TRIAL s.flash.trial.toNat).showVersions).fld SEC_BOOT_SLOT = b.toNat ∧
      (((s.setFld SEC_BOOT_SLOT b.toNat).setFld SEC_BOOT_TRIAL s.flash.trial.toNat).showVersions).fld SEC_BOOT_TRIAL =
        s.flash.trial.toNat := by
    rw [hslot _ rfl, hslot _ rfl, State.fld_setFld_elsewhere _ SEC_BOOT_TRIAL SEC_BOOT_SLOT]
    exact ⟨State.fld_setFld s SEC_BOOT_SLOT (hbit b), State.fld_setFld _ SEC_BOOT_TRIAL (hbit s.flash.trial)⟩
  have hfw : (((s.setFld SEC_BOOT_SLOT b.toNat).setFld SEC_BOOT_TRIAL s.flash.trial.toNat).showVersions).boot = s.boot := by
    simp [State.showVersions]
  have hboot (t : State) (x : BootUnit) (f : Fld) : ({ t with boot := x } : State).fld f = t.fld f := rfl
  unfold State.acceptSlot
  generalize ((s.setFld SEC_BOOT_SLOT b.toNat).setFld SEC_BOOT_TRIAL s.flash.trial.toNat).showVersions = u at hshown hfw
  dsimp only
  rw [hboot _ _ SEC_BOOT_SLOT, hboot _ _ SEC_BOOT_TRIAL]
  by_cases hst : s.boot.startSettle = true
  · rw [if_pos hst, State.fld_setFld_elsewhere _ SEC_BOOT_SETTLE_VERIFIED SEC_BOOT_SLOT 1,
      State.fld_setFld_elsewhere _ SEC_BOOT_SETTLE_VERIFIED SEC_BOOT_TRIAL 1]
    exact ⟨rfl, rfl, congrArg BootUnit.fw hfw, hshown⟩
  · rw [if_neg hst]
    exact ⟨rfl, rfl, congrArg BootUnit.fw hfw, hshown⟩

/-- Where neither slot passes, the ROM monitor runs. -/
theorem State.startMonitor_leaves : s.startMonitor.flag SEC_BOOT_MONITOR = true ∧ s.startMonitor.boot.fw = true ∧
    s.startMonitor.boot.checking = none := by
  have hanswer (t : State) : t.firstAnswer.reg SEC_BOOT = t.reg SEC_BOOT ∧ t.firstAnswer.boot.fw = t.boot.fw ∧
      t.firstAnswer.boot.checking = t.boot.checking := by
    unfold State.firstAnswer
    split
    · exact ⟨rfl, rfl, rfl⟩
    · exact ⟨State.reg_setFld_ne _ _ (by decide), rfl, rfl⟩
  obtain ⟨hreg, hfw, hchk⟩ := hanswer ((({ s with boot := { s.boot with checking := none, fw := true } } : State).setFld
    SEC_BOOT_MONITOR 1).showVersions)
  refine ⟨(State.flag_of_reg hreg).trans ?_, hfw, hchk⟩
  exact (State.flag_of_reg (State.reg_showVersions _ (by decide) (by decide))).trans (State.flag_setFlag _ SEC_BOOT_MONITOR)

/-! ### Firmware over Eznel -/

section
variable {i : Nat} {msg : List Byte}

theorem State.stn_reply : (s.reply i msg).stn = s.stn := by rw [replyFrame_reply s i msg]

theorem State.flash_reply : (s.reply i msg).flash = s.flash := by rw [replyFrame_reply s i msg]

theorem State.safe_reply : (s.reply i msg).safe = s.safe := by rw [replyFrame_reply s i msg]

theorem State.runningSlot_reply : (s.reply i msg).runningSlot = s.runningSlot :=
  State.flag_of_reg (State.reg_reply s (by decide) i msg)

end

/-- A change of the boot record alone leaves whether Settle's images differ. -/
theorem State.settleDiffers_of {s t : State} (hsafe : t.safe = s.safe) (ha : t.flash.slotA = s.flash.slotA) (hb : t.flash.slotB = s.flash.slotB)
    (hrun : t.runningSlot = s.runningSlot) (b : Bool) : t.settleDiffers b = s.settleDiffers b := by
  have hslot (c : Bool) : t.flashSlot c = s.flashSlot c := by simp only [State.flashSlot, ha, hb]
  simp only [State.settleDiffers, hsafe, hslot, hrun]

/-- The answered request of an activation or a revert, with the boot record that it writes. -/
def State.answeredWith (s : State) (i : Nat) (f : FlashUnit → FlashUnit) : State :=
  { s.answer i [] with flash := f (s.answer i []).flash }

/-- The restart behind an answer, on a slot whose Settle image is the running one. -/
theorem State.restart_answered {i : Nat} {b : Bool} {f : FlashUnit → FlashUnit} (hreq : s.trust.req = none)
    (hd : s.settleDiffers b = false) (ha : (f s.flash).slotA = s.flash.slotA) (hb : (f s.flash).slotB = s.flash.slotB) :
    ((s.answeredWith i f).restartOn b).flash = f s.flash ∧ ((s.answeredWith i f).restartOn b).boot.fw = false ∧
      ((s.answeredWith i f).restartOn b).boot.checking = some (f s.flash).preferred ∧
      ((s.answeredWith i f).restartOn b).mbx.slots = [] ∧ ((s.answeredWith i f).restartOn b).stn = s.stn := by
  have hflash : (s.answeredWith i f).flash = f s.flash := congrArg f (State.flash_reply s)
  have hreq' : (s.answeredWith i f).trust.req = none := (congrArg TrustUnit.req (s.trust_reply i _)).trans hreq
  have hsafe : (s.answeredWith i f).safe = s.safe := State.safe_reply s
  have hrun : (s.answeredWith i f).runningSlot = s.runningSlot := State.runningSlot_reply s
  have hsame : (s.answeredWith i f).settleDiffers b = false :=
    (State.settleDiffers_of hsafe (by rw [hflash, ha]) (by rw [hflash, hb]) hrun b).trans hd
  obtain ⟨hfw, -, hfl, hchk, hslots, hstn, -⟩ := (s.answeredWith i f).mgmtRestart_leaves true hreq'
  have hback : (s.answeredWith i f).trialBack true = false := by simp [State.trialBack]
  rw [hback, if_neg (by decide), hflash] at hfl
  rw [State.restartOn_same _ hsame]
  exact ⟨hfl, hfw, by rw [hchk, hfl], hslots, hstn.trans (State.stn_reply s)⟩

theorem State.req_of_canRestartOn {b : Bool} (h : s.canRestartOn b = true) : s.trust.req = none := by
  simp only [State.canRestartOn, Bool.and_eq_true, Option.isNone_iff_eq_none] at h
  exact h.1

/-- Settles O50: each step of staging, trial and boot is one branch of R396 to R399 and R447 to R449. -/
theorem firmwareAndBoot : Obligations.FirmwareAndBoot := by
  refine ⟨fun i s => ⟨fun ofs len hash h hf hno hin hh => ?_, fun j ofs len hr hk hrun => ?_, fun b h ha hact hcan hd hp => ?_,
      fun h ha hact => ?_, fun h ha hreq htrial => ?_, fun h ha hcan hd hp => ?_⟩,
    fun s hr => ⟨fun b hchk => ?_, fun pathOk hst => ?_, fun hacc hfw hans => ?_, fun hreq htrial => ?_, fun hreq htrial => ?_⟩⟩
  · have hfree : (List.range 4).any (fun j => s.jobRuns j && isFwStage (s.jobOf j).kind) = false :=
      List.any_eq_false.mpr fun j hj => by
        by_cases hrun : s.jobRuns j = true
        · simp [hno j (List.mem_range.mp hj) hrun]
        · simp [hrun]
    refine (ezCommand_run h).trans (congrArg Host.Outcome.next ?_)
    rw [if_neg (by simp [hf]), if_neg (by simp [hfree]), s.withStaged_good i _ hin hh]
  · have hdone : exec (.fwStageDone j (s.staged ofs len)) s = .next ((((({ s with
        trust := { s.trust with staged := some (!s.runningSlot) } } : State).setFlashSlot (!s.runningSlot) (s.staged ofs len))).showVersions).endJob
          j 1 0) := (whenFw_run s hr).trans (by simp [hk, hrun])
    refine ⟨_, hdone, by simp [State.endJob, State.showVersions, State.setFlashSlot], ?_, ?_, ?_⟩
    · cases s.runningSlot <;> simp [State.endJob, State.showVersions, State.setFlashSlot, State.flashSlot]
    · cases s.runningSlot <;> simp [State.endJob, State.showVersions, State.setFlashSlot, State.flashSlot]
    · exact congrArg Job.st (State.endJob_leaves _ j.isLt 1 0).1
  · obtain ⟨hflash, hfw, hck, hslots, hstn⟩ := s.restart_answered (i := i) (s.req_of_canRestartOn hcan) hd
      (f := fun f => { f with before := f.preferred, preferred := b, trial := true, recordOk := true }) rfl rfl
    refine ⟨_, (ezCommand_run h).trans (congrArg Host.Outcome.next ?_), congrArg FlashUnit.preferred hflash, congrArg FlashUnit.trial hflash,
      congrArg FlashUnit.before hflash, hfw, hck, hslots, hstn⟩
    rw [ha, if_neg (by decide), if_neg (by decide), hact]
    exact if_pos hcan
  · refine (ezCommand_run h).trans (congrArg Host.Outcome.next ?_)
    rw [ha, if_neg (by decide), if_neg (by decide), hact]
  · exact (ezCommand_run h).trans (by simp [ha, hreq, htrial])
  · obtain ⟨hflash, hfw, hck, hslots, hstn⟩ := s.restart_answered (i := i) (s.req_of_canRestartOn hcan) hd
      (f := fun f => { f with preferred := !s.runningSlot, trial := false, recordOk := true }) rfl rfl
    refine ⟨_, (ezCommand_run h).trans (congrArg Host.Outcome.next ?_), congrArg FlashUnit.preferred hflash, congrArg FlashUnit.trial hflash,
      hfw, hck, hstn⟩
    rw [ha, if_neg (by decide)]
    exact if_pos hcan
  · by_cases hk : s.packageCheck (s.flashSlot b) = 0
    · obtain ⟨hacc, hck, hfw, hslot, htrial⟩ := s.acceptSlot_leaves b
      refine ⟨s.acceptSlot b, (whenDev_run s hr).trans (by simp [hchk, hk]), fun _ => ⟨hacc, hck, hslot, htrial, hfw⟩,
        fun hn => absurd hk hn, fun hn => absurd hk hn⟩
    · by_cases hsec : s.boot.second = true
      · obtain ⟨hmon, hfw, hck⟩ := (s.setFlag SEC_FLAGS_IMAGE_REFUSED).startMonitor_leaves
        refine ⟨(s.setFlag SEC_FLAGS_IMAGE_REFUSED).startMonitor, (whenDev_run s hr).trans (by simp [hchk, hk, hsec]), fun hn => absurd hn hk,
          fun _ hn => absurd hsec (by simp [hn]), fun _ _ => ⟨hmon, hfw, hck⟩⟩
      · have hfail : exec .bootImageCheckDone s = .next (({ s.setFlag SEC_FLAGS_IMAGE_REFUSED with
            boot := { s.boot with checking := some (!b), second := true } } : State).setFld SEC_BOOT_FALLBACK 1) :=
          (whenDev_run s hr).trans (by simp [hchk, hk, hsec])
        refine ⟨_, hfail, fun hn => absurd hn hk, fun _ _ => ⟨by simp, by simp, State.fld_setFld _ SEC_BOOT_FALLBACK (by decide : 1 < 2), ?_⟩,
          fun _ hn => absurd hn hsec⟩
        exact (State.flag_setFld_addr _ 1 (by decide)).trans (s.flag_setFlag SEC_FLAGS_IMAGE_REFUSED)
  · have hdone : exec (.settleBootDone true pathOk) s = .next (({ s with
        boot := { s.boot with settleTests := false }, safe := { s.safe with settleRuns := true, settleOk := true } } : State).setFlagIf (!pathOk)
          SAF_FLAGS_RELEASE_REFUSED) := (whenDev_run s hr).trans (by simp [hst])
    refine ⟨_, hdone, ?_, ?_, fun hno => ?_⟩
    · rw [State.setFlagIf_eq]
    · rw [State.setFlagIf_eq]
    · rw [hno]
      exact State.flag_setFlag _ SAF_FLAGS_RELEASE_REFUSED
  · exact (whenDev_run s hr).trans (by simp [hacc, hfw, hans])
  · have hreq' : (s.count SYS_RST_CAUSE_WDOG_CNT).trust.req = none := by simpa using hreq
    obtain ⟨hfw, hacc, hflash, hck, hslots, hstn, hmem⟩ := (s.count SYS_RST_CAUSE_WDOG_CNT).mgmtRestart_leaves false hreq'
    refine ⟨_, whenDev_run s hr, hfw, hacc, ?_, hslots, hstn.trans (by simp), hmem.trans (by simp), ?_⟩
    · have hback : (s.count SYS_RST_CAUSE_WDOG_CNT).trialBack false = false := by simp [State.trialBack, htrial]
      simp [hck, hflash, hback]
    · refine (State.fld_of_reg (f := SYS_RST_CAUSE_WDOG_CNT) (State.reg_mgmtRestart (s.count SYS_RST_CAUSE_WDOG_CNT) false hreq' (by decide) (by decide) (by decide) (by decide) (by decide))).trans ?_
      exact s.fld_count_self (g := SYS_RST_CAUSE_WDOG_CNT) (by decide)
  · have hreq' : (s.count SYS_RST_CAUSE_WDOG_CNT).trust.req = none := by simpa using hreq
    obtain ⟨-, -, hflash, hck, -⟩ := (s.count SYS_RST_CAUSE_WDOG_CNT).mgmtRestart_leaves false hreq'
    have hback : (s.count SYS_RST_CAUSE_WDOG_CNT).trialBack false = true := by simp [State.trialBack, htrial]
    rw [hback, if_pos rfl] at hflash
    refine ⟨_, whenDev_run s hr, ?_, congrArg FlashUnit.trial hflash, State.flag_mgmtRestart_back _ hreq' (by simpa using htrial)⟩
    simp [hck, hflash]

end Sys2Proof.Machine
end

section
/-! O51: a device reset, and its end. -/

namespace Sys2Proof.Machine

variable (s : State)

/-! ### The reset state -/

/-- Nothing has changed but what the pins show to inputs, outputs, captures and half-bridges. -/
def PinFrame (s t : State) : Prop := t = { s with sin := t.sin, sout := t.sout, caps := t.caps, hb := t.hb }

theorem PinFrame.trans {a b c : State} (h : PinFrame a b) (h' : PinFrame b c) : PinFrame a c := by
  unfold PinFrame at *
  rw [h', h]

theorem PinFrame.forAll {f : Nat → State → State} (h : ∀ i t, PinFrame t (f i t)) (n : Nat) (t : State) : PinFrame t (t.forAll n f) :=
  forAll_rel PinFrame (fun _ => rfl) (fun _ _ _ => .trans) f h n t

/-- The pin of input pair x, and of output x, as the device reset found them. -/
def State.keepContacts (s t : State) : State :=
  t.forAll 8 (fun x u => (u.onSin x (fun p => { p with a := (s.sinOf x).a, b := (s.sinOf x).b })).onSout x (fun o =>
    { o with srb := (s.soutOf x).srb }))

def State.keepLevels (s t : State) : State :=
  (t.forAll 16 (fun c u => u.onCap c (fun p => { p with level := (s.capOf c).level }))).forAll 4 (fun n u =>
    u.forAll 12 (fun k v => v.onHb n k (fun h => { h with gf := (s.hbOf n k).gf })))

theorem State.keepPins_steps (t : State) : s.keepPins t = s.keepLevels (s.keepContacts t) := rfl

theorem State.pinFrame_keepPins (t : State) : PinFrame t (s.keepPins t) :=
  ((PinFrame.forAll (f := fun x u => (u.onSin x (fun p => { p with a := (s.sinOf x).a, b := (s.sinOf x).b })).onSout x (fun o =>
      { o with srb := (s.soutOf x).srb })) (fun _ _ => rfl) 8 t).trans
    (PinFrame.forAll (f := fun c u => u.onCap c (fun p => { p with level := (s.capOf c).level })) (fun _ _ => rfl) 16 _)).trans
    (PinFrame.forAll (fun n u => PinFrame.forAll (f := fun k v => v.onHb n k (fun h => { h with gf := (s.hbOf n k).gf }))
      (fun _ _ => rfl) 12 u) 4 _)

theorem State.sin_keepLevels (t : State) : (s.keepLevels t).sin = t.sin := by
  have hkeep (f : Nat → State → State) (n : Nat) (u : State) (hf : ∀ i v, (f i v).sin = v.sin) : (u.forAll n f).sin = u.sin :=
    forAll_rel (fun a b => b.sin = a.sin) (fun _ => rfl) (fun _ _ _ h h' => h'.trans h) f hf n u
  refine (hkeep _ 4 _ fun n u => hkeep _ 12 u fun k v => ?_).trans (hkeep _ 16 t fun c u => ?_)
  · rfl
  · rfl

/-- The contacts of an input pair stay. -/
theorem State.sinOf_keepPins (t : State) {x : Nat} (hx : x < 8) :
    (s.keepPins t).sinOf x = { t.sinOf x with a := (s.sinOf x).a, b := (s.sinOf x).b } := by
  obtain ⟨u, hbefore, hafter⟩ := t.forAll_at_below (f := fun x u => (u.onSin x (fun p =>
    { p with a := (s.sinOf x).a, b := (s.sinOf x).b })).onSout x (fun o => { o with srb := (s.soutOf x).srb }))
    (fun u => u.sinOf x) (fun i u _ hi => u.sinOf_onSin_ne (fun p => { p with a := (s.sinOf i).a, b := (s.sinOf i).b }) hi.symm) hx
  have hlevels : (s.keepPins t).sinOf x = (s.keepContacts t).sinOf x := by
    simp only [State.keepPins_steps, State.sinOf, State.sin_keepLevels]
  refine hlevels.trans (hafter.trans ?_)
  have hout (v : State) (g : SoutOut → SoutOut) : (v.onSout x g).sinOf x = v.sinOf x := rfl
  rw [hout, State.sinOf_onSin, hbefore]

/-- The reset state before the pins are put back. -/
def State.cleared (s : State) (cause : Nat) : State :=
  { otp := s.otp, flash := s.flash, sen := s.sen, draws := s.draws, slk := { ir := if cause = 0 then 1 else s.slk.ir }, pending := s.pending
    dev := ⟨true, false⟩, vioA := s.vioA, vioB := s.vioB }

/-- A reset with no Bureau request pending. -/
theorem State.enterReset_eq (cause : Nat) (hreq : s.trust.req = none) : s.enterReset cause =
    ((({ s with trust := { s.trust with req := none } } : State).setReg OTP_BUREAU 0).keepPins (s.cleared cause)).setReg SYS_RST_CAUSE
      (BitVec.ofNat 32 (2 ^ cause)) := by
  unfold State.enterReset
  rw [s.endBureau_idle (by simp [hreq])]
  rfl

theorem State.reg_enterReset {cause a : Nat} (hreq : s.trust.req = none) (ha : a ≠ SYS_RST_CAUSE) : (s.enterReset cause).reg a = regReset a := by
  rw [s.enterReset_eq cause hreq, State.reg_setReg_ne _ _ ha, State.pinFrame_keepPins]
  rfl

theorem State.enterReset_leaves (cause : Nat) (hreq : s.trust.req = none) :
    (s.enterReset cause).dev.inReset = true ∧ (s.enterReset cause).otp = s.otp ∧ (s.enterReset cause).flash = s.flash ∧
      (s.enterReset cause).mem = [] ∧ (s.enterReset cause).stn = [] ∧ (s.enterReset cause).pending = s.pending ∧
      (s.enterReset cause).vioA = s.vioA ∧ (s.enterReset cause).vioB = s.vioB := by
  have hset (t : State) (w : Word) : t.setReg SYS_RST_CAUSE w = { t with regs := (t.setReg SYS_RST_CAUSE w).regs } := rfl
  rw [s.enterReset_eq cause hreq, hset, State.pinFrame_keepPins]
  exact ⟨rfl, rfl, rfl, rfl, rfl, rfl, rfl, rfl⟩

theorem State.sinOf_enterReset (cause : Nat) (hreq : s.trust.req = none) {x : Nat} (hx : x < 8) :
    ((s.enterReset cause).sinOf x).a = (s.sinOf x).a ∧ ((s.enterReset cause).sinOf x).b = (s.sinOf x).b := by
  have hset (t : State) (w : Word) : (t.setReg SYS_RST_CAUSE w).sinOf x = t.sinOf x := rfl
  rw [s.enterReset_eq cause hreq, hset, State.sinOf_keepPins _ _ hx]
  exact ⟨rfl, rfl⟩

/-! ### The end of a reset -/

/-- Nothing has changed but registers and the settings in force. -/
def SettingFrame (s t : State) : Prop := t = { s with regs := t.regs, act := t.act, trust := t.trust }

theorem SettingFrame.trans {a b c : State} (h : SettingFrame a b) (h' : SettingFrame b c) : SettingFrame a c := by
  unfold SettingFrame at *
  rw [h', h]

theorem settingFrame_setFld (f : Fld) (v : Nat) : SettingFrame s (s.setFld f v) := rfl

theorem settingFrame_showOtp (gen : Nat) (ovl : Bool) : SettingFrame s (s.showOtp gen ovl) :=
  ((((settingFrame_setFld s _ _).trans (settingFrame_setFld _ _ _)).trans (settingFrame_setFld _ _ _)).trans
    (settingFrame_setFld _ _ _)).trans (settingFrame_setFld _ _ _)

theorem settingFrame_setFlagIf (c : Bool) (f : Fld) : SettingFrame s (s.setFlagIf c f) := by
  cases c <;> rfl

/-- Records put into force. -/
def State.putRecords (s : State) (l : List (Nat × Word)) : State :=
  l.foldl (fun u e => u.setBoth e.1 e.2) { s with trust := { s.trust with records := l } }

theorem settingFrame_putRecords (l : List (Nat × Word)) : SettingFrame s (s.putRecords l) :=
  (show SettingFrame s { s with trust := { s.trust with records := l } } from rfl).trans
    (foldl_rel SettingFrame (fun _ => rfl) (fun _ _ _ => .trans) (fun (u : State) (e : Nat × Word) => u.setBoth e.1 e.2) (fun _ _ => rfl) l _)

theorem settingFrame_selectSettings : SettingFrame s s.selectSettings := by
  have hflag := settingFrame_setFlagIf s ((List.range 4).any (fun g => (s.genOf g).programmed && !(s.genOf g).sealed))
    OTP_FLAGS_GEN_ABANDONED
  unfold State.selectSettings
  generalize s.setFlagIf ((List.range 4).any (fun g => (s.genOf g).programmed && !(s.genOf g).sealed)) OTP_FLAGS_GEN_ABANDONED = u at hflag
  dsimp only
  split
  · exact hflag.trans (settingFrame_showOtp u 0 false)
  next g _ =>
    split
    · exact hflag.trans ((settingFrame_showOtp u g false).trans (settingFrame_setFld _ OTP_FLAGS_GEN_CORRUPT 1))
    · split
      · exact hflag.trans ((settingFrame_showOtp u g false).trans (settingFrame_putRecords _ _))
      · split
        · exact hflag.trans ((settingFrame_showOtp u g true).trans (settingFrame_putRecords _ _))
        · exact hflag.trans (((settingFrame_showOtp u g false).trans (settingFrame_setFld _ OTP_FLAGS_OVL_MISSING 1)).trans (settingFrame_putRecords _ _))

/-- The registers that the OTP rows and the board position fill. -/
def State.showRows (s : State) (bid : BitVec 2) : State :=
  (((((((s.setReg SYS_GRANT (BitVec.ofNat 32 (s.otp.grant.toNat % 2 ^ 11))).setFld SEC_DBG_STATE s.otp.debugState).setFld SEC_SVN_FIRMWARE
    s.otp.svnFw).setFld SEC_SVN_SETTLE s.otp.svnSettle).setFld SEC_SVN_TRESTLE s.otp.svnTrestle).setFld PMB_STATUS_V_RUN s.otp.vRun).setFld
      PMB_STATUS_TARGET s.otp.vRun).setFld SYS_POS_POS bid.toNat

/-- The ports of Sundlink at their places. -/
def State.showPorts (s : State) (bid : BitVec 2) (wired : BitVec 3) : State :=
  s.forAll 3 (fun p t =>
    (t.setFld (SLK_PORT_PEER p) ((bid.toNat + p + 1) % 4)).setFld (SLK_PORT_STATE p) (wired.getLsbD p && t.grantSlk).toNat)

theorem State.applyOtp_eq (bid : BitVec 2) (wired : BitVec 3) : s.applyOtp bid wired =
    ((({ s with grants := BitVec.ofNat 11 s.otp.grant.toNat } : State).showRows bid).showPorts bid wired).selectSettings := rfl

theorem settingFrame_showRows (bid : BitVec 2) : SettingFrame s (s.showRows bid) :=
  (((((((show SettingFrame s (s.setReg _ _) from rfl).trans (settingFrame_setFld _ _ _)).trans (settingFrame_setFld _ _ _)).trans
    (settingFrame_setFld _ _ _)).trans (settingFrame_setFld _ _ _)).trans (settingFrame_setFld _ _ _)).trans
      (settingFrame_setFld _ _ _)).trans (settingFrame_setFld _ _ _)

theorem settingFrame_showPorts (bid : BitVec 2) (wired : BitVec 3) : SettingFrame s (s.showPorts bid wired) :=
  forAll_rel SettingFrame (fun _ => rfl) (fun _ _ _ => .trans) _
    (fun _ t => (settingFrame_setFld t _ _).trans (settingFrame_setFld _ _ _)) 3 s

theorem State.settingFrame_applyOtp (bid : BitVec 2) (wired : BitVec 3) :
    SettingFrame { s with grants := BitVec.ofNat 11 s.otp.grant.toNat } (s.applyOtp bid wired) := by
  rw [State.applyOtp_eq]
  exact ((settingFrame_showRows _ bid).trans (settingFrame_showPorts _ bid wired)).trans (settingFrame_selectSettings _)

theorem State.reg_showPorts (bid : BitVec 2) (wired : BitVec 3) : (s.showPorts bid wired).reg SYS_POS = s.reg SYS_POS := by
  refine forAll_rel (fun a b => b.reg SYS_POS = a.reg SYS_POS) (fun _ => rfl) (fun _ _ _ h h' => h'.trans h) _ (fun p t => ?_) 3 s
  have hp : SYS_POS ≠ SLK_PORT p := by
    simp only [SYS_POS, SLK_PORT]
    omega
  exact (State.reg_setFld_ne _ _ hp).trans (t.reg_setFld_ne _ hp)

theorem State.reg_selectSettings_none (h : s.topGen = none) : s.selectSettings.reg SYS_POS = s.reg SYS_POS := by
  have hshow (t : State) : (t.showOtp 0 false).reg SYS_POS = t.reg SYS_POS := by
    unfold State.showOtp
    rw [State.reg_setFld_ne _ _ (by decide), State.reg_setFld_ne _ _ (by decide), State.reg_setFld_ne _ _ (by decide),
      State.reg_setFld_ne _ _ (by decide), State.reg_setFld_ne _ _ (by decide)]
  unfold State.selectSettings
  rw [h]
  exact (hshow _).trans (s.reg_setFlagIf_ne _ (by decide))

/-- The board position is shown where no generation is sealed. -/
theorem State.pos_applyOtp (bid : BitVec 2) (wired : BitVec 3) (h : s.topGen = none) : (s.applyOtp bid wired).fld SYS_POS_POS = bid.toNat := by
  rw [State.applyOtp_eq]
  generalize hs1 : ({ s with grants := BitVec.ofNat 11 s.otp.grant.toNat } : State) = s1
  have hotp : ((s1.showRows bid).showPorts bid wired).otp = s.otp := by
    rw [(settingFrame_showRows s1 bid).trans (settingFrame_showPorts _ bid wired), ← hs1]
  have htop : ((s1.showRows bid).showPorts bid wired).topGen = none := by
    rw [← h]
    simp only [State.topGen, State.genOf, hotp]
  refine (State.fld_of_reg (f := SYS_POS_POS) (State.reg_selectSettings_none _ htop)).trans ?_
  refine (State.fld_of_reg (f := SYS_POS_POS) (State.reg_showPorts _ bid wired)).trans ?_
  exact State.fld_setFld _ SYS_POS_POS (m := 4) bid.isLt

/-- The read-back of VCORE is shown, and its request counted. -/
def State.readVcore (s : State) (vread : Option (BitVec 16)) : State :=
  match vread with
  | some v => (s.count PMB_CNT_REQ_CNT).setReg PMB_VREAD (BitVec.ofNat 32 v.toNat)
  | none => s.count PMB_CNT_REQ_CNT

theorem State.bootVcore_good {v : BitVec 16} (hhi : v.toNat ≤ s.otp.vRun + 15) (hlo : s.otp.vRun ≤ v.toNat + 15) :
    s.bootVcore (some v) = ({ s.readVcore (some v) with
      dev := { s.dev with inReset := false }, boot := { s.boot with vcoreBad := false } } : State).readBootRecord := by
  unfold State.bootVcore
  dsimp only
  rw [if_pos (decide_eq_true ⟨hhi, hlo⟩)]
  simp [State.readVcore]

/-- The boot unit of a device that waits for its core supply. -/
def State.markVcoreBad (s : State) : State := { s with boot := { s.boot with vcoreBad := true } }

/-- A read-back that the regulator does not answer is flagged and counted. -/
def State.vcoreUnanswered (s : State) : State := ((s.count PMB_CNT_REQ_CNT).setFlag PMB_FLAGS_REG_NO_ACK).count PMB_CNT_NO_ACK_CNT

theorem State.markVcoreBad_leaves (f : Fld) :
    s.markVcoreBad.dev = s.dev ∧ s.markVcoreBad.boot.vcoreBad = true ∧ s.markVcoreBad.flag f = s.flag f := ⟨rfl, rfl, rfl⟩

theorem State.vcoreUnanswered_leaves : s.vcoreUnanswered.dev = s.dev ∧ s.vcoreUnanswered.flag PMB_FLAGS_REG_NO_ACK = true :=
  ⟨by simp [State.vcoreUnanswered],
    (State.flag_count_addr _ (g := PMB_FLAGS_REG_NO_ACK) (by decide)).trans (State.flag_setFlag _ PMB_FLAGS_REG_NO_ACK)⟩

theorem State.bootVcore_none : s.bootVcore none = s.vcoreUnanswered.markVcoreBad := by
  simp [State.bootVcore, State.setFlagIf, State.markVcoreBad, State.vcoreUnanswered]

/-- A boot record that is sound and not in trial stays. -/
theorem State.readBootRecord_sound (hok : s.flash.recordOk = true) (ht : s.flash.trial = false) :
    s.readBootRecord = { s with boot := { s.boot with checking := some s.flash.preferred, second := false } } := by
  unfold State.readBootRecord
  dsimp only
  rw [hok, ht]
  rfl

theorem State.readBootRecord_dev : s.readBootRecord.dev = s.dev ∧ s.readBootRecord.boot.vcoreBad = s.boot.vcoreBad := by
  unfold State.readBootRecord
  dsimp only
  rw [State.setFlagIf_eq]
  exact ⟨rfl, rfl⟩

/-- A reset source where none is in force. -/
theorem State.deviceReset_first (cause : Nat) (h : s.dev.inReset = false) : s.deviceReset cause = s.enterReset cause :=
  if_neg (by simp [h])

theorem State.reg_readVcore (vread : Option (BitVec 16)) {a : Nat} (hc : a ≠ PMB_CNT) (hv : a ≠ PMB_VREAD) :
    (s.readVcore vread).reg a = s.reg a := by
  unfold State.readVcore
  split
  · exact (State.reg_setReg_ne _ _ hv).trans (s.reg_count_ne hc)
  · exact s.reg_count_ne hc

/-- What the read-back leaves: all but its register and its count. -/
theorem State.readVcore_keeps (vread : Option (BitVec 16)) : (s.readVcore vread).now = s.now ∧ (s.readVcore vread).grants = s.grants ∧
    (s.readVcore vread).flash = s.flash ∧ (s.readVcore vread).dev = s.dev := by
  unfold State.readVcore
  split <;> simp

/-- The end of a reset: the rows and the position are in force when the core supply is read back. -/
theorem State.resetEnd_applied (bid : BitVec 2) (wired : BitVec 3) (vread : Option (BitVec 16)) (h : s.dev.inReset = true)
    (hv : s.boot.vcoreBad = false) : ∃ t : State, exec (.resetEnd bid wired vread) s = .next (t.bootVcore vread) ∧
      SettingFrame { s with now := 0, grants := BitVec.ofNat 11 s.otp.grant.toNat } t ∧
      (s.topGen = none → t.fld SYS_POS_POS = bid.toNat) := by
  refine ⟨({ s with now := 0 } : State).applyOtp bid wired, congrArg Host.Outcome.next (if_pos (by simp [h, hv])),
    State.settingFrame_applyOtp { s with now := 0 } bid wired, fun htop => State.pos_applyOtp { s with now := 0 } bid wired htop⟩

/-- Settles O51: a reset clears all but what R446 and R447 name, and its end brings the rows into force. -/
theorem deviceReset : Obligations.DeviceReset := by
  refine fun s => ⟨fun h => ⟨?_, ?_, ?_⟩, fun h hret hact => ?_, fun h hv => ?_, fun cause hc hreq => ?_, fun bid wired v h hv hhi hlo hok ht => ?_,
    fun bid wired h hv => ?_, fun v h hv hhi hlo => ?_⟩
  · exact congrArg (fun t : State => Host.Outcome.next t.readVsel) (s.deviceReset_first 0 h)
  · exact congrArg Host.Outcome.next (s.deviceReset_first 1 h)
  · exact congrArg (fun t : State => Host.Outcome.next t.readVsel) (s.deviceReset_first 2 h)
  · exact congrArg Host.Outcome.next ((if_neg (by simp [hret, hact])).trans (s.deviceReset_first 3 h))
  · exact congrArg Host.Outcome.next (if_pos (by simp [h, hv]))
  · obtain ⟨hin, hotp, hflash, hmem, hstn, hpend, hva, hvb⟩ := s.enterReset_leaves cause hreq
    exact ⟨State.reg_setReg_self _ _ _, fun a ha => s.reg_enterReset hreq ha, hin, hotp, hflash, hmem, hstn, hpend, hva, hvb,
      fun x hx => s.sinOf_enterReset cause hreq hx⟩
  · obtain ⟨t, hend, hframe, hpos⟩ := s.resetEnd_applied bid wired (some v) h hv
    obtain ⟨hnow, hgrants, hkept, -⟩ := t.readVcore_keeps (some v)
    have hflash : t.flash = s.flash := by rw [hframe]
    have hotp : t.otp = s.otp := by rw [hframe]
    have hreg := t.reg_readVcore (some v) (a := SYS_POS) (by decide) (by decide)
    rw [t.bootVcore_good (by rwa [hotp]) (by rwa [hotp])] at hend
    generalize t.readVcore (some v) = u at hend hnow hgrants hkept hreg
    rw [State.readBootRecord_sound] at hend
    · refine ⟨_, hend, rfl, hnow.trans (by rw [hframe]), hgrants.trans (by rw [hframe]),
        congrArg (fun f => some (FlashUnit.preferred f)) (hkept.trans hflash), fun htop => ?_⟩
      · exact (State.fld_of_reg (f := SYS_POS_POS) hreg).trans (hpos htop)
    · exact (congrArg FlashUnit.recordOk (hkept.trans hflash)).trans hok
    · exact (congrArg FlashUnit.trial (hkept.trans hflash)).trans ht
  · obtain ⟨t, hend, hframe, -⟩ := s.resetEnd_applied bid wired none h hv
    have hdev : t.dev = s.dev := by rw [hframe]
    obtain ⟨hkept, hflag⟩ := t.vcoreUnanswered_leaves
    obtain ⟨hdev', hbad, hflag'⟩ := t.vcoreUnanswered.markVcoreBad_leaves PMB_FLAGS_REG_NO_ACK
    rw [t.bootVcore_none] at hend
    exact ⟨_, hend, by rw [hdev', hkept, hdev, h], hbad, hflag'.trans hflag⟩
  · obtain ⟨hdev, hbad⟩ := State.readBootRecord_dev ({ s.readVcore (some v) with
      dev := { s.dev with inReset := false }, boot := { s.boot with vcoreBad := false } } : State)
    refine ⟨_, congrArg Host.Outcome.next ((if_pos (by simp [h, hv])).trans (s.bootVcore_good hhi hlo)), ?_, hbad⟩
    rw [hdev]

end Sys2Proof.Machine
end

section
/-! O53: voltage requests, power states, sleep and wake. -/

namespace Sys2Proof.Machine

variable (s : State)

/-! ### A status reply of the regulator (R432) -/

/-- What a status reply whose CRC holds shows of VDone and the read-back. -/
def State.showReply (s : State) (vread : Nat) : State :=
  (s.setFld PMB_LAST_T_DONE (min (ticksUs (s.now - s.power.writtenAt)) 65535)).setFld PMB_VREAD_VOUT (min vread 65535)

/-- The read-back lies within 15 mV of the request. -/
def nearVolts (v vread : Nat) : Bool := decide (vread ≤ v + 15 ∧ v ≤ vread + 15)

theorem State.pollStatus_eq {v : Nat} (h : s.power.active = some v) (vread : Nat) : s.pollStatus true true vread =
    if nearVolts v vread && decide (s.now - s.power.writtenAt ≤ usTicks 2000) then
      ({ s.showReply vread with power := { s.power with active := none, outside := false } } : State).setFld PMB_STATUS_TARGET v
    else { s.showReply vread with power := { s.power with outside := !nearVolts v vread } } := by
  unfold State.pollStatus
  rw [h]
  rfl

theorem State.fld_showReply (vread : Nat) : (s.showReply vread).fld PMB_VREAD_VOUT = min vread 65535 ∧
    (s.showReply vread).fld PMB_LAST_T_DONE = min (ticksUs (s.now - s.power.writtenAt)) 65535 ∧
    (s.showReply vread).fld PMB_STATUS_TARGET = s.fld PMB_STATUS_TARGET := by
  have hcap (n : Nat) : min n 65535 < 65536 := by omega
  unfold State.showReply
  refine ⟨State.fld_setFld _ PMB_VREAD_VOUT (hcap vread), ?_, ?_⟩
  · exact (State.fld_setFld_addr _ _ (by decide)).trans (State.fld_setFld s PMB_LAST_T_DONE (hcap _))
  · exact (State.fld_setFld_addr _ _ (by decide)).trans (State.fld_setFld_addr s _ (by decide))

/-- A read-back that agrees in time ends the request. -/
theorem State.pollStatus_agrees {v : Nat} {vread : BitVec 16} (h : s.power.active = some v) (hv : v < 65536) (hhi : vread.toNat ≤ v + 15)
    (hlo : v ≤ vread.toNat + 15) (ht : s.now ≤ s.power.writtenAt + 800000) :
    ∃ t : State, s.pollStatus true true vread.toNat = t ∧ t.power.active = none ∧ t.fld PMB_STATUS_TARGET = v ∧
      t.fld PMB_VREAD_VOUT = vread.toNat ∧ t.fld PMB_LAST_T_DONE = min ((s.now - s.power.writtenAt) / 400) 65535 := by
  obtain ⟨hread, hdone, -⟩ := s.fld_showReply vread.toNat
  have hnear : (nearVolts v vread.toNat && decide (s.now - s.power.writtenAt ≤ usTicks 2000)) = true := by
    have hin : s.now - s.power.writtenAt ≤ usTicks 2000 := Nat.sub_le_iff_le_add'.mpr ht
    rw [nearVolts, decide_eq_true ⟨hhi, hlo⟩, decide_eq_true hin, Bool.and_self]
  have hmin : min vread.toNat 65535 = vread.toNat := by omega
  have hpower (t : State) (p : PowerUnit) (f : Fld) : ({ t with power := p } : State).fld f = t.fld f := rfl
  refine ⟨_, (s.pollStatus_eq h vread.toNat).trans (if_pos hnear), rfl, State.fld_setFld _ PMB_STATUS_TARGET hv, ?_, ?_⟩
  · rw [State.fld_setFld_addr _ _ (by decide), hpower, hread, hmin]
  · rw [State.fld_setFld_addr _ _ (by decide), hpower, hdone, ticksUs]

/-- Any other read-back leaves the request and the target. -/
theorem State.pollStatus_waits {v : Nat} {vread : BitVec 16} (h : s.power.active = some v)
    (hno : (nearVolts v vread.toNat && decide (s.now - s.power.writtenAt ≤ usTicks 2000)) = false) :
    ∃ t : State, s.pollStatus true true vread.toNat = t ∧ t.power.active = some v ∧ t.power.outside = !nearVolts v vread.toNat ∧
      t.fld PMB_STATUS_TARGET = s.fld PMB_STATUS_TARGET :=
  ⟨_, (s.pollStatus_eq h vread.toNat).trans (if_neg (by rw [hno]; decide)), h, rfl, (s.fld_showReply vread.toNat).2.2⟩

/-! ### A wake -/

/-- The discovery of the ring ports changes registers of the rings and the ports alone. -/
structure DiscoverFrame (s t : State) : Prop where
  rest : t = { s with regs := t.regs, ports := t.ports }
  reg : ∀ a, a < 0x200000 → t.reg a = s.reg a

theorem DiscoverFrame.trans {a b c : State} (h : DiscoverFrame a b) (h' : DiscoverFrame b c) : DiscoverFrame a c :=
  ⟨by rw [h'.rest, h.rest], fun x hx => (h'.reg x hx).trans (h.reg x hx)⟩

/-- A field changes registers alone. -/
theorem State.setFld_regs (f : Fld) (v : Nat) : s.setFld f v = { s with regs := (s.setFld f v).regs, ports := (s.setFld f v).ports } := rfl

theorem discoverFrame_sendEnum (q : Nat) : DiscoverFrame s (s.sendEnum q 0 0 0) := by
  refine ⟨?_, fun a _ => State.reg_sendEnum _ q 0 0 0 a⟩
  unfold State.sendEnum
  rw [(planFrame_sendFrame _ q 0 _).1]
  rfl

theorem discoverFrame_startDiscovery (q : Nat) : DiscoverFrame s (s.startDiscovery q) := by
  unfold State.startDiscovery
  split
  · have hstate : DiscoverFrame s (s.setPortState q 2) := by
      refine ⟨s.setFld_regs (pq AQR_STATE_STATE q) 2, fun a ha => s.reg_setFld_ne 2 ?_⟩
      simp only [pq, AQR_STATE_STATE, AQR_STATE]
      omega
    exact hstate.trans (discoverFrame_sendEnum _ q)
  · exact ⟨rfl, fun _ _ => rfl⟩

theorem discoverFrame_discoverAll : DiscoverFrame s s.discoverAll :=
  forAll_rel DiscoverFrame (fun _ => ⟨rfl, fun _ _ => rfl⟩) (fun _ _ _ => .trans) _ (fun q t => discoverFrame_startDiscovery t q) 64 s

/-- Nothing has changed but registers, and the clock and what the PLLs make of it. -/
def ClockFrame (s t : State) : Prop := t = { s with regs := t.regs, clock := t.clock, clk := t.clk }

theorem ClockFrame.trans {a b c : State} (h : ClockFrame a b) (h' : ClockFrame b c) : ClockFrame a c := by
  unfold ClockFrame at *
  rw [h', h]

theorem clockFrame_setFld (f : Fld) (v : Nat) : ClockFrame s (s.setFld f v) := rfl

/-- The clock with the ticks of the sleep added. -/
def State.clockThawed (s : State) (c : Clock) : State := { s with clock := c }

/-- The PLLs, with none of their losses left. -/
def State.pllsFound (s : State) (c : ClkUnit) : State := { s with clk := c }

theorem clockFrame_clockThawed (c : Clock) : ClockFrame s (s.clockThawed c) := rfl

theorem clockFrame_pllsFound (c : ClkUnit) : ClockFrame s (s.pllsFound c) := rfl

theorem clockFrame_setReg (a : Nat) (v : Word) : ClockFrame s (s.setReg a v) := rfl

theorem State.resumeClock_eq : s.resumeClock = s ∨ ∃ c n, s.resumeClock =
    (((s.clockThawed c).setReg TIM_LAST_SLEEP n).setFld TIM_STATUS_TIME_ESTIMATED 1).setFld TIM_FLAGS_WAKE_ADDED 1 := by
  unfold State.resumeClock
  split
  · exact .inl rfl
  · exact .inr ⟨_, _, rfl⟩

theorem clockFrame_resumeClock : ClockFrame s s.resumeClock := by
  obtain h | ⟨c, n, h⟩ := s.resumeClock_eq
  · rw [h]
    rfl
  · rw [h]
    exact ((clockFrame_clockThawed s c).trans (clockFrame_setReg _ TIM_LAST_SLEEP n)).trans
      ((clockFrame_setFld _ TIM_STATUS_TIME_ESTIMATED 1).trans (clockFrame_setFld _ TIM_FLAGS_WAKE_ADDED 1))

theorem State.clocksNormal_eq : ∃ c : ClkUnit, s.clocksNormal = (((((s.pllsFound c).setFld (CLK_PRESENT 0) 1).setFld (CLK_PRESENT 1) 1).setFld
    (CLK_DIG_LOCK 0) 1).setFld (CLK_DIG_LOCK 1) 1).setFld CLK_STATUS_SRC_B 64 :=
  ⟨{ s.clk with lostA := false, lostB := false, startedA := false, startedB := false, moving := 0 }, rfl⟩

theorem clockFrame_clocksNormal : ClockFrame s s.clocksNormal := by
  obtain ⟨c, h⟩ := s.clocksNormal_eq
  rw [h]
  exact (((clockFrame_pllsFound s c).trans (clockFrame_setFld _ (CLK_PRESENT 0) 1)).trans (clockFrame_setFld _ (CLK_PRESENT 1) 1)).trans
    (((clockFrame_setFld _ (CLK_DIG_LOCK 0) 1).trans (clockFrame_setFld _ (CLK_DIG_LOCK 1) 1)).trans
      (clockFrame_setFld _ CLK_STATUS_SRC_B 64))

/-- A wake whose check has passed: RUN, WOKE, and no bank that failed. -/
def State.inRun (s : State) : State := (s.clocksNormal.setFld PWR_STATUS_STATE 0).setFld PWR_FLAGS_WOKE 1

/-- The check of the banks, none of which failed. -/
def State.banksPassed (s : State) : State :=
  (s.setFld PWR_STATUS_BANK_FAIL (s.fld PWR_STATUS_BANK_FAIL ||| 0)).countBy PWR_CNT_BANK_FAIL_CNT 0

theorem clockFrame_inRun : ClockFrame s s.inRun :=
  (clockFrame_clocksNormal s).trans ((clockFrame_setFld _ PWR_STATUS_STATE 0).trans (clockFrame_setFld _ PWR_FLAGS_WOKE 1))

theorem clockFrame_banksPassed : ClockFrame s s.banksPassed :=
  (clockFrame_setFld s PWR_STATUS_BANK_FAIL _).trans (clockFrame_setFld _ PWR_CNT_BANK_FAIL_CNT _)

theorem State.inRun_shows : s.inRun.banksPassed.fld PWR_STATUS_STATE = 0 ∧ s.inRun.banksPassed.flag PWR_FLAGS_WOKE = true := by
  have hstate : s.inRun.fld PWR_STATUS_STATE = 0 :=
    (State.fld_setFld_addr _ _ (by decide)).trans (State.fld_setFld _ PWR_STATUS_STATE (by decide : 0 < 4))
  have hwoke : s.inRun.flag PWR_FLAGS_WOKE = true := State.flag_setFlag _ PWR_FLAGS_WOKE
  generalize s.inRun = t at hstate hwoke
  unfold State.banksPassed State.countBy
  constructor
  · rw [State.fld_setFld_addr _ _ (by decide), State.fld_setFld_elsewhere t PWR_STATUS_BANK_FAIL PWR_STATUS_STATE, hstate]
  · rw [State.flag_setFld_addr _ _ (by decide), State.flag_setFld_addr _ _ (by decide), hwoke]

/-- A wake that no bank hinders ends in RUN. -/
theorem exec_wakeComplete (hst : s.fld PWR_STATUS_STATE = 3) (hw : s.power.want = none) (ha : s.power.active = none)
    (ht : s.fld PMB_STATUS_TARGET = s.fld PMB_STATUS_V_RUN) :
    exec (.wakeComplete 0) s =
      .next ({ s with dev := { s.dev with retain := false } } : State).resumeClock.inRun.banksPassed.discoverAll := by
  have hbad : (List.range 16).filter (fun b => (0 : BitVec 16).getLsbD b) = [] := by simp
  refine congrArg Host.Outcome.next ((if_pos (by simp [hst, hw, ha, ht])).trans ?_)
  rw [hbad]
  rfl

theorem State.wakeComplete_leaves : ∃ t : State,
    ({ s with dev := { s.dev with retain := false } } : State).resumeClock.inRun.banksPassed.discoverAll = t ∧
      t.dev.retain = false ∧ t.fld PWR_STATUS_STATE = 0 ∧ t.flag PWR_FLAGS_WOKE = true ∧ t.stn = s.stn ∧ t.mem = s.mem := by
  obtain ⟨hstate, hwoke⟩ := ({ s with dev := { s.dev with retain := false } } : State).resumeClock.inRun_shows
  have hclock := (clockFrame_resumeClock { s with dev := { s.dev with retain := false } }).trans
    ((clockFrame_inRun _).trans (clockFrame_banksPassed _))
  generalize ({ s with dev := { s.dev with retain := false } } : State).resumeClock.inRun.banksPassed = t at *
  obtain ⟨heq, hreg⟩ := discoverFrame_discoverAll t
  refine ⟨_, rfl, ?_, ?_, ?_, ?_, ?_⟩
  · rw [heq, hclock]
  · rw [State.fld_of_reg (hreg _ (by decide)), hstate]
  · rw [State.flag_of_reg (hreg _ (by decide)), hwoke]
  · rw [heq, hclock]
  · rw [heq, hclock]

/-- What a request of the sequencer writes. -/
def State.avsWrite (s : State) (v : Nat) : State :=
  ({ s with power := { s.power with want := none, active := some v, writtenAt := s.now, outside := false } } : State).count PMB_CNT_REQ_CNT

theorem exec_avsVoltageRequest {v : Nat} (h : s.power.want = some v) : exec .avsVoltageRequest s =
    .next (if s.fld PWR_STATUS_STATE = 2 && (!s.clock.frozen || s.clock.thaw) then
      { s.avsWrite v with clock := (s.avsWrite v).clock.freeze (s.reg TIM_INCR).toNat } else s.avsWrite v) := by
  show execAvsVoltageRequest s = _
  rw [execAvsVoltageRequest, h]
  rfl

/-- An entry to RETAIN freezes the local clock with the request. -/
theorem exec_avsVoltageRequest_freezes {v : Nat} (h : s.power.want = some v) (hst : s.fld PWR_STATUS_STATE = 2)
    (hf : s.clock.frozen = false) : ∃ t, exec .avsVoltageRequest s = .next t ∧ t.power.active = some v ∧ t.clock.frozen = true ∧
      t.clock.aonAtSleep = (s.clock.aon + 1) % 2 ^ 48 :=
  ⟨_, (exec_avsVoltageRequest s h).trans (congrArg Host.Outcome.next (if_pos (by simp [hst, hf]))),
    by simp [State.avsWrite], rfl, by simp [State.avsWrite, Clock.freeze]⟩

/-- Every granted station that is at rest lets STANDBY begin. -/
theorem State.all_quiet (h : ∀ n, n < 4 → s.grantS n = true → s.flag (GFM_CTRL_RUN_REQ n) = false ∧
    ((s.stnOf n).st = .disabled ∨ (s.stnOf n).st = .ready ∨ (s.stnOf n).st = .tripped)) : (List.range 4).all (s.quiet true) = true := by
  refine List.all_eq_true.mpr fun n hn => ?_
  cases hg : s.grantS n with
  | false => simp [State.quiet, hg]
  | true =>
    obtain ⟨hrun, hst⟩ := h n (List.mem_range.mp hn) hg
    rcases hst with hst | hst | hst <;> simp [State.quiet, hrun, hst]

/-! ### Wake events -/

/-- What a permit of the safety inputs records as a wake. -/
theorem exec_wakeEvent (q : Fin 64) (h : s.fld PWR_STATUS_STATE = 2) : exec (.wakeEvent 0 q) s =
    .next (if s.dev.retain then (s.setFld PWR_WAKE_SRC_SIN 1).beginWake else
      ({ s.setFld PWR_WAKE_SRC_SIN 1 with power := { s.power with wakeLatched := true } } : State).setFlag
        PWR_FLAGS_WAKE_DURING_ENTRY) := by
  show execWakeEvent 0 q s = _
  unfold execWakeEvent
  rw [if_neg (by simp [h, State.wakeEnabled]), h]
  rfl

theorem exec_wakeEvent_wakes (q : Fin 64) (h : s.fld PWR_STATUS_STATE = 2) (hd : s.dev.retain = true) :
    ∃ t, exec (.wakeEvent 0 q) s = .next t ∧ t.fld PWR_STATUS_STATE = 3 ∧ t.flag PWR_WAKE_SRC_SIN = true ∧
      t.power.want = some (s.fld PMB_STATUS_V_RUN) := by
  have hsrc : (s.setFld PWR_WAKE_SRC_SIN 1).flag PWR_WAKE_SRC_SIN = true := State.flag_setFlag s PWR_WAKE_SRC_SIN
  have hv : (s.setFld PWR_WAKE_SRC_SIN 1).fld PMB_STATUS_V_RUN = s.fld PMB_STATUS_V_RUN := State.fld_setFld_addr _ _ (by decide)
  refine ⟨_, (exec_wakeEvent s q h).trans (congrArg Host.Outcome.next (if_pos hd)), ?_, ?_, congrArg some hv⟩
  · exact State.fld_setFld (s.setFld PWR_WAKE_SRC_SIN 1) PWR_STATUS_STATE (by decide : 3 < 4)
  · exact (State.flag_setFld_addr (s.setFld PWR_WAKE_SRC_SIN 1) 3 (by decide)).trans hsrc

theorem exec_wakeEvent_latched (q : Fin 64) (h : s.fld PWR_STATUS_STATE = 2) (hd : s.dev.retain = false) :
    ∃ t, exec (.wakeEvent 0 q) s = .next t ∧ t.power.wakeLatched = true ∧ t.flag PWR_FLAGS_WAKE_DURING_ENTRY = true :=
  ⟨_, (exec_wakeEvent s q h).trans (congrArg Host.Outcome.next (if_neg (by simp [hd]))), rfl,
    State.flag_setFlag _ PWR_FLAGS_WAKE_DURING_ENTRY⟩

/-- The regulator (R431 to R433). -/
theorem supply_clauses (v : Nat) :
    (s.power.want = some v → s.fld PWR_STATUS_STATE ≠ 2 →
      exec .avsVoltageRequest s =
        .next (({ s with power := { s.power with want := none, active := some v, writtenAt := s.now, outside := false } } :
          State).count PMB_CNT_REQ_CNT)) ∧
    (s.power.active = some v → s.fld PWR_STATUS_STATE ≠ 2 →
      exec .avsRequestFailed s =
        .next ((((({ s with power := { s.power with active := none } } : State).setFlag PMB_FLAGS_REG_NO_ACK).count
          PMB_CNT_NO_ACK_CNT).setFlagIf s.power.outside PMB_FLAGS_REG_VOUT_ERR))) := by
  constructor
  · intro h hst
    exact (exec_avsVoltageRequest s h).trans (congrArg Host.Outcome.next (if_neg (by simp [hst])))
  · intro h hst
    show execAvsRequestFailed s = _
    unfold execAvsRequestFailed
    rw [if_neg (by simp [h])]
    exact congrArg Host.Outcome.next (if_neg (by simp [hst]))

/-- Settles O53: a request and its polls by what a status reply shows, the power states by their conditions, and a wake by
the frames of the clock's resumption and of the rings' discovery. -/
theorem supplyAndPower : Obligations.SupplyAndPower := by
  unfold Obligations.SupplyAndPower
  refine ⟨fun s v => ⟨(supply_clauses s v).1, exec_avsVoltageRequest_freezes s, fun h => ⟨?_, ?_, ?_, ?_, ?_, (supply_clauses s v).2 h⟩⟩,
    fun i s => ⟨?_, ?_, ?_, ?_, ?_, ?_, ?_,
      fun h hd q => exec_wakeEvent_wakes s q h hd,
      fun h hd q => exec_wakeEvent_latched s q h hd, ?_, ?_⟩⟩
  · intro vdone vread
    show Host.Outcome.next (s.pollStatus false vdone vread.toNat) = _
    rw [State.pollStatus, h]
    rfl
  · intro vread
    show Host.Outcome.next (s.pollStatus true false vread.toNat) = _
    rw [State.pollStatus, h]
    rfl
  · intro vread hv hhi hlo ht
    obtain ⟨t, hrun, hleaves⟩ := s.pollStatus_agrees h hv hhi hlo ht
    exact ⟨t, congrArg Host.Outcome.next hrun, hleaves⟩
  · intro vread hhi hlo ht
    have hlate : decide (s.now - s.power.writtenAt ≤ usTicks 2000) = false :=
      decide_eq_false (by unfold usTicks; omega)
    have hnear : nearVolts v vread.toNat = true := decide_eq_true ⟨hhi, hlo⟩
    obtain ⟨t, hrun, ha, hout, hfld⟩ := s.pollStatus_waits (vread := vread) h (by rw [hlate, Bool.and_false])
    exact ⟨t, congrArg Host.Outcome.next hrun, ha, by rw [hout, hnear]; rfl, hfld⟩
  · intro vread hfar
    have hnear : nearVolts v vread.toNat = false := decide_eq_false (by omega)
    obtain ⟨t, hrun, ha, hout, hfld⟩ := s.pollStatus_waits (vread := vread) h (by rw [hnear, Bool.false_and])
    exact ⟨t, congrArg Host.Outcome.next hrun, ha, by rw [hout, hnear]; rfl, hfld⟩
  · intro hc ht
    exact (ezCommand_run hc).trans (by rw [if_neg (by omega), if_neg (by omega)])
  · intro hc ht hst
    exact (ezCommand_run hc).trans (by rw [if_neg (by omega), if_pos hst])
  · intro hc ht hst hq
    exact (ezCommand_run hc).trans (by rw [if_neg (by omega), if_neg hst, if_neg (by simp [s.all_quiet hq])])
  · intro hc ht hr
    exact (ezCommand_run hc).trans (by rw [if_neg (by omega), hr])
  · intro d hc ht hr
    exact ⟨_, (ezCommand_run hc).trans (by rw [if_neg (by omega), hr])⟩
  · intro hc
    exact ezCommand_run hc
  · intro hst hd hf hth ht hw
    exact congrArg Host.Outcome.next ((if_pos (by simp [hst, hd, hf, hth, ht])).trans (if_neg (by simp [hw])))
  · intro hst src q
    exact congrArg Host.Outcome.next (if_pos (by simp; omega))
  · intro hst hw ha
    refine ⟨fun ht => ?_, fun ht => congrArg Host.Outcome.next (if_pos (by simp [hst, hw, ha, ht]))⟩
    obtain ⟨t, hrun, hleaves⟩ := s.wakeComplete_leaves
    exact ⟨t, (exec_wakeComplete s hst hw ha ht).trans (congrArg Host.Outcome.next hrun), hleaves⟩

end Sys2Proof.Machine
end

section
/-! O55: what a Sundlink peer asks for, distribution and recovery. -/

namespace Sys2Proof.Machine

variable (s : State)

/-! ### Arrival of a packet (R454, R455) -/

/-- A sound packet on a port that is UP is acknowledged and has its effect. -/
theorem slkArrive_taken {s : State} {p : Fin 3} {h : SlkHdr} (ht : PacketTaken s p h) (f : State → State) :
    slkArrive s p h true f = .next (f (acked s p h)) := by
  obtain ⟨hr, hon, hst, hcrc⟩ := ht
  have hup : s.slkUp p = true := by simp [State.slkUp, hst]
  unfold slkArrive
  refine (whenDev_run s hr).trans (congrArg Host.Outcome.next ?_)
  rw [if_neg (by simp [State.slkCarries, hon, hup]), if_neg (by simp [hcrc])]
  exact if_pos hup

/-- ACK and NAK are not acknowledged. -/
theorem slkArrive_unanswered {s : State} {p : Fin 3} {h : SlkHdr} (ht : PacketTaken s p h) (f : State → State) :
    slkArrive s p h false f = .next (f s) := by
  obtain ⟨hr, hon, hst, hcrc⟩ := ht
  have hup : s.slkUp p = true := by simp [State.slkUp, hst]
  unfold slkArrive
  refine (whenDev_run s hr).trans (congrArg Host.Outcome.next ?_)
  rw [if_neg (by simp [State.slkCarries, hon, hup]), if_neg (by simp [hcrc])]
  exact if_pos hup

/-- Nothing has changed but the link ports. -/
def SlkFrame (s t : State) : Prop := t = { s with slkPort := t.slkPort }

theorem slkFrame_onSlkPort (p : Nat) (f : SlkPort → SlkPort) : SlkFrame s (s.onSlkPort p f) := rfl

theorem slkFrame_slkSend (p typ tag : Nat) (payload : List Byte) : SlkFrame s (s.slkSend p typ tag payload) := rfl

theorem slkFrame_acked (p : Fin 3) (h : SlkHdr) : SlkFrame s (acked s p h) := rfl

theorem SlkFrame.trans {a b c : State} (h : SlkFrame a b) (h' : SlkFrame b c) : SlkFrame a c := by
  unfold SlkFrame at *
  rw [h', h]

theorem State.bytes_onSlkPort (p : Nat) (f : SlkPort → SlkPort) (a n : Nat) : (s.onSlkPort p f).bytes a n = s.bytes a n :=
  State.bytes_of_byte _ _ fun _ _ => State.byte_of_mem rfl _

theorem State.base_acked (p : Fin 3) (h : SlkHdr) : ((acked s p h).slkPortOf p).base = (s.slkPortOf p).base := by
  simp [acked, State.slkSend]

/-! ### Images (R461) -/

/-- The image from a peer is taken as checked. -/
theorem exec_slkDataEnd_image {p : Fin 3} {h : SlkHdr} {len : Nat} {hash : List Byte} (ht : PacketTaken s p h) (hin : len ≤ 25165824)
    (hbase : (s.slkPortOf p).base = some 0) (hhash : Config.sha384 (s.staged 0 len) = hash) (readback : List Byte) (body : ImageBody) :
    exec (.slkDataEnd p h 3 len hash readback body) s =
      .next (((acked s p h).onSlkPort p (fun u => { u with base := none })).peerImage p h.tag (s.staged 0 len) body) := by
  show execSlkDataEnd p h 3 len hash readback body s = _
  refine (slkArrive_taken ht _).trans (congrArg Host.Outcome.next ?_)
  rw [s.base_acked, hbase]
  dsimp only [Option.getD_some]
  rw [stageRange_of_le (by omega), if_neg (by simp)]
  have hstaged : (acked s p h).staged 0 len = s.staged 0 len := State.bytes_of_byte _ _ (fun _ _ => State.byte_of_mem rfl _)
  rw [hstaged, hhash, if_neg (by simp), if_neg (by decide)]

theorem State.peerImage_taken {bs : List Byte} {body : ImageBody} (hsw : s.swapping = false) (hk : s.imageCheck 3 bs = 0)
    (hhead : headerOk (imgPayload bs) body = true) (himg : imageRefused (imageOfPayload (imgPayload bs) body) = false) (p tag : Nat) :
    s.peerImage p tag bs body = (s.loadImage (imageOfPayload (imgPayload bs) body)).slkResult p tag 0 0 0 := by
  unfold State.peerImage
  simp only [hsw, hk, hhead, himg]
  rfl

theorem State.peerImage_refused {bs : List Byte} (hsw : s.swapping = false) (hk : s.imageCheck 3 bs ≠ 0) (body : ImageBody) (p tag : Nat) :
    (s.peerImage p tag bs body).flag SEC_FLAGS_IMAGE_REFUSED = true ∧ (s.peerImage p tag bs body).banksA = s.banksA ∧
      (s.peerImage p tag bs body).banksB = s.banksB := by
  unfold State.peerImage
  dsimp only
  rw [hsw, if_neg (by decide), if_pos hk]
  have hflag := s.flag_setFlag SEC_FLAGS_IMAGE_REFUSED
  have hbanks : (s.setFlag SEC_FLAGS_IMAGE_REFUSED).banksA = s.banksA ∧ (s.setFlag SEC_FLAGS_IMAGE_REFUSED).banksB = s.banksB := by simp
  generalize s.setFlag SEC_FLAGS_IMAGE_REFUSED = t at hflag hbanks ⊢
  exact ⟨hflag, hbanks⟩

/-! ### Restarts (R398, R447) -/

theorem State.restartAt_mgmtRestart (activation : Bool) (hreq : s.trust.req = none) :
    (s.mgmtRestart activation).boot.restartAt = s.boot.restartAt := by
  obtain ⟨-, -, -, -, hboot⟩ := s.mgmtStop_leaves
  rw [s.mgmtRestart_eq activation (s.endBureau_stop hreq), State.setFlagIf_eq]
  generalize s.mgmtStop = u at hboot
  simp [State.rebootFrom, hboot]

/-- The boot unit, with the instant of a restart. -/
def State.noteRestart (s : State) (at0 : Nat) : State := { s with boot := { s.boot with restartAt := some at0 } }

theorem State.noteRestart_keeps (at0 : Nat) : (s.noteRestart at0).boot.restartAt = some at0 ∧ (s.noteRestart at0).trust = s.trust ∧
    (s.noteRestart at0).flash = s.flash ∧ (s.noteRestart at0).stn = s.stn ∧ ∀ a, (s.noteRestart at0).reg a = s.reg a :=
  ⟨rfl, rfl, rfl, rfl, fun _ => rfl⟩

/-- The restart that a peer asks for, its cause and its instant. -/
def State.peerRestart (s : State) (at0 : Nat) : State := ((s.setFldBit SYS_RST_CAUSE_CAUSE 5 true).noteRestart at0).mgmtRestart false

theorem State.fldBit_setCause (i : Nat) (hi : i < 6) : (s.setFldBit SYS_RST_CAUSE_CAUSE i true).fldBit SYS_RST_CAUSE_CAUSE i = true :=
  State.fldBit_setFldBit_self s (f := SYS_RST_CAUSE_CAUSE) true (by simp only [SYS_RST_CAUSE_CAUSE]; omega)

theorem State.peerRestart_leaves (at0 : Nat) (hreq : s.trust.req = none) (ht : s.flash.trial = false) :
    (s.peerRestart at0).boot.fw = false ∧ (s.peerRestart at0).boot.checking = some s.flash.preferred ∧
      (s.peerRestart at0).boot.restartAt = some at0 ∧ (s.peerRestart at0).fldBit SYS_RST_CAUSE_CAUSE 5 = true ∧
      (s.peerRestart at0).stn = s.stn := by
  have hbit := s.fldBit_setCause 5 (by decide)
  have hkept : (s.setFldBit SYS_RST_CAUSE_CAUSE 5 true).trust = s.trust ∧ (s.setFldBit SYS_RST_CAUSE_CAUSE 5 true).flash = s.flash ∧
      (s.setFldBit SYS_RST_CAUSE_CAUSE 5 true).stn = s.stn := by simp
  unfold State.peerRestart
  generalize s.setFldBit SYS_RST_CAUSE_CAUSE 5 true = u at hbit hkept ⊢
  obtain ⟨htrust, hflash, hstn⟩ := hkept
  obtain ⟨hat, htrust', hflash', hstn', hreg⟩ := u.noteRestart_keeps at0
  have hreq' : (u.noteRestart at0).trust.req = none := by rw [htrust', htrust, hreq]
  have hback : (u.noteRestart at0).trialBack false = false := by simp [State.trialBack, hflash', hflash, ht]
  obtain ⟨hfw, -, hfl, hchk, -, hst, -⟩ := (u.noteRestart at0).mgmtRestart_leaves false hreq'
  rw [hback, if_neg (by decide)] at hfl
  refine ⟨hfw, by rw [hchk, hfl, hflash', hflash], (State.restartAt_mgmtRestart _ false hreq').trans hat, ?_, by rw [hst, hstn', hstn]⟩
  refine (State.fldBit_of_reg (f := SYS_RST_CAUSE_CAUSE) 5 ?_).trans hbit
  exact (State.reg_mgmtRestart _ false hreq' (by decide) (by decide) (by decide) (by decide) (by decide)).trans (hreg _)

/-! ### Results (R462, R463) -/

theorem State.slkJob_setFld (f : Fld) (v tag : Nat) : (s.setFld f v).slkJob tag = s.slkJob tag := rfl

theorem State.jobOf_setFld (f : Fld) (v j : Nat) : (s.setFld f v).jobOf j = s.jobOf j := rfl

theorem exec_slkResult_unasked {p : Fin 3} {h : SlkHdr} (ht : PacketTaken s p h) (status : Byte) (hj : s.slkJob h.tag = none) :
    exec (.slkResult p h status) s = .next ((acked s p h).setFld (SLK_PORT_RESULT p) status.toNat) := by
  show execSlkResult p h status s = _
  refine (slkArrive_taken ht _).trans (congrArg Host.Outcome.next ?_)
  have hj' : (acked s p h).slkJob h.tag = none := hj
  dsimp only
  rw [State.slkJob_setFld, hj']

/-- A refusal ends the recovery that asked. -/
theorem exec_slkResult_refused {p : Fin 3} {h : SlkHdr} (ht : PacketTaken s p h) {status : Byte} (hne : status ≠ 0)
    {j target actions kind ofs len : Nat} {nonce : List Byte} {area : Nat} (hj : s.slkJob h.tag = some j)
    (hk : (s.jobOf j).kind = .recover target actions kind ofs len nonce area) :
    exec (.slkResult p h status) s = .next (((acked s p h).setFld (SLK_PORT_RESULT p) status.toNat).endJob j 2 status.toNat) := by
  show execSlkResult p h status s = _
  refine (slkArrive_taken ht _).trans (congrArg Host.Outcome.next ?_)
  have hj' : (acked s p h).slkJob h.tag = some j := hj
  have hk' : ((acked s p h).jobOf j).kind = .recover target actions kind ofs len nonce area := hk
  dsimp only
  rw [State.slkJob_setFld, hj']
  dsimp only
  rw [State.jobOf_setFld, hk']
  exact if_neg hne

/-! ### What a peer asks for -/

section
variable {s : State} {p : Fin 3} {h : SlkHdr} (ht : PacketTaken s p h)
include ht

/-- Data go into the staging area, and nowhere else. -/
theorem exec_slkData {ofs : Nat} {data : List Byte} (hin : ofs + data.length ≤ 25165824) :
    ∃ t, exec (.slkData p h ofs data) s = .next t ∧ t.bytes (0x8B800000 + ofs) data.length = data ∧
      (∀ a, (a < 0x8B800000 + ofs ∨ 0x8B800000 + ofs + data.length ≤ a) → t.byte a = s.byte a) ∧ t.regs = s.regs := by
  have hrun : exec (.slkData p h ofs data) s = .next (((acked s p h).setBytes (stageBase + ofs) data).onSlkPort p (fun u =>
      { u with base := some (u.base.getD ofs) })) := by
    show execSlkData p h ofs data s = _
    exact (slkArrive_taken ht _).trans (congrArg Host.Outcome.next (if_pos (stageRange_of_le hin)))
  refine ⟨_, hrun, ?_, fun a ha => ?_, (acked s p h).setBytes_regs data (stageBase + ofs)⟩
  · exact (State.bytes_onSlkPort _ p _ _ _).trans ((acked s p h).bytes_setBytes data (stageBase + ofs))
  · exact (State.byte_of_mem rfl a).trans (((acked s p h).byte_setBytes_ne data (stageBase + ofs) a ha).trans (State.byte_of_mem rfl a))

/-- A restart that a peer asks for. -/
theorem exec_slkMgmtRestart (hat : s.boot.restartAt = none) :
    exec (.slkMgmtRestart p h) s = .next (((acked s p h).slkResult p h.tag 0 0 0).peerRestart s.now) := by
  show execSlkMgmtRestart p h s = _
  refine (slkArrive_taken ht _).trans (congrArg Host.Outcome.next ?_)
  have hat' : (acked s p h).boot.restartAt = none := hat
  rw [hat']
  rfl

theorem exec_slkMgmtRestart_refused {at0 : Nat} (hat : s.boot.restartAt = some at0) (hnow : s.now < at0 + 10000000 * 400) :
    exec (.slkMgmtRestart p h) s = .next (((acked s p h).setFlag SLK_FLAGS_RESTART_REFUSED).slkRefuse p h.tag 7) := by
  show execSlkMgmtRestart p h s = _
  refine (slkArrive_taken ht _).trans (congrArg Host.Outcome.next ?_)
  have hat' : (acked s p h).boot.restartAt = some at0 := hat
  have hfree : decide (usTicks 10000000 ≤ (acked s p h).now - at0) = false :=
    decide_eq_false (show ¬ 10000000 * 400 ≤ s.now - at0 by omega)
  rw [hat']
  dsimp only
  rw [hfree]
  exact if_neg Bool.false_ne_true

theorem exec_slkFullReset : exec (.slkFullReset p h) s =
    .next (if s.anyEnable then ((acked s p h).setFlag SLK_FLAGS_RESTART_REFUSED).slkRefuse p h.tag 7
      else ((acked s p h).slkResult p h.tag 0 0 0).deviceReset 4) := by
  show execSlkFullReset p h s = _
  exact slkArrive_taken ht _

theorem exec_slkMonitorActivate : exec (.slkMonitorActivate p h) s =
    .next (match s.activatable with
      | some b => if s.monitor && s.canRestartOn b then ((acked s p h).slkResult p h.tag 0 0 0).activate b
        else (acked s p h).slkRefuse p h.tag 7
      | none => (acked s p h).slkRefuse p h.tag 7) := by
  show execSlkMonitorActivate p h s = _
  exact slkArrive_taken ht _

end

/-! ### Jobs of distribution and recovery (R462, R463) -/

theorem State.slkRefusal_passes {i kind : Nat} {f : State} (hg : s.grantSlk = true) (hj : s.freeJob ≠ none) (hk : kind = 1 ∨ kind = 3) :
    s.slkRefusal i kind f = f := by
  unfold State.slkRefusal
  rw [if_neg (by simp [hg]), if_neg (by simpa using hj), if_neg (by omega)]

/-- A job that its time-out ends has failed. -/
theorem State.endJob_failed {j : Nat} (hj : j < 4) (status : Nat) : ((s.draw.endJob j 2 status).jobOf j).st = 2 ∧
    (s.draw.endJob j 2 status).fldBit MBX_JOB_DONE_JOB_DONE j = true ∧ (s.draw.endJob j 2 status).mem = s.mem := by
  obtain ⟨hjob, hbit⟩ := s.draw.endJob_leaves hj 2 status
  exact ⟨congrArg Job.st hjob, hbit, by simp [State.endJob, State.draw]⟩

/-- Settles O55: each operation of a peer is one branch of R461, and a job's start and end one of R462 and R463. -/
theorem peerOperations : Obligations.PeerOperations := by
  refine ⟨fun p h s ht => ⟨fun ofs data hin => exec_slkData ht hin, fun len hash readback body hin hbase hhash hsw hhead himg => ?_,
      fun kind len hash readback body h1 h3 => ?_, fun nonce => ?_, fun report j target actions kind ofs len nonce area hj hk => ?_,
      fun hat hreq htrial => ?_, fun at0 hat hnow _ => exec_slkMgmtRestart_refused ht hat hnow, fun hany => ?_, fun hany hin => ?_, fun hact => ?_,
      fun b hact hmon hcan => ?_, fun status hj => ?_, fun status j target actions kind ofs len nonce area hj hk hne => ?_⟩,
    fun i s => ⟨fun kind mask ofs len hash h hg => ?_, fun mask ofs len hash h hg hj hin hh => ?_,
      fun target actions kind ofs len hash nonce area h hg hj htgt hpos hact hbit harea => ?_,
      fun j kind mask ofs len hr hk hrun => ?_, fun j hr hrun hw => ?_⟩⟩
  · have hrun := exec_slkDataEnd_image s ht hin hbase hhash readback body
    have hframe : SlkFrame s ((acked s p h).onSlkPort p (fun u => { u with base := none })) :=
      (slkFrame_acked s p h).trans (slkFrame_onSlkPort _ p _)
    refine ⟨_, hrun, fun hk => ?_, fun hk => ?_⟩
    · refine State.peerImage_taken _ ?_ ?_ hhead himg p h.tag
      · rw [hframe]
        exact hsw
      · rw [hframe]
        exact hk
    · have hk' : ((acked s p h).onSlkPort p (fun u => { u with base := none })).imageCheck 3 (s.staged 0 len) ≠ 0 := by
        rw [hframe]
        exact hk
      obtain ⟨hflag, hba, hbb⟩ := State.peerImage_refused _ (by rw [hframe]; exact hsw) hk' body p h.tag
      exact ⟨hflag, hba.trans (by rw [hframe]), hbb.trans (by rw [hframe])⟩
  · show execSlkDataEnd p h kind len hash readback body s = _
    exact (slkArrive_taken ht _).trans (congrArg Host.Outcome.next (if_pos (.inl ⟨h1, h3⟩)))
  · show execSlkAttestReq p h nonce s = _
    exact slkArrive_taken ht _
  · show execSlkAttestRep p h report s = _
    refine (slkArrive_taken ht _).trans (congrArg Host.Outcome.next ?_)
    have hj' : (acked s p h).slkJob h.tag = some j := hj
    have hk' : ((acked s p h).jobOf j).kind = .recover target actions kind ofs len nonce area := hk
    rw [hj']
    dsimp only
    rw [hk']
    rfl
  · obtain ⟨hfw, hchk, hat', hbit, hstn⟩ := ((acked s p h).slkResult p h.tag 0 0 0).peerRestart_leaves s.now hreq htrial
    exact ⟨_, exec_slkMgmtRestart ht hat, hfw, hchk, hat', hbit, hstn⟩
  · exact (exec_slkFullReset ht).trans (congrArg Host.Outcome.next (if_pos hany))
  · have hfirst : ((acked s p h).slkResult p h.tag 0 0 0).deviceReset 4 = _ := State.deviceReset_first _ 4 hin
    exact (exec_slkFullReset ht).trans (congrArg Host.Outcome.next ((if_neg (by simp [hany])).trans hfirst))
  · exact (exec_slkMonitorActivate ht).trans (by rw [hact])
  · exact (exec_slkMonitorActivate ht).trans (by rw [hact]; exact congrArg Host.Outcome.next (if_pos (by simp [hmon, hcan])))
  · exact exec_slkResult_unasked s ht status hj
  · exact exec_slkResult_refused s ht hne hj hk
  · refine (ezCommand_run h).trans (congrArg Host.Outcome.next ?_)
    rw [State.slkRefusal, if_pos (by simp [hg])]
  · refine (ezCommand_run h).trans (congrArg Host.Outcome.next ?_)
    rw [s.slkRefusal_passes hg hj (.inr rfl), s.withStaged_good i _ hin hh]
  · refine (ezCommand_run h).trans (congrArg Host.Outcome.next ?_)
    rw [hbit, if_neg Bool.false_ne_true, s.slkRefusal_passes hg hj (.inl rfl), if_neg (by simp [stageRange_of_le harea]; omega)]
    rfl
  · obtain hleaves := s.endJob_failed j.isLt (s.openNat % 256)
    refine ⟨_, (whenFw_run s hr).trans (congrArg Host.Outcome.next ?_), hleaves⟩
    rw [hk]
    exact if_pos hrun
  · exact ⟨_, (whenFw_run s hr).trans (congrArg Host.Outcome.next (if_pos (by simp [hrun, hw]))), s.endJob_failed j.isLt (s.openNat % 256)⟩

end Sys2Proof.Machine
end

section
/-! O54: packets of the link, carrier alignment and cross-checks. -/

namespace Sys2Proof.Machine

variable (s : State)

/-! ### Packets (R454 to R456) -/

section
variable {s : State} {p : Fin 3} {h : SlkHdr} (hr : s.devRuns = true) (hon : s.slkOn = true)
include hr hon

theorem exec_slkHello (hst : s.fld (SLK_PORT_STATE p) = 1) (hcrc : h.crcOk = true) : exec (.slkHello p h) s =
    .next (if h.source = s.fld (SLK_PORT_PEER p) then ((acked s p h).setSlkState p 2).slkUpAgain p
      else (((acked s p h).slkTrain p).setSlkState p 3).setFlag SLK_FLAGS_MISWIRED) := by
  refine (whenDev_run s hr).trans (congrArg Host.Outcome.next ?_)
  rw [if_neg (by simp [State.slkCarries, hon, hst]), if_neg (by simp [hcrc])]
  rfl

/-- A packet whose CRC fails is answered with NAK, and has no effect. -/
theorem slkArrive_bad (hst : s.fld (SLK_PORT_STATE p) = 2) (hcrc : h.crcOk = false) (answered : Bool) (f : State → State) :
    slkArrive s p h answered f = .next (s.slkSend p 0x03 h.tag (leBytesN 4 h.seq)) := by
  unfold slkArrive
  refine (whenDev_run s hr).trans (congrArg Host.Outcome.next ?_)
  rw [if_neg (by simp [State.slkCarries, State.slkUp, hon, hst])]
  exact if_pos (by simp [hcrc])

end

theorem exec_slkUnknownPacket {p : Fin 3} {h : SlkHdr} (ht : PacketTaken s p h) :
    exec (.slkUnknownPacket p h) s = .next ((acked s p h).count SLK_CNT_DISCARD_CNT) := by
  obtain ⟨hr, hon, hst, hcrc⟩ := ht
  refine (whenDev_run s hr).trans (congrArg Host.Outcome.next ?_)
  rw [if_neg (by simp [State.slkCarries, State.slkUp, hon, hst]), if_neg (by simp [hcrc])]
  rfl

theorem exec_slkAck {s : State} {p : Fin 3} {h : SlkHdr} (ht : PacketTaken s p h) (q : Byte) :
    exec (.slkAck p h q) s = .next (s.slkAcked p q.toNat) := slkArrive_unanswered ht (fun t => t.slkAcked p q.toNat)

theorem exec_slkNak {s : State} {p : Fin 3} {h : SlkHdr} (ht : PacketTaken s p h) (q : Byte) :
    exec (.slkNak p h q) s = .next (s.slkRepeat p q.toNat) := slkArrive_unanswered ht (fun t => t.slkRepeat p q.toNat)

section
variable {p q : Nat} {w : SlkWait} (hw : (s.slkPortOf p).waits.find? (fun w => w.pkt.seq == q) = some w)
include hw

/-- An ACK ends the wait of its packet. -/
theorem State.slkAcked_ends (htyp : w.pkt.typ ≠ 0x10) :
    s.slkAcked p q = s.onSlkPort p (fun u => { u with waits := u.waits.erase w }) := by
  unfold State.slkAcked
  rw [hw]
  exact if_pos htyp

/-- A packet that is not acknowledged is repeated. -/
theorem State.slkRepeat_again (hn : w.repeats < 3) (hat : s.now ≤ w.firstAt + 20 * 400) : s.slkRepeat p q = (s.onSlkPort p (fun u =>
    { u with
      tx := (w.pkt :: u.tx).take 8,
      waits := u.waits.map (fun x => if x = w then { x with repeats := x.repeats + 1 } else x) })).count SLK_CNT_RETRY_CNT := by
  have hin : s.now - w.firstAt ≤ usTicks 20 := Nat.sub_le_iff_le_add'.mpr hat
  unfold State.slkRepeat
  rw [hw]
  exact if_pos ⟨hn, hin⟩

/-- After the third repetition the port trains again; a BEAT has no operation behind it. -/
theorem State.slkRepeat_fails (hn : w.repeats = 3) (htyp : w.pkt.typ = 0x04) :
    s.slkRepeat p q = (s.slkTrain p).setFlag SLK_FLAGS_RETRY_FAIL := by
  unfold State.slkRepeat
  rw [hw]
  refine (if_neg (by omega)).trans ?_
  rw [State.slkOperationFails, if_neg (by omega), if_neg (by omega)]

end

/-! ### Alignment (R457 to R460) -/

theorem exec_slkAlignGo (hg : s.grantSlk = true) (hr : s.devRuns = true) : exec .slkAlignGo s = .next s.alignGo :=
  writeWindow_data hr (by decide) (congrArg some hg)

/-- The unit of the link, changed. -/
def State.withSlk (s : State) (u : SlkUnit) : State := { s with slk := u }

theorem State.syncEdge_measures (a b : Nat) (hp : s.position = 0) (hsent : s.slk.sent = 1) : s.syncEdge a b =
    (((s.setFld SLK_ALIGN_STAT_PHI a).withSlk { s.slk with
      phiB := b, edgeAt := s.now, sent := 0, measured := true })).sendAlign a 0 := by
  unfold State.syncEdge
  dsimp only
  rw [if_pos hp, hsent]
  simp [State.withSlk]

theorem State.syncEdge_starts (a b : Nat) (hp : s.position ≠ 0) (hbusy : s.slk.busy = true) (hnext : s.slk.startNext = true) :
    s.syncEdge a b = (s.setFld SLK_ALIGN_STAT_PHI a).withSlk { s.slk with
      phiB := b, edgeAt := s.now, startNext := false, startEdge := s.now, releaseDue := true } := by
  unfold State.syncEdge
  dsimp only
  rw [if_neg hp, hbusy, hnext]
  simp [State.withSlk]

/-! ### Phase steps of the PLLs (R426, R460) -/

theorem unsignedOf_lt (w : Nat) (i : Int) : unsignedOf w i < 2 ^ w := by
  have hpos : (0 : Int) < (2 ^ w : Nat) := by exact_mod_cast Nat.two_pow_pos w
  have hlt := Int.emod_lt_of_pos i hpos
  have hnonneg := Int.emod_nonneg i hpos.ne'
  unfold unsignedOf
  omega

theorem State.pending_writePhaseStep (p : Nat) (i : Int) :
    (s.writePhaseStep p (unsignedOf 13 i)).fld (CLK_PHASE_STEP_PENDING p) = unsignedOf 13 i := by
  have hlt := unsignedOf_lt 13 i
  unfold State.writePhaseStep
  rw [Nat.mod_eq_of_lt hlt]
  exact State.fld_setFld s (CLK_PHASE_STEP_PENDING p) hlt

theorem State.pending_writePhaseStep_one (steps : Nat) :
    (s.writePhaseStep 1 steps).fld (CLK_PHASE_STEP_PENDING 0) = s.fld (CLK_PHASE_STEP_PENDING 0) :=
  State.fld_setFld_addr s _ (by decide)

theorem State.fld_withSlk (u : SlkUnit) (f : Fld) : (s.withSlk u).fld f = s.fld f := rfl

/-- What is left to slew fits the stepper, and is asked for at once. -/
theorem State.nextSlew_zero {x : Int} (hx : s.slk.slewA = x) (hlo : -4096 ≤ x) (hhi : x ≤ 4095) :
    s.nextSlew 0 = (s.withSlk { s.slk with slewA := 0 }).writePhaseStep 0 (unsignedOf 13 x) := by
  have hnow : max (-4096) (min 4095 x) = x := by omega
  unfold State.nextSlew
  simp only [if_true, hx, hnow, Int.sub_self]
  rfl

theorem State.nextSlew_one {x : Int} (hx : s.slk.slewB = x) (hlo : -4096 ≤ x) (hhi : x ≤ 4095) :
    s.nextSlew 1 = (s.withSlk { s.slk with slewB := 0 }).writePhaseStep 1 (unsignedOf 13 x) := by
  have hnow : max (-4096) (min 4095 x) = x := by omega
  unfold State.nextSlew
  simp only [Nat.one_ne_zero, if_false, hx, hnow, Int.sub_self]
  rfl

/-- A follower's error, as it is shown. -/
def State.showError (s : State) (e : Int) : State := s.setFld SLK_ALIGN_STAT_ERR (unsignedOf 24 (max (-8388608) (min 8388607 e)))

theorem State.alignCheck_eq (e : Int) : s.alignCheck e =
    if e.natAbs ≤ 1 then s.showError e
    else if e.natAbs ≤ 256000 then
      (((s.showError e).withSlk { s.slk with slewA := -e, slewB := -e }).nextSlew 0).nextSlew 1
    else ((s.showError e).setFlag SLK_FLAGS_ALIGN_LOST).setFld SLK_STATUS_ALIGNED 0 := by
  have hslk : (s.showError e).slk = s.slk := by simp [State.showError]
  unfold State.alignCheck
  rw [← hslk]
  rfl

theorem State.alignCheck_stays {e : Int} (h : e.natAbs ≤ 1) : s.alignCheck e = s.setFld SLK_ALIGN_STAT_ERR (unsignedOf 24 e) := by
  have hclamp : max (-8388608) (min 8388607 e) = e := by omega
  rw [s.alignCheck_eq, if_pos h, State.showError, hclamp]

/-- An error that the steppers hold is slewed away. -/
theorem State.alignCheck_slews {e : Int} (h1 : 1 < e.natAbs) (h2 : e.natAbs ≤ 4095) :
    (s.alignCheck e).fld (CLK_PHASE_STEP_PENDING 0) = unsignedOf 13 (-e) ∧
      (s.alignCheck e).fld (CLK_PHASE_STEP_PENDING 1) = unsignedOf 13 (-e) ∧
      (s.alignCheck e).slk.slewA = 0 ∧ (s.alignCheck e).slk.slewB = 0 := by
  rw [s.alignCheck_eq, if_neg (by omega), if_pos (by omega), State.nextSlew_zero _ rfl (by show -4096 ≤ -e; omega) (by show -e ≤ 4095; omega),
    State.nextSlew_one _ (x := -e) rfl (by omega) (by omega)]
  generalize s.showError e = u
  refine ⟨?_, State.pending_writePhaseStep _ 1 (-e), rfl, rfl⟩
  rw [State.pending_writePhaseStep_one, State.fld_withSlk]
  exact State.pending_writePhaseStep _ 0 (-e)

theorem State.alignCheck_loses {e : Int} (h : 256000 < e.natAbs) :
    (s.alignCheck e).flag SLK_FLAGS_ALIGN_LOST = true ∧ (s.alignCheck e).flag SLK_STATUS_ALIGNED = false := by
  rw [s.alignCheck_eq, if_neg (by omega), if_neg (by omega)]
  generalize s.showError e = u
  constructor
  · exact (State.flag_setFld_addr _ 0 (by decide)).trans (u.flag_setFlag SLK_FLAGS_ALIGN_LOST)
  · rw [State.flag, State.fld_setFld _ SLK_STATUS_ALIGNED (by decide : 0 < 2)]
    rfl

/-- A follower that has measured waits for the start edge. -/
def slkAligning (s : State) (stepsB : Nat) : State :=
  (s.writePhaseStep 1 stepsB).withSlk { (s.writePhaseStep 1 stepsB).slk with busy := true, startNext := true, releaseDue := false }

/-- The phase steps that the measure pulse asks of a follower. -/
theorem exec_slkAlignPacket_measure {p : Fin 3} {h : SlkHdr} (ht : PacketTaken s p h) (hp : s.position ≠ 0) (phi : Fin 64) :
    ∃ t, exec (.slkAlignPacket p h phi 0) s = .next t ∧ t.slk.busy = true ∧ t.slk.startNext = true ∧
      t.fld (CLK_PHASE_STEP_PENDING 0) = unsignedOf 13 (phaseWrap ((phi.val : Int) - s.fld SLK_ALIGN_STAT_PHI)) ∧
      t.fld (CLK_PHASE_STEP_PENDING 1) = unsignedOf 13 (phaseWrap ((phi.val : Int) - s.slk.phiB)) := by
  have hp' : (acked s p h).position ≠ 0 := hp
  have hphi : (acked s p h).fld SLK_ALIGN_STAT_PHI = s.fld SLK_ALIGN_STAT_PHI := rfl
  have hphiB : (acked s p h).slk.phiB = s.slk.phiB := rfl
  have hrun : exec (.slkAlignPacket p h phi 0) s = .next (slkAligning ((acked s p h).writePhaseStep 0
      (unsignedOf 13 (phaseWrap ((phi.val : Int) - s.fld SLK_ALIGN_STAT_PHI)))) (unsignedOf 13 (phaseWrap ((phi.val : Int) - s.slk.phiB)))) := by
    show execSlkAlignPacket p h phi 0 s = _
    refine (slkArrive_taken ht _).trans (congrArg Host.Outcome.next ?_)
    dsimp only
    rw [if_neg hp', hphi, hphiB]
    rfl
  generalize acked s p h = u at hrun
  refine ⟨_, hrun, rfl, rfl, ?_, ?_⟩
  · rw [slkAligning, State.fld_withSlk, State.pending_writePhaseStep_one]
    exact u.pending_writePhaseStep 0 _
  · rw [slkAligning, State.fld_withSlk]
    exact State.pending_writePhaseStep _ 1 _

/-- A check pulse makes an aligned follower form its error. -/
theorem exec_slkAlignPacket_check {p : Fin 3} {h : SlkHdr} (ht : PacketTaken s p h) (hp : s.position ≠ 0) (phi : Fin 64) {k : Nat} (hk : k ≠ 0)
    (hal : s.flag SLK_STATUS_ALIGNED = true) :
    exec (.slkAlignPacket p h phi k) s = .next ((acked s p h).alignCheck (s.alignError phi k)) := by
  have hp' : (acked s p h).position ≠ 0 := hp
  have hal' : (acked s p h).flag SLK_STATUS_ALIGNED = true := hal
  show execSlkAlignPacket p h phi k s = _
  refine (slkArrive_taken ht _).trans (congrArg Host.Outcome.next ?_)
  dsimp only
  rw [if_neg hp', if_neg hk, if_pos hal']
  rfl

/-! ### Cross-checks (R464) -/

section
variable {s : State} {k : Fin 8} {p : Fin 3} {h : SlkHdr} (ht : PacketTaken s p h) (hon : s.xchkOn k = true)
  (hpeer : s.fld (SLK_XCHK_PEER k) = s.fld (SLK_PORT_PEER p))
include ht hon hpeer

theorem exec_slkXchk (tick : Nat) (v : Int) : exec (.slkXchk p h k tick v) s = .next ((acked s p h).xchkSample k false tick v) := by
  have hon' : (acked s p h).xchkOn k = true := hon
  have hpeer' : (acked s p h).fld (SLK_XCHK_PEER k) = (acked s p h).fld (SLK_PORT_PEER p) := hpeer
  show execSlkXchk p h k tick v s = _
  exact (slkArrive_taken ht _).trans (congrArg Host.Outcome.next (if_pos (by simp [hon', hpeer'])))

end

/-- A sample with no other waits. -/
theorem State.xchkSample_waits (hs : s.slk.samples = []) (i : Nat) (own : Bool) (tick : Nat) (v : Int) :
    s.xchkSample i own tick v = s.withSlk { s.slk with samples := [⟨i, own, tick, v⟩] } := by
  unfold State.xchkSample
  simp [hs, State.withSlk]

/-- A sample within 2 ticks of its partner meets it. -/
theorem State.xchkSample_meets {i tick t0 : Nat} {v w : Int} (hs : s.slk.samples = [⟨i, true, t0, w⟩]) (h1 : t0 ≤ tick + 2) (h2 : tick ≤ t0 + 2) :
    s.xchkSample i false tick v =
      if s.fld (SLK_XCHK_TOL i) < (v - w).natAbs then
        ((s.withSlk { s.slk with samples := [] }).count (SLK_XCHK_CNT_MISMATCH_CNT i)).setFlag SLK_FLAGS_XCHK_MISMATCH
      else s.withSlk { s.slk with samples := [] } := by
  unfold State.xchkSample
  simp [hs, h1, h2, State.withSlk]

/-- Settles O54: the link's packets by their arrival, the alignment pulse by pulse, and a sample by the one that waits for it. -/
theorem linkAndAlignment : Obligations.LinkAndAlignment := by
  refine ⟨fun p h s hr hon => ⟨fun hst hcrc hsrc => ?_, fun hst hcrc hsrc => ?_, fun hst hcrc => ?_, fun ht => ?_, fun ht => ?_,
      fun q w ht hw htyp => ?_, fun q w u ht hw hn hat hu => ?_, fun q w ht hw hn htyp => ?_, fun hst => ?_, fun hst => ⟨?_, ?_⟩⟩,
    fun s hg => ⟨fun hr hp hbusy hidle hup => ?_, fun hr hno => ?_, fun a b hr hp hsent => ?_, fun a b hr hp hbusy hnext => ?_,
      fun hr hp hbusy hm => ?_, fun hr hbusy hdue => ?_, fun hr hp hal => ?_,
      fun p h phi ht hp => ⟨exec_slkAlignPacket_measure s ht hp phi, fun k hk hal => exec_slkAlignPacket_check s ht hp phi hk hal⟩,
      fun e he => s.alignCheck_stays he, fun e h1 h2 => s.alignCheck_slews h1 h2, fun e he => s.alignCheck_loses he⟩,
    fun k s => ⟨fun p h tick v ht hon hpeer hs => ?_, fun p h tick t0 v w ht hon hpeer hs h1 h2 => ⟨fun hfar => ?_, fun hnear => ?_⟩,
      fun x rest hr hs hx => ?_⟩⟩
  · exact (exec_slkHello hr hon hst hcrc).trans (congrArg Host.Outcome.next (if_pos hsrc))
  · exact (exec_slkHello hr hon hst hcrc).trans (congrArg Host.Outcome.next (if_neg hsrc))
  · exact slkArrive_bad hr hon hst hcrc true id
  · exact slkArrive_taken ht id
  · exact exec_slkUnknownPacket s ht
  · exact (exec_slkAck ht q).trans (congrArg Host.Outcome.next (s.slkAcked_ends hw htyp))
  · have hrep := (s.slkRepeat_again hw hn hat).trans hu.symm
    exact ⟨(exec_slkNak ht q).trans (congrArg Host.Outcome.next hrep), (whenDev_run s hr).trans (congrArg Host.Outcome.next hrep)⟩
  · have hrep := s.slkRepeat_fails hw hn htyp
    exact ⟨(exec_slkNak ht q).trans (congrArg Host.Outcome.next hrep), (whenDev_run s hr).trans (congrArg Host.Outcome.next hrep)⟩
  · exact (whenDev_run s hr).trans (congrArg Host.Outcome.next (if_pos (by simp [hon, hst])))
  · exact (whenDev_run s hr).trans (congrArg Host.Outcome.next (if_pos (by simp [hon, State.slkUp, hst])))
  · exact (whenDev_run s hr).trans (congrArg Host.Outcome.next (if_pos (by simp [State.slkUp, hst])))
  · have hany : (List.range 3).any s.slkUp = true := List.any_eq_true.mpr ⟨0, by decide, hup⟩
    exact (exec_slkAlignGo s hg hr).trans (congrArg Host.Outcome.next (if_pos (by simp [hp, hbusy, hidle, hany])))
  · refine (exec_slkAlignGo s hg hr).trans (congrArg Host.Outcome.next (if_neg ?_))
    rcases hno with hp | hbusy
    · simp [hp]
    · simp [hbusy]
  · exact (whenRun_run s hr).trans (congrArg Host.Outcome.next ((if_pos hg).trans (s.syncEdge_measures a b hp hsent)))
  · exact (whenRun_run s hr).trans (congrArg Host.Outcome.next ((if_pos hg).trans (s.syncEdge_starts a b hp hbusy hnext)))
  · exact (whenRun_run s hr).trans (congrArg Host.Outcome.next (if_pos (by simp [hp, hbusy, hm])))
  · exact (whenRun_run s hr).trans (congrArg Host.Outcome.next (if_pos (by simp [hbusy, hdue])))
  · exact (whenRun_run s hr).trans (congrArg Host.Outcome.next (if_pos (by simp [hp, hal])))
  · exact (exec_slkXchk ht hon hpeer tick v).trans (congrArg Host.Outcome.next ((acked s p h).xchkSample_waits hs k false tick v))
  · have hrun := (exec_slkXchk ht hon hpeer tick v).trans
      (congrArg Host.Outcome.next (((acked s p h).xchkSample_meets hs h1 h2).trans (if_pos hfar)))
    exact ⟨_, hrun, by simp [State.withSlk], State.flag_setFlag _ SLK_FLAGS_XCHK_MISMATCH⟩
  · exact (exec_slkXchk ht hon hpeer tick v).trans
      (congrArg Host.Outcome.next (((acked s p h).xchkSample_meets hs h1 h2).trans (if_neg (Nat.not_lt.mpr hnear))))
  · refine (whenDev_run s hr).trans (congrArg Host.Outcome.next ?_)
    simp [hs, hx]

end Sys2Proof.Machine
end

section
/-! O48: identity, sessions, the debug lock and the test access port. -/

namespace Sys2Proof.Machine

variable (s : State)

/-! ### The debug lock (R415, R416) -/

/-- The words of a signature so far. -/
def State.withSig (s : State) (l : List Word) : State := { s with trust := { s.trust with dbgSig := l } }

theorem State.debugWrite_short (w : Word) (h : s.trust.dbgSig.length + 1 < 24) : s.debugWrite w = s.withSig (s.trust.dbgSig ++ [w]) :=
  if_pos (by simpa using h)

/-- Fewer words than a signature has are collected. -/
theorem State.debugWrite_collects (ws : List Word) (h : s.trust.dbgSig.length + ws.length < 24) :
    ws.foldl (fun t w => t.debugWrite w) s = s.withSig (s.trust.dbgSig ++ ws) := by
  induction ws generalizing s with
  | nil => simp [State.withSig]
  | cons w ws ih =>
    have hlen : s.trust.dbgSig.length + (ws.length + 1) < 24 := h
    rw [List.foldl_cons, s.debugWrite_short w (by omega), ih]
    · simp [State.withSig]
    · simp [State.withSig]
      omega

theorem State.debugUnlock_withSig (l sig : List Word) : (s.withSig l).debugUnlock sig = s.debugUnlock sig := rfl

/-- The 24th word has the whole signature judged. -/
theorem State.debugWrite_judged {ws : List Word} (hs : s.trust.dbgSig = []) (hlen : ws.length = 24) :
    ws.foldl (fun t w => t.debugWrite w) s = s.debugUnlock ws := by
  have hne : ws ≠ [] := by
    rintro rfl
    simp at hlen
  have hinit : ws.dropLast.length = 23 := by simp [hlen]
  rw [← List.dropLast_append_getLast hne, List.foldl_append, s.debugWrite_collects _ (by rw [hs, hinit]; decide), hs]
  refine (if_neg ?_).trans (s.debugUnlock_withSig _ _)
  simp [State.withSig, hlen]

/-- The signature and the nonce are used up. -/
def State.sigUsed (s : State) : State := { s with trust := { s.trust with dbgSig := [], dbgNonce := [] } }

theorem State.debugUnlock_eq (sig : List Word) : s.debugUnlock sig =
    if s.fld SEC_DBG_STATE == 1 && s.allIdleHeld && s.trust.dbgNonce != [] && decide (s.now - s.trust.dbgAt ≤ usTicks 60000000) &&
        signedBy (s.keyOf 3) (s.otp.uid ++ s.trust.dbgNonce.flatMap leBytes) (sig.flatMap leBytes) then
      s.sigUsed.setFld SEC_DBG_STATE 2
    else s.sigUsed.setFlag SEC_FLAGS_DBG_REFUSED := rfl

theorem State.debugUnlock_judged {sig : List Word} (hst : s.fld SEC_DBG_STATE = 1) (hidle : s.allIdleHeld = true) (hn : s.trust.dbgNonce ≠ [])
    (hnow : s.now ≤ s.trust.dbgAt + 60000000 * 400) : s.debugUnlock sig =
      if signedBy (s.keyOf 3) (s.otp.uid ++ s.trust.dbgNonce.flatMap leBytes) (sig.flatMap leBytes) = true then s.sigUsed.setFld SEC_DBG_STATE 2
      else s.sigUsed.setFlag SEC_FLAGS_DBG_REFUSED := by
  have hin : s.now - s.trust.dbgAt ≤ usTicks 60000000 := Nat.sub_le_iff_le_add'.mpr hnow
  have hnonce : (s.trust.dbgNonce != []) = true := by simpa using hn
  rw [s.debugUnlock_eq, hst, hidle, hnonce, decide_eq_true hin]
  rfl

theorem State.debugUnlock_refused {sig : List Word} (hidle : s.allIdleHeld = false) :
    s.debugUnlock sig = s.sigUsed.setFlag SEC_FLAGS_DBG_REFUSED := by
  rw [s.debugUnlock_eq, hidle]
  exact if_neg (by simp)

/-! ### The outputs of held stations stay low (R465) -/

theorem State.low_soutLow {k : Nat} (h : (s.soutOf k).level = false) (n j : Nat) : ((s.soutLow n j).soutOf k).level = false := by
  by_cases hj : k = j
  · subst hj
    rw [s.soutOf_soutLow]
    split
    · rfl
    · exact h
  · rw [s.soutOf_soutLow_ne n j hj, h]

theorem State.low_kept_soutsLow {k : Nat} (h : (s.soutOf k).level = false) (n : Nat) : ((s.soutsLow n).soutOf k).level = false := by
  rw [State.soutsLow_eq]
  exact State.low_runDeferred _ (forAll_rel (fun b c => (b.soutOf k).level = false → (c.soutOf k).level = false) (fun _ => id)
    (fun _ _ _ h h' => h' ∘ h) (fun j t => t.soutLow n j) (fun j t ht => t.low_soutLow ht n j) 8 s h)

/-! ### A release that fails, station by station (R358) -/

/-- A station of a release that fails. -/
def State.releaseEnds (s : State) (n : Nat) : State := (s.onSafe n (fun f => { f with releasing := false, party := [] })).soutsLow n

theorem State.releasing_releaseEnds (m n : Nat) :
    ((s.releaseEnds m).safeOf n).releasing = if n = m then false else (s.safeOf n).releasing := by
  simp only [State.releaseEnds, State.soutsLow_outside]
  split
  · next h =>
    subst h
    rw [s.safeOf_onSafe]
  · next h => rw [s.safeOf_onSafe_ne _ h]

theorem State.failRelease_ends {n : Nat} {set : List Nat} (h : n ∈ set) : ((s.failRelease set).safeOf n).releasing = false := by
  suffices hfold : ∀ (l : List Nat) (t : State), n ∈ l ∨ (t.safeOf n).releasing = false →
      ((l.foldl (fun t m => t.releaseEnds m) t).safeOf n).releasing = false by
    exact hfold set s (.inl h)
  intro l
  induction l with
  | nil => exact fun t ht => ht.resolve_left List.not_mem_nil
  | cons m l ih =>
    intro t ht
    rw [List.foldl_cons]
    refine ih _ ?_
    rw [t.releasing_releaseEnds]
    rcases ht with ht | ht
    · rcases List.mem_cons.mp ht with rfl | ht
      · exact .inr (if_pos rfl)
      · exact .inl ht
    · exact .inr (by simp [ht])

/-! ### A boundary-scan instruction (R465) -/

/-- What a boundary-scan instruction does to one station. -/
def State.scanHeld (s : State) (n : Nat) : State :=
  if (s.safeOf n).releasing then s.failRelease (s.safeOf n).party else s.soutsLow n

/-- The instruction register, changed. -/
def State.loadIr (s : State) (code : Byte) : State := { s with slk := { s.slk with ir := code } }

/-- What a boundary-scan instruction leaves. -/
structure ScanFrame (s t : State) : Prop where
  slk : t.slk = s.slk
  stn : t.stn = s.stn
  held : ∀ n, (t.safeOf n).held = (s.safeOf n).held
  soutMap : ∀ k n, t.soutMap k n = s.soutMap k n

theorem ScanFrame.trans {a b c : State} (h : ScanFrame a b) (h' : ScanFrame b c) : ScanFrame a c := by
  obtain ⟨h1, h2, h3, h4⟩ := h
  obtain ⟨h1', h2', h3', h4'⟩ := h'
  exact ⟨h1'.trans h1, h2'.trans h2, fun n => (h3' n).trans (h3 n), fun k n => (h4' k n).trans (h4 k n)⟩

theorem scanFrame_soutsLow (n : Nat) : ScanFrame s (s.soutsLow n) :=
  ⟨by simp, by simp, fun _ => by simp, fun k m => s.soutMap_soutsLow n k m⟩

theorem scanFrame_failRelease (set : List Nat) : ScanFrame s (s.failRelease set) := by
  obtain ⟨hslk, hstn⟩ := s.failRelease_rel (fun b c => c.slk = b.slk ∧ c.stn = b.stn) (fun _ => ⟨rfl, rfl⟩)
    (fun _ _ _ h h' => ⟨h'.1.trans h.1, h'.2.trans h.2⟩) (fun _ _ => ⟨rfl, rfl⟩) (fun _ _ => by simp) (fun _ => by simp) set
  exact ⟨hslk, hstn, fun n => s.failRelease_held set n, fun k n => s.failRelease_soutMap set k n⟩

theorem scanFrame_scanHeld (n : Nat) : ScanFrame s (s.scanHeld n) := by
  unfold State.scanHeld
  split
  · exact scanFrame_failRelease s _
  · exact scanFrame_soutsLow s n

/-- Where no release is under way, the outputs of every station go low. -/
theorem State.low_scanned (hrel : ∀ n, n < 4 → (s.safeOf n).releasing = false) {n k : Nat} (hn : n < 4) (hk : k < 8)
    (hmap : s.soutMap k n = true) : ((s.forAll 4 (fun n t => t.scanHeld n)).soutOf k).level = false := by
  suffices h : ∀ m, m ≤ 4 → (∀ j, j < 4 → ((s.forAll m (fun n t => t.scanHeld n)).safeOf j).releasing = false) ∧
      (s.forAll m (fun n t => t.scanHeld n)).soutMap k n = true ∧
      (n < m → ((s.forAll m (fun n t => t.scanHeld n)).soutOf k).level = false) from (h 4 (by omega)).2.2 hn
  intro m
  induction m with
  | zero => exact fun _ => ⟨hrel, hmap, fun h => absurd h (Nat.not_lt_zero n)⟩
  | succ m ih =>
    intro hm
    obtain ⟨hrel', hmap', hlow⟩ := ih (by omega)
    show (∀ j, j < 4 → (((s.forAll m (fun n t => t.scanHeld n)).scanHeld m).safeOf j).releasing = false) ∧
      ((s.forAll m (fun n t => t.scanHeld n)).scanHeld m).soutMap k n = true ∧
      (n < m + 1 → (((s.forAll m (fun n t => t.scanHeld n)).scanHeld m).soutOf k).level = false)
    generalize s.forAll m (fun n t => t.scanHeld n) = t at hrel' hmap' hlow ⊢
    have hscan : t.scanHeld m = t.soutsLow m := by
      rw [State.scanHeld, hrel' m (by omega)]
      exact if_neg Bool.false_ne_true
    rw [hscan]
    refine ⟨fun j hj => by simpa using hrel' j hj, (t.soutMap_soutsLow m k n).trans hmap', fun hlt => ?_⟩
    by_cases hnm : n = m
    · subst hnm
      exact t.low_soutsLow hk hmap'
    · exact t.low_kept_soutsLow (hlow (by omega)) m

theorem exec_jtagScan {code : Byte} (hc : code = 3 ∨ code = 4 ∨ code = 5) : exec (.jtagInstructionLoad code) s =
    .next (if s.allIdleHeld then (s.loadIr code).forAll 4 (fun n t => t.scanHeld n)
      else (s.loadIr 0xFF).setFlag SLK_FLAGS_SCAN_REFUSED) :=
  congrArg Host.Outcome.next (if_pos hc)

/-! ### Sessions (R402) -/

theorem State.certOk_answer (i : Fin 32) (c : Cert) {x : Session} (h : CommandRuns s i 0x0011) (hx : s.sessionOf (s.slotOf i).peer = some x)
    (hset : s.flag TIM_STATUS_UNSET = false) : exec (.authResponse i c) s =
      .next (if s.certOk c x ((s.payload i).drop ((s.payload i).length - 96)) = true then
        (s.onSession (s.slotOf i).peer (fun x => { x with level := max x.level (min (c.level.getD 0) 3), nonce := [] })).answer i []
      else s.refuseOpen i 5) := by
  refine (ezCommand_run h).trans (congrArg Host.Outcome.next ?_)
  dsimp only
  rw [hx, hset]
  rfl

/-- Settles O48: each command on identity and debug access is one branch, and a boundary-scan instruction goes station by station. -/
theorem trustAndTestAccess : Obligations.TrustAndTestAccess := by
  refine ⟨fun s => ⟨fun i h => ezCommand_run h, fun i h => ezCommand_run h, fun i h => ezCommand_run h,
      fun i c x h hx hset => s.certOk_answer i c h hx hset, fun hr => ⟨?_, fun ws hlen => ?_, fun ws hs hlen hst hidle hn hnow => ?_,
        fun ws hs hlen hidle => ?_, fun hst => ?_, ?_⟩⟩,
    fun s => ⟨?_, ?_, fun code hc hidle => ?_, fun code hc hidle => ?_, fun n hn hrel hmem => ⟨s.failRelease_ends hmem, ?_⟩, rfl⟩⟩
  · exact ⟨_, whenDev_run s hr, by simp [State.debugRequest], rfl, rfl, rfl⟩
  · exact (whenDev_run s hr).trans (congrArg Host.Outcome.next (s.debugWrite_collects ws hlen))
  · exact (whenDev_run s hr).trans
      (congrArg Host.Outcome.next ((s.debugWrite_judged hs hlen).trans (s.debugUnlock_judged hst hidle hn hnow)))
  · exact (whenDev_run s hr).trans (congrArg Host.Outcome.next ((s.debugWrite_judged hs hlen).trans (s.debugUnlock_refused hidle)))
  · exact (whenDev_run s hr).trans (congrArg Host.Outcome.next (if_pos hst))
  · exact whenDev_run s hr
  · exact congrArg Host.Outcome.next (if_neg (by decide))
  · exact congrArg Host.Outcome.next (if_neg (by decide))
  · exact (exec_jtagScan s hc).trans (congrArg Host.Outcome.next (if_neg (by simp [hidle])))
  · obtain ⟨hslk, hstn, hheld, -⟩ := forAll_rel ScanFrame (fun _ => ⟨rfl, rfl, fun _ => rfl, fun _ _ => rfl⟩) (fun _ _ _ => .trans)
      (fun n t => t.scanHeld n) (fun n t => scanFrame_scanHeld t n) 4 (s.loadIr code)
    exact ⟨_, (exec_jtagScan s hc).trans (congrArg Host.Outcome.next (if_pos hidle)), congrArg SlkUnit.ir hslk, hstn,
      fun n _ => hheld n, fun hrel n k hn hk hmap => (s.loadIr code).low_scanned hrel hn hk hmap⟩
  · exact State.flag_setFlag _ SAF_FLAGS_RELEASE_REFUSED

end Sys2Proof.Machine
end

section
/-! O38: an edge of a capture input. -/

namespace Sys2Proof.Machine

variable (s : State)

/-! ### What a stamp and a delivered word leave (R155, R308) -/

theorem State.deliver_act (n i : Nat) (w : Word) : (s.deliver n i w).act = s.act := by
  have hset (e a : Nat) (t : State) : (t.setDmem e a w).act = t.act := by
    unfold State.setDmem
    split <;> rfl
  have hready (t : State) : (t.noteReady n).act = t.act := by
    unfold State.noteReady
    dsimp only
    split
    · split <;> rfl
    · rfl
  have hengines (l : List Nat) (a : Nat) (t : State) : (l.foldl (fun t e => t.setDmem e a w) t).act = t.act :=
    foldl_rel (fun b c => c.act = b.act) (fun _ => rfl) (fun _ _ _ h h' => h'.trans h) _ (fun t e => hset e a t) l t
  have hsampled (sar : Bool) (t : State) (f : Period → Period) : (if sar then (t.onPer n f).noteReady n else t).act = t.act := by
    split
    · exact hready _
    · rfl
  unfold State.deliver
  dsimp only
  split
  · exact hsampled _ _ _
  · exact (hengines _ _ _).trans (hsampled _ _ _)

theorem State.deliverAll_act (srcType srcIndex : Nat) (w : Word) : (s.deliverAll srcType srcIndex w).act = s.act := by
  refine foldl_rel (fun b c => c.act = b.act) (fun _ => rfl) (fun _ _ _ h h' => h'.trans h) _ (fun t e => ?_) _ s
  split
  · exact t.deliver_act _ _ w
  · rfl

theorem State.captureStamp_act (c : Nat) (rising : Bool) : (s.captureStamp c rising).act = s.act := by
  unfold State.captureStamp
  by_cases he : (s.fld (TIM_CAP_CFG_EDGE c)).testBit (if rising then 0 else 1) = true
  · rw [if_pos he]
    split <;> simp
  · rw [if_neg he]

theorem State.reg_captureStamp (c : Nat) (rising : Bool) {a : Nat} (h1 : a ≠ TIM_CAP_STATUS) (h2 : a ≠ TIM_FLAGS) (h3 : a ≠ TIM_CNT1) :
    (s.captureStamp c rising).reg a = s.reg a := by
  unfold State.captureStamp
  by_cases he : (s.fld (TIM_CAP_CFG_EDGE c)).testBit (if rising then 0 else 1) = true
  · rw [if_pos he]
    split
    · exact State.reg_setFldBit_ne _ (f := TIM_CAP_STATUS_NONEMPTY) c true h1
    · exact (State.reg_count_ne _ (f := TIM_CNT1_CAP_OVF_CNT) h3).trans ((State.reg_setFld_ne _ (f := TIM_FLAGS_CAP_OVF) 1 h2).trans
        (s.reg_setFldBit_ne (f := TIM_CAP_STATUS_CAP_OVF) c true h1))
  · rw [if_neg he]

/-! ### Routes and triggers that are off (R204, R268) -/

theorem State.captureRoute_off (c : Nat) (rising : Bool) (h : ∀ k, k < 16 → s.reg (ADC_TRGMAP_CAP k) = 0) : s.captureRoute c rising = s := by
  suffices hm : ∀ m, m ≤ 16 → s.forAll m (fun k t =>
      if bit (t.reg (ADC_TRGMAP_CAP k)) (2 * c + (if rising then 0 else 1)) then t.seqGo k else t) = s from hm 16 (by omega)
  intro m
  induction m with
  | zero => exact fun _ => rfl
  | succ m ih =>
    intro hm
    have hprev := ih (by omega)
    show (fun t : State => if bit (t.reg (ADC_TRGMAP_CAP m)) (2 * c + (if rising then 0 else 1)) then t.seqGo m else t) (s.forAll m _) = s
    rw [hprev]
    exact if_neg (by simp [h m (by omega), bit])

theorem State.captureTrigger_off (c : Nat) (rising : Bool) (h : ∀ t, t < 8 → s.actFld (CHS_TRG_EN t) = 0) : s.captureTrigger c rising = s := by
  have hnone : (List.range 8).find? (fun t => s.trigMatches 3 c none t &&
      (s.actFld (CHS_TRG_EDGE t)).testBit (if rising then 0 else 1)) = none := by
    refine List.find?_eq_none.mpr fun t ht => ?_
    simp [State.trigMatches, h t (List.mem_range.mp ht)]
  unfold State.captureTrigger
  rw [hnone]

theorem ADC_TRGMAP_CAP_apart (k : Nat) (hk : k < 16) :
    ADC_TRGMAP_CAP k ≠ TIM_CAP_STATUS ∧ ADC_TRGMAP_CAP k ≠ TIM_FLAGS ∧ ADC_TRGMAP_CAP k ≠ TIM_CNT1 := by
  simp only [ADC_TRGMAP_CAP, TIM_CAP_STATUS, TIM_FLAGS, TIM_CNT1]
  omega

section
variable {s : State} {c : Fin 16} {rising : Bool}

/-- An edge of a running device: its stamp, and the word of the Trestle inputs. -/
theorem captureEdge_running (hi : s.islandsRun = true) (hd : s.dataRuns = true) (hr : ∀ k, k < 16 → s.reg (ADC_TRGMAP_CAP k) = 0)
    (ht : ∀ t, t < 8 → s.actFld (CHS_TRG_EN t) = 0) : s.captureEdge c rising =
      ((s.onCap c (fun x => { x with level := rising })).captureStamp c rising).deliverAll 2 c (Config.captureWord rising s.stamp) := by
  have hroute : ((s.onCap c (fun x => { x with level := rising })).captureStamp c rising).captureRoute c rising =
      (s.onCap c (fun x => { x with level := rising })).captureStamp c rising := by
    refine State.captureRoute_off _ c rising fun k hk => ?_
    obtain ⟨h1, h2, h3⟩ := ADC_TRGMAP_CAP_apart k hk
    exact (State.reg_captureStamp _ c rising h1 h2 h3).trans (hr k hk)
  unfold State.captureEdge
  dsimp only
  rw [hroute, if_pos hi, if_pos hd]
  refine State.captureTrigger_off _ c rising fun t h => ?_
  rw [State.actFld, State.actReg, State.deliverAll_act, State.captureStamp_act]
  exact ht t h

theorem captureEdge_stamped (hi : s.islandsRun = false) (hd : s.dataRuns = false) :
    s.captureEdge c rising = (s.onCap c (fun x => { x with level := rising })).captureStamp c rising := by
  unfold State.captureEdge
  dsimp only
  rw [if_neg (by simp [hd]), if_neg (by simp [hi])]

theorem exec_captureEdge {held : Nat} (hacc : s.edgeAccepted c rising held = true) (hr : s.devRuns = true) :
    exec (.captureEdge c ⟨rising, held⟩) s = .next (s.captureEdge c rising) :=
  congrArg Host.Outcome.next ((if_neg (by simp [hacc])).trans (if_pos hr))

end

section
variable {c : Nat} {rising : Bool}

/-- A stamp that the FIFO takes. -/
theorem State.captureStamp_taken (he : (s.fld (TIM_CAP_CFG_EDGE c)).testBit (if rising then 0 else 1) = true) (h : (s.capOf c).fifo.length < 4) :
    s.captureStamp c rising =
      (s.onCap c (fun x => { x with fifo := x.fifo ++ [⟨s.stamp, rising⟩] })).setFldBit TIM_CAP_STATUS_NONEMPTY c true := by
  unfold State.captureStamp
  rw [if_pos he, if_pos h]

/-- A stamp that a full FIFO loses. -/
theorem State.captureStamp_lost (he : (s.fld (TIM_CAP_CFG_EDGE c)).testBit (if rising then 0 else 1) = true) (h : 4 ≤ (s.capOf c).fifo.length) :
    s.captureStamp c rising = ((s.setFldBit TIM_CAP_STATUS_CAP_OVF c true).setFlag TIM_FLAGS_CAP_OVF).count TIM_CNT1_CAP_OVF_CNT := by
  unfold State.captureStamp
  rw [if_pos he, if_neg (by omega)]

theorem State.captureStamp_none (he : (s.fld (TIM_CAP_CFG_EDGE c)).testBit (if rising then 0 else 1) = false) : s.captureStamp c rising = s := by
  unfold State.captureStamp
  rw [if_neg (by simpa using he)]

end

/-- Settles O38: an accepted edge by its stamp's three cases, with routes and triggers off. -/
theorem captureEdges : Obligations.CaptureEdges := by
  rintro c rising held s u hacc rfl
  refine ⟨fun hi hd hr ht => ?_, fun hr hi hd => ?_, fun k hno => congrArg Host.Outcome.next (if_pos (by simp [hno]))⟩
  · have hrun := (exec_captureEdge hacc (s.devRuns_of_islandsRun hi)).trans (congrArg Host.Outcome.next (captureEdge_running hi hd hr ht))
    have hfifo : ((s.onCap c (fun x => { x with level := rising })).capOf c).fifo = (s.capOf c).fifo := by simp
    generalize hu : s.onCap c (fun x => { x with level := rising }) = u at hrun hfifo ⊢
    have hcfg : u.fld (TIM_CAP_CFG_EDGE c) = s.fld (TIM_CAP_CFG_EDGE c) := by rw [← hu]; rfl
    have hstamp : u.stamp = s.stamp := by rw [← hu]; rfl
    rw [← hcfg, ← hfifo]
    refine ⟨fun he hlen => hrun.trans ?_, fun he hlen => hrun.trans ?_, fun he => hrun.trans ?_⟩
    · rw [u.captureStamp_taken he hlen, hstamp]
    · rw [u.captureStamp_lost he hlen]
    · rw [u.captureStamp_none he]
  · exact (exec_captureEdge hacc hr).trans (congrArg Host.Outcome.next (captureEdge_stamped hi hd))

end Sys2Proof.Machine
end

section
/-! O9: the steps of a station period. -/

namespace Sys2Proof.Machine

/-! ### What the work for a station leaves alone

The loops of a station change that station only, and of it never the list of the loops that are done. One function of
the state says both, so that each function of the work has one equation. -/

def State.aside (s : State) (n : Nat) : (Nat → Option Stn) × BitVec 64 :=
  (fun j => if j = n then none else some (s.stnOf j), (s.stnOf n).per.loopsDone)

theorem State.stnOf_of_aside {s t : State} {n j : Nat} (h : t.aside n = s.aside n) (hj : j ≠ n) :
    t.stnOf j = s.stnOf j := by
  have hf := congrFun (congrArg Prod.fst h) j
  simpa [State.aside, hj] using hf

theorem State.loopsDone_of_aside {s t : State} {n : Nat} (h : t.aside n = s.aside n) :
    (t.stnOf n).per.loopsDone = (s.stnOf n).per.loopsDone := congrArg Prod.snd h

theorem State.aside_of_stn {s t : State} (h : t.stn = s.stn) (n : Nat) : t.aside n = s.aside n := by
  simp only [State.aside, State.stnOf, h]

@[simp] theorem ite_aside (c : Prop) [Decidable c] (a b : State) (n : Nat) :
    (if c then a else b).aside n = if c then a.aside n else b.aside n := apply_ite (fun t => t.aside n) c a b

@[simp] theorem foldl_aside {β : Type} {f : State → β → State} {n : Nat} (h : ∀ t x, (f t x).aside n = t.aside n)
    (l : List β) (s : State) : (l.foldl f s).aside n = s.aside n :=
  foldl_rel (fun a b => b.aside n = a.aside n) (fun _ => rfl) (fun _ _ _ h h' => h'.trans h) f h l s

variable (s : State) (n : Nat)

/-! ### The operations of the state -/

@[simp] theorem State.aside_onStn {f : Stn → Stn} (h : ∀ u, (f u).per.loopsDone = u.per.loopsDone) :
    (s.onStn n f).aside n = s.aside n := by
  have hother (j : Nat) :
      (if j = n then none else some ((s.onStn n f).stnOf j)) = if j = n then none else some (s.stnOf j) := by
    split
    · rfl
    · next hj => rw [s.stnOf_onStn_ne f hj]
  exact Prod.ext (funext hother) ((congrArg (fun u : Stn => u.per.loopsDone) (s.stnOf_onStn n f)).trans (h _))

@[simp] theorem State.aside_onPer {f : Period → Period} (h : ∀ p, (f p).loopsDone = p.loopsDone) :
    (s.onPer n f).aside n = s.aside n :=
  s.aside_onStn n (fun u => h u.per)

@[simp] theorem State.aside_onCore (f : Core → Core) : (s.onCore n f).aside n = s.aside n := s.aside_onStn n (fun _ => rfl)
@[simp] theorem State.aside_onCores (f : Core → Core) : (s.onCores n f).aside n = s.aside n :=
  s.aside_onStn n (fun _ => rfl)
@[simp] theorem State.aside_onLim (f : Limiting → Limiting) : (s.onLim n f).aside n = s.aside n :=
  s.aside_onStn n (fun _ => rfl)
@[simp] theorem State.aside_onStart (f : Start → Start) : (s.onStart n f).aside n = s.aside n :=
  s.aside_onStn n (fun _ => rfl)
@[simp] theorem State.aside_setReg (a : Nat) (w : Word) : (s.setReg a w).aside n = s.aside n := State.aside_of_stn rfl n
@[simp] theorem State.aside_setFld (f : Fld) (v : Nat) : (s.setFld f v).aside n = s.aside n := State.aside_of_stn rfl n
@[simp] theorem State.aside_setFlag (f : Fld) : (s.setFlag f).aside n = s.aside n := State.aside_of_stn rfl n
@[simp] theorem State.aside_count (f : Fld) : (s.count f).aside n = s.aside n := State.aside_of_stn rfl n
@[simp] theorem State.aside_setBoth (a : Nat) (w : Word) : (s.setBoth a w).aside n = s.aside n := State.aside_of_stn rfl n
@[simp] theorem State.aside_onPwm (k : Nat) (f : PwmUnit → PwmUnit) : (s.onPwm k f).aside n = s.aside n :=
  State.aside_of_stn rfl n
@[simp] theorem State.aside_leaveService : (s.leaveService n).aside n = s.aside n := State.aside_of_stn rfl n
@[simp] theorem State.aside_keepStandby (t : State) : (s.keepStandby t n).aside n = s.aside n :=
  s.aside_onStn n (fun _ => rfl)

@[simp] theorem State.aside_setFlagIf (b : Bool) (f : Fld) : (s.setFlagIf b f).aside n = s.aside n := by
  cases b
  · exact State.aside_of_stn rfl n
  · exact State.aside_of_stn rfl n

@[simp] theorem State.aside_setDmem (e i : Nat) (w : Word) : (s.setDmem e i w).aside n = s.aside n := by
  unfold State.setDmem
  split
  · exact State.aside_of_stn rfl n
  · exact State.aside_of_stn rfl n

/-! ### Variables, local values and marks of a loop -/

@[simp] theorem State.aside_setLoc (k j : Nat) (x : Rat) : (s.setLoc n k j x).aside n = s.aside n :=
  s.aside_onStn n (fun _ => rfl)
@[simp] theorem State.aside_setLoc2 (k j : Nat) (v : Vec2) : (s.setLoc2 n k j v).aside n = s.aside n := by
  simp [State.setLoc2]
@[simp] theorem State.aside_setVar (i : Nat) (x : Rat) : (s.setVar n i x).aside n = s.aside n :=
  s.aside_onStn n (fun _ => rfl)

@[simp] theorem State.aside_putVar (k : Nat) (x : Rat) (v : Var) : (s.putVar n k x v).aside n = s.aside n := by
  unfold State.putVar
  split
  · exact s.aside_onStn n (fun _ => rfl)
  · exact s.aside_setVar n _ x
  · exact s.aside_setLoc n k _ x
  · exact s.aside_onCore n _

@[simp] theorem State.aside_put2 (k : Nat) (x : Vec2) (v : Var2) : (s.put2 n k x v).aside n = s.aside n := by
  simp [State.put2]
@[simp] theorem State.aside_put3 (k : Nat) (x : Abc) (v : Var3) : (s.put3 n k x v).aside n = s.aside n := by
  simp [State.put3]
@[simp] theorem State.aside_scaleInputs (k : Nat) (l : List InScale) : (s.scaleInputs n k l).aside n = s.aside n := by
  simp [State.scaleInputs]

@[simp] theorem State.aside_runPiPair (k j : Nat) (e ff : Vec2) (dt lo hi : Rat) (hold : Bool) :
    (s.runPiPair n k j e ff dt lo hi hold).2.aside n = s.aside n := s.aside_setLoc2 n k j _

@[simp] theorem State.aside_markClamp (acts : Bool) : (s.markClamp n acts).aside n = s.aside n := by simp [State.markClamp]
@[simp] theorem State.aside_markOvermod (acts : Bool) : (s.markOvermod n acts).aside n = s.aside n := by
  simp [State.markOvermod]
@[simp] theorem State.aside_markEmf (clamped : Bool) : (s.markEmf n clamped).aside n = s.aside n := by simp [State.markEmf]

/-! ### Compare values of the modulators (R179) -/

@[simp] theorem State.aside_shadowPwm (a : Nat) (w : Word) : (s.shadowPwm n a w).aside n = s.aside n :=
  State.aside_of_stn rfl n
@[simp] theorem State.aside_armUpdate : (s.armUpdate n).aside n = s.aside n := by simp [State.armUpdate]
@[simp] theorem State.aside_writeCompares (l : List (Nat × Rat)) : (s.writeCompares n l).aside n = s.aside n := by
  refine (State.aside_armUpdate _ n).trans (foldl_aside (fun t e => ?_) l s)
  exact (State.aside_shadowPwm _ n _ _).trans (t.aside_shadowPwm n _ _)

/-! ### The blocks -/

@[simp] theorem State.aside_takeBudget (x : Rat) : (s.takeBudget n x).aside n = s.aside n := by simp [State.takeBudget]
@[simp] theorem State.aside_blkEnvelope : (s.blkEnvelope n).aside n = s.aside n := by simp [State.blkEnvelope]
@[simp] theorem State.aside_blkGovernor : (s.blkGovernor n).aside n = s.aside n := by simp [State.blkGovernor]
@[simp] theorem State.aside_rampStep (target tRamp : Rat) : (s.rampStep n target tRamp).aside n = s.aside n := by
  simp [State.rampStep]
@[simp] theorem State.aside_exciteStep : (s.exciteStep n).aside n = s.aside n := by simp [State.exciteStep]
@[simp] theorem State.aside_matchStep : (s.matchStep n).aside n = s.aside n := by simp [State.matchStep]

@[simp] theorem State.aside_blkExcitation : (s.blkExcitation n).aside n = s.aside n := by
  unfold State.blkExcitation
  dsimp only
  split
  · split <;> simp
  · split <;> simp
  · exact s.aside_exciteStep n

@[simp] theorem State.aside_blkDamping : (s.blkDamping n).aside n = s.aside n := s.aside_onCore n _
@[simp] theorem State.aside_blkPower : (s.blkPower n).aside n = s.aside n := s.aside_onCore n _
@[simp] theorem State.aside_blkSpeed : (s.blkSpeed n).aside n = s.aside n := by simp [State.blkSpeed]
@[simp] theorem State.aside_blkAngle : (s.blkAngle n).aside n = s.aside n := s.aside_onCore n _
@[simp] theorem State.aside_blkAbcDq (v i : Abc) (vdc : Rat) : (s.blkAbcDq n v i vdc).aside n = s.aside n := by
  simp [State.blkAbcDq]
@[simp] theorem State.aside_blkCeiling : (s.blkCeiling n).aside n = s.aside n := by simp [State.blkCeiling]
@[simp] theorem State.aside_countLimTime : (s.countLimTime n).aside n = s.aside n := s.aside_onLim n _
@[simp] theorem State.aside_blkCurLimit : (s.blkCurLimit n).aside n = s.aside n := by simp [State.blkCurLimit]
@[simp] theorem State.aside_blkVirtImp : (s.blkVirtImp n).aside n = s.aside n := s.aside_onCore n _
@[simp] theorem State.aside_blkHarmonic (ch : Nat) : (s.blkHarmonic n ch).aside n = s.aside n := by simp [State.blkHarmonic]
@[simp] theorem State.aside_refClamp : (s.refClamp n).aside n = s.aside n := by simp [State.refClamp]
@[simp] theorem State.aside_blkVoltageLoop (k j : Nat) (dt lo hi : Rat) :
    (s.blkVoltageLoop n k j dt lo hi).aside n = s.aside n := by
  simp [State.blkVoltageLoop]
@[simp] theorem State.aside_blkModulate (v : Vec2) (hbs : List Nat) : (s.blkModulate n v hbs).aside n = s.aside n := by
  simp [State.blkModulate]
@[simp] theorem State.aside_blkSyncAngle (vbus : Abc) : (s.blkSyncAngle n vbus).aside n = s.aside n := by
  simp [State.blkSyncAngle]

@[simp] theorem State.aside_runBlock (k : Nat) (dt : Rat) (j : Nat) (hold : Bool) (b : Block) :
    (s.runBlock n k dt j hold b).aside n = s.aside n := by
  unfold State.runBlock
  split <;> simp

theorem State.aside_runBlocks (k : Nat) (dt : Rat) (held : List Var) (j : Nat) (l : List Block) :
    (s.runBlocks n k dt held j l).1.aside n = s.aside n := by
  induction l generalizing s j with
  | nil => rfl
  | cons b l ih =>
    rw [State.runBlocks]
    exact (ih _ _).trans (by simp)

theorem State.aside_runLoop (k : Nat) (dt : Rat) (l : List Block) : (s.runLoop n k dt l).aside n = s.aside n := by
  unfold State.runLoop
  dsimp only
  split <;> exact s.aside_runBlocks n k dt _ 0 l

/-! ### The work around the blocks -/

@[simp] theorem State.aside_runBoth (t : State) (k : Nat) (dt : Rat) (d : LoopDesc) :
    (s.runBoth t n k dt d).aside n = t.aside n := by simp [State.runBoth]

@[simp] theorem State.aside_sendSetPoints (k : Nat) (d : LoopDesc) : (s.sendSetPoints n k d).aside n = s.aside n := by
  unfold State.sendSetPoints
  split
  · simp
  · rfl

@[simp] theorem State.aside_noteFinish (e m cycles : Nat) : (s.noteFinish e m cycles).aside n = s.aside n := by
  simp [State.noteFinish]

@[simp] theorem State.aside_applySettings : s.applySettings.aside n = s.aside n := by
  refine (foldl_aside ?_ _ _).trans rfl
  exact fun _ _ => rfl

@[simp] theorem State.aside_setSt (st : StnState) : (s.setSt n st).aside n = s.aside n := by simp [State.setSt]
@[simp] theorem State.aside_noteTurn (row : Nat) (st : StnState) : (s.noteTurn n row st).aside n = s.aside n := by
  simp [State.noteTurn]

@[simp] theorem State.aside_backFld (f : Option Fld) (x : Nat) : (s.backFld f x).aside n = s.aside n := by
  cases f <;> rfl

@[simp] theorem State.aside_undoTurn : (s.undoTurn n).aside n = s.aside n := by
  unfold State.undoTurn
  dsimp only
  split
  · rfl
  · simp

@[simp] theorem State.aside_enterRide : (s.enterRide n).aside n = s.aside n := by simp [State.enterRide]
@[simp] theorem State.aside_watchVoltage : (s.watchVoltage n).aside n = s.aside n := s.aside_onStn n (fun _ => rfl)
@[simp] theorem State.aside_voltageChecks : (s.voltageChecks n).aside n = s.aside n := by simp [State.voltageChecks]
@[simp] theorem State.aside_enterLimiting (row : Nat) : (s.enterLimiting n row).aside n = s.aside n := by
  simp [State.enterLimiting]
@[simp] theorem State.aside_limitChecks : (s.limitChecks n).aside n = s.aside n := by simp [State.limitChecks]
@[simp] theorem State.aside_finishWork : (s.finishWork n).aside n = s.aside n := by simp [State.finishWork]

/-! ### The end of a loop (R131, R153) -/

theorem State.aside_onPer_of_aside {s t : State} {n : Nat} {f : Period → Period}
    (hf : ∀ p q, p.loopsDone = q.loopsDone → (f p).loopsDone = (f q).loopsDone) (h : t.aside n = s.aside n) :
    (t.onPer n f).aside n = (s.onPer n f).aside n := by
  have hother (j : Nat) :
      (if j = n then none else some ((t.onPer n f).stnOf j)) =
      if j = n then none else some ((s.onPer n f).stnOf j) := by
    split
    · rfl
    · next hj =>
      exact congrArg some ((t.stnOf_onStn_ne _ hj).trans ((State.stnOf_of_aside h hj).trans (s.stnOf_onStn_ne _ hj).symm))
  refine Prod.ext (funext hother) ?_
  simpa [State.aside] using hf _ _ (State.loopsDone_of_aside h)

/-- The mark that loop `k` is done. -/
def Period.markDone (k : Nat) (p : Period) : Period := { p with loopsDone := p.loopsDone ||| BitVec.ofNat 64 (2 ^ k) }

theorem State.aside_completeLoop {k cycles standby : Nat} {d : LoopDesc} (hd : s.stnLoop n k = some d) (hup : s.activeUp = true)
    (hsv : s.serving = some (Fin.ofNat 4 n)) (hk : (s.openLoops n).head? = some k) :
    (s.completeLoop n k cycles standby).aside n = (s.onPer n (Period.markDone k)).aside n := by
  have hcommit (t : State) (h : t.aside n = s.aside n) :
      (t.onPer n (fun p => { p with loopsDone := p.loopsDone ||| BitVec.ofNat 64 (2 ^ k) })).aside n =
      (s.onPer n (Period.markDone k)).aside n :=
    State.aside_onPer_of_aside (f := Period.markDone k) (fun p q h => congrArg (· ||| BitVec.ofNat 64 (2 ^ k)) h) h
  have hgo : ¬ ((!s.activeUp) = true ∨ s.serving ≠ some (Fin.ofNat 4 n) ∨ (s.openLoops n).head? ≠ some k) := by simp [hup, hsv, hk]
  have hrun := s.aside_runLoop n k ((d.rate : Rat) * s.tPer n) d.blocks
  simp only [State.completeLoop, hd, if_neg hgo]
  generalize s.runLoop n k ((d.rate : Rat) * s.tPer n) d.blocks = s1 at hrun ⊢
  have hsent :
      (if d.priv = true then s.runBoth s1 n k ((d.rate : Rat) * s.tPer n) d else s1.sendSetPoints n k d).aside n = s.aside n := by
    split <;> simp [hrun]
  generalize (if d.priv = true then s.runBoth s1 n k ((d.rate : Rat) * s.tPer n) d else s1.sendSetPoints n k d) = s2 at hsent ⊢
  have hdone := hcommit s2 hsent
  generalize s2.onPer n (fun p => { p with loopsDone := p.loopsDone ||| BitVec.ofNat 64 (2 ^ k) }) = s3 at hdone ⊢
  simp [hdone]

theorem State.loopsDone_markDone {k : Nat} (hk : k < 64) :
    ((s.onPer n (Period.markDone k)).stnOf n).per.loopsDone.getLsbD k = true := by
  rw [State.stnOf_onPer, Period.markDone, BitVec.getLsbD_or, BitVec.getLsbD_ofNat, Nat.testBit_two_pow_self, decide_eq_true hk]
  exact Bool.or_true _

/-! ### The start of the work for a station (R132) -/

/-- The inputs from within the device move input watches, data memories and draws only. -/
theorem State.deliver_frame (i : Nat) (w : Word) (h : s.fld (TRS_IN_CFG_SRC_TYPE (slotNo n i)) = 3) :
    ∃ x a b, s.deliver n i w = { s with inp := x, dmemA := a, dmemB := b } := by
  have hset (e j : Nat) (t : State) : ∃ a b, t.setDmem e j w = { t with dmemA := a, dmemB := b } := by
    unfold State.setDmem
    split
    · exact ⟨_, _, rfl⟩
    · exact ⟨_, _, rfl⟩
  have hengines (j : Nat) (t : State) :
      ∃ a b, s.engines.foldl (fun t e => t.setDmem e j w) t = { t with dmemA := a, dmemB := b } := by
    refine foldl_rel (fun t u => ∃ a b, u = { t with dmemA := a, dmemB := b }) (fun _ => ⟨_, _, rfl⟩) ?_ _ (fun t e => hset e j t) _ t
    rintro t _ _ ⟨_, _, rfl⟩ ⟨a, b, rfl⟩
    exact ⟨a, b, rfl⟩
  have hnote : s.noteSample n i w = s.watchSample n i w := by simp [State.noteSample, h]
  cases hl : (s.inpOf n i).lost
  · obtain ⟨x, hx⟩ : ∃ x, (s.noteSample n i w).onInp n i (fun x => { x with value := w }) = { s with inp := x } := by
      rw [hnote]
      exact ⟨_, rfl⟩
    obtain ⟨a, b, he⟩ := hengines (0xE000 + n * 512 + i) { s with inp := x }
    have hs := s.deliver_sound n i w hl
    rw [hx] at hs
    exact ⟨x, a, b, hs.trans he⟩
  · exact ⟨_, _, _, (s.deliver_lost n i w hl).trans hnote⟩

theorem State.internalInputs_frame : ∃ x a b d, s.internalInputs n = { s with inp := x, dmemA := a, dmemB := b, draws := d } := by
  refine foldl_rel (fun t u => ∃ x a b d, u = { t with inp := x, dmemA := a, dmemB := b, draws := d }) (fun _ => ⟨_, _, _, _, rfl⟩) ?_ _
    (fun t i => ?_) _ s
  · rintro t _ _ ⟨_, _, _, _, rfl⟩ ⟨x, a, b, d, rfl⟩
    exact ⟨x, a, b, d, rfl⟩
  · dsimp only
    split
    · next h =>
      have hty : t.fld (TRS_IN_CFG_SRC_TYPE (slotNo n i)) = 3 := by
        simp only [Bool.and_eq_true, beq_iff_eq] at h
        exact h.1.2
      obtain ⟨x, a, b, he⟩ := t.deliver_frame n i (Config.internalWord (t.fld (TRS_IN_CFG_SRC_INDEX (slotNo n i))) t.draws) hty
      exact ⟨x, a, b, _, congrArg State.draw he⟩
    · exact ⟨_, _, _, _, rfl⟩

/-- The state in which the engine serves station `n`, whose inputs from within the device are not in yet. -/
def State.served (s : State) (n : Nat) : State :=
  { s.onPer n (fun p => { p with started := true }) with serving := some (Fin.ofNat 4 n), ready := s.ready.tail }

theorem State.stnOf_served :
    (s.served n).stnOf n = { s.stnOf n with per := { (s.stnOf n).per with started := true } } :=
  s.stnOf_onPer n (fun p => { p with started := true })

theorem State.openLoops_served : (s.served n).openLoops n = s.openLoops n := by
  have hst := s.stnOf_served n
  have hswap (j : Nat) : ((s.served n).stnOf j).swapPending = (s.stnOf j).swapPending := by
    by_cases hj : j = n
    · rw [hj, hst]
    · exact congrArg Stn.swapPending (s.stnOf_onStn_ne (fun u => { u with per := { u.per with started := true } }) hj)
  have himg : (s.served n).imageOf n = s.imageOf n := by
    have hswapping : (s.served n).swapping = s.swapping := by simp only [State.swapping, hswap]
    simp only [State.imageOf, hswap, hswapping]
    rfl
  have hdue : (s.served n).dueLoops n = s.dueLoops n := by simp only [State.dueLoops, State.stnLoop, hst, himg]
  simp only [State.openLoops, hst, hdue]

theorem State.startWork_running (hrun : (s.pwmOf n).run = true) (hst : (s.stnOf n).per.started = false)
    (hfin : (s.stnOf n).per.finished = false) (hup : s.activeUp = true) (hsv : s.serving = none)
    (hrd : s.ready.head?.map (fun e => e.2) = some n) (hty : s.stnType n = 0) (hrunning : (s.stnOf n).st = .running)
    (hopen : s.openLoops n ≠ []) : s.startWork n = (s.served n).internalInputs n := by
  have hgo : (!(s.pwmOf n).run || (s.stnOf n).per.started || (s.stnOf n).per.finished || !s.activeUp || s.serving.isSome ||
      s.ready.head?.map (fun e => e.2) != some n) = false := by simp [hrun, hst, hfin, hup, hsv, hrd]
  obtain ⟨x, a, b, d, hf⟩ := (s.served n).internalInputs_frame n
  have hchecks : ((s.served n).internalInputs n).startChecks n = (s.served n).internalInputs n := by
    have h : (((s.served n).internalInputs n).stnOf n).st = .running := by
      rw [hf]
      exact (congrArg Stn.st (s.stnOf_served n)).trans hrunning
    simp only [State.startChecks, h]
  have htype : ((s.served n).internalInputs n).stnType n = 0 := by
    rw [hf]
    exact hty
  have hwork : (((s.served n).internalInputs n).openLoops n).isEmpty = false := by
    have h : ((s.served n).internalInputs n).openLoops n = s.openLoops n := by
      rw [hf]
      exact s.openLoops_served n
    rw [h]
    exact List.isEmpty_eq_false_iff.mpr hopen
  unfold State.startWork
  simp only [hgo, Bool.false_eq_true, if_false]
  change (let s3 := ((s.served n).internalInputs n).startChecks n
    let s4 := if s3.stnType n = 0 then s3 else s3.blkCeiling n
    if (s4.openLoops n).isEmpty = true then s4.finishWork n else s4) = _
  simp only [hchecks, htype, if_true, hwork, Bool.false_eq_true, if_false]

theorem State.startWork_serves {n : Fin 4} (hrun : (s.pwmOf n).run = true) (hst : (s.stnOf n).per.started = false)
    (hfin : (s.stnOf n).per.finished = false) (hup : s.activeUp = true) (hsv : s.serving = none)
    (hrd : s.ready.head?.map (fun e => e.2) = some n.val) (hty : s.stnType n = 0) (hrunning : (s.stnOf n).st = .running)
    (hopen : s.openLoops n ≠ []) :
    (s.startWork n).serving = some n ∧ (s.startWork n).ready = s.ready.tail ∧ ((s.startWork n).stnOf n).per.started = true ∧
      ((s.startWork n).stnOf n).per.finished = false ∧ (s.startWork n).regs = s.regs ∧ (s.startWork n).mem = s.mem := by
  obtain ⟨x, a, b, d, hf⟩ := (s.served n).internalInputs_frame n
  have hstn : ((s.served n).stnOf n).per = { (s.stnOf n).per with started := true } :=
    congrArg Stn.per (s.stnOf_served n)
  rw [s.startWork_running n hrun hst hfin hup hsv hrd hty hrunning hopen, hf]
  exact ⟨congrArg some (Fin.ofNat_val_eq_self n), rfl, congrArg Period.started hstn, (congrArg Period.finished hstn).trans hfin, rfl, rfl⟩

/-! ### The deadline and the snapshot of a period (R154, R36) -/

theorem State.deadline_inTime (hup : s.activeUp = true) (hrun : (s.pwmOf n).run = true) (hlist : s.listComplete n = true)
    (hopen : s.openLoops n = []) :
    s.deadline n = ((s.setFld (TRS_OVR_STAT_CONSEC s.activeEng n) 0).onPer n (fun p => { p with finished := true })).leaveService n := by
  simp [State.deadline, hup, hrun, hlist, hopen]

theorem State.writeSnap_dropped (hrun : (s.pwmOf n).run = true) (hfin : (s.stnOf n).per.finished = true)
    (hsnap : (s.stnOf n).per.snapped = false) (hcopy : s.copyOpen n = false) :
    s.writeSnap n false = (s.onPer n (fun p => { p with snapped := true })).count (GFM_SNAP_DROP_DROP n) := by
  simp [State.writeSnap, hrun, hfin, hsnap, hcopy]

/-- Settles O9: a loop keeps what `State.aside` shows but for its own mark, and the other steps by their accepting branch. -/
theorem periodWork : Obligations.PeriodWork := by
  refine ⟨fun n s hr hg => ⟨fun hrun => ?_, fun t ht => ?_, fun hrun hst hfin hup hsv hrd hty hrunning hopen => ?_, ?_, fun hst => ?_⟩,
    fun n s hr => ⟨fun k d cycles standby hd hup hsv hk => ?_, fun hrun hup hlist hopen => ?_, fun hrun hfin hsnap hcopy => ?_⟩⟩
  · exact (whenRun_run s hr).trans (by simp [hg, hrun])
  · exact (whenRun_run s hr).trans (by simp [hg, ht])
  · obtain ⟨hserving, hready, hstarted, hfinished, hregs, hmem⟩ := s.startWork_serves hrun hst hfin hup hsv hrd hty hrunning hopen
    exact ⟨_, (whenRun_run s hr).trans (by rw [hg, if_pos rfl]), hserving, hready, hstarted, hfinished, hregs, hmem⟩
  · exact readWindow_open s hr (by rw [s.window_gfm, hg])
  · exact (whenRun_run s hr).trans (by simp [hst])
  · have hof : s.serving = some (Fin.ofNat 4 n) := hsv.trans (congrArg some (Fin.ofNat_val_eq_self n).symm)
    have haside := s.aside_completeLoop n (cycles := cycles) (standby := standby) hd hup hof hk
    refine ⟨_, whenRun_run s hr, ?_, fun j hj => ?_, State.byte_of_mem (State.completeLoop_keeps s n k cycles standby).2.1⟩
    · rw [State.loopsDone_of_aside haside]
      exact s.loopsDone_markDone n k.isLt
    · exact (State.stnOf_of_aside haside hj).trans (s.stnOf_onStn_ne _ hj)
  · exact (whenRun_run s hr).trans (congrArg Host.Outcome.next (s.deadline_inTime n hup hrun hlist hopen))
  · exact (whenRun_run s hr).trans (congrArg Host.Outcome.next (s.writeSnap_dropped n hrun hfin hsnap hcopy))

end Sys2Proof.Machine
end

section
/-! O40: what a write leaves in a field, by its class. -/

namespace Sys2Proof.Machine

/-- Two fields share no bit. -/
def FieldDesc.apart (f g : FieldDesc) : Bool := Nat.ble (f.lo + f.w) g.lo || Nat.ble (g.lo + g.w) f.lo

/-- Fields that lie within 32 bits and share no bit. -/
def fieldsFit : List FieldDesc → Bool
  | [] => true
  | f :: l => Nat.ble (f.lo + f.w) 32 && l.all (fun g => f.apart g && g.apart f) && fieldsFit l

/-- The fields of every register of the map fit. -/
theorem regMap_fits : regMap.all (fun r => fieldsFit r.fields) = true := by decide +kernel

theorem bits_putBits_apart {f g : FieldDesc} (hf : f.lo + f.w ≤ 32) (h : f.apart g = true) (v : Word) (n : Nat) :
    bits (putBits v f.lo f.w n) g.lo g.w = bits v g.lo g.w := by
  refine bits_putBits_ne v n hf ?_
  simp only [FieldDesc.apart, Bool.or_eq_true, Nat.ble_eq] at h
  omega

/-- What a write of `new` leaves in a field that holds `old`. -/
def fieldAfter (f : FieldDesc) (idle : Bool) (new old : Nat) : Nat :=
  match f.acc with
  | .ro | .wo | .rc => old
  | .w1c => old - (old &&& new)
  | .cnt => if new = 2 ^ f.w - 1 then 0 else old
  | .rw => if f.cls = .idle ∧ idle = false then old else new

section
variable {f : FieldDesc} (hf : f.lo + f.w ≤ 32) (idle : Bool) (wr old : Word)
include hf

theorem bits_applyField : bits (applyField idle wr old f) f.lo f.w = fieldAfter f idle (bits wr f.lo f.w) (bits old f.lo f.w) := by
  have hself (v : Word) (n : Nat) (hn : n < 2 ^ f.w) : bits (putBits v f.lo f.w n) f.lo f.w = n :=
    (bits_putBits_self v n hf).trans (Nat.mod_eq_of_lt hn)
  unfold applyField fieldAfter
  cases f.acc with
  | ro => rfl
  | wo => rfl
  | rc => rfl
  | w1c => exact hself _ _ (Nat.lt_of_le_of_lt (Nat.sub_le _ _) (bits_lt _ _ _))
  | cnt =>
    dsimp only [clearCount]
    split
    · exact hself _ _ (by positivity)
    · rfl
  | rw =>
    cases hc : f.cls <;> cases idle <;> simp [hself _ _ (bits_lt wr f.lo f.w)]

theorem bits_applyField_apart {g : FieldDesc} (h : f.apart g = true) :
    bits (applyField idle wr old f) g.lo g.w = bits old g.lo g.w := by
  have hput := bits_putBits_apart hf h
  unfold applyField
  cases f.acc with
  | ro => rfl
  | wo => rfl
  | rc => rfl
  | w1c => exact hput _ _
  | cnt =>
    dsimp only [clearCount]
    split
    · exact hput _ _
    · rfl
  | rw =>
    cases f.cls <;> cases idle <;> simp [hput]

end

theorem bits_foldl_apart {l : List FieldDesc} (hl : fieldsFit l = true) {g : FieldDesc} (hg : l.all (fun f => f.apart g) = true)
    (idle : Bool) (wr old : Word) : bits (l.foldl (applyField idle wr) old) g.lo g.w = bits old g.lo g.w := by
  induction l generalizing old with
  | nil => rfl
  | cons f l ih =>
    simp only [fieldsFit, Bool.and_eq_true, Nat.ble_eq] at hl
    simp only [List.all_cons, Bool.and_eq_true] at hg
    rw [List.foldl_cons, ih hl.2 hg.2, bits_applyField_apart hl.1.1 idle wr old hg.1]

/-- A write leaves in each field what its class says. -/
theorem bits_foldl_applyField {l : List FieldDesc} (hl : fieldsFit l = true) {f : FieldDesc} (hf : f ∈ l) (idle : Bool) (wr old : Word) :
    bits (l.foldl (applyField idle wr) old) f.lo f.w = fieldAfter f idle (bits wr f.lo f.w) (bits old f.lo f.w) := by
  induction l generalizing old with
  | nil => cases hf
  | cons g l ih =>
    simp only [fieldsFit, Bool.and_eq_true, Nat.ble_eq] at hl
    obtain ⟨⟨hw, hapart⟩, hfit⟩ := hl
    simp only [List.all_eq_true, Bool.and_eq_true] at hapart
    rw [List.foldl_cons]
    rcases List.mem_cons.mp hf with rfl | h
    · rw [bits_foldl_apart hfit (List.all_eq_true.mpr fun x hx => (hapart x hx).2), bits_applyField hw]
    · rw [ih hfit h, bits_applyField_apart hw idle wr old (hapart f h).1]

theorem bits_applyWrite {r : RegDesc} (hr : r ∈ regMap) {f : FieldDesc} (hf : f ∈ r.fields) (idle : Bool) (wr old : Word) :
    bits (applyWrite r idle wr old) f.lo f.w = fieldAfter f idle (bits wr f.lo f.w) (bits old f.lo f.w) :=
  bits_foldl_applyField (List.all_eq_true.mp regMap_fits r hr) hf idle wr old

/-- Settles O40: the fields of a register share no bit, so each one is left as its class says. -/
theorem fieldClasses : Obligations.FieldClasses := by
  intro r f idle wr old hr hf
  rw [bits_applyWrite hr hf]
  refine ⟨fun h => ?_, fun h => ?_, fun h => ?_, fun h hc => ?_, fun h hc hi => ?_⟩
  · rcases h with h | h | h <;> simp [fieldAfter, h]
  · simp [fieldAfter, h]
  · simp [fieldAfter, h]
  · have hnot : ¬(f.cls = .idle ∧ idle = false) := by
      rcases hc with hc | rfl
      · exact fun hn => hc hn.1
      · exact fun hn => absurd hn.2 (by decide)
    simp [fieldAfter, h, hnot]
  · simp [fieldAfter, h, hc, hi]

end Sys2Proof.Machine
end
